-- ==== Sys2Proof/Word.lean ====
section
/-! DEFINITION. The word types, the numbering of the part's resources and the operand types of the commands. -/

namespace Sys2Proof

abbrev Word := BitVec 32
abbrev Byte := BitVec 8
/-- A device address (R7). -/
abbrev Addr := BitVec 44
/-- One bit per lane of a group (R36). -/
abbrev Mask := BitVec 32
/-- The 128 bytes of a line, byte 0 in bits [7:0] (R9, R165). -/
abbrev Line := BitVec 1024
/-- Finite data by key: keys strictly rising; an absent key reads a default named by the reader. -/
abbrev KMap (α : Type) := List (Nat × α)

/-- Compute die 0-7 (R3). -/
abbrev DieId := BitVec 3
/-- Vitrine 0-31 (R4). -/
abbrev VitId := BitVec 5
/-- Linear core index die x 64 + Wing x 32 + cluster x 8 + core (R3). -/
abbrev CoreId := BitVec 9
/-- Cluster index die x 8 + Wing x 4 + cluster (R354). -/
abbrev ClusterId := BitVec 6
/-- Block slot of a core (R68). -/
abbrev SlotId := BitVec 4
/-- Ring of a Vitrine (R262). -/
abbrev RingId := BitVec 11
/-- Media engine 2 x die + engine (R322). -/
abbrev EngineId := BitVec 4
/-- Fabric link (R6). -/
abbrev LinkId := Fin 96
/-- Device-wide HBM channel, and the slice beside it (R16). -/
abbrev ChanId := Fin 768
/-- HBM stack (R5). -/
abbrev StackId := Fin 24
/-- Bundle direction, a row of BUNDLE_STATE (R235). -/
abbrev DirId := Fin 144
/-- Seam direction, a row of SEAM_STATE (R235). -/
abbrev SeamId := Fin 16
/-- Laser group: region x 14 + group for dies 0-7, then the Atrium's 8 (R23). -/
abbrev LaserId := Fin 120
/-- Firmware processor: 0 Curator, 1 Registrar, 2 + d Docent, 10 + d Conservator (R354). -/
abbrev ProcId := Fin 18
/-- Device identity (R244). -/
abbrev DevId := BitVec 16

/-- A thread group: its core, its block's slot and its index in the block (R36). -/
structure GRef where
  core : CoreId
  slot : SlotId
  grp : BitVec 5
  deriving DecidableEq, Repr

/-- The four spaces of a load or store (R37), in the numbering of R65. -/
inductive Space where
  | global | step | cluster | scratch
  deriving DecidableEq, Repr

/-- The three walkers of a core (R113). -/
inductive Walker where
  | a | b | o
  deriving DecidableEq, Repr

/-- The element formats of R75. -/
inductive Fmt where
  | e4m3 | e5m2 | e3m2 | e2m3 | e2m1 | int8 | int4 | int2 | ternary | cb4 | cb2 | bf16 | fp16 | fp32
  deriving DecidableEq, Repr

/-- The rounding modes of R59. -/
inductive RMode where
  | rne | rz | rp | rm
  deriving DecidableEq, Repr

/-- Comparison conditions (R49). -/
inductive Cond where
  | eq | ne | ges | geu | lts | ltu
  deriving DecidableEq, Repr

/-- FP32 comparison (R45). -/
inductive FCond where
  | eq | ne | lt | le | gt | ge
  deriving DecidableEq, Repr

/-- V-class operations (R44, R59, R98). -/
inductive VOp where
  | mov | iadd | isub | imul
  | idiv (signed : Bool) | irem (signed : Bool) | imin (signed : Bool) | imax (signed : Bool)
  | and | or | xor | not
  | fadd | fsub | fmul | ffma | fmin | fmax
  | icmp (c : Cond) | fcmp (c : FCond)
  | i2f (signed : Bool) | widen (f : Fmt)
  deriving DecidableEq, Repr

/-- The three shifts of R462. -/
inductive ShiftOp where
  | shl | shr | sar
  deriving DecidableEq, Repr

/-- The special functions of R60. -/
inductive SfuOp where
  | exp2 | rcp | rsqrt
  deriving DecidableEq, Repr

/-- The special registers of R36, and the sticky flags that GETSR reads (R59). -/
inductive SReg where
  | lane | group | block | nblocks | argsLo | argsHi | core | vitrine | cycle | flags
  deriving DecidableEq, Repr

/-- The atomic operations of R56, in the order of R247. -/
inductive AtomOp where
  | add | smin | umin | smax | umax | and | or | xor | xchg | cas | fadd | fmin | fmax
  deriving DecidableEq, Repr

/-- The reductions of R177. -/
inductive RedOp where
  | fadd | fmin | fmax | iadd
  deriving DecidableEq, Repr

/-- A stored element format of CVT and CVTB (R99, R100). -/
abbrev Target := Fmt

/-- Issue classes (R44). -/
inductive IClass where
  | v | s | m | x | b
  deriving DecidableEq, Repr

/-- A storage upset met by an access (R61): none, corrected, or uncorrectable. -/
inductive Upset where
  | none | corrected | uncorrectable
  deriving DecidableEq, Repr

/-- What a scrub finds in the worst word of a granule (R179): nothing, one or two bits corrected, three or more detected, four or more corrected wrongly or
not detected. -/
inductive GalErr where
  | clean | corrected | detected | wrong | missed
  deriving DecidableEq, Repr

/-- A core, and whether the parity of its instruction queue's head entry fails (R67). -/
structure CoreParity where
  core : CoreId
  parity : Bool
  deriving DecidableEq, Repr

/-- A core, and the upset that an access of its engine's storage meets (R67). -/
structure CoreUpset where
  core : CoreId
  upset : Upset
  deriving DecidableEq, Repr

/-- What the checks of an interval or of a bank update find: the column whose residue differs (R82, R84) and an upset (R67). -/
structure ArrayFind where
  column : Option (BitVec 6)
  upset : Upset
  deriving DecidableEq, Repr

/-- What a scrub of a Gallery position finds, and in which of its granules (R179, R180). -/
structure GalFind where
  err : GalErr
  half : Bool
  deriving DecidableEq, Repr

/-- The requester's Vitrine of a replayed flit, and the flits its lane carried after its last replayed one (R219, R236). -/
structure ReplayFor where
  vit : VitId
  since : BitVec 16
  deriving DecidableEq, Repr

/-- What DIE_QUICK and the retraining of its stacks find of a die that rejoins (R161, R362). -/
structure RejoinFind where
  quickOk : Bool
  channels : List ChanId
  deriving DecidableEq, Repr

/-- What the issue stage sees of one resident group (R42, R43): the class of its next
instruction, whether it is ready, whether it waits on a missed load, and whether the instruction
behind it pairs with it under R44 (with its class), and an upset its operand reads meet in the register file, with the
lane that reads it (R61). The encodings of Xatur are not in the spec, so these come with the command (log 66). -/
structure IssueView where
  slot : SlotId
  grp : BitVec 5
  cls : IClass
  ready : Bool
  missed : Bool
  second : Option IClass
  upset : Upset := .none
  lane : BitVec 5 := 0
  deriving DecidableEq, Repr

/-- Master ports of the data network (R171, R228). -/
inductive MPort where
  | core (c : CoreId)
  | walker (c : CoreId) (w : Walker)
  | dma (v : VitId)
  | media (e : EngineId)
  | host
  | fabric (v : VitId)
  deriving DecidableEq, Repr

/-- The six regulation classes (R230). -/
inductive RegClass where
  | core | walker | dma | media | host | fabric
  deriving DecidableEq, Repr

/-- MetaValue of a host read (R189). -/
inductive Meta where
  | s | a | i
  deriving DecidableEq, Repr

/-- The port a Catalogue PDU arrives on (R304, R313, R314). -/
inductive CatPort where
  | anon
  | session (id : Word)
  | pf
  | vf (n : VitId)
  deriving DecidableEq, Repr

/-- A Catalogue entry index and subindex (R11). -/
structure EntryRef where
  index : BitVec 16
  sub : Byte
  deriving DecidableEq, Repr

/-- The fields of a Catalogue PDU's header that a command carries beside its payload (R301). -/
structure PduHead where
  port : CatPort
  seq : Word
  entry : EntryRef
  offset : Word
  length : BitVec 16
  reservedZero : Bool
  version : Byte
  deriving DecidableEq, Repr

/-- Roles of R304. -/
inductive Role where
  | anonymous | observer | operator | provisioner | driver
  | tenant (n : VitId)
  deriving DecidableEq, Repr

/-- The port that asks for a burst, and a media engine's SLACK (R218, R233). -/
structure BurstPort where
  port : MPort
  slack : Option (BitVec 16)
  deriving DecidableEq, Repr

/-- Gallery range operations (R172). -/
inductive GcOp where
  | prefetch | flush | invalWb | invalNoWb | pin | unpin
  deriving DecidableEq, Repr

/-- A bank of a pseudo-channel (R139): stack identifier, bank group, bank. -/
structure BankId where
  sid : BitVec 2
  group : BitVec 2
  bank : BitVec 2
  deriving DecidableEq, Repr

/-- The outcome of reading a burst's symbols (R147): what the stack returned. -/
inductive BurstErr where
  | none
  | oneSymbol (symbol : BitVec 6)
  | twoOrThree
  | wrongAddress (virtual : Option Bool)
  | fourOrMore (undetected : Bool)
  deriving DecidableEq, Repr

/-- A row to be retired, and what the copy finds in its bursts, by column (R159). -/
structure RowCopy where
  row : BitVec 14
  found : List (BitVec 4 × BurstErr)
  deriving DecidableEq, Repr

/-- The hardware-limit causes of HARD (R337, R339). -/
inductive HardCause where
  | dieTemp | stackTemp (k : BitVec 2) | input | regulator
  deriving DecidableEq, Repr

/-- Classes of the control network, in priority order (R225). -/
inductive CtlClass where
  | stop | fault | power | mgmt
  deriving DecidableEq, Repr

/-- The operation types of a fabric header slot (R247). -/
inductive RType where
  | put | get | getData | atomic | reduce | ack | pace | takeover | pair | mgmt | commit
  deriving DecidableEq, Repr

/-- A remote operation's header slot and data (R247). -/
structure ROp where
  dest : DevId
  src : DevId
  group : Word
  epoch : Word
  tag : Word
  srcVit : VitId
  type : RType
  op : BitVec 4
  dataSlots : BitVec 3
  hops : BitVec 4
  address : Addr
  length : BitVec 9
  status : BitVec 7
  attempt : Byte
  operand0 : BitVec 64
  operand1 : BitVec 64
  crcOk : Bool
  data : List Byte
  deriving DecidableEq, Repr

/-- The part of a fabric frame's header the link layer acts on (R238), with what the receiver's
checks found (R239). -/
structure FabFrame where
  frameSeq : Word
  ackSeq : Word
  nak : Bool
  stopped : Bool
  mgmtOnly : Bool
  dataCredits : BitVec 16
  transitCredits : BitVec 16
  mgmtCredits : BitVec 16
  corrected : BitVec 16
  decodes : Bool
  crcOk : Bool
  authOk : Bool
  ops : List ROp
  deriving DecidableEq, Repr

/-- The agents of a die's control ring (R225), and the Curator in the Atrium. -/
inductive CtlAgent where
  | cluster (k : BitVec 3) | hbm (k : BitVec 2) | docent | conservator | power | media (e : Bool) | bundle (j : Bool) | curator
  deriving DecidableEq, Repr

/-- A control-network message in a CTRL_MSG slot or on a die's ring (R225). -/
structure CtlMsg where
  cls : CtlClass
  toAtrium : Bool
  die : DieId
  body : BitVec 64
  /-- The agent it is for, and, of a message between two compute dies, the die it goes to beyond the Atrium. -/
  agent : CtlAgent := .docent
  beyond : Option DieId := none
  deriving DecidableEq, Repr

/-- A flit slot of a frame with the word control that goes with it (R220). -/
structure DlFlit where
  valid : Bool
  vc : BitVec 2
  bits : BitVec 576
  deriving DecidableEq, Repr

/-- A die-link frame as its receiver finds it at the check word (R220, R221): its FRAME_SEQ, flit slots, the slots whose
FLIT_CRC fails, the lanes whose LANE_PARITY is wrong, STOP_MARK and the two slots of control messages. The check word's
ACK_SEQ, NAK and CREDIT_RETURN are its sender's own state (`Dev.checkWord`). -/
structure DlFrame where
  frameSeq : BitVec 16
  flits : List DlFlit
  crcBad : BitVec 133
  laneErrors : List (Fin 68)
  stopMark : Bool
  msg0 : Option CtlMsg
  msg1 : Option CtlMsg
  deriving DecidableEq, Repr

/-- The port and SEQ of a Catalogue request whose entry has a row of its own in the table (R302, R303). -/
structure CatReq where
  port : CatPort
  seq : Word
  deriving DecidableEq, Repr

/-- One element operation of a combined atomic or reduction (R57, R176): its byte offset in the
line, operation, width and operands, and the lane it belongs to. -/
structure ElemOp where
  off : BitVec 7
  op : AtomOp
  wide : Bool
  val : BitVec 64
  cmp : BitVec 64
  lane : BitVec 5
  deriving DecidableEq, Repr

/-- A crate or tenancy command buffer in host memory (R292, R413). -/
structure HostBuf where
  addr : BitVec 64
  len : BitVec 64
  deriving DecidableEq, Repr

/-- What a regulation window found for one Vitrine (R232). -/
structure MissView where
  router : Bool
  seam : Bool
  dieLink : Bool
  atrium : Bool
  port : Option RegClass
  deriving DecidableEq, Repr

/-- The inputs of a peer's configuration digest that are sent in clear, and the digest (R243). -/
structure PeerDigest where
  fw : Word
  group : Word
  epoch : Word
  digest : BitVec 256
  deriving DecidableEq, Repr

/-- What a PAIR operation of the named peer carries (R253). -/
structure PairInfo where
  peer : DevId
  fw : Word
  partOk : Bool
  steppingsOk : Bool
  links : BitVec 96
  trained : BitVec 96
  deriving DecidableEq, Repr

/-- Power and temperature readings of one die at a control interval (R328, R334), powers in mW. -/
structure DieReading where
  temp : Int
  arrayPower : List Nat
  attrPower : List Nat
  deriving DecidableEq, Repr

/-- A clock domain (R323, R354). -/
inductive ClockDomain where
  | die (d : DieId) (dom : BitVec 3)
  | rootPll (d : DieId)
  | atrium (dom : BitVec 2)
  | reference
  deriving DecidableEq, Repr

/-- Why a die is fenced (R377). -/
inductive FenceCause where
  | clock | trip | command | peerLost
  deriving DecidableEq, Repr

/-- The bundle header fields the handshake uses, with what each check of R384 that is another
standard's arithmetic found. -/
structure BundleInfo where
  formatOk : Bool
  keyIndex : BitVec 2
  signatureOk : Bool
  digestOk : Bool
  svn : Word
  steppings : List (BitVec 16)
  ifMin : BitVec 16
  ifMax : BitVec 16
  version : Word
  registrarVersion : Word
  registrarDigest : BitVec 256
  deriving DecidableEq, Repr

/-- The Condition Record's fields the start uses (R384, R385, R374), with what the seed recovery
and the signature check found. -/
structure RecordInfo where
  pufOk : Bool
  signatureOk : Bool
  serial : BitVec 96
  seq : Word
  retirements : List Nat
  retiredSlots : List (BitVec 17)
  failedWays : List (Nat × BitVec 17)
  failedLanes : List (Nat × BitVec 68)
  failedSeam : List (Nat × BitVec 27)
  withdrawn : Word
  lasers : List (Nat × BitVec 9)
  trim : List Byte
  /-- TRIM_HISTORY by die: hours and steps (R344). -/
  trimHistory : List (List (Nat × Nat))
  /-- The remap tables by channel x 2 + PC: each row sent away and its place, as bank x 16,384 + row, and the redirected banks
  (R160). -/
  repairs : List (Nat × Nat × Nat) := []
  redirects : List (Nat × Nat) := []
  hours : Word
  provisioned : List (EntryRef × List Nat)
  deriving DecidableEq, Repr

/-- One entry of a Condition Report (R373). -/
structure BistEntry where
  misr : BitVec 64
  expected : BitVec 64
  failCount : Word
  firstFail : BitVec 40
  unitIndex : BitVec 16
  unitKind : Byte
  test : Byte
  notRun : Bool
  block : BitVec 16
  deriving DecidableEq, Repr

/-- The results of a start-up step as the hardware finds them (R448): registers read in steps 2
and 3, and failures met in steps 7 to 9. -/
structure StepResult where
  ok : Bool
  badLanes : List (Nat × BitVec 68)
  channelsFailed : List Nat
  stacksFailed : List Nat
  diesFailed : List (BitVec 3)
  /-- The report entries of step 9 (R373). -/
  entries : List BistEntry
  deriving DecidableEq, Repr

/-- The crate header fields and checks RESTORE acts on (R293, R294, R402). -/
structure CrateInfo where
  magicOk : Bool
  versionOk : Bool
  digestOk : Bool
  sealOk : Bool
  mask : Word
  contexts : Bool
  fw : Word
  steppingsOk : Bool
  settings : List (EntryRef × List Nat)
  rings : List (Nat × BitVec 128)
  /-- RING_STATE of those rings: SQ_HEAD, SQ_TAIL, CQ_HEAD, CQ_TAIL, NEXT_SEQ and STATE. -/
  ringState : List (Nat × List Nat)
  /-- The crate's number among those this device has written, for its step contexts. -/
  number : Nat
  memory : List (Nat × BitVec 8)
  deriving DecidableEq, Repr

/-- An SPDM request as the Registrar classifies it (R305, R396). -/
inductive SpdmReq where
  | getCertificate (slot : BitVec 1)
  | challenge
  | getMeasurements (index : Byte)
  | keyExchange
  | finish (anchor : Option Role) (ok : Bool)
  | endSession
  deriving DecidableEq, Repr

/-- The transport an SPDM message came by (R396). -/
inductive SpdmPort where
  | mctp | field | doePf | doeVf (n : VitId)
  deriving DecidableEq, Repr

/-- The store a patrol scrub works on (R352). -/
inductive SramStore where
  | regFile | scratch | l1 | engine | cluster
  deriving DecidableEq, Repr

end Sys2Proof
end

