-- ==== Sys2Proof/Syntax.lean ====
section
/-! DEFINITION. The commands of the block: one constructor per row of spec/opcode_table.json, in the
table's order. The table gives the rows no bit fields; the operands name what the row's rule reads. -/

namespace Sys2Proof

/-- A command (spec/opcode_table.json). The docstring of a constructor is its row's rule and summary. -/
inductive Instr where
  /-- R34. Once every block of the preceding launch of the Vitrine has retired, the dispatcher checks the next launch under R33 and starts placing its blocks. -/
  | launchDispatch (v : VitId)
  /-- R34. The dispatcher places a WAITING block on the next core in rotation where it fits, as soon as a retirement or a swap makes room. -/
  | blockDispatch (v : VitId)
  /-- R35. When all groups of a block have exited and its outstanding operations are done, the block retires and releases its resources. -/
  | blockRetire (c : CoreId) (s : SlotId)
  /-- R43. Each core cycle, the core issues up to two instructions from its active set by the slot and pairing rules. -/
  | issueCycle (c : CoreId) (views : List IssueView)
  /-- R59. A V-class integer, logic, move or FP32 instruction executes with IEEE rounding, sticky flags and a residue or parity check. -/
  | vectorArithmetic (g : GRef) (op : VOp) (mode : RMode) (dst : Byte) (a : Byte) (b : Byte) (c : Byte) (checkOk : Bool)
  /-- R462. A shift instruction shifts its operand by an unsigned amount, with saturating outcomes for amounts of w or more. -/
  | shift (g : GRef) (op : ShiftOp) (dst : Byte) (a : Byte) (amt : Byte) (checkOk : Bool)
  /-- R462. A conversion from FP32 to a 32-bit integer rounds, saturates and sets flags as stated. -/
  | fp32ToIntegerConversion (g : GRef) (signed : Bool) (mode : RMode) (dst : Byte) (src : Byte) (checkOk : Bool)
  /-- R60. An S-class exp2, reciprocal or reciprocal square root delivers results within the stated error. -/
  | specialFunction (g : GRef) (fn : SfuOp) (dst : Byte) (src : Byte) (checkOk : Bool)
  /-- R59. CLRF clears the group's sticky floating-point flags. -/
  | clrf (g : GRef)
  /-- R36. GETSR reads a special register into the thread's register. -/
  | getsr (g : GRef) (dst : Byte) (sr : SReg)
  /-- R48. EXIT removes the thread from the active mask, every stack entry and every barrier count from the next core cycle. -/
  | exit (g : GRef)
  /-- R47. A conditional branch either branches as one or pushes a reconvergence entry and runs the fall-through path first. -/
  | brx (g : GRef) (pred : BitVec 3) (neg : Bool) (target : Addr) (joinAt : Addr)
  /-- R48. An indirect branch splits threads by target, pushes one entry and runs each target in ascending address. -/
  | bri (g : GRef) (ra : Byte) (joinAt : Addr)
  /-- R47. JOIN pops its entry and restores the mask when every thread of the entry has arrived or exited, else parks the thread. -/
  | join (g : GRef) (at' : Addr)
  /-- R49. WAIT.cond tests a 32-bit word and parks the thread until the condition holds or the timeout passes. -/
  | wait (g : GRef) (cond : Cond) (space : Space) (ra : Byte) (rv : Byte) (rt : Byte)
  /-- R49. A parked WAIT re-tests its word when the line is written or after 1,024 core cycles, and succeeds setting P0 true. -/
  | waitRetest (g : GRef) (lane : BitVec 5)
  /-- R49. A WAIT whose timeout expires sets P0 false and orders nothing. -/
  | waitTimeout (g : GRef) (lane : BitVec 5)
  /-- R50. A thread arrives at a group barrier, performs its local accesses and parks until all live threads of the group arrive. -/
  | barG (g : GRef)
  /-- R51. A thread arrives at block barrier id; when every live thread has arrived, all parked threads become runnable together. -/
  | barB (g : GRef) (id : BitVec 4)
  /-- R53. A barrier not complete after BARRIER_WATCHDOG_CYCLES raises the class F exception BARRIER_WATCHDOG. -/
  | barrierWatchdog (g : GRef) (blockBar : Option (BitVec 4))
  /-- R62. TRAP raises a class P exception with its code, or halts the tenancy in debug mode. -/
  | trap (g : GRef) (code : BitVec 16)
  /-- R54. When every resident block of a core has been blocked 4,096 core cycles and a runnable block waits, the core swaps blocks out and admits it. -/
  | blockSwap (c : CoreId)
  /-- R55. The save and restore of a swap finish after T_swap core cycles and the admitted block becomes RESIDENT. -/
  | swapComplete (c : CoreId)
  /-- R199. A load in any space sends its granule requests or reads local storage, subject to bounds and address checks. -/
  | load (g : GRef) (space : Space) (size : BitVec 3) (dst : Byte) (ra : Byte) (imm : Word)
  /-- R45. Data of an outstanding load or value-returning atomic arrives and is written to the destination registers. -/
  | loadDataReturn (g : GRef) (op : Word) (upset : Upset)
  /-- R196. A store in any space sends its granule writes, which are performed at their homes in issue order per home. -/
  | store (g : GRef) (space : Space) (size : BitVec 3) (ra : Byte) (imm : Word) (src : Byte)
  /-- R57. An atomic instruction is combined by line into combined atomics sent one per core cycle to the executing store. -/
  | atomic (g : GRef) (space : Space) (op : AtomOp) (wide : Bool) (dst : Byte) (ra : Byte) (imm : Word) (val : Byte) (cmp : Byte)
  /-- R177. RED.op reduces each active lane's value into a GLOBAL element, combined by line. -/
  | red (g : GRef) (space : Space) (op : RedOp) (ra : Byte) (imm : Word) (src : Byte)
  /-- R99. CVT.target converts a scaled FP32 value to a narrow or integer format with the outcomes of R99. -/
  | cvt (g : GRef) (target : Target) (mode : RMode) (dst : Byte) (src : Byte) (xs : Byte) (checkOk : Bool)
  /-- R100. CVTB converts 32 values into one block-scaled block and writes its E8M0 scale. -/
  | cvtb (g : GRef) (target : Target) (mode : RMode) (dst : Byte) (src : Byte) (sdst : Byte) (checkOk : Bool)
  /-- R129. ROWMAX gives each run of w lanes the exact maximum of its active lanes. -/
  | rowmax (g : GRef) (w : BitVec 6) (dst : Byte) (src : Byte) (checkOk : Bool)
  /-- R129. ROWSUM gives each run of w lanes a fixed-tree FP32 sum of its active lanes. -/
  | rowsum (g : GRef) (w : BitVec 6) (dst : Byte) (src : Byte) (checkOk : Bool)
  /-- R201. FENCE.C holds M and X issue of the group until its local-space accesses are performed. -/
  | fenceC (g : GRef)
  /-- R201. FENCE.D holds M and X issue until local and GLOBAL accesses and completed walker O writes are performed. -/
  | fenceD (g : GRef)
  /-- R201. FENCE.F additionally waits for the acknowledgement of every remote operation of the group. -/
  | fenceF (g : GRef)
  /-- R201. A fence completes in the core cycle after its last covered access is performed and issue resumes. -/
  | fenceComplete (g : GRef)
  /-- R70. MX.OPEN opens a bank of the block and sets it to +0.0. -/
  | mxOpen (g : GRef) (a : Bool)
  /-- R70. MX.LDACC opens a bank and fills it with 4,096 values read by walker O. -/
  | mxLdacc (g : GRef) (a : Bool) (fmt : Fmt)
  /-- R74. MX.MMA is checked and queued to compute one 64 x 64 tile product into a bank. -/
  | mxMma (g : GRef) (a : Bool) (rc : Byte)
  /-- R74. MX.STORE queues conversion of a bank to FMT_OUT for walker O, optionally closing the bank. -/
  | mxStore (g : GRef) (a : Bool) (rs : Byte)
  /-- R70. MX.CLOSE closes a bank without output. -/
  | mxClose (g : GRef) (a : Bool)
  /-- R70. MX.WAIT holds the group until at most n of its block's queued MX and walker instructions remain. -/
  | mxWait (g : GRef) (n : BitVec 4)
  /-- R85. In debug mode MX.RDACC reads shadows, promotion buffers, residue lanes or bank elements into lanes. -/
  | mxRdacc (g : GRef) (dst : Byte) (rsel : Byte)
  /-- R80. The head queued engine instruction starts once its issue delay, the instruction ahead and a free promotion buffer allow. -/
  | engineInstructionStart (c : CoreParity)
  /-- R82. At the end of a promotion interval the accumulators are latched, promoted to the FP32 buffer and residue-checked. -/
  | mmaIntervalCheck (c : CoreId) (found : ArrayFind)
  /-- R81. The escalated re-run starts at FP8 rate once no started instruction is ahead of it. -/
  | escalatedRunStart (c : CoreId)
  /-- R80. After its checks and once the bank is free, the MMA adds or places the promotion buffer into the bank and posts completion. -/
  | bankUpdate (c : CoreId) (found : ArrayFind)
  /-- R80. An MX.STORE or MX.LDACC begins moving 32 values per core cycle once its bank and walker O are free. -/
  | storeTransferStart (c : CoreId)
  /-- R71. Walker O accepts the last value of a tile, releasing the bank and completing the MX.STORE. -/
  | storeTransferDone (c : CoreUpset)
  /-- R86. At each wave boundary the die limiter grants admissions, oldest request first, each raising one array's ramp stage. -/
  | rampWave (d : DieId)
  /-- R86. An array idle for RAMP_IDLE_CYCLES since its last k-step or admission returns to stage 0. -/
  | rampIdleExpiry (c : CoreId)
  /-- R337. An array regulator above 3.0 A sets that array's stage ceiling to 0 for 1,024 core cycles. -/
  | arrayCurrentLimit (c : CoreId) (milliAmp : BitVec 16)
  /-- R89. After the 1,024 core cycles of a current-limit hold the array's ceiling rises again and it regains stages through admissions. -/
  | arrayCeilingRelease (c : CoreId)
  /-- R115. WK.ARM reads and checks a 128-byte descriptor into a walker context after the thread's earlier stores complete. -/
  | wkArm (g : GRef) (w : Walker) (space : Space) (ra : Byte)
  /-- R114. WK.MARK sets the context's mark to its position. -/
  | wkMark (g : GRef) (w : Walker)
  /-- R114. WK.REWIND sets the context's position to its mark. -/
  | wkRewind (g : GRef) (w : Walker)
  /-- R114. WK.SKIP advances the context's position by n. -/
  | wkSkip (g : GRef) (w : Walker) (rn : Byte)
  /-- R133. WK.SIGN has walker A read the next range of context A and form its Provenance signature without moving the position. -/
  | wkSign (g : GRef) (rk : Byte)
  /-- R131. The signature read completes and fills the signature register, or leaves it empty on a fault or poison. -/
  | wkSignDone (c : CoreId) (poison : Bool)
  /-- R135. PV.INVAL invalidates the Vitrine's Provenance entries with the given weight tag, or all for tag 0. -/
  | pvInval (g : GRef) (rt : Byte)
  /-- R124. A walker issues up to four granule requests per core cycle for the k-blocks of queued instructions. -/
  | walkerFetch (c : CoreId) (w : Walker)
  /-- R125. All data of a 4 KiB operand segment has arrived and the segment becomes present in the operand buffer. -/
  | segmentPresent (c : CoreId) (w : Walker)
  /-- R126. A walker request completing with ADDRESS_FAULT or poison makes its instruction skip the bank update or write and raise WALKER_FAULT. -/
  | walkerFault (c : CoreId) (w : Walker) (poison : Bool) (at' : Addr)
  /-- R127. Walker O writes a stored tile, its scales and row statistics, applying the mask. -/
  | walkerOWrite (c : CoreId)
  /-- R208. After every granule of a tile has been performed, walker O writes q + 1 to the tile-completion flag. -/
  | tileFlagWrite (c : CoreId)
  /-- R133. A taking-part MX.MMA with a known signature looks up the store and either moves stored values (hit) or starts its run (miss). -/
  | pvLookup (c : CoreId)
  /-- R134. After a taking-part instruction completes, its entry is written into the store, replacing by key or recency. -/
  | pvInsert (c : CoreId)
  /-- R136. An N-th hit is also run on the array and compared bit for bit, replacing the entry and raising an event on difference. -/
  | pvVerify (c : CoreId)
  /-- R143. A pseudo-channel controller accepts a read or write burst into its queues; a write is then performed. -/
  | hbmRequestAccept (ch : ChanId) (write : Bool) (a : BitVec 31) (data : BitVec 512) (by' : BurstPort)
  /-- R143. The controller chooses its next command by age, priority, row hit and age, draining writes by the watermarks. -/
  | hbmSchedule (ch : ChanId) (pc : Bool)
  /-- R147. Burst data returns from the stack and is decoded, corrected, poisoned or delivered under R147 and R148. -/
  | hbmBurstRead (ch : ChanId) (a : BitVec 31) (err : BurstErr)
  /-- R144. A partial write, atomic or reduction at the controller is applied as read-modify-write of a whole burst. -/
  | hbmRmw (ch : ChanId) (a : BitVec 31) (mask : BitVec 64) (data : BitVec 512) (ops : List ElemOp) (err : BurstErr)
  /-- R150. The refresh interval of a pseudo-channel expires and a per-bank refresh is issued or postponed. -/
  | hbmRefresh (ch : ChanId) (pc : Bool) (openHits : Bool)
  /-- R151. Every 2^20 HBM-controller cycles the controller reads each stack temperature and changes refresh band. -/
  | stackTempRead (k : StackId) (temp : Option (BitVec 8))
  /-- R152. A pseudo-channel's calibration interval expires and it recalibrates its PHY in a 384-cycle window. -/
  | hbmCalibration (ch : ChanId) (pc : Bool)
  /-- R149. Every 2^30 HBM-controller cycles the Conservator adds the stacks' on-die correction counts. -/
  | ondieCountRead (d : DieId) (c0 : Word) (c1 : Word) (c2 : Word) (c3 : Word)
  /-- R155. Every HBM_SCRUB_INTERVAL a channel scrubs its next burst, correcting or poisoning it under R156. -/
  | hbmScrub (ch : ChanId) (err : BurstErr)
  /-- R159. The Conservator copies a row into an in-bank spare and switches the remap table. -/
  | rowRetire (ch : ChanId) (pc : Bool) (bank : BankId) (row : RowCopy)
  /-- R160. A row of a bank without spares is remapped into the offline pool, or the whole bank is redirected. -/
  | rowOffline (ch : ChanId) (pc : Bool) (bank : BankId) (row : BitVec 14) (whole : Bool)
  /-- R186. The home serves a GetS by the row of its line state. -/
  | gets (a : Addr) (c : CoreId)
  /-- R186. The home serves a GetM by the row of its line state. -/
  | getm (a : Addr) (c : CoreId)
  /-- R186. The home serves a cacheless read by the row of its line state. -/
  | rdu (a : Addr) (p : MPort)
  /-- R188. The home serves a cacheless masked line write with its placement hint. -/
  | wru (a : Addr) (p : MPort) (mask : BitVec 128) (data : Line) (hint : BitVec 2)
  /-- R176. The home removes copies and queues an atomic or reduction on the line's operation unit. -/
  | atomred (a : Addr) (c : CoreId) (ops : List ElemOp) (returns : Bool)
  /-- R189. A host M2S MemRd with MetaValue S, A or I is served by the home, or refused under R433. -/
  | hostMemrd (a : Addr) (m : Meta) (inStream : Bool)
  /-- R189. A host M2S write or write-back is served by the home, or refused under R433. -/
  | hostMemwr (a : Addr) (mask : BitVec 128) (data : Line) (inStream : Bool)
  /-- R186. The home evicts a line, recalling and invalidating copies and writing back dirty data as the mode says. -/
  | evict (a : Addr) (wb : Bool)
  /-- R186. The home writes a dirty line back and keeps it valid. -/
  | flush (a : Addr)
  /-- R186. The home receives an owner's clean release and answers PutAck. -/
  | pute (a : Addr) (c : CoreId)
  /-- R186. The home writes an owner's modified data and answers PutAck. -/
  | putm (a : Addr) (c : CoreId) (data : Line)
  /-- R186. The home counts an InvAck; the last completes the pending request. -/
  | invack (a : Addr) (c : CoreId)
  /-- R186. The home writes a recalled owner's data and moves the line to S or I. -/
  | rspdata (a : Addr) (c : CoreId) (data : Line)
  /-- R186. The home completes a recall answered without data. -/
  | rspnodata (a : Addr) (c : CoreId)
  /-- R189. The home receives the host's BIRspS or BIRspI and completes the back-invalidate. -/
  | birsp (a : Addr) (shared : Bool)
  /-- R186. Fill data from HBM arrives at a line in FILL, which becomes I and serves its queue. -/
  | hbmFillData (a : Addr) (poison : BitVec 2)
  /-- R185. An L1 in IS_D receives DataS and enters S. -/
  | datas (c : CoreId) (a : Addr) (data : Line) (poison : BitVec 2)
  /-- R185. An L1 in IS_D receives DataE and enters E. -/
  | datae (c : CoreId) (a : Addr) (data : Line) (poison : BitVec 2)
  /-- R185. An L1 in IS_D receives DataU, completes the load and returns to I. -/
  | datau (c : CoreId) (a : Addr) (data : Line) (poison : BitVec 2)
  /-- R185. An L1 receives DataM, performs the store and enters M. -/
  | datam (c : CoreId) (a : Addr) (data : Line) (poison : BitVec 2)
  /-- R185. An L1 in SM_D receives GrantM, performs the store and enters M. -/
  | grantm (c : CoreId) (a : Addr)
  /-- R185. An L1 receives NoAlloc, sends its store as WrU and returns to I. -/
  | noalloc (c : CoreId) (a : Addr)
  /-- R185. An L1 receives Inv and answers InvAck, dropping an S copy. -/
  | inv (c : CoreId) (a : Addr)
  /-- R185. An L1 owner receives RecallS and answers with or without data, moving to S. -/
  | recalls (c : CoreId) (a : Addr)
  /-- R185. An L1 owner receives RecallI and answers with or without data, moving to I. -/
  | recalli (c : CoreId) (a : Addr)
  /-- R185. An L1 in XI_A receives PutAck and enters I. -/
  | putack (c : CoreId) (a : Addr)
  /-- R190. The device answers every host H2D snoop with RspIHitI. -/
  | h2dSnoop (a : BitVec 52)
  /-- R176. The slice operation unit applies the next queued element operation and then serves requests queued behind it. -/
  | sliceOpApply (sl : ChanId)
  /-- R171. A stream entry that has not advanced for 4,096 Gallery cycles is freed. -/
  | streamEntryExpiry (sl : ChanId) (p : MPort) (k : BitVec 4)
  /-- R172. GC.PREFETCH allocates each absent line of the range at the most recent position. -/
  | gcPrefetch (g : GRef) (dst : Byte) (ra : Byte) (rl : Byte)
  /-- R172. GC.FLUSH writes back each dirty line of the range. -/
  | gcFlush (g : GRef) (dst : Byte) (ra : Byte) (rl : Byte)
  /-- R172. GC.INVAL evicts each line of the range with or without write-back and unpins it. -/
  | gcInval (g : GRef) (wb : Bool) (dst : Byte) (ra : Byte) (rl : Byte)
  /-- R174. GC.PIN pins every line of the range or none, returning a status. -/
  | gcPin (g : GRef) (dst : Byte) (ra : Byte) (rl : Byte)
  /-- R172. GC.UNPIN unpins each line of the range. -/
  | gcUnpin (g : GRef) (dst : Byte) (ra : Byte) (rl : Byte)
  /-- R172. A range operation completes when every line of its range has been processed. -/
  | gcRangeDone (id : Word)
  /-- R169. A write of GALLERY_SCRATCH_STEPS starts a scratchpad resize answered IN_PROGRESS. -/
  | galleryScratchStepsWrite (rq : CatReq) (v : VitId) (steps : Byte)
  /-- R169. A slice applies the new scratchpad size, discarding or evicting lines; the last slice completes the resize. -/
  | sliceChangePoint (sl : ChanId)
  /-- R175. Every 2^16 Gallery cycles the Conservator gathers lookup counts and, over a full window, raises a thrash event. -/
  | thrashEvaluation (v : VitId)
  /-- R180. Every GALLERY_SCRUB_INTERVAL a slice scrubs its next line position. -/
  | galleryScrub (sl : ChanId) (found : GalFind) (tagBad : Bool)
  /-- R215. A flit with a CRC error on a router link or the seam is replayed from the sender's buffer. -/
  | flitCrcReplay (d : DieId) (seam : Option (SeamId × Fin 27)) (v : ReplayFor)
  /-- R219. A failing seam lane is replaced by the spare while the seam direction pauses. -/
  | seamLaneSubstitute (s : SeamId) (lane : Fin 27)
  /-- R221. A die-link check word arrives, delivering good flits and answering CRC failures with NAK and replay. -/
  | dieLinkFrame (dir : DirId) (f : DlFrame)
  /-- R223. A bundle direction with a failed lane, an eighth failure or a laser substitution moves its traffic and retrains. -/
  | dieLinkRetrain (dir : DirId)
  /-- R223. A retrain finishes and traffic returns once the other bundle has delivered every flit routed to it. -/
  | dieLinkRetrainDone (dir : DirId) (bad : List (Fin 68))
  /-- R224. A receiver that sees no intact frame for 64 word cycles declares its peer lost. -/
  | dieLinkPeerLost (dir : DirId)
  /-- R225. A FAULT, POWER or MGMT control-network message is delivered by class priority. -/
  | controlMessage (toAtrium : Bool) (d : DieId)
  /-- R229. A master port issues a held transaction when it holds fewer than OT_MIN tokens or a shared token is free. -/
  | portIssue (v : VitId) (p : MPort)
  /-- R229. A response reaching a port returns its token, which goes to the longest-waiting held port. -/
  | tokenReturn (v : VitId) (p : MPort)
  /-- R232. At the end of a regulation window, each missed guarantee sets REG_MISS_STATUS, raises an interrupt and an event. -/
  | regWindowEnd (v : VitId) (m : MissView)
  /-- R233. A media response returns with its slack; negative slack counts a late transfer and sets DEADLINE_LATE. -/
  | mediaResponse (v : VitId) (slack : BitVec 16)
  /-- R234. Writing 1 to a W1C bit of REG_MISS_STATUS clears it on acceptance. -/
  | regMissStatusWrite (rq : CatReq) (v : VitId) (val : Word)
  /-- R239. A fabric frame is accepted if it decodes and authenticates, else NAK triggers replay from the peer. -/
  | fabricFrameReceive (l : LinkId) (f : FabFrame)
  /-- R240. No accepted frame for 1,000 reference cycles takes the link to DOWN. -/
  | fabricPeerLost (l : LinkId)
  /-- R242. A link finishes optical, frame, identity and key setup and enters MGMT. -/
  | linkTrainingDone (l : LinkId) (peer : DevId) (peerLink : Byte) (failedStep : Option (BitVec 3))
  /-- R243. The link ends compare configuration digests and go to ACTIVE or QUARANTINE. -/
  | digestExchange (l : LinkId) (peer : PeerDigest)
  /-- R246. RPUT copies local bytes to a remote address as 256-byte tagged operations. -/
  | rput (g : GRef) (rdev : Byte) (rra : Byte) (space : Space) (rla : Byte) (rlen : Byte)
  /-- R246. RGET copies remote bytes to a local address as tagged operations. -/
  | rget (g : GRef) (rdev : Byte) (rra : Byte) (space : Space) (rla : Byte) (rlen : Byte)
  /-- R246. RATOM.op performs one remote atomic and returns the old value. -/
  | ratom (g : GRef) (op : AtomOp) (wide : Bool) (dst : Byte) (rdev : Byte) (rra : Byte) (rval : Byte) (rcmp : Byte)
  /-- R246. RRED.op performs one remote reduction. -/
  | rred (g : GRef) (op : RedOp) (rdev : Byte) (rra : Byte) (rval : Byte)
  /-- R248. A target classifies an arriving operation by tag, performs, holds, replays or refuses it and sends an ACK. -/
  | remoteOpArrival (l : LinkId) (op : ROp)
  /-- R249. An ACK reaches the source and completes, retransmits, discards or faults the operation by status. -/
  | remoteAck (l : LinkId) (op : ROp)
  /-- R248. An unacknowledged operation is retransmitted with ATTEMPT + 1 every REMOTE_RETRY reference cycles. -/
  | remoteRetryExpiry (v : VitId) (dest : DevId) (tag : Word)
  /-- R248. An operation not complete within the timeout in force raises REMOTE_TIMEOUT and fails the job. -/
  | remoteTimeout (v : VitId) (dest : DevId) (tag : Word)
  /-- R245. A transit frame is forwarded on an eligible link with HOPS decremented, or discarded with NO_ROUTE. -/
  | transitForward (l : LinkId) (op : ROp)
  /-- R248. A transit operation waiting 2^20 reference cycles in the device's buffers is discarded and counted. -/
  | transitDiscard (l : LinkId) (tag : Word)
  /-- R252. After a throttling change the leader Docent sends PACE to every member, at most once per 1,000 reference cycles. -/
  | paceSend (v : VitId)
  /-- R342. A received PACE is recorded and, under pace-match, sets the Vitrine's DUTY_LIMIT. -/
  | paceReceive (op : ROp)
  /-- R253. PAIR operations over the pair links compare identity and firmware and set PENDANT_STATE. -/
  | pair (p : PairInfo)
  /-- R254. The standby performs a COMMIT carrying c and sets CKPT_COMMITTED after all bytes of checkpoint c. -/
  | commit (op : ROp)
  /-- R255. A TAKEOVER operation makes the standby primary, or makes a member update its ALIAS table. -/
  | takeover (op : ROp)
  /-- R255. The Pendant's driver writes TAKEOVER_VITRINES to take over named tenancies from their checkpoints. -/
  | takeoverVitrines (rq : CatReq) (mask : Word)
  /-- R248. A write of REMOTE_TIMEOUT_OVERRIDE changes the timeout at once, also for outstanding operations. -/
  | remoteTimeoutOverride (rq : CatReq) (v : VitId) (val : Word)
  /-- R289. A LINK_ADMIN row disables a fabric link by drain or squash. -/
  | linkAdmin (rq : CatReq) (l : LinkId) (val : Byte)
  /-- R261. The driver assigns a Vitrine mask as a tenancy, which enters CLEARING. -/
  | tenancyAssign (rq : CatReq) (mask : Word)
  /-- R261. Clearing of a Vitrine completes and it enters ASSIGNED. -/
  | clearingDone (v : VitId)
  /-- R264. An SQ_TAIL doorbell is accepted, ignored or rejected by its value. -/
  | sqTail (v : VitId) (r : RingId) (val : Word)
  /-- R264. A CQ_HEAD doorbell releases completion entries when its value is valid. -/
  | cqHead (v : VitId) (r : RingId) (val : Word)
  /-- R263. A RING_CONFIG write is checked and configures or enables a ring, or disables it under DISABLE_MODE. -/
  | ringConfig (rq : CatReq) (v : VitId) (r : RingId) (row : BitVec 128)
  /-- R289. A ring disable completes once every descriptor up to the tail has a CQ entry. -/
  | ringDisableDone (v : VitId) (r : RingId)
  /-- R268. With a CQ entry free, the device fetches the next descriptor and handles it by sequence number. -/
  | descriptorFetch (v : VitId) (r : RingId)
  /-- R275. The leader Docent starts the top-ranked candidate step when its Vitrines are free, checking it and applying pending settings. -/
  | stepStart (leader : VitId)
  /-- R276. When every launch has retired or the step is squashed, the step finishes its writes, records, checkpoint, preview and completion. -/
  | stepEnd (leader : VitId) (seq : Word)
  /-- R277. A step reaching its time limit is squashed with status TIME_LIMIT. -/
  | stepTimeLimit (leader : VitId) (seq : Word)
  /-- R278. At a declared safe point the Vitrines quiesce and the step context save begins. -/
  | stepSafePoint (leader : VitId) (seq : Word)
  /-- R280. A step context save of time T completes and the step becomes SAVED. -/
  | stepSaveDone (leader : VitId) (seq : Word)
  /-- R280. A saved step's context restore completes and the step resumes. -/
  | stepRestoreDone (leader : VitId) (seq : Word)
  /-- R282. A DMA COPY descriptor copies bytes between device and host memory. -/
  | copy (v : VitId) (r : RingId) (seq : Word)
  /-- R282. A DMA FILL descriptor writes a 32-bit pattern. -/
  | fill (v : VitId) (r : RingId) (seq : Word)
  /-- R282. A DMA RPUT descriptor sends remote put operations. -/
  | dmaRput (v : VitId) (r : RingId) (seq : Word)
  /-- R282. A DMA RGET descriptor sends remote get operations. -/
  | dmaRget (v : VitId) (r : RingId) (seq : Word)
  /-- R282. A DMA GALLERY descriptor applies a range operation chosen by GC_OP. -/
  | gallery (v : VitId) (r : RingId) (seq : Word)
  /-- R209. A DMA descriptor's transfers are performed at their destinations and its completion is posted. -/
  | dmaTransferDone (v : VitId) (r : RingId) (seq : Word)
  /-- R283. A media request encodes frames to AV1. -/
  | encodeAv1 (v : VitId) (r : RingId) (seq : Word)
  /-- R283. A media request encodes frames to HEVC. -/
  | encodeHevc (v : VitId) (r : RingId) (seq : Word)
  /-- R283. A media request decodes an AV1 bitstream. -/
  | decodeAv1 (v : VitId) (r : RingId) (seq : Word) (profileOk : Bool)
  /-- R283. A media request decodes an HEVC bitstream. -/
  | decodeHevc (v : VitId) (r : RingId) (seq : Word) (profileOk : Bool)
  /-- R284. At a frame boundary the engine completes or continues its request and picks the earliest-deadline fetched request. -/
  | mediaFrameBoundary (e : EngineId) (bytes : Word) (poison : Bool)
  /-- R289. A MEDIA_ADMIN row disables a media engine by drain or squash. -/
  | mediaAdmin (rq : CatReq) (e : EngineId) (val : Byte)
  /-- R287. The local checkpoint copy is performed, CKPT_LOCAL is set and the step completion can follow. -/
  | ckptCopyDone (leader : VitId) (seq : Word)
  /-- R287. A RESTORE descriptor copies checkpoint slot c mod 2 back to its regions. -/
  | restore (v : VitId) (r : RingId) (seq : Word)
  /-- R291. The driver deaccessions a tenancy, disabling all rings by drain or squash and clearing its Vitrines. -/
  | tenancyDeaccession (rq : CatReq) (leader : Byte) (squash : Bool)
  /-- R292. Crate operation FREEZE_SAFE stops fetching, saves running steps and freezes the tenancy. -/
  | freezeSafe (rq : CatReq) (leader : VitId)
  /-- R292. Crate operation FREEZE_BOUNDARY stops new steps and lets running steps end before freezing. -/
  | freezeBoundary (rq : CatReq) (leader : VitId)
  /-- R292. When fetched work has finished, the Vitrines enter FROZEN and post FROZEN. -/
  | freezeDone (leader : VitId)
  /-- R292. Crate operation SAVE writes the sealed, encrypted crate to the host buffer. -/
  | save (rq : CatReq) (leader : VitId) (memory : Bool) (buf : HostBuf)
  /-- R294. Crate operation RESTORE reads, verifies and decrypts a crate onto a cleared tenancy. -/
  | crateRestore (rq : CatReq) (leader : VitId) (crate : CrateInfo) (buf : HostBuf)
  /-- R292. Crate operation THAW resumes fetching and scheduling and posts THAWED. -/
  | thaw (rq : CatReq) (leader : VitId)
  /-- R302. A Catalogue READ returns entry bytes within the requester's reach. -/
  | read (h : PduHead)
  /-- R297. A Catalogue WRITE to an entry without its own row is checked by role and range and applied whole or refused. -/
  | write (h : PduHead) (data : List Byte)
  /-- R308. WRITE_BEGIN opens a TABLE transaction and locks the entry to the session. -/
  | writeBegin (h : PduHead)
  /-- R308. WRITE_SEGMENT stages whole rows in the open transaction. -/
  | writeSegment (h : PduHead) (data : List Byte)
  /-- R308. WRITE_COMMIT applies the staged rows as one write, or leaves the transaction open if refused. -/
  | writeCommit (h : PduHead)
  /-- R308. WRITE_ABORT discards the transaction and releases the lock. -/
  | writeAbort (h : PduHead)
  /-- R308. A transaction idle for 100,000,000 reference cycles is discarded. -/
  | transactionTimeout (port : CatPort)
  /-- R305. A SESSION PDU carries one SPDM message toward establishing an authenticated session. -/
  | session (h : PduHead) (req : SpdmReq) (tagOk : Bool)
  /-- R302. SESSION_END ends the session. -/
  | sessionEnd (h : PduHead)
  /-- R305. A session that carries no PDU for 600 s ends. -/
  | sessionIdleTimeout (id : Word)
  /-- R302. EVENT_SUBSCRIBE sets the reader's position in the event queue. -/
  | eventSubscribe (h : PduHead) (start : Word)
  /-- R315. The Curator sends queued events after a reader's position in EVENT PDUs. -/
  | event (port : CatPort)
  /-- R315. Events unacknowledged for 10 ms are sent again. -/
  | eventResend (port : CatPort)
  /-- R302. EVENT_ACK advances the reader's acknowledged position. -/
  | eventAck (h : PduHead) (upTo : Word)
  /-- R302. DISCOVER returns the device's identity and field MAC. -/
  | discover (h : PduHead)
  /-- R302. DESCRIBE returns an entry's type, access, scope and size. -/
  | describe (h : PduHead)
  /-- R314. Mailbox command 0xC000 carries one Catalogue PDU in the function's fixed role. -/
  | catalogue (fn : Option VitId) (opcode : Byte) (h : PduHead) (data : List Byte)
  /-- R314. The CXL Get Event Records command returns Catalogue events to the physical function. -/
  | getEventRecords (n : Byte)
  /-- R310. Writing 1 to DEVICE_READY seals the RWS entries and makes Vitrines assignable. -/
  | deviceReady (rq : CatReq) (val : Byte)
  /-- R334. Every 65,536 core cycles the die adjusts OPPORTUNISTIC duties and selects its P-state. -/
  | powerControlInterval (d : DieId) (rd : DieReading)
  /-- R325. A P-state change raises or lowers the array rails and switches the divider, adjusting applied duties. -/
  | pstateChange (d : DieId) (p : Fin 3)
  /-- R325. After the rail slew the divider switches on a root-clock edge and the new P-state is in force. -/
  | pstateSwitchDone (d : DieId)
  /-- R329. Every 1 ms the Curator reads the regulators and sends DIE_BUDGET to each die. -/
  | powerBudgetTick (ext : List Nat) (atrium : Nat)
  /-- R329. A die receives its cap and external power and answers with DIE_REPORT. -/
  | dieBudget (d : DieId) (capMw : Nat) (extMw : Nat)
  /-- R329. The Curator receives a die's array power, temperature, P-state and duties. -/
  | dieReport (d : DieId)
  /-- R327. A clock monitor declares a stopped or deviating domain clock, a die fault or device fault. -/
  | clockLoss (dom : ClockDomain)
  /-- R337. A die sensor at 105 degrees puts the die into HARD, at 115 degrees trips it. -/
  | dieTempLimit (d : DieId) (temp : Int)
  /-- R337. An array rail reaching 900 mV is clamped and trips the die if it persists 1 us. -/
  | railOvervoltage (d : DieId) (milliVolt : BitVec 16) (persists : Bool)
  /-- R337. The 12 V input below 11.0 V puts every die into HARD. -/
  | inputUndervoltage (milliVolt : BitVec 16)
  /-- R445. PWR_OK falling or the input below 10.2 V stops every die within 1 us and zeroises keys. -/
  | powerFail (milliVolt : BitVec 16) (pwrOkFell : Bool)
  /-- R337. A PMBus alert on a segment puts its die into HARD and the Atrium reads every regulator's status. -/
  | regulatorAlert (seg : Fin 9) (words : List (BitVec 16))
  /-- R339. While an alert is active the Atrium rereads the segment's status words every 10,000 reference cycles. -/
  | regulatorStatusPoll (seg : Fin 9) (words : List (BitVec 16)) (released : Bool)
  /-- R451. A die whose regulators give no reading for 10 ms is treated as under a regulator alert. -/
  | regulatorSilent (d : DieId)
  /-- R339. When every cause has been clear for 100,000 reference cycles HARD clears and duties and ceilings recover. -/
  | hardLimitExit (d : DieId)
  /-- R343. A deferred activation starts once EMERGENCY_STATE has been 0 for 100 ms. -/
  | fwActivationResumed
  /-- R344. Every 2^36 reference cycles the Conservator measures margin and raises trim by one step if short. -/
  | marginCheck (d : DieId) (short : Bool)
  /-- R332. A POWER_CLASS write selects OPPORTUNISTIC or FIXED, refused for FIXED on a held die. -/
  | powerClass (rq : CatReq) (v : VitId) (val : Byte)
  /-- R330. PROFILE_SELECT chooses a power profile no higher than POWER_PROFILE. -/
  | profileSelect (rq : CatReq) (val : BitVec 16)
  /-- R358. Repairs of the episode finish and the tenancy becomes RESTARTABLE, NO_RESTART or is taken over. -/
  | repairDone (leader : VitId) (failedSlots : List CoreId)
  /-- R352. Every SRAM_SCRUB_INTERVAL cycles a store scrubs and corrects its next word. -/
  | sramScrub (d : DieId) (store : SramStore) (unit : BitVec 9) (upset : Upset)
  /-- R360. The Atrium and other dies fence a failed die, poisoning its outstanding requests and clearing it from service. -/
  | dieFence (d : DieId) (cause : FenceCause)
  /-- R362. Once its cause clears, a fenced die resets, reloads, trains, tests and clears before rejoining. -/
  | dieRejoin (d : DieId)
  /-- R362. The rejoin completes; the die's Vitrines return to ASSIGNED or UNASSIGNED. -/
  | dieRejoined (d : DieId) (found : RejoinFind)
  /-- R363. Loss of the reference, an Atrium clock or every Atrium bundle stops the device in a fatal reset. -/
  | deviceFault
  /-- R367. A failed Gallery way is drained and replaced by the spare while the set's other ways serve. -/
  | waySubstitute (sl : ChanId) (way : BitVec 4)
  /-- R368. Every 1,024 reference cycles each laser's power is compared and a failed laser is replaced by its group's spare. -/
  | laserCheck (lg : LaserId) (failed : BitVec 9)
  /-- R369. BIST kind CORE tests a physical core slot. -/
  | bistCore (rq : CatReq) (target : BitVec 16) (nonce : BitVec 256)
  /-- R369. BIST kind CLUSTER_MEMORY tests a cluster memory. -/
  | bistClusterMemory (rq : CatReq) (target : BitVec 16) (nonce : BitVec 256)
  /-- R369. BIST kind SLICE tests a slice one way at a time. -/
  | bistSlice (rq : CatReq) (target : BitVec 16) (nonce : BitVec 256)
  /-- R369. BIST kind DIE_LINK_LANE runs 2^32 bits of PRBS31 on a die-link lane. -/
  | bistDieLinkLane (rq : CatReq) (target : BitVec 16) (nonce : BitVec 256)
  /-- R369. BIST kind SEAM_LANE tests a seam lane. -/
  | bistSeamLane (rq : CatReq) (target : BitVec 16) (nonce : BitVec 256)
  /-- R369. BIST kind LASER_GROUP measures a laser group's power. -/
  | bistLaserGroup (rq : CatReq) (target : BitVec 16) (nonce : BitVec 256)
  /-- R369. BIST kind DIE_QUICK tests a die. -/
  | bistDieQuick (rq : CatReq) (target : BitVec 16) (nonce : BitVec 256)
  /-- R369. BIST kind DEVICE_QUICK tests the device. -/
  | bistDeviceQuick (rq : CatReq) (target : BitVec 16) (nonce : BitVec 256)
  /-- R369. BIST kind DEVICE_FULL tests the device with a March over every HBM row. -/
  | bistDeviceFull (rq : CatReq) (target : BitVec 16) (nonce : BitVec 256)
  /-- R370. At the Vitrine's next point with no step running, slot 16 takes or returns the name of a slot under test. -/
  | bistSlotSwap (v : VitId)
  /-- R372. A BIST run ends or aborts and its signed Condition Report replaces the previous one. -/
  | bistDone (row : Fin 9) (entries : List BistEntry) (aborted : Bool)
  /-- R374. A write of RECORD_SEAL has the Registrar sign the pending Condition Record. -/
  | recordSeal (rq : CatReq) (val : Byte)
  /-- R374. Sealing completes and RECORD_CHANGES returns to 0. -/
  | recordSealDone
  /-- R380. A firmware processor whose watchdog trips or that violates its protection unit is reset, checked and reloaded. -/
  | firmwareRestarted (p : ProcId) (cause : BitVec 2) (digestOk : Bool)
  /-- R383. Mailbox command LOAD_SEGMENT writes bundle or record data into staging memory. -/
  | loadSegment (target : BitVec 1) (offset : BitVec 64) (data : List Byte)
  /-- R383. Mailbox command LOAD_END starts verification of the staged bundle and record. -/
  | loadEnd (driverIf : BitVec 16) (bundleLen : BitVec 64) (recordLen : BitVec 64)
  /-- R383. Mailbox command START_STATUS returns the start state, reason and version. -/
  | startStatus
  /-- R384. The Registrar's ordered checks finish, refusing the start or continuing at step 7. -/
  | startVerifyDone (bundle : BundleInfo) (record : RecordInfo)
  /-- R447. A start-up step completes and the next begins, taking failed resources out of service. -/
  | startupStepDone (res : StepResult)
  /-- R387. Admin ring FW_STAGE reads a bundle from the host into the second area and checks it. -/
  | fwStage (userTag : BitVec 16) (src : BitVec 64) (len : BitVec 64) (bundle : BundleInfo)
  /-- R388. Admin ring FW_ACTIVATE activates the staged bundle or defers it during an emergency. -/
  | fwActivate (userTag : BitVec 16)
  /-- R388. A die's Docent restarts on the new component when no step of the die runs or is saved. -/
  | docentActivationRestart (d : DieId)
  /-- R387. Admin ring RECORD_FETCH writes the latest sealed record to the host. -/
  | recordFetch (userTag : BitVec 16) (dst : BitVec 64)
  /-- R387. Admin ring LOG_FETCH writes the firmware diagnostic logs to the host. -/
  | logFetch (userTag : BitVec 16) (dst : BitVec 64)
  /-- R385. SVN_COMMIT raises SVN_FLOOR to the SVN in force. -/
  | svnCommit (rq : CatReq) (val : Byte)
  /-- R393. ZEROIZE erases every volatile key and forces the fatal reset. -/
  | zeroize (rq : CatReq) (val : Byte)
  /-- R391. A Registrar self-test failure puts the module in its error state and restarts it or resets the device. -/
  | selfTestFailed (test : Byte) (afterRestart : Bool)
  /-- R396. The Registrar answers an SPDM request for certificates, challenges, measurements or key exchange. -/
  | spdmMessage (port : SpdmPort) (req : SpdmReq)
  /-- R401. A TSP lock records the Vitrine's configuration digest and blocks driver writes to its RW entries. -/
  | tspLock (v : VitId)
  /-- R399. Every 2^32 frame slots a link direction derives the next key generation and erases the old key. -/
  | linkKeyRatchet (l : LinkId) (tx : Bool)
  /-- R398. Training of a refused link is retried after 100,000,000 reference cycles. -/
  | linkAuthRetry (l : LinkId)
  /-- R408. STOP_COMMAND value 1 starts a global stop and the Atrium sends STOP to every die. -/
  | stop (rq : CatReq)
  /-- R408. Assertion of STOP_N with STOP_LAND_ENABLE = 1 starts a global stop. -/
  | stopLand
  /-- R409. A die receiving STOP halts all domains on one root-clock boundary and closes its frames with STOP_MARK. -/
  | stopArrival (d : DieId)
  /-- R410. A die-link receiver receiving the sender's STOP_MARK closes its link capture. -/
  | stopMark (dir : DirId)
  /-- R412. STOP_COMMAND value 2 resumes the device, leaving self-refresh and sending RESUME. -/
  | resume (rq : CatReq)
  /-- R412. A die receiving RESUME restarts and delivers captured frames first. -/
  | resumeArrival (d : DieId)
  /-- R413. SCANOUT_COMMAND writes a device scan-out file of the selected sections to the host. -/
  | scanoutCommand (rq : CatReq) (sections : BitVec 16) (dies : Byte) (buf : HostBuf)
  /-- R413. SCAN_COMMAND writes a tenancy scan-out of a halted tenancy. -/
  | scanCommand (rq : CatReq) (v : VitId) (sections : BitVec 16) (buf : HostBuf)
  /-- R413. A scan-out finishes and SCANOUT_DONE is posted. -/
  | scanoutDone (ok : Bool)
  /-- R418. Writing 1 to VITRINE_HALT quiesces every Vitrine of the tenancy. -/
  | vitrineHalt (rq : CatReq) (v : VitId)
  /-- R418. The tenancy's quiesce ends and VITRINE_HALT reads 2. -/
  | vitrineHalted (leader : VitId)
  /-- R418. Writing 0 to VITRINE_HALT resumes issue at the recorded points. -/
  | vitrineResumed (rq : CatReq) (v : VitId)
  /-- R419. A WATCHPOINTS row write arms a watchpoint at once, refused when out of range. -/
  | watchpoints (rq : CatReq) (v : VitId) (row : BitVec 3) (val : BitVec 128)
  /-- R420. A TRACE_CONTROL write configures tracing and a 0-to-1 ENABLE clears the buffer and starts recording. -/
  | traceControl (rq : CatReq) (v : VitId) (val : BitVec 64)
  /-- R420. A matching entry triggers, and after POST_TRIGGER entries the buffer freezes with the trigger action. -/
  | traceTriggered (v : VitId)
  /-- R423. MARKER_COMMAND makes the Atrium send MARK with the next marker number. -/
  | markerCommand (rq : CatReq) (val : Byte)
  /-- R423. Every MARKER_INTERVAL reference cycles the Atrium sends MARK. -/
  | markerIntervalTick
  /-- R423. A die receiving MARK writes a MARKER entry into every enabled trace buffer and records its cycle. -/
  | mark (d : DieId)
  /-- R445. PERST_N low, CXL hot reset or link down causes a conventional reset. -/
  | perstNAssert
  /-- R447. PERST_N rising starts start-up step 2. -/
  | perstNRise (straps : Byte)
  /-- R445. PWR_OK rising causes a power-on reset. -/
  | pwrOkRise
  /-- R445. A physical-function FLR deaccessions every tenancy in SQUASH mode and disables the VFs. -/
  | pfFlr
  /-- R445. A virtual-function FLR disables every ring of its Vitrine in SQUASH mode. -/
  | vfFlr (v : VitId)
  /-- R432. An HDM decoder commit maps a valid range of one window or sets Commit Error. -/
  | hdmDecoderCommit (k : BitVec 5) (base : BitVec 64) (size : BitVec 64) (ways : Byte)
  /-- R380. A restarting firmware processor finishes its reload and runs again, so that writes held in the port buffers, repairs and Registrar services that waited proceed. -/
  | processorRestartComplete (p : ProcId)
  /-- R445. After a power-fail reset without a PWR_OK fall, the device resumes at start-up step 2 once PLINTH_12V has been above 11.3 V for 10 ms. -/
  | plinth12vRecovery
  /-- R252. When the 1,000-reference-cycle spacing of pace notices runs out after a change that could not be sent at once, the leader Docent sends the latest state. -/
  | paceLatestStateSend (v : VitId)
  /-- R399. A fabric receiver that loses frame lock sends the link back through TRAINING with fresh keys. -/
  | frameLockLoss (l : LinkId)
  /-- R374. The power-on hour count advances, is added to the pending Condition Record, adds 1 to RECORD_CHANGES and posts RECORD_CHANGED. -/
  | powerOnHours
  deriving DecidableEq, Repr

end Sys2Proof
end

