-- ==== Sys2Proof/Config.lean ====
section
/-! DEFINITION. What the spec leaves open: opaque constants, of which nothing can be proved (log 20 and following). -/

namespace Sys2Proof.Config

/-- The address of the instruction after the one at an address: Xatur's encoding is not in the spec (R62). -/
opaque pcNext : Addr → Addr

/-- CLASS of an error record of a fault for which R351 has no class (R354). -/
opaque classless : Nat → Byte

/-- UNIT_INDEX's domain of a root PLL, and UNIT_KIND and UNIT_INDEX (above) of a die that trips or is reset, which R354 does not number. -/
opaque pllDomain : Nat → BitVec 3
opaque dieUnit : Nat → BitVec 24

/-- Core (of the Vitrine's sixteen), PC and group slot in a LAUNCH_RESOURCE record, where no core is at fault (R33, R65). -/
opaque launchExcCore : Nat → BitVec 4
opaque launchExcPc : Nat → Addr
opaque launchExcSlot : Nat → BitVec 6

/-- Whether an FP32 comparison of a quiet NaN sets invalid (R59 names no predicate of IEEE 754). -/
opaque cmpInvalid : FCond → Bool

/-- Whether an FMA of zero, an infinity and a quiet NaN sets invalid (IEEE 754 leaves it open). -/
opaque fmaInvalid : Bool

/-- The special-function unit's result, used where it lies within the error of R60, and its result outside R60's domains. -/
opaque sfu : SfuOp → Word → Word

/-- The sticky flags a special function sets (R59, R60). -/
opaque sfuFlags : SfuOp → Word → BitVec 5

/-- The m-th word of the counter-mode stream under the PV_KEY of a draw (R130, R131). -/
opaque pvKappa : Nat → Nat → BitVec 64

/-- The four check symbols of the device code over a burst's data and its address bits [30:6] (R146): the spec gives the code's distance and not its field. -/
opaque hbmCode : BitVec 512 → BitVec 25 → BitVec 64

/-- The data a burst delivers when four or more symbols are in error and the code corrects it wrongly (R147). -/
opaque hbmWrong : Nat → BitVec 512

/-- The data a granule of the Gallery holds when four or more bits of a word are corrected wrongly or not detected (R179). -/
opaque galleryWrong : Nat → BitVec 512

/-- OUTCOME of the error record of an address that is not valid, and UNIT_KIND and UNIT_INDEX (above) of one that a DMA ring names, for which R354 has no
unit. -/
opaque addrOutcome : Nat → Byte
opaque dmaUnit : Nat → BitVec 24

/-- The residue pair of a failed array check (R354): predicted and accumulated. -/
opaque residuePair : Nat → BitVec 64

/-- The data the host gives up when a cacheless read meets a line it holds exclusively, by draw: none where it has not changed the line (R189). -/
opaque hostCopy : Nat → Option Line

/-- The class in DETAIL1 of a GUARANTEE_MISS event of a point, which has no class (R317). -/
opaque missClass : Nat → Byte

/-- The configuration digest of R243, by its inputs in order. -/
opaque cfgDigest : List Nat → BitVec 256

/-- Identity of the part (R31, R320): serials, steppings, the field-network address and the module's certificate. -/
opaque packageSerial : BitVec 96
opaque dieSerial : Nat → BitVec 96
opaque atriumSerial : BitVec 96
opaque plinthStepping : BitVec 16
opaque dieStepping : Nat → BitVec 16
opaque atriumStepping : BitVec 16
opaque fieldMac : BitVec 48
opaque certificate : BitVec 128
/-- CRATE_EK and byte k of DEVICE_ID_CHAIN, ALIAS_CHAIN and their lengths (R394, R395). -/
opaque crateEk : BitVec 12544
opaque chainLen : Bool → Nat
opaque chainByte : Bool → Nat → Byte

/-- Digests, signatures and measurements, by their inputs in order: SHAKE256 and SLH-DSA are not in the spec. -/
opaque digest : List Nat → BitVec 256
opaque signature : List Nat → Nat

/-- Byte k of the n-th file the device writes to the host, where the spec leaves it open: ciphertext, digests, firmware layouts. -/
opaque fileByte : Nat → Nat → Byte
/-- Bytes of the n-th file's section whose length the spec does not give. -/
opaque sectionLen : Nat → Nat → Nat

/-- Byte k and length of the Condition Record sealed under a sequence number, whose format the spec does not give (R374). -/
opaque recordByte : Nat → Nat → Byte
opaque recordLen : Nat → Nat
/-- Length of the diagnostic logs at the n-th fetch (R387), and the self-test result of START_STATUS by whether the tests passed (R383). -/
opaque logLen : Nat → Nat
opaque selfTestResult : Bool → Word

/-- A media engine's output of the n-th frame, where the codec's standard leaves it free: byte k. -/
opaque mediaByte : Nat → Nat → Byte

/-- A Vitrine's share of its die's other power under the energy model, in mW (R331): the draw, the Vitrine. -/
opaque energyShare : Nat → Nat → Nat

/-- Bank conflicts of an access of cluster memory by its lanes' addresses (R424): the spec does not give the banks (R45). -/
opaque bankConflicts : List Nat → Nat

end Sys2Proof.Config
end

