-- ==== Sys2Proof/Machine/KMap.lean ====
section
/-! DEFINITION. Finite maps by key as sorted lists, and lists of naturals as sorted sets. -/

namespace Sys2Proof.Machine

/-- The value at key `k`, or `d` where none is listed. -/
def kget {α : Type} (d : α) : KMap α → Nat → α
  | [], _ => d
  | (j, v) :: m, k => if j = k then v else kget d m k

/-- The value at key `k`, if one is listed. -/
def kfind {α : Type} : KMap α → Nat → Option α
  | [], _ => none
  | (j, v) :: m, k => if j = k then some v else kfind m k

/-- Set key `k` to `v`, keeping the keys rising. -/
def kset {α : Type} : KMap α → Nat → α → KMap α
  | [], k, v => [(k, v)]
  | (j, w) :: m, k, v =>
    if j = k then (k, v) :: m
    else if k < j then (k, v) :: (j, w) :: m
    else (j, w) :: kset m k v

/-- Remove key `k`. -/
def kdel {α : Type} : KMap α → Nat → KMap α
  | [], _ => []
  | (j, w) :: m, k => if j = k then kdel m k else (j, w) :: kdel m k

/-- Apply `f` to the value at `k` (`d` where absent). -/
def kupd {α : Type} (d : α) (m : KMap α) (k : Nat) (f : α → α) : KMap α := kset m k (f (kget d m k))

/-- Remove every key for which `p` holds. -/
def kdrop {α : Type} (p : Nat → Bool) (m : KMap α) : KMap α := m.filter (fun e => !(p e.1))

/-- Apply `f` to every listed value. -/
def kmapv {α : Type} (f : α → α) (m : KMap α) : KMap α := m.map (fun e => (e.1, f e.2))

/-- Insert into a rising list of naturals without repeats. -/
def sins : List Nat → Nat → List Nat
  | [], k => [k]
  | j :: m, k => if j = k then j :: m else if k < j then k :: j :: m else j :: sins m k

/-- Remove from a rising list of naturals. -/
def sdel (m : List Nat) (k : Nat) : List Nat := m.filter (fun j => j != k)

/-- The first index below `n` at which `p` holds. -/
def firstBelow (n : Nat) (p : Nat → Bool) : Option Nat := (List.range n).find? p

/-- The `i`-th element of a list, or `d`. -/
def nthD {α : Type} (d : α) (l : List α) (i : Nat) : α := (l[i]?).getD d

/-- Replace the `i`-th element. -/
def setNth {α : Type} : List α → Nat → α → List α
  | [], _, _ => []
  | _ :: l, 0, v => v :: l
  | x :: l, i + 1, v => x :: setNth l i v

/-- Apply `f` to the first element satisfying `p`. -/
def updFirst {α : Type} (p : α → Bool) (f : α → α) : List α → List α
  | [] => []
  | x :: l => if p x then f x :: l else x :: updFirst p f l

/-- Remove the first element satisfying `p`. -/
def delFirst {α : Type} (p : α → Bool) : List α → List α
  | [] => []
  | x :: l => if p x then l else x :: delFirst p l

/-- Ceiling of a quotient. -/
def cdiv (a b : Nat) : Nat := (a + b - 1) / b

/-- The field of `w` bits from bit `lo` of a natural. -/
def fld (n lo w : Nat) : Nat := (n >>> lo) % 2 ^ w

/-- The set bits of a mask, ascending. -/
def bits {w : Nat} (m : BitVec w) : List Nat := (List.range w).filter (fun i => m.getLsbD i)

/-- The mask of one bit. -/
def bit1 (w i : Nat) : BitVec w := BitVec.ofNat w (2 ^ i)

/-- Bit `i` of a mask set to `b`. -/
def putBit {w : Nat} (m : BitVec w) (i : Nat) (b : Bool) : BitVec w :=
  if b then m ||| bit1 w i else m &&& ~~~(bit1 w i)

/-- Little-endian bytes of a natural (R9). -/
def leBytes (n : Nat) : Nat → List Byte
  | 0 => []
  | k + 1 => BitVec.ofNat 8 n :: leBytes (n / 256) k

/-- The natural that little-endian bytes spell (R9). -/
def leNat : List Byte → Nat
  | [] => 0
  | b :: l => b.toNat + 256 * leNat l

/-- Mod-2^32 difference of ring indices and sequence numbers. -/
def diff32 (a b : Word) : Nat := (a - b).toNat

end Sys2Proof.Machine
end

