-- ==== Sys2Proof/Machine/Float.lean ====
section
/-! DEFINITION. FP32 arithmetic (R59): values as exact dyadic rationals, rounded once. -/

namespace Sys2Proof.Machine

/-- A floating-point value: a NaN, an infinity, or (-1)^neg x m x 2^e; m = 0 is a signed zero. -/
inductive FVal where
  | nan
  | inf (neg : Bool)
  | fin (neg : Bool) (m : Nat) (e : Int)
  deriving DecidableEq, Repr

/-- The sticky flags of R59, bit 0 invalid, 1 divide-by-zero, 2 overflow, 3 underflow, 4 inexact. -/
abbrev Flags := BitVec 5
def flInvalid : Flags := 1
def flDivZero : Flags := 2
def flOverflow : Flags := 4
def flUnderflow : Flags := 8
def flInexact : Flags := 16

/-- Whether a magnitude is rounded up: `q` is the kept quotient, `rem` of `2^s` the part lost. -/
def roundUp (mode : RMode) (neg : Bool) (q rem s : Nat) : Bool :=
  match mode with
  | .rne => decide (2 * rem > 2 ^ s) || (decide (2 * rem = 2 ^ s) && q % 2 == 1)
  | .rz => false
  | .rp => decide (rem ≠ 0) && !neg
  | .rm => decide (rem ≠ 0) && neg

/-- m x 2^e as an integer multiple of 2^q, rounded: the multiple and whether it is inexact. -/
def toQuantum (mode : RMode) (neg : Bool) (m : Nat) (e q : Int) : Nat × Bool :=
  if q ≤ e then (m * 2 ^ (e - q).toNat, false)
  else
    let s := (q - e).toNat
    let k := m / 2 ^ s
    let rem := m % 2 ^ s
    (if roundUp mode neg k rem s then k + 1 else k, decide (rem ≠ 0))

/-- A binary format: precision in bits with the hidden one, exponent of its least quantum, and exponent field width. -/
structure BinFmt where
  p : Nat
  qmin : Int
  ebits : Nat
  deriving DecidableEq, Repr

def fp32 : BinFmt := ⟨24, -149, 8⟩
def bf16 : BinFmt := ⟨8, -133, 8⟩
def fp16 : BinFmt := ⟨11, -24, 5⟩

/-- The bits of an infinity of a format. -/
def BinFmt.infBits (f : BinFmt) : Nat := (2 ^ f.ebits - 1) * 2 ^ (f.p - 1)
/-- The sign bit of a format. -/
def BinFmt.signBit (f : BinFmt) : Nat := 2 ^ (f.ebits + f.p - 1)
/-- The quiet NaN a result takes; 0x7FC0_0000 in FP32. -/
def BinFmt.nanBits (f : BinFmt) : Nat := f.infBits + 2 ^ (f.p - 2)

/-- The bits of a rounded finite value and the flags it sets: overflow, underflow when tiny after rounding and inexact,
inexact (R59). -/
def BinFmt.round (f : BinFmt) (mode : RMode) (neg : Bool) (m : Nat) (e : Int) : Nat × Flags :=
  let sg := if neg then f.signBit else 0
  if m = 0 then (sg, 0)
  else
    let len : Int := (Nat.log2 m : Int) + 1
    let free := e + len - (f.p : Int)
    let q := max free f.qmin
    let (k, inexact) := toQuantum mode neg m e q
    let (k, q) := if k = 2 ^ f.p then (2 ^ (f.p - 1), q + 1) else (k, q)
    if k < 2 ^ (f.p - 1) then
      -- subnormal or zero: q is the least quantum; tininess is judged after rounding without a lower exponent limit
      let (kf, _) := toQuantum mode neg m e free
      let tiny := decide (free < f.qmin) && !(decide (kf = 2 ^ f.p) && decide (free + 1 = f.qmin))
      (sg + k, if inexact then (if tiny then flUnderflow ||| flInexact else flInexact) else 0)
    else
      let ef := (q - f.qmin + 1).toNat
      if ef ≥ 2 ^ f.ebits - 1 then
        let toInf := match mode with
          | .rne => true | .rz => false | .rp => !neg | .rm => neg
        (sg + (if toInf then f.infBits else f.infBits - 1), flOverflow ||| flInexact)
      else
        let (kf, _) := toQuantum mode neg m e free
        let tiny := decide (free < f.qmin) && !(decide (kf = 2 ^ f.p) && decide (free + 1 = f.qmin))
        (sg + ef * 2 ^ (f.p - 1) + (k - 2 ^ (f.p - 1)),
          if inexact then (if tiny then flUnderflow ||| flInexact else flInexact) else 0)

/-- The value of a bit pattern. -/
def BinFmt.decode (f : BinFmt) (n : Nat) : FVal :=
  let neg := decide (n / f.signBit % 2 = 1)
  let ef := n / 2 ^ (f.p - 1) % 2 ^ f.ebits
  let mt := n % 2 ^ (f.p - 1)
  if ef = 2 ^ f.ebits - 1 then (if mt = 0 then .inf neg else .nan)
  else if ef = 0 then .fin neg mt f.qmin
  else .fin neg (mt + 2 ^ (f.p - 1)) (f.qmin + (ef : Int) - 1)

/-- The bits of a value and its flags. -/
def BinFmt.encode (f : BinFmt) (mode : RMode) : FVal → Nat × Flags
  | .nan => (f.nanBits, 0)
  | .inf neg => (f.infBits + (if neg then f.signBit else 0), 0)
  | .fin neg m e => f.round mode neg m e

/-- The exact sum of two finite values; an exact zero of unlike signs is +0, or -0 toward -infinity. -/
def addFin (mode : RMode) (n1 : Bool) (m1 : Nat) (e1 : Int) (n2 : Bool) (m2 : Nat) (e2 : Int) : FVal :=
  let e := min e1 e2
  let a : Int := (m1 * 2 ^ (e1 - e).toNat : Nat)
  let b : Int := (m2 * 2 ^ (e2 - e).toNat : Nat)
  let s := (if n1 then -a else a) + (if n2 then -b else b)
  if s = 0 then (if n1 == n2 then .fin n1 0 e else .fin (mode == .rm) 0 e)
  else .fin (decide (s < 0)) s.natAbs e

/-- Sum of two values, with the invalid flag for opposite infinities. -/
def FVal.add (mode : RMode) : FVal → FVal → FVal × Flags
  | .nan, _ => (.nan, 0)
  | _, .nan => (.nan, 0)
  | .inf a, .inf b => if a == b then (.inf a, 0) else (.nan, flInvalid)
  | .inf a, .fin .. => (.inf a, 0)
  | .fin .., .inf b => (.inf b, 0)
  | .fin n1 m1 e1, .fin n2 m2 e2 => (addFin mode n1 m1 e1 n2 m2 e2, 0)

/-- Product of two values, with the invalid flag for zero times infinity. -/
def FVal.mul : FVal → FVal → FVal × Flags
  | .nan, _ => (.nan, 0)
  | _, .nan => (.nan, 0)
  | .inf a, .inf b => (.inf (a != b), 0)
  | .inf a, .fin b m _ => if m = 0 then (.nan, flInvalid) else (.inf (a != b), 0)
  | .fin a m _, .inf b => if m = 0 then (.nan, flInvalid) else (.inf (a != b), 0)
  | .fin a m e, .fin b n f => (.fin (a != b) (m * n) (e + f), 0)

/-- The negation of a value. -/
def FVal.neg : FVal → FVal
  | .nan => .nan
  | .inf a => .inf (!a)
  | .fin a m e => .fin (!a) m e

/-- -1, 0 or 1 as the first value is less than, equal to or greater than the second; none when a NaN takes part. -/
def FVal.cmp : FVal → FVal → Option Int
  | .nan, _ => none
  | _, .nan => none
  | .inf a, .inf b => some (if a == b then 0 else if a then -1 else 1)
  | .inf a, .fin .. => some (if a then -1 else 1)
  | .fin .., .inf b => some (if b then 1 else -1)
  | .fin n1 m1 e1, .fin n2 m2 e2 =>
    let e := min e1 e2
    let a : Int := (m1 * 2 ^ (e1 - e).toNat : Nat)
    let b : Int := (m2 * 2 ^ (e2 - e).toNat : Nat)
    let x := if n1 then -a else a
    let y := if n2 then -b else b
    some (if x < y then -1 else if x = y then 0 else 1)

/-- The FP32 value of a word. -/
def val32 (w : Word) : FVal := fp32.decode w.toNat
/-- The word of an FP32 result and its flags. -/
def word32 (mode : RMode) (v : FVal) : Word × Flags :=
  let (n, f) := fp32.encode mode v
  (BitVec.ofNat 32 n, f)

/-- A NaN with its top fraction bit clear signals (IEEE 754). -/
def isSignaling (w : Word) : Bool := val32 w == .nan && !(w.getLsbD 22)
def sigFlags (l : List Word) : Flags := if l.any isSignaling then flInvalid else 0

/-- FP32 addition. -/
def fadd32 (mode : RMode) (a b : Word) : Word × Flags :=
  let (v, f) := (val32 a).add mode (val32 b)
  let (w, g) := word32 mode v
  (w, f ||| g ||| sigFlags [a, b])

/-- FP32 multiplication. -/
def fmul32 (mode : RMode) (a b : Word) : Word × Flags :=
  let (v, f) := (val32 a).mul (val32 b)
  let (w, g) := word32 mode v
  (w, f ||| g ||| sigFlags [a, b])

/-- FP32 fused multiply-add a x b + c, rounded once. -/
def ffma32 (mode : RMode) (a b c : Word) : Word × Flags :=
  let (p, f) := (val32 a).mul (val32 b)
  let f := if val32 c == .nan && !Config.fmaInvalid then 0 else f
  let (v, g) := p.add mode (val32 c)
  let (w, h) := word32 mode v
  (w, f ||| g ||| h ||| sigFlags [a, b, c])

/-- The quiet NaN of R59. -/
def qnan : Word := 0x7FC00000

/-- FP32 min (`big` false) and max (`big` true) of R59: the non-NaN operand, and -0 below +0. -/
def fminmax32 (big : Bool) (a b : Word) : Word :=
  match val32 a == .nan, val32 b == .nan with
  | true, true => qnan
  | true, false => b
  | false, true => a
  | false, false =>
    match (val32 a).cmp (val32 b) with
    | some 0 => if big then (if a.getLsbD 31 then b else a) else (if a.getLsbD 31 then a else b)
    | some c => if (c < 0) != big then a else b
    | none => qnan

end Sys2Proof.Machine
end

