-- ==== Sys2Proof/Machine/Entries.lean ====
section
/-! DEFINITION. The Catalogue's entries: index range, subindex range, type, access, scope, rows and defaults, as the
chapters' tables give them (R11, R299, R318). -/

namespace Sys2Proof.Machine

/-- One line of a Catalogue table. Indices run from `lo` to `hi` in steps of `stride`, subindices from `subLo` to
`subHi`. `ty`, `rowTy` are the type codes of R299; `access` and `scope` are coded as R299 states; `rows` is 0 for a
TABLE whose length varies; row r defaults to `dflt[r]`, or the last value listed. `moment` is when an accepted value
is in force: 0 at once, 1 at the Vitrine's next batch step, 2 at the next start (R298). -/
structure EntryInfo where
  lo : Nat
  hi : Nat
  stride : Nat
  subLo : Nat
  subHi : Nat
  ty : Nat
  access : Nat
  scope : Nat
  rows : Nat
  rowTy : Nat
  rowBytes : Nat
  dflt : List Nat
  moment : Nat
  deriving DecidableEq, Repr

/-- Entries 0x1000 to 0x2020. -/
def entries0 : List EntryInfo := [
  ⟨0x1000, 0x1000, 1, 1, 1, 11, 0, 0, 1, 11, 16, [0x6E79656863616E4F], 0⟩, -- VENDOR R31
  ⟨0x1000, 0x1000, 1, 2, 2, 11, 0, 0, 1, 11, 16, [0x7869646C6148], 0⟩, -- FAMILY R31
  ⟨0x1000, 0x1000, 1, 3, 3, 11, 0, 0, 1, 11, 16, [0x303434312D385A48], 0⟩, -- PART_NUMBER R31
  ⟨0x1000, 0x1000, 1, 4, 4, 11, 0, 0, 1, 11, 16, [0x6873616E757665685A], 0⟩, -- GENERATION R31
  ⟨0x1000, 0x1000, 1, 5, 5, 11, 0, 0, 1, 11, 12, [0], 0⟩, -- PACKAGE_SERIAL R31
  ⟨0x1000, 0x1000, 1, 6, 6, 3, 0, 0, 1, 3, 2, [0], 0⟩, -- PLINTH_STEPPING R31
  ⟨0x1000, 0x1000, 1, 7, 7, 2, 0, 0, 1, 2, 1, [0xFF], 0⟩, -- DIES_IN_SERVICE R31
  ⟨0x1000, 0x1000, 1, 8, 8, 4, 0, 0, 1, 4, 4, [0xFFFFFFFF], 0⟩, -- VITRINES_IN_SERVICE R31
  ⟨0x1000, 0x1000, 1, 9, 9, 4, 0, 0, 1, 4, 4, [0], 0⟩, -- CONDITION_RECORD_SEQ R31
  ⟨0x1001, 0x1008, 1, 1, 1, 11, 0, 1, 1, 11, 12, [0], 0⟩, -- DIE_SERIAL R31
  ⟨0x1001, 0x1008, 1, 2, 2, 3, 0, 1, 1, 3, 2, [0], 0⟩, -- DIE_STEPPING R31
  ⟨0x1001, 0x1008, 1, 3, 3, 12, 0, 1, 4, 13, 20, [0xF0E0D0C0B0A0908070605040302010000000000], 0⟩, -- CORE_MAP R31
  ⟨0x1001, 0x1008, 1, 4, 4, 12, 0, 1, 14, 13, 3, [0xFF], 0⟩, -- LASER_MAP R31
  ⟨0x1001, 0x1008, 1, 5, 5, 2, 0, 1, 1, 2, 1, [0], 0⟩, -- SPARE_WAYS_USED R31
  ⟨0x1001, 0x1008, 1, 6, 6, 3, 0, 1, 1, 3, 2, [0], 0⟩, -- BUNDLES_DEGRADED R31
  ⟨0x1009, 0x1009, 1, 1, 1, 11, 0, 0, 1, 11, 12, [0], 0⟩, -- ATRIUM_SERIAL R31
  ⟨0x1009, 0x1009, 1, 2, 2, 3, 0, 0, 1, 3, 2, [0], 0⟩, -- ATRIUM_STEPPING R31
  ⟨0x1009, 0x1009, 1, 4, 4, 12, 0, 0, 8, 13, 3, [0xFF], 0⟩, -- ATRIUM_LASER_MAP R31
  ⟨0x100A, 0x100A, 1, 1, 1, 11, 0, 0, 1, 11, 6, [0], 0⟩, -- FIELD_MAC R320
  ⟨0x100A, 0x100A, 1, 2, 2, 3, 4, 0, 1, 3, 2, [0xFFFF], 2⟩, -- PLCA_NODE_ID R320
  ⟨0x100A, 0x100A, 1, 3, 3, 2, 4, 0, 1, 2, 1, [8], 2⟩, -- PLCA_NODE_COUNT R320
  ⟨0x100A, 0x100A, 1, 4, 4, 2, 0, 0, 1, 2, 1, [0], 0⟩, -- PLCA_NODE_IN_USE R320
  ⟨0x1010, 0x1010, 1, 1, 1, 1, 3, 0, 1, 1, 1, [0], 0⟩, -- DEVICE_READY R320
  ⟨0x1010, 0x1010, 1, 2, 2, 5, 0, 0, 1, 5, 8, [0], 0⟩, -- CATALOGUE_GENERATION R320
  ⟨0x1010, 0x1010, 1, 3, 3, 4, 0, 0, 1, 4, 4, [0], 0⟩, -- EVENT_SEQ_NEXT R320
  ⟨0x1010, 0x1010, 1, 4, 4, 2, 0, 0, 1, 2, 1, [0], 0⟩, -- SESSIONS_OPEN R320
  ⟨0x1010, 0x1010, 1, 5, 5, 5, 0, 0, 1, 5, 8, [0], 0⟩, -- AUTH_FAILURES R320
  ⟨0x1010, 0x1010, 1, 6, 6, 1, 0, 0, 1, 1, 1, [0], 0⟩, -- PROVISIONED_PENDING R320
  ⟨0x2000, 0x2000, 1, 1, 1, 3, 4, 0, 1, 3, 2, [0xAF0], 2⟩, -- POWER_PROFILE R347
  ⟨0x2000, 0x2000, 1, 2, 2, 3, 3, 0, 1, 3, 2, [0], 0⟩, -- PROFILE_SELECT R347
  ⟨0x2000, 0x2000, 1, 3, 3, 3, 0, 0, 1, 3, 2, [0xAF0], 0⟩, -- PROFILE_IN_FORCE R347
  ⟨0x2000, 0x2000, 1, 4, 4, 10, 0, 0, 1, 10, 4, [0], 0⟩, -- DEVICE_POWER_W R347
  ⟨0x2000, 0x2000, 1, 5, 5, 2, 0, 0, 1, 2, 1, [0], 0⟩, -- EMERGENCY_STATE R347
  ⟨0x2000, 0x2000, 1, 6, 6, 2, 4, 0, 1, 2, 1, [0x5F], 2⟩, -- THROTTLE_TEMP R347
  ⟨0x2000, 0x2000, 1, 7, 7, 1, 0, 0, 1, 1, 1, [0], 0⟩, -- FW_ACTIVATION_DEFERRED R347
  ⟨0x2000, 0x2000, 1, 8, 8, 2, 4, 0, 1, 2, 1, [0x10], 2⟩, -- TRIM_LIMIT_STEPS R347
  ⟨0x2001, 0x2008, 1, 1, 1, 10, 0, 1, 1, 10, 4, [0], 0⟩, -- DIE_POWER_W R347
  ⟨0x2001, 0x2008, 1, 2, 2, 2, 0, 1, 1, 2, 1, [2], 0⟩, -- P_STATE R347
  ⟨0x2001, 0x2008, 1, 3, 3, 6, 0, 1, 1, 6, 1, [0], 0⟩, -- DIE_TEMP_MAX R347
  ⟨0x2001, 0x2008, 1, 4, 4, 2, 0, 1, 1, 2, 1, [0], 0⟩, -- LIMIT_STATE R347
  ⟨0x2001, 0x2008, 1, 5, 5, 2, 0, 1, 1, 2, 1, [0], 0⟩, -- TRIM_STEPS R347
  ⟨0x2001, 0x2008, 1, 6, 6, 12, 0, 1, 0, 13, 5, [0], 0⟩, -- TRIM_HISTORY R347
  ⟨0x2010, 0x2010, 1, 1, 1, 12, 0, 0, 3, 13, 11, [0], 0⟩, -- PROFILE_TABLE R347
  ⟨0x2020, 0x2020, 1, 1, 1, 12, 0, 0, 32, 5, 8, [0], 0⟩, -- CLOCK_GATED_CYCLES R348
  ⟨0x2020, 0x2020, 1, 2, 2, 12, 0, 0, 32, 5, 8, [0], 0⟩, -- THROTTLE_INTERVALS R348
  ⟨0x2020, 0x2020, 1, 3, 3, 12, 0, 0, 32, 5, 8, [0], 0⟩, -- HARD_LIMIT_INTERVALS R348
  ⟨0x2020, 0x2020, 1, 4, 4, 12, 0, 0, 32, 5, 8, [0], 0⟩, -- PACE_SENT R348
  ⟨0x2020, 0x2020, 1, 5, 5, 12, 0, 0, 32, 5, 8, [0], 0⟩ -- PACE_ACCEPTED R348
  ]

/-- Entries 0x3000 to 0x300D. -/
def entries1 : List EntryInfo := [
  ⟨0x3000, 0x31F0, 16, 1, 1, 2, 0, 2, 1, 2, 1, [0], 0⟩, -- VITRINE_STATE R295
  ⟨0x3000, 0x31F0, 16, 2, 2, 2, 0, 2, 1, 2, 1, [0xFF], 0⟩, -- TENANCY_LEADER R295
  ⟨0x3000, 0x31F0, 16, 3, 3, 4, 1, 2, 1, 4, 4, [0x100000], 1⟩, -- STEP_TIME_LIMIT R295
  ⟨0x3000, 0x31F0, 16, 4, 4, 2, 1, 2, 1, 2, 1, [0], 1⟩, -- CKPT_SLOT_STEPS R295
  ⟨0x3000, 0x31F0, 16, 5, 5, 4, 0, 2, 1, 4, 4, [0xFFFFFFFF], 0⟩, -- CKPT_LOCAL R295
  ⟨0x3001, 0x31F1, 16, 1, 1, 12, 1, 2, 2048, 11, 16, [0], 0⟩, -- RING_CONFIG R295
  ⟨0x3002, 0x31F2, 16, 1, 1, 12, 0, 2, 2048, 13, 21, [0], 0⟩, -- RING_STATE R295
  ⟨0x3003, 0x31F3, 16, 1, 1, 4, 1, 2, 1, 4, 4, [0x1000000], 1⟩, -- BARRIER_WATCHDOG_CYCLES R53
  ⟨0x3004, 0x31F4, 16, 1, 1, 3, 1, 2, 1, 3, 2, [0xFFFF], 1⟩, -- LAYER_WATCH R96
  ⟨0x3005, 0x31F5, 16, 1, 1, 1, 1, 2, 1, 1, 1, [0], 1⟩, -- PV_ENABLE R130
  ⟨0x3005, 0x31F5, 16, 2, 2, 2, 1, 2, 1, 2, 1, [0], 1⟩, -- PV_STORE_STEPS R130
  ⟨0x3005, 0x31F5, 16, 3, 3, 4, 1, 2, 1, 4, 4, [0], 1⟩, -- PV_VERIFY_N R130
  ⟨0x3005, 0x31F5, 16, 4, 4, 4, 0, 2, 1, 4, 4, [0], 0⟩, -- PV_ENTRIES R130
  ⟨0x3006, 0x31F6, 16, 1, 1, 12, 1, 2, 512, 2, 1, [0], 1⟩, -- PV_LAYER_MASK R130
  ⟨0x3007, 0x31F7, 16, 1, 1, 2, 1, 2, 1, 2, 1, [0], 0⟩, -- GALLERY_SCRATCH_STEPS R193
  ⟨0x3007, 0x31F7, 16, 2, 2, 4, 0, 2, 1, 4, 4, [0x4800000], 0⟩, -- GALLERY_CACHE_BYTES R193
  ⟨0x3007, 0x31F7, 16, 3, 3, 4, 0, 2, 1, 4, 4, [0], 0⟩, -- GALLERY_PINNED_BYTES R193
  ⟨0x3007, 0x31F7, 16, 4, 4, 1, 1, 2, 1, 1, 1, [1], 1⟩, -- STREAM_DETECT R193
  ⟨0x3007, 0x31F7, 16, 5, 5, 3, 1, 2, 1, 3, 2, [0x20], 1⟩, -- STREAM_MIN_LINES R193
  ⟨0x3007, 0x31F7, 16, 6, 6, 2, 1, 2, 1, 2, 1, [0x40], 1⟩, -- THRASH_THRESHOLD R193
  ⟨0x3007, 0x31F7, 16, 7, 7, 2, 1, 2, 1, 2, 1, [0x14], 1⟩, -- THRASH_WINDOW R193
  ⟨0x3008, 0x31F8, 16, 1, 1, 12, 1, 2, 6, 5, 8, [0xF040008000000, 0x2D080008000000, 0xF200080000000, 0x5080020000000, 0xA100040000000, 0xA100040000000], 1⟩, -- REG_CLASSES R235
  ⟨0x3008, 0x31F8, 16, 2, 2, 3, 1, 2, 1, 3, 2, [0x400], 1⟩, -- REG_POOL R235
  ⟨0x3008, 0x31F8, 16, 3, 3, 2, 1, 2, 1, 2, 1, [0x10], 1⟩, -- REG_WINDOW_LOG2 R235
  ⟨0x3008, 0x31F8, 16, 4, 4, 3, 1, 2, 1, 3, 2, [0x800], 1⟩, -- MEDIA_URGENT_CYCLES R235
  ⟨0x3008, 0x31F8, 16, 5, 5, 4, 1, 2, 1, 4, 4, [0], 0⟩, -- REG_MISS_STATUS R235
  ⟨0x3009, 0x31F9, 16, 1, 1, 4, 1, 2, 1, 4, 4, [0], 1⟩, -- FABRIC_GROUP R257
  ⟨0x3009, 0x31F9, 16, 2, 2, 4, 1, 2, 1, 4, 4, [0], 1⟩, -- JOB_EPOCH R257
  ⟨0x3009, 0x31F9, 16, 3, 3, 2, 1, 2, 1, 2, 1, [0], 1⟩, -- PACE_MODE R257
  ⟨0x3009, 0x31F9, 16, 4, 4, 2, 1, 2, 1, 2, 1, [0], 1⟩, -- CKPT_ROLE R257
  ⟨0x3009, 0x31F9, 16, 5, 5, 4, 0, 2, 1, 4, 4, [0xFFFFFFFF], 0⟩, -- CKPT_COMMITTED R257
  ⟨0x3009, 0x31F9, 16, 6, 6, 4, 1, 2, 1, 4, 4, [0], 0⟩, -- REMOTE_TIMEOUT_OVERRIDE R257
  ⟨0x300A, 0x31FA, 16, 1, 1, 12, 1, 2, 2048, 4, 4, [0], 1⟩, -- FABRIC_MEMBERS R257
  ⟨0x300B, 0x31FB, 16, 1, 1, 2, 1, 2, 1, 2, 1, [0], 1⟩, -- POWER_CLASS R348
  ⟨0x300B, 0x31FB, 16, 2, 2, 2, 0, 2, 1, 2, 1, [0x40], 0⟩, -- DUTY0 R348
  ⟨0x300B, 0x31FB, 16, 3, 3, 2, 0, 2, 1, 2, 1, [0x40], 0⟩, -- DUTY_LIMIT R348
  ⟨0x300B, 0x31FB, 16, 4, 4, 3, 0, 2, 1, 3, 2, [0xCE4], 0⟩, -- EFFECTIVE_CLOCK_MHZ R348
  ⟨0x300B, 0x31FB, 16, 5, 5, 10, 0, 2, 1, 10, 4, [0], 0⟩, -- ARRAY_POWER_W R348
  ⟨0x300C, 0x31FC, 16, 1, 1, 2, 0, 2, 1, 2, 1, [0], 0⟩, -- TSP_STATE R405
  ⟨0x300C, 0x31FC, 16, 2, 2, 1, 1, 2, 1, 1, 1, [0], 0⟩, -- IDE_REQUIRED R405
  ⟨0x300C, 0x31FC, 16, 3, 3, 11, 0, 2, 1, 11, 32, [0], 0⟩, -- TSP_CONFIG_DIGEST R405
  ⟨0x300D, 0x31FD, 16, 1, 1, 1, 1, 2, 1, 1, 1, [0], 1⟩, -- DEBUG_MODE R425
  ⟨0x300D, 0x31FD, 16, 2, 2, 1, 1, 2, 1, 1, 1, [0], 0⟩, -- DEBUG_CONSENT R425
  ⟨0x300D, 0x31FD, 16, 3, 3, 2, 1, 2, 1, 2, 1, [0], 0⟩, -- VITRINE_HALT R425
  ⟨0x300D, 0x31FD, 16, 4, 4, 12, 1, 2, 8, 11, 16, [0], 0⟩, -- WATCHPOINTS R425
  ⟨0x300D, 0x31FD, 16, 5, 5, 5, 1, 2, 1, 5, 8, [0], 0⟩, -- TRACE_CONTROL R425
  ⟨0x300D, 0x31FD, 16, 6, 6, 3, 1, 2, 1, 3, 2, [0], 0⟩, -- TRACE_KINDS R425
  ⟨0x300D, 0x31FD, 16, 7, 7, 12, 0, 2, 1, 13, 5, [0], 0⟩ -- TRACE_STATE R425
  ]

/-- Entries 0x300D to 0x6050. -/
def entries2 : List EntryInfo := [
  ⟨0x300D, 0x31FD, 16, 8, 8, 12, 0, 2, 16384, 11, 16, [0], 0⟩, -- TRACE_BUFFER R425
  ⟨0x300D, 0x31FD, 16, 9, 9, 11, 2, 2, 1, 11, 24, [0], 0⟩, -- SCAN_COMMAND R425
  ⟨0x300D, 0x31FD, 16, 10, 10, 12, 1, 2, 8, 2, 1, [0], 1⟩, -- PROFILE_SELECT R425
  ⟨0x3200, 0x3200, 1, 1, 1, 4, 2, 0, 1, 4, 4, [0], 0⟩, -- TENANCY_ASSIGN R295
  ⟨0x3200, 0x3200, 1, 2, 2, 3, 2, 0, 1, 3, 2, [0], 0⟩, -- TENANCY_DEACCESSION R295
  ⟨0x3200, 0x3200, 1, 3, 3, 11, 2, 0, 1, 11, 24, [0], 0⟩, -- TENANCY_CRATE R295
  ⟨0x3200, 0x3200, 1, 4, 4, 12, 0, 0, 32, 13, 10, [0], 0⟩, -- TENANCY_CMD_STATUS R295
  ⟨0x4000, 0x4000, 1, 1, 1, 5, 0, 0, 1, 5, 8, [0x16800000000], 0⟩, -- HBM_USABLE_BYTES R163
  ⟨0x4000, 0x4000, 1, 2, 2, 4, 4, 0, 1, 4, 4, [0x80000], 2⟩, -- HBM_SCRUB_INTERVAL R163
  ⟨0x4000, 0x4000, 1, 3, 3, 4, 4, 0, 1, 4, 4, [0x20000], 2⟩, -- HBM_CAL_INTERVAL R163
  ⟨0x4000, 0x4000, 1, 4, 4, 2, 4, 0, 1, 2, 1, [8], 2⟩, -- ROW_CE_LIMIT R163
  ⟨0x4000, 0x4000, 1, 5, 5, 12, 0, 0, 0, 5, 8, [0], 0⟩, -- RETIREMENTS_SINCE_START R163
  ⟨0x4001, 0x4008, 1, 1, 1, 12, 0, 1, 3, 6, 1, [0], 0⟩, -- STACK_TEMP R163
  ⟨0x4001, 0x4008, 1, 2, 2, 12, 0, 1, 3, 2, 1, [0], 0⟩, -- REFRESH_BAND R163
  ⟨0x4001, 0x4008, 1, 3, 3, 12, 0, 1, 3, 4, 4, [0], 0⟩, -- ROWS_RETIRED R163
  ⟨0x4001, 0x4008, 1, 4, 4, 12, 0, 1, 3, 4, 4, [0], 0⟩, -- ROWS_OFFLINED R163
  ⟨0x4001, 0x4008, 1, 5, 5, 12, 0, 1, 3, 3, 2, [0], 0⟩, -- BANKS_REDIRECTED R163
  ⟨0x4001, 0x4008, 1, 6, 6, 11, 0, 1, 1, 11, 12, [0], 0⟩, -- CHANNELS_FAILED R163
  ⟨0x4010, 0x4010, 1, 1, 1, 4, 4, 0, 1, 4, 4, [0x20000], 2⟩, -- GALLERY_SCRUB_INTERVAL R193
  ⟨0x5000, 0x5000, 1, 1, 1, 3, 3, 0, 1, 3, 2, [0xFFFF], 0⟩, -- DEVICE_ID R257
  ⟨0x5000, 0x5000, 1, 2, 2, 4, 4, 0, 1, 4, 4, [0x989680], 2⟩, -- FABRIC_TIMEOUT R257
  ⟨0x5000, 0x5000, 1, 3, 3, 4, 4, 0, 1, 4, 4, [0x186A0], 2⟩, -- REMOTE_RETRY R257
  ⟨0x5001, 0x5001, 1, 1, 1, 12, 1, 0, 65536, 4, 4, [0], 0⟩, -- FORWARDING R257
  ⟨0x5002, 0x5002, 1, 1, 1, 12, 1, 0, 256, 11, 12, [0], 0⟩, -- ROUTE_GROUPS R257
  ⟨0x5003, 0x5003, 1, 1, 1, 12, 0, 0, 96, 13, 5, [0], 0⟩, -- LINK_STATE R257
  ⟨0x5004, 0x5004, 1, 1, 1, 12, 0, 0, 16, 13, 8, [0], 0⟩, -- ALIAS R257
  ⟨0x5005, 0x5005, 1, 1, 1, 12, 1, 0, 96, 2, 1, [0], 0⟩, -- LINK_ADMIN R295
  ⟨0x5100, 0x5100, 1, 1, 1, 12, 0, 0, 144, 13, 10, [0], 0⟩, -- BUNDLE_STATE R235
  ⟨0x5100, 0x5100, 1, 2, 2, 3, 4, 0, 1, 3, 2, [0x10], 2⟩, -- LANE_ERROR_LIMIT R235
  ⟨0x5101, 0x5101, 1, 1, 1, 12, 0, 0, 16, 13, 5, [0xFF], 0⟩, -- SEAM_STATE R235
  ⟨0x5200, 0x5200, 1, 1, 1, 3, 4, 0, 1, 3, 2, [0xFFFF], 2⟩, -- PENDANT_DEVICE R257
  ⟨0x5200, 0x5200, 1, 2, 2, 11, 4, 0, 1, 11, 12, [0x1001001001001001001001], 2⟩, -- PENDANT_LINKS R257
  ⟨0x5200, 0x5200, 1, 3, 3, 2, 0, 0, 1, 2, 1, [0], 0⟩, -- PENDANT_STATE R257
  ⟨0x5200, 0x5200, 1, 4, 4, 4, 2, 0, 1, 4, 4, [0], 0⟩, -- TAKEOVER_VITRINES R257
  ⟨0x6000, 0x6000, 1, 1, 1, 3, 4, 0, 1, 3, 2, [0x400], 2⟩, -- SRAM_SCRUB_INTERVAL R375
  ⟨0x6000, 0x6000, 1, 2, 2, 2, 4, 0, 1, 2, 1, [3], 2⟩, -- DIE_FAULT_LIMIT R375
  ⟨0x6010, 0x6010, 1, 1, 1, 12, 0, 0, 1024, 11, 64, [0], 0⟩, -- ERROR_LOG R375
  ⟨0x6010, 0x6010, 1, 2, 2, 4, 0, 0, 1, 4, 4, [0], 0⟩, -- ERROR_LOG_NEXT R375
  ⟨0x6010, 0x6010, 1, 3, 3, 5, 0, 0, 1, 5, 8, [0], 0⟩, -- ERROR_LOG_LOST R375
  ⟨0x6020, 0x6020, 1, 1, 1, 12, 0, 0, 32, 13, 6, [0], 0⟩, -- JOB_STATE R375
  ⟨0x6030, 0x6030, 1, 1, 1, 12, 0, 0, 0, 11, 32, [0], 0⟩, -- PENDING_CONDITION_RECORD R375
  ⟨0x6030, 0x6030, 1, 2, 2, 1, 2, 0, 1, 1, 1, [0], 0⟩, -- RECORD_SEAL R375
  ⟨0x6030, 0x6030, 1, 3, 3, 4, 0, 0, 1, 4, 4, [0], 0⟩, -- RECORD_CHANGES R375
  ⟨0x6040, 0x6040, 1, 1, 1, 11, 2, 0, 1, 11, 40, [0], 0⟩, -- BIST_COMMAND R375
  ⟨0x6040, 0x6040, 1, 2, 2, 12, 0, 0, 9, 13, 4, [0], 0⟩, -- BIST_STATE R375
  ⟨0x6041, 0x6041, 1, 1, 1, 12, 0, 0, 0, 11, 32, [0], 0⟩, -- CONDITION_REPORT R375
  ⟨0x6041, 0x6041, 1, 2, 2, 4, 0, 0, 1, 4, 4, [0], 0⟩, -- CONDITION_REPORT_SEQ R375
  ⟨0x6050, 0x6050, 1, 1, 1, 12, 0, 0, 32, 5, 8, [0], 0⟩ -- JOB_FAULTS R376
  ]

/-- Entries 0x6050 to 0x8012. -/
def entries3 : List EntryInfo := [
  ⟨0x6050, 0x6050, 1, 2, 2, 12, 0, 0, 32, 5, 8, [0], 0⟩, -- POISON_CONSUMED R376
  ⟨0x6050, 0x6050, 1, 3, 3, 12, 0, 0, 32, 5, 8, [0], 0⟩, -- CORES_SUBSTITUTED R376
  ⟨0x6051, 0x6051, 1, 1, 1, 12, 0, 0, 8, 5, 8, [0], 0⟩, -- DIE_FAULTS R376
  ⟨0x6051, 0x6051, 1, 2, 2, 12, 0, 0, 8, 5, 8, [0], 0⟩, -- SRAM_SCRUB_CORRECTED R376
  ⟨0x6051, 0x6051, 1, 3, 3, 12, 0, 0, 8, 5, 8, [0], 0⟩, -- LASER_FAILURES R376
  ⟨0x6051, 0x6051, 1, 4, 4, 12, 0, 0, 8, 5, 8, [0], 0⟩, -- BIST_RUNS R376
  ⟨0x7000, 0x7000, 1, 1, 1, 4, 0, 0, 1, 4, 4, [0], 0⟩, -- FW_VERSION R405
  ⟨0x7000, 0x7000, 1, 2, 2, 4, 0, 0, 1, 4, 4, [0], 0⟩, -- FW_SVN R405
  ⟨0x7000, 0x7000, 1, 3, 3, 4, 0, 0, 1, 4, 4, [0], 0⟩, -- SVN_FLOOR R405
  ⟨0x7000, 0x7000, 1, 4, 4, 1, 2, 0, 1, 1, 1, [0], 0⟩, -- SVN_COMMIT R405
  ⟨0x7000, 0x7000, 1, 5, 5, 3, 0, 0, 1, 3, 2, [0], 0⟩, -- DRIVER_IF R405
  ⟨0x7000, 0x7000, 1, 6, 6, 4, 0, 0, 1, 4, 4, [0], 0⟩, -- REGISTRAR_FW_VERSION R405
  ⟨0x7000, 0x7000, 1, 7, 7, 1, 0, 0, 1, 1, 1, [0], 0⟩, -- APPROVED_MODE R405
  ⟨0x7000, 0x7000, 1, 8, 8, 11, 0, 0, 1, 11, 16, [0], 0⟩, -- MODULE_CERTIFICATE R405
  ⟨0x7000, 0x7000, 1, 9, 9, 1, 2, 0, 1, 1, 1, [0], 0⟩, -- ZEROIZE R405
  ⟨0x7001, 0x7001, 1, 1, 1, 12, 0, 0, 0, 13, 33, [0], 0⟩, -- MEASUREMENTS R405
  ⟨0x7002, 0x7002, 1, 1, 1, 12, 0, 0, 0, 2, 1, [0], 0⟩, -- DEVICE_ID_CHAIN R405
  ⟨0x7002, 0x7002, 1, 2, 2, 12, 0, 0, 0, 2, 1, [0], 0⟩, -- ALIAS_CHAIN R405
  ⟨0x7003, 0x7003, 1, 1, 1, 4, 0, 0, 1, 4, 4, [0], 0⟩, -- RECORD_SEQ_FLOOR R405
  ⟨0x7003, 0x7003, 1, 2, 2, 2, 0, 0, 1, 2, 1, [0], 0⟩, -- KEYS_REVOKED R405
  ⟨0x7003, 0x7003, 1, 3, 3, 2, 4, 0, 1, 2, 1, [0], 2⟩, -- REVOKE_KEY R405
  ⟨0x7004, 0x7004, 1, 1, 1, 12, 0, 0, 96, 13, 8, [0], 0⟩, -- LINK_SECURITY R405
  ⟨0x7005, 0x7005, 1, 1, 1, 11, 1, 0, 1, 11, 1568, [0], 0⟩, -- CRATE_RECIPIENT R405
  ⟨0x7005, 0x7005, 1, 2, 2, 11, 0, 0, 1, 11, 1568, [0], 0⟩, -- CRATE_EK R405
  ⟨0x7006, 0x7006, 1, 1, 1, 12, 0, 0, 18, 13, 5, [0], 0⟩, -- PROCESSOR_STATE R405
  ⟨0x7006, 0x7006, 1, 2, 2, 2, 0, 0, 1, 2, 1, [0], 0⟩, -- FW_ACTIVATION_STATE R405
  ⟨0x7100, 0x7100, 1, 1, 1, 12, 4, 0, 8, 13, 33, [0], 2⟩, -- MGMT_ANCHORS R321
  ⟨0x8010, 0x8010, 1, 1, 1, 12, 0, 0, 32, 5, 8, [0], 0⟩, -- BLOCK_SWAPS R66
  ⟨0x8010, 0x8010, 1, 2, 2, 12, 0, 0, 32, 5, 8, [0], 0⟩, -- BARRIER_WATCHDOG_TRIPS R66
  ⟨0x8010, 0x8010, 1, 3, 3, 12, 0, 0, 32, 5, 8, [0], 0⟩, -- ATOMICS_COMBINED R66
  ⟨0x8010, 0x8010, 1, 4, 4, 12, 0, 0, 32, 5, 8, [0], 0⟩, -- EXCEPTIONS R66
  ⟨0x8010, 0x8010, 1, 5, 5, 12, 0, 0, 32, 5, 8, [0], 0⟩, -- EXCEPTIONS_DROPPED R66
  ⟨0x8010, 0x8010, 1, 6, 6, 12, 0, 0, 32, 5, 8, [0], 0⟩, -- VECTOR_RESIDUE_ERRORS R66
  ⟨0x8010, 0x8010, 1, 7, 7, 12, 0, 0, 32, 5, 8, [0], 0⟩, -- STORAGE_CORRECTED R66
  ⟨0x8011, 0x8011, 1, 1, 1, 12, 0, 0, 32, 5, 8, [0], 0⟩, -- MX_INSTRUCTIONS R90
  ⟨0x8011, 0x8011, 1, 2, 2, 12, 0, 0, 32, 5, 8, [0], 0⟩, -- ARRAY_BUSY_CYCLES R90
  ⟨0x8011, 0x8011, 1, 3, 3, 12, 0, 0, 32, 5, 8, [0], 0⟩, -- OPERAND_STALL_CYCLES R90
  ⟨0x8011, 0x8011, 1, 4, 4, 12, 0, 0, 32, 5, 8, [0], 0⟩, -- RAMP_HELD_CYCLES R90
  ⟨0x8011, 0x8011, 1, 5, 5, 12, 0, 0, 32, 5, 8, [0], 0⟩, -- ARRAY_RESIDUE_ERRORS R90
  ⟨0x8011, 0x8011, 1, 6, 6, 12, 0, 0, 32, 5, 8, [0], 0⟩, -- ACC_BANK_SAVES R90
  ⟨0x8012, 0x8012, 1, 1, 1, 12, 0, 0, 32, 5, 8, [0], 0⟩, -- SATURATION_EVENTS R112
  ⟨0x8012, 0x8012, 1, 2, 2, 12, 0, 0, 32, 5, 8, [0], 0⟩, -- UNDERFLOW_EVENTS R112
  ⟨0x8012, 0x8012, 1, 3, 3, 12, 0, 0, 32, 5, 8, [0], 0⟩, -- ESCALATIONS R112
  ⟨0x8012, 0x8012, 1, 4, 4, 12, 0, 0, 32, 5, 8, [0], 0⟩, -- ESCALATED_KSTEPS R112
  ⟨0x8012, 0x8012, 1, 5, 5, 12, 0, 0, 32, 5, 8, [0], 0⟩, -- CONVERSION_SATURATIONS R112
  ⟨0x8012, 0x8012, 1, 6, 6, 12, 0, 0, 32, 5, 8, [0], 0⟩, -- CONVERSION_UNDERFLOWS R112
  ⟨0x8012, 0x8012, 1, 7, 7, 12, 0, 0, 32, 5, 8, [0], 0⟩, -- NONFINITE_RESULTS R112
  ⟨0x8012, 0x8012, 1, 8, 8, 12, 0, 0, 32, 5, 8, [0], 0⟩ -- WATCH_SATURATION_EVENTS R112
  ]

/-- Entries 0x8012 to 0x8019. -/
def entries4 : List EntryInfo := [
  ⟨0x8012, 0x8012, 1, 9, 9, 12, 0, 0, 32, 5, 8, [0], 0⟩, -- WATCH_UNDERFLOW_EVENTS R112
  ⟨0x8012, 0x8012, 1, 10, 10, 12, 0, 0, 32, 5, 8, [0], 0⟩, -- WATCH_ESCALATIONS R112
  ⟨0x8013, 0x8013, 1, 1, 1, 12, 0, 0, 32, 5, 8, [0], 0⟩, -- PV_LOOKUPS R138
  ⟨0x8013, 0x8013, 1, 2, 2, 12, 0, 0, 32, 5, 8, [0], 0⟩, -- PV_HITS R138
  ⟨0x8013, 0x8013, 1, 3, 3, 12, 0, 0, 32, 5, 8, [0], 0⟩, -- PV_INSERTS R138
  ⟨0x8013, 0x8013, 1, 4, 4, 12, 0, 0, 32, 5, 8, [0], 0⟩, -- PV_EVICTIONS R138
  ⟨0x8013, 0x8013, 1, 5, 5, 12, 0, 0, 32, 5, 8, [0], 0⟩, -- PV_VERIFY_RUNS R138
  ⟨0x8013, 0x8013, 1, 6, 6, 12, 0, 0, 32, 5, 8, [0], 0⟩, -- PV_MISMATCHES R138
  ⟨0x8014, 0x8014, 1, 1, 1, 12, 0, 0, 32, 5, 8, [0], 0⟩, -- HBM_READ_BURSTS R164
  ⟨0x8014, 0x8014, 1, 2, 2, 12, 0, 0, 32, 5, 8, [0], 0⟩, -- HBM_WRITE_BURSTS R164
  ⟨0x8014, 0x8014, 1, 3, 3, 12, 0, 0, 32, 5, 8, [0], 0⟩, -- HBM_RMW_BURSTS R164
  ⟨0x8014, 0x8014, 1, 4, 4, 12, 0, 0, 32, 5, 8, [0], 0⟩, -- HBM_ROW_ACTIVATES R164
  ⟨0x8014, 0x8014, 1, 5, 5, 12, 0, 0, 32, 5, 8, [0], 0⟩, -- HBM_CORRECTED R164
  ⟨0x8014, 0x8014, 1, 6, 6, 12, 0, 0, 32, 5, 8, [0], 0⟩, -- HBM_UNCORRECTED R164
  ⟨0x8014, 0x8014, 1, 7, 7, 12, 0, 0, 32, 5, 8, [0], 0⟩, -- HBM_ONDIE_CORRECTED R164
  ⟨0x8015, 0x8015, 1, 1, 1, 12, 0, 0, 32, 5, 8, [0], 0⟩, -- GALLERY_LOOKUPS R194
  ⟨0x8015, 0x8015, 1, 2, 2, 12, 0, 0, 32, 5, 8, [0], 0⟩, -- GALLERY_HITS R194
  ⟨0x8015, 0x8015, 1, 3, 3, 12, 0, 0, 32, 5, 8, [0], 0⟩, -- UNPINNED_LOOKUPS R194
  ⟨0x8015, 0x8015, 1, 4, 4, 12, 0, 0, 32, 5, 8, [0], 0⟩, -- UNPINNED_HITS R194
  ⟨0x8015, 0x8015, 1, 5, 5, 12, 0, 0, 32, 5, 8, [0], 0⟩, -- STREAM_BYPASSES R194
  ⟨0x8015, 0x8015, 1, 6, 6, 12, 0, 0, 32, 5, 8, [0], 0⟩, -- NOALLOC_SERVICES R194
  ⟨0x8015, 0x8015, 1, 7, 7, 12, 0, 0, 32, 5, 8, [0], 0⟩, -- REDUCTIONS R194
  ⟨0x8015, 0x8015, 1, 8, 8, 12, 0, 0, 32, 5, 8, [0], 0⟩, -- REDUCTION_FALLBACKS R194
  ⟨0x8015, 0x8015, 1, 9, 9, 12, 0, 0, 32, 5, 8, [0], 0⟩, -- EVICTIONS_DEFERRED R194
  ⟨0x8015, 0x8015, 1, 10, 10, 12, 0, 0, 32, 5, 8, [0], 0⟩, -- PIN_REFUSALS R194
  ⟨0x8015, 0x8015, 1, 11, 11, 12, 0, 0, 32, 5, 8, [0], 0⟩, -- THRASH_EVENTS R194
  ⟨0x8015, 0x8015, 1, 12, 12, 12, 0, 0, 32, 5, 8, [0], 0⟩, -- INVALIDATIONS R194
  ⟨0x8015, 0x8015, 1, 13, 13, 12, 0, 0, 32, 5, 8, [0], 0⟩, -- BACK_INVALIDATES R194
  ⟨0x8015, 0x8015, 1, 14, 14, 12, 0, 0, 32, 5, 8, [0], 0⟩, -- GALLERY_CORRECTED R194
  ⟨0x8015, 0x8015, 1, 15, 15, 12, 0, 0, 32, 5, 8, [0], 0⟩, -- GALLERY_UNCORRECTED R194
  ⟨0x8016, 0x8016, 1, 1, 1, 12, 0, 0, 32, 5, 8, [0], 0⟩, -- REG_HELD_CYCLES R236
  ⟨0x8016, 0x8016, 1, 2, 2, 12, 0, 0, 32, 5, 8, [0], 0⟩, -- REG_GUARANTEE_MISSES R236
  ⟨0x8016, 0x8016, 1, 3, 3, 12, 0, 0, 32, 5, 8, [0], 0⟩, -- MEDIA_LATE_TRANSFERS R236
  ⟨0x8016, 0x8016, 1, 4, 4, 12, 0, 0, 32, 5, 8, [0], 0⟩, -- SEAM_REPLAYS R236
  ⟨0x8017, 0x8017, 1, 1, 1, 12, 0, 0, 144, 5, 8, [0], 0⟩, -- DIE_LINK_REPLAYS R236
  ⟨0x8017, 0x8017, 1, 2, 2, 12, 0, 0, 144, 5, 8, [0], 0⟩, -- DIE_LINK_RETRAINS R236
  ⟨0x8017, 0x8017, 1, 3, 3, 12, 0, 0, 144, 5, 8, [0], 0⟩, -- DIE_LINK_FLITS R236
  ⟨0x8018, 0x8018, 1, 1, 1, 12, 0, 0, 32, 5, 8, [0], 0⟩, -- REMOTE_OPS R258
  ⟨0x8018, 0x8018, 1, 2, 2, 12, 0, 0, 32, 5, 8, [0], 0⟩, -- REMOTE_RETRANSMITS R258
  ⟨0x8018, 0x8018, 1, 3, 3, 12, 0, 0, 32, 5, 8, [0], 0⟩, -- REMOTE_DUPLICATES R258
  ⟨0x8018, 0x8018, 1, 4, 4, 12, 0, 0, 32, 5, 8, [0], 0⟩, -- EPOCH_REFUSED R258
  ⟨0x8018, 0x8018, 1, 5, 5, 12, 0, 0, 32, 5, 8, [0], 0⟩, -- TRANSIT_FRAMES R258
  ⟨0x8018, 0x8018, 1, 6, 6, 12, 0, 0, 32, 5, 8, [0], 0⟩, -- E2E_CRC_ERRORS R258
  ⟨0x8018, 0x8018, 1, 7, 7, 12, 0, 0, 32, 5, 8, [0], 0⟩, -- TRANSIT_DISCARDS R258
  ⟨0x8019, 0x8019, 1, 1, 1, 12, 0, 0, 96, 5, 8, [0], 0⟩, -- FEC_CORRECTED_SYMBOLS R258
  ⟨0x8019, 0x8019, 1, 2, 2, 12, 0, 0, 96, 5, 8, [0], 0⟩, -- FRAME_REPLAYS R258
  ⟨0x8019, 0x8019, 1, 3, 3, 12, 0, 0, 96, 5, 8, [0], 0⟩, -- LINK_RETRAINS R258
  ⟨0x8019, 0x8019, 1, 4, 4, 12, 0, 0, 96, 5, 8, [0], 0⟩ -- LINK_QUARANTINES R258
  ]

/-- Entries 0x8019 to 0xB010. -/
def entries5 : List EntryInfo := [
  ⟨0x8019, 0x8019, 1, 5, 5, 12, 0, 0, 96, 5, 8, [0], 0⟩, -- CREDIT_STALL_CYCLES R258
  ⟨0x801A, 0x801A, 1, 1, 1, 12, 0, 0, 32, 5, 8, [0], 0⟩, -- STEPS_COMPLETED R296
  ⟨0x801A, 0x801A, 1, 2, 2, 12, 0, 0, 32, 5, 8, [0], 0⟩, -- STEPS_PREEMPTED R296
  ⟨0x801A, 0x801A, 1, 3, 3, 12, 0, 0, 32, 5, 8, [0], 0⟩, -- SWITCH_CYCLES R296
  ⟨0x801A, 0x801A, 1, 4, 4, 12, 0, 0, 32, 5, 8, [0], 0⟩, -- DESCRIPTORS_DUPLICATE R296
  ⟨0x801A, 0x801A, 1, 5, 5, 12, 0, 0, 32, 5, 8, [0], 0⟩, -- DOORBELLS_IGNORED R296
  ⟨0x801A, 0x801A, 1, 6, 6, 12, 0, 0, 32, 5, 8, [0], 0⟩, -- DOORBELLS_REJECTED R296
  ⟨0x801A, 0x801A, 1, 7, 7, 12, 0, 0, 32, 5, 8, [0], 0⟩, -- EVENTS_DROPPED R296
  ⟨0x801A, 0x801A, 1, 8, 8, 12, 0, 0, 32, 5, 8, [0], 0⟩, -- MEDIA_REQUESTS R296
  ⟨0x801A, 0x801A, 1, 9, 9, 12, 0, 0, 32, 5, 8, [0], 0⟩, -- MEDIA_DEADLINE_MISSES R296
  ⟨0x801A, 0x801A, 1, 10, 10, 12, 0, 0, 32, 5, 8, [0], 0⟩, -- PREVIEWS_DROPPED R296
  ⟨0x8100, 0x8100, 1, 1, 1, 2, 2, 0, 1, 2, 1, [0], 0⟩, -- STOP_COMMAND R425
  ⟨0x8100, 0x8100, 1, 2, 2, 2, 0, 0, 1, 2, 1, [0], 0⟩, -- STOP_STATE R425
  ⟨0x8100, 0x8100, 1, 3, 3, 4, 0, 0, 1, 4, 4, [0], 0⟩, -- STOP_SEQ R425
  ⟨0x8100, 0x8100, 1, 4, 4, 12, 0, 0, 8, 5, 8, [0], 0⟩, -- STOP_DIE_CYCLE R425
  ⟨0x8100, 0x8100, 1, 5, 5, 1, 4, 0, 1, 1, 1, [0], 2⟩, -- STOP_LAND_ENABLE R425
  ⟨0x8101, 0x8101, 1, 1, 1, 11, 2, 0, 1, 11, 24, [0], 0⟩, -- SCANOUT_COMMAND R425
  ⟨0x8101, 0x8101, 1, 2, 2, 2, 0, 0, 1, 2, 1, [0], 0⟩, -- SCANOUT_STATUS R425
  ⟨0x8101, 0x8101, 1, 3, 3, 5, 0, 0, 1, 5, 8, [0], 0⟩, -- SCANOUT_BYTES R425
  ⟨0x8102, 0x8102, 1, 1, 1, 1, 2, 0, 1, 1, 1, [0], 0⟩, -- MARKER_COMMAND R425
  ⟨0x8102, 0x8102, 1, 2, 2, 4, 1, 0, 1, 4, 4, [0], 0⟩, -- MARKER_INTERVAL R425
  ⟨0x8102, 0x8102, 1, 3, 3, 12, 0, 0, 64, 13, 68, [0], 0⟩, -- MARKER_LOG R425
  ⟨0x8110, 0x8110, 1, 1, 1, 12, 0, 0, 32, 13, 64, [0], 0⟩, -- PROFILE_COUNTS R425
  ⟨0x8110, 0x8110, 1, 2, 2, 12, 0, 0, 32, 13, 64, [0], 0⟩, -- PROFILE_LAST_STEP R425
  ⟨0x8110, 0x8110, 1, 3, 3, 12, 0, 0, 32, 5, 8, [0], 0⟩, -- STEP_ACTIVE_CYCLES R425
  ⟨0x8110, 0x8110, 1, 4, 4, 12, 0, 0, 32, 5, 8, [0], 0⟩, -- TRACE_DROPPED R425
  ⟨0x8110, 0x8110, 1, 5, 5, 12, 0, 0, 32, 5, 8, [0], 0⟩, -- WATCH_HITS R425
  ⟨0x8110, 0x8110, 1, 6, 6, 12, 0, 0, 32, 5, 8, [0], 0⟩, -- VITRINE_HALTS R425
  ⟨0x9000, 0x901F, 1, 1, 255, 12, 1, 2, 16, 2, 1, [0], 1⟩, -- CODEBOOK R96
  ⟨0x9020, 0x903F, 1, 1, 255, 6, 0, 2, 1, 6, 1, [0x80], 0⟩, -- CODEBOOK_MAX_EXP R96
  ⟨0x9040, 0x905F, 1, 1, 1, 12, 1, 2, 4096, 3, 2, [0], 1⟩, -- ESCALATION_THRESHOLDS R96
  ⟨0xA000, 0xA000, 1, 1, 1, 12, 4, 0, 3, 13, 3, [0x32002, 0x2A803, 0x26C04], 2⟩, -- VF_CURVE R346
  ⟨0xA100, 0xA100, 1, 1, 1, 12, 4, 0, 3, 13, 4, [0x640155, 0x32025F, 0x190469], 2⟩, -- REFRESH_CURVE R150
  ⟨0xA200, 0xA200, 1, 1, 1, 12, 4, 0, 16, 13, 5, [0, 0x400002710, 0xA00009C40, 0xE00013880, 0], 2⟩, -- TRIM_CURVE R346
  ⟨0xA300, 0xA300, 1, 1, 1, 3, 4, 0, 1, 3, 2, [0x20], 2⟩, -- RAMP_WAVE_CYCLES R87
  ⟨0xA300, 0xA300, 1, 2, 2, 3, 4, 0, 1, 3, 2, [0x40], 2⟩, -- RAMP_ADMISSIONS_PER_WAVE R87
  ⟨0xA300, 0xA300, 1, 3, 3, 2, 4, 0, 1, 2, 1, [8], 2⟩, -- RAMP_STAGES R87
  ⟨0xA300, 0xA300, 1, 4, 4, 3, 4, 0, 1, 3, 2, [0x80], 2⟩, -- RAMP_IDLE_CYCLES R87
  ⟨0xA300, 0xA300, 1, 5, 5, 2, 0, 0, 1, 2, 1, [0], 0⟩, -- RAMP_TABLE_STATE R87
  ⟨0xB000, 0xB000, 1, 1, 1, 12, 0, 0, 16, 2, 1, [0], 0⟩, -- MEDIA_STATE R322
  ⟨0xB000, 0xB000, 1, 2, 2, 12, 0, 0, 16, 5, 8, [0], 0⟩, -- MEDIA_SAMPLES R322
  ⟨0xB000, 0xB000, 1, 3, 3, 12, 0, 0, 16, 5, 8, [0], 0⟩, -- MEDIA_BUSY_CYCLES R322
  ⟨0xB000, 0xB000, 1, 4, 4, 12, 0, 0, 16, 5, 8, [0], 0⟩, -- MEDIA_LATE R322
  ⟨0xB010, 0xB010, 1, 1, 1, 12, 1, 0, 16, 2, 1, [0], 0⟩ -- MEDIA_ADMIN R295
  ]

/-- Every entry of the Catalogue. -/
def entries : List EntryInfo :=
  entries0 ++ entries1 ++ entries2 ++ entries3 ++ entries4 ++ entries5

/-- The entry at an index and subindex. -/
def entryAt (index sub : Nat) : Option EntryInfo :=
  entries.find? (fun e => e.lo ≤ index && index ≤ e.hi && (index - e.lo) % e.stride == 0 && e.subLo ≤ sub && sub ≤ e.subHi)

/-- The default of a row (R298). -/
def EntryInfo.rowDefault (e : EntryInfo) (r : Nat) : Nat := (e.dflt[r]?).getD (e.dflt.getLastD 0)

/-- The default at an index, subindex and row; 0 where no entry stands. -/
def entryDefault (index sub row : Nat) : Nat :=
  match entryAt index sub with
  | some e => e.rowDefault row
  | none => 0

/-- The key of a row in the value stores. -/
def ckey (index sub row : Nat) : Nat := (index * 256 + sub) * 65536 + row

/-- The Vitrine of a Vitrine-scope index (R11, R96). -/
def vitOfIndex (index : Nat) : Nat :=
  if index < 0x9000 then (index - 0x3000) / 16 else index % 32

end Sys2Proof.Machine
end

