-- ==== Sys2Proof/Machine/State.lean ====
section
/-! DEFINITION. The state of the block: plain data, one structure per unit of the spec, and State.reset. -/

namespace Sys2Proof.Machine

/-! ### Memory (R27, R37, R190) -/

/-- The byte stores of the machine: HBM windows and Gallery scratchpad by device address, cluster memory
at cluster x 2^24 + physical offset, core scratch at core x 2^19 + physical offset, host memory by host address, and the Atrium's staging memory of 128 MiB (R383). -/
inductive MemSp where
  | hbm | pad | clus | scr | host | stage
  deriving DecidableEq, Repr

/-- All bytes (canonical lists: addresses strictly rising, no zero byte listed) and the poisoned 64-byte
granules, by granule number, of HBM (R148) and of the scratchpad (R179). -/
structure Mems where
  hbm : List Host.Cell := []
  pad : List Host.Cell := []
  clus : List Host.Cell := []
  scr : List Host.Cell := []
  host : List Host.Cell := []
  stage : List Host.Cell := []
  poison : List Nat := []
  padPoison : List Nat := []
  deriving DecidableEq, Repr

/-- One change of memory; every command changes memory only through a list of these. -/
inductive MemOp where
  /-- Write one byte. -/
  | set (sp : MemSp) (addr : Nat) (b : Byte)
  /-- Write zeros over `len` bytes from `addr`. -/
  | zero (sp : MemSp) (addr len : Nat)
  /-- Set or clear a granule's poison; `inPad` chooses the scratchpad. -/
  | mark (inPad : Bool) (gran : Nat) (on : Bool)
  /-- Clear the poison of `n` granules from `gran`. -/
  | clean (inPad : Bool) (gran n : Nat)
  deriving DecidableEq, Repr

/-- The Registrar's MRAM (R385). -/
structure Mram where
  svnFloor : Nat := 0
  recordSeqFloor : Nat := 0
  keysRevoked : BitVec 4 := 0
  retire : KMap Nat := []
  keyDigests : List (BitVec 256) := [0, 0, 0, 0]
  checkOk : Bool := true
  deriving DecidableEq, Repr

/-- One change of the MRAM: R385 gives no other. -/
inductive MramOp where
  | raiseSvn (svn : Nat)
  | raiseRecord (seq : Nat)
  | revoke (key : BitVec 2)
  | retire (key n : Nat)
  deriving DecidableEq, Repr

/-! ### Threads (Cores, Clusters and Thread Groups) -/

/-- A launch record (R33, R271). -/
structure Launch where
  entry : Addr := 0
  args : Addr := 0
  blocks : Nat := 0
  g : Nat := 0
  r : Nat := 0
  s : Nat := 0
  c : Nat := 0
  step : Nat := 0
  v : VitId := 0
  deriving DecidableEq, Repr

/-- A WAIT that a thread is parked at (R49). -/
structure WaitRec where
  space : Space
  addr : Nat
  value : Word
  cond : Cond
  start : Nat
  limit : Nat
  tested : Nat
  deriving DecidableEq, Repr

/-- Why a thread is parked at a barrier or a WAIT (R52); threads parked at a JOIN stand in `REntry.arrived`. -/
inductive Park where
  | barG
  | barB (id : BitVec 4)
  | wait (w : WaitRec)
  deriving DecidableEq, Repr

/-- A parked thread: its reason, the instruction it parked at and the address it resumes at. -/
structure Parked where
  why : Park
  at' : Addr
  pc : Addr
  deriving DecidableEq, Repr

/-- One runnable path of a group: its next instruction and its threads. -/
structure RPath where
  pc : Addr
  mask : Mask
  deriving DecidableEq, Repr

/-- An entry of the reconvergence stack (R47): its JOIN, its mask and the threads that wait at the JOIN. -/
structure REntry where
  joinAt : Addr
  mask : Mask
  arrived : Mask
  deriving DecidableEq, Repr

/-- The fences of R201. -/
inductive FenceKind where
  | c | d | f
  deriving DecidableEq, Repr

/-- An incomplete fence of a group: its kind, its issue cycle, the operations issued before it and the MX.STOREs
that had completed before it with walker O writes still to perform, the remote instructions and range operations issued before it, and the
engine instructions whose walker reads are accesses of the group (R205). -/
structure FenceRec where
  kind : FenceKind
  at' : Nat
  ops : List Nat
  tiles : List Nat
  remote : List Nat
  ranges : List Nat
  reads : List Nat := []
  deriving DecidableEq, Repr

/-- A thread group (R36). `paths` holds the runnable paths, the running one first; a register r of lane l
stands at key 32 r + l, a predicate's mask at its number, a parked thread at its lane. -/
structure Group where
  paths : List RPath := []
  exited : Mask := 0
  stack : List REntry := []
  parked : KMap Parked := []
  regs : KMap Word := []
  preds : KMap Mask := []
  flags : BitVec 5 := 0
  stamp : Nat := 0
  gslot : BitVec 6 := 0
  active : Bool := false
  entered : Nat := 0
  idle : Nat := 0
  fence : Option FenceRec := none
  mxWait : Option Nat := none
  mxFrom : Nat := 0
  barG : Option Nat := none
  /-- Destination registers of loads, atomics and MX.RDACC not yet written, by register. -/
  busyRegs : List Byte := []
  deriving DecidableEq, Repr

/-- Whose access it is: the block by its launch and index, its slot and the group. -/
structure Owner where
  slot : Nat
  grp : Nat
  launchIx : Nat
  block : Nat
  seq : Word
  deriving DecidableEq, Repr

/-- Engine instructions (R70, R114). -/
inductive EOp where
  | opn (a : Bool)
  | ldacc (a : Bool) (fmt : Fmt)
  | mma (a : Bool) (ctrl : BitVec 64)
  | store (a : Bool) (sctrl : Word)
  | close (a : Bool)
  | arm (w : Walker)
  | mark (w : Walker)
  | rewind (w : Walker)
  | skip (w : Walker)
  | sign (kb : Nat)
  | pvInval (tag : Word)
  deriving DecidableEq, Repr

/-- A context as an instruction found it at issue (R115, R123): the descriptor, its arming number and the position. -/
structure CtxRef where
  desc : BitVec 1024 := 0
  arm : Nat := 0
  pos : Nat := 0
  deriving DecidableEq, Repr

/-- An issued engine instruction: its operation, block and group, PC, lanes and issue cycle, its contexts (A and B, or O in
`ra`), whether it takes part in Provenance and the WK.SIGN and signature it presents (R133). -/
structure EInstr where
  id : Nat
  op : EOp
  owner : Owner
  leader : VitId
  pc : Addr
  lanes : Mask
  at' : Nat
  ra : CtxRef := {}
  rb : CtxRef := {}
  takes : Bool := false
  known : Option Nat := none
  sig : Option (BitVec 64) := none
  deriving DecidableEq, Repr

/-- A signature register that holds or awaits a signature (R131, R133): its position and k-blocks, the WK.SIGN that fills it
and the signature once formed. -/
structure SigReg where
  pos : Nat
  kb : Nat
  sign : Nat
  val : Option (BitVec 64)
  deriving DecidableEq, Repr

/-- A walker context (R113, R114): the 128-byte descriptor, its arming number, the position and the mark as every issued
instruction leaves them, and the signature register. -/
structure WkCtx where
  desc : BitVec 1024 := 0
  arm : Nat := 0
  pos : Nat := 0
  mark : Nat := 0
  sig : Option SigReg := none
  deriving DecidableEq, Repr

/-- An accumulation bank (R68, R70): 4,096 FP32 values by row x 64 + column; `busy` while an instruction owns it. -/
structure Bank where
  isOpen : Bool := false
  vals : KMap Word := []
  deriving DecidableEq, Repr

/-- A block that is admitted or SWAPPED (R35). -/
structure Block where
  launch : Launch := {}
  launchIx : Nat := 0
  index : Nat := 0
  seq : Word := 0
  leader : VitId := 0
  groups : List Group := []
  /-- Physical scratch granules of 2 KiB and cluster granules of 64 KiB, in offset order (R38). -/
  scrGran : List Nat := []
  clusGran : List Nat := []
  admitted : Nat := 0
  blockedAt : Option Nat := none
  /-- First arrival of each incomplete block barrier (R51, R53). -/
  barB : KMap Nat := []
  bank0 : Bank := {}
  bank1 : Bank := {}
  ctxA : Option WkCtx := none
  ctxB : Option WkCtx := none
  ctxO : Option WkCtx := none
  /-- Engine instructions queued and not started when the block's step was saved (R279). -/
  queued : List EInstr := []
  /-- True while the block's swap is being restored (R55). -/
  restoring : Bool := false
  /-- Whether a swap admitted the block (R54). -/
  bySwap : Bool := false
  /-- The next number for an arming of a context or a WK.SIGN of the block (R115, R133). -/
  nextArm : Nat := 1
  deriving DecidableEq, Repr

/-- A SWAPPED block: the cluster it left and the saved bytes of its scratch and block region (R54, R55). -/
structure Swapped where
  cluster : ClusterId
  blk : Block
  scr : List (Nat × Byte)
  clus : List (Nat × Byte)
  deriving DecidableEq, Repr

/-- A Vitrine's block dispatcher (R34, R63, R278). -/
structure Disp where
  launches : List (Nat × Launch) := []
  cur : Option (Nat × Launch) := none
  next : Nat := 0
  rot : Nat := 0
  retired : Nat := 0
  stopped : Bool := false
  held : Bool := false
  swapped : List Swapped := []
  deriving DecidableEq, Repr

/-! ### Accesses of a core -/

/-- One lane's access of an M-class instruction: its address (a device address, or a physical offset of its
store), size in bytes, and for stores and atomics its operands. -/
structure LaneAcc where
  lane : Nat
  addr : Nat
  size : Nat
  val : Nat := 0
  cmp : Nat := 0
  /-- The element operation of an atomic or reduction. -/
  op : AtomOp := .add
  /-- Sent to the home and not yet performed. -/
  sent : Bool := false
  deriving DecidableEq, Repr

inductive OpKind where
  | load | store | atom (returns : Bool)
  deriving DecidableEq, Repr

/-- An M-class instruction in progress: the accesses not yet performed, and the values returned so far by lane. -/
structure OutOp where
  id : Nat
  owner : Owner
  kind : OpKind
  space : Space
  dst : Byte
  /-- Bytes per lane returned to registers dst, dst+1, ... -/
  size : Nat
  accs : List LaneAcc
  vals : KMap Nat
  poisoned : Bool
  pc : Addr
  deriving DecidableEq, Repr

/-- States of an L1 line (R182). -/
inductive L1St where
  | i | s | e | m | isD | imD | smD | xiA
  deriving DecidableEq, Repr

/-- An L1 line (R181, R182), held by line number in a set of 8. -/
structure L1Line where
  st : L1St
  data : Line
  poison : BitVec 2
  used : Nat
  deriving DecidableEq, Repr

/-- An exception record (R65). -/
structure ExcRec where
  addr : Addr
  space : BitVec 4
  lanes : Mask
  pc : Addr
  block : Word
  gslot : BitVec 6
  core : CoreId
  code : Byte
  seq : Word
  launch : BitVec 16
  detail : BitVec 16
  deriving DecidableEq, Repr

/-- A swap in progress on a core (R54, R55): when it began, T_swap and the slot of the block admitted. -/
structure SwapRec where
  start : Nat
  cycles : Nat
  slot : Nat
  deriving DecidableEq, Repr

/-! ### Matrix engine and walkers (R67-R90, R113-R138) -/

/-- Where a started MX.MMA stands: looking up Provenance, on the array, waiting to be compared (R136), waiting for its
escalated run (R81), or waiting to update its bank. -/
inductive RunPhase where
  | lookup | array | verify | rerun | update
  deriving DecidableEq, Repr

/-- A started MX.MMA (R77, R80, R81): its start, the cycle at which its next k-step may enter, the promotion intervals
checked, whether it is the escalated run and whether an interval exceeded the threshold; the promotion buffer, the last
interval's shadows and residue lanes, the rows and columns with a non-finite element (R107), the signature formed so far
with its word count (R131), a Provenance entry's values under verification (R136), and whether the lookup hit. `due` is the completion cycle when
nothing delays the bank update. -/
structure Run where
  ins : EInstr
  phase : RunPhase
  start : Nat
  next : Nat
  due : Nat := 0
  ival : Nat := 0
  /-- Core cycles of the present interval advanced, and the cycle up to which it has been followed, at earlier ramp stages (R86). -/
  adv : Nat := 0
  seen : Nat := 0
  esc : Bool := false
  hot : Bool := false
  promo : KMap Word := []
  shadow : List Int := []
  lane : List Nat := []
  nanRow : BitVec 64 := 0
  nanCol : BitVec 64 := 0
  sigAcc : BitVec 64 := 0
  sigWords : Nat := 0
  stored : Option (KMap Word) := none
  hit : Bool := false
  /-- The codebook table at the instruction's start (R78). -/
  codes : List Nat := []
  deriving DecidableEq, Repr

/-- Granule requests of a walker for k-blocks kb .. kb + n - 1 of an instruction (R124): those not yet issued and the
64-byte granules received, by space x 2^48 + address, and an address fault or poison met (R126). -/
structure FetchJob where
  id : Nat
  kb : Nat
  n : Nat
  todo : List (Nat × Nat)
  got : KMap (BitVec 512)
  bad : Option (Bool × Nat) := none
  deriving DecidableEq, Repr

/-- A 4 KiB operand segment (R67, R125): the k-blocks of an instruction it holds, the element codes by k-step x 64 + lane
(none for an element the border mode ZERO supplies or beyond the lanes), the scale bytes by k-block x 64 + lane. -/
structure Seg where
  id : Nat
  kb : Nat
  n : Nat
  elems : List (Option Nat)
  scales : List Nat
  at' : Nat
  deriving DecidableEq, Repr

/-- A walker of a core: the fetch in progress, the segments present and each instruction's next k-block to fetch. -/
structure WkUnit where
  job : Option FetchJob := none
  segs : List Seg := []
  pos : KMap Nat := []
  deriving DecidableEq, Repr

/-- A tile that MX.STORE has handed to walker O (R101, R127): its element codes by row x 64 + column, the scale bytes by
64 x half + row, the row maxima, and where its block's storage lies. `wrote` is set once the tile is performed and only
its flag remains; `fault` is an address that was not valid. -/
structure Tile where
  ins : EInstr
  codes : List Nat
  scales : List Nat
  stats : List Word
  scrGran : List Nat
  clusGran : List Nat
  wrote : Bool := false
  fault : Option Nat := none
  deriving DecidableEq, Repr

/-- A Provenance entry (R132): its key but for the signature, the signature and the values by row x 64 + column, its place in the store (R167), and whether a granule
of it is poisoned (R179). -/
structure PvEntry where
  key : List Nat
  sig : BitVec 64
  vals : KMap Word
  slot : Nat := 0
  bad : Bool := false
  deriving DecidableEq, Repr

/-- A core's matrix engine: the instruction queue, the started MX.MMAs, the transfer of walker O in progress and the cycle
it began, the WK.SIGN in progress, the tiles walker O has still to write, entries to be inserted, the codebook register
(R67), what MX.RDACC shows of the last MX.MMA (R85), and the ramp state of the array (R86, R89). -/
structure Engine where
  nextId : Nat := 0
  queue : List EInstr := []
  begun : Nat := 0
  runs : List Run := []
  free : Nat := 0
  xfer : Option (EInstr × Nat) := none
  moved : Nat := 0
  bankAt : KMap Nat := []
  /-- The cycle from which walker O's last transfer has left each bank (R71). -/
  released : KMap Nat := []
  sign : Option EInstr := none
  tiles : List Tile := []
  inserts : List PvEntry := []
  cb : List Nat := []
  wa : WkUnit := {}
  wb : WkUnit := {}
  wo : WkUnit := {}
  shadow : List Int := []
  lane : List Nat := []
  promo : KMap Word := []
  stage : Nat := 0
  ceil : Nat := 16
  limited : Option Nat := none
  stepped : Nat := 0
  admitted : Nat := 0
  deriving DecidableEq, Repr

/-- An issue slot taken in a cycle (R43): the group, the class of its instruction, and an upset its operand reads meet (R61). -/
structure Issued where
  slot : Nat
  grp : Nat
  cls : IClass
  upset : Upset := .none
  lane : Nat := 0
  deriving DecidableEq, Repr

/-- A core (R35-R45): resident blocks by slot, blocks of a squashed step whose issued engine instructions still complete (R63), L1 lines by line number,
accesses in progress, the group that issued in slot 0 last, the issue slots taken in the last cycle and not yet used, the cycle of the next
issue, the cycle from which each unit is free (R44, by class), the swap in progress and the first exception of the step. -/
structure Core where
  slots : KMap Block := []
  left : KMap Block := []
  l1 : KMap L1Line := []
  ops : List OutOp := []
  nextOp : Nat := 0
  slot0 : Option (Nat × Nat) := none
  issued : List Issued := []
  issueAt : Nat := 0
  busy : KMap Nat := []
  swap : Option SwapRec := none
  exc : Option ExcRec := none
  eng : Engine := {}
  tick : Nat := 0
  deriving DecidableEq, Repr

/-- A cluster: the step region's granules and declared bytes (R40). -/
structure Clus where
  stepGran : List Nat := []
  stepBytes : Option Nat := none
  deriving DecidableEq, Repr

/-! ### Gallery and coherence -/

/-- Messages of the coherence protocol and of the paths beside it (R184-R189), as the model records them in flight. -/
inductive MsgKind where
  | getS | getM | rdU | wrU | atomRed | putE | putM | invAck | rspData | rspNoData
  | dataS | dataE | dataU | dataM | grantM | noAlloc | inv | recallS | recallI | putAck
  | data | wrDone | atomDone | biSnpData | biSnpInv | hbmRead | hostData | rspIHitI
  deriving DecidableEq, Repr

/-- A message in flight: its kind, line number, the core it goes to or comes from (none for a cacheless port or
the host) and its data; the port it answers, the MetaValue of an answer to the host (R189), and the sequence number of its pair, its priority and whether
it waits at a slice's input (R184, R217, R218). -/
structure Msg where
  kind : MsgKind
  line : Nat
  core : Option CoreId := none
  data : Line := 0
  poison : BitVec 2 := 0
  mask : BitVec 128 := 0
  ops : List ElemOp := []
  port : Option MPort := none
  mvalue : Option Meta := none
  seq : BitVec 10 := 0
  high : Bool := false
  stalled : Bool := false
  deriving DecidableEq, Repr

/-- An arbitration point (R231): the Vitrine served last, and the grants of each port by Vitrine x 16,384 + class x 2,048 + port. -/
structure ArbPt where
  last : Nat := 31
  given : KMap Nat := []
  deriving DecidableEq, Repr

/-- The data network: the next sequence number of each pair by source x 65,536 + destination (R217), and the arbitration points (R231). -/
structure Mesh where
  seq : KMap Nat := []
  arb : KMap ArbPt := []
  deriving DecidableEq, Repr

/-- Directory states (R183). -/
inductive DirSt where
  | i | s | ol | oh | fill | sInv | oRs | oRi | hBi
  deriving DecidableEq, Repr

/-- The sharer record of R183: the host bit, up to four cores, or a mask of Vitrines. -/
structure Sharers where
  host : Bool := false
  cores : List CoreId := []
  vits : Option (BitVec 32) := none
  deriving DecidableEq, Repr

/-- What a request asks of the home: the rows of R186. -/
inductive HomeKind where
  | getS | getM | rdU
  | wrU (mask : BitVec 128) (data : Line) (hint : BitVec 2)
  | atom (ops : List ElemOp) (returns : Bool)
  | memRd (m : Meta)
  | memWr (mask : BitVec 128) (data : Line) (hint : BitVec 2)
  | evict (wb : Bool)
  | flush
  deriving DecidableEq, Repr

/-- A request at a home: its kind, its core (L1 requests) or port (others). -/
structure HomeReq where
  kind : HomeKind
  port : MPort
  deriving DecidableEq, Repr

/-- A line held by a slice: its way, directory entry, data and queue. `cur` is the request that entered the
transient state; `acks` the InvAcks and `bi` the BIRsp awaited; `held` is whether the GetM's requester was still
held exactly; `ops` counts its combined operations queued; `wr` marks bytes that stand against the host's answer awaited (R186). -/
structure GLine where
  way : Nat
  st : DirSt := .i
  dirty : Bool := false
  sh : Sharers := {}
  owner : Option CoreId := none
  pinned : Bool := false
  data : Line := 0
  poison : BitVec 2 := 0
  used : Int := 0
  queue : List HomeReq := []
  cur : Option HomeReq := none
  acks : Nat := 0
  bi : Bool := false
  ops : Nat := 0
  wr : BitVec 128 := 0
  deriving DecidableEq, Repr

/-- A combined operation queued at a slice's operation unit (R176): its line, the element operations left, the old
values so far, its core, whether it returns values, and whether it met poison and performs none (R356). -/
structure SliceOp where
  line : Nat
  todo : List ElemOp
  old : List (Nat × Nat)
  core : Option CoreId
  returns : Bool
  bad : Bool := false
  deriving DecidableEq, Repr

/-- A stream entry (R171). -/
structure StreamEnt where
  next : Nat
  advances : Nat
  moved : Nat
  live : Bool
  deriving DecidableEq, Repr

/-- A Gallery slice: lines by device line number, the operation queue, the stream entries by port, the scrub
position, and the way the spare stands for (R26). -/
structure Slice where
  lines : KMap GLine := []
  ops : List SliceOp := []
  streams : List (MPort × List StreamEnt) := []
  scrub : Nat := 0
  scrubAt : Nat := 0
  /-- Physical way replaced by the spare, and whether a second way has failed (R26, R367). -/
  spare : Option Nat := none
  /-- True from a resize's acceptance until this slice's change point (R169). -/
  changing : Bool := false
  /-- True from a change of PV_STORE_STEPS taking effect until this slice's change point (R169). -/
  pvChanging : Bool := false
  deriving DecidableEq, Repr

/-- A range operation in progress (R172): its range, the core and group or the ring and descriptor it belongs to, and whether its effects on the lines have begun. -/
structure RangeOp where
  id : Nat
  op : GcOp
  v : VitId
  base : Nat
  len : Nat
  core : Option CoreId
  owner : Option Owner
  ring : Option (Nat × Word)
  begun : Bool := false
  /-- A GC.PIN that was refused (R174). -/
  refused : Bool := false
  deriving DecidableEq, Repr

/-! ### Vitrines and serving -/

/-- Vitrine states (R261). -/
inductive VitSt where
  | unassigned | clearing | assigned | frozen | deaccessioning | withdrawn | outOfService
  deriving DecidableEq, Repr

/-- Ring states (R263). -/
inductive RingSt where
  | disabled | enabled | disabling
  deriving DecidableEq, Repr

/-- A descriptor fetched from a ring and not yet completed; each holds one CQ entry reserved (R266). `done` is its status
and DETAIL once decided. -/
structure Fetched where
  seq : Word
  raw : BitVec 512
  at' : Nat
  started : Bool := false
  done : Option (Nat × Nat) := none
  /-- Bytes performed at their destination (R209, R283). -/
  moved : Nat := 0
  /-- Media: source bytes consumed, and the order of its fetch (R284). -/
  srcPos : Nat := 0
  ord : Nat := 0
  /-- Media: frames done. -/
  frames : Nat := 0
  /-- Failures met, statuses of R270. -/
  ends : List Nat := []
  /-- Order of acceptance of the doorbell that covered it (R275). -/
  bell : Nat := 0
  deriving DecidableEq, Repr

/-- A ring (R263-R268): its configuration row, absolute indices and descriptors in progress. -/
structure Ring where
  cfg : BitVec 128 := 0
  st : RingSt := .disabled
  sqHead : Word := 0
  sqTail : Word := 0
  cqHead : Word := 0
  cqTail : Word := 0
  nextSeq : Word := 0
  /-- Accepted doorbells not yet wholly fetched: the tail each set and its order of acceptance (R275). -/
  bells : List (Word × Nat) := []
  /-- The tail at a disable, and whether it squashes (R289). -/
  offTail : Word := 0
  offSquash : Bool := false
  fetched : List Fetched := []
  deriving DecidableEq, Repr

/-- Endings that a step has met, by the statuses of R270 (R277). -/
abbrev Endings := List Nat

inductive StepSt where
  | running | saving | saved | restoring
  deriving DecidableEq, Repr

/-- A saved block: its core and slot, and the bytes of its scratch allocation and block region (R279). -/
structure SavedBlk where
  core : Nat
  slot : Nat
  blk : Block
  scr : List (Nat × Byte)
  clus : List (Nat × Byte)
  deriving DecidableEq, Repr

/-- A saved step region: its cluster, declared bytes and contents (R279). -/
structure SavedStep where
  cluster : Nat
  bytes : Nat
  data : List (Nat × Byte)
  deriving DecidableEq, Repr

/-- The saved context of one Vitrine of a step (R279): its dispatcher, blocks and step regions, S in bytes, the remote
operations outstanding at the save, T of R280, the codebooks and thresholds the step sees (R97) and the remote instructions of its blocks (R281). -/
structure SavedVit where
  v : VitId
  disp : Disp
  blocks : List SavedBlk
  steps : List SavedStep
  bytes : Nat
  remote : Nat
  cycles : Nat
  tables : KMap Nat := []
  ins : List Nat := []
  deriving DecidableEq, Repr

/-- A batch step that has started (R271-R281). -/
structure StepRec where
  leader : VitId
  ringVit : VitId
  ring : Nat
  seq : Word
  raw : BitVec 512
  mask : BitVec 32
  st : StepSt := .running
  /-- Core cycle of the leader's die at which it last began to run, and the step time before that (R277). -/
  since : Nat := 0
  used : Nat := 0
  limit : Nat := 0
  /-- Endings met, statuses of R270. -/
  ends : Endings := []
  /-- Exception records reported before the squash completed, by core (R65). -/
  recs : KMap ExcRec := []
  dropped : Nat := 0
  /-- Remote operations that never answered (R290). -/
  unanswered : Nat := 0
  saved : List SavedVit := []
  /-- Clocked core cycle of each Vitrine at which its part of the save or restore in progress ends (R280), and whether the step is asked to stop. -/
  dues : List (VitId × Nat) := []
  stopAsked : Bool := false
  /-- Set once the checkpoint copy of R287 has begun and is due. -/
  ckpt : Bool := false
  ckptDone : Bool := false
  deriving DecidableEq, Repr

/-- A media engine (R284, R289, R322). -/
structure Media where
  admin : Nat := 0
  cur : Option (VitId × Nat × Word) := none
  since : Nat := 0
  deriving DecidableEq, Repr

/-- A crate or freeze operation of a tenancy (R292). -/
structure CrateSt where
  freezing : Bool := false
  boundary : Bool := false
  deriving DecidableEq, Repr

/-- A row of TENANCY_CMD_STATUS (R295). -/
structure CmdStatus where
  command : Nat := 0
  status : Nat := 0
  needed : Nat := 0
  deriving DecidableEq, Repr

/-- Thrash gathering of a Vitrine (R175). -/
structure Thrash where
  lookups : Nat := 0
  hits : Nat := 0
  lastLookups : Nat := 0
  lastHits : Nat := 0
  raised : Bool := false
  at' : Nat := 0
  deriving DecidableEq, Repr

/-- A trace buffer (R420-R422): state as TRACE_STATE codes it, entries oldest first, WRITE_INDEX, entries still accepted
after the trigger, entries lost since the last accepted one, and the entries of the current core cycle. -/
structure Trace where
  st : Nat := 0
  buf : List (BitVec 128) := []
  wr : Nat := 0
  post : Nat := 0
  dropped : Nat := 0
  cyc : Nat := 0
  inCyc : Nat := 0
  deriving DecidableEq, Repr

/-- PACE state of a tenancy's leader and of a member Vitrine (R252, R341, R342). -/
structure PaceSt where
  seq : Word := 0
  sentAt : Option Nat := none
  unsent : Bool := false
  reason : Nat := 0
  /-- Latest notice held per sending device: sender, PACE_SEQ, CLOCK_FRACTION, reason. -/
  heldFrom : List (DevId × Word × Nat × Nat) := []
  deriving DecidableEq, Repr

/-- A Vitrine. -/
structure Vit where
  st : VitSt := .unassigned
  leader : Option VitId := none
  disp : Disp := {}
  excCount : Nat := 0
  padSteps : Nat := 0
  /-- A scratchpad resize in progress: the new size (R169). -/
  resize : Option Nat := none
  pvSteps : Nat := 0
  /-- A change of the Provenance store's size in progress: the new size (R130, R169). -/
  pvResize : Option Nat := none
  pvKey : Nat := 0
  pv : List PvEntry := []
  pvHits : Nat := 0
  /-- The power class applied since the last batch step began (R332). -/
  cls : Nat := 0
  duty0 : Nat := 64
  /-- The DUTY0 to which throttling alone holds the Vitrine, 64 when it does not (R334, R342). -/
  thr : Nat := 64
  pace : PaceSt := {}
  arrayMw : Nat := 0
  attrMw : Nat := 0
  halt : Nat := 0
  haltCause : Nat := 0
  trace : Trace := {}
  watch : KMap Nat := []
  tspLocked : Bool := false
  tspDigest : BitVec 256 := 0
  thrash : Thrash := {}
  pinned : Nat := 0
  ckptLocal : Word := 0xFFFFFFFF
  ckptCommitted : Word := 0xFFFFFFFF
  missAt : Nat := 0
  /-- The die's core cycle at which the applied duty last changed, and the clocked cycles counted by then (R326). -/
  dutyBase : Nat := 0
  clkBase : Nat := 0
  deriving DecidableEq, Repr

/-- Serving: rings by Vitrine x 2048 + ring, started steps, media engines, interrupts, commands. -/
structure Srv where
  rings : KMap Ring := []
  steps : List StepRec := []
  media : KMap Media := []
  intr : List (Nat × Nat) := []
  crate : KMap CrateSt := []
  cmd : KMap CmdStatus := []
  bells : Nat := 0
  ranges : List RangeOp := []
  nextRange : Nat := 0
  /-- Descriptors fetched since start, and the step contexts of the crates this device has written, by number (R294). -/
  fetchNo : Nat := 0
  crates : KMap (List StepRec) := []
  deriving DecidableEq, Repr

/-! ### Catalogue -/

/-- An event record (R316). -/
structure Event where
  code : Nat
  kind : Nat
  index : Nat
  entry : Nat := 0
  d0 : Nat := 0
  d1 : Nat := 0
  seq : Nat := 0
  cycle : Nat := 0
  deriving DecidableEq, Repr

/-- A Catalogue response PDU (R301): opcode, status, SEQ and payload. -/
structure Resp where
  port : CatPort
  opcode : Nat
  status : Nat
  seq : Word
  data : List Byte := []
  deriving DecidableEq, Repr

/-- An open TABLE transaction (R308). -/
structure Txn where
  entry : EntryRef
  rows : KMap Nat := []
  last : Nat
  deriving DecidableEq, Repr

/-- A port with requests of its own: a session, or a function's mailbox (R303-R305). -/
structure Requester where
  port : CatPort
  role : Role
  /-- Established and authenticated (R305); mailboxes always are. -/
  auth : Bool := true
  lastSeq : Option Word := none
  kept : Option Resp := none
  txn : Option Txn := none
  lastPdu : Nat := 0
  fails : Nat := 0
  deriving DecidableEq, Repr

/-- A reader of the event channel (R315): the next event wanted, the highest acknowledged, PDUs beyond it and the
reference cycle of the last one sent. -/
structure Reader where
  port : CatPort
  pos : Nat
  acked : Nat
  /-- The last EVENT_SEQ of each EVENT PDU sent beyond `acked`. -/
  inFlight : List Nat := []
  sentAt : Nat := 0
  deriving DecidableEq, Repr

/-- The Catalogue service. Values are keyed (index x 256 + subindex) x 65536 + row; `acc` holds accepted values and
`force` values in force where the entry defers them; an absent key reads the entry's default. -/
structure Cat where
  acc : KMap Nat := []
  force : KMap Nat := []
  /-- Provisioned values accepted since start and not yet in force (R311). -/
  pendingRwp : List Nat := []
  gen : Nat := 0
  published : Bool := false
  ready : Bool := false
  events : List Event := []
  evNext : Nat := 0
  readers : List Reader := []
  reqs : List Requester := []
  authFail : Nat := 0
  out : Option Resp := none
  /-- Writes that wait for the Curator's restart (R312): opcode, header, data and a crate's header. -/
  waiting : List (Nat × PduHead × List Byte × Option CrateInfo) := []
  /-- The records last sent, to which reader, and LAST of that EVENT PDU (R301, R315). -/
  evOut : List Event := []
  evTo : CatPort := .pf
  evLast : Bool := false
  nodeInUse : Nat := 0
  deriving DecidableEq, Repr

/-! ### Reliability -/

/-- An error record (R354). -/
structure ErrRec where
  seq : Nat := 0
  detail : Nat := 0
  addr : Nat := 0
  akind : Nat := 0
  cycle : Nat := 0
  stepSeq : Nat := 0
  layer : Nat := 0
  unit : Nat := 0
  ukind : Nat := 0
  cls : Nat := 0
  outcome : Nat := 0
  action : Nat := 0
  vit : Option VitId := none
  die : Nat := 0
  atrium : Bool := false
  syndrome : Nat := 0
  deriving DecidableEq, Repr

/-- A row of JOB_STATE (R375) and of its episode. -/
structure Job where
  st : Nat := 0
  rec' : Nat := 0
  cls : Nat := 0
  /-- A checkpoint of the tenancy has been declared lost (R361). -/
  lost : Bool := false
  deriving DecidableEq, Repr

/-- Physical slots of a cluster pair (R24): retired slots, the slot behind each logical core, faults per slot, and
the core whose name slot 16 holds during a test (R370). -/
structure Slots where
  retired : BitVec 17 := 0
  slotOf : List Nat := [0, 1, 2, 3, 4, 5, 6, 7, 8, 9, 10, 11, 12, 13, 14, 15]
  faults : KMap Nat := []
  testing : Option Nat := none
  deriving DecidableEq, Repr

/-- A laser group (R23, R368): the active laser the spare replaces, and the failed lasers. -/
structure Laser where
  spareFor : Option Nat := none
  failed : BitVec 9 := 0
  deriving DecidableEq, Repr

/-- A self-test run (R369). -/
structure Bist where
  running : Bool := false
  kind : Nat := 0
  target : Nat := 0
  nonce : BitVec 256 := 0
  start : Nat := 0
  deriving DecidableEq, Repr

/-- The Condition Report held (R372). -/
structure Report where
  seq : Nat := 0
  kind : Nat := 0
  target : Nat := 0
  result : Nat := 0
  nonce : BitVec 256 := 0
  duration : Nat := 0
  entries : List BistEntry := []
  recSeq : Nat := 0
  fw : Nat := 0
  signature : Nat := 0
  deriving DecidableEq, Repr

/-- Reliability: ERROR_LOG, episodes, fences, spares, tests and the pending Condition Record. -/
structure Rel where
  log : List ErrRec := []
  next : Nat := 0
  lost : Nat := 0
  read : Nat := 0
  heldRecs : List (Nat × List ErrRec) := []
  jobs : KMap Job := []
  dieFaults : KMap Nat := []
  fenced : KMap FenceCause := []
  rejoining : KMap Nat := []
  /-- Dies that stay fenced until the next start (R362). -/
  barred : KMap Bool := []
  /-- Dies whose clock has been declared lost (R327). -/
  clockLost : BitVec 8 := 0
  slots : KMap Slots := []
  lasers : KMap Laser := []
  bist : KMap Bist := []
  report : Report := {}
  changes : Nat := 0
  sealing : Option Nat := none
  sealedSeq : Nat := 0
  hours : Nat := 0
  scrub : KMap Nat := []
  /-- Dies and Vitrines out of service for this start, withdrawn Vitrines (R25, R161). -/
  diesOut : BitVec 8 := 0
  withdrawn : BitVec 32 := 0
  /-- Vitrines whose windows are unpopulated for this start (R21, R25, R161). -/
  noWindow : BitVec 32 := 0
  deriving DecidableEq, Repr

/-! ### Fabric (R237-R258, R398, R399) -/

/-- States of a fabric link, in the order of R242. -/
inductive LinkSt where
  | down | training | mgmt | quarantine | active
  deriving DecidableEq, Repr

/-- A fabric link (R237-R243, R398): its state, REASON (R257) and peer; the last frame accepted, the last sent, NAK asked of
the next frame, consecutive authentication failures and the cycle of the last accepted frame; credits held per class (data, transit, management); frames sent and not acknowledged, with their
operations, and operations that wait for credits, by class 0 data, 1 transit, 2 management; laser failures of its group, the cycle training may be retried (R398)
and the key generations of each direction (R399). -/
structure Link where
  st : LinkSt := .down
  reason : Nat := 0
  peer : DevId := 0xFFFF
  peerLink : Nat := 0xFF
  rxSeq : Word := 0xFFFFFFFF
  txSeq : Word := 0
  nak : Bool := false
  authFails : Nat := 0
  heard : Nat := 0
  creditData : Nat := 4096
  creditTransit : Nat := 1024
  creditMgmt : Nat := 256
  sent : List (Word × ROp) := []
  wait : List (Nat × ROp) := []
  /-- Operations of accepted frames that stand in the ingress buffers (R240). -/
  ingress : List ROp := []
  /-- Reference cycle of the first encrypted frame (R399). -/
  since : Nat := 0
  out : Bool := false
  refusedAt : Option Nat := none
  genTx : Nat := 0
  genRx : Nat := 0
  /-- Draining under LINK_ADMIN (R289). -/
  draining : Bool := false
  deriving DecidableEq, Repr

/-- A remote instruction of a group (R246) not yet complete: its kind by TYPE (R247), target, local range with the granules
of its block's storage, the earlier writes of the group and the tiles of its block it waits for, and whether it has been split into operations. -/
structure RIns where
  id : Nat
  core : CoreId
  owner : Owner
  pc : Addr
  lanes : Mask
  type : RType
  dest : DevId
  raddr : Nat
  space : Nat := 1
  laddr : Nat := 0
  len : Nat := 0
  scr : List Nat := []
  clus : List Nat := []
  aop : AtomOp := .add
  wide : Bool := false
  dst : Byte := 0
  val : Nat := 0
  cmp : Nat := 0
  waits : List Nat := []
  tiles : List Nat := []
  split : Bool := false
  deriving DecidableEq, Repr

/-- What an outstanding operation belongs to: a remote instruction, a DMA descriptor, or a checkpoint stream (R246, R254). -/
inductive RSrc where
  | ins (id : Nat)
  | dma (ring : Nat) (seq : Word)
  | ckpt
  deriving DecidableEq, Repr

/-- An operation outstanding at its source (R248): as last sent, the link it was sent on, the cycles of its first and last
send (none before the first), where GET data goes, whether that data and the ACK have arrived, and the time its timeout was
suspended (R241). -/
structure RemOp where
  src : RSrc
  v : VitId
  op : ROp
  link : Option Nat := none
  first : Option Nat := none
  sentAt : Nat := 0
  space : Nat := 1
  loc : Nat := 0
  got : Bool := false
  acked : Bool := false
  /-- Of a squashed step: neither retried nor recalled (R290). -/
  dead : Bool := false
  susp : Nat := 0
  deriving DecidableEq, Repr

/-- The recorded result of a performed tag (R248): its status, the old value and GET data. -/
structure RRes where
  tag : Word
  status : Nat
  old : BitVec 64
  data : List Byte
  deriving DecidableEq, Repr

/-- A source entry of a target (R248). -/
structure SrcEnt where
  epoch : Word
  next : Word := 0
  results : List RRes := []
  held : List ROp := []
  used : Nat := 0
  deriving DecidableEq, Repr

/-- Fabric: links; remote instructions and outstanding operations in issue order; per source Vitrine and destination (Vitrine
x 65,536 + device) the epoch and next tag; source entries by device x 32 + Vitrine; operations to this device itself; transit
operations held, with their ingress link and arrival; ALIAS rows; PENDANT_STATE. -/
structure Fab where
  links : KMap Link := []
  ins : List RIns := []
  nextIns : Nat := 0
  ops : List RemOp := []
  tags : KMap (Word × Nat) := []
  srcs : KMap SrcEnt := []
  loop : List ROp := []
  transit : List (Nat × ROp × Nat) := []
  aliases : List (Word × DevId × DevId) := []
  pendant : Nat := 0
  /-- Reference cycle of the last frame with STOPPED = 1, by device (R241). -/
  halted : KMap Nat := []
  deriving DecidableEq, Repr

/-! ### HBM controllers (R139-R164) -/

/-- A queued burst request (R143): its channel-local address, priority the HBM-controller cycle of
its acceptance, and for a read the burst as the requests accepted before it leave it. -/
structure HReq where
  a : Nat
  high : Bool
  at' : Nat
  data : BitVec 512 := 0
  poison : Bool := false
  deriving DecidableEq, Repr

/-- A pseudo-channel: its queues, the reads sent to the stack, whether writes drain, open rows by bank, the refreshes due, postponed and the bank next in
rotation, the calibration window, the bursts delivered and not yet taken (data and poison, by burst); the spare of each retired row and the pool row of each offlined row by bank x 16,384 + row,
spares used per bank, the redirected banks with the places of their rows (R159, R160), corrected-error counts per row and bursts rewritten after a correction
in the scrub pass (R158). -/
structure HPc where
  reads : List HReq := []
  writes : List HReq := []
  flight : List HReq := []
  drain : Bool := false
  rows : KMap Nat := []
  refAt : Nat := 0
  postponed : Nat := 0
  rotate : Nat := 0
  busy : KMap Nat := []
  calAt : Nat := 0
  calEnd : Nat := 0
  ret : KMap (BitVec 512 × Bool) := []
  remap : KMap Nat := []
  pool : KMap Nat := []
  spares : KMap Nat := []
  redirected : KMap (List Nat) := []
  ce : KMap Nat := []
  fixed : List Nat := []
  deriving DecidableEq, Repr

/-- A row to be retired: pseudo-channel, bank, row and whether an uncorrectable error in an assigned window causes it, with
the tenancy whose job it ended (R158, R159). -/
structure HRow where
  pc : Nat
  bank : Nat
  row : Nat
  unc : Bool
  deriving DecidableEq, Repr

/-- A channel: the next burst of the patrol scrub and the cycle it is due, and rows that await retirement. -/
structure HChan where
  scrub : Nat := 0
  scrubAt : Nat := 0
  due : List HRow := []
  deriving DecidableEq, Repr

/-- A stack (R150, R151): its latest temperature, refresh band, recent readings, and the next reading. -/
structure HStack where
  temp : Int := 0
  band : Nat := 0
  /-- The last four readings, latest first (R151). -/
  last : List (Option Int) := []
  readAt : Nat := 0
  deriving DecidableEq, Repr

/-- The memory system: pseudo-channels by channel x 2 + PC, channels, stacks, RETIREMENTS_SINCE_START, the on-die count
schedule per die, the Vitrines that repair has given up (R160) and failed channels (R161). -/
structure Hbm where
  pcs : KMap HPc := []
  chans : KMap HChan := []
  stk : KMap HStack := []
  retired : List Nat := []
  ondieAt : KMap Nat := []
  giveUp : BitVec 32 := 0
  failed : KMap Bool := []
  /-- ROWS_RETIRED, ROWS_OFFLINED and BANKS_REDIRECTED per stack, at stack, 100 + stack and 200 + stack. -/
  tally : KMap Nat := []
  deriving DecidableEq, Repr

/-! ### On-package networks (R215-R236) -/

/-- A seam direction (R219): the lane its spare replaces, the failed lanes and the end of its pause; the lanes left out since the start, the
flits each lane has carried up to its last replay, and which of the last 1,024 were replayed. -/
structure Seam where
  spareFor : Option Nat := none
  failed : BitVec 27 := 0
  pauseEnd : Nat := 0
  dropped : BitVec 27 := 0
  flits : KMap Nat := []
  replays : KMap (List Nat) := []
  deriving DecidableEq, Repr

/-- A bundle direction (R220-R224): STATE as BUNDLE_STATE codes it, failed physical lanes, the last intact frame, whether NAK
goes in the next check word, the successive failures, the frames seen with the recent parity errors by lane, the core cycle
of the last intact frame, when a retrain began, and whether its peer is lost. -/
structure Bund where
  st : Nat := 0
  failed : BitVec 68 := 0
  rxSeq : BitVec 16 := 0xFFFF
  nak : Bool := false
  fails : Nat := 0
  frames : Nat := 0
  errs : KMap (List Nat) := []
  heard : Nat := 0
  began : Nat := 0
  lost : Bool := false
  /-- A retrain is called for: a failed lane, an eighth failure or a laser substitution (R223). -/
  want : Bool := false
  marked : Bool := false
  captured : List DlFrame := []
  /-- The sender (R221, R223): the last FRAME_SEQ it has filled, its replay buffer of 64 unacknowledged frames, the frame its replay
  has come to, frames that wait to be filled again, and whether it has stopped (R224). -/
  txSeq : BitVec 16 := 0xFFFF
  sent : List DlFrame := []
  replay : Option (BitVec 16) := none
  backlog : List DlFrame := []
  quiet : Bool := false
  /-- Credits by VC (R216, R220): flits sent whose credit has not come back, and flits freed since the last check word. -/
  lent : KMap Nat := []
  owed : KMap Nat := []
  deriving DecidableEq, Repr

/-- The tokens of a Vitrine (R228, R229): held by port, and the requests held at ports, oldest first, with their cycle. -/
structure Reg where
  out : List (MPort × Nat) := []
  held : List (MPort × Nat) := []
  deriving DecidableEq, Repr

/-- The networks: seams, bundle directions, control messages not yet delivered, the last delivered to each agent, and regulation. -/
structure Net where
  seams : KMap Seam := []
  bunds : KMap Bund := []
  ctl : List CtlMsg := []
  got : List CtlMsg := []
  regs : KMap Reg := []
  deriving DecidableEq, Repr

/-! ### Host port (R429-R436) -/

/-- A host request held during a stop (R434). -/
structure HostReq where
  addr : Nat
  kind : HomeKind
  inStream : Bool
  deriving DecidableEq, Repr

/-- An HDM decoder (R432). -/
structure Hdm where
  base : Nat := 0
  size : Nat := 0
  committed : Bool := false
  error : Bool := false
  deriving DecidableEq, Repr

/-- The host port: the Haldix DVSEC (R430), HDM decoders, requests held in a stop, and virtual functions enabled. -/
structure HostP where
  refused : Nat := 0
  hint : BitVec 64 := 0
  hdm : KMap Hdm := []
  held : List HostReq := []
  vfEnabled : Bool := true
  /-- Virtual functions whose MSI-X and command registers stand reset, by Vitrine (R445). -/
  vfOff : BitVec 32 := 0
  /-- The lands PERST_N, PWR_OK and FATAL_N (R439), each true at the level its name asserts, and the PLCA straps. -/
  perst : Bool := true
  pwrOk : Bool := true
  fatal : Bool := false
  straps : Byte := 0
  /-- PLINTH_12V in mV as last read. -/
  vin : Nat := 12000
  /-- The last output of the physical function's mailbox commands of R383. -/
  mbox : List Byte := []
  /-- In-band interrupts signalled on the I3C port for MCTP messages (R450). -/
  ibi : Nat := 0
  /-- The PLDM sensors' readings as of their last update, by sensor ID, and the reference cycle of the update (R452). -/
  sensors : KMap Int := []
  sensorsAt : Nat := 0
  deriving DecidableEq, Repr

/-! ### The machine -/

/-- A die's clocks: root cycles, core cycles and the remainder of root cycles towards the next core cycle (R323). -/
structure DieClk where
  running : Bool := false
  root : Nat := 0
  core : Nat := 0
  rem : Nat := 0
  /-- Root cycles per core cycle: 2, 3 or 4 by P-state (R324). -/
  div : Nat := 4
  /-- The ramp limiter's next wave boundary not yet served, in waves (R86). -/
  wave : Nat := 0
  deriving DecidableEq, Repr

/-- A firmware processor (R378, R380, R405): 0 running, 1 restarting, 2 stopped; restarts since start. -/
structure Proc where
  st : Nat := 2
  restarts : Nat := 0
  deriving DecidableEq, Repr

/-- The admin ring of R387: the next SEQ, the CQ index and the last 64 completion entries. -/
structure AdminRing where
  seq : Nat := 0
  cqTail : Nat := 0
  cq : List (BitVec 128) := []
  deriving DecidableEq, Repr

/-- Firmware and the Registrar: START_STATUS (R383), the start-up step under way (0 until the input recovers after a power-fail reset, 1 until PERST_N rises, then 2, 3, 4, 5, 7, 8, 9, 10,
and 11 once published), the lengths of LOAD_END, the bundle and record in force (R405), the sequence of the record last sealed
(R386), the bundle staged for activation and FW_ACTIVATION_STATE with the dies whose Docent has still to restart
(R388), the module's error state and the last SPDM answer: its port, its kind and the measurements it carries (R396). -/
structure Fw where
  proc : KMap Proc := []
  start : Nat := 0
  reason : Nat := 0
  step : Nat := 1
  bundleLen : Nat := 0
  recordLen : Nat := 0
  version : Nat := 0
  svn : Nat := 0
  driverIf : Nat := 0
  registrarVersion : Nat := 0
  registrarDigest : BitVec 256 := 0
  recSeq : Nat := 0
  lastSealed : Nat := 0
  staged : Option BundleInfo := none
  act : Nat := 0
  actTag : Nat := 0
  actSeq : Nat := 0
  docents : BitVec 8 := 0
  /-- Of an activation: the dies whose Conservator, and whether the Curator, has still to restart (R388). -/
  consLeft : BitVec 8 := 0
  curLeft : Bool := false
  error : Bool := false
  approved : Bool := false
  admin : AdminRing := {}
  spdmOut : Option (SpdmPort × Nat × List (Nat × BitVec 256)) := none
  deriving DecidableEq, Repr

/-! ### Power (R323-R345) -/

/-- Power control of a die: P_STATE, the raise under way with the reference cycle it began (R325), the intervals for which P1 and P2
have sufficed (R335), TRIM_STEPS and TRIM_HISTORY (R344), the cap and external power last received (R329), its array power, highest
temperature and the core cycle of the last interval; HARD, its causes (0 die temperature, 1-3 its stacks, 4 input, 5 regulator),
each with the reference cycle since which it is clear, the trip with its cause, the hold of R345 and the last DIE_REPORT. -/
structure DiePow where
  p : Nat := 2
  goal : Option Nat := none
  since : Nat := 0
  low1 : Nat := 0
  low2 : Nat := 0
  trim : Nat := 0
  hist : List (Nat × Nat) := []
  capMw : Nat := 337500
  extMw : Nat := 0
  arrayMw : Nat := 0
  temp : Int := 0
  at' : Nat := 0
  hard : Bool := false
  causes : KMap (Option Nat) := []
  trip : Option Nat := none
  worn : Bool := false
  marginAt : Nat := 0
  due : Bool := false
  report : Option (Nat × Int × Nat × List Nat) := none
  deriving DecidableEq, Repr

/-- Power of the device: the dies, PROFILE_IN_FORCE, the external power of each die and of the Atrium as last read, the regulator
alert of the Atrium's segment, the cycle since which EMERGENCY_STATE has been 0, and the cycle of the last budget. -/
structure Power where
  dies : KMap DiePow := []
  profile : Nat := 2800
  ext : List Nat := []
  atriumMw : Nat := 0
  deviceMw : Nat := 0
  atriumAlert : Bool := false
  calmAt : Nat := 0
  budgetAt : Nat := 0
  deriving DecidableEq, Repr

/-! ### Stop, scan-out and markers (R408-R423) -/

/-- A scan-out in progress: the tenancy (none for the device), its sections, dies and buffer. -/
structure ScanRec where
  leader : Option VitId
  sections : BitVec 16
  dies : Byte
  buf : HostBuf
  deriving DecidableEq, Repr

/-- Debug: STOP_STATE, STOP_SEQ and STOP_CAUSE, the dies halted, DIES_CAPTURED, STOP_DIE_CYCLE, the scan-out, the next marker, the markers
sent and not arrived by die, MARKER_LOG and the cycle of the last marker. -/
structure Dbg where
  st : Nat := 0
  seq : Nat := 0
  cause : Nat := 0
  halted : BitVec 8 := 0
  captured : BitVec 8 := 0
  cycle : KMap Nat := []
  scan : Option ScanRec := none
  status : Nat := 0
  bytes : Nat := 0
  marker : Nat := 0
  toMark : KMap (List Nat) := []
  log : List (Nat × KMap Nat) := []
  markedAt : Nat := 0
  /-- Dies fenced during the stop, whose episodes proceed on resume: die, record and class (R411). -/
  fences : List (Nat × Nat × Nat) := []
  deriving DecidableEq, Repr

/-- All of the machine but its bytes, its MRAM and its queue. -/
structure Dev where
  /-- Reference cycles since reset (R8). -/
  ref : Nat := 0
  clk : KMap DieClk := []
  cat : Cat := {}
  /-- Counter rows by entry and row (R66 and the other counter rules). -/
  cnt : KMap Nat := []
  vits : KMap Vit := []
  cores : KMap Core := []
  clus : KMap Clus := []
  gal : KMap Slice := []
  msgs : List Msg := []
  mesh : Mesh := {}
  srv : Srv := {}
  fab : Fab := {}
  hbm : Hbm := {}
  net : Net := {}
  host : HostP := {}
  rel : Rel := {}
  fw : Fw := {}
  pow : Power := {}
  dbg : Dbg := {}
  fresh : Nat := 0
  deriving DecidableEq, Repr

/-- The state of the block: its waiting commands, MRAM, bytes and the rest. -/
structure State where
  pending : List Instr
  mram : Mram
  mem : Mems
  dev : Dev
  deriving DecidableEq, Repr

/-- Why the machine stops. No meaning raises it: every condition of the spec is an effect on State. -/
inductive Fault where
  /-- Raised by no command; safe. -/
  | none
  deriving DecidableEq, Repr

/-- Why a command has no meaning. -/
inductive Refusal where
  /-- Raised by an arm of exec whose command is not modelled; safe. -/
  | notModelled (mnemonic : String)
  deriving DecidableEq, Repr

/-- The machine after a power-on reset (R445). -/
def State.reset : State := { pending := [], mram := {}, mem := {}, dev := {} }

end Sys2Proof.Machine
end

