-- ==== Sys2Proof/Machine/Mem.lean ====
section
/-! DEFINITION. Bytes of memory in canonical form, the changes a command makes to them, and the form every command's
meaning takes. -/

namespace Sys2Proof.Machine

/-- The byte at an address; an unlisted address reads 0 (log 5). -/
def cellGet : List Host.Cell → Nat → Byte
  | [], _ => 0
  | (j, b) :: m, a => if j = a then b else cellGet m a

/-- Write one byte, keeping the addresses rising and listing no zero. -/
def cellSet : List Host.Cell → Nat → Byte → List Host.Cell
  | [], a, b => if b = 0 then [] else [(a, b)]
  | (j, c) :: m, a, b =>
    if j = a then (if b = 0 then m else (a, b) :: m)
    else if a < j then (if b = 0 then (j, c) :: m else (a, b) :: (j, c) :: m)
    else (j, c) :: cellSet m a b

/-- Zero `len` bytes from `a`. -/
def cellZero (m : List Host.Cell) (a len : Nat) : List Host.Cell :=
  m.filter (fun c => !(decide (a ≤ c.1) && decide (c.1 < a + len)))

/-- The canonical form of one store: addresses strictly rising, no zero byte listed. -/
def cellsWf : List Host.Cell → Bool
  | [] => true
  | [(_, b)] => b != 0
  | (j, b) :: (k, c) :: m => b != 0 && decide (j < k) && cellsWf ((k, c) :: m)

/-- A rising list without repeats. -/
def setWf : List Nat → Bool
  | [] => true
  | [_] => true
  | j :: k :: m => decide (j < k) && setWf (k :: m)

/-- The canonical form of memory. -/
def Memory.wf (m : Mems) : Bool :=
  cellsWf m.hbm && cellsWf m.pad && cellsWf m.clus && cellsWf m.scr && cellsWf m.host && cellsWf m.stage && setWf m.poison && setWf m.padPoison

/-- The bytes of one store. -/
def Mems.sel (m : Mems) : MemSp → List Host.Cell
  | .hbm => m.hbm
  | .pad => m.pad
  | .clus => m.clus
  | .scr => m.scr
  | .host => m.host
  | .stage => m.stage

/-- Replace the bytes of one store. -/
def Mems.put (m : Mems) : MemSp → List Host.Cell → Mems
  | .hbm, c => { m with hbm := c }
  | .pad, c => { m with pad := c }
  | .clus, c => { m with clus := c }
  | .scr, c => { m with scr := c }
  | .host, c => { m with host := c }
  | .stage, c => { m with stage := c }

/-- The byte at an address of a store. -/
def Mems.byte (m : Mems) (sp : MemSp) (a : Nat) : Byte := cellGet (m.sel sp) a

/-- `n` bytes from an address. -/
def Mems.bytes (m : Mems) (sp : MemSp) (a n : Nat) : List Byte := (List.range n).map (fun i => m.byte sp (a + i))

/-- `n` bytes from an address as a little-endian natural. -/
def Mems.nat (m : Mems) (sp : MemSp) (a n : Nat) : Nat := leNat (m.bytes sp a n)

/-- Remove `n` consecutive naturals from `g` on. -/
def sclean (m : List Nat) (g n : Nat) : List Nat := m.filter (fun j => !(decide (g ≤ j) && decide (j < g + n)))

/-- One change of memory. -/
def applyOp (m : Mems) : MemOp → Mems
  | .set sp a b => m.put sp (cellSet (m.sel sp) a b)
  | .zero sp a len => m.put sp (cellZero (m.sel sp) a len)
  | .mark p g on =>
    if p then { m with padPoison := if on then sins m.padPoison g else sdel m.padPoison g }
    else { m with poison := if on then sins m.poison g else sdel m.poison g }
  | .clean p g n => if p then { m with padPoison := sclean m.padPoison g n } else { m with poison := sclean m.poison g n }

/-- Changes of memory in order. -/
def applyAll (m : Mems) (l : List MemOp) : Mems := l.foldl applyOp m

/-- One change of the MRAM: the floors only rise, keys are only revoked, counters only count (R385). -/
def applyMram (m : Mram) : MramOp → Mram
  | .raiseSvn n => { m with svnFloor := max m.svnFloor n }
  | .raiseRecord n => { m with recordSeqFloor := max m.recordSeqFloor n }
  | .revoke k => { m with keysRevoked := m.keysRevoked ||| bit1 4 k.toNat }
  | .retire k n => { m with retire := kset m.retire k (max (kget 0 m.retire k) n) }

/-- A command's working view: the machine, and the changes of memory and MRAM made so far, latest first. -/
structure X where
  dev : Dev
  mem : Mems
  mram : Mram
  ops : List MemOp := []
  mops : List MramOp := []

/-- Make one change of memory. -/
def X.op (x : X) (o : MemOp) : X := { x with mem := applyOp x.mem o, ops := o :: x.ops }

/-- Make one change of the MRAM. -/
def X.mop (x : X) (o : MramOp) : X := { x with mram := applyMram x.mram o, mops := o :: x.mops }

/-- Change the machine. -/
def X.on (x : X) (f : Dev → Dev) : X := { x with dev := f x.dev }

/-- Write bytes from an address of a store. -/
def X.putBytes (x : X) (sp : MemSp) (a : Nat) (l : List Byte) : X :=
  (l.zipIdx).foldl (fun y e => y.op (.set sp (a + e.2) e.1)) x

abbrev Out := Host.Outcome State Fault Refusal

/-- The meaning of a command whose effect is `f`: memory and the MRAM change only by the listed changes, and the queue
stands. -/
def run (s : State) (f : X → X) : Out :=
  let x := f { dev := s.dev, mem := s.mem, mram := s.mram }
  .next { s with dev := x.dev, mem := applyAll s.mem x.ops.reverse, mram := x.mops.reverse.foldl applyMram s.mram }

/-- The meaning of a command that changes neither memory nor the MRAM. -/
def runDev (s : State) (f : Mems → Mram → Dev → Dev) : Out :=
  .next { s with dev := f s.mem s.mram s.dev }

end Sys2Proof.Machine
end

