-- ==== Sys2Proof/Machine/Ops.lean ====
section
/-! DEFINITION. Named operations over the machine: where resources stand, counters, settings, time, the event channel
and error records. -/

namespace Sys2Proof.Machine

/-! ### Places (R3-R7, R16, R17, R354) -/

/-- The die of a Vitrine (R4). -/
def dieOfVit (v : VitId) : Nat := v.toNat / 4
/-- The Vitrine of a core (R3, R4). -/
def vitOfCore (c : CoreId) : VitId := BitVec.ofNat 5 (c.toNat / 16)
/-- The die of a core (R3). -/
def dieOfCore (c : CoreId) : Nat := c.toNat / 64
/-- The cluster index of a core, die x 8 + Wing x 4 + cluster (R354). -/
def clusOfCore (c : CoreId) : Nat := c.toNat / 8
/-- The cores of a Vitrine, ascending. -/
def coresOfVit (v : VitId) : List Nat := (List.range 16).map (fun i => v.toNat * 16 + i)
/-- The clusters of a Vitrine. -/
def clusOfVit (v : VitId) : List Nat := [v.toNat * 2, v.toNat * 2 + 1]
/-- The slices and channels of a Vitrine (R17). -/
def slicesOfVit (v : VitId) : List Nat := (List.range 24).map (fun i => v.toNat * 24 + i)
/-- The links of a Vitrine (R19). -/
def linksOfVit (v : VitId) : List Nat := (List.range 3).map (fun i => v.toNat * 3 + i)
/-- The Vitrines of a mask, ascending. -/
def vitsOf (m : BitVec 32) : List VitId := (bits m).map (BitVec.ofNat 5)

/-! ### Records of the machine -/

def Dev.vit (d : Dev) (v : VitId) : Vit := kget {} d.vits v.toNat
def Dev.setVit (d : Dev) (v : VitId) (f : Vit → Vit) : Dev := { d with vits := kupd {} d.vits v.toNat f }
def Dev.core (d : Dev) (c : CoreId) : Core := kget {} d.cores c.toNat
def Dev.setCore (d : Dev) (c : CoreId) (f : Core → Core) : Dev := { d with cores := kupd {} d.cores c.toNat f }
def Dev.clu (d : Dev) (k : Nat) : Clus := kget {} d.clus k
def Dev.setClu (d : Dev) (k : Nat) (f : Clus → Clus) : Dev := { d with clus := kupd {} d.clus k f }
def Dev.slice (d : Dev) (g : Nat) : Slice := kget {} d.gal g
def Dev.setSlice (d : Dev) (g : Nat) (f : Slice → Slice) : Dev := { d with gal := kupd {} d.gal g f }
/-- The key of a ring. -/
def ringKey (v : VitId) (r : Nat) : Nat := v.toNat * 2048 + r
def Dev.ring (d : Dev) (v : VitId) (r : Nat) : Ring := kget {} d.srv.rings (ringKey v r)
def Dev.setRing (d : Dev) (v : VitId) (r : Nat) (f : Ring → Ring) : Dev :=
  { d with srv := { d.srv with rings := kupd {} d.srv.rings (ringKey v r) f } }
def Dev.die (d : Dev) (i : Nat) : DieClk := kget {} d.clk i
def Dev.setDie (d : Dev) (i : Nat) (f : DieClk → DieClk) : Dev := { d with clk := kupd {} d.clk i f }
def Dev.onCat (d : Dev) (f : Cat → Cat) : Dev := { d with cat := f d.cat }
def Dev.onSrv (d : Dev) (f : Srv → Srv) : Dev := { d with srv := f d.srv }
def Dev.onRel (d : Dev) (f : Rel → Rel) : Dev := { d with rel := f d.rel }
def Dev.proc (d : Dev) (p : Nat) : Proc := kget {} d.fw.proc p
def Dev.setProc (d : Dev) (p : Nat) (f : Proc → Proc) : Dev :=
  { d with fw := { d.fw with proc := kupd {} d.fw.proc p f } }

/-! ### Counters -/

/-- Add `n` to a counter row. -/
def Dev.count (d : Dev) (index sub row : Nat) (n : Nat := 1) : Dev :=
  { d with cnt := kupd 0 d.cnt (ckey index sub row) (fun c => (c + n) % 2 ^ 64) }
/-- A counter row. -/
def Dev.counter (d : Dev) (index sub row : Nat) : Nat := kget 0 d.cnt (ckey index sub row)

/-! ### Time -/

/-- The die's domains run: it is neither stopped, fenced nor waiting for a start. -/
def Dev.runs (d : Dev) (i : Nat) : Bool := (d.die i).running
/-- The core-cycle counter of a die. -/
def Dev.cyc (d : Dev) (i : Nat) : Nat := (d.die i).core
/-- The applied duty of a Vitrine whose DUTY0 is `q`, at `div` root cycles per core cycle: ceil(DUTY0 x f_P0 / f_p), at most 64 (R326). -/
def dutyAt (q div : Nat) : Nat := min 64 (cdiv (q * div) 2)
/-- A Vitrine's applied duty. -/
def Dev.duty (d : Dev) (v : VitId) : Nat := dutyAt (d.vit v).duty0 (d.die (dieOfVit v)).div
/-- A Vitrine's clocked core cycles (R326): of each 64 core cycles of the die, cycle j is clocked when floor((j + 1) D / 64) > floor(j D / 64). -/
def Dev.clocked (d : Dev) (v : VitId) : Nat :=
  let t := d.vit v
  t.clkBase + (d.cyc (dieOfVit v) * d.duty v / 64 - t.dutyBase * d.duty v / 64)
/-- Whether the core cycle under way is clocked for a Vitrine. -/
def Dev.isClocked (d : Dev) (v : VitId) : Bool :=
  let j := d.cyc (dieOfVit v)
  decide (j * d.duty v / 64 < (j + 1) * d.duty v / 64)
/-- Whether a Vitrine has a step running. -/
def Dev.stepRuns (d : Dev) (v : VitId) : Bool := d.srv.steps.any (fun s => s.mask.getLsbD v.toNat && s.st == .running)
/-- A die's clocks move on to a core and a root cycle: the cycles of its Vitrines with a step running, their gated ones, and the cycles
in which a port holds a request are counted (R425, R326, R229). -/
def Dev.advance (d : Dev) (i core root : Nat) : Dev :=
  let k := d.die i
  let e := d.setDie i (fun k => { k with core := core, root := root })
  (List.range 4).foldl (fun (e : Dev) j =>
    let n := 4 * i + j
    let v : VitId := BitVec.ofNat 5 n
    let e := if d.stepRuns v then (e.count 0x8110 3 n (core - k.core)).count 0x2020 1 n (core - k.core - (e.clocked v - d.clocked v)) else e
    let ports := ((kget ({} : Reg) d.net.regs n).held.map (·.1)).dedup.length
    if ports == 0 then e else e.count 0x8016 1 n (ports * (core - k.core))) e
/-- A timed event of a die arrives no earlier than its due core cycle (log 2). -/
def Dev.reach (d : Dev) (i due : Nat) : Dev :=
  let k := d.die i
  if due ≤ k.core then d else d.advance i due (k.root + k.div * (due - k.core))
/-- A timed event of a die's fixed-clock domains arrives no earlier than its due root cycle (log 2). -/
def Dev.reachRoot (d : Dev) (i due : Nat) : Dev :=
  let k := d.die i
  if due ≤ k.root then d else d.advance i (k.core + (due - k.root) / max 1 k.div) due
/-- Clocked core cycles of a core (R326). -/
def Dev.cycOf (d : Dev) (c : CoreId) : Nat := d.clocked (vitOfCore c)
/-- An event timed in clocked core cycles of a Vitrine arrives no earlier than its due one (log 2). -/
def Dev.reachVit (d : Dev) (v : VitId) (due : Nat) : Dev :=
  let t := d.vit v
  if due ≤ d.clocked v then d
  else d.reach (dieOfVit v) (cdiv (64 * (due - t.clkBase + t.dutyBase * d.duty v / 64)) (max 1 (d.duty v)))
/-- An event timed in clocked core cycles of a core arrives no earlier than its due one (log 2). -/
def Dev.reachOf (d : Dev) (c : CoreId) (due : Nat) : Dev := d.reachVit (vitOfCore c) due
/-- Start a Vitrine's count afresh from here: its duty or its die's divider is about to change. -/
def Dev.rebase (d : Dev) (v : VitId) : Dev :=
  let n := d.clocked v
  d.setVit v (fun t => { t with dutyBase := d.cyc (dieOfVit v), clkBase := n })
/-- HBM-controller cycles of a die: an eighth of its root clock (R323). -/
def Dev.hbmCycle (d : Dev) (i : Nat) : Nat := (d.die i).root / 8
/-- The reference domain moves on; each link with operations that wait for credits counts the cycles (R258). -/
def Dev.advanceRef (d : Dev) (ref : Nat) : Dev :=
  let e : Dev := { d with ref := ref }
  d.fab.links.foldl (fun (e : Dev) (l : Nat × Link) => if l.2.wait.isEmpty then e else e.count 0x8019 5 l.1 (ref - d.ref)) e
/-- A timed event of the reference domain arrives no earlier than its due cycle (log 2). -/
def Dev.reachRef (d : Dev) (due : Nat) : Dev := if due ≤ d.ref then d else d.advanceRef due
/-- The Curator-domain cycle count: 550 MHz against the 100 MHz reference (R323). -/
def Dev.curCycle (d : Dev) : Nat := d.ref * 11 / 2

/-- Whether a global stop is under way or holds (R408, R412): its dies stand still until RESUME arrives. -/
def Dbg.stopped (b : Dbg) : Bool := b.st != 0

/-! ### Settings -/

/-- The value last accepted for a row (R298). -/
def Dev.acc (d : Dev) (index sub row : Nat) : Nat :=
  (kfind d.cat.acc (ckey index sub row)).getD (entryDefault index sub row)
/-- The value in force of a row that its entry defers (R298). -/
def Dev.force (d : Dev) (index sub row : Nat) : Nat :=
  (kfind d.cat.force (ckey index sub row)).getD (entryDefault index sub row)
/-- Accept a row's value. -/
def Dev.setAcc (d : Dev) (index sub row val : Nat) : Dev :=
  d.onCat (fun c => { c with acc := kset c.acc (ckey index sub row) val })
/-- The value in force of an entry of a Vitrine's block at offset k (R319). -/
def Dev.vset (d : Dev) (v : VitId) (k sub : Nat) (row : Nat := 0) : Nat := d.force (0x3000 + v.toNat * 16 + k) sub row
/-- The value last accepted of an entry of a Vitrine's block that is in force at once. -/
def Dev.vacc (d : Dev) (v : VitId) (k sub : Nat) (row : Nat := 0) : Nat := d.acc (0x3000 + v.toNat * 16 + k) sub row

/-- Whether a value store's key belongs to an entry of Vitrine v: its block, its codebooks or its thresholds. -/
def ofVit (v : VitId) (k : Nat) : Bool :=
  let i := k / 16777216
  (0x3000 ≤ i && i < 0x3200 && (i - 0x3000) / 16 == v.toNat) || (0x9000 ≤ i && i < 0x9060 && i % 32 == v.toNat)

/-- Bring accepted values into force. -/
def Dev.enforceKeys (d : Dev) (p : Nat → Bool) : Dev :=
  d.onCat (fun c => { c with force := (c.acc.filter (fun e => p e.1)).foldl (fun m e => kset m e.1 e.2) c.force })
/-- Bring the accepted Vitrine-scope values of v into force: its next batch step begins (R298). -/
def Dev.enforce (d : Dev) (v : VitId) : Dev := d.enforceKeys (ofVit v)

/-- Return every Vitrine-scope entry of v to its default (R261). -/
def Dev.vitDefaults (d : Dev) (v : VitId) : Dev :=
  d.onCat (fun c => { c with acc := kdrop (ofVit v) c.acc, force := kdrop (ofVit v) c.force })

/-- The counter TABLEs whose rows are Vitrines, cleared on assignment (R66 and the other counter rules). -/
def rowsAreVits (index : Nat) : Bool :=
  (0x8010 ≤ index && index ≤ 0x801A && index != 0x8017 && index != 0x8019) || index == 0x6050 || index == 0x2020
    || index == 0x8110

/-- Clear Vitrine v's counter rows. -/
def Dev.clearCounters (d : Dev) (v : VitId) : Dev :=
  { d with cnt := kdrop (fun k => (rowsAreVits (k / 16777216) && k % 65536 == v.toNat) ||
      (k / 16777216 == 0x8111 && k % 65536 / 8 == v.toNat)) d.cnt }

/-! ### Tenancies -/

/-- The Vitrines of the tenancy led by l (R260). -/
def Dev.tenancy (d : Dev) (l : VitId) : List VitId :=
  (vitsOf (BitVec.allOnes 32)).filter (fun v => (d.vit v).leader == some l)
/-- The mask of the tenancy led by l. -/
def Dev.tenMask (d : Dev) (l : VitId) : BitVec 32 :=
  (d.tenancy l).foldl (fun m v => putBit m v.toNat true) 0
/-- Whether a Vitrine's setting may be written and its rings reached: ASSIGNED or FROZEN (R262, R304). -/
def Vit.held (v : Vit) : Bool := v.st == .assigned || v.st == .frozen
/-- Whether a Vitrine is active (R369). -/
def Vit.busy (v : Vit) : Bool := v.st == .clearing || v.st == .assigned || v.st == .frozen || v.st == .deaccessioning

/-! ### Events (R315, R316) -/

/-- An event channel with one more event; the last 4,096 are kept. -/
def Cat.push (c : Cat) (e : Event) : Cat :=
  let l := c.events ++ [{ e with seq := c.evNext }]
  { c with events := l.drop (l.length - 4096), evNext := (c.evNext + 1) % 2 ^ 32 }

/-- Queue one event. -/
def Dev.post (d : Dev) (code kind index : Nat) (d0 : Nat := 0) (d1 : Nat := 0) (entry : Nat := 0) : Dev :=
  d.onCat (fun c => c.push { code, kind, index, entry, d0, d1, seq := 0, cycle := d.curCycle % 2 ^ 32 })

/-- An event of a Vitrine. -/
def Dev.postVit (d : Dev) (code : Nat) (v : VitId) (d0 : Nat := 0) (d1 : Nat := 0) : Dev := d.post code 2 v.toNat d0 d1

/-- Move a Vitrine to a state and report it (R261, R317). -/
def Dev.vitState (d : Dev) (v : VitId) (st : VitSt) : Dev :=
  let n : Nat := match st with
    | .unassigned => 0 | .clearing => 1 | .assigned => 2 | .frozen => 3 | .deaccessioning => 4
    | .withdrawn => 5 | .outOfService => 6
  let d := d.setVit v (fun x => { x with st := st })
  d.postVit 0x0002 v n (match (d.vit v).leader with | some l => l.toNat | none => 0xFF)

/-- DIES_IN_SERVICE (R31, R360). -/
def Dev.diesIn (d : Dev) : Nat :=
  (List.range 8).foldl (fun n i => if d.rel.diesOut.getLsbD i || (kfind d.rel.fenced i).isSome then n else n + 2 ^ i) 0
/-- VITRINES_IN_SERVICE (R31): assignable or assigned. -/
def Dev.vitsIn (d : Dev) : Nat :=
  (List.range 32).foldl (fun n i => match (d.vit (BitVec.ofNat 5 i)).st with
    | .withdrawn | .outOfService => n
    | _ => n + 2 ^ i) 0
/-- IDENTITY_CHANGED (R32, R317): a device entry, or a die's, with its new value. -/
def Dev.identChanged (d : Dev) (die : Option Nat) (entry val : Nat) : Dev :=
  d.post 0x0001 (if die.isSome then 1 else 0) (die.getD 0) val 0 entry
/-- CORE_MAP has changed: its event carries the row's first 8 bytes, RETIRED_SLOTS and four bytes of SLOT_OF_CORE. -/
def Dev.coreMapChanged (d : Dev) (v : VitId) : Dev :=
  let p : Slots := kget {} d.rel.slots v.toNat
  d.identChanged (some (dieOfVit v)) ((0x1001 + dieOfVit v) * 256 + 3) (p.retired.toNat + leNat ((p.slotOf.take 4).map (BitVec.ofNat 8)) * 2 ^ 32)

/-! ### The pending Condition Record (R374) and error records (R353) -/

/-- One change of the pending Condition Record. -/
def Dev.changed (d : Dev) (action : Nat) : Dev :=
  let d := d.onRel (fun r => { r with changes := (r.changes + 1) % 2 ^ 32 })
  d.post 0x0209 0 0 d.rel.changes action

/-- Append a record to ERROR_LOG, or hold it while the die's Conservator restarts (R353). -/
def Dev.logErr (d : Dev) (r : ErrRec) : Dev :=
  let r := { r with cycle := (if r.atrium then d.curCycle else d.cyc r.die) % 2 ^ 48 }
  if !r.atrium && (d.proc (10 + r.die)).st == 1 then
    let held := ((d.rel.heldRecs.find? (fun h => h.1 == r.die)).map (·.2)).getD []
    if held.length < 256 then
      d.onRel (fun q => { q with heldRecs := (r.die, held ++ [r]) :: q.heldRecs.filter (fun h => h.1 != r.die) })
    else d.onRel (fun q => { q with lost := q.lost + 1 })
  else
    d.onRel (fun q =>
      let l := q.log ++ [{ r with seq := q.next }]
      let ovr := l.length - 1024
      let unread := ((l.take ovr).filter (fun e => decide (q.read ≤ e.seq))).length
      { q with log := l.drop ovr, next := (q.next + 1) % 2 ^ 32, lost := q.lost + unread })

/-- The RECORD_SEQ the last record of the log carries. -/
def Dev.lastRec (d : Dev) : Nat := d.rel.next - 1

/-- The physical slot index of a logical core, die x 68 + Wing x 34 + pair x 17 + slot (R354). -/
def Dev.physSlot (d : Dev) (c : CoreId) : Nat :=
  let p := c.toNat / 16
  let s := kget {} d.rel.slots p
  p * 17 + nthD 0 s.slotOf (c.toNat % 16)

/-- A fault of R366 on the slot behind a core. -/
def Dev.slotFault (d : Dev) (c : CoreId) : Dev :=
  d.onRel (fun r => { r with slots := kupd {} r.slots (c.toNat / 16) (fun p =>
    { p with faults := kupd 0 p.faults (nthD 0 p.slotOf (c.toNat % 16)) (· + 1) }) })

/-! ### Free values -/

/-- Draw the next free-value index (log 6). -/
def Dev.draw (d : Dev) : Nat × Dev := (d.fresh, { d with fresh := d.fresh + 1 })

end Sys2Proof.Machine
end

