-- ==== Sys2Proof/Machine/Elem.lean ====
section
/-! DEFINITION. Element operations of atomics and reductions (R56-R58, R177), on fields of a line. -/

namespace Sys2Proof.Machine

/-- The new value of an element (R56, R177): integers of 32 or 64 bits, FP32 as R59 with nearest-even. -/
def elemApply (op : AtomOp) (wide : Bool) (old val cmp : Nat) : Nat :=
  let w := if wide then 64 else 32
  let sx (n : Nat) : Int := (BitVec.ofNat w n).toInt
  match op with
  | .add => (old + val) % 2 ^ w
  | .smin => if sx val < sx old then val else old
  | .smax => if sx old < sx val then val else old
  | .umin => min old val
  | .umax => max old val
  | .and => Nat.land old val
  | .or => Nat.lor old val
  | .xor => Nat.xor old val
  | .xchg => val
  | .cas => if old = cmp then val else old
  | .fadd => (fadd32 .rne (BitVec.ofNat 32 old) (BitVec.ofNat 32 val)).1.toNat
  | .fmin => (fminmax32 false (BitVec.ofNat 32 old) (BitVec.ofNat 32 val)).toNat
  | .fmax => (fminmax32 true (BitVec.ofNat 32 old) (BitVec.ofNat 32 val)).toNat

/-- A reduction as an element operation (R177). -/
def redElem : RedOp → AtomOp
  | .fadd => .fadd
  | .fmin => .fmin
  | .fmax => .fmax
  | .iadd => .add

/-- The field of `n` bytes at byte `off` of a line. -/
def lineGet (l : Line) (off n : Nat) : Nat := fld l.toNat (8 * off) (8 * n)
/-- Replace a field of a line. -/
def lineSet (l : Line) (off n v : Nat) : Line :=
  let m : Nat := (2 ^ (8 * n) - 1) * 2 ^ (8 * off)
  (l &&& ~~~(BitVec.ofNat 1024 m)) ||| BitVec.ofNat 1024 (v % 2 ^ (8 * n) * 2 ^ (8 * off))

/-- Apply one element operation to a line: the new line and the old value. -/
def elemStep (e : ElemOp) (l : Line) : Line × Nat :=
  let n := if e.wide then 8 else 4
  let old := lineGet l e.off.toNat n
  (lineSet l e.off.toNat n (elemApply e.op e.wide old e.val.toNat e.cmp.toNat), old)

/-- The element operations of a combined operation on a line in lane order (R57): the new line, and the old values by lane. -/
def elemsApply (ops : List ElemOp) (l : Line) : Line × List (Nat × Nat) :=
  ops.foldl (fun (a : Line × List (Nat × Nat)) e =>
    let (m, o) := elemStep e a.1
    (m, a.2 ++ [(e.lane.toNat, o)])) (l, [])

/-- Perform the elements of a combined operation that are left, or none when it meets a poisoned granule (R356): the line and the operation. -/
def SliceOp.finish (o : SliceOp) (l : Line) (po : BitVec 2) : Line × SliceOp :=
  if o.todo.any (fun e => po.getLsbD (e.off.toNat / 64)) then (l, { o with todo := [], old := [], bad := true })
  else
    let (m, old) := elemsApply o.todo l
    (m, { o with todo := [], old := o.old ++ old })

/-- Perform every operation of a queue on one line, in order. -/
def finishLine (line : Nat) (ops : List SliceOp) (l : Line) (po : BitVec 2) : Line × List SliceOp :=
  ops.foldl (fun (a : Line × List SliceOp) o =>
    if o.line == line then
      let (m, p) := o.finish a.1 po
      (m, a.2 ++ [p])
    else (a.1, a.2 ++ [o])) (l, [])

end Sys2Proof.Machine
end

