-- ==== Sys2Proof/Machine/Place.lean ====
section
/-! DEFINITION. Addresses (R27-R29, R140, R141, R166-R168): windows and scratchpads, channels and their rows, slices, sets and the parts of a Gallery share. -/

namespace Sys2Proof.Machine

/-! ### Addresses -/

/-- Where a device address lies. -/
inductive Place where
  | win (v : VitId) (off : Nat)
  | pad (v : VitId) (off : Nat)
  | hole
  deriving DecidableEq, Repr

/-- Populated bytes of a window (R7, R27). -/
def windowBytes : Nat := 0xB40000000
/-- First address of the scratchpad windows (R27). -/
def padBase : Nat := 0xF0000000000
/-- A scratchpad step (R28). -/
def stepBytes : Nat := 0x400000

/-- Whether Vitrine v's windows are populated in this start (R21, R25). -/
def Dev.windowed (d : Dev) (v : VitId) : Bool := !(d.rel.withdrawn ||| d.rel.noWindow).getLsbD v.toNat

/-- Scratchpad steps as a slice applies them: during a resize the new size holds once its change point has passed (R169). -/
def Dev.padOf (d : Dev) (g : Nat) : Nat :=
  let t := d.vit (BitVec.ofNat 5 (g / 24))
  match t.resize with
  | some n => if (d.slice g).changing then t.padSteps else n
  | none => t.padSteps
/-- Provenance steps as a slice applies them: during a change the new size holds once its change point has passed (R169). -/
def Dev.pvOf (d : Dev) (g : Nat) : Nat :=
  let t := d.vit (BitVec.ofNat 5 (g / 24))
  match t.pvResize with
  | some n => if (d.slice g).pvChanging then t.pvSteps else n
  | none => t.pvSteps
/-- Provenance steps in which entries may stand: while the size changes, those of both sizes. -/
def Dev.pvRoom (d : Dev) (v : VitId) : Nat := match (d.vit v).pvResize with
  | some n => min n (d.vit v).pvSteps
  | none => (d.vit v).pvSteps
/-- The slice of a scratchpad offset (R167). -/
def padSlice (v : VitId) (off : Nat) : Nat := v.toNat * 24 + off / 128 % 24

/-- The populated place of an address (R27, R28). -/
def Dev.place (d : Dev) (a : Nat) : Place :=
  if a < 2 ^ 41 then
    let v := BitVec.ofNat 5 (a / 2 ^ 36)
    if a % 2 ^ 36 < windowBytes && d.windowed v then .win v (a % 2 ^ 36) else .hole
  else if padBase ≤ a && a < padBase + 2 ^ 32 then
    let y := a - padBase
    let v := BitVec.ofNat 5 (y / 2 ^ 27)
    if y % 2 ^ 27 < d.padOf (padSlice v (y % 2 ^ 27)) * stepBytes && d.windowed v then .pad v (y % 2 ^ 27) else .hole
  else .hole

/-- The Vitrine of a place. -/
def Place.vit : Place → Option VitId
  | .win v _ => some v
  | .pad v _ => some v
  | .hole => none

/-- Whether two places lie in one window or one scratchpad. -/
def Place.same : Place → Place → Bool
  | .win v _, .win w _ => v == w
  | .pad v _, .pad w _ => v == w
  | _, _ => false

/-- Whether an access of `n` bytes is valid for the tenancy led by l (R29). -/
def Dev.valid (d : Dev) (l : VitId) (a n : Nat) : Bool :=
  match d.place a with
  | .hole => false
  | p => n == 0 || ((d.place (a + n - 1)).same p && (p.vit.map (fun v => (d.vit v).leader)) == some (some l))

/-- Whether a core's access is valid: during a resize the cores check the smaller of the two sizes (R169). -/
def Dev.coreValid (d : Dev) (l : VitId) (a n : Nat) : Bool :=
  d.valid l a n && (match d.place a with
    | .pad v off => (match (d.vit v).resize with
      | some k => decide (off + n ≤ min k (d.vit v).padSteps * stepBytes)
      | none => true)
    | _ => true)

/-- Whether a range lies in one populated window (not scratchpad) of the tenancy. -/
def Dev.validWin (d : Dev) (l : VitId) (a n : Nat) : Bool :=
  match d.place a with
  | .win _ _ => d.valid l a n
  | _ => false

/-- The Vitrine of a device address, populated or not (R7, R28). -/
def vitOfAddr (a : Nat) : VitId :=
  if a < 2 ^ 41 then BitVec.ofNat 5 (a / 2 ^ 36) else BitVec.ofNat 5 ((a - padBase) / 2 ^ 27)

/-- The channel within the Vitrine and the channel-local address of a window offset (R140). -/
def chanOf (x : Nat) : Nat × Nat :=
  let u := x / 512
  let q := u / 24
  let f := (q + q / 24) % 24
  (((u % 24) + f) % 24, q * 512 + x % 512)

/-- The home slice of a line of a window (R166). -/
def sliceOf (line : Nat) : Nat := (line / 2 ^ 29) * 24 + (chanOf (line * 128 % 2 ^ 36)).1
/-- The channel-local line number (R166). -/
def localLine (line : Nat) : Nat := (chanOf (line * 128 % 2 ^ 36)).2 / 128
/-- The set of a channel-local line (R166). -/
def setOfLocal (l : Nat) : Nat := 512 * (l / 512 % 3) + ((l % 512) ^^^ (l / 512 % 512) ^^^ (l / 262144 % 64))
/-- The set of a line. -/
def setOf (line : Nat) : Nat := setOfLocal (localLine line)
/-- The tag of a line (R166). -/
def tagOf (line : Nat) : Nat := localLine line / 512 % 2 ^ 15

/-! ### Channels and their rows (R139-R141) -/

def Dev.onHbm (d : Dev) (f : Hbm → Hbm) : Dev := { d with hbm := f d.hbm }
def Dev.hpc (d : Dev) (ch pc : Nat) : HPc := kget {} d.hbm.pcs (ch * 2 + pc)
def Dev.setHpc (d : Dev) (ch pc : Nat) (f : HPc → HPc) : Dev := d.onHbm (fun h => { h with pcs := kupd {} h.pcs (ch * 2 + pc) f })
def Dev.hchan (d : Dev) (ch : Nat) : HChan := kget {} d.hbm.chans ch
def Dev.setHchan (d : Dev) (ch : Nat) (f : HChan → HChan) : Dev := d.onHbm (fun h => { h with chans := kupd {} h.chans ch f })
/-- The die, Vitrine and stack of a device-wide channel (R16, R17). -/
def dieOfChan (ch : Nat) : Nat := ch / 96
def vitOfChan (ch : Nat) : VitId := BitVec.ofNat 5 (ch / 24)
def stackOfChan (ch : Nat) : Nat := ch / 32

/-- Row, bank (stack identifier, group, bank) and pseudo-channel of a channel-local address (R141). -/
def rowOf (a : Nat) : Nat := fld a 17 14
def bankOf (a : Nat) : Nat :=
  let r := rowOf a
  (fld a 15 2 ^^^ fld r 4 2) * 16 + (fld a 11 2 ^^^ fld r 0 2) * 4 + (fld a 13 2 ^^^ fld r 2 2)
def pcOf (a : Nat) : Nat := fld a 7 1
/-- A bank's number, as bankOf gives it. -/
def bankNum (b : BankId) : Nat := b.sid.toNat * 16 + b.group.toNat * 4 + b.bank.toNat
/-- A row by its bank and number, bank x 16,384 + row. -/
def rowKey (a : Nat) : Nat := bankOf a * 16384 + rowOf a
/-- The burst's column in its row (R141). -/
def colOf (a : Nat) : Nat := fld a 8 3 * 2 + fld a 6 1
/-- The channel-local address of a burst by pseudo-channel, row and column, the inverse of R141. -/
def rowAddr (pc key col : Nat) : Nat :=
  let row := key % 16384
  let b := key / 16384
  row * 2 ^ 17 + (b / 16 ^^^ fld row 4 2) * 2 ^ 15 + (b % 4 ^^^ fld row 2 2) * 2 ^ 13 + (b / 4 % 4 ^^^ fld row 0 2) * 2 ^ 11 +
    col / 2 * 2 ^ 8 + pc * 2 ^ 7 + col % 2 * 2 ^ 6

/-! ### The remap tables (R159, R160) -/

/-- Where the remap tables send a row: a redirected bank's place of it, its spare, or its pool row. -/
def HPc.entry (q : HPc) (k : Nat) : Option Nat :=
  match (kfind q.redirected (k / 16384)).bind (fun l => l[k % 16384]?) with
  | some p => some p
  | none => match kfind q.remap k with
    | some p => some p
    | none => kfind q.pool k
/-- Follow the tables from a row, which may itself have been retired again. -/
def HPc.follow (q : HPc) : Nat → Nat → Nat
  | 0, k => k
  | n + 1, k => match q.entry k with
    | some p => q.follow n p
    | none => k
/-- The row of the stack that an address's accesses reach. -/
def HPc.place (q : HPc) (a : Nat) : Nat := q.follow 1024 (rowKey a)
/-- The row that a place stands for now, if any. -/
def HPc.servesFor (q : HPc) (p : Nat) : Option Nat :=
  match (q.remap ++ q.pool).find? (fun e => e.2 == p) with
  | some e => some e.1
  | none => q.redirected.findSome? (fun e => (e.2.findIdx? (fun t => t == p)).map (fun i => e.1 * 16384 + i))
/-- Go back from a place to the row whose bytes it holds. -/
def HPc.back (q : HPc) : Nat → Nat → Nat
  | 0, k => k
  | n + 1, k => match q.servesFor k with
    | some p => q.back n p
    | none => k
/-- The address under which the bytes of a burst are held: a spare or pool row in use holds those of the row it stands for (log 79). -/
def HPc.home (q : HPc) (a : Nat) : Nat :=
  if rowOf a < 15360 then a else rowAddr (pcOf a) (q.back 1024 (rowKey a)) (colOf a) + a % 64

/-- Issue the refreshes postponed, and `n` more, to the banks in rotation, each holding its bank for 132 cycles (R150). -/
def HPc.refreshes (q : HPc) (now n : Nat) : HPc :=
  (List.range (q.postponed + n)).foldl (fun (h : HPc) _ =>
    { h with busy := kset h.busy h.rotate (max now (kget 0 h.busy h.rotate) + 132), rows := kdel h.rows h.rotate,
             rotate := (h.rotate + 1) % 64, postponed := 0 }) q
/-- Whether a row of the stack is open in its bank. -/
def HPc.hits (q : HPc) (p : Nat) : Bool := kfind q.rows (p / 16384) == some (p % 16384)

/-- Open the row of a burst in its bank: an activate, before which the postponed refreshes go, is counted for its Vitrine where another row, or none,
was open (R150, R164). -/
def Dev.activate (d : Dev) (ch a : Nat) : Dev :=
  let q := d.hpc ch (pcOf a)
  let p := q.place a
  if q.hits p then d
  else
    (d.setHpc ch (pcOf a) (fun q =>
      let q := q.refreshes (d.hbmCycle (dieOfChan ch)) 0
      { q with rows := kset q.rows (p / 16384) (p % 16384) })).count 0x8014 4 (vitOfChan ch).toNat

/-! ### The share's parts -/

/-- Scratchpad or store lines in slice `g` of a carve-out of `steps` steps (R167). -/
def carveLines (steps g : Nat) : Nat := (steps * 32768 + 23 - g % 24) / 24
/-- Ways a carve-out takes in a set (R167, R168). -/
def carveWays (steps g set : Nat) : Nat := cdiv (carveLines steps g - set) 1536

/-- The cache ways of a set: the logical ways R167 leaves free (R168). -/
def Dev.cacheWays (d : Dev) (g set : Nat) : List Nat :=
  let lo := carveWays (d.pvOf g) g set
  let hi := 16 - carveWays (d.padOf g) g set
  (List.range 16).filter (fun w => lo ≤ w && w < hi)

/-- GALLERY_CACHE_BYTES (R168). -/
def Dev.cacheBytes (d : Dev) (v : VitId) : Nat := (18 - (d.vit v).padSteps - (d.vit v).pvSteps) * stepBytes

end Sys2Proof.Machine
end

