-- ==== Sys2Proof/Machine/Mesh.lean ====
section
/-! DEFINITION. The data network: virtual channels (R216), the order of a pair of endpoints (R217), paths over seams and bundles (R226),
priority (R218) and the turns of arbitration (R231). -/

namespace Sys2Proof.Machine

def Dev.onNet (d : Dev) (f : Net → Net) : Dev := { d with net := f d.net }
def Dev.seam (d : Dev) (s : Nat) : Seam := kget {} d.net.seams s
def Dev.setSeam (d : Dev) (s : Nat) (f : Seam → Seam) : Dev := d.onNet (fun n => { n with seams := kupd {} n.seams s f })
def Dev.bund (d : Dev) (r : Nat) : Bund := kget {} d.net.bunds r
def Dev.setBund (d : Dev) (r : Nat) (f : Bund → Bund) : Dev := d.onNet (fun n => { n with bunds := kupd {} n.bunds r f })
def Dev.reg (d : Dev) (v : VitId) : Reg := kget {} d.net.regs v.toNat
def Dev.setReg (d : Dev) (v : VitId) (f : Reg → Reg) : Dev := d.onNet (fun n => { n with regs := kupd {} n.regs v.toNat f })

/-! ### Bundles (R20, R21, R235) -/

/-- The pairs of bundle-name order; 8 is the Atrium. -/
def bundlePairs : List (Nat × Nat) := (List.range 8).flatMap (fun a => (List.range (8 - a)).map (fun i => (a, a + 1 + i)))

/-- A row of BUNDLE_STATE: its sender, its receiver and the bundle's j. -/
def dirEnds (r : Nat) : Nat × Nat × Nat :=
  let (a, b) := nthD (0, 1) bundlePairs (r / 4)
  if r % 2 == 0 then (a, b, r / 2 % 2) else (b, a, r / 2 % 2)

/-- The other direction of a bundle. -/
def dirBack (r : Nat) : Nat := if r % 2 == 0 then r + 1 else r - 1

/-- Core cycles of the die that receives on a direction; for the Atrium its sender's die. -/
def dirDie (r : Nat) : Nat := let (s, t, _) := dirEnds r; if t == 8 then s else t

/-! ### Ports and classes (R228-R230) -/

def portCls : MPort → RegClass
  | .core _ => .core | .walker _ _ => .walker | .dma _ => .dma | .media _ => .media | .host => .host | .fabric _ => .fabric
def clsNum : RegClass → Nat
  | .core => 0 | .walker => 1 | .dma => 2 | .media => 3 | .host => 4 | .fabric => 5
/-- The index of a port within its class (R229). -/
def portNum : MPort → Nat
  | .core c => c.toNat
  | .walker c w => c.toNat * 3 + (match w with | .a => 0 | .b => 1 | .o => 2)
  | .dma v => v.toNat
  | .media e => e.toNat
  | .host => 0
  | .fabric v => v.toNat
/-- Ports per Vitrine of each class (R228). -/
def portCount : List Nat := [16, 48, 1, 1, 1, 1]


/-- The Vitrine of a port's requests; a media engine or the host asks for the Vitrine it reaches (R228). -/
def portVit (p : MPort) (home : VitId) : VitId :=
  match p with
  | .core c | .walker c _ => vitOfCore c
  | .dma v | .fabric v => v
  | .media _ | .host => home

/-- The priority of a port's class (R218, R230). -/
def Dev.portHigh (d : Dev) (p : MPort) (home : VitId) : Bool := fld (d.vset (portVit p home) 8 1 (clsNum (portCls p))) 23 1 == 1

/-! ### Virtual channels (R216) -/

inductive VC where
  | req | fwd | rsp | xio
  deriving DecidableEq, Repr

/-- The virtual channel of a message; none for a slice's request to its own controller, which the network does not carry. -/
def Msg.vc (m : Msg) : Option VC :=
  match m.kind with
  | .getS | .getM | .rdU | .wrU | .atomRed => some .req
  | .inv | .recallS | .recallI | .biSnpData | .biSnpInv => some .fwd
  | .hostData | .rspIHitI => some .xio
  | .wrDone => if m.port == some .host then some .xio else some .rsp
  | .hbmRead => none
  | _ => some .rsp

/-! ### Endpoints and paths (R217, R226) -/

/-- A place the network joins: a core's L1, a slice, a port of an engine, or the CXL port. -/
inductive End where
  | core (c : CoreId)
  | slice (g : Nat)
  | port (p : MPort)
  | cxl
  deriving DecidableEq, Repr

/-- The number of an endpoint. -/
def End.num : End → Nat
  | .core c => c.toNat
  | .slice g => 512 + g
  | .port p => 2048 * (clsNum (portCls p) + 1) + portNum p
  | .cxl => 2047

/-- The die and Wing of an endpoint; die 8 is the Atrium (R3, R4, R16). -/
def End.at' : End → Nat × Nat
  | .core c => (dieOfCore c, c.toNat / 32 % 2)
  | .slice g => (g / 96, g / 48 % 2)
  | .port (.core c) | .port (.walker c _) => (dieOfCore c, c.toNat / 32 % 2)
  | .port (.dma v) | .port (.fabric v) => (dieOfVit v, v.toNat / 2 % 2)
  | .port (.media e) => (e.toNat / 2, e.toNat % 2)
  | .port .host | .cxl => (8, 0)

/-- The slice of a line, of a window or a scratchpad. -/
def sliceAt (line : Nat) : Nat :=
  if line * 128 < 2 ^ 41 then sliceOf line else (vitOfAddr (line * 128)).toNat * 24 + ((line * 128 - padBase) % 2 ^ 27 / 128) % 24

/-- The far end of a message beside its home: the L1, the port or the host. -/
def Msg.far (m : Msg) : End :=
  match m.port, m.core with
  | some .host, _ => .cxl
  | some p, _ => .port p
  | none, some c => .core c
  | none, none => .cxl

/-- Source and destination of a message. -/
def Msg.ends (m : Msg) : End × End :=
  match m.kind with
  | .getS | .getM | .rdU | .wrU | .atomRed | .putE | .putM | .invAck | .rspData | .rspNoData => (m.far, .slice (sliceAt m.line))
  | _ => (.slice (sliceAt m.line), m.far)

/-- A part of a path: a seam direction or a bundle direction, by their rows. -/
inductive Hop where
  | seam (row : Nat)
  | dir (row : Nat)
  deriving DecidableEq, Repr

/-- The row of a bundle direction by its sender, its receiver and j (R235). -/
def dirRow (s t j : Nat) : Nat := 4 * ((bundlePairs.findIdx? (fun p => p == (min s t, max s t))).getD 0) + 2 * j + (if s < t then 0 else 1)
/-- Whether bundle j from one die to another carries traffic now (R223). -/
def Dev.dirUp (d : Dev) (s t j : Nat) : Bool := (d.bund (dirRow s t j)).st == 0 && !(d.bund (dirRow s t j)).lost && !(d.bund (dirRow s t j)).quiet
/-- The seam of a die from one Wing to the other. -/
def seamHop (die a b : Nat) : List Hop := if a == b then [] else [.seam (2 * die + a)]

/-- The path between two endpoints (R226): by bundle j of the Wing it ends at, of a compute die, or by the other when that is out of service; none
while neither carries traffic. -/
def Dev.path (d : Dev) (s t : Nat × Nat) : Option (List Hop) :=
  if s.1 == t.1 then some (if s.1 == 8 then [] else seamHop s.1 s.2 t.2)
  else
    let j := if t.1 == 8 then s.2 else t.2
    let via (j : Nat) : List Hop :=
      (if s.1 == 8 then [] else seamHop s.1 s.2 j) ++ [.dir (dirRow s.1 t.1 j)] ++ (if t.1 == 8 then [] else seamHop t.1 j t.2)
    if d.dirUp s.1 t.1 j then some (via j) else if d.dirUp s.1 t.1 (1 - j) then some (via (1 - j)) else none

/-- The path of a message. -/
def Dev.pathOf (d : Dev) (m : Msg) : Option (List Hop) := d.path m.ends.1.at' m.ends.2.at'

/-! ### Arbitration (R231) -/

/-- What waits at an arbitration point: the requester's Vitrine, its port and its priority. -/
structure Waiter where
  vit : VitId
  port : MPort
  high : Bool
  deriving DecidableEq, Repr

/-- The port whose request a message carries or answers. -/
def Msg.by' (m : Msg) : MPort := match m.port, m.core with
  | some p, _ => p
  | none, some c => .core c
  | none, none => .host
def Msg.waiter (m : Msg) : Waiter :=
  let home := vitOfAddr (m.line * 128)
  { vit := portVit m.by' home, port := m.by', high := m.high }

/-- The key of a port's grants at a point. -/
def grantKey (w : Waiter) : Nat := w.vit.toNat * 16384 + clsNum (portCls w.port) * 2048 + portNum w.port

/-- The Vitrine whose turn it is: the next with something waiting after the last served, in rotation. -/
def ArbPt.turn (a : ArbPt) (ws : List Waiter) : Option VitId :=
  ((List.range 32).map (fun i => BitVec.ofNat 5 (a.last + 1 + i))).find? (fun v => ws.any (fun w => w.vit == v))

/-- Whether port p of a Vitrine goes before port q by weighted round-robin: the weight of a port is its class's GUAR_PCT over the class's port count, and
the port furthest below its share is next (log 65). -/
def Dev.goesFirst (d : Dev) (a : ArbPt) (p q : Waiter) : Bool :=
  let w (x : Waiter) : Nat := fld (d.vset x.vit 8 1 (clsNum (portCls x.port))) 48 8
  let n (x : Waiter) : Nat := (kget 0 a.given (grantKey x) + 1) * nthD 1 portCount (clsNum (portCls x.port))
  n p * w q < n q * w p || (n p * w q == n q * w p && (p.high && !q.high))

/-- Who is served next at an arbitration point (R231): the turn's Vitrine, its port by weight, and HIGH before NORMAL within the port. -/
def Dev.choose (d : Dev) (a : ArbPt) (ws : List Waiter) : Option Waiter :=
  match a.turn ws with
  | none => none
  | some v =>
    (ws.filter (fun w => w.vit == v)).foldl (fun (b : Option Waiter) w => match b with
      | none => some w
      | some t => if (if w.port == t.port then w.high && !t.high else d.goesFirst a w t) then some w else some t) none

/-- A point has served a waiter. -/
def ArbPt.served (a : ArbPt) (w : Waiter) : ArbPt := { last := w.vit.toNat, given := kupd 0 a.given (grantKey w) (· + 1) }

/-- The key of an arbitration point: seam directions, bundle directions, slice inputs (R231). -/
def Hop.key : Hop → Nat
  | .seam r => r
  | .dir r => 16 + r
def sliceKey (g : Nat) : Nat := 256 + g

/-! ### Messages -/

def Dev.onMesh (d : Dev) (f : Mesh → Mesh) : Dev := { d with mesh := f d.mesh }

/-- The key of a pair of endpoints. -/
def Msg.pair (m : Msg) : Nat := m.ends.1.num * 65536 + m.ends.2.num

/-- Send a message: it takes the next 10-bit sequence number of its pair and the priority of its request (R217, R218). -/
def Dev.send (d : Dev) (m : Msg) : Dev :=
  let n := kget 0 d.mesh.seq m.pair
  let high := d.portHigh m.by' (vitOfAddr (m.line * 128))
  { d with msgs := d.msgs ++ [{ m with seq := BitVec.ofNat 10 n, high := high }], mesh := { d.mesh with seq := kset d.mesh.seq m.pair ((n + 1) % 1024) } }

/-- The oldest message in flight of a kind for a line and core. -/
def Dev.flying (d : Dev) (k : MsgKind) (line : Nat) (c : Option CoreId) : Option Msg :=
  d.msgs.find? (fun m => m.kind == k && m.line == line && m.core == c)

/-- Whether two messages are kept in order by R217: one pair, and both requests, both of the XIO channel, or both FWD or RSP. -/
def Msg.ordered (a b : Msg) : Bool :=
  let g (m : Msg) : Nat := match m.vc with | some .req => 1 | some .xio => 2 | some _ => 3 | none => 0
  a.pair == b.pair && g a == g b

/-- Whether a message may arrive now: those before it in its order have, a path carries traffic, no seam of it pauses (R217, R219, R223), and of requests
stalled at a slice's input it is the one whose turn it is (R184, R231). -/
def Dev.mayTake (d : Dev) (m : Msg) : Bool :=
  let first := (d.msgs.takeWhile (fun n => n != m)).all (fun n => !n.ordered m)
  let way := match d.pathOf m with
    | some p => p.all (fun h => match h with
        | .seam r => decide ((d.seam r).pauseEnd ≤ (d.die (r / 2)).root)
        | .dir _ => true)
    | none => false
  let g := sliceAt m.line
  let ws := d.msgs.filter (fun n => n.stalled && sliceAt n.line == g)
  m.vc.isNone || first && way && (!m.stalled || d.choose (kget {} d.mesh.arb (sliceKey g)) (ws.map (·.waiter)) == some m.waiter)

/-- A message arrives: it is no longer in flight, and the points of its path have served its requester (R231). -/
def Dev.taken (d : Dev) (m : Msg) : Dev :=
  let pts := if m.vc.isNone then [] else ((d.pathOf m).getD []).map Hop.key ++ (if m.vc == some .req then [sliceKey (sliceAt m.line)] else [])
  { d with msgs := delFirst (fun n => n == m) d.msgs,
           mesh := { d.mesh with arb := pts.foldl (fun a k => kupd {} a k (fun t => t.served m.waiter)) d.mesh.arb } }

/-- Take the oldest message of a kind for a line and core out of flight. -/
def Dev.take (d : Dev) (k : MsgKind) (line : Nat) (c : Option CoreId) : Dev :=
  match d.flying k line c with
  | some m => d.taken m
  | none => d

/-- Whether a message of a kind may be taken by its receiver: the one in flight, or one that no unit of the model sent. -/
def Dev.arrives (d : Dev) (k : MsgKind) (line : Nat) (c : Option CoreId) : Bool := ((d.flying k line c).map d.mayTake).getD true

/-- A request finds its slice's input closed (R184): it waits there, one of those the point chooses among. -/
def Dev.stall (d : Dev) (k : MsgKind) (line : Nat) (c : Option CoreId) : Dev :=
  match d.flying k line c with
  | some m => { d with msgs := updFirst (fun n => n == m) (fun n => { n with stalled := true }) d.msgs }
  | none => d

end Sys2Proof.Machine
end

