-- ==== Sys2Proof/Machine/Gal.lean ====
section
/-! DEFINITION. The lines of the Gallery and of the L1s, streams (R171), and the net effect of cacheless reads and
writes of memory (R181, R186, R188). -/

namespace Sys2Proof.Machine

/-! ### Lines -/

def Dev.gline (d : Dev) (line : Nat) : Option GLine := kfind (d.slice (sliceOf line)).lines line
def Dev.setGline (d : Dev) (line : Nat) (g : GLine) : Dev :=
  d.setSlice (sliceOf line) (fun s => { s with lines := kset s.lines line g })
def Dev.updGline (d : Dev) (line : Nat) (f : GLine → GLine) : Dev :=
  match d.gline line with
  | some g => d.setGline line (f g)
  | none => d
def Dev.delGline (d : Dev) (line : Nat) : Dev :=
  d.setSlice (sliceOf line) (fun s => { s with lines := kdel s.lines line })
def DirSt.transient : DirSt → Bool
  | .fill | .sInv | .oRs | .oRi | .hBi => true
  | _ => false

/-- The lines of slice `g` in a set. -/
def Dev.inSet (d : Dev) (g set : Nat) : List (Nat × GLine) := (d.slice g).lines.filter (fun e => setOf e.1 == set)

/-- Most recent and least recent positions of a set (R170). -/
def mruPos (l : List (Nat × GLine)) : Int := l.foldl (fun a e => max a (e.2.used + 1)) 0
def lruPos (l : List (Nat × GLine)) : Int := l.foldl (fun a e => min a (e.2.used - 1)) 0

/-- The least recent eligible victim of a set (R170): not pinned, not busy, not transient. -/
def victimOf (l : List (Nat × GLine)) : Option (Nat × GLine) :=
  (l.filter (fun e => !e.2.pinned && e.2.ops == 0 && !e.2.st.transient)).foldl
    (fun b e => match b with
      | none => some e
      | some v => if e.2.used < v.2.used then some e else some v) none

/-- A way of the line's set that no line holds. -/
def Dev.freeWay (d : Dev) (line : Nat) : Option Nat :=
  let g := sliceOf line
  let ls := d.inSet g (setOf line)
  (d.cacheWays g (setOf line)).find? (fun w => !ls.any (fun e => e.2.way == w))

/-- Bytes of a natural as a line. -/
def lineOf (l : List Byte) : Line := BitVec.ofNat 1024 (leNat l)
/-- The bytes of a line. -/
def lineBytes (d : Line) : List Byte := leBytes d.toNat 128

/-- A line's bits under a byte mask (R188). -/
def byteMask (m : BitVec 128) : Line :=
  (bits m).foldl (fun a i => a ||| BitVec.ofNat 1024 (255 * 2 ^ (8 * i))) 0
/-- Merge masked bytes into a line. -/
def mergeLine (old new : Line) (m : BitVec 128) : Line := (old &&& ~~~(byteMask m)) ||| (new &&& byteMask m)
/-- Poison after a masked write: a granule wholly written is clean (R179, R356). -/
def mergePoison (p : BitVec 2) (m : BitVec 128) : BitVec 2 :=
  let full (h : Nat) : Bool := (m >>> (64 * h)).setWidth 64 == BitVec.allOnes 64
  putBit (putBit p 0 (p.getLsbD 0 && !full 0)) 1 (p.getLsbD 1 && !full 1)

/-- A line's HBM contents and poison. -/
def Mems.hbmLine (m : Mems) (line : Nat) : Line × BitVec 2 :=
  (lineOf (m.bytes .hbm (line * 128) 128),
    putBit (putBit (0 : BitVec 2) 0 (m.poison.contains (line * 2))) 1 (m.poison.contains (line * 2 + 1)))

/-- Open the row of a line's two bursts: an activate, before which the postponed refreshes go, is counted where another row, or none, was
open (R141, R150, R164). -/
def Dev.openRow (d : Dev) (line : Nat) : Dev := d.activate (sliceOf line) (localLine line * 128)

/-- Bursts of a line read, written and read-modify-written at its controller are counted, the row they need opened (R144, R164, log 63). -/
def Dev.bursts (d : Dev) (line rd wr rmw : Nat) : Dev :=
  let v := (vitOfAddr (line * 128)).toNat
  let add (d : Dev) (sub n : Nat) : Dev := if n == 0 then d else d.count 0x8014 sub v n
  add (add (add (d.openRow line) 1 rd) 2 wr) 3 rmw

/-- Forget the controller's deliveries of some bursts of a line, written or taken since. -/
def Dev.dropRet (d : Dev) (line : Nat) (hs : List Nat) : Dev :=
  let b := localLine line * 2
  let q := d.hpc (sliceOf line) (pcOf (b * 64))
  if hs.any (fun h => (kfind q.ret (b + h)).isSome) then
    d.setHpc (sliceOf line) (pcOf (b * 64)) (fun q => { q with ret := hs.foldl (fun r h => kdel r (b + h)) q.ret })
  else d
/-- The granules of a line that its controller has delivered poisoned (R147). -/
def Dev.retPoison (d : Dev) (line : Nat) : BitVec 2 :=
  let b := localLine line * 2
  let q := d.hpc (sliceOf line) (pcOf (b * 64))
  (List.range 2).foldl (fun (m : BitVec 2) h => match kfind q.ret (b + h) with | some (_, true) => putBit m h true | _ => m) 0

/-- Write a line and its poison to HBM, two whole bursts. -/
def X.wbLine (x : X) (line : Nat) (data : Line) (poison : BitVec 2) : X :=
  let x := x.on (fun d => (d.bursts line 0 2 0).dropRet line [0, 1])
  let x := x.putBytes .hbm (line * 128) (lineBytes data)
  (x.op (.mark false (line * 2) (poison.getLsbD 0))).op (.mark false (line * 2 + 1) (poison.getLsbD 1))

/-- The half of a byte mask that falls on a burst of the line. -/
def halfMask (m : BitVec 128) (h : Nat) : BitVec 64 := (m >>> (64 * h)).setWidth 64
/-- Bursts of a line that a masked write touches without covering them: each is a read-modify-write (R144). -/
def partBursts (m : BitVec 128) : Nat :=
  ((List.range 2).filter (fun h => halfMask m h != 0 && halfMask m h != BitVec.allOnes 64)).length
/-- Bursts of a line that a masked write covers. -/
def fullBursts (m : BitVec 128) : Nat := ((List.range 2).filter (fun h => halfMask m h == BitVec.allOnes 64)).length

/-- Write masked bytes of a line to HBM (R144): whole bursts directly, others as read-modify-writes. `bad` marks granules written poisoned. -/
def X.wbMasked (x : X) (line : Nat) (data : Line) (mask : BitVec 128) (bad : BitVec 2 := 0) : X :=
  let (old, p) := x.mem.hbmLine line
  let k := partBursts mask
  let x := x.on (fun d => (d.bursts line k (k + fullBursts mask) k).dropRet line
    ((List.range 2).filter (fun h => halfMask mask h == BitVec.allOnes 64)))
  let x := x.putBytes .hbm (line * 128) (lineBytes (mergeLine old data mask))
  let p := mergePoison p mask ||| bad
  (x.op (.mark false (line * 2) (p.getLsbD 0))).op (.mark false (line * 2 + 1) (p.getLsbD 1))

/-- Read a line from HBM: two bursts. -/
def X.rdLine (x : X) (line : Nat) : X × Line × BitVec 2 :=
  let (data, p) := x.mem.hbmLine line
  (x.on (fun d => d.bursts line 2 0 0), data, p)

/-- Apply a combined operation to the bursts of a line in HBM as read-modify-writes (R178, R144); on a poisoned granule none is performed (R356).
The old values by lane, none where poison stopped it. -/
def X.rmwLine (x : X) (line : Nat) (ops : List ElemOp) : X × Option (List (Nat × Nat)) :=
  let (data, p) := x.mem.hbmLine line
  let k := ((ops.map (fun e => e.off.toNat / 64)).dedup).length
  if ops.any (fun e => p.getLsbD (e.off.toNat / 64)) then (x, none)
  else
    let (new, old) := elemsApply ops data
    let x := x.on (fun d => d.bursts line k k k)
    (x.putBytes .hbm (line * 128) (lineBytes new), some old)

/-! ### L1 lines -/

def Dev.l1 (d : Dev) (c : CoreId) (line : Nat) : Option L1Line := kfind (d.core c).l1 line
def Dev.l1St (d : Dev) (c : CoreId) (line : Nat) : L1St := ((d.l1 c line).map (·.st)).getD .i
def Dev.setL1 (d : Dev) (c : CoreId) (line : Nat) (l : L1Line) : Dev :=
  d.setCore c (fun k => { k with l1 := kset k.l1 line l })
def Dev.delL1 (d : Dev) (c : CoreId) (line : Nat) : Dev := d.setCore c (fun k => { k with l1 := kdel k.l1 line })

/-- Remove a core's copy of a line: a waiting GetM from S becomes one from I (R185, Inv). -/
def Dev.dropL1 (d : Dev) (c : CoreId) (line : Nat) : Dev :=
  match d.l1 c line with
  | some l => match l.st with
    | .smD => d.setL1 c line { l with st := .imD }
    | .isD | .imD => d
    | _ => d.delL1 c line
  | none => d

/-- The cores a sharer record names (R183). -/
def Sharers.list (s : Sharers) : List CoreId :=
  match s.vits with
  | some m => (vitsOf m).flatMap (fun v => (coresOfVit v).map (BitVec.ofNat 9))
  | none => s.cores

/-- Add a core to a sharer record (R183). -/
def Sharers.add (s : Sharers) (c : CoreId) : Sharers :=
  match s.vits with
  | some m => { s with vits := some (putBit m (vitOfCore c).toNat true) }
  | none =>
    if s.cores.contains c then s
    else if s.cores.length < 4 then { s with cores := s.cores ++ [c] }
    else { s with cores := [], vits := some ((s.cores ++ [c]).foldl (fun m k => putBit m (vitOfCore k).toNat true) 0) }

/-! ### Cacheless access, as its net effect

A cacheless agent's request takes its turn at the home within one command: the copies that stand in its way are recalled or removed as R186 says,
operations accepted before it are performed, and what is in flight for the line is brought up to date, so that no later delivery undoes it. -/

/-- Whether a message carries a line's data to or from an L1. -/
def MsgKind.carries : MsgKind → Bool
  | .dataS | .dataE | .dataU | .dataM | .rspData | .putM => true
  | _ => false

/-- Perform the operations a slice has accepted on a line of a window (R176): its state afterwards is what a request accepted now meets. -/
def Dev.finishOps (d : Dev) (line : Nat) : Dev :=
  match d.gline line with
  | some g =>
    if g.ops == 0 then d
    else
      let (data, ops) := finishLine line (d.slice (sliceOf line)).ops g.data g.poison
      (d.setSlice (sliceOf line) (fun s => { s with ops := ops })).setGline line { g with data := data, dirty := true }
  | none => d

/-- A scratchpad line's contents and poison. -/
def Mems.padLine (m : Mems) (line : Nat) : Line × BitVec 2 :=
  (lineOf (m.bytes .pad (line * 128) 128),
    putBit (putBit (0 : BitVec 2) 0 (m.padPoison.contains (line * 2))) 1 (m.padPoison.contains (line * 2 + 1)))

/-- Perform the operations a slice has accepted on a scratchpad line. -/
def X.finishPad (x : X) (line : Nat) : X :=
  let ops := (x.dev.slice (sliceAt line)).ops
  if ops.any (fun o => o.line == line && !o.todo.isEmpty) then
    let (data, po) := x.mem.padLine line
    let (data, ops) := finishLine line ops data po
    (x.on (fun d => d.setSlice (sliceAt line) (fun s => { s with ops := ops }))).putBytes .pad (line * 128) (lineBytes data)
  else x

/-- Perform the operations accepted on the scratchpad lines of a range. -/
def X.finishPads (x : X) (a n : Nat) : X :=
  if n == 0 then x else (List.range ((a + n - 1) / 128 - a / 128 + 1)).foldl (fun (y : X) i => y.finishPad (a / 128 + i)) x

/-- Bring masked bytes into every copy of a line: the Gallery's, the L1s' and those in flight. Bytes that come before the host's answer stand
against it. -/
def Dev.mergeAll (d : Dev) (line : Nat) (new : Line) (mask : BitVec 128) (bad : BitVec 2) : Dev :=
  let p (q : BitVec 2) : BitVec 2 := mergePoison q mask ||| bad
  let d := { d with
             msgs := d.msgs.map (fun (m : Msg) => if m.line == line && m.kind.carries then { m with data := mergeLine m.data new mask, poison := p m.poison } else m),
             cores := d.cores.map (fun (c : Nat × Core) => (c.1, { c.2 with l1 := c.2.l1.map (fun (e : Nat × L1Line) =>
      if e.1 == line then (e.1, { e.2 with data := mergeLine e.2.data new mask, poison := p e.2.poison }) else e) })) }
  d.updGline line (fun g => { g with data := mergeLine g.data new mask, dirty := true, poison := p g.poison,
                                     wr := if g.st == .hBi then g.wr ||| mask else g.wr })

/-- Change the kind of the messages of a kind in flight to a core for a line. -/
def Dev.turn (d : Dev) (k k' : MsgKind) (line : Nat) (c : CoreId) : Dev :=
  { d with msgs := d.msgs.map (fun (m : Msg) => if m.kind == k && m.line == line && m.core == some c then { m with kind := k' } else m) }

/-- The latest contents of a line whose owner holds it or is giving it up: an answer or a release in flight, the owner's line, or the Gallery's. -/
def Dev.ownData (d : Dev) (line : Nat) (g : GLine) : Line × BitVec 2 :=
  match d.msgs.find? (fun m => m.line == line && (m.kind == .rspData || m.kind == .putM)) with
  | some m => (m.data, m.poison)
  | none =>
    match g.owner.bind (fun c => d.l1 c line) with
    | some l => if l.st == .m then (l.data, l.poison) else (g.data, g.poison)
    | none => (g.data, g.poison)

/-- Recall an owner's copy for a cacheless request (R186, OL): to S for a read, to I for a write. An owner whose release is in flight is
answered; one whose data is still on its way keeps its place behind a read. -/
def Dev.recallNow (d : Dev) (line : Nat) (g : GLine) (c : CoreId) (forWrite : Bool) : Dev :=
  let (data, po) := d.ownData line g
  let dirty := g.dirty || data != g.data || po != g.poison
  match d.l1St c line with
  | .xiA =>
    let d := (d.turn .putE .putAck line c).turn .putM .putAck line c
    d.setGline line { g with st := .i, owner := none, sh := {}, data := data, poison := po, dirty := dirty }
  | .isD =>
    let d := d.turn .dataE (if forWrite then .dataU else .dataS) line c
    d.setGline line { g with st := if forWrite then .i else .s, owner := none, sh := if forWrite then {} else { cores := [c] } }
  | .imD | .smD => d
  | .i => d.setGline line { g with st := .i, owner := none, sh := {} }
  | _ =>
    let d := if forWrite then d.delL1 c line
      else match d.l1 c line with
        | some l => d.setL1 c line { l with st := .s }
        | none => d
    d.setGline line { g with st := if forWrite then .i else .s, owner := none, sh := if forWrite then {} else { cores := [c] },
                             data := data, poison := po, dirty := dirty }

/-- Remove the copies of a shared line for a cacheless write (R186, S): each Inv is counted; data on its way to a sharer serves its load alone;
a host copy is asked for, and the line waits for its answer. -/
def Dev.invNow (d : Dev) (line : Nat) (g : GLine) : Dev :=
  let v := (vitOfAddr (line * 128)).toNat
  let d := g.sh.list.foldl (fun (e : Dev) c => ((e.dropL1 c line).turn .dataS .dataU line c).count 0x8015 0xC v) d
  if g.sh.host then
    ((d.setGline line { g with st := .sInv, sh := {}, cur := none, acks := 0, bi := true }).send { kind := .biSnpInv, line }).count 0x8015 0xD v
  else d.setGline line { g with st := .i, sh := {} }

/-- What the host supplies for a line it holds exclusively, when a cacheless read meets it: a free value, none where it has not changed the line
(log 64). -/
def Dev.hostGives (d : Dev) (g : GLine) : Dev × GLine :=
  let (n, d) := d.draw
  match Config.hostCopy n with
  | some data => (d, { g with data := mergeLine g.data data (~~~g.wr), dirty := true, wr := BitVec.allOnes 128 })
  | none => (d, { g with wr := BitVec.allOnes 128 })

/-- Bring a present line to what a cacheless read or write may use (R186, RdU and WrU). -/
def X.settle (x : X) (line : Nat) (forWrite : Bool) : X :=
  let x := x.on (fun d => d.finishOps line)
  match x.dev.gline line with
  | none => x
  | some g =>
    match g.st with
    | .ol =>
      match g.owner with
      | some c => x.on (fun d => d.recallNow line g c forWrite)
      | none => x
    | .s => if forWrite then x.on (fun d => d.invNow line g) else x
    | .oh =>
      let v := (vitOfAddr (line * 128)).toNat
      if forWrite then
        x.on (fun d => ((d.setGline line { g with st := .hBi, sh := {}, cur := none, acks := 0, bi := true, wr := 0 }).send
          { kind := .biSnpInv, line }).count 0x8015 0xD v)
      else
        x.on (fun d =>
          let (d, g) := d.hostGives g
          (d.setGline line { g with st := .s, sh := { host := true }, wr := 0 }).count 0x8015 0xD v)
    | .hBi =>
      if forWrite || g.wr == BitVec.allOnes 128 then x
      else x.on (fun d =>
        let (d, g) := d.hostGives g
        d.setGline line g)
    | _ => x

/-- What a cacheless read of a settled line returns: in FILL the contents of HBM, under a recall the owner's. -/
def X.lineNow (x : X) (line : Nat) (g : GLine) : Line × BitVec 2 :=
  match g.st with
  | .fill => x.mem.hbmLine line
  | .ol | .oRs | .oRi => x.dev.ownData line g
  | _ => (g.data, g.poison)

/-- A cacheless write of a present line: settled, then the bytes in every copy; in FILL they go to HBM, which the fill reads. -/
def X.writeNow (x : X) (line : Nat) (new : Line) (mask : BitVec 128) (bad : BitVec 2) : X :=
  let x := x.settle line true
  match x.dev.gline line with
  | some g => if g.st == .fill then x.wbMasked line new mask bad else x.on (fun d => d.mergeAll line new mask bad)
  | none => x

/-- Free an unshared line, written back if it is dirty (R186, Evict). -/
def X.freeLine (x : X) (line : Nat) (g : GLine) (wb : Bool) : X :=
  let x := if g.dirty && wb then x.wbLine line g.data g.poison else x
  let x := if g.pinned then x.on (fun d => d.setVit (vitOfAddr (line * 128)) (fun v => { v with pinned := v.pinned - 128 })) else x
  x.on (fun d => d.delGline line)

/-- Evict a line (R186, Evict): free at once when no copy is left to wait for, else begun, to end when the answers awaited are in. -/
def X.dropLine (x : X) (line : Nat) (wb : Bool) : X :=
  let x := x.settle line true
  match x.dev.gline line with
  | none => x
  | some g =>
    let r : HomeReq := { kind := .evict wb, port := .dma 0 }
    match g.st, g.owner with
    | .i, _ => if g.ops == 0 then x.freeLine line g wb else x.on (fun d => d.setGline line { g with queue := g.queue ++ [r] })
    | .ol, some c => x.on (fun d => (d.setGline line { g with st := .oRi, cur := some r }).send { kind := .recallI, line, core := some c })
    | _, _ =>
      x.on (fun d => d.setGline line (if g.st.transient && g.cur.isNone then { g with cur := some r } else { g with queue := g.queue ++ [r] }))

/-- Allocate an absent line, evicting the victim (R170): with its HBM contents, or in FILL while the victim's copies are awaited; false when no line of
the set is eligible. `low` places it at the least recent position. -/
def X.allocNow (x : X) (line : Nat) (low : Bool) : X × Bool :=
  let g := sliceOf line
  let ls := x.dev.inSet g (setOf line)
  let pos := if low then lruPos ls else mruPos ls
  match x.dev.freeWay line with
  | some w =>
    let r := x.rdLine line
    (r.1.on (fun d => d.setGline line { way := w, data := r.2.1, poison := r.2.2, used := pos }), true)
  | none =>
    match victimOf ls with
    | none => (x, false)
    | some (k, vg) =>
      let x := x.dropLine k true
      if (x.dev.gline k).isNone then
        let r := x.rdLine line
        (r.1.on (fun d => d.setGline line { way := vg.way, data := r.2.1, poison := r.2.2, used := pos }), true)
      else (x.on (fun d => (d.setGline line { way := vg.way, st := .fill, used := pos }).send { kind := .hbmRead, line }), true)

/-- Count a lookup of a window line (R194, R175). -/
def Dev.lookup (d : Dev) (line : Nat) : Dev :=
  let v := vitOfAddr (line * 128)
  let d := d.count 0x8015 1 v.toNat
  match d.gline line with
  | some g =>
    let d := d.count 0x8015 2 v.toNat
    if g.pinned then d
    else (d.count 0x8015 3 v.toNat).count 0x8015 4 v.toNat |>.setVit v (fun t =>
      { t with thrash := { t.thrash with lookups := t.thrash.lookups + 1, hits := t.thrash.hits + 1 } })
  | none => (d.count 0x8015 3 v.toNat).setVit v (fun t =>
      { t with thrash := { t.thrash with lookups := t.thrash.lookups + 1 } })

/-- Whether a die is fenced (R360). -/
def Dev.isFenced (d : Dev) (die : Nat) : Bool := (kfind d.rel.fenced die).isSome

/-! ### Streams (R171) -/

/-- Gallery cycles of a die: half its root clock of 6.6 GHz, quartered again (R8, R323). -/
def Dev.galCycle (d : Dev) (die : Nat) : Nat := (d.die die).root / 4

/-- Whether an entry may be replaced first: a free one, else the live one that advanced least recently. -/
def olderEnt (a b : StreamEnt) : Bool :=
  if a.live != b.live then !a.live else decide (a.moved < b.moved)

/-- Index of the entry to take: the least recently freed or moved. -/
def pickEnt (l : List StreamEnt) : Nat :=
  (l.zipIdx.foldl (fun (b : Option (StreamEnt × Nat)) e => match b with
    | none => some e
    | some w => if olderEnt e.1 w.1 then some e else some w) none).elim 0 (·.2)

/-- An entry at a time: one that has not advanced for 4,096 Gallery cycles has been freed (R171). -/
def StreamEnt.aged (e : StreamEnt) (now : Nat) : StreamEnt :=
  if e.live && decide (e.moved + 4096 ≤ now) then { e with live := false, moved := e.moved + 4096 } else e

/-- One request of a port to a channel-local line: the entries after it, and whether it is of a stream (R171). -/
def streamStep (l : List StreamEnt) (loc now minLines : Nat) : List StreamEnt × Bool :=
  let l := l.map (fun e => e.aged now)
  match l.zipIdx.find? (fun e => e.1.live && e.1.next == loc) with
  | some (e, i) =>
    (setNth l i { e with next := loc + 1, advances := e.advances + 1, moved := now }, decide (minLines ≤ e.advances + 1))
  | none =>
    let fresh : StreamEnt := { next := loc + 1, advances := 0, moved := now, live := true }
    if l.length < 16 then (l ++ [fresh], false) else (setNth l (pickEnt l) fresh, false)

/-- The entries of a port in a slice. -/
def Slice.port (s : Slice) (p : MPort) : List StreamEnt := ((s.streams.find? (fun e => e.1 == p)).map (·.2)).getD []
def Slice.setPort (s : Slice) (p : MPort) (l : List StreamEnt) : Slice :=
  { s with streams := (p, l) :: s.streams.filter (fun e => e.1 != p) }

/-- Take note of a request for its stream, and say whether it belongs to one. -/
def Dev.stream (d : Dev) (line : Nat) (p : MPort) : Dev × Bool :=
  let g := sliceOf line
  let v := vitOfAddr (line * 128)
  let now := d.galCycle (dieOfVit v)
  let (l, s) := streamStep ((d.slice g).port p) (localLine line) now (d.vset v 7 5)
  (d.setSlice g (fun t => t.setPort p l), s && d.vset v 7 4 == 1)

/-- One request of a port for its streams: a further piece of the line
the port asked for last neither starts nor advances an entry. Whether it belongs to a stream. -/
def Dev.pieceStream (d : Dev) (line : Nat) (p : Option MPort) : Dev × Bool :=
  match p with
  | none => (d, false)
  | some p =>
    let now := d.galCycle (dieOfVit (vitOfAddr (line * 128)))
    match (((d.slice (sliceOf line)).port p).map (fun e => e.aged now)).find? (fun e => e.live && e.next == localLine line + 1) with
    | some e => (d, decide (d.vset (vitOfAddr (line * 128)) 7 5 ≤ e.advances) && d.vset (vitOfAddr (line * 128)) 7 4 == 1)
    | none => d.stream line p

/-- A line that a request has found becomes the most recent of its set (R170). -/
def Dev.recent (d : Dev) (line : Nat) : Dev :=
  let ls := d.inSet (sliceOf line) (setOf line)
  d.updGline line (fun g => { g with used := mruPos ls })

/-- The error record of an access whose home is on a fenced die (R21). -/
def Dev.fencedRec (d : Dev) (line : Nat) : Dev :=
  let v := vitOfAddr (line * 128)
  d.logErr { ukind := 3, unit := sliceAt line, cls := 3, outcome := 1, addr := line * 128, akind := 1,
             vit := some v, die := dieOfVit v }

/-- The line brought into its slice for a read, or passed by where a stream or a full set leaves it out (R170, R171, R175). -/
def X.readWay (x : X) (line : Nat) (past : Bool) : X × Bool :=
  match x.dev.gline line with
  | some _ => ((x.settle line false).on (fun d => d.recent line), true)
  | none => if past then (x.on (fun d => d.count 0x8015 5 (vitOfAddr (line * 128)).toNat), false) else x.allocNow line false

/-- The bytes a read answers with, once the line's place is settled. -/
def X.readEnd (x : X) (line : Nat) (ok : Bool) : X × Line × BitVec 2 :=
  let x := if ok then x else x.on (fun d => d.count 0x8015 6 (vitOfAddr (line * 128)).toNat)
  match x.dev.gline line with
  | some g => (x, x.lineNow line g)
  | none => x.rdLine line

/-- The net effect of RdU of a port on a window line: its data and poison (R186, R170, R171); a fenced home answers poison
(R360), with a record (R21). No port is named for accesses that no master port of R171 makes. -/
def X.readLine (x : X) (line : Nat) (port : Option MPort := none) : X × Line × BitVec 2 :=
  if x.dev.isFenced (dieOfVit (vitOfAddr (line * 128))) then (x.on (fun d => d.fencedRec line), 0, 3)
  else
    let s := x.dev.pieceStream line port
    let w := ({ x with dev := s.1.lookup line } : X).readWay line s.2
    w.1.readEnd line w.2

/-- The line brought into its slice for a write: a hit, an allocation, or passed by (R170, R188). -/
def X.writeWay (x : X) (line : Nat) (bypass past low : Bool) : X × Bool :=
  match x.dev.gline line with
  | some _ => (x.on (fun d => d.recent line), true)
  | none => if bypass then (x, past) else x.allocNow line low

/-- The net effect of WrU of a port on a window line (R186, R188, R171). `bad` marks the written granules poisoned (R356, DMA). -/
def X.writeLine (x : X) (line : Nat) (data : Line) (mask : BitVec 128) (hint : Nat) (bad : BitVec 2 := 0)
    (port : Option MPort := none) : X :=
  if x.dev.isFenced (dieOfVit (vitOfAddr (line * 128))) then x.on (fun d => d.fencedRec line)
  else
    let s := if hint == 1 || hint == 2 then (x.dev, false) else x.dev.pieceStream line port
    let past := s.2 && hint == 0 && mask == BitVec.allOnes 128
    let w := ({ x with dev := s.1.lookup line } : X).writeWay line (hint == 3 || past) past (hint == 2)
    match w.1.dev.gline line with
    | some _ => w.1.writeNow line data mask bad
    | none => (if w.2 then w.1 else w.1.on (fun d => d.count 0x8015 6 (vitOfAddr (line * 128)).toNat)).wbMasked line data mask bad

/-- The net effect of AtomRed of a port on a window line (R176, R178): the old values by lane, none where poison stopped it (R356). A line without an
eligible way is operated on at its HBM controller. -/
def X.atomAt (x : X) (line : Nat) (ops : List ElemOp) (port : Option MPort := none) : X × Option (List (Nat × Nat)) :=
  if x.dev.isFenced (dieOfVit (vitOfAddr (line * 128))) then (x.on (fun d => d.fencedRec line), none)
  else
    let w := ({ x with dev := (x.dev.pieceStream line port).1.lookup line } : X).writeWay line false false false
    let x := if w.2 then w.1.settle line true else w.1
    match x.dev.gline line with
    | some g =>
      let (data, po) := x.lineNow line g
      if ops.any (fun e => po.getLsbD (e.off.toNat / 64)) then (x, none)
      else
        let (new, old) := elemsApply ops data
        let mask : BitVec 128 := ops.foldl (fun m e => m ||| BitVec.ofNat 128 ((2 ^ (if e.wide then 8 else 4) - 1) * 2 ^ e.off.toNat)) 0
        (x.writeNow line new mask 0, some old)
    | none =>
      let v := (vitOfAddr (line * 128)).toNat
      (x.on (fun d => (d.count 0x8015 6 v).count 0x8015 8 v)).rmwLine line ops

/-- The pieces of a byte range by 128-byte line: line number, first byte within it, and length. -/
def linePieces (a n : Nat) : List (Nat × Nat × Nat) :=
  if n = 0 then []
  else (List.range ((a + n - 1) / 128 - a / 128 + 1)).map (fun i =>
    let l := a / 128 + i
    let lo := max a (l * 128)
    let hi := min (a + n) (l * 128 + 128)
    (l, lo - l * 128, hi - lo))

/-- Read bytes of device memory as a cacheless agent: the bytes, and whether any granule read was poisoned. Bytes that
are not populated read 0; their validity is the caller's check (R29). -/
def X.readBytes (x : X) (a n : Nat) (port : Option MPort := none) : X × List Byte × Bool :=
  match x.dev.place a with
  | .pad v _ =>
    if x.dev.isFenced (dieOfVit v) then (x.on (fun d => d.fencedRec (a / 128)), List.replicate n 0, true)
    else
      let x := x.finishPads a n
      (x, x.mem.bytes .pad a n, (List.range ((a + n - 1) / 64 - a / 64 + 1)).any (fun i => x.mem.padPoison.contains (a / 64 + i)))
  | _ =>
    (linePieces a n).foldl (fun (acc : X × List Byte × Bool) p =>
      let (y, data, poison) := acc.1.readLine p.1 port
      let bad := (poison.getLsbD 0 && decide (p.2.1 < 64)) || (poison.getLsbD 1 && decide (64 < p.2.1 + p.2.2))
      (y, acc.2.1 ++ ((lineBytes data).drop p.2.1).take p.2.2, acc.2.2 || bad)) (x, [], false)

/-- Whether a masked range covers granule `h` of a line. -/
def coversGran (lo n h : Nat) : Bool := lo < 64 * (h + 1) && 64 * h < lo + n

/-- Write bytes of device memory as a cacheless agent; the granules touched that `bad` names are written poisoned. -/
def X.writeBytes (x : X) (a : Nat) (l : List Byte) (hint : Nat := 0) (bad : Nat → Bool := fun _ => false)
    (port : Option MPort := none) : X :=
  match x.dev.place a with
  | .pad v _ =>
    if x.dev.isFenced (dieOfVit v) then x.on (fun d => d.fencedRec (a / 128))
    else
      let x := (x.finishPads a l.length).putBytes .pad a l
      (List.range ((a + l.length - 1) / 64 - a / 64 + 1)).foldl (fun y i =>
        let g := a / 64 + i
        if bad g then y.op (.mark true g true)
        else if a ≤ g * 64 && g * 64 + 64 ≤ a + l.length then y.op (.mark true g false) else y) x
  | .win .. =>
    (linePieces a l.length).foldl (fun y p =>
      let part := (l.drop (p.1 * 128 + p.2.1 - a)).take p.2.2
      let mask := BitVec.ofNat 128 ((2 ^ p.2.2 - 1) * 2 ^ p.2.1)
      let data := BitVec.ofNat 1024 (leNat part * 2 ^ (8 * p.2.1))
      let b : BitVec 2 := putBit (putBit 0 0 (bad (p.1 * 2) && coversGran p.2.1 p.2.2 0)) 1 (bad (p.1 * 2 + 1) && coversGran p.2.1 p.2.2 1)
      y.writeLine p.1 data mask hint b port) x
  | .hole => x

/-- A little-endian field of device memory. -/
def X.readNat (x : X) (a n : Nat) : X × Nat × Bool :=
  let (x, l, p) := x.readBytes a n
  (x, leNat l, p)

/-- A line as last performed, without any transfer. -/
def X.peekLine (x : X) (line : Nat) : Line :=
  let x := x.on (fun d => d.finishOps line)
  match x.dev.gline line with
  | some g => (x.lineNow line g).1
  | none => (x.mem.hbmLine line).1

/-- The word of up to 16 bytes within one line at an address, as last performed. -/
def X.peek (x : X) (a n : Nat) : Nat :=
  match x.dev.place a with
  | .pad .. => (x.finishPad (a / 128)).mem.nat .pad a n
  | _ => fld (x.peekLine (a / 128)).toNat (8 * (a % 128)) (8 * n)

end Sys2Proof.Machine
end

