-- ==== Sys2Proof/Machine/Job.lean ====
section
/-! DEFINITION. Completions (R269, R270), the squash of steps (R63, R290) and fault episodes (R357, R358). -/

namespace Sys2Proof.Machine

/-! ### Rings and completions -/

def Ring.sqBase (r : Ring) : Nat := fld r.cfg.toNat 84 44
def Ring.cqBase (r : Ring) : Nat := fld r.cfg.toNat 40 44
def Ring.log2 (r : Ring) : Nat := fld r.cfg.toNat 35 5
/-- E, the entries of either queue (R263). -/
def Ring.size (r : Ring) : Nat := 2 ^ r.log2
def Ring.type (r : Ring) : Nat := fld r.cfg.toNat 33 2
def Ring.prio (r : Ring) : Nat := fld r.cfg.toNat 31 2
def Ring.intrEn (r : Ring) : Bool := r.cfg.getLsbD 28
def Ring.engine (r : Ring) : Nat := fld r.cfg.toNat 27 1
def Ring.docentFed (r : Ring) : Bool := r.cfg.getLsbD 26
/-- CQ entries neither unreleased nor reserved (R266). -/
def Ring.cqFree (r : Ring) : Nat := r.size - diff32 r.cqTail r.cqHead - r.fetched.length

/-- Descriptor fields common to all types (R267). -/
def descSeq (raw : BitVec 512) : Word := (raw >>> 32).setWidth 32
def descOp (raw : BitVec 512) : Nat := fld raw.toNat 24 8
def descFlags (raw : BitVec 512) : Nat := fld raw.toNat 16 8
def descTag (raw : BitVec 512) : Nat := fld raw.toNat 0 16
/-- The INTR flag, bit 19 (R271, R282). -/
def descIntr (raw : BitVec 512) : Bool := raw.getLsbD 19

/-- A CQ entry (R269). -/
def cqEntry (seq detail tag opcode status : Nat) (phase : Bool) : Nat :=
  seq % 2 ^ 32 * 2 ^ 96 + detail % 2 ^ 32 * 2 ^ 64 + tag % 2 ^ 16 * 2 ^ 48 + opcode % 256 * 2 ^ 40 + status % 256 * 2 ^ 32
    + (if phase then 1 else 0)

/-- PHASE of CQ index i: 1 - (floor(i / E) mod 2) (R269). -/
def phaseOf (e : Nat) (i : Word) : Bool := i.toNat / e % 2 == 0

/-- Write one CQ entry at CQ_TAIL and advance it (R269); nothing is written to a queue on a fenced die (R358). -/
def X.postCq (x : X) (v : VitId) (r : Nat) (seq detail tag opcode status : Nat) (intr : Bool) : X :=
  let q := x.dev.ring v r
  let e := cqEntry seq detail tag opcode status (phaseOf q.size q.cqTail)
  let x := x.writeBytes (q.cqBase + 16 * (q.cqTail.toNat % q.size)) (leBytes e 16)
  let x := x.on (fun d => d.setRing v r (fun q => { q with cqTail := q.cqTail + 1 }))
  if intr && q.intrEn then x.on (fun d => d.onSrv (fun s => { s with intr := s.intr ++ [(v.toNat + 1, r)] })) else x

/-- Post the completions at the head of a ring that are decided, in SEQ order (R269). -/
def X.flushRing (x : X) (v : VitId) (r : Nat) : X :=
  (x.dev.ring v r).fetched.foldl (fun (y : X) _ =>
    match (y.dev.ring v r).fetched with
    | f :: rest => match f.done with
      | some (st, det) =>
        let y := y.on (fun d => d.setRing v r (fun q => { q with fetched := rest }))
        y.postCq v r f.seq.toNat det (descTag f.raw) (descOp f.raw) st (descIntr f.raw)
      | none => y
    | [] => y) x

/-- Decide a fetched descriptor's completion and post what is ready. -/
def X.complete (x : X) (v : VitId) (r : Nat) (seq : Word) (status detail : Nat) : X :=
  let x := x.on (fun d => d.setRing v r (fun q =>
    { q with fetched := updFirst (fun f => f.seq == seq && f.done.isNone) (fun f => { f with done := some (status, detail) }) q.fetched }))
  x.flushRing v r

/-- Post an event entry in ring 0 of every Vitrine of the tenancy whose ring 0 is enabled, or count it dropped (R270). -/
def X.ringEvent (x : X) (l : VitId) (status detail : Nat) : X :=
  (x.dev.tenancy l).foldl (fun (y : X) v =>
    let q := y.dev.ring v 0
    if q.st != .disabled then
      if 0 < q.cqFree then y.postCq v 0 (y.dev.cat.evNext - 1) detail 0 0xFF status true
      else y.on (fun d => d.count 0x801A 7 v.toNat)
    else y) x

/-! ### Steps -/

/-- The step that occupies a Vitrine: started, not SAVED (R275). -/
def Dev.stepOn (d : Dev) (v : VitId) : Option StepRec := d.srv.steps.find? (fun s => s.mask.getLsbD v.toNat && s.st != .saved)
/-- Whether two records are of one step: a ring runs its steps one at a time (R274). -/
def StepRec.same (s t : StepRec) : Bool := s.ringVit == t.ringVit && s.ring == t.ring && s.seq == t.seq
/-- PREEMPT of a STEP descriptor (R271). -/
def descPreempt (raw : BitVec 512) : Nat := fld raw.toNat 22 2
/-- A step asked to stop whose safe point is declared at once (R278): dispatch, issue and engine starts cease. -/
def StepRec.quiesces (s : StepRec) : Bool := s.stopAsked && descPreempt s.raw == 2
/-- A step asked to stop at its launch boundaries (R278). -/
def StepRec.holds (s : StepRec) : Bool := s.stopAsked && descPreempt s.raw == 1
/-- Whether a step's threads and engines may begin new work. -/
def StepRec.works (s : StepRec) : Bool := s.st == .running && s.ends.isEmpty && !s.quiesces
/-- Change a started step. -/
def Dev.setStep (d : Dev) (s : StepRec) (f : StepRec → StepRec) : Dev :=
  d.onSrv (fun q => { q with steps := updFirst (fun t => s.same t) f q.steps })

/-- Whether a block slot has no engine instruction queued or executing (R70). -/
def Engine.idle (e : Engine) (slot : Nat) : Bool :=
  !(e.queue.any (fun i => i.owner.slot == slot) || e.runs.any (fun r => r.ins.owner.slot == slot) ||
    (match e.xfer with | some (i, _) => i.owner.slot == slot | none => false) ||
    (match e.sign with | some i => i.owner.slot == slot | none => false))

/-- Whether a block slot's engine work is done, walker O's writes included (R35). -/
def Engine.quiet (e : Engine) (slot : Nat) : Bool := e.idle slot && !(e.tiles.any (fun t => t.ins.owner.slot == slot))

/-- A core after a squash: its blocks' threads and loads are gone; stores, atomics and engine instructions already issued complete, for which the blocks
they belong to stay behind with their banks, contexts and storage (R63). -/
def Core.squash (k : Core) : Core :=
  { k with slots := [], left := if k.slots.isEmpty then k.left else k.slots.filter (fun e => !k.eng.quiet e.1),
           ops := k.ops.filter (fun o => o.kind != .load), slot0 := none, issued := [], swap := none }

/-- End the work of a step on a Vitrine: its blocks leave the cores, its dispatcher stops (R63), and its remote operations
already sent are neither recalled nor retried (R290). -/
def Dev.squashVit (d : Dev) (v : VitId) : Dev :=
  let d := (coresOfVit v).foldl (fun e c => e.setCore (BitVec.ofNat 9 c) Core.squash) d
  let d : Dev := { d with fab := { d.fab with ops := d.fab.ops.map (fun o =>
    match o.src with
    | .ins _ => if o.v == v && o.first.isSome then { o with dead := true } else o
    | _ => o) } }
  d.setVit v (fun t => { t with disp := { t.disp with launches := [], cur := none, swapped := [], stopped := true } })

/-- Squash a step with an ending of R277; a SAVED step's contexts are discarded. -/
def Dev.squashStep (d : Dev) (s : StepRec) (status : Nat) : Dev :=
  let d := d.setStep s (fun t => { t with ends := if t.ends.contains status then t.ends else t.ends ++ [status],
                                          st := .running, saved := [] })
  (vitsOf s.mask).foldl (fun e v => e.squashVit v) d

/-- The records of a step that ends (R65, R66): the 16 lowest cores' are kept and counted in EXCEPTIONS, the others in EXCEPTIONS_DROPPED. -/
def Dev.countRecs (d : Dev) (recs : KMap ExcRec) : Dev :=
  recs.zipIdx.foldl (fun (e : Dev) p => e.count 0x8010 (if p.2 < 16 then 4 else 5) (p.1.1 / 16)) d

/-! ### Episodes -/

def Dev.job (d : Dev) (l : VitId) : Job := kget {} d.rel.jobs l.toNat
def Dev.setJob (d : Dev) (l : VitId) (f : Job → Job) : Dev := d.onRel (fun r => { r with jobs := kupd {} r.jobs l.toNat f })

/-- Whether a tenancy's rings fetch: no episode is open and none has left it unrestartable (R358). -/
def Dev.jobRuns (d : Dev) (l : VitId) : Bool := (d.job l).st == 0 || (d.job l).st == 3

/-- The rings of a Vitrine that hold state, by number. -/
def Dev.ringsOf (d : Dev) (v : VitId) : List Nat :=
  (d.srv.rings.filter (fun e => e.1 / 2048 == v.toNat)).map (fun e => e.1 % 2048)

/-- The error record of a request of a walker, a DMA ring, a media engine or the fabric ingress whose address is not valid (R29). The unit is none for DMA, and
the record's CLASS and OUTCOME are free values (log 78). -/
def Dev.addrErr (d : Dev) (v : VitId) (unit : Option (Nat × Nat)) (a seq : Nat) : Dev :=
  let (n, d) := d.draw
  let u := unit.getD ((Config.dmaUnit n).toNat % 256, (Config.dmaUnit n).toNat / 256)
  d.logErr { addr := a, akind := 1, vit := some v, die := dieOfVit v, ukind := u.1, unit := u.2, cls := (Config.classless n).toNat,
             outcome := (Config.addrOutcome n).toNat, stepSeq := seq }

/-- Whether a remote operation belongs to a DMA descriptor of a ring. -/
def RemOp.ofRing (o : RemOp) (v : VitId) (r : Nat) : Bool :=
  match o.src with
  | .dma k _ => o.v == v && k == r
  | _ => false

/-- The remote operations of a ring's descriptors when they are squashed (R290): those not sent are gone, those sent are neither recalled nor retried. -/
def Dev.squashOps (d : Dev) (v : VitId) (r : Nat) : Dev :=
  { d with fab := { d.fab with ops := (d.fab.ops.filter (fun o => !(o.ofRing v r && o.first.isNone))).map (fun o =>
    if o.ofRing v r then { o with dead := true } else o) } }

/-- Whether transfers of a DMA descriptor are still to be performed: operations sent, or lines of a range (R209, R290). -/
def Dev.transferring (d : Dev) (v : VitId) (r : Nat) (seq : Word) : Bool :=
  d.fab.ops.any (fun o => o.src == .dma r seq && o.v == v) || d.srv.ranges.any (fun g => g.ring == some (ringKey v r, seq))

/-- End every DMA or media request in progress on a tenancy's rings with a status, DETAIL the bytes or frames done
(R289, R290), and post it; a descriptor whose transfers are still to be performed ends with them (R210). -/
def X.endRequests (x : X) (l : VitId) (status : Nat) : X :=
  (x.dev.tenancy l).foldl (fun y v => (y.dev.ringsOf v).foldl (fun (z : X) r =>
    if (z.dev.ring v r).type == 0 then z
    else
      let z := z.on (fun d => d.squashOps v r)
      let busy (f : Fetched) : Bool := f.started && z.dev.transferring v r f.seq
      let z := z.on (fun d => d.setRing v r (fun q => { q with fetched := q.fetched.map (fun f =>
        match f.done with
        | some _ => f
        | none => if busy f then { f with ends := f.ends ++ [status] } else { f with done := some (status, if q.type == 2 then f.frames else f.moved) }) }))
      z.flushRing v r) y) x

/-- Open or join the fault episode of a tenancy (R358, step 1). When no step of it runs, it is REPAIRING at once. The
episode clears a halt (R418). -/
def X.episode (x : X) (l : VitId) (rec' cls : Nat) : X :=
  let st := (x.dev.job l).st
  if st == 1 || st == 2 || st == 4 || st == 5 then x
  else
    let x := x.on (fun d => ((d.setJob l (fun _ => { st := 1, rec', cls })).count 0x6050 1 l.toNat).postVit 0x0201 l l.toNat rec')
    let mine := x.dev.srv.steps.filter (fun s => (x.dev.tenancy l).contains s.leader)
    let x := mine.foldl (fun (y : X) s =>
      if s.st == .saved then
        let y := y.on (fun d => d.onSrv (fun q => { q with steps := delFirst (fun t => s.same t) q.steps }))
        (y.on (fun d => (d.countRecs s.recs).count 0x801A 1 s.leader.toNat)).complete s.ringVit s.ring s.seq 6 s.recs.length
      else y.on (fun d => d.squashStep s 6)) x
    let x := (x.endRequests l 6).on (fun d => (d.tenancy l).foldl (fun (e : Dev) v => e.setVit v (fun t => { t with halt := 0, haltCause := 0 })) d)
    if mine.any (fun s => s.st != .saved) then x else x.on (fun d => d.setJob l (fun j => { j with st := 2 }))

/-- A detected fault that is not corrected: its record, UNCORRECTED_FAULT, and the episode of the tenancy that holds the
Vitrine it names (R350, R357). -/
def X.uncorrected (x : X) (r : ErrRec) : X :=
  let x := x.on (fun d => d.logErr r)
  let n := x.dev.lastRec
  match r.vit with
  | some v =>
    let x := x.on (fun d => d.postVit 0x0200 v n r.cls)
    match (x.dev.vit v).leader with
    | some l => x.episode l n r.cls
    | none => x
  | none => x.on (fun d => d.post 0x0200 0 0 n r.cls)

/-- Withdraw a Vitrine (R25): its steps end WITHDRAWN, it becomes unassignable, its windows unpopulated; the change is
reported. -/
def X.withdraw (x : X) (v : VitId) : X :=
  let lead := (x.dev.vit v).leader
  let x := x.on (fun d => d.onRel (fun r => { r with withdrawn := putBit r.withdrawn v.toNat true }))
  let x := x.on (fun d => (d.vitState v .withdrawn).changed 8)
  let x := x.on (fun d => d.identChanged none 0x100008 d.vitsIn)
  match lead with
  | some l =>
    let x := match x.dev.stepOn v with
      | some s => x.on (fun d => d.squashStep s 0x0D)
      | none => x
    let x := x.ringEvent l 0x80 v.toNat
    x.on (fun d => d.setJob l (fun j => if j.st == 0 || j.st == 3 then { j with st := 4 } else j))
  | none => x

end Sys2Proof.Machine
end

