-- ==== Sys2Proof/Machine/Watch.lean ====
section
/-! DEFINITION. Trace entries (R420-R422), profile events (R424), watchpoints (R419) and the halt of a tenancy (R418). -/

namespace Sys2Proof.Machine

/-- TRACE_CONTROL of a Vitrine (R420). -/
def Dev.traceCtl (d : Dev) (v : VitId) : Nat := d.vacc v 0xD 5

/-- A trace entry (R421). -/
def traceEntry (cycle kind source data : Nat) : BitVec 128 :=
  BitVec.ofNat 128 (cycle % 2 ^ 48 * 2 ^ 80 + kind % 256 * 2 ^ 72 + source % 1024 * 2 ^ 62 + data % 2 ^ 62)

/-- Store one entry in a buffer of 16,384, overwriting the oldest in RING mode. -/
def Trace.store (t : Trace) (e : BitVec 128) : Trace :=
  { t with buf := if t.buf.length < 16384 then t.buf ++ [e] else t.buf.drop 1 ++ [e], wr := (t.wr + 1) % 2 ^ 32,
           inCyc := t.inCyc + 1 }

/-- What an entry offered to a trace makes of it (R420, R422): only enabled kinds while tracing, two per core cycle; the trigger is
recorded as TRIGGER and then POST_TRIGGER entries are accepted; a refused entry is counted and announced by OVERFLOW before the next
one. None where tracing takes no note of it; with the trace, whether the entry was refused. -/
def Trace.offer (t : Trace) (ctl : Nat) (enabled : Bool) (now kind source data : Nat) : Option (Trace × Bool) :=
  let ring := ctl / 2 % 2 == 1
  if !(t.st == 1 || t.st == 2) || !(enabled || kind == 255) || (t.st == 2 && t.post == 0) then none
  else
    let t := if t.cyc == now then t else { t with cyc := now, inCyc := 0 }
    if t.inCyc ≥ 2 then some ({ t with dropped := t.dropped + 1 }, true)
    else if !ring && t.buf.length ≥ 16384 then some ({ t with dropped := t.dropped + 1, st := 4 }, true)
    else
      let t := if 0 < t.dropped then { t.store (traceEntry now 254 0x3FF t.dropped) with dropped := 0 } else t
      let hit := t.st == 1 && fld ctl 24 8 == kind && kind != 0 && (fld ctl 8 16 == 0xFFFF || fld ctl 8 16 == data % 65536)
      let t := if hit then { t.store (traceEntry now 255 source (kind + data % 65536 * 256)) with st := 2, post := fld ctl 34 14 }
        else
          let u := t.store (traceEntry now kind source data)
          { u with post := if u.st == 2 then u.post - 1 else u.post }
      some (if !ring && t.buf.length ≥ 16384 && t.st == 1 then { t with st := 4 } else t, false)

/-- Offer an entry to a Vitrine's trace; a refusal is counted. -/
def Dev.trace (d : Dev) (v : VitId) (kind source data : Nat) : Dev :=
  match (d.vit v).trace.offer (d.traceCtl v) (d.vacc v 0xD 6 / 2 ^ kind % 2 == 1) (d.cyc (dieOfVit v)) kind source data with
  | none => d
  | some (t, refused) =>
    let d := d.setVit v (fun u => { u with trace := t })
    if refused then d.count 0x8110 4 v.toNat else d

/-- Count a profile event of a Vitrine in the rows that select it (R424): PROFILE_COUNTS of Vitrine n, event row k, stands
at counter 0x8111.01 row 8 n + k, PROFILE_LAST_STEP at 0x8111.02. -/
def Dev.profile (d : Dev) (v : VitId) (event n : Nat) : Dev :=
  (List.range 8).foldl (fun (e : Dev) k =>
    if e.vset v 0xD 0xA k == event then e.count 0x8111 1 (v.toNat * 8 + k) n else e) d

/-- Halt a tenancy: every Vitrine of it begins to quiesce (R418). Cause 1 command, 2 TRAP, 3 watchpoint, 4 trigger. -/
def Dev.haltTenancy (d : Dev) (l : VitId) (cause : Nat) : Dev :=
  (d.tenancy l).foldl (fun (e : Dev) v =>
    e.setVit v (fun t => if t.halt == 0 then { t with halt := 1, haltCause := cause } else t)) d

/-- Check one request against the watchpoints of Vitrine v (R419): `agent` is its bit in AGENTS. True when a HALT action
applies. -/
def Dev.watch (d : Dev) (v : VitId) (agent a n source : Nat) : Dev × Bool :=
  (List.range 8).foldl (fun (acc : Dev × Bool) k =>
    let row := acc.1.vacc v 0xD 4 k
    let base := fld row 84 44
    let limit := fld row 40 44
    let act := fld row 30 2
    if fld row 29 1 == 1 && fld row (32 + agent) 1 == 1 && a ≤ limit && base < a + n then
      let e := acc.1.count 0x8110 5 v.toNat
      match act with
      | 1 => (e.trace v 6 source (k + agent * 8 + a * 64), acc.2)
      | 2 =>
        let now := e.cyc (dieOfVit v)
        let due := match kfind (e.vit v).watch k with | some t => decide (t + 65536 ≤ now) | none => true
        if due then ((e.setVit v (fun t => { t with watch := kset t.watch k now })).postVit 0x0406 v (v.toNat * 8 + k) a, acc.2) else (e, acc.2)
      | 3 =>
        (match (e.vit v).leader with | some l => e.haltTenancy l 3 | none => e, true)
      | _ => (e, acc.2)
    else acc) (d, false)

end Sys2Proof.Machine
end

