-- ==== Sys2Proof/Machine/Group.lean ====
section
/-! DEFINITION. Blocks, thread groups and their storage (R35-R38), when a group may issue (R42), and exceptions (R62-R65). -/

namespace Sys2Proof.Machine

/-! ### Blocks and groups -/

def Dev.blk (d : Dev) (c : CoreId) (slot : Nat) : Option Block := kfind (d.core c).slots slot
def Dev.setBlk (d : Dev) (c : CoreId) (slot : Nat) (b : Block) : Dev :=
  d.setCore c (fun k => { k with slots := kset k.slots slot b })
def Dev.delBlk (d : Dev) (c : CoreId) (slot : Nat) : Dev := d.setCore c (fun k => { k with slots := kdel k.slots slot })
def Dev.updBlk (d : Dev) (c : CoreId) (slot : Nat) (f : Block → Block) : Dev :=
  match d.blk c slot with
  | some b => d.setBlk c slot (f b)
  | none => d
/-- The group a command names, with its block. -/
def Dev.grp (d : Dev) (g : GRef) : Option (Block × Group) :=
  match d.blk g.core g.slot.toNat with
  | some b => (b.groups[g.grp.toNat]?).map (fun q => (b, q))
  | none => none
def Dev.updGrp (d : Dev) (g : GRef) (f : Group → Group) : Dev :=
  d.updBlk g.core g.slot.toNat (fun b => match b.groups[g.grp.toNat]? with
    | some q => { b with groups := setNth b.groups g.grp.toNat (f q) }
    | none => b)

/-- Change each of some groups. -/
def Dev.eachGrp (d : Dev) (l : List (GRef × (Group → Group))) : Dev := l.foldl (fun (e : Dev) p => e.updGrp p.1 p.2) d

def Group.done (q : Group) : Bool := q.exited == BitVec.allOnes 32
/-- All threads that have not exited are parked (R52). -/
def Group.blocked (q : Group) : Bool := !q.done && q.paths.isEmpty

/-- Keep a block's blocked time: it runs from the cycle its last live group blocked (R52). -/
def Block.refresh (b : Block) (now : Nat) : Block :=
  let all := b.groups.all (fun q => q.done || q.blocked) && b.groups.any Group.blocked
  { b with blockedAt := if all then some (b.blockedAt.getD now) else none,
           groups := b.groups.map (fun q => if q.done || q.paths.isEmpty then { q with active := false } else q) }

/-- Change a group and its block's blocked time. -/
def Dev.stepGrp (d : Dev) (g : GRef) (f : Group → Group) : Dev :=
  (d.updGrp g f).updBlk g.core g.slot.toNat (fun b => b.refresh (d.cycOf g.core))

/-- Registers of a thread. -/
def Group.reg (q : Group) (r lane : Nat) : Word := kget 0 q.regs (r * 32 + lane)
def Group.setReg (q : Group) (r lane : Nat) (w : Word) : Group := { q with regs := kset q.regs (r * 32 + lane) w }
/-- Write one value per lane of a mask. -/
def Group.setLanes (q : Group) (r : Nat) (m : Mask) (f : Nat → Word) : Group :=
  { q with regs := (bits m).foldl (fun s l => kset s (r * 32 + l) (f l)) q.regs }
/-- A 64-bit value in registers r (low) and r + 1 (log 4). -/
def Group.reg64 (q : Group) (r lane : Nat) : Nat := (q.reg r lane).toNat + 2 ^ 32 * (q.reg (r + 1) lane).toNat
/-- A device address in registers r and r + 1: the low 44 bits. -/
def Group.addr (q : Group) (r lane : Nat) : Nat := q.reg64 r lane % 2 ^ 44
def Group.pred (q : Group) (p : Nat) : Mask := kget 0 q.preds p
def Group.setPred (q : Group) (p lane : Nat) (b : Bool) : Group := { q with preds := kset q.preds p (putBit (q.pred p) lane b) }
/-- The lowest active lane, whose registers an X-class instruction reads (R46). -/
def lowLane (m : Mask) : Nat := (bits m).headD 0

/-- The running path moves to the next instruction. -/
def Group.next (q : Group) : Group :=
  match q.paths with
  | p :: rest => { q with paths := { p with pc := Config.pcNext p.pc } :: rest }
  | [] => q

/-- The issue slot a core has taken for a group this cycle and not yet used (R43). -/
def Dev.slotOf (d : Dev) (g : GRef) : Option Issued :=
  (d.core g.core).issued.find? (fun i => i.slot == g.slot.toNat && i.grp == g.grp.toNat)

/-- Whether a group may issue an instruction of a class now: a slot of this cycle is its own for that class (R43), its die runs, its step runs and is not
halted, it is in the active set with a running path, MX.WAIT does not hold it, and no fence holds class M or X (R42, R70, R201, R278, R418). -/
def Dev.canIssue (d : Dev) (g : GRef) (cls : IClass) : Bool :=
  match d.grp g with
  | none => false
  | some (b, q) =>
    (d.slotOf g).any (fun i => i.cls == cls) &&
    d.runs (dieOfCore g.core) && !b.restoring && q.active && !q.paths.isEmpty && q.mxWait.isNone &&
    (d.vit (vitOfCore g.core)).halt == 0 &&
    (match d.stepOn (vitOfCore g.core) with | some s => s.works | none => true) &&
    (q.fence.isNone || !(cls == .m || cls == .x))

/-- Classes by number. -/
def clsCode : IClass → Nat
  | .v => 0 | .s => 1 | .m => 2 | .x => 3 | .b => 4
/-- Core cycles an instruction occupies its class's unit, accesses apart (R45). -/
def clsCycles : IClass → Nat
  | .s => 2
  | _ => 1

/-- The unit of a class is occupied for `n` cycles from now (R44, R45). -/
def Dev.occupy (d : Dev) (c : CoreId) (cls : IClass) (n : Nat) : Dev :=
  d.setCore c (fun k => { k with busy := kset k.busy (clsCode cls) (d.cycOf c + n) })

/-- A group's instruction uses its issue slot and occupies its unit. -/
def Dev.issue (d : Dev) (g : GRef) (cls : IClass) : Dev :=
  (d.setCore g.core (fun k => { k with issued := delFirst (fun i => i.slot == g.slot.toNat && i.grp == g.grp.toNat) k.issued })).occupy g.core cls (clsCycles cls)

/-! ### Exceptions (R62-R65) -/

/-- Class F codes (R62, R355 and the chapters' codes from 0x40 on). -/
def isClassF (code : Nat) : Bool := 0x40 ≤ code

/-- CLASS of the error record of a class F exception (R351). -/
def classOf (d : Dev) (code : Nat) : Nat :=
  match code with
  | 0x41 => 1
  | 0x42 => 2
  | 0x43 => 0
  | _ => (Config.classless d.fresh).toNat

/-- What an exception names beside its group: `detail` is the DETAIL of R65, `errDetail` and `syndrome` those of a class F error record (R354). -/
structure ExcInfo where
  code : Nat
  lanes : Mask
  pc : Addr
  addr : Nat := 0
  space : Nat := 0
  detail : Nat := 0
  layer : Nat := 0
  errDetail : Nat := 0
  syndrome : Nat := 0

/-- An exception record (R65). -/
def ExcInfo.rec' (e : ExcInfo) (c : CoreId) (b : Block) (q : Group) : ExcRec :=
  { addr := BitVec.ofNat 44 e.addr, space := BitVec.ofNat 4 e.space, lanes := e.lanes, pc := e.pc, block := BitVec.ofNat 32 b.index, gslot := q.gslot,
    core := c, code := BitVec.ofNat 8 e.code, seq := b.seq, launch := BitVec.ofNat 16 b.launchIx, detail := BitVec.ofNat 16 e.detail }

/-- Record an exception of a core (R65): its first of the step; later ones are counted in EXCEPTIONS_DROPPED (R66). -/
def Dev.recordExc (d : Dev) (c : CoreId) (r : ExcRec) : Dev :=
  let v := vitOfCore c
  let onStep (d : Dev) (f : StepRec → StepRec) : Dev := match d.stepOn v with
    | some s => d.setStep s f
    | none => d
  if (d.core c).exc.isNone then
    onStep (d.setCore c (fun k => { k with exc := some r })) (fun t => { t with recs := kset t.recs c.toNat r })
  else onStep (d.count 0x8010 5 v.toNat) (fun t => { t with dropped := t.dropped + 1 })

/-- Report an exception of a group of a block (R62-R65): class P squashes the step with EXCEPTION, class F ends the job with an error record naming
the core. -/
def X.raiseFor (x : X) (c : CoreId) (b : Block) (q : Group) (e : ExcInfo) : X :=
  let v := vitOfCore c
  let x := x.on (fun d => d.recordExc c (e.rec' c b q))
  let x := x.on (fun d => d.trace v 5 c.toNat (e.code + e.pc.toNat * 256))
  let x := if e.code == 0x45 then x.on (fun d => d.count 0x6050 2 v.toNat) else x
  if isClassF e.code then
    let x := x.on (fun d => match d.stepOn v with
      | some s => d.squashStep s 6
      | none => d.squashVit v)
    let x := if e.code == 0x41 || e.code == 0x42 || e.code == 0x43 then x.on (fun d => d.slotFault c) else x
    x.uncorrected { ukind := 1, unit := x.dev.physSlot c, cls := classOf x.dev e.code, outcome := 2, vit := some v,
                    die := dieOfCore c, stepSeq := b.seq.toNat, detail := e.errDetail, addr := e.addr,
                    akind := if e.space == 1 then 1 else 0, layer := e.layer, syndrome := e.syndrome }
  else x.on (fun d => match d.stepOn v with
    | some s => d.squashStep s 4
    | none => d.squashVit v)

/-- Report an exception of the group a command names, or of one of a squashed block whose engine instructions still complete. -/
def X.raise (x : X) (g : GRef) (e : ExcInfo) : X :=
  match x.dev.grp g with
  | some (b, q) => x.raiseFor g.core b q e
  | none =>
    match kfind (x.dev.core g.core).left g.slot.toNat with
    | some b => x.raiseFor g.core b (nthD {} b.groups g.grp.toNat) e
    | none => x

/-- An instruction of a group in the issue slot it holds: `f` sees its block, the group and its running path. An upset that its operand reads meet in the
register file is corrected and counted, or raises STORAGE_UNCORRECTABLE in the thread that reads it (R61). Nothing happens while the group cannot
issue. -/
def onGroup (s : State) (g : GRef) (cls : IClass) (f : Block → Group → RPath → X → X) : Out :=
  run s (fun x =>
    if x.dev.canIssue g cls then
      match x.dev.grp g, x.dev.slotOf g with
      | some (b, q), some i => match q.paths with
        | p :: _ =>
          let x := x.on (fun d => d.issue g cls)
          match i.upset with
          | .none => f b q p x
          | .corrected => f b q p (x.on (fun d => d.count 0x8010 7 (vitOfCore g.core).toNat))
          | .uncorrectable => x.raise g { code := 0x42, lanes := bit1 32 i.lane, pc := p.pc }
        | [] => x
      | _, _ => x
    else x)

/-- ILLEGAL_INSTRUCTION with the failing register number, or 0 (R62, R65). -/
def X.illegal (x : X) (g : GRef) (p : RPath) (detail : Nat := 0) : X :=
  x.raise g { code := 0x04, lanes := p.mask, pc := p.pc, detail }

/-- The first register number at or beyond the block's r (R62). -/
def Block.badReg (b : Block) (l : List Nat) : Option Nat := l.find? (fun r => b.launch.r ≤ r)

/-- Run `f` when every register named is below r; ILLEGAL_INSTRUCTION otherwise (R62). The instruction waits while a
register it names has a load, atomic or MX.RDACC on the way to it (R45). -/
def X.withRegs (x : X) (g : GRef) (b : Block) (p : RPath) (l : List Nat) (f : X → X) : X :=
  match b.badReg l with
  | some r => x.illegal g p r
  | none =>
    match b.groups[g.grp.toNat]? with
    | some q => if q.busyRegs.any (fun r => l.contains r.toNat) then x else f x
    | none => x

/-! ### Storage (R37, R38) -/

/-- Physical byte of a block's scratch, its cluster's block region and step region at an offset (R37, R38). -/
def Block.scrAt (b : Block) (c : CoreId) (off : Nat) : Nat := c.toNat * 2 ^ 19 + nthD 0 b.scrGran (off / 2048) * 2048 + off % 2048
def Block.clusAt (b : Block) (c : CoreId) (off : Nat) : Nat :=
  clusOfCore c * 2 ^ 24 + nthD 0 b.clusGran (off / 65536) * 65536 + off % 65536
def Dev.stepAt (d : Dev) (k off : Nat) : Nat := k * 2 ^ 24 + nthD 0 (d.clu k).stepGran (off / 65536) * 65536 + off % 65536

/-! ### Storage by address -/

/-- The store and the byte behind an address of a space (codes of R65) for a block's storage. -/
def Dev.byteOf (d : Dev) (c : CoreId) (scr clus : List Nat) (sp a : Nat) : MemSp × Nat :=
  match sp with
  | 4 => (.scr, c.toNat * 2 ^ 19 + nthD 0 scr (a / 2048) * 2048 + a % 2048)
  | 3 => (.clus, clusOfCore c * 2 ^ 24 + nthD 0 clus (a / 65536) * 65536 + a % 65536)
  | _ => (.clus, d.stepAt (clusOfCore c) a)

/-- Read `n` bytes of a space, and whether they are poisoned. -/
def X.readSpace (x : X) (c : CoreId) (scr clus : List Nat) (sp a n : Nat) : X × List Byte × Bool :=
  if sp = 1 then x.readBytes a n
  else
    (x, (List.range n).map (fun i => let (s, p) := x.dev.byteOf c scr clus sp (a + i); x.mem.byte s p), false)

/-- Write bytes of a space. -/
def X.writeSpace (x : X) (c : CoreId) (scr clus : List Nat) (sp a : Nat) (l : List Byte) (hint : Nat)
    (port : Option MPort := none) : X :=
  if sp = 1 then x.writeBytes a l hint (fun _ => false) port
  else l.zipIdx.foldl (fun (y : X) e =>
    let (s, p) := y.dev.byteOf c scr clus sp (a + e.2)
    y.op (.set s p e.1)) x

end Sys2Proof.Machine
end

