-- ==== Sys2Proof/Machine/Remote.lean ====
section
/-! DEFINITION. The source side of the fabric: routes (R244, R245), sending on links (R238-R240), remote operations and their
tags (R246-R248). -/

namespace Sys2Proof.Machine

def Dev.onFab (d : Dev) (f : Fab → Fab) : Dev := { d with fab := f d.fab }
def Dev.link (d : Dev) (l : Nat) : Link := kget {} d.fab.links l
def Dev.setLink (d : Dev) (l : Nat) (f : Link → Link) : Dev := d.onFab (fun b => { b with links := kupd {} b.links l f })
/-- DEVICE_ID (R242). -/
def Dev.devId (d : Dev) : DevId := BitVec.ofNat 16 (d.acc 0x5000 1 0)
/-- The Vitrine that owns a link (R19). -/
def vitOfLink (l : Nat) : VitId := BitVec.ofNat 5 (l / 3)
/-- FABRIC_GROUP and JOB_EPOCH of a Vitrine (R257). -/
def Dev.group (d : Dev) (v : VitId) : Word := BitVec.ofNat 32 (d.vset v 9 1)
def Dev.epoch (d : Dev) (v : VitId) : Word := BitVec.ofNat 32 (d.vset v 9 2)

/-! ### Routes (R244, R245, R255) -/

/-- The links of the route group of a destination; none when its FORWARDING row is not valid. -/
def Dev.routeMask (d : Dev) (dest : DevId) : Nat :=
  let row := d.acc 0x5001 1 dest.toNat
  if fld row 31 1 == 1 then d.acc 0x5002 1 (row % 256) else 0

/-- The links on which an operation to a device may leave: in its route group, ACTIVE, and of a Vitrine that `ok` allows. -/
def Dev.eligible (d : Dev) (dest : DevId) (ok : VitId → Bool) : List Nat :=
  let m := d.routeMask dest
  (List.range 96).filter (fun l => fld m l 1 == 1 && (d.link l).st == .active && !(d.link l).draining && ok (vitOfLink l))

/-- Operations spread over the eligible links in turn, in blocks of 64 consecutive tags. -/
def pickLink (ls : List Nat) (tag : Word) : Option Nat := ls[tag.toNat / 64 % max 1 ls.length]?

/-- Whether a Vitrine belongs to the tenancy of another. -/
def Dev.sameTenancy (d : Dev) (v w : VitId) : Bool := (d.vit v).leader.isSome && (d.vit v).leader == (d.vit w).leader

/-- The device that ALIAS names for a destination of a fabric group (R255). -/
def Dev.aliased (d : Dev) (group : Word) (dest : DevId) : DevId :=
  match d.fab.aliases.find? (fun a => a.1 == group && a.2.1 == dest) with
  | some (_, _, n) => n
  | none => dest

/-! ### Sending on a link -/

def Link.credit (k : Link) : Nat → Nat
  | 0 => k.creditData
  | 1 => k.creditTransit
  | _ => k.creditMgmt
def Link.useCredit (k : Link) (cls n : Nat) : Link :=
  match cls with
  | 0 => { k with creditData := k.creditData - n }
  | 1 => { k with creditTransit := k.creditTransit - n }
  | _ => { k with creditMgmt := k.creditMgmt - n }

/-- Send what waits on a link while the replay buffer of 256 frames has room and credits of its class last, in order within a
class (R239, R240). -/
def Link.flush (k : Link) : Link :=
  let (k, rest) := k.wait.foldl (fun (acc : Link × List (Nat × ROp)) w =>
    let (k, rest) := acc
    let n := 1 + w.2.dataSlots.toNat
    if k.sent.length < 256 && n ≤ k.credit w.1 && !rest.any (fun r => r.1 == w.1) then
      ({ k.useCredit w.1 n with sent := k.sent ++ [(k.txSeq, w.2)], txSeq := k.txSeq + 1 }, rest)
    else (k, rest ++ [w])) (k, [])
  { k with wait := rest }

/-- Hand an operation of a class to a link. -/
def Dev.txOp (d : Dev) (l : Nat) (cls : Nat) (op : ROp) : Dev :=
  d.setLink l (fun k => ({ k with wait := k.wait ++ [(cls, op)] } : Link).flush)

/-! ### Operations at their source (R246, R248) -/

/-- Send or send again an outstanding operation on an eligible link; an operation to this device goes through the fabric
transport. With no eligible link it is held; a checkpoint stream uses only pair links (R254). -/
def Dev.sendOp (d : Dev) (o : RemOp) : Dev × RemOp :=
  let now := d.ref
  if o.op.dest == d.devId then
    (d.onFab (fun b => { b with loop := b.loop ++ [o.op] }), { o with link := none, first := some (o.first.getD now), sentAt := now })
  else
    let ls := d.eligible o.op.dest (fun w => d.sameTenancy o.v w)
    let ls := if o.src == .ckpt then ls.filter (fun l => fld (d.force 0x5200 2 0) l 1 == 1) else ls
    match pickLink ls o.op.tag with
    | some l => (d.txOp l 0 o.op, { o with link := some l, first := some (o.first.getD now), sentAt := now })
    | none => (d, { o with link := none })

/-- Operations of a Vitrine to a device that have been sent and not completed. -/
def Dev.sentTo (d : Dev) (v : VitId) (dest : DevId) : Nat :=
  d.fab.ops.countP (fun o => o.v == v && o.op.dest == dest && o.first.isSome)

/-- Send held operations: those not yet sent, 4,096 outstanding to one destination at most (R248), and those whose link was
lost. -/
def Dev.kickFab (d : Dev) : Dev :=
  let ops := d.fab.ops
  let d := d.onFab (fun b => { b with ops := [] })
  ops.foldl (fun (e : Dev) o =>
    let (e, o) :=
      if o.link.isSome || o.dead || (o.first.isSome && o.op.dest == e.devId) then (e, o)
      else if o.first.isNone then (if e.sentTo o.v o.op.dest < 4096 then e.sendOp o else (e, o))
      else
        let o' := { o with op := { o.op with attempt := o.op.attempt + 1 } }
        let (e', p) := e.sendOp o'
        if p.link.isSome then (e'.count 0x8018 2 o.v.toNat, p) else (e, o)
    e.onFab (fun b => { b with ops := b.ops ++ [o] })) d

/-- Forget the link of the operations sent on it: they are sent again at once on the remaining links (R248). -/
def Dev.loseLink (d : Dev) (l : Nat) : Dev :=
  (d.onFab (fun b => { b with ops := b.ops.map (fun o => if o.link == some l then { o with link := none } else o) })).kickFab

/-- The next tag of a Vitrine's operations to a device: numbered from 0 in each epoch (R248). -/
def Dev.newTag (d : Dev) (v : VitId) (dest : DevId) : Dev × Word :=
  let k := v.toNat * 65536 + dest.toNat
  let ep := d.epoch v
  let n := match kfind d.fab.tags k with
    | some (e, n) => if e == ep then n else 0
    | none => 0
  (d.onFab (fun b => { b with tags := kset b.tags k (ep, n + 1) }), BitVec.ofNat 32 n)

/-- An operation header as this device sends it (R247). -/
def Dev.opHead (d : Dev) (v : VitId) (dest : DevId) (type : RType) : ROp :=
  { dest, src := d.devId, group := d.group v, epoch := d.epoch v, tag := 0, srcVit := v, type, op := 0, dataSlots := 0, hops := 15,
    address := 0, length := 0, status := 0, attempt := 0, operand0 := 0, operand1 := 0, crcOk := true, data := [] }

/-- Start an operation: it takes its tag and is sent when it may be. -/
def Dev.newOp (d : Dev) (v : VitId) (src : RSrc) (dest : DevId) (type : RType) (aop : Nat) (addr len : Nat) (o0 o1 : Nat)
    (data : List Byte) (space loc : Nat) : Dev :=
  let dest := d.aliased (d.group v) dest
  let (d, tag) := d.newTag v dest
  let op : ROp := { d.opHead v dest type with tag, op := BitVec.ofNat 4 aop, address := BitVec.ofNat 44 addr, length := BitVec.ofNat 9 len,
                                              operand0 := BitVec.ofNat 64 o0, operand1 := BitVec.ofNat 64 o1, data,
                                              dataSlots := BitVec.ofNat 3 (cdiv data.length 64) }
  (d.onFab (fun b => { b with ops := b.ops ++ [{ src, v, op, space, loc }] })).kickFab

/-- OP codes of R247. -/
def aopCode : AtomOp → Nat
  | .add => 0 | .smin => 1 | .umin => 2 | .smax => 3 | .umax => 4 | .and => 5 | .or => 6 | .xor => 7 | .xchg => 8 | .cas => 9
  | .fadd => 10 | .fmin => 11 | .fmax => 12

/-- The operation of an OP code. -/
def aopOf (n : Nat) : Option AtomOp :=
  [AtomOp.add, .smin, .umin, .smax, .umax, .and, .or, .xor, .xchg, .cas, .fadd, .fmin, .fmax].find? (fun o => aopCode o == n)

/-- The pieces of up to 256 bytes of a transfer: offset and length. -/
def pieces256 (len : Nat) : List (Nat × Nat) := (List.range (cdiv len 256)).map (fun i => (256 * i, min 256 (len - 256 * i)))

/-- Whether a remote instruction's block stands in a saved step (R281). -/
def Dev.insSaved (d : Dev) (i : RIns) : Bool := d.srv.steps.any (fun s => s.saved.any (fun c => c.ins.contains i.id))

/-- Change the saved image of a remote instruction's Vitrine (R281). -/
def Dev.updSaved (d : Dev) (i : RIns) (f : SavedVit → SavedVit) : Dev :=
  d.onSrv (fun q => { q with steps := q.steps.map (fun s =>
    { s with saved := s.saved.map (fun c => if c.ins.contains i.id then f c else c) }) })

/-- Change the saved block of a remote instruction. -/
def Dev.updSavedBlk (d : Dev) (i : RIns) (f : SavedBlk → SavedBlk) : Dev :=
  d.updSaved i (fun c => { c with blocks := c.blocks.map (fun b => if b.core == i.core.toNat && b.slot == i.owner.slot then f b else b) })

/-- Write bytes into saved bytes by offset. -/
def putSaved (m : List (Nat × Byte)) (off : Nat) (l : List Byte) : List (Nat × Byte) :=
  m.filter (fun e => !(off ≤ e.1 && e.1 < off + l.length)) ++ l.zipIdx.map (fun (e : Byte × Nat) => (off + e.2, e.1))

/-- Data for a saved block's storage lands in the saved image (R281). -/
def Dev.landSaved (d : Dev) (i : RIns) (space off : Nat) (l : List Byte) : Dev :=
  match space with
  | 4 => d.updSavedBlk i (fun b => { b with scr := putSaved b.scr off l })
  | 3 => d.updSavedBlk i (fun b => { b with clus := putSaved b.clus off l })
  | _ => d.updSaved i (fun c => { c with steps := c.steps.map (fun t =>
      if t.cluster == clusOfCore i.core then { t with data := putSaved t.data off l } else t) })

/-- The group of a remote instruction while its block is resident. -/
def Dev.insGroup (d : Dev) (i : RIns) : Option GRef :=
  if d.insSaved i then none
  else
    match d.blk i.core i.owner.slot with
    | some b => if b.launchIx == i.owner.launchIx && b.index == i.owner.block && b.seq == i.owner.seq then
        some { core := i.core, slot := BitVec.ofNat 4 i.owner.slot, grp := BitVec.ofNat 5 i.owner.grp } else none
    | none => none

/-- Split a remote instruction into its operations (R246). RPUT reads its source here; a poisoned source raises
POISON_CONSUMED and sends nothing (R356, log 14). -/
def X.splitIns (x : X) (i : RIns) : X :=
  let v := vitOfCore i.core
  let x := x.on (fun d => d.onFab (fun b => { b with ins := b.ins.map (fun j => if j.id == i.id then { j with split := true } else j) }))
  match i.type with
  | .put =>
    let (x, l, bad) := x.readSpace i.core i.scr i.clus i.space i.laddr i.len
    if bad then
      let x := x.on (fun d => d.onFab (fun b => { b with ins := b.ins.filter (fun j => j.id != i.id) }))
      match x.dev.insGroup i with
      | some g => x.raise g { code := 0x45, lanes := i.lanes, pc := i.pc, addr := i.laddr, space := i.space }
      | none => x
    else x.on (fun d => (pieces256 i.len).foldl (fun (e : Dev) q =>
      e.newOp v (.ins i.id) i.dest .put 0 (i.raddr + q.1) q.2 0 0 ((l.drop q.1).take q.2) 1 0) d)
  | .get => x.on (fun d => (pieces256 i.len).foldl (fun (e : Dev) q =>
      e.newOp v (.ins i.id) i.dest .get 0 (i.raddr + q.1) q.2 0 0 [] i.space (i.laddr + q.1)) d)
  | t => x.on (fun d => d.newOp v (.ins i.id) i.dest t (aopCode i.aop) i.raddr (if i.wide then 8 else 4) i.val i.cmp [] 1 0)

/-- Whether a remote instruction's earlier local writes have been performed (R246). -/
def Dev.insDue (d : Dev) (i : RIns) : Bool :=
  let k := d.core i.core
  i.waits.all (fun w => !k.ops.any (fun o => o.id == w && !o.accs.isEmpty)) && i.tiles.all (fun w => !k.eng.tiles.any (fun t => t.ins.id == w))

/-- Split the remote instructions of a core's Vitrine that are due, in issue order; none passes an earlier one of the Vitrine to the same device, so that its
operations take their tags, and are performed there, in issue order (R212, R248). -/
def X.remotePump (x : X) (c : CoreId) : X :=
  let v := vitOfCore c
  let mine := x.dev.fab.ins.filter (fun i => vitOfCore i.core == v && !i.split)
  (mine.foldl (fun (acc : X × List DevId) i =>
    let (y, held) := acc
    let to' := y.dev.aliased (y.dev.group v) i.dest
    if held.contains to' || !y.dev.insDue i then (y, to' :: held) else (y.splitIns i, held)) (x, [])).1

end Sys2Proof.Machine
end

