-- ==== Sys2Proof/Machine/Lsu.lean ====
section
/-! DEFINITION. A core's accesses: L1 lookups and replacement, the order of a thread's accesses (R198, R199), and element
operations (R56-R58, R176, R177). -/

namespace Sys2Proof.Machine

/-! ### Element operations -/

/-- The element operation of a lane. -/
def LaneAcc.elem (a : LaneAcc) : ElemOp :=
  { off := BitVec.ofNat 7 (a.addr % 128), op := a.op, wide := a.size == 8, val := BitVec.ofNat 64 a.val,
    cmp := BitVec.ofNat 64 a.cmp, lane := BitVec.ofNat 5 a.lane }

/-! ### Operations in progress -/

def Dev.setOp (d : Dev) (c : CoreId) (id : Nat) (f : OutOp → OutOp) : Dev :=
  d.setCore c (fun k => { k with ops := updFirst (fun o => o.id == id) f k.ops })
def Dev.op? (d : Dev) (c : CoreId) (id : Nat) : Option OutOp := (d.core c).ops.find? (fun o => o.id == id)

/-- Drop the writes that nothing waits for any more. -/
def Dev.reap (d : Dev) (c : CoreId) : Dev :=
  d.setCore c (fun k => { k with ops := k.ops.filter (fun o => !(o.accs.isEmpty && (o.kind == .store || o.kind == .atom false))) })

/-- The line a lane's access touches. -/
def LaneAcc.line (a : LaneAcc) : Nat := a.addr / 128

/-- Whether an operation writes. -/
def OutOp.writes (o : OutOp) : Bool := o.kind != .load
/-- Whether an operation returns values. -/
def OutOp.reads (o : OutOp) : Bool := o.kind == .load || o.kind == .atom true

/-- Two operations of one group of one block; the accesses of one lane are one thread's, the source of R197. -/
def OutOp.sameSource (o p : OutOp) : Bool := o.owner == p.owner

/-- The home of an access (R197): the slice of a window line or of a scratchpad line, or the local store. -/
def homeOf (sp : Space) (a : Nat) : Nat :=
  match sp with
  | .global =>
    if a < 2 ^ 41 then sliceOf (a / 128)
    else (vitOfAddr a).toNat * 24 + ((a - padBase) % 2 ^ 27 / 128) % 24
  | .step | .cluster => 1001
  | .scratch => 1002

/-- The store of a local space. -/
def localSp (sp : Space) : MemSp := if sp == .scratch then .scr else .clus
/-- Whether two spaces are one memory to a core. -/
def sameMem (a b : Space) : Bool := (a == .global) == (b == .global) && localSp a == localSp b

/-- Whether two accesses share a byte of one memory. -/
def LaneAcc.meets (a b : LaneAcc) : Bool := a.addr < b.addr + b.size && b.addr < a.addr + a.size

/-- The values a line gives to the lanes of a load, with poison by granule. -/
def OutOp.capture (o : OutOp) (line : Nat) (data : Line) (poison : BitVec 2) : OutOp :=
  let here := o.accs.filter (fun a => a.line == line)
  { o with accs := o.accs.filter (fun a => a.line != line),
           vals := here.foldl (fun m a => kset m a.lane (lineGet data (a.addr % 128) a.size)) o.vals,
           poisoned := o.poisoned || here.any (fun a => poison.getLsbD (a.addr % 128 / 64)) }

/-- Write a store's lanes of one line into it; where lanes overlap the highest lane's bytes stand. -/
def OutOp.writeInto (o : OutOp) (line : Nat) (l : L1Line) : L1Line :=
  let here := o.accs.filter (fun a => a.line == line)
  let mask := here.foldl (fun (m : BitVec 128) a => m ||| BitVec.ofNat 128 ((2 ^ a.size - 1) * 2 ^ (a.addr % 128))) 0
  { l with st := .m, data := here.foldl (fun d a => lineSet d (a.addr % 128) a.size a.val) l.data,
           poison := mergePoison l.poison mask }

/-- The byte mask and data of a store's lanes of one line (R188). -/
def OutOp.wrMask (o : OutOp) (line : Nat) : BitVec 128 × Line :=
  let here := o.accs.filter (fun a => a.line == line)
  (here.foldl (fun (m : BitVec 128) a => m ||| BitVec.ofNat 128 ((2 ^ a.size - 1) * 2 ^ (a.addr % 128))) 0,
    here.foldl (fun d a => lineSet d (a.addr % 128) a.size a.val) 0)

/-- A store's lanes of a line have been performed. -/
def OutOp.dropLine (o : OutOp) (line : Nat) : OutOp := { o with accs := o.accs.filter (fun a => a.line != line) }

/-- Whether the accesses of an operation to one line may be performed by the order of their threads: a load once no earlier write of its thread to its
bytes is unperformed (R199, 1); a write once every earlier load of its thread has been performed (R199, 3), every earlier write of its thread to
its home (R198), and the earlier lines of its own instruction at that home (R207). -/
def Core.mayGo (k : Core) (o : OutOp) (line : Nat) : Bool :=
  let here := o.accs.filter (fun a => a.line == line)
  let before := (k.ops.takeWhile (fun p => p.id != o.id)).filter (fun p => p.sameSource o)
  if o.kind == .load then
    here.all (fun a => !before.any (fun p => p.writes && sameMem p.space o.space && p.accs.any (fun b => b.lane == a.lane && b.meets a)))
  else
    here.all (fun a => !before.any (fun p => p.accs.any (fun b => b.lane == a.lane && (p.reads || homeOf p.space b.addr == homeOf o.space a.addr)))) &&
      !(o.kind == .store && (o.accs.takeWhile (fun a => a.line != line)).any (fun a => homeOf o.space a.addr == homeOf o.space (line * 128)))

/-- Touch an L1 line: it becomes the most recently used of its set. -/
def Dev.touchL1 (d : Dev) (c : CoreId) (line : Nat) : Dev :=
  d.setCore c (fun k =>
    match kfind k.l1 line with
    | some l => { k with l1 := kset k.l1 line { l with used := k.tick + 1 }, tick := k.tick + 1 }
    | none => k)

def L1St.transient : L1St → Bool
  | .isD | .imD | .smD | .xiA => true
  | _ => false

/-- Make room in the L1 set of a line for a request (R181, R185, Replace): true when a way is free now. A modified or
exclusive victim is put back first, and its way is free only at PutAck. -/
def Dev.l1Room (d : Dev) (c : CoreId) (line : Nat) : Dev × Bool :=
  let ls := (d.core c).l1.filter (fun e => e.1 % 128 == line % 128)
  if ls.length < 8 then (d, true)
  else if ls.any (fun e => e.2.st == .xiA) then (d, false)
  else
    let v := (ls.filter (fun e => !e.2.st.transient)).foldl (fun (b : Option (Nat × L1Line)) e => match b with
      | none => some e
      | some w => if e.2.used < w.2.used then some e else some w) none
    match v with
    | none => (d, false)
    | some (k, l) =>
      match l.st with
      | .e => ((d.setL1 c k { l with st := .xiA }).send { kind := .putE, line := k, core := some c }, false)
      | .m => ((d.setL1 c k { l with st := .xiA }).send { kind := .putM, line := k, core := some c, data := l.data, poison := l.poison }, false)
      | _ => (d.delL1 c k, true)

/-- Send a GetS or GetM for a line absent from the L1, when its set has room (R185). -/
def Dev.l1Miss (d : Dev) (c : CoreId) (line : Nat) (own : Bool) : Dev :=
  let (d, ok) := d.l1Room c line
  if ok then
    ((d.setL1 c line { st := if own then .imD else .isD, data := 0, poison := 0, used := 0 }).touchL1 c line).send
      { kind := if own then .getM else .getS, line, core := some c }
  else d

/-- One line of a load (R185, Load). -/
def X.loadLine (x : X) (c : CoreId) (o : OutOp) (line : Nat) : X :=
  let a := line * 128
  if o.space != .global then
    let l := lineOf (x.mem.bytes (localSp o.space) a 128)
    x.on (fun d => d.setOp c o.id (fun p => p.capture line l 0))
  else if x.dev.isFenced (dieOfVit (vitOfAddr a)) then x.on (fun d => (d.fencedRec line).setOp c o.id (fun p => p.capture line 0 3))
  else if a ≥ 2 ^ 41 then
    let x := x.finishPad line
    let (data, po) := x.mem.padLine line
    x.on (fun d => d.setOp c o.id (fun p => p.capture line data po))
  else
    match x.dev.l1 c line with
    | some l =>
      match l.st with
      | .s | .e | .m | .smD => x.on (fun d => (d.touchL1 c line).setOp c o.id (fun p => p.capture line l.data l.poison))
      | _ => x
    | none => x.on (fun d => d.l1Miss c line false)

/-- One line of a store (R185, Store; R196). -/
def X.storeLine (x : X) (c : CoreId) (o : OutOp) (line : Nat) : X :=
  let a := line * 128
  if o.space != .global then
    let x := (o.accs.filter (fun b => b.line == line)).foldl (fun (y : X) b => y.putBytes (localSp o.space) b.addr (leBytes b.val b.size)) x
    x.on (fun d => d.setOp c o.id (fun p => p.dropLine line))
  else if x.dev.isFenced (dieOfVit (vitOfAddr a)) then x.on (fun d => (d.fencedRec line).setOp c o.id (fun p => p.dropLine line))
  else if a ≥ 2 ^ 41 then
    let (mask, _) := o.wrMask line
    let x := (o.accs.filter (fun b => b.line == line)).foldl (fun (y : X) b => y.putBytes .pad b.addr (leBytes b.val b.size)) (x.finishPad line)
    let x := if halfMask mask 0 == BitVec.allOnes 64 then x.op (.mark true (a / 64) false) else x
    let x := if halfMask mask 1 == BitVec.allOnes 64 then x.op (.mark true (a / 64 + 1) false) else x
    x.on (fun d => d.setOp c o.id (fun p => p.dropLine line))
  else
    match x.dev.l1 c line with
    | some l =>
      match l.st with
      | .m | .e => x.on (fun d => ((d.setL1 c line (o.writeInto line l)).touchL1 c line).setOp c o.id (fun p => p.dropLine line))
      | .s => x.on (fun d => (d.setL1 c line { l with st := .smD }).send { kind := .getM, line, core := some c })
      | _ => x
    | none => x.on (fun d => d.l1Miss c line true)

/-- Apply a line's element operations to a local store in lane order (R57, R58). -/
def X.localAtom (x : X) (c : CoreId) (o : OutOp) (line : Nat) : X :=
  let here := o.accs.filter (fun b => b.line == line)
  here.foldl (fun (y : X) b =>
    let old := y.mem.nat (localSp o.space) b.addr b.size
    let y := y.putBytes (localSp o.space) b.addr (leBytes (elemApply b.op (b.size == 8) old b.val b.cmp) b.size)
    y.on (fun d => d.setOp c o.id (fun p => { p with vals := kset p.vals b.lane old })))
    (x.on (fun d => d.setOp c o.id (fun p => p.dropLine line)))

/-- One line of an atomic or reduction: the combined operation goes to its home (R57), counted; a fenced home answers
poison (R58, R360). -/
def X.atomLine (x : X) (c : CoreId) (o : OutOp) (line : Nat) : X :=
  let a := line * 128
  let v := (vitOfCore c).toNat
  let x := if o.kind == .atom true then x.on (fun d => d.count 0x8010 3 v) else x
  if o.space != .global then x.localAtom c o line
  else if x.dev.isFenced (dieOfVit (vitOfAddr a)) then x.on (fun d => (d.fencedRec line).setOp c o.id (fun p => p.capture line 0 3))
  else
    let here := o.accs.filter (fun b => b.line == line)
    x.on (fun d => (d.setOp c o.id (fun p => { p with accs := p.accs.map (fun b => if b.line == line then { b with sent := true } else b) })).send
      { kind := .atomRed, line, core := some c, ops := here.map LaneAcc.elem })

/-- Advance one operation as far as the order of its threads allows (R198, R199). -/
def X.pumpOp (c : CoreId) (x : X) (id : Nat) : X :=
  match x.dev.op? c id with
  | none => x
  | some o =>
    (((o.accs.filter (fun a => !a.sent)).map LaneAcc.line).eraseDups).foldl (fun (y : X) l =>
      match y.dev.op? c id with
      | none => y
      | some p =>
        if !(y.dev.core c).mayGo p l then y
        else match p.kind with
          | .load => y.loadLine c p l
          | .store => y.storeLine c p l
          | .atom _ => y.atomLine c p l) x

/-- Advance every operation of a core, oldest first. -/
def X.pump (x : X) (c : CoreId) : X :=
  let ids := (x.dev.core c).ops.map (·.id)
  let x := ids.foldl (X.pumpOp c) x
  (x.remotePump c).on (fun d => d.reap c)

/-- Fill data for a core's line reaches its waiting loads (R185), but for those that wait for an earlier write of their thread. -/
def Dev.fillLoads (d : Dev) (c : CoreId) (line : Nat) (data : Line) (poison : BitVec 2) : Dev :=
  d.setCore c (fun k => { k with ops := k.ops.map (fun o =>
    if o.kind == .load && o.space == .global && o.accs.any (fun a => a.line == line) && k.mayGo o line then o.capture line data poison else o) })

/-- The oldest store to a line that may be performed and has not been sent (R185, R198). -/
def Core.dueStore (k : Core) (line : Nat) : Option OutOp :=
  k.ops.find? (fun o => o.kind == .store && o.space == .global && o.accs.any (fun b => b.line == line && !b.sent) && k.mayGo o line)

/-- A core's WrU of NoAlloc has been performed at the home (R185, R196). -/
def Dev.wruDone (d : Dev) (c : CoreId) (line : Nat) : Dev :=
  match (d.core c).ops.find? (fun o => o.kind == .store && o.accs.any (fun a => a.sent && a.line == line)) with
  | some o => d.setOp c o.id (fun p => { p with accs := p.accs.filter (fun a => !(a.sent && a.line == line)) })
  | none => d

/-- A combined operation's old values, or poison, return to its core. -/
def Dev.atomDone (d : Dev) (c : CoreId) (line : Nat) (old : List (Nat × Nat)) (bad : Bool) : Dev :=
  match (d.core c).ops.find? (fun o => o.writes && o.kind != .store && o.accs.any (fun a => a.sent && a.line == line)) with
  | some o => (d.setOp c o.id (fun p =>
      { p with accs := p.accs.filter (fun a => !(a.sent && a.line == line)),
               vals := old.foldl (fun m e => kset m e.1 e.2) p.vals, poisoned := p.poisoned || bad })).reap c
  | none => d

end Sys2Proof.Machine
end

