-- ==== Sys2Proof/Machine/Home.lean ====
section
/-! DEFINITION. The home of a line: allocation and streams (R170, R171), the transition table of R186, the operation unit
(R176-R178), and the meanings of the messages a home receives. -/

namespace Sys2Proof.Machine

/-! ### Responses -/

def Dev.toCore (d : Dev) (k : MsgKind) (line : Nat) (c : CoreId) (data : Line := 0) (poison : BitVec 2 := 0) : Dev :=
  d.send { kind := k, line, core := some c, data, poison }

/-- The core of an L1's port. -/
def portCore : MPort → Option CoreId
  | .core c => some c
  | _ => none

/-- Data for a cacheless port or the host, to which it carries a MetaValue (R189). -/
def Dev.toPort (d : Dev) (p : MPort) (line : Nat) (data : Line) (poison : BitVec 2) (mvalue : Option Meta := none) : Dev :=
  d.send { kind := if p == .host then .hostData else .data, line, data, poison, core := portCore p, port := some p, mvalue := mvalue }

/-- A cacheless write has been performed; a core's own WrU completes its store. -/
def X.wrote (x : X) (p : MPort) (line : Nat) : X :=
  match p with
  | .core c => (x.on (fun d => d.wruDone c line)).pump c
  | q => x.on (fun d => d.send { kind := .wrDone, line, port := some q })

/-- Send Inv to the sharers but one, and BISnpInv to the host when its bit is set and `bi` asks; the InvAcks awaited. -/
def Dev.invalidate (d : Dev) (line : Nat) (sh : Sharers) (exc : Option CoreId) (bi : Bool) : Dev × Nat × Bool :=
  let cs := sh.list.filter (fun c => some c != exc)
  let v := (vitOfAddr (line * 128)).toNat
  let d := cs.foldl (fun e c => (e.send { kind := .inv, line, core := some c }).count 0x8015 0xC v) d
  if bi && sh.host then ((d.send { kind := .biSnpInv, line }).count 0x8015 0xD v, cs.length, true)
  else (d, cs.length, false)

/-! ### Operations at the slice -/

/-- Return a combined operation's old values to its source, or poison. -/
def X.atomBack (x : X) (c : Option CoreId) (line : Nat) (old : List (Nat × Nat)) (bad : Bool) : X :=
  match c with
  | some k => (x.on (fun d => d.atomDone k line old bad)).pump k
  | none => x

/-- A record for an atomic that met poison: it is not performed (R356). -/
def Dev.poisonRec (d : Dev) (line : Nat) : Dev :=
  let v := vitOfAddr (line * 128)
  d.logErr { ukind := 3, unit := sliceOf line, cls := 3, outcome := 1, addr := line * 128, akind := 1, vit := some v, die := dieOfVit v }

/-- Forward a combined operation of a line without an eligible way to its HBM controller (R178). -/
def X.opsAtHbm (x : X) (line : Nat) (ops : List ElemOp) (c : Option CoreId) : X :=
  let (x, old) := (x.on (fun d => d.count 0x8015 8 (vitOfAddr (line * 128)).toNat)).rmwLine line ops
  match old with
  | some old => x.atomBack c line old false
  | none => (x.on (fun d => d.poisonRec line)).atomBack c line [] true

/-- Serve a request from HBM, with no line of the Gallery (R170). -/
def X.bypass (x : X) (line : Nat) (r : HomeReq) : X :=
  match r.kind, r.port with
  | .getS, .core c => let (x, data, p) := x.rdLine line; x.on (fun d => d.toCore .dataU line c data p)
  | .getM, .core c => x.on (fun d => d.toCore .noAlloc line c)
  | .wrU mask new _, q => (x.wbMasked line new mask).wrote q line
  | .memWr mask new _, q => (x.wbMasked line new mask).wrote q line
  | .atom ops _, .core c => x.opsAtHbm line ops (some c)
  | .atom ops _, _ => x.opsAtHbm line ops none
  | .rdU, q => let (x, data, p) := x.rdLine line; x.on (fun d => d.toPort q line data p)
  | .memRd _, q => let (x, data, p) := x.rdLine line; x.on (fun d => d.toPort q line data p (some .i))
  | _, _ => x

/-- Serve a request without allocation (R170), counted except for a stream's full-line write (R171). -/
def X.noAlloc (x : X) (line : Nat) (r : HomeReq) (counted : Bool) : X :=
  (if counted then x.on (fun d => d.count 0x8015 6 (vitOfAddr (line * 128)).toNat) else x).bypass line r

/-! ### The table of R186 -/

/-- The last part of a request's row: copies that stand in its way are gone. -/
def X.act (x : X) (line : Nat) (r : HomeReq) : X :=
  match x.dev.gline line with
  | none => x
  | some g =>
    match r.kind, r.port with
    | .getS, .core c => x.on (fun d => (d.setGline line { g with st := .s, sh := g.sh.add c, owner := none }).toCore .dataS line c g.data g.poison)
    | .getM, .core c =>
      let held := g.st == .sInv && g.sh.vits.isNone && g.sh.cores == [c]
      x.on (fun d => (d.setGline line { g with st := .ol, sh := {}, owner := some c }).toCore
        (if held then .grantM else .dataM) line c g.data g.poison)
    | .rdU, q => x.on (fun d => d.toPort q line g.data g.poison)
    | .wrU mask new _, q =>
      (x.on (fun d => d.setGline line { g with st := .i, sh := {}, owner := none, data := mergeLine g.data new mask,
                                               dirty := true, poison := mergePoison g.poison mask })).wrote q line
    | .memWr mask new _, q =>
      (x.on (fun d => d.setGline line { g with st := .i, sh := {}, owner := none, data := mergeLine g.data new mask,
                                               dirty := true, poison := mergePoison g.poison mask })).wrote q line
    | .atom ops ret, q =>
      x.on (fun d => (d.setGline line { g with st := .i, sh := {}, owner := none, ops := g.ops + 1 }).setSlice (sliceOf line)
        (fun s => { s with ops := s.ops ++ [{ line, todo := ops, old := [], returns := ret,
                                              core := portCore q }] }))
    | .memRd .s, q => x.on (fun d => (d.setGline line { g with st := .s, sh := { g.sh with host := true }, owner := none }).toPort q line g.data g.poison (some .s))
    | .memRd .a, q => x.on (fun d => (d.setGline line { g with st := .oh, sh := { host := true }, owner := none }).toPort q line g.data g.poison (some .a))
    | .memRd .i, q => x.on (fun d => (d.setGline line { g with sh := { g.sh with host := false } }).toPort q line g.data g.poison (some .i))
    | .evict wb, _ => x.freeLine line g wb
    | .flush, _ =>
      let x := if g.dirty then x.wbLine line g.data g.poison else x
      x.on (fun d => d.setGline line { g with dirty := false })
    | _, _ => x

/-- Enter a transient state for a request. -/
def Dev.await (d : Dev) (line : Nat) (r : HomeReq) (st : DirSt) (acks : Nat) (bi : Bool) : Dev :=
  d.updGline line (fun g => { g with st := st, cur := some r, acks := acks, bi := bi })

/-- Whether an OL or OH line keeps a shared copy under a request: RecallS or BISnpData rather than RecallI or BISnpInv. -/
def HomeKind.shares : HomeKind → Bool
  | .getS | .rdU | .flush => true
  | .memRd m => m != .a
  | _ => false

/-- Serve a request whose line is present and not transient, by its row of R186. -/
def X.serve (x : X) (line : Nat) (r : HomeReq) : X :=
  match x.dev.gline line with
  | none => x
  | some g =>
    match g.st with
    | .i =>
      match r.kind, r.port with
      | .getS, .core c => x.on (fun d => (d.setGline line { g with st := .ol, owner := some c, sh := {} }).toCore .dataE line c g.data g.poison)
      | _, _ => x.act line r
    | .s =>
      let inval (exc : Option CoreId) (bi : Bool) (sh : Sharers) : X :=
        let (d, n, b) := x.dev.invalidate line g.sh exc bi
        let x := { x with dev := d.updGline line (fun t => { t with sh := sh }) }
        if n == 0 && !b then x.act line r else x.on (fun d => d.await line r .sInv n b)
      match r.kind, r.port with
      | .getM, .core c =>
        if g.sh.vits.isNone && g.sh.cores == [c] && !g.sh.host then
          x.on (fun d => (d.setGline line { g with st := .ol, sh := {}, owner := some c }).toCore .grantM line c)
        else
          let held := g.sh.vits.isNone && g.sh.cores.contains c
          inval (some c) true (if held then { cores := [c] } else {})
      | .wrU .., _ | .atom .., _ | .evict _, _ => inval none true {}
      | .memRd .a, _ => inval none false {}
      | .memWr .., _ => inval none false {}
      | _, _ => x.act line r
    | .ol =>
      match g.owner with
      | some c =>
        if r.kind.shares then x.on (fun d => (d.await line r .oRs 0 false).send { kind := .recallS, line, core := some c })
        else x.on (fun d => (d.await line r .oRi 0 false).send { kind := .recallI, line, core := some c })
      | none => x
    | .oh =>
      let v := (vitOfAddr (line * 128)).toNat
      match r.kind, r.port with
      | .memRd .i, q => x.on (fun d => (d.setGline line { g with st := .i, sh := {} }).toPort q line g.data g.poison (some .i))
      | .memRd m, q => x.on (fun d => d.toPort q line g.data g.poison (some m))
      | .memWr .., _ => x.act line r
      | _, _ =>
        x.on (fun d => ((d.await line r .hBi 0 true).send { kind := if r.kind.shares then .biSnpData else .biSnpInv, line }).count 0x8015 0xD v)
    | _ => x

/-- Whether a line takes a new request at once. -/
def GLine.open' (g : GLine) (r : HomeReq) : Bool :=
  !g.st.transient && g.queue.isEmpty && (g.ops == 0 || (match r.kind with | .atom .. => g.st == .i | _ => false))

/-- Allocate an absent line in FILL with its request queued, evicting a victim by its Evict row; false when no line of
the set is eligible (R170). -/
def X.allocate (x : X) (line : Nat) (r : HomeReq) (low : Bool) : X × Bool :=
  let g := sliceOf line
  let ls := x.dev.inSet g (setOf line)
  let place (y : X) (w : Nat) : X :=
    y.on (fun d => (d.setGline line { way := w, st := .fill, queue := [r], used := if low then lruPos ls else mruPos ls }).send
      { kind := .hbmRead, line })
  match x.dev.freeWay line with
  | some w => (place x w, true)
  | none =>
    match victimOf ls with
    | none => (x, false)
    | some (k, vg) => (place (x.serve k { kind := .evict true, port := .dma 0 }) vg.way, true)

/-- The placement hint of a request (R188); a host write carries that of its HDM range. -/
def HomeKind.hint : HomeKind → Nat
  | .wrU _ _ h | .memWr _ _ h => h.toNat
  | _ => 0
/-- Whether a request starts or advances a stream entry (R171). -/
def HomeKind.streams : HomeKind → Bool
  | .evict _ | .flush => false
  | k => k.hint == 0 || k.hint == 3
/-- Whether a request reads, and whether it writes a full line (R171). -/
def HomeKind.isRead : HomeKind → Bool
  | .getS | .rdU | .memRd _ => true
  | _ => false
def HomeKind.isFull : HomeKind → Bool
  | .wrU m _ _ | .memWr m _ _ => m == BitVec.allOnes 128
  | _ => false

/-- A request to a fenced home is answered with poison and a record, its write dropped (R21, R360). -/
def X.arriveFenced (x : X) (line : Nat) (r : HomeReq) : X :=
  let x := x.on (fun d => d.fencedRec line)
  match r.kind, r.port with
  | .getS, .core c => x.on (fun d => d.toCore .dataU line c 0 3)
  | .getM, .core c => x.on (fun d => d.toCore .noAlloc line c)
  | .atom .., .core c => x.atomBack (some c) line [] true
  | .wrU .., q | .memWr .., q => x.wrote q line
  | .rdU, q | .memRd _, q => x.on (fun d => d.toPort q line 0 3)
  | _, _ => x

/-- Add a request to a line's queue (R184); an eviction that an operation delays is counted (R176). -/
def X.queueUp (x : X) (line : Nat) (r : HomeReq) (g : GLine) : X :=
  let x := match r.kind with
    | .evict _ => if 0 < g.ops then x.on (fun d => d.count 0x8015 9 (vitOfAddr (line * 128)).toNat) else x
    | _ => x
  x.on (fun d => d.setGline line { g with queue := g.queue ++ [r] })

/-- Whether a request looks its line up (R175): a range operation's work on a line does not. -/
def HomeKind.looksUp : HomeKind → Bool
  | .evict _ | .flush => false
  | _ => true

/-- A request meets its line (R184, R186): a host write under a back-invalidate is taken, a line that is free serves, another queues. -/
def X.present (x : X) (line : Nat) (r : HomeReq) (g : GLine) : X :=
  match g.st, r.kind with
  | .hBi, .memWr mask new _ =>
    let m := mask &&& ~~~g.wr
    (x.on (fun d => d.setGline line { g with data := mergeLine g.data new m, dirty := true, poison := mergePoison g.poison m })).wrote r.port line
  | _, _ =>
    if g.open' r then
      let ls := x.dev.inSet (sliceOf line) (setOf line)
      (if r.kind.looksUp then x.on (fun d => d.setGline line { g with used := mruPos ls }) else x).serve line r
    else x.queueUp line r g

/-- A request finds no line (R170, R171): it goes past the Gallery, or allocates. -/
def X.absent (x : X) (line : Nat) (r : HomeReq) (isStream : Bool) : X :=
  let hint := r.kind.hint
  if isStream && r.kind.isRead then (x.on (fun d => d.count 0x8015 5 (vitOfAddr (line * 128)).toNat)).noAlloc line r true
  else if isStream && hint == 0 && r.kind.isFull then x.noAlloc line r false
  else if hint == 3 then x.noAlloc line r true
  else
    let (y, ok) := x.allocate line r (hint == 2)
    if ok then y else x.noAlloc line r true

/-- Serve requests that waited for a line, in arrival order, while its state allows (R184, R176); after an eviction they find no line. -/
def X.requeue (x : X) (line : Nat) (q : List HomeReq) : X :=
  q.foldl (fun (y : X) r =>
    match y.dev.gline line with
    | none => if r.kind.looksUp then y.absent line r false else y
    | some g => if g.open' r then y.serve line r else y.on (fun d => d.setGline line { g with queue := g.queue ++ [r] })) x

/-- Serve a line's queue while its state allows. -/
def X.drain (x : X) (line : Nat) : X :=
  match x.dev.gline line with
  | none => x
  | some g => (x.on (fun d => d.setGline line { g with queue := [] })).requeue line g.queue

/-- The responses awaited are complete: serve the request that waited, then the queue. -/
def X.resolve (x : X) (line : Nat) (st : DirSt) (keep : Sharers) : X :=
  match x.dev.gline line with
  | none => x
  | some g =>
    match g.cur with
    | none => (x.on (fun d => d.setGline line { g with st := st, sh := keep, owner := none, acks := 0, bi := false, wr := 0 })).drain line
    | some r =>
      let mid := if g.st == .sInv then { g with cur := none, acks := 0, bi := false, queue := [] }
        else { g with st := st, sh := keep, owner := none, cur := none, acks := 0, bi := false, wr := 0, queue := [] }
      let x := (x.on (fun d => d.setGline line mid)).act line r
      (x.on (fun d => d.updGline line (fun t => if t.st == .sInv then { t with st := .i } else t))).requeue line g.queue

/-- Whether a slice has no credit for a request: 64 requests queued (R184), or for an operation 64 queued at its unit (R176). -/
def Dev.withheld (d : Dev) (line : Nat) (r : HomeReq) : Bool :=
  let s := d.slice (sliceAt line)
  let isOp := match r.kind with | .atom .. => true | _ => false
  let taken := match (d.gline line).map (·.st), r.kind with | some .hBi, .memWr .. => true | _, _ => false
  !taken && (decide (64 ≤ (s.lines.map (fun e => e.2.queue.length)).sum) || (isOp && decide (64 ≤ s.ops.length)))

/-- A request arrives at its home (R184, R186, R170, R171). -/
def X.arrive (x : X) (line : Nat) (r : HomeReq) : X :=
  if x.dev.isFenced (dieOfVit (vitOfAddr (line * 128))) then x.arriveFenced line r
  else
    let st := if r.kind.streams then x.dev.stream line r.port else (x.dev, false)
    let x := { x with dev := st.1 }
    let x := if r.kind.looksUp then x.on (fun d => d.lookup line) else x
    match x.dev.gline line with
    | some g => x.present line r g
    | none => if r.kind.looksUp then x.absent line r st.2 else x

/-! ### Messages the table does not allow (R187) -/

def DirSt.code : DirSt → Nat
  | .i => 0 | .s => 1 | .ol => 2 | .oh => 3 | .fill => 4 | .sInv => 5 | .oRs => 6 | .oRi => 7 | .hBi => 8

/-- COHERENCE_PROTOCOL: an error record naming line, state and message; the entry stands, the tenancy's jobs end (R187). -/
def X.protocol (x : X) (line : Nat) (st msg : Nat) : X :=
  let v := vitOfAddr (line * 128)
  x.uncorrected { ukind := 3, unit := sliceOf line, cls := 9, outcome := 2, addr := line * 128, akind := 1,
                  detail := st * 256 + msg, vit := some v, die := dieOfVit v }

/-- The directory state of a line, I where it is absent. -/
def Dev.dirSt (d : Dev) (line : Nat) : DirSt := ((d.gline line).map (·.st)).getD .i

/-! ### Meanings -/

/-- The line of a window address command, when its home's die runs. -/
def onHome (s : State) (a : Addr) (f : Nat → X → X) : Out :=
  run s (fun x => if a.toNat < 2 ^ 41 && (x.dev.runs (dieOfVit (vitOfAddr a.toNat)) || x.dev.isFenced (dieOfVit (vitOfAddr a.toNat)))
    then f (a.toNat / 128) x else x)

/-- A request of a core reaches its home: the one in flight in its turn (R217), when the slice has credit for it (R184). -/
def X.arriveReq (x : X) (k : MsgKind) (l : Nat) (r : HomeReq) : X :=
  let c := portCore r.port
  if !x.dev.arrives k l c then x
  else if x.dev.withheld l r && !x.dev.isFenced (dieOfVit (vitOfAddr (l * 128))) then x.on (fun d => d.stall k l c)
  else (x.on (fun d => d.take k l c)).arrive l r

/-- GETS (R186). -/
def execGets (a : Addr) (c : CoreId) (s : State) : Out :=
  onHome s a (fun l x => x.arriveReq .getS l { kind := .getS, port := .core c })

/-- GETM (R186). -/
def execGetm (a : Addr) (c : CoreId) (s : State) : Out :=
  onHome s a (fun l x => x.arriveReq .getM l { kind := .getM, port := .core c })

/-- Whether a home can take a message: its die runs, or is fenced and answers so. -/
def Dev.answers (d : Dev) (a : Nat) : Bool := d.runs (dieOfVit (vitOfAddr a)) || d.isFenced (dieOfVit (vitOfAddr a))

/-- RDU (R186); a scratchpad line is read in place (R167). -/
def execRdu (a : Addr) (p : MPort) (s : State) : Out :=
  run s (fun x =>
    let l := a.toNat / 128
    if !x.dev.answers a.toNat then x
    else if a.toNat < 2 ^ 41 then x.arriveReq .rdU l { kind := .rdU, port := p }
    else match x.dev.place a.toNat with
      | .pad v _ =>
        if x.dev.isFenced (dieOfVit v) then x.on (fun d => (d.fencedRec l).toPort p l 0 3)
        else
          let y := x.finishPad l
          let (data, po) := y.mem.padLine l
          y.on (fun d => d.toPort p l data po)
      | _ => x)

/-- WRU (R188); a scratchpad line is written in place. The bytes and mask are those of the message in flight, where there is one. -/
def execWru (a : Addr) (p : MPort) (mask : BitVec 128) (data : Line) (hint : BitVec 2) (s : State) : Out :=
  run s (fun x =>
    let l := a.toNat / 128
    let (mask, data) := ((x.dev.flying .wrU l (portCore p)).map (fun m => (m.mask, m.data))).getD (mask, data)
    if !x.dev.answers a.toNat then x
    else if a.toNat < 2 ^ 41 then x.arriveReq .wrU l { kind := .wrU mask data hint, port := p }
    else match x.dev.place a.toNat with
      | .pad v _ =>
        if x.dev.isFenced (dieOfVit v) then (x.on (fun d => d.fencedRec l)).wrote p l
        else
          let y := (bits mask).foldl (fun (y : X) i => y.op (.set .pad (l * 128 + i) ((data >>> (8 * i)).setWidth 8))) (x.finishPad l)
          let y := if halfMask mask 0 == BitVec.allOnes 64 then y.op (.mark true (l * 2) false) else y
          let y := if halfMask mask 1 == BitVec.allOnes 64 then y.op (.mark true (l * 2 + 1) false) else y
          y.wrote p l
      | _ => x)

/-- ATOMRED (R176): copies are removed and the combined operation is queued; scratchpad lines need no coherence step. The operations are those of the
message in flight, where there is one. -/
def execAtomred (a : Addr) (c : CoreId) (ops : List ElemOp) (returns : Bool) (s : State) : Out :=
  run s (fun x =>
    let l := a.toNat / 128
    let ops := ((x.dev.flying .atomRed l (some c)).map (·.ops)).getD ops
    let r : HomeReq := { kind := .atom ops returns, port := .core c }
    if !x.dev.answers a.toNat || !x.dev.arrives .atomRed l (some c) then x
    else if x.dev.withheld l r && !x.dev.isFenced (dieOfVit (vitOfAddr a.toNat)) then x.on (fun d => d.stall .atomRed l (some c))
    else
      let x := x.on (fun d => d.take .atomRed l (some c))
      let x := if returns then x else x.on (fun d => d.count 0x8015 7 (vitOfAddr a.toNat).toNat)
      if a.toNat < 2 ^ 41 then x.arrive l r
      else match x.dev.place a.toNat with
        | .pad v _ =>
          if x.dev.isFenced (dieOfVit v) then (x.on (fun d => d.fencedRec l)).atomBack (some c) l [] true
          else x.on (fun d => d.setSlice (sliceAt l) (fun t => { t with ops := t.ops ++ [{ line := l, todo := ops, old := [], core := some c, returns }] }))
        | _ => x)

/-- SLICE_OP_APPLY (R176): the unit applies the next element operation; an operation that meets a poisoned granule performs none (R356). When a
line's last operation retires its queue is served. A request that reads or writes the line in between finds the operation wholly performed (R206). -/
def execSliceOpApply (sl : ChanId) (s : State) : Out :=
  run s (fun x =>
    if !x.dev.runs (sl.val / 96) then x else
    match (x.dev.slice sl.val).ops with
    | [] => x
    | o :: rest =>
      let pad := decide (2 ^ 41 / 128 ≤ o.line)
      let cur : Option (Line × BitVec 2) := if pad then some (x.mem.padLine o.line) else (x.dev.gline o.line).map (fun g => (g.data, g.poison))
      let finish (y : X) (old : List (Nat × Nat)) (bad : Bool) : X :=
        let y := y.on (fun d => (d.setSlice sl.val (fun t => { t with ops := rest })).updGline o.line (fun g => { g with ops := g.ops - 1 }))
        let y := (if bad then y.on (fun d => d.poisonRec o.line) else y).atomBack o.core o.line old bad
        if pad then y else y.drain o.line
      match cur, o.todo with
      | none, _ => x.on (fun d => d.setSlice sl.val (fun t => { t with ops := rest }))
      | some _, [] => finish x o.old o.bad
      | some (data, po), e :: todo =>
        if o.todo.any (fun e => po.getLsbD (e.off.toNat / 64)) then finish x [] true
        else
          let (data', old) := elemStep e data
          let n := if e.wide then 8 else 4
          let y := if pad then x.putBytes .pad (o.line * 128 + e.off.toNat) (leBytes (lineGet data' e.off.toNat n) n)
            else x.on (fun d => d.updGline o.line (fun g => { g with data := data', dirty := true }))
          let olds := o.old ++ [(e.lane.toNat, old)]
          if todo.isEmpty then finish y olds false
          else y.on (fun d => d.setSlice sl.val (fun t => { t with ops := { o with todo := todo, old := olds } :: rest })))

/-- EVICT (R186). -/
def execEvict (a : Addr) (wb : Bool) (s : State) : Out :=
  onHome s a (fun l x => x.arrive l { kind := .evict wb, port := .dma 0 })

/-- FLUSH (R186). -/
def execFlush (a : Addr) (s : State) : Out :=
  onHome s a (fun l x => x.arrive l { kind := .flush, port := .dma 0 })

/-- A message of a core that a home always takes (R216): the one in flight in its turn, with its data, or one that no unit of the model sent. -/
def fromCore (s : State) (k : MsgKind) (a : Addr) (c : CoreId) (data : Line) (f : Nat → Line → BitVec 2 → X → X) : Out :=
  onHome s a (fun l x =>
    if !x.dev.arrives k l (some c) then x
    else
      let (data, po) := ((x.dev.flying k l (some c)).map (fun m => (m.data, m.poison))).getD (data, 0)
      f l data po (x.on (fun d => d.take k l (some c))))

/-- PUTE (R186): an owner's clean release. -/
def execPute (a : Addr) (c : CoreId) (s : State) : Out :=
  fromCore s .putE a c 0 (fun l _ _ x =>
    match x.dev.gline l with
    | some g =>
      if g.owner == some c && g.st == .ol then
        x.on (fun d => (d.setGline l { g with st := .i, owner := none, sh := {} }).toCore .putAck l c)
      else if g.owner == some c && (g.st == .oRs || g.st == .oRi) then
        x.on (fun d => (d.setGline l { g with owner := none }).toCore .putAck l c)
      else x.protocol l g.st.code 6
    | none => x.protocol l 0 6)

/-- PUTM (R186): an owner's modified data. -/
def execPutm (a : Addr) (c : CoreId) (data : Line) (s : State) : Out :=
  fromCore s .putM a c data (fun l data po x =>
    match x.dev.gline l with
    | some g =>
      if g.owner == some c && g.st == .ol then
        x.on (fun d => (d.setGline l { g with st := .i, owner := none, sh := {}, data, poison := po, dirty := true }).toCore .putAck l c)
      else if g.owner == some c && (g.st == .oRs || g.st == .oRi) then
        x.on (fun d => (d.setGline l { g with owner := none, data, poison := po, dirty := true }).toCore .putAck l c)
      else x.protocol l g.st.code 7
    | none => x.protocol l 0 7)

/-- INVACK (R186): the last one completes the pending request. -/
def execInvack (a : Addr) (c : CoreId) (s : State) : Out :=
  fromCore s .invAck a c 0 (fun l _ _ x =>
    match x.dev.gline l with
    | some g =>
      if g.st == .sInv && 0 < g.acks then
        let x := x.on (fun d => d.setGline l { g with acks := g.acks - 1 })
        if g.acks == 1 && !g.bi then x.resolve l .i g.sh else x
      else x.protocol l g.st.code 8
    | none => x.protocol l 0 8)

/-- RSPDATA (R186): a recalled owner's data. -/
def execRspdata (a : Addr) (c : CoreId) (data : Line) (s : State) : Out :=
  fromCore s .rspData a c data (fun l data po x =>
    match x.dev.gline l with
    | some g =>
      if g.st == .oRs then (x.on (fun d => d.setGline l { g with data, poison := po, dirty := true })).resolve l .s { cores := [c] }
      else if g.st == .oRi then (x.on (fun d => d.setGline l { g with data, poison := po, dirty := true })).resolve l .i {}
      else x.protocol l g.st.code 9
    | none => x.protocol l 0 9)

/-- RSPNODATA (R186): a recall answered without data. -/
def execRspnodata (a : Addr) (c : CoreId) (s : State) : Out :=
  fromCore s .rspNoData a c 0 (fun l _ _ x =>
    match x.dev.gline l with
    | some g =>
      if g.st == .oRs then x.resolve l .s (if g.owner == some c then { cores := [c] } else {})
      else if g.st == .oRi then x.resolve l .i {}
      else x.protocol l g.st.code 10
    | none => x.protocol l 0 10)

/-- BIRSP (R189): the host's answer to a back-invalidate, BIRspS only where BISnpData asked. -/
def execBirsp (a : Addr) (shared : Bool) (s : State) : Out :=
  onHome s a (fun l x =>
    match x.dev.gline l with
    | some g =>
      if shared && !(g.st == .hBi && g.cur.any (fun r => r.kind.shares)) then x.protocol l g.st.code 11
      else
        let x := x.on (fun d => (d.take .biSnpData l none).take .biSnpInv l none)
        if g.st == .hBi then x.resolve l (if shared then .s else .i) { host := shared }
        else if g.st == .sInv && g.bi then
          let x := x.on (fun d => d.setGline l { g with bi := false })
          if g.acks == 0 then x.resolve l .i g.sh else x
        else x.protocol l g.st.code 11
    | none => x.protocol l 0 11)

/-- HBM_FILL_DATA (R186): a line in FILL takes its HBM contents and serves its queue, once the way's former line is gone. -/
def execHbmFillData (a : Addr) (poison : BitVec 2) (s : State) : Out :=
  onHome s a (fun l x =>
    match x.dev.gline l with
    | some g =>
      if g.st == .fill then
        if (x.dev.inSet (sliceOf l) (setOf l)).any (fun e => e.1 != l && e.2.way == g.way) then x
        else
          let (x, data, p) := (x.on (fun d => d.take .hbmRead l none)).rdLine l
          let po := p ||| poison ||| x.dev.retPoison l
          (x.on (fun d => (d.dropRet l [0, 1]).setGline l { g with st := .i, data, poison := po })).drain l
      else x.protocol l g.st.code 12
    | none => x.protocol l 0 12)

/-- STREAM_ENTRY_EXPIRY (R171): an entry that has not advanced for 4,096 Gallery cycles is freed; the command's time is at least that. -/
def execStreamEntryExpiry (sl : ChanId) (p : MPort) (k : BitVec 4) (s : State) : Out :=
  runDev s (fun _ _ d =>
    match ((d.slice sl.val).port p)[k.toNat]? with
    | some e =>
      if e.live && d.runs (sl.val / 96) then
        (d.reachRoot (sl.val / 96) (4 * (e.moved + 4096))).setSlice sl.val (fun t =>
          t.setPort p (setNth (t.port p) k.toNat { e with live := false, moved := e.moved + 4096 }))
      else d
    | none => d)

end Sys2Proof.Machine
end

