-- ==== Sys2Proof/Machine/L1.lean ====
section
/-! DEFINITION. The L1 data cache: the message rows of R185. -/

namespace Sys2Proof.Machine

def L1St.code : L1St → Nat
  | .i => 0 | .s => 1 | .e => 2 | .m => 3 | .isD => 4 | .imD => 5 | .smD => 6 | .xiA => 7

/-- A message for a core's L1, the one in flight in its turn (R217) with its data, or one that no unit of the model sent: `f` sees the line's number and state,
and the data, while the core's die runs. -/
def onL1 (s : State) (k : MsgKind) (c : CoreId) (a : Addr) (data : Line) (poison : BitVec 2) (f : Nat → L1St → Line → BitVec 2 → X → X) : Out :=
  run s (fun x =>
    let l := a.toNat / 128
    if x.dev.runs (dieOfCore c) && x.dev.arrives k l (some c) then
      let (data, po) := ((x.dev.flying k l (some c)).map (fun m => (m.data, m.poison))).getD (data, poison)
      let x := x.on (fun d => d.take k l (some c))
      f l (x.dev.l1St c l) data po x
    else x)

/-- A message the table marks X for this state (R187); `16 +` tells L1 states from directory states. -/
def X.l1Protocol (x : X) (c : CoreId) (line : Nat) (st : L1St) (msg : Nat) : X :=
  let v := vitOfCore c
  (x.on (fun d => d.slotFault c)).uncorrected { ukind := 1, unit := x.dev.physSlot c, cls := 9, outcome := 2, addr := line * 128, akind := 1,
                                                detail := (16 + st.code) * 256 + msg, vit := some v, die := dieOfCore c }

/-- Fill a line in a state, complete its waiting loads, and advance the core. -/
def X.fill (x : X) (c : CoreId) (line : Nat) (st : L1St) (data : Line) (poison : BitVec 2) : X :=
  (x.on (fun d => ((d.setL1 c line { st, data, poison, used := 0 }).touchL1 c line).fillLoads c line data poison)).pump c

/-- Perform the oldest waiting store to a line that is now owned (R185, Store performed → M). -/
def X.ownLine (x : X) (c : CoreId) (line : Nat) (data : Line) (poison : BitVec 2) : X :=
  let l0 : L1Line := { st := .m, data, poison, used := 0 }
  match (x.dev.core c).dueStore line with
  | some o => (x.on (fun d => ((d.setL1 c line (o.writeInto line l0)).touchL1 c line).setOp c o.id (fun p => p.dropLine line))).pump c
  | none => (x.on (fun d => (d.setL1 c line l0).touchL1 c line)).pump c

/-- DATAS (R185). -/
def execDatas (c : CoreId) (a : Addr) (data : Line) (poison : BitVec 2) (s : State) : Out :=
  onL1 s .dataS c a data poison (fun l st data poison x => match st with
    | .isD => x.fill c l .s data poison
    | _ => x.l1Protocol c l st 20)

/-- DATAE (R185). -/
def execDatae (c : CoreId) (a : Addr) (data : Line) (poison : BitVec 2) (s : State) : Out :=
  onL1 s .dataE c a data poison (fun l st data poison x => match st with
    | .isD => x.fill c l .e data poison
    | _ => x.l1Protocol c l st 21)

/-- DATAU (R185): the load completes and the line returns to I. -/
def execDatau (c : CoreId) (a : Addr) (data : Line) (poison : BitVec 2) (s : State) : Out :=
  onL1 s .dataU c a data poison (fun l st data poison x => match st with
    | .isD => (x.on (fun d => (d.delL1 c l).fillLoads c l data poison)).pump c
    | _ => x.l1Protocol c l st 22)

/-- DATAM (R185): the store is performed and the line enters M. -/
def execDatam (c : CoreId) (a : Addr) (data : Line) (poison : BitVec 2) (s : State) : Out :=
  onL1 s .dataM c a data poison (fun l st data poison x => match st with
    | .imD | .smD => x.ownLine c l data poison
    | _ => x.l1Protocol c l st 23)

/-- GRANTM (R185): the S data is owned. -/
def execGrantm (c : CoreId) (a : Addr) (s : State) : Out :=
  onL1 s .grantM c a 0 0 (fun l st _ _ x => match st, x.dev.l1 c l with
    | .smD, some k => x.ownLine c l k.data k.poison
    | _, _ => x.l1Protocol c l st 24)

/-- NOALLOC (R185): the store is sent as WrU and the line returns to I. -/
def execNoalloc (c : CoreId) (a : Addr) (s : State) : Out :=
  onL1 s .noAlloc c a 0 0 (fun l st _ _ x => match st with
    | .imD | .smD =>
      match (x.dev.core c).dueStore l with
      | some o =>
        let (mask, data) := o.wrMask l
        x.on (fun d => ((d.delL1 c l).setOp c o.id (fun p =>
          { p with accs := p.accs.map (fun b => if b.line == l then { b with sent := true } else b) })).send
          { kind := .wrU, line := l, core := some c, mask, data })
      | none => x.on (fun d => d.delL1 c l)
    | _ => x.l1Protocol c l st 25)

/-- INV (R185). -/
def execInv (c : CoreId) (a : Addr) (s : State) : Out :=
  onL1 s .inv c a 0 0 (fun l st _ _ x =>
    let ack (y : X) : X := y.on (fun d => d.send { kind := .invAck, line := l, core := some c })
    match st, x.dev.l1 c l with
    | .i, _ | .isD, _ | .imD, _ => ack x
    | .s, _ => ack (x.on (fun d => d.delL1 c l))
    | .smD, some k => ack (x.on (fun d => d.setL1 c l { k with st := .imD }))
    | _, _ => x.l1Protocol c l st 26)

/-- A recall: the owner answers with data from M, without from E and XI_A (R185). -/
def X.recall (x : X) (c : CoreId) (l : Nat) (st : L1St) (shared : Bool) (msg : Nat) : X :=
  let keep (y : X) (k : L1Line) : X := y.on (fun d => if shared then d.setL1 c l { k with st := .s } else d.delL1 c l)
  match st, x.dev.l1 c l with
  | .e, some k => keep (x.on (fun d => d.send { kind := .rspNoData, line := l, core := some c })) k
  | .m, some k => keep (x.on (fun d => d.send { kind := .rspData, line := l, core := some c, data := k.data, poison := k.poison })) k
  | .xiA, _ => x.on (fun d => d.send { kind := .rspNoData, line := l, core := some c })
  | _, _ => x.l1Protocol c l st msg

/-- RECALLS (R185). -/
def execRecalls (c : CoreId) (a : Addr) (s : State) : Out :=
  onL1 s .recallS c a 0 0 (fun l st _ _ x => x.recall c l st true 27)

/-- RECALLI (R185). -/
def execRecalli (c : CoreId) (a : Addr) (s : State) : Out :=
  onL1 s .recallI c a 0 0 (fun l st _ _ x => x.recall c l st false 28)

/-- PUTACK (R185): the line leaves XI_A, and accesses that waited for its way proceed. -/
def execPutack (c : CoreId) (a : Addr) (s : State) : Out :=
  onL1 s .putAck c a 0 0 (fun l st _ _ x => match st with
    | .xiA => (x.on (fun d => d.delL1 c l)).pump c
    | _ => x.l1Protocol c l st 29)

/-- H2D_SNOOP (R190): the device holds no copy of host memory and answers RspIHitI. -/
def execH2dSnoop (a : BitVec 52) (s : State) : Out :=
  runDev s (fun _ _ d => d.send { kind := .rspIHitI, line := a.toNat / 128 })

end Sys2Proof.Machine
end

