-- ==== Sys2Proof/Machine/Thread.lean ====
section
/-! DEFINITION. Blocks and thread groups: dispatch (R33-R41), issue (R42-R44), divergence (R47, R48), waiting and barriers
(R49-R53) and swapping (R54, R55). -/

namespace Sys2Proof.Machine

/-! ### Occupancy (R38-R41) -/

def gran64 (n : Nat) : Nat := cdiv n 65536
def gran2 (n : Nat) : Nat := cdiv n 2048

/-- Blocks resident on a core, and on the eight cores of a cluster. -/
def Dev.resident (d : Dev) (c : CoreId) : List Block := (d.core c).slots.map (·.2)
def Dev.clusBlocks (d : Dev) (k : Nat) : List Block := (List.range 8).flatMap (fun i => d.resident (BitVec.ofNat 9 (k * 8 + i)))

/-- Whether a block of a launch fits on a core after its admission (R39). -/
def Dev.fits (d : Dev) (c : CoreId) (l : Launch) : Bool :=
  let bs := d.resident c
  let k := clusOfCore c
  let regs := bs.foldl (fun n b => n + b.launch.g * 32 * b.launch.r) (l.g * 32 * l.r)
  let scr := bs.foldl (fun n b => n + gran2 b.launch.s) (gran2 l.s)
  let grps := bs.foldl (fun n b => n + b.launch.g) l.g
  let clus := (d.clusBlocks k).foldl (fun n b => n + gran64 b.launch.c) (gran64 l.c + (d.clu k).stepGran.length)
  regs ≤ 65536 && scr ≤ 256 && grps ≤ 64 && bs.length < 16 && clus ≤ 256

/-- The first `n` granules below `max` not in use. -/
def freeGran (n max : Nat) (used : List Nat) : List Nat := ((List.range max).filter (fun i => !used.contains i)).take n

/-- Admit a block to a core (R36): granules, group slots and, for a new block, its groups with all threads active. The block slot and the group slots
are the lowest free ones (DESIGN CHOICE, log 68). -/
def Dev.takeIn (d : Dev) (c : CoreId) (b : Block) (fresh : Bool) : Dev × Nat :=
  let k := clusOfCore c
  let bs := d.resident c
  let slot := ((List.range 16).find? (fun i => (d.blk c i).isNone)).getD 0
  let scr := freeGran (gran2 b.launch.s) 256 (bs.flatMap (·.scrGran))
  let clus := freeGran (gran64 b.launch.c) 256 ((d.clu k).stepGran ++ (d.clusBlocks k).flatMap (·.clusGran))
  let gs := freeGran b.launch.g 64 (bs.flatMap (fun q => q.groups.map (fun h => h.gslot.toNat)))
  let now := d.cycOf c
  let mk (i : Nat) : Group :=
    { paths := [{ pc := b.launch.entry, mask := BitVec.allOnes 32 }], stamp := now, gslot := BitVec.ofNat 6 (nthD 0 gs i) }
  let groups := if fresh then (List.range b.launch.g).map mk
    else b.groups.zipIdx.map (fun e => { e.1 with stamp := now, gslot := BitVec.ofNat 6 (nthD 0 gs e.2), active := false })
  (d.setBlk c slot { b with groups := groups, scrGran := scr, clusGran := clus, admitted := now }, slot)

/-- The non-zero bytes of a block's scratch and block region, by offset. -/
def X.blockBytes (x : X) (c : CoreId) (b : Block) : List (Nat × Byte) × List (Nat × Byte) :=
  let pick (g : List Nat) (size base : Nat) (m : List Host.Cell) : List (Nat × Byte) :=
    g.zipIdx.flatMap (fun e => (m.filter (fun q => base + e.1 * size ≤ q.1 && q.1 < base + e.1 * size + size)).map
      (fun q => (e.2 * size + (q.1 - base - e.1 * size), q.2)))
  (pick b.scrGran 2048 (c.toNat * 2 ^ 19) x.mem.scr, pick b.clusGran 65536 (clusOfCore c * 2 ^ 24) x.mem.clus)

/-- Write saved bytes into a block's granules, which first read zero there. -/
def X.restoreBytes (x : X) (c : CoreId) (b : Block) (scr clus : List (Nat × Byte)) : X :=
  let x := b.scrGran.foldl (fun (y : X) g => y.op (.zero .scr (c.toNat * 2 ^ 19 + g * 2048) 2048)) x
  let x := b.clusGran.foldl (fun (y : X) g => y.op (.zero .clus (clusOfCore c * 2 ^ 24 + g * 65536) 65536)) x
  let x := scr.foldl (fun (y : X) e => y.op (.set .scr (b.scrAt c e.1) e.2)) x
  clus.foldl (fun (y : X) e => y.op (.set .clus (b.clusAt c e.1) e.2)) x

/-- A block's open banks (R68). -/
def Block.openBanks (b : Block) : Nat := (if b.bank0.isOpen then 1 else 0) + (if b.bank1.isOpen then 1 else 0)

/-- A block's live bytes in a save, counted as R279 counts them: registers, scratch, block region, open banks of 16 KiB,
three walker contexts of 256 bytes, armed or not (R113), and 4 KiB of control state. -/
def Block.liveBytes (b : Block) : Nat :=
  b.launch.g * 32 * b.launch.r * 4 + b.scrGran.length * 2048 + b.clusGran.length * 65536 + b.openBanks * 16384 + 768 + 4096

/-! ### Dispatch (R33, R34) -/

/-- Whether the Docent accepts a launch (R33). -/
def Dev.launchOk (d : Dev) (l : Launch) : Bool :=
  let have' := (d.clu (l.v.toNat * 2)).stepBytes
  1 ≤ l.blocks && l.blocks < 2 ^ 32 && 1 ≤ l.g && l.g ≤ 32 && 16 ≤ l.r && l.r ≤ 256 && l.r % 8 == 0 && l.s ≤ 2 ^ 19 &&
  l.c ≤ 2 ^ 24 && l.step ≤ 2 ^ 24 && l.g * 32 * l.r ≤ 65536 && gran64 l.c + gran64 l.step ≤ 256 &&
  (match have' with
    | some h => gran64 l.step ≤ gran64 h && !(l.step < gran64 h * 65536 && 256 < gran64 l.c + gran64 h)
    | none => true)

/-- Whether a Vitrine's dispatcher works: its step runs, it is neither stopped nor held nor halted (R34, R63, R278). -/
def Dev.dispatches (d : Dev) (v : VitId) : Bool :=
  d.runs (dieOfVit v) && !(d.vit v).disp.stopped && !(d.vit v).disp.held && (d.vit v).halt == 0 &&
  (match d.stepOn v with | some s => s.works | none => false)

/-- The current launch of a dispatcher has retired, or there is none. -/
def Disp.idle (p : Disp) : Bool :=
  match p.cur with
  | none => true
  | some (_, l) => p.retired == l.blocks

/-- Allocate the step region of a cluster, unless it is allocated already or none is declared (R40). -/
def Dev.openStep (d : Dev) (k step : Nat) : Dev :=
  if step == 0 || (d.clu k).stepBytes.isSome then d
  else d.setClu k (fun _ => { stepBytes := some step, stepGran := freeGran (gran64 step) 256 ((d.clusBlocks k).flatMap (·.clusGran)) })

/-- LAUNCH_DISPATCH (R33, R34, R40): the next launch is checked, its step regions are allocated and its blocks wait. -/
def execLaunchDispatch (v : VitId) (s : State) : Out :=
  run s (fun x =>
    let p := (x.dev.vit v).disp
    if !(x.dev.dispatches v && p.idle) || ((x.dev.stepOn v).map StepRec.holds).getD false then x else
    match p.launches, x.dev.stepOn v with
    | (i, l) :: rest, some st =>
      if x.dev.launchOk l then
        x.on (fun d => (((clusOfVit v).foldl (fun (e : Dev) k => e.openStep k l.step) d).setVit v (fun t =>
          { t with disp := { t.disp with launches := rest, cur := some (i, l), next := 0, rot := 0, retired := 0 } })).trace v 3 0x3FF i)
      else
        let n := x.dev.fresh
        let c := BitVec.ofNat 9 (v.toNat * 16 + (Config.launchExcCore n).toNat)
        let rec' : ExcRec := { addr := 0, space := 0, lanes := 0, pc := Config.launchExcPc n, block := 0, gslot := Config.launchExcSlot n,
                               core := c, code := 0x07, seq := st.seq, launch := BitVec.ofNat 16 i, detail := 0 }
        x.on (fun d => (({ d with fresh := n + 1 } : Dev).setStep st (fun t => { t with recs := kset t.recs c.toNat rec' })).squashStep st 4)
    | _, _ => x)

/-- A swapped block returns to a core of its cluster (R35, R54); the free capacity of the share's cache part is its size less the pinned bytes (DESIGN CHOICE,
log 69). -/
def X.restore (x : X) (c : CoreId) (w : Swapped) (out : Nat) (bySwap : Bool := true) : X :=
  let (d, slot) := x.dev.takeIn c { w.blk with restoring := true, bySwap := bySwap } false
  let x := { x with dev := d }
  match x.dev.blk c slot with
  | none => x
  | some b =>
    let x := x.restoreBytes c b w.scr w.clus
    let v := vitOfCore c
    let sz := out + b.liveBytes
    let cap := x.dev.cacheBytes v - (x.dev.vit v).pinned
    let t := 400 + cdiv (min sz cap) 1536 + cdiv (sz - cap) 384
    x.on (fun d => d.setCore c (fun k => { k with swap := some { start := d.cycOf c, cycles := t, slot } }))

/-- BLOCK_DISPATCH (R34, R54): room takes a SWAPPED block of its cluster first, earliest swap first, on the lowest core with room (DESIGN CHOICE, log 68),
then the next WAITING block on the next core in rotation where it fits. -/
def execBlockDispatch (v : VitId) (s : State) : Out :=
  run s (fun x =>
    if !x.dev.dispatches v then x else
    let p := (x.dev.vit v).disp
    let room (w : Swapped) : Option CoreId :=
      ((List.range 8).map (fun i => (BitVec.ofNat 9 (w.cluster.toNat * 8 + i) : CoreId))).find? (fun c =>
        (x.dev.core c).swap.isNone && x.dev.fits c w.blk.launch)
    match p.swapped.zipIdx.find? (fun e => (room e.1).isSome) with
    | some (w, i) =>
      match room w with
      | some c => (x.on (fun d => d.setVit v (fun t => { t with disp := { t.disp with swapped := t.disp.swapped.eraseIdx i } }))).restore c w 0 false
      | none => x
    | none =>
      match p.cur, x.dev.stepOn v with
      | some (ix, l), some st =>
        if p.next < l.blocks then
          match ((List.range 16).map (fun i => (p.rot + i) % 16)).find? (fun i => x.dev.fits (BitVec.ofNat 9 (v.toNat * 16 + i)) l) with
          | some i =>
            x.on (fun d =>
              let (d, _) := d.takeIn (BitVec.ofNat 9 (v.toNat * 16 + i)) { launch := l, launchIx := ix, index := p.next, seq := st.seq, leader := st.leader } true
              d.setVit v (fun t => { t with disp := { t.disp with next := p.next + 1, rot := (i + 1) % 16 } }))
          | none => x
        else x
      | _, _ => x)

/-- Whether a block has no operation outstanding: accesses of its core, and its engine's instructions (R35, R55). -/
def Dev.quiet (d : Dev) (c : CoreId) (slot : Nat) : Bool :=
  match d.blk c slot with
  | none => true
  | some b => !((d.core c).ops.any (fun o => o.owner.slot == slot && o.owner.launchIx == b.launchIx && o.owner.block == b.index))
      && (d.core c).eng.quiet slot && !(d.fab.ins.any (fun i => i.core == c && i.owner.slot == slot && i.owner.launchIx == b.launchIx && i.owner.block == b.index))

/-- BLOCK_RETIRE (R35). -/
def execBlockRetire (c : CoreId) (sl : SlotId) (s : State) : Out :=
  runDev s (fun _ _ d =>
    match d.blk c sl.toNat with
    | some b =>
      if b.groups.all Group.done && d.quiet c sl.toNat && d.runs (dieOfCore c) then
        (d.delBlk c sl.toNat).setVit (vitOfCore c) (fun t => { t with disp := { t.disp with retired := t.disp.retired + 1 } })
      else d
    | none => d)

/-! ### Swapping (R54, R55) -/

/-- Whether a swap may take a block out: one that a swap admitted stays until it has been resident for 4,096 core cycles (R54). -/
def Block.swappable (b : Block) (now : Nat) : Bool := !b.bySwap || decide (b.admitted + 4096 ≤ now)

/-- Swap out blocks, longest blocked first and lower slot first on a tie, until a launch's block fits; the saved blocks' live bytes. A block's operations
in flight complete before it is saved (R55): none while the next block in order waits for its own, or when the launch's block does not fit. -/
def X.swapOut (x : X) (c : CoreId) (l : Launch) : Option (X × Nat) :=
  let now := x.dev.cycOf c
  let order := ((x.dev.core c).slots.filter (fun e => e.2.swappable now)).filterMap (fun e => e.2.blockedAt.map (fun t => (t, e.1)))
  let order := order.mergeSort (fun a b => a.1 < b.1 || (a.1 == b.1 && a.2 ≤ b.2))
  let (y, out, busy) := order.foldl (fun (acc : X × Nat × Bool) e =>
    let (y, out, busy) := acc
    if busy || y.dev.fits c l then acc
    else if !y.dev.quiet c e.2 then (y, out, true)
    else match y.dev.blk c e.2 with
      | none => acc
      | some b =>
        let (scr, clus) := y.blockBytes c b
        let w : Swapped := { cluster := BitVec.ofNat 6 (clusOfCore c), blk := b, scr, clus }
        (y.on (fun d => (((d.delBlk c e.2).setVit (vitOfCore c) (fun t => { t with disp := { t.disp with swapped := t.disp.swapped ++ [w] } })).count
          0x8010 1 (vitOfCore c).toNat).count 0x8011 6 (vitOfCore c).toNat b.openBanks), out + b.liveBytes, false)) (x, 0, false)
  if !busy && y.dev.fits c l then some (y, out) else none

/-- The swap for a launch's block: as soon as every resident block has been blocked for 4,096 core cycles, or else once the
block that a swap admitted last has been resident so long (R54). -/
def X.makeRoom (x : X) (c : CoreId) (l : Launch) : Option (X × Nat) :=
  let bs := x.dev.resident c
  let x := x.on (fun d => d.reachOf c (bs.foldl (fun n b => max n (b.blockedAt.getD 0 + 4096)) 0))
  match x.swapOut c l with
  | some r => some r
  | none => (x.on (fun d => d.reachOf c ((bs.filter (·.bySwap)).foldl (fun n b => max n (b.admitted + 4096)) 0))).swapOut c l

/-- BLOCK_SWAP (R54): every resident block has been blocked for 4,096 core cycles and a runnable block waits; a WAITING
block goes before a SWAPPED one. -/
def execBlockSwap (c : CoreId) (s : State) : Out :=
  run s (fun x =>
    let v := vitOfCore c
    let p := (x.dev.vit v).disp
    let bs := x.dev.resident c
    let ok := x.dev.dispatches v && (x.dev.core c).swap.isNone && !bs.isEmpty && bs.all (fun b => b.blockedAt.isSome && !b.restoring)
    if !ok then x else
    match p.cur, x.dev.stepOn v with
    | some (ix, l), some st =>
      if p.next < l.blocks then
        match x.makeRoom c l with
        | some (y, out) =>
          let (d, slot) := y.dev.takeIn c { launch := l, launchIx := ix, index := p.next, seq := st.seq, leader := st.leader, restoring := true, bySwap := true } true
          let cap := d.cacheBytes v - (d.vit v).pinned
          let t := 400 + cdiv (min out cap) 1536 + cdiv (out - cap) 384
          let d := d.setVit v (fun t => { t with disp := { t.disp with next := p.next + 1, rot := (c.toNat % 16 + 1) % 16 } })
          { y with dev := d.setCore c (fun k => { k with swap := some { start := d.cycOf c, cycles := t, slot } }) }
        | none => x
      else
        match p.swapped.zipIdx.find? (fun e => e.1.cluster.toNat == clusOfCore c) with
        | some (w, i) =>
          match x.makeRoom c w.blk.launch with
          | some (y, out) =>
            (y.on (fun d => d.setVit v (fun t => { t with disp := { t.disp with swapped := t.disp.swapped.eraseIdx i } }))).restore c w out
          | none => x
        | none => x
    | _, _ => x)

/-- SWAP_COMPLETE (R55): T_swap has passed and the admitted block is RESIDENT. -/
def execSwapComplete (c : CoreId) (s : State) : Out :=
  runDev s (fun _ _ d =>
    match (d.core c).swap with
    | some w =>
      if d.runs (dieOfCore c) then
        let d := d.reachOf c (w.start + w.cycles)
        let now := d.cycOf c
        (d.updBlk c w.slot (fun b => { b with restoring := false, admitted := now, groups := b.groups.map (fun q => { q with stamp := now }) })).setCore c
          (fun k => { k with swap := none })
      else d
    | none => d)

/-! ### Issue (R42-R44) -/

/-- Whether two classes pair in one cycle (R44). -/
def pairs : IClass → IClass → Bool
  | .v, _ => true
  | _, .v => true
  | a, b => a != b

/-- The earlier of two groups by admission stamp, lower slot and group index first (R42). -/
def earlier (a b : Nat × Nat × Nat) : Bool :=
  a.1 < b.1 || (a.1 == b.1 && (a.2.1 < b.2.1 || (a.2.1 == b.2.1 && a.2.2 < b.2.2)))

/-- The view with the earliest admission stamp. -/
def Dev.earliest (d : Dev) (c : CoreId) (l : List IssueView) : Option IssueView :=
  let key (w : IssueView) : Nat × Nat × Nat :=
    (((d.grp { core := c, slot := w.slot, grp := w.grp }).map (fun e => e.2.stamp)).getD 0, w.slot.toNat, w.grp.toNat)
  l.foldl (fun b w => match b with
    | none => some w
    | some u => if earlier (key w) (key u) then some w else some u) none

/-- The group of a view. -/
def viewRef (c : CoreId) (w : IssueView) : GRef := { core := c, slot := w.slot, grp := w.grp }
/-- Whether the group of a view is in the active set, and whether it may run. -/
def Dev.inActive (d : Dev) (c : CoreId) (w : IssueView) : Bool := ((d.grp (viewRef c w)).map (fun e => e.2.active)).getD false
def Dev.mayRun (d : Dev) (c : CoreId) (w : IssueView) : Bool :=
  ((d.grp (viewRef c w)).map (fun e => !e.1.restoring && !e.2.done && !e.2.paths.isEmpty)).getD false

/-- Whether the unit of a class is free (R44, R45). -/
def Dev.unitFree (d : Dev) (c : CoreId) (cls : IClass) : Bool := kget 0 (d.core c).busy (clsCode cls) ≤ d.cycOf c

/-- The active set of a core for this cycle: groups that wait on a missed load leave it, and when fewer than eight stand in it the ready
pending group admitted earliest enters (R42). -/
def Dev.changeActive (d : Dev) (c : CoreId) (views : List IssueView) : Dev :=
  let d := d.eachGrp ((views.filter (·.missed)).map (fun w => (viewRef c w, fun q => { q with active := false })))
  let room := decide (((d.resident c).flatMap (·.groups)).countP (fun q => q.active) < 8)
  match d.earliest c (views.filter (fun w => room && !d.inActive c w && w.ready && !w.missed)) with
  | some w => d.updGrp (viewRef c w) (fun q => { q with active := true, entered := d.cycOf c, idle := 0 })
  | none => d

/-- The slot and group of a view. -/
def viewName (w : IssueView) : Nat × Nat := (w.slot.toNat, w.grp.toNat)

/-- The views that issue in slots 0 and 1, of the ready ones (R42-R44): a group not issued for 16 cycles first, else the one that issued in slot 0 last, else
the earliest; then its own next instruction, or the earliest other group that pairs. -/
def Dev.pick (d : Dev) (c : CoreId) (ready : List IssueView) : Option IssueView × Option IssueView :=
  let starving := ready.filter (fun w => ((d.grp (viewRef c w)).map (fun e => decide (16 ≤ e.2.idle))).getD false)
  let s0 := (d.earliest c starving).or ((ready.find? (fun w => (d.core c).slot0 == some (viewName w))).or (d.earliest c ready))
  match s0 with
  | none => (none, none)
  | some w =>
    let other := d.earliest c (ready.filter (fun u => viewName u != viewName w && pairs w.cls u.cls))
    match w.second with
    | some k => (some w, if pairs w.cls k && w.cls != IClass.b && k != IClass.b && d.unitFree c k then some { w with cls := k, upset := .none } else other)
    | none => (some w, other)

/-- The issue slot a view takes. -/
def viewSlot (w : IssueView) : Issued :=
  { slot := w.slot.toNat, grp := w.grp.toNat, cls := w.cls, upset := w.upset, lane := w.lane.toNat }

/-- The profile events of an issue cycle (R424). -/
def Dev.countIssue (d : Dev) (c : CoreId) (first second : Bool) : Dev :=
  let v := vitOfCore c
  let d := if ((d.resident c).flatMap (·.groups)).any (fun q => q.active) then d else d.profile v 3 1
  let d := if first then d.profile v 1 1 else d
  if second then d.profile v 2 1 else d

/-! ### Divergence (R47, R48) -/

/-- Pop every complete entry: its live threads run on after its JOIN, or arrive at the next entry when that shares the
JOIN's address (log 11). -/
def Group.popJoins (q : Group) : Group :=
  q.stack.foldl (fun (h : Group) _ =>
    match h.stack with
    | e :: rest =>
      if ((e.arrived ||| h.exited) &&& e.mask) == e.mask then
        let live := e.mask &&& ~~~h.exited
        match rest with
        | f :: more =>
          if f.joinAt == e.joinAt then { h with stack := { f with arrived := f.arrived ||| live } :: more }
          else { h with stack := rest, paths := if live == 0 then h.paths else { pc := Config.pcNext e.joinAt, mask := live } :: h.paths }
        | [] => { h with stack := [], paths := if live == 0 then h.paths else { pc := Config.pcNext e.joinAt, mask := live } :: h.paths }
      else h
    | [] => h) q

/-- Make parked lanes runnable at their resume addresses, in ascending address order. -/
def Group.release (q : Group) (lanes : List Nat) : Group :=
  let ps := q.parked.filter (fun e => lanes.contains e.1)
  let pcs := (ps.map (fun e => e.2.pc.toNat)).mergeSort (· ≤ ·) |>.dedup
  let new := pcs.map (fun a => ({ pc := BitVec.ofNat 44 a, mask := (ps.filter (fun e => e.2.pc.toNat == a)).foldl (fun m e => putBit m e.1 true) 0 } : RPath))
  let paths := new.foldl (fun l p => if l.any (fun r => r.pc == p.pc) then l.map (fun r => if r.pc == p.pc then { r with mask := r.mask ||| p.mask } else r) else l ++ [p]) q.paths
  { q with parked := q.parked.filter (fun e => !lanes.contains e.1), paths := paths }

/-- BAR.G completes when every live thread has arrived at one (R50). -/
def Group.tryBarG (q : Group) : Group :=
  let at' := q.parked.filter (fun e => e.2.why == .barG)
  if !at'.isEmpty && ((at'.foldl (fun (m : Mask) e => putBit m e.1 true) q.exited) == BitVec.allOnes 32) then
    let h := q.release (at'.map (·.1))
    { h with barG := none }
  else q

/-- The threads of a group parked at a block barrier. -/
def Group.atBarB (q : Group) (id : BitVec 4) : List Nat := (q.parked.filter (fun e => e.2.why == .barB id)).map (·.1)

/-- A block barrier completes when every live thread of the block has arrived at it (R51). -/
def Block.tryBarB (b : Block) (id : BitVec 4) : Block :=
  let full (q : Group) : Bool := ((q.atBarB id).foldl (fun (m : Mask) l => putBit m l true) q.exited) == BitVec.allOnes 32
  if (kfind b.barB id.toNat).isSome && b.groups.all full && b.groups.any (fun q => !(q.atBarB id).isEmpty) then
    { b with groups := b.groups.map (fun q => q.release (q.atBarB id)), barB := kdel b.barB id.toNat }
  else b

/-- Every block barrier is judged again, after an exit (R48, R51). -/
def Block.tryBars (b : Block) : Block := b.barB.foldl (fun (a : Block) e => a.tryBarB (BitVec.ofNat 4 e.1)) b

/-- EXIT (R36, R48): the threads leave the active mask, every entry and every barrier count. -/
def execExit (g : GRef) (s : State) : Out :=
  onGroup s g .b (fun _ _ p x => x.on (fun d =>
    let d := d.updGrp g (fun q =>
      ({ q with exited := q.exited ||| p.mask, paths := q.paths.tail,
                stack := q.stack.map (fun e => { e with mask := e.mask &&& ~~~p.mask, arrived := e.arrived &&& ~~~p.mask }) } : Group).popJoins.tryBarG)
    d.updBlk g.core g.slot.toNat (fun b => b.tryBars.refresh (d.cycOf g.core))))

/-- Push an entry and run paths, the first one first; RECONVERGENCE_OVERFLOW on a full stack (R47). -/
def X.diverge (x : X) (g : GRef) (q : Group) (p : RPath) (joinAt : Addr) (paths : List RPath) : X :=
  if 32 ≤ q.stack.length then x.raise g { code := 0x05, lanes := p.mask, pc := p.pc }
  else x.on (fun d => d.stepGrp g (fun h =>
    { h with stack := { joinAt, mask := p.mask, arrived := 0 } :: h.stack, paths := paths ++ h.paths.tail }))

/-- BRX (R47): all agree, or the fall-through path runs first and the target path after it. -/
def execBrx (g : GRef) (pred : BitVec 3) (neg : Bool) (target joinAt : Addr) (s : State) : Out :=
  onGroup s g .b (fun _ q p x =>
    let t := p.mask &&& (if neg then ~~~(q.pred pred.toNat) else q.pred pred.toNat)
    if t == 0 then x.on (fun d => d.stepGrp g Group.next)
    else if t == p.mask then x.on (fun d => d.stepGrp g (fun h => { h with paths := { p with pc := target } :: h.paths.tail }))
    else x.diverge g q p joinAt [{ pc := Config.pcNext p.pc, mask := p.mask &&& ~~~t }, { pc := target, mask := t }])

/-- BRI (R48): one entry, and each target's threads in ascending target address. -/
def execBri (g : GRef) (ra : Byte) (joinAt : Addr) (s : State) : Out :=
  onGroup s g .b (fun b q p x => x.withRegs g b p [ra.toNat, ra.toNat + 1] (fun x =>
    let ts := ((bits p.mask).map (fun l => q.addr ra.toNat l)).mergeSort (· ≤ ·) |>.dedup
    let paths := ts.map (fun a => ({ pc := BitVec.ofNat 44 a,
                                     mask := ((bits p.mask).filter (fun l => q.addr ra.toNat l == a)).foldl (fun m l => putBit m l true) 0 } : RPath))
    x.diverge g q p joinAt paths))

/-- JOIN (R47): the running threads arrive at the entry whose JOIN this is; with no such entry they pass (log 11). -/
def execJoin (g : GRef) (at' : Addr) (s : State) : Out :=
  onGroup s g .b (fun _ q p x =>
    if q.stack.any (fun e => e.joinAt == at' && (p.mask &&& e.mask) == p.mask) then
      x.on (fun d => d.stepGrp g (fun h =>
        ({ h with paths := h.paths.tail,
                  stack := updFirst (fun e => e.joinAt == at' && (p.mask &&& e.mask) == p.mask)
                    (fun e => { e with arrived := e.arrived ||| p.mask }) h.stack } : Group).popJoins))
    else x.on (fun d => d.stepGrp g Group.next))

/-- GETSR (R36, R59). -/
def execGetsr (g : GRef) (dst : Byte) (sr : SReg) (s : State) : Out :=
  onGroup s g .b (fun b q p x => x.withRegs g b p [dst.toNat] (fun x =>
    let w (l : Nat) : Word := match sr with
      | .lane => BitVec.ofNat 32 l
      | .group => BitVec.ofNat 32 g.grp.toNat
      | .block => BitVec.ofNat 32 b.index
      | .nblocks => BitVec.ofNat 32 b.launch.blocks
      | .argsLo => BitVec.ofNat 32 b.launch.args.toNat
      | .argsHi => BitVec.ofNat 32 (b.launch.args.toNat / 2 ^ 32)
      | .core => BitVec.ofNat 32 g.core.toNat
      | .vitrine => BitVec.ofNat 32 (vitOfCore g.core).toNat
      | .cycle => BitVec.ofNat 32 (x.dev.cyc (dieOfCore g.core))
      | .flags => q.flags.setWidth 32
    x.on (fun d => d.stepGrp g (fun h => (h.setLanes dst.toNat p.mask w).next))))

/-- CLRF (R59). -/
def execClrf (g : GRef) (s : State) : Out :=
  onGroup s g .v (fun _ _ _ x => x.on (fun d => d.stepGrp g (fun h => ({ h with flags := 0 } : Group).next)))

/-- TRAP (R62, R63, R418): TRAP in class P with its code, or in debug mode a halt that leaves the group at the next
instruction. -/
def execTrap (g : GRef) (code : BitVec 16) (s : State) : Out :=
  onGroup s g .b (fun b _ p x =>
    let lead := ((x.dev.vit (vitOfCore g.core)).leader).getD b.leader
    if x.dev.vset lead 0xD 1 == 1 then x.on (fun d => (d.stepGrp g Group.next).haltTenancy lead 2)
    else x.raise g { code := 0x06, lanes := p.mask, pc := p.pc, detail := code.toNat })

/-! ### Waiting and barriers (R49-R53) -/

/-- A condition of WAIT on a 32-bit word (R49). -/
def condHolds (c : Cond) (a b : Word) : Bool :=
  match c with
  | .eq => a == b
  | .ne => a != b
  | .ges => b.sle a
  | .geu => b.ule a
  | .lts => a.slt b
  | .ltu => a.ult b

/-- The state of an address that a thread names in a space: a device address or a physical byte, or the exception code. -/
inductive Target' where
  | ok (a : Nat)
  | bad (code : Nat)
  deriving DecidableEq, Repr

/-- Resolve and check one lane's address of `n` bytes (R29, R37, R62): alignment, then bounds or validity. -/
def Dev.resolve (d : Dev) (c : CoreId) (b : Block) (sp : Space) (a n : Nat) : Target' :=
  if a % n != 0 then .bad 0x02
  else match sp with
    | .global => if d.coreValid b.leader a n then .ok a else .bad 0x01
    | .scratch => if a + n ≤ b.launch.s then .ok (b.scrAt c a) else .bad 0x03
    | .cluster => if a + n ≤ b.launch.c then .ok (b.clusAt c a) else .bad 0x03
    | .step =>
      match (d.clu (clusOfCore c)).stepBytes with
      | some m => if a + n ≤ m then .ok (d.stepAt (clusOfCore c) a) else .bad 0x03
      | none => .bad 0x03

/-- ADDRESS_SPACE of an exception record (R65). -/
def spaceCode : Space → Nat
  | .global => 1 | .step => 2 | .cluster => 3 | .scratch => 4

/-- The address operand of a lane: a register pair for GLOBAL, one register otherwise (log 4). -/
def laneAddr (q : Group) (sp : Space) (ra imm lane : Nat) : Nat :=
  match sp with
  | .global => (q.reg64 ra lane + imm) % 2 ^ 44
  | _ => ((q.reg ra lane).toNat + imm) % 2 ^ 32

/-- Registers an address operand names. -/
def addrRegs (sp : Space) (ra : Nat) : List Nat := if sp == .global then [ra, ra + 1] else [ra]

/-- Resolve every active lane; the lanes that fail with the lowest failing lane's code raise together (log 12). -/
def X.resolveAll (x : X) (g : GRef) (b : Block) (p : RPath) (sp : Space) (n : Nat) (addr : Nat → Nat)
    (f : List (Nat × Nat) → X → X) : X :=
  let rs := (bits p.mask).map (fun l => (l, addr l, x.dev.resolve g.core b sp (addr l) n))
  match rs.find? (fun r => match r.2.2 with | .bad _ => true | _ => false) with
  | some (_, a, .bad code) =>
    x.raise g { code, lanes := (rs.filter (fun r => r.2.2 == .bad code)).foldl (fun m r => putBit m r.1 true) 0, pc := p.pc,
                addr := a, space := spaceCode sp }
  | _ => f (rs.filterMap (fun r => match r.2.2 with | .ok t => some (r.1, t) | _ => none)) x

/-- The 32-bit word a WAIT tests, as last performed (R49). -/
def X.waitWord (x : X) (sp : Space) (a : Nat) : Word :=
  match sp with
  | .global => BitVec.ofNat 32 (x.peek a 4)
  | _ => BitVec.ofNat 32 (x.mem.nat (localSp sp) a 4)

/-- Whether a thread's own earlier access to a word is still unperformed (R199). -/
def Dev.ownAccess (d : Dev) (g : GRef) (sp : Space) (lane a : Nat) : Bool :=
  (d.core g.core).ops.any (fun o => o.owner.slot == g.slot.toNat && o.owner.grp == g.grp.toNat && sameMem o.space sp &&
    o.accs.any (fun k => k.lane == lane && k.meets { lane := lane, addr := a, size := 4 }))

/-- WAIT (R49): threads whose condition holds, or whose timeout is 0, go on with P0; the others park. A SCRATCH word is no operand of WAIT. The
instruction's loads wait for a fence of its group (R201) and for the threads' own earlier accesses to their words (R199). -/
def execWait (g : GRef) (cond : Cond) (space : Space) (ra rv rt : Byte) (s : State) : Out :=
  onGroup s g .b (fun b q p x =>
    if space == .scratch then x.illegal g p
    else x.withRegs g b p (addrRegs space ra.toNat ++ [rv.toNat, rt.toNat]) (fun x =>
      x.resolveAll g b p space 4 (fun l => laneAddr q space ra.toNat 0 l) (fun ts x =>
        if q.fence.isSome || ts.any (fun t => x.dev.ownAccess g space t.1 t.2) then x
        else
          let now := x.dev.cycOf g.core
          let nx := Config.pcNext p.pc
          let (h, go) := ts.foldl (fun (acc : Group × Mask) t =>
            let lim := (q.reg rt.toNat t.1).toNat
            let val := q.reg rv.toNat t.1
            let ok := condHolds cond (x.waitWord space t.2) val
            if ok || lim == 0 then (acc.1.setPred 0 t.1 ok, putBit acc.2 t.1 true)
            else
              let w : WaitRec := { space, addr := t.2, value := val, cond, start := now, limit := lim, tested := now }
              ({ acc.1 with parked := kset acc.1.parked t.1 { why := .wait w, at' := p.pc, pc := nx } }, acc.2)) (q, 0)
          x.on (fun d => d.stepGrp g (fun _ => { h with paths := if go == 0 then h.paths.tail else { pc := nx, mask := go } :: h.paths.tail })))))

/-- A parked WAIT of a lane. -/
def Group.waitOf (q : Group) (lane : Nat) : Option WaitRec :=
  match kfind q.parked lane with
  | some k => (match k.why with | .wait w => some w | _ => none)
  | none => none

/-- The die runs and the group's WAIT may end: a resident group that is not saved or halted. -/
def Dev.groupLives (d : Dev) (g : GRef) : Bool :=
  d.runs (dieOfCore g.core) && ((d.grp g).map (fun e => !e.1.restoring)).getD false

/-- The core re-tests the word of a parked thread: the condition holds and the thread goes on with P0 true, or the test is noted (R49). -/
def X.retest (x : X) (g : GRef) (lane : Nat) (w : WaitRec) : X :=
  if condHolds w.cond (x.waitWord w.space w.addr) w.value then
    x.on (fun d => d.stepGrp g (fun h => (h.setPred 0 lane true).release [lane]))
  else x.on (fun d => d.updGrp g (fun h => match kfind h.parked lane with
    | some k => { h with parked := kset h.parked lane { k with why := .wait { w with tested := d.cycOf g.core } } }
    | none => h))

/-- WAIT_RETEST (R49): the line that holds the word has been written, or it is time. -/
def execWaitRetest (g : GRef) (lane : BitVec 5) (s : State) : Out :=
  run s (fun x =>
    match x.dev.grp g with
    | some (_, q) =>
      match q.waitOf lane.toNat with
      | some w => if x.dev.groupLives g then x.retest g lane.toNat w else x
      | none => x
    | none => x)

/-- WAIT_TIMEOUT (R49): at the timeout the word is tested a last time, and P0 says whether the condition held (log 70). -/
def execWaitTimeout (g : GRef) (lane : BitVec 5) (s : State) : Out :=
  run s (fun x =>
    match x.dev.grp g with
    | some (_, q) =>
      match q.waitOf lane.toNat with
      | some w =>
        if x.dev.groupLives g then
          let ok := condHolds w.cond (x.waitWord w.space w.addr) w.value
          x.on (fun d => (d.reachOf g.core (w.start + w.limit)).stepGrp g (fun h => (h.setPred 0 lane.toNat ok).release [lane.toNat]))
        else x
      | none => x
    | none => x)

/-- The resident threads of a core whose WAIT was last tested 1,024 core cycles ago or earlier (R49). -/
def Dev.dueWaits (d : Dev) (c : CoreId) : List (GRef × Nat × WaitRec) :=
  (d.core c).slots.flatMap (fun e => e.2.groups.zipIdx.flatMap (fun q =>
    let g : GRef := { core := c, slot := BitVec.ofNat 4 e.1, grp := BitVec.ofNat 5 q.2 }
    if d.groupLives g then
      q.1.parked.filterMap (fun k => match k.2.why with
        | .wait w => if w.tested + 1024 ≤ d.cycOf c then some (g, k.1, w) else none
        | _ => none)
    else []))

/-- Re-test the words of a core's WAITs that are due. -/
def X.retestDue (x : X) (c : CoreId) : X := (x.dev.dueWaits c).foldl (fun (y : X) e => y.retest e.1 e.2.1 e.2.2) x

/-! ### Fences (R201, R205) and barriers -/

/-- The spaces a descriptor's elements, scales and auxiliary data lie in (R117). -/
def descSpaces (d : BitVec 1024) : List Nat := [fld d.toNat 976 4, fld d.toNat 924 4, fld d.toNat 876 4].filter (fun n => n != 0)

/-- The engine instructions whose walker reads are still to be performed (R205): queued or fetching MX.MMAs and WK.SIGNs, and an MX.LDACC whose tile has
not come. -/
def Engine.readers (e : Engine) : List EInstr :=
  e.queue.filter (fun i => match i.op with | .mma .. | .ldacc .. | .sign _ => true | _ => false) ++
  (e.runs.filter (fun r => r.phase == .lookup || r.phase == .array || r.phase == .rerun)).map (·.ins) ++
  (match e.xfer with
    | some (i, _) => (match i.op with | .ldacc .. => if e.wo.job.any (fun j => j.id == i.id && j.todo.isEmpty) then [] else [i] | _ => [])
    | none => []) ++ e.sign.toList

/-- What a fence of a kind covers: the accesses of the group not yet performed, its walker reads, the tiles of completed MX.STOREs of the block, the range
operations and the remote instructions of the group. -/
def Dev.fenceOf (d : Dev) (g : GRef) (b : Block) (kind : FenceKind) : FenceRec :=
  let k := d.core g.core
  let wide := kind != .c
  let mine (o : Owner) : Bool := o.slot == g.slot.toNat && o.grp == g.grp.toNat && o.launchIx == b.launchIx && o.block == b.index
  let touches (r : CtxRef) : Bool := wide || (descSpaces r.desc).any (fun sp => sp != 1)
  { kind, at' := d.cycOf g.core,
    ops := (k.ops.filter (fun o => mine o.owner && !o.accs.isEmpty && (wide || o.space != .global))).map (·.id),
    tiles := (k.eng.tiles.filter (fun t => t.ins.owner.slot == g.slot.toNat && touches t.ins.ra)).map (fun t => t.ins.id),
    reads := (k.eng.readers.filter (fun i => mine i.owner && (touches i.ra || touches i.rb))).map (·.id),
    remote := if kind == .f then (d.fab.ins.filter (fun i => i.core == g.core && mine i.owner)).map (·.id) else [],
    ranges := if wide then (d.srv.ranges.filter (fun r => match r.owner with
      | some o => mine o && r.core == some g.core
      | none => false)).map (·.id) else [] }

/-- Whether everything a fence covers has been performed. -/
def Dev.fenceDone (d : Dev) (c : CoreId) (f : FenceRec) : Bool :=
  let k := d.core c
  f.ops.all (fun i => !k.ops.any (fun o => o.id == i && !o.accs.isEmpty)) &&
  f.tiles.all (fun i => !k.eng.tiles.any (fun t => t.ins.id == i)) &&
  f.reads.all (fun i => !k.eng.readers.any (fun j => j.id == i)) &&
  f.remote.all (fun i => !d.fab.ins.any (fun r => r.id == i)) &&
  f.ranges.all (fun i => !d.srv.ranges.any (fun r => r.id == i))

/-- A thread's earlier SCRATCH, CLUSTER and STEP accesses are performed as FENCE.C would have them, and no fence of its group is incomplete, before
its arrival at a barrier counts (R203, log 13). -/
def Dev.mayArrive (d : Dev) (g : GRef) (q : Group) : Bool :=
  q.fence.isNone && (match d.grp g with
    | some (b, _) => d.fenceDone g.core (d.fenceOf g b .c)
    | none => true)

/-- Park the running threads at a barrier. -/
def Group.park (q : Group) (why : Park) : Group :=
  match q.paths with
  | p :: rest => { q with paths := rest, parked := (bits p.mask).foldl (fun m l => kset m l { why, at' := p.pc, pc := Config.pcNext p.pc }) q.parked }
  | [] => q

/-- BAR.G (R50). -/
def execBarG (g : GRef) (s : State) : Out :=
  onGroup s g .b (fun _ q _ x =>
    if x.dev.mayArrive g q then
      x.on (fun d => d.stepGrp g (fun h => let k := h.park .barG; ({ k with barG := some (h.barG.getD (d.cyc (dieOfCore g.core))) } : Group).tryBarG))
    else x)

/-- BAR.B (R51). -/
def execBarB (g : GRef) (id : BitVec 4) (s : State) : Out :=
  onGroup s g .b (fun _ q _ x =>
    if x.dev.mayArrive g q then
      x.on (fun d =>
        let d := d.updGrp g (fun h => h.park (.barB id))
        d.updBlk g.core g.slot.toNat (fun b =>
          (({ b with barB := kset b.barB id.toNat (kget (d.cyc (dieOfCore g.core)) b.barB id.toNat) } : Block).tryBarB id).refresh (d.cycOf g.core)))
    else x)

/-- The first arrival at a group's or a block's barrier instance, when threads of the group wait at it. -/
def watchedBar (b : Block) (q : Group) (blockBar : Option (BitVec 4)) : Option (Nat × List (Nat × Parked)) :=
  let why : Park := match blockBar with | some id => .barB id | none => .barG
  let at' := q.parked.filter (fun e => e.2.why == why)
  if at'.isEmpty then none
  else (match blockBar with | some id => kfind b.barB id.toNat | none => q.barG).map (fun t => (t, at'))

/-- The block a watchdog names: the one resident in the slot, or, where the slot is free, the SWAPPED block of that place among those of the core's cluster
(DESIGN CHOICE, log 57). -/
def Dev.watchedBlk (d : Dev) (g : GRef) : Option Block :=
  match d.blk g.core g.slot.toNat with
  | some b => some b
  | none => (((d.vit (vitOfCore g.core)).disp.swapped.filter (fun w => w.cluster.toNat == clusOfCore g.core))[g.slot.toNat]?).map (·.blk)

/-- BARRIER_WATCHDOG (R53): the barrier instance at which threads of the group wait has not completed BARRIER_WATCHDOG_CYCLES after its first arrival,
whether its block is RESIDENT or SWAPPED. -/
def execBarrierWatchdog (g : GRef) (blockBar : Option (BitVec 4)) (s : State) : Out :=
  run s (fun x =>
    match x.dev.watchedBlk g with
    | some b =>
      match b.groups[g.grp.toNat]? with
      | some q =>
        match watchedBar b q blockBar with
        | some (t, at') =>
          if x.dev.runs (dieOfCore g.core) && (x.dev.vit (vitOfCore g.core)).halt != 2 then
            let x := x.on (fun d => (d.reach (dieOfCore g.core) (t + d.vset (vitOfCore g.core) 3 1)).count 0x8010 2 (vitOfCore g.core).toNat)
            x.raiseFor g.core b q { code := 0x40, lanes := at'.foldl (fun m e => putBit m e.1 true) 0, pc := ((at'.head?).map (fun e => e.2.at')).getD 0 }
          else x
        | none => x
      | none => x
    | none => x)

/-! ### The issue cycle -/

/-- ISSUE_CYCLE (R42-R44): the core's next cycle of issue. Groups whose next instruction waits on a missed load leave the active set, at most one ready
pending group enters, and up to two instructions take the issue slots: only what holds a slot runs. A group that entered less than two cycles ago, or whose
unit is occupied, does not issue. WAITs not tested for 1,024 cycles are tested again (R49). -/
def execIssueCycle (c : CoreId) (views : List IssueView) (s : State) : Out :=
  run s (fun x =>
    if !x.dev.runs (dieOfCore c) || !x.dev.isClocked (vitOfCore c) then x else
    (x.on (fun d =>
    let d := d.reachOf c (d.core c).issueAt
    let views := views.filter (d.mayRun c)
    let d := d.changeActive c views
    let now := d.cycOf c
    let since := now + 1 - (d.core c).issueAt
    let ready := views.filter (fun w => w.ready && d.inActive c w && d.unitFree c w.cls &&
      ((d.grp (viewRef c w)).map (fun e => decide (e.2.entered + 2 ≤ now))).getD false)
    let two := d.pick c ready
    let out := two.1.toList.map viewSlot ++ two.2.toList.map viewSlot
    let d := d.eachGrp (views.map (fun w => (viewRef c w, fun q =>
      { q with idle := if (out.map (fun i => (i.slot, i.grp))).contains (viewName w) || !q.active then 0 else min (q.idle + since) (now - q.entered) })))
    (d.countIssue c two.1.isSome two.2.isSome).setCore c (fun k => { k with slot0 := two.1.map viewName, issued := out, issueAt := now + 1 }))).retestDue c)


end Sys2Proof.Machine
end

