-- ==== Sys2Proof/Machine/Access.lean ====
section
/-! DEFINITION. Loads, stores, atomics, reductions and fences (R37, R45, R56-R58, R177, R195-R206), the Gallery range
operations (R172-R174), host accesses of device memory (R189, R433), and the Gallery's resize, thrash monitor and scrub (R169,
R175, R180). -/

namespace Sys2Proof.Machine

/-! ### Loads, stores and atomics -/

/-- Bytes of a size code: 1 to 16 (log 4). -/
def lsuSize (n : BitVec 3) : Option Nat := if n.toNat ≤ 4 then some (2 ^ n.toNat) else none
/-- The registers that hold `n` bytes from register r on. -/
def lsuRegs (r n : Nat) : List Nat := (List.range (max 1 (n / 4))).map (fun i => r + i)
/-- The low `n` bytes of registers r, r + 1, ... of a lane. -/
def Group.regNat (q : Group) (r lane n : Nat) : Nat :=
  (lsuRegs r n).foldr (fun k acc => (q.reg k lane).toNat + 2 ^ 32 * acc) 0 % 2 ^ (8 * n)

/-- The granule requests of an access against the watchpoints of the core's Vitrine (R419): true when one halts. -/
def Dev.watchLanes (d : Dev) (g : GRef) (agent n : Nat) (ts : List (Nat × Nat)) : Dev × Bool :=
  ((ts.map (fun t => t.2 / 64)).eraseDups).foldl (fun (acc : Dev × Bool) gr =>
    let here := ts.filter (fun t => t.2 / 64 == gr)
    let lo := here.foldl (fun m t => min m t.2) (gr * 64 + 63)
    let hi := here.foldl (fun m t => max m (t.2 + n)) (gr * 64)
    let (e, h) := acc.1.watch (vitOfCore g.core) agent lo (hi - lo) g.core.toNat
    (e, acc.2 || h)) (d, false)

/-- L1 misses of a load: lines absent from the L1 (R424). -/
def Dev.missLines (d : Dev) (c : CoreId) (ts : List (Nat × Nat)) : Nat :=
  (((ts.map (fun t => t.2 / 128)).dedup).filter (fun l => l * 128 < 2 ^ 41 && d.l1St c l == .i)).length

/-- The L1 misses of a load or store counted for the profile (R424). -/
def Dev.countMisses (d : Dev) (c : CoreId) (ts : List (Nat × Nat)) : Dev :=
  match d.missLines c ts with
  | 0 => d
  | n => d.profile (vitOfCore c) 4 n

/-- What the profile counts of an access (R424): the L1 misses of a GLOBAL one, the bank conflicts of one of STEP or CLUSTER (log 61). -/
def Dev.countAccess (d : Dev) (c : CoreId) (space : Space) (ts : List (Nat × Nat)) : Dev :=
  match space with
  | .global => d.countMisses c ts
  | .scratch => d
  | _ => d.profile (vitOfCore c) 8 (Config.bankConflicts (ts.map (·.2)))

/-- Take a new operation of the core, its destination registers marked busy; the group goes on. -/
def X.start (x : X) (g : GRef) (o : Nat → OutOp) (dsts : List Nat) : X :=
  (x.on (fun d => (d.setCore g.core (fun k => { k with ops := k.ops ++ [o k.nextOp], nextOp := k.nextOp + 1 })).stepGrp g (fun q =>
    ({ q with busyRegs := q.busyRegs ++ dsts.map (BitVec.ofNat 8) } : Group).next))).pump g.core

/-- Core cycles an access occupies the load/store unit (R45): a load or store by its bytes and space, an atomic or reduction of GLOBAL by its lines, the bank
conflicts of a local one added (log 61). -/
def accessCycles (space : Space) (kind : OpKind) (n : Nat) (ts : List (Nat × Nat)) : Nat :=
  let bytes := n * ts.length
  match space, kind with
  | .global, .atom _ => max 1 ((ts.map (fun t => t.2 / 128)).dedup).length
  | .global, _ => max 1 (cdiv bytes 128)
  | .scratch, _ => max 1 (cdiv bytes 256) + Config.bankConflicts (ts.map (·.2))
  | _, _ => max 1 (cdiv bytes 256) * 2 + Config.bankConflicts (ts.map (·.2))

/-- Issue an access: the watchpoints of GLOBAL ones, then a new operation of the core. -/
def X.access (x : X) (g : GRef) (b : Block) (p : RPath) (space : Space) (kind : OpKind) (dst : Byte) (size : Nat) (dsts : List Nat)
    (ts : List (Nat × Nat)) (acc : Nat → Nat → LaneAcc) : X :=
  let w := if space == .global then x.dev.watchLanes g (if kind == .load then 0 else 1) size ts else (x.dev, false)
  let x := { x with dev := w.1 }
  if w.2 then x
  else (x.on (fun d => (d.countAccess g.core space ts).occupy g.core .m (accessCycles space kind size ts))).start g (fun n =>
    { id := n, owner := { slot := g.slot.toNat, grp := g.grp.toNat, launchIx := b.launchIx, block := b.index, seq := b.seq },
      kind, space, dst, size, accs := ts.map (fun t => acc t.1 t.2), vals := [], poisoned := false, pc := p.pc }) dsts

/-- LOAD (R37, R199): 1 to 16 bytes per lane, zero-extended to whole registers. -/
def execLoad (g : GRef) (space : Space) (size : BitVec 3) (dst ra : Byte) (imm : Word) (s : State) : Out :=
  onGroup s g .m (fun b q p x =>
    match lsuSize size with
    | none => x.illegal g p
    | some n => x.withRegs g b p (addrRegs space ra.toNat ++ lsuRegs dst.toNat n) (fun x =>
        x.resolveAll g b p space n (fun l => laneAddr q space ra.toNat imm.toNat l) (fun ts x =>
          x.access g b p space .load dst n (lsuRegs dst.toNat n) ts (fun l a => { lane := l, addr := a, size := n }))))

/-- STORE (R37, R196, R207). -/
def execStore (g : GRef) (space : Space) (size : BitVec 3) (ra : Byte) (imm : Word) (src : Byte) (s : State) : Out :=
  onGroup s g .m (fun b q p x =>
    match lsuSize size with
    | none => x.illegal g p
    | some n => x.withRegs g b p (addrRegs space ra.toNat ++ lsuRegs src.toNat n) (fun x =>
        x.resolveAll g b p space n (fun l => laneAddr q space ra.toNat imm.toNat l) (fun ts x =>
          x.access g b p space .store 0 n [] ts (fun l a => { lane := l, addr := a, size := n, val := q.regNat src.toNat l n }))))

/-- Whether an atomic operation has a 64-bit form (R56). -/
def atomWide (op : AtomOp) : Bool := !(op == .fadd || op == .fmin || op == .fmax)

/-- ATOMIC (R56-R58): the group's operations combined by line, old values to dst. -/
def execAtomic (g : GRef) (space : Space) (op : AtomOp) (wide : Bool) (dst ra : Byte) (imm : Word) (val cmp : Byte) (s : State) : Out :=
  onGroup s g .m (fun b q p x =>
    if wide && !atomWide op then x.illegal g p
    else
      let n := if wide then 8 else 4
      let cmps := if op == .cas then lsuRegs cmp.toNat n else []
      x.withRegs g b p (addrRegs space ra.toNat ++ lsuRegs dst.toNat n ++ lsuRegs val.toNat n ++ cmps) (fun x =>
        x.resolveAll g b p space n (fun l => laneAddr q space ra.toNat imm.toNat l) (fun ts x =>
          x.access g b p space (.atom true) dst n (lsuRegs dst.toNat n) ts (fun l a =>
            { lane := l, addr := a, size := n, op, val := q.regNat val.toNat l n, cmp := q.regNat cmp.toNat l n }))))

/-- RED (R177): GLOBAL only. -/
def execRed (g : GRef) (space : Space) (op : RedOp) (ra : Byte) (imm : Word) (src : Byte) (s : State) : Out :=
  onGroup s g .m (fun b q p x =>
    if space != .global then x.illegal g p
    else x.withRegs g b p (addrRegs space ra.toNat ++ [src.toNat]) (fun x =>
      x.resolveAll g b p space 4 (fun l => laneAddr q space ra.toNat imm.toNat l) (fun ts x =>
        x.access g b p space (.atom false) 0 4 [] ts (fun l a =>
          { lane := l, addr := a, size := 4, op := redElem op, val := (q.reg src.toNat l).toNat }))))

/-- Whether an operation belongs to a group of a block. -/
def OutOp.ofGroup (o : OutOp) (g : GRef) (b : Block) : Bool :=
  o.owner.slot == g.slot.toNat && o.owner.grp == g.grp.toNat && o.owner.launchIx == b.launchIx && o.owner.block == b.index

/-- Destination registers of a load or atomic are written, its registers are free again. -/
def Group.takeVals (q : Group) (o : OutOp) : Group :=
  let dsts := (lsuRegs o.dst.toNat o.size).map (BitVec.ofNat 8)
  let q := o.vals.foldl (fun (h : Group) v => (List.range (lsuRegs 0 o.size).length).foldl (fun (k : Group) i =>
    k.setReg (o.dst.toNat + i) v.1 (BitVec.ofNat 32 (v.2 / 2 ^ (32 * i)))) h) q
  { q with busyRegs := q.busyRegs.filter (fun r => !dsts.contains r) }

/-- LOAD_DATA_RETURN (R45, R61, R356): all data of a load or value-returning atomic has arrived. A corrected upset is counted;
an uncorrectable one raises STORAGE_UNCORRECTABLE, poison POISON_CONSUMED, and neither reaches a register. -/
def execLoadDataReturn (g : GRef) (op : Word) (upset : Upset) (s : State) : Out :=
  run s (fun x =>
    match x.dev.op? g.core op.toNat with
    | none => x
    | some o =>
      if !o.reads || !o.accs.isEmpty || !x.dev.runs (dieOfCore g.core) then x
      else
        let x := x.on (fun d => d.setCore g.core (fun k => { k with ops := k.ops.filter (fun p => p.id != o.id) }))
        let x := if upset == .corrected then x.on (fun d => d.count 0x8010 7 (vitOfCore g.core).toNat) else x
        match x.dev.grp g with
        | none => x
        | some (b, _) =>
          if !o.ofGroup g b then x
          else
            let lanes : Mask := o.vals.foldl (fun m v => putBit m v.1 true) 0
            if upset == .uncorrectable then x.raise g { code := 0x42, lanes, pc := o.pc }
            else if o.poisoned then x.raise g { code := 0x45, lanes, pc := o.pc, space := spaceCode o.space }
            else x.on (fun d => d.updGrp g (fun q => q.takeVals o)))

/-! ### Fences (R201) -/

/-- A fence issues: M and X issue of the group waits for it. -/
def execFence (g : GRef) (kind : FenceKind) (s : State) : Out :=
  onGroup s g .m (fun b _ _ x => x.on (fun d =>
    let f := d.fenceOf g b kind
    d.stepGrp g (fun q => ({ q with fence := some f } : Group).next)))

/-- FENCE.C (R201). -/
def execFenceC (g : GRef) (s : State) : Out := execFence g .c s
/-- FENCE.D (R201). -/
def execFenceD (g : GRef) (s : State) : Out := execFence g .d s
/-- FENCE.F (R201). -/
def execFenceF (g : GRef) (s : State) : Out := execFence g .f s

/-- Core cycles of a fence with nothing outstanding (R201). -/
def FenceKind.cycles : FenceKind → Nat
  | .c => 2 | .d => 4 | .f => 8

/-- FENCE_COMPLETE (R201): every covered access has been performed and issue resumes. -/
def execFenceComplete (g : GRef) (s : State) : Out :=
  runDev s (fun _ _ d =>
    match d.grp g with
    | some (_, q) =>
      match q.fence with
      | some f =>
        if d.fenceDone g.core f && d.groupLives g then
          let d := d.reachOf g.core (f.at' + f.kind.cycles)
          let d := d.profile (vitOfCore g.core) 7 (d.cycOf g.core - f.at')
          d.updGrp g (fun h => { h with fence := none })
        else d
      | none => d
    | none => d)

/-! ### Gallery range operations (R172-R174) -/

/-- The present lines of a range of a window. -/
def Dev.rangeLines (d : Dev) (base len : Nat) : List (Nat × GLine) :=
  (slicesOfVit (vitOfAddr base)).flatMap (fun g =>
    (d.slice g).lines.filter (fun e => base ≤ e.1 * 128 && e.1 * 128 < base + len))

/-- The line numbers of a range. -/
def rangeOf (base len : Nat) : List Nat := (List.range (len / 128)).map (fun i => base / 128 + i)

/-- The pinned lines of a Vitrine: those pinned, and those of GC.PINs whose lines have still to be filled. -/
def Dev.pinnedLines (d : Dev) (v : VitId) : List Nat :=
  let now := (slicesOfVit v).flatMap (fun g => ((d.slice g).lines.filter (fun e => e.2.pinned)).map (·.1))
  now ++ ((d.srv.ranges.filter (fun r => r.v == v && r.op == .pin && !r.refused && decide (r.base < 2 ^ 41))).flatMap (fun r => rangeOf r.base r.len)).filter (fun l => !now.contains l)

/-- PIN_CAP: half of the share and half of the cache part (R174). -/
def Dev.pinCap (d : Dev) (v : VitId) : Nat := min (36 * 1048576) (d.cacheBytes v / 2)

/-- Whether a Vitrine's pinned lines fit a set of limits: none, or the status of R174. -/
def Dev.pinStatus (d : Dev) (v : VitId) (lines : List Nat) : Nat :=
  if d.pinCap v < lines.length * 128 then 1
  else
    let places := lines.map (fun l => (sliceOf l, setOf l))
    if places.dedup.any (fun s => (d.cacheWays s.1 s.2).length / 2 < places.countP (fun t => t == s)) then 2 else 0

/-- Pin a present line. -/
def Dev.pin (d : Dev) (line : Nat) : Dev :=
  match d.gline line with
  | some g => if g.pinned then d else (d.setGline line { g with pinned := true }).setVit (vitOfAddr (line * 128)) (fun v => { v with pinned := v.pinned + 128 })
  | none => d

/-- Pin a line of a GC.PIN, allocated and filled where it is absent and its set has an eligible line (R174). -/
def X.pinLine (x : X) (line : Nat) : X :=
  let x := match x.dev.gline line with
    | some _ => x
    | none => (x.allocNow line false).1
  x.on (fun d => d.pin line)

/-- The status of pinning every line of a range of a window or none (R174); a refusal is counted. -/
def X.pinRange (x : X) (base len : Nat) : X × Nat :=
  let v := vitOfAddr base
  let old := x.dev.pinnedLines v
  let inRange := old.countP (fun l => base ≤ l * 128 && l * 128 < base + len)
  let refuse (st : Nat) : X × Nat := (x.on (fun d => d.count 0x8015 0xA v.toNat), st)
  if x.dev.pinCap v < old.length * 128 + len - inRange * 128 then refuse 1
  else
    match x.dev.pinStatus v (old ++ (rangeOf base len).filter (fun l => !old.contains l)) with
    | 0 => (x, 0)
    | st => refuse st

/-- Unpin a line. -/
def Dev.unpin (d : Dev) (line : Nat) : Dev :=
  match d.gline line with
  | some g => if g.pinned then (d.setGline line { g with pinned := false }).setVit (vitOfAddr (line * 128)) (fun v => { v with pinned := v.pinned - 128 }) else d
  | none => d

/-- The effect of a range operation on a line (R172), by its row of R186: a line that cannot take it at once takes it in its turn. -/
def X.rangeLine (op : GcOp) (x : X) (line : Nat) : X :=
  match op, x.dev.gline line with
  | .prefetch, none => (x.allocNow line false).1
  | .pin, _ => x.pinLine line
  | .flush, some _ => x.arrive line { kind := .flush, port := .dma 0 }
  | .invalWb, some _ => (x.on (fun d => d.unpin line)).arrive line { kind := .evict true, port := .dma 0 }
  | .invalNoWb, some _ => (x.on (fun d => d.unpin line)).arrive line { kind := .evict false, port := .dma 0 }
  | .unpin, some _ => x.on (fun d => d.unpin line)
  | _, _ => x

/-- The effects of a range operation on the lines of its range (R172). -/
def X.rangeApply (x : X) (r : RangeOp) : X :=
  match r.op with
  | .pin => if r.refused || decide (2 ^ 41 ≤ r.base) then x else (rangeOf r.base r.len).foldl (X.rangeLine .pin) x
  | .prefetch => if decide (2 ^ 41 ≤ r.base) then x else (rangeOf r.base r.len).foldl (X.rangeLine .prefetch) x
  | o => ((x.dev.rangeLines r.base r.len).map (·.1)).foldl (X.rangeLine o) x

/-- Whether a flush or an eviction of a line is still to end. -/
def GLine.rangeDue (g : GLine) : Bool :=
  (g.cur.toList ++ g.queue).any (fun r => match r.kind with | .evict _ | .flush => true | _ => false)

/-- Whether every line of a range has been processed: no flush or eviction waits, and each line of a GC.PIN is pinned. -/
def Dev.rangeEnded (d : Dev) (r : RangeOp) : Bool :=
  match r.op with
  | .pin => r.refused || decide (2 ^ 41 ≤ r.base) || (rangeOf r.base r.len).all (fun l => (d.gline l).any (·.pinned))
  | .flush | .invalWb | .invalNoWb => !(d.rangeLines r.base r.len).any (fun e => e.2.rangeDue)
  | _ => true

/-- Start a range operation on a valid range: its status, and its record until every line has been processed. A GC.PIN that pins does so at once, but for the
lines whose sets have no eligible line yet. -/
def X.rangeStart (x : X) (op : GcOp) (base len : Nat) (core : Option CoreId) (owner : Option Owner) (ring : Option (Nat × Word)) : X × Nat :=
  match x.dev.place base with
  | .hole => (x, 0)
  | p =>
    let v := (p.vit).getD 0
    let win := decide (base < 2 ^ 41)
    let (x, st) := if op == .pin && win then x.pinRange base len else (x, 0)
    let r : RangeOp := { id := x.dev.srv.nextRange, op, v, base, len, core, owner, ring, refused := st != 0 }
    let x := x.on (fun d => d.onSrv (fun s => { s with nextRange := r.id + 1, ranges := s.ranges ++ [r] }))
    (if op == .pin then x.rangeApply r else x, st)

/-- A Gallery range instruction (R172): checks, the status in dst, and the operation begun. -/
def execRange (g : GRef) (op : GcOp) (dst ra rl : Byte) (s : State) : Out :=
  onGroup s g .m (fun b q p x => x.withRegs g b p [dst.toNat, ra.toNat, ra.toNat + 1, rl.toNat] (fun x =>
    let lane := lowLane p.mask
    let base := q.addr ra.toNat lane
    let len := (q.reg rl.toNat lane).toNat
    if base % 128 != 0 || len % 128 != 0 then x.raise g { code := 0x02, lanes := p.mask, pc := p.pc, addr := base, space := 1 }
    else if len == 0 || !x.dev.coreValid b.leader base len then
      x.raise g { code := 0x01, lanes := p.mask, pc := p.pc, addr := base, space := 1 }
    else
      let (x, st) := x.rangeStart op base len (some g.core)
        (some { slot := g.slot.toNat, grp := g.grp.toNat, launchIx := b.launchIx, block := b.index, seq := b.seq }) none
      x.on (fun d => d.stepGrp g (fun h => (h.setReg dst.toNat lane (BitVec.ofNat 32 st)).next))))

/-- GC.PREFETCH (R172). -/
def execGcPrefetch (g : GRef) (dst ra rl : Byte) (s : State) : Out := execRange g .prefetch dst ra rl s
/-- GC.FLUSH (R172). -/
def execGcFlush (g : GRef) (dst ra rl : Byte) (s : State) : Out := execRange g .flush dst ra rl s
/-- GC.INVAL (R172). -/
def execGcInval (g : GRef) (wb : Bool) (dst ra rl : Byte) (s : State) : Out := execRange g (if wb then .invalWb else .invalNoWb) dst ra rl s
/-- GC.PIN (R174). -/
def execGcPin (g : GRef) (dst ra rl : Byte) (s : State) : Out := execRange g .pin dst ra rl s
/-- GC.UNPIN (R172). -/
def execGcUnpin (g : GRef) (dst ra rl : Byte) (s : State) : Out := execRange g .unpin dst ra rl s

/-- GC_RANGE_DONE (R172): the lines of the range are processed; the operation ends when every one of them has been. -/
def execGcRangeDone (id : Word) (s : State) : Out :=
  run s (fun x =>
    match x.dev.srv.ranges.find? (fun r => r.id == id.toNat) with
    | some r =>
      if !x.dev.runs (dieOfVit r.v) then x
      else
        let x := if r.begun && r.op != .pin then x else x.rangeApply r
        x.on (fun d => d.onSrv (fun s =>
          if d.rangeEnded r then { s with ranges := s.ranges.filter (fun q => q.id != r.id) }
          else { s with ranges := updFirst (fun q => q.id == r.id) (fun q => { q with begun := true }) s.ranges }))
    | none => x)

/-! ### Host accesses (R189, R432, R433) -/

/-- Whether a committed HDM decoder maps an address (R432). -/
def Dev.hdmMaps (d : Dev) (a : Nat) : Bool := d.host.hdm.any (fun e => e.2.committed && e.2.base ≤ a && a < e.2.base + e.2.size)

/-- Whether a host request is refused (R433). -/
def Dev.hostRefused (d : Dev) (a : Nat) (inStream : Bool) : Bool :=
  let v := vitOfAddr a
  !(d.vit v).held || ((d.vit v).tspLocked && d.vacc v 0xC 2 == 1 && !inStream)

/-- Perform a host request at its home, after the watchpoints of the home's Vitrine (R419). -/
def X.hostServe (x : X) (r : HostReq) : X :=
  let l := r.addr / 128
  if x.dev.hostRefused r.addr r.inStream then
    let x := x.on (fun d => { d with host := { d.host with refused := min 0xFFFFFFFF (d.host.refused + 1) } })
    match r.kind with
    | .memRd _ => x.on (fun d => d.toPort .host l 0 3)
    | _ => x.on (fun d => d.send { kind := .wrDone, line := l })
  else
    let x := { x with dev := (x.dev.watch (vitOfAddr r.addr) 6 (l * 128) 128 0x3FF).1 }
    match r.kind with
    | .memWr mask data _ =>
      x.arrive l { kind := .memWr mask data (BitVec.ofNat 2 (fld x.dev.host.hint.toNat (2 * (vitOfAddr r.addr).toNat) 2)), port := .host }
    | k => x.arrive l { kind := k, port := .host }

/-- A host request on the CXL port: it is held during a stop (R434), for a stopped home until it runs again. -/
def hostReq (s : State) (a : Addr) (inStream : Bool) (kind : HomeKind) : Out :=
  run s (fun x =>
    if !x.dev.hdmMaps a.toNat then x
    else
      let r : HostReq := { addr := a.toNat / 128 * 128, kind, inStream }
      let die := dieOfVit (vitOfAddr a.toNat)
      if x.dev.runs die || x.dev.isFenced die then x.hostServe r
      else if x.dev.host.held.length < 512 then x.on (fun d => { d with host := { d.host with held := d.host.held ++ [r] } })
      else x)

/-- HOST_MEMRD (R189). -/
def execHostMemrd (a : Addr) (m : Meta) (inStream : Bool) (s : State) : Out := hostReq s a inStream (.memRd m)
/-- HOST_MEMWR (R189). -/
def execHostMemwr (a : Addr) (mask : BitVec 128) (data : Line) (inStream : Bool) (s : State) : Out := hostReq s a inStream (.memWr mask data 0)

/-! ### Thrash monitor (R175) and scrub (R180) -/

/-- THRASH_EVALUATION (R175): due every 2^16 Gallery cycles, over 2^THRASH_WINDOW lookups. -/
def execThrashEvaluation (v : VitId) (s : State) : Out :=
  runDev s (fun _ _ d =>
    if !d.runs (dieOfVit v) then d else
    let t := (d.vit v).thrash
    let d := d.reachRoot (dieOfVit v) (t.at' + 262144)
    let d := d.setVit v (fun u => { u with thrash := { u.thrash with at' := (d.die (dieOfVit v)).root } })
    let th := d.vset v 7 6
    if th == 0 || t.lookups < 2 ^ d.vset v 7 7 then d
    else
      let bad := decide (t.hits * 256 < th * t.lookups)
      let d := d.setVit v (fun u => { u with thrash := { u.thrash with lookups := 0, hits := 0, lastLookups := t.lookups, lastHits := t.hits,
                                                                       raised := bad } })
      if bad && !t.raised then (d.count 0x8015 0xB v.toNat).postVit 0x0030 v t.hits t.lookups else d)

/-- The scratchpad line at a position, if the position holds one (R167). -/
def padLineAt (d : Dev) (g set way : Nat) : Option Nat :=
  let k := (15 - way) * 1536 + set
  if k < carveLines (d.padOf g) g then some (padBase + g / 24 * 2 ^ 27 + (k * 24 + g % 24) * 128) else none

/-- The Provenance store line at a position, if the position holds one (R167). -/
def pvLineAt (d : Dev) (g set way : Nat) : Option Nat :=
  let k := way * 1536 + set
  if k < carveLines (d.pvOf g) g then some (k * 24 + g % 24) else none

/-- Spoil a granule of a Provenance entry: its values take other bits, or, in the granule of the key, the entry matches no more (log 72). -/
def PvEntry.spoil (p : PvEntry) (gr : Nat) (bits : BitVec 512) : Option PvEntry :=
  if gr < 256 then some { p with vals := (List.range 16).foldl (fun m i => kset m (gr * 16 + i) (bits.extractLsb' (32 * i) 32)) p.vals } else none

/-- A granule at a position of a slice holds other bits than were written (R179, four or more in error). -/
def X.spoil (x : X) (sl set way gr : Nat) : X :=
  let n := x.dev.fresh
  let bits := Config.galleryWrong n
  let x := x.on (fun d => { d with fresh := n + 1 })
  match (x.dev.inSet sl set).find? (fun e => e.2.way == way) with
  | some (l, g) =>
    let mask : BitVec 128 := BitVec.ofNat 128 ((2 ^ 64 - 1) * 2 ^ (64 * gr))
    x.on (fun d => d.setGline l { g with data := mergeLine g.data (bits.setWidth 1024 <<< (512 * gr)) mask })
  | none =>
    match padLineAt x.dev sl set way, pvLineAt x.dev sl set way with
    | some a, _ => x.putBytes .pad (a + 64 * gr) (leBytes bits.toNat 64)
    | none, some z => x.on (fun d => d.setVit (BitVec.ofNat 5 (sl / 24)) (fun t =>
        { t with pv := t.pv.filterMap (fun p => if p.slot == z / 129 then p.spoil (z % 129 * 2 + gr) bits else some p) }))
    | none, none => x

/-- A granule at a position of a slice is poisoned, with an error record (R179). -/
def X.spoilt (x : X) (sl set way gr : Nat) : X :=
  let die := sl / 96
  let v : VitId := BitVec.ofNat 5 (sl / 24)
  match (x.dev.inSet sl set).find? (fun e => e.2.way == way) with
  | some (l, g) =>
    x.on (fun d => (d.setGline l { g with poison := putBit g.poison gr true }).logErr
      { ukind := 3, unit := sl, cls := 3, outcome := 1, addr := l * 128, akind := 1, vit := some v, die })
  | none =>
    let x := x.on (fun d => d.logErr { ukind := 3, unit := sl, cls := 3, outcome := 1, addr := set * 16 + way, akind := 3, vit := some v, die })
    match padLineAt x.dev sl set way, pvLineAt x.dev sl set way with
    | some a, _ => x.op (.mark true (a / 64 + gr) true)
    | none, some z => x.on (fun d => d.setVit v (fun t => { t with pv := t.pv.map (fun p => if p.slot == z / 129 then { p with bad := true } else p) }))
    | none, none => x

/-- A tag or directory entry of a set cannot be corrected (R179): the set's lines are lost, each poisoned in HBM, and the tenancy's jobs end. -/
def X.setLost (x : X) (sl set way : Nat) : X :=
  let die := sl / 96
  let v : VitId := BitVec.ofNat 5 (sl / 24)
  let ls := (x.dev.inSet sl set).map (·.1)
  let x := ls.foldl (fun (y : X) l =>
    let y := y.on (fun d => d.unpin l)
    let y := match y.dev.gline l with
      | some g => if g.st.transient || !g.queue.isEmpty || 0 < g.ops then y.on (fun d => d.setGline l { g with poison := 3 })
        else (y.settle l true).on (fun d => d.delGline l)
      | none => y
    let y := (y.op (.mark false (l * 2) true)).op (.mark false (l * 2 + 1) true)
    y.on (fun d => d.logErr { ukind := 3, unit := sl, cls := 3, outcome := 1, addr := l * 128, akind := 1, vit := some v, die })) x
  x.uncorrected { ukind := 3, unit := sl, cls := 3, outcome := 2, addr := set * 16 + way, akind := 3, vit := some v, die }

/-- GALLERY_SCRUB (R179, R180): the next position of the slice, by set and then way. `err` is what the granule `half` of the position shows, `tagBad` an
uncorrectable tag. -/
def execGalleryScrub (sl : ChanId) (found : GalFind) (tagBad : Bool) (s : State) : Out :=
  run s (fun x =>
    let die := sl.val / 96
    if !x.dev.runs die then x else
    let t := x.dev.slice sl.val
    let v := sl.val / 24
    let iv := x.dev.force 0x4010 1 0
    let x := x.on (fun d => d.reachRoot die (t.scrubAt + 4 * iv))
    let x := x.on (fun d => d.setSlice sl.val (fun u => { u with scrub := (u.scrub + 1) % 24576, scrubAt := (d.die die).root }))
    let set := t.scrub / 16
    let way := t.scrub % 16
    let gr := if found.half then 1 else 0
    if tagBad then x.setLost sl.val set way
    else match found.err with
      | .clean => x
      | .corrected => x.on (fun d => d.count 0x8015 0xE v)
      | .wrong => (x.on (fun d => d.count 0x8015 0xE v)).spoil sl.val set way gr
      | .missed => x.spoil sl.val set way gr
      | .detected => (x.on (fun d => d.count 0x8015 0xF v)).spoilt sl.val set way gr)

end Sys2Proof.Machine
end

