-- ==== Sys2Proof/Machine/Fabric.lean ====
section
/-! DEFINITION. Fabric links (R237-R243, R398-R400), remote operations (R246-R250) and transit (R245). -/

namespace Sys2Proof.Machine

/-! ### Link states -/

def LinkSt.code : LinkSt → Nat
  | .down => 0 | .training => 1 | .mgmt => 2 | .quarantine => 3 | .active => 4

/-- The pair links that have trained to the named peer, link i to link i (R253). -/
def Dev.pairTrained (d : Dev) : Nat :=
  (List.range 96).countP (fun l => fld (d.force 0x5200 2 0) l 1 == 1 && (match (d.link l).st with | .mgmt | .quarantine | .active => true | _ => false) &&
    (d.link l).peer.toNat == d.force 0x5200 1 0 && (d.link l).peerLink == l)

/-- A pair below 4 trained pair links is DEGRADED (R253). -/
def Dev.pairCheck (d : Dev) : Dev :=
  if d.fab.pendant == 2 && d.pairTrained < 4 then d.onFab (fun b => { b with pendant := 4 }) else d

/-- Move a link to a state with a reason and report it (R242, R243, R317). Operations sent on a link that leaves ACTIVE are
retransmitted (R246); a link that goes DOWN discards its replay buffer (R248). -/
def Dev.linkTo (d : Dev) (l : Nat) (st : LinkSt) (reason : Nat) : Dev :=
  let old := (d.link l).st
  let d := d.setLink l (fun k => { k with st := st, reason := reason })
  let d := if st == .down || st == .training then d.setLink l (fun k => { k with sent := [], wait := [], ingress := [], nak := false }) else d
  let d := if st == .training && old != .training then d.count 0x8019 3 l else d
  let d := if st == .quarantine && old != .quarantine then d.count 0x8019 4 l else d
  let d := (d.post 0x0012 3 l st.code reason).pairCheck
  if old == .active && st != .active then d.loseLink l else if st == .active then d.kickFab else d

/-- A link that drains goes DOWN once no operation is unacknowledged on it (R289). -/
def Dev.linkDrained (d : Dev) (l : Nat) : Dev :=
  let k := d.link l
  if k.draining && k.st != .down && k.sent.isEmpty && k.wait.isEmpty then d.linkTo l .down 0 else d

/-- LINK_ADMIN of a link (R289): 0 enabled, 1 drain, 2 squash. -/
def Dev.linkAdmin (d : Dev) (l val : Nat) : Dev :=
  match val with
  | 0 =>
    let d := d.setLink l (fun k => { k with draining := false })
    if (d.link l).st == .down && !(d.link l).out && (d.link l).refusedAt.isNone && d.cat.published then d.linkTo l .training 0 else d
  | 1 => (d.setLink l (fun k => { k with draining := true })).linkDrained l
  | _ =>
    let d := d.setLink l (fun k => { k with draining := true })
    if (d.link l).st == .down then d else d.linkTo l .down 0

/-- FABRIC_FRAME_RECEIVE (R239, R241): an intact frame in sequence is accepted; another asks for replay. Sixteen consecutive
frames that fail authentication retrain the link (R400). -/
def execFabricFrameReceive (l : LinkId) (f : FabFrame) (s : State) : Out :=
  runDev s (fun _ _ d =>
    let i := l.val
    let k := d.link i
    if k.st == .down || k.st == .training then d
    else
      let d := if f.decodes then d.count 0x8019 1 i f.corrected.toNat else d
      if !(f.decodes && f.crcOk && f.authOk) then
        let n := if f.authOk then 0 else k.authFails + 1
        let d := d.setLink i (fun k => { k with nak := true, authFails := n })
        let d := if f.authOk then d else d.count 0x7004 2 i
        if 16 ≤ n then (d.post 0x0303 3 i i k.genRx).linkTo i .training 0 else d
      else
        let d := d.setLink i (fun k => { k with heard := d.ref, authFails := 0 })
        let d := if f.stopped then
            let dev := k.peer
            let add := match kfind d.fab.halted dev.toNat with
              | some t => if d.ref ≤ t + 1000 then d.ref - t else 1000
              | none => 1000
            d.onFab (fun b => { b with halted := kset b.halted dev.toNat d.ref,
                                       ops := b.ops.map (fun o => if o.op.dest == dev then { o with susp := o.susp + add } else o) })
          else d
        if f.frameSeq != k.rxSeq + 1 then d
        else
          let d := if f.nak then d.count 0x8019 2 i else d
          (d.setLink i (fun k =>
            (({ k with rxSeq := f.frameSeq, nak := false, ingress := k.ingress ++ f.ops,
                       sent := k.sent.filter (fun e => (e.1 - f.ackSeq - 1).toNat < 2 ^ 31),
                       creditData := k.creditData + f.dataCredits.toNat, creditTransit := k.creditTransit + f.transitCredits.toNat,
                       creditMgmt := k.creditMgmt + f.mgmtCredits.toNat } : Link).flush))).linkDrained i)

/-- FABRIC_PEER_LOST (R240). -/
def execFabricPeerLost (l : LinkId) (s : State) : Out :=
  runDev s (fun _ _ d =>
    let k := d.link l.val
    if k.st == .down || k.st == .training then d
    else (d.reachRef (k.heard + 1000)).linkTo l.val .down 0)

/-- FRAME_LOCK_LOSS (R399): the link trains again with fresh keys. -/
def execFrameLockLoss (l : LinkId) (s : State) : Out :=
  runDev s (fun _ _ d =>
    let k := d.link l.val
    if k.st == .down || k.st == .training then d else d.linkTo l.val .training 0)

/-- LINK_AUTH_RETRY (R398): training of a refused link is tried again. -/
def execLinkAuthRetry (l : LinkId) (s : State) : Out :=
  runDev s (fun _ _ d =>
    match (d.link l.val).refusedAt with
    | some t =>
      if (d.link l.val).st == .down && !(d.link l.val).out then
        ((d.reachRef (t + 100000000)).setLink l.val (fun k => { k with refusedAt := none })).linkTo l.val .training 0
      else d
    | none => d)

/-- LINK_TRAINING_DONE (R242, R398): a failed step of key setup takes the link DOWN; otherwise it enters MGMT with its peer and
fresh keys. A link that is DOWN for peer loss is in training by then. -/
def execLinkTrainingDone (l : LinkId) (peer : DevId) (peerLink : Byte) (failedStep : Option (BitVec 3)) (s : State) : Out :=
  runDev s (fun _ _ d =>
    let k := d.link l.val
    let ok := d.cat.published && !k.out && !k.draining && (k.st == .training || (k.st == .down && k.refusedAt.isNone))
    if !ok then d
    else
      let d := if k.st == .down then d.linkTo l.val .training 0 else d
      match failedStep with
      | some n => ((d.setLink l.val (fun k => { k with refusedAt := some d.ref })).post 0x0304 3 l.val l.val n.toNat).linkTo l.val .down 0
      | none =>
        (d.setLink l.val (fun k =>
          { k with peer := peer, peerLink := peerLink.toNat, rxSeq := 0xFFFFFFFF, txSeq := 0, authFails := 0, heard := d.ref,
                   creditData := 4096, creditTransit := 1024, creditMgmt := 256, genTx := 0, genRx := 0, since := d.ref })).linkTo l.val .mgmt 0)

/-- The inputs of a Vitrine's configuration digest (R243). -/
def Dev.digestInputs (d : Dev) (fw : Nat) (v : VitId) : List Nat :=
  [fw, d.vset v 9 1, d.vset v 9 2] ++
  (List.range 255).flatMap (fun t => (List.range 16).map (fun i => d.force (0x9000 + v.toNat) (t + 1) i)) ++
  (List.range 4096).map (fun i => d.force (0x9040 + v.toNat) 1 i) ++ [d.vset v 3 1, d.vset v 9 3, d.vset v 0xB 1]

/-- DIGEST_EXCHANGE (R243, R242, R255): the ends compare digests, in clear first the firmware, group and epoch. -/
def execDigestExchange (l : LinkId) (peer : PeerDigest) (s : State) : Out :=
  runDev s (fun _ _ d =>
    let k := d.link l.val
    let v := vitOfLink l.val
    let fw := d.fw.version
    if !(k.st == .mgmt || k.st == .quarantine || k.st == .active) then d
    else if d.devId == 0xFFFF || !(d.vit v).held || d.group v == 0 then (if k.st == .mgmt then d else d.linkTo l.val .mgmt 0)
    else if d.fab.pendant == 5 && fld (d.force 0x5200 2 0) l.val 1 == 1 then d.linkTo l.val .quarantine 5
    else if Config.cfgDigest (d.digestInputs fw v) == peer.digest then
      (if k.st == .active then d else d.linkTo l.val .active 0)
    else
      let reason := if peer.fw.toNat != fw then 1 else if peer.group != d.group v then 2 else if peer.epoch != d.epoch v then 3 else 4
      d.linkTo l.val .quarantine reason)

/-- LINK_KEY_RATCHET (R399): a direction's key of the next generation, due every 2^32 frame slots of 5 reference cycles. -/
def execLinkKeyRatchet (l : LinkId) (tx : Bool) (s : State) : Out :=
  runDev s (fun _ _ d =>
    let k := d.link l.val
    if k.st == .down || k.st == .training then d
    else
      let g := (if tx then k.genTx else k.genRx) + 1
      (d.reachRef (k.since + g * 2 ^ 32 * 5)).setLink l.val (fun k => if tx then { k with genTx := g } else { k with genRx := g }))

/-! ### Remote instructions (R246) -/

/-- Issue a remote instruction: the group's 64 outstanding ones and the busy destination permitting. -/
def X.remoteIns (x : X) (g : GRef) (b : Block) (p : RPath) (dsts : List Nat) (i : RIns) : X :=
  let k := x.dev.core g.core
  let mine (o : Owner) : Bool := o.slot == g.slot.toNat && o.grp == g.grp.toNat && o.launchIx == b.launchIx && o.block == b.index
  if 64 ≤ x.dev.fab.ins.countP (fun j => j.core == g.core && mine j.owner) then x
  else
    let i := { i with id := x.dev.fab.nextIns, core := g.core, pc := p.pc, lanes := p.mask, scr := b.scrGran, clus := b.clusGran,
                      owner := { slot := g.slot.toNat, grp := g.grp.toNat, launchIx := b.launchIx, block := b.index, seq := b.seq } }
    let order := i.type == .put || i.type == .get
    let i := { i with waits := if order then (k.ops.filter (fun o => mine o.owner && o.writes && !o.accs.isEmpty)).map (·.id) else [],
                      tiles := if order then (k.eng.tiles.filter (fun t => t.ins.owner.slot == g.slot.toNat)).map (fun t => t.ins.id) else [] }
    let x := x.on (fun d => (d.onFab (fun f => { f with ins := f.ins ++ [i], nextIns := f.nextIns + 1 })).stepGrp g (fun q =>
      ({ q with busyRegs := q.busyRegs ++ dsts.map (BitVec.ofNat 8) } : Group).next))
    x.remotePump g.core

/-- RPUT or RGET: checks of the length, of both addresses and of the local range. -/
def execCopyOp (g : GRef) (type : RType) (rdev rra : Byte) (space : Space) (rla rlen : Byte) (s : State) : Out :=
  onGroup s g .m (fun b q p x => x.withRegs g b p ([rdev.toNat, rra.toNat, rra.toNat + 1, rlen.toNat] ++ addrRegs space rla.toNat) (fun x =>
    let lane := lowLane p.mask
    let len := (q.reg rlen.toNat lane).toNat
    let ra := q.addr rra.toNat lane
    let la := laneAddr q space rla.toNat 0 lane
    if len < 64 || 65536 < len then x.illegal g p
    else if len % 64 != 0 || ra % 64 != 0 || la % 64 != 0 then x.raise g { code := 0x02, lanes := p.mask, pc := p.pc, addr := la, space := spaceCode space }
    else
      let bad : Option Nat := match space with
        | .global => if x.dev.valid b.leader la len then none else some 0x01
        | sp => if la + len ≤ (match sp with
            | .scratch => b.launch.s
            | .cluster => b.launch.c
            | _ => ((x.dev.clu (clusOfCore g.core)).stepBytes).getD 0) then none else some 0x03
      match bad with
      | some code => x.raise g { code, lanes := p.mask, pc := p.pc, addr := la, space := spaceCode space }
      | none => x.remoteIns g b p [] { id := 0, core := g.core, owner := { slot := 0, grp := 0, launchIx := 0, block := 0, seq := 0 }, pc := p.pc,
                                       lanes := p.mask, type, dest := BitVec.ofNat 16 (q.reg rdev.toNat lane).toNat, raddr := ra,
                                       space := spaceCode space, laddr := la, len }))

/-- RPUT (R246). -/
def execRput (g : GRef) (rdev rra : Byte) (space : Space) (rla rlen : Byte) (s : State) : Out := execCopyOp g .put rdev rra space rla rlen s
/-- RGET (R246). -/
def execRget (g : GRef) (rdev rra : Byte) (space : Space) (rla rlen : Byte) (s : State) : Out := execCopyOp g .get rdev rra space rla rlen s

/-- RATOM (R246, R56): one remote atomic; the old value goes to dst of the lowest lane. -/
def execRatom (g : GRef) (op : AtomOp) (wide : Bool) (dst rdev rra rval rcmp : Byte) (s : State) : Out :=
  onGroup s g .m (fun b q p x =>
    if wide && !atomWide op then x.illegal g p
    else
      let n := if wide then 8 else 4
      let cmps := if op == .cas then lsuRegs rcmp.toNat n else []
      x.withRegs g b p ([rdev.toNat, rra.toNat, rra.toNat + 1] ++ lsuRegs dst.toNat n ++ lsuRegs rval.toNat n ++ cmps) (fun x =>
        let lane := lowLane p.mask
        let ra := q.addr rra.toNat lane
        if ra % n != 0 then x.raise g { code := 0x02, lanes := p.mask, pc := p.pc, addr := ra, space := 1 }
        else x.remoteIns g b p (lsuRegs dst.toNat n)
          { id := 0, core := g.core, owner := { slot := 0, grp := 0, launchIx := 0, block := 0, seq := 0 }, pc := p.pc, lanes := p.mask,
            type := .atomic, dest := BitVec.ofNat 16 (q.reg rdev.toNat lane).toNat, raddr := ra, aop := op, wide, dst,
            val := q.regNat rval.toNat lane n, cmp := q.regNat rcmp.toNat lane n }))

/-- RRED (R246, R177). -/
def execRred (g : GRef) (op : RedOp) (rdev rra rval : Byte) (s : State) : Out :=
  onGroup s g .m (fun b q p x => x.withRegs g b p [rdev.toNat, rra.toNat, rra.toNat + 1, rval.toNat] (fun x =>
    let lane := lowLane p.mask
    let ra := q.addr rra.toNat lane
    if ra % 4 != 0 then x.raise g { code := 0x02, lanes := p.mask, pc := p.pc, addr := ra, space := 1 }
    else x.remoteIns g b p []
      { id := 0, core := g.core, owner := { slot := 0, grp := 0, launchIx := 0, block := 0, seq := 0 }, pc := p.pc, lanes := p.mask,
        type := .reduce, dest := BitVec.ofNat 16 (q.reg rdev.toNat lane).toNat, raddr := ra, aop := redElem op,
        val := (q.reg rval.toNat lane).toNat }))

/-! ### The target (R248, R249) -/

/-- Take an operation out of the ingress buffer it stands in. -/
def Dev.acceptOp (d : Dev) (l : Nat) (op : ROp) : Dev :=
  if d.fab.loop.contains op then d.onFab (fun b => { b with loop := delFirst (fun o => o == op) b.loop })
  else d.setLink l (fun k => { k with ingress := delFirst (fun o => o == op) k.ingress })

/-- Send an operation that this device answers or starts outside a source's numbering: to itself, or on an eligible link of the Vitrines that `own` allows
(R19, R245). With no such link it is lost (log 77): a source sends again what it has no answer for (R248). -/
def Dev.sendFree (d : Dev) (own : VitId → Bool) (op : ROp) : Dev :=
  if op.dest == d.devId then d.onFab (fun b => { b with loop := b.loop ++ [op] })
  else match pickLink (d.eligible op.dest own) op.tag with
    | some k => d.txOp k 0 op
    | none => d

/-- The Vitrines whose links an answer for which no tenancy of this device stands may take: those of the operation's fabric group, and the owner of the link it
came on. -/
def Dev.groupOwn (d : Dev) (l : Nat) (op : ROp) (w : VitId) : Bool := ((d.vit w).held && d.group w == op.group) || w == vitOfLink l

/-- The ACK of an operation. -/
def Dev.ackOf (d : Dev) (op : ROp) (status : Nat) (old : BitVec 64) : ROp :=
  { op with dest := op.src, src := d.devId, type := .ack, dataSlots := 0, hops := 15, status := BitVec.ofNat 7 status, attempt := 0,
            operand0 := old, operand1 := 0, crcOk := true, data := [] }

/-- Answer an operation with a status. -/
def Dev.reply (d : Dev) (own : VitId → Bool) (op : ROp) (status : Nat) (old : BitVec 64 := 0) : Dev := d.sendFree own (d.ackOf op status old)

/-- Answer a performed or recorded operation: GET data goes before its ACK. -/
def Dev.replyResult (d : Dev) (own : VitId → Bool) (op : ROp) (r : RRes) : Dev :=
  let d := if op.type == .get && r.status == 0 then
      d.sendFree own { op with dest := op.src, src := d.devId, type := .getData, hops := 15, status := 0, attempt := 0, operand0 := 0, operand1 := 0,
                               crcOk := true, data := r.data, dataSlots := BitVec.ofNat 3 (cdiv r.data.length 64) }
    else d
  d.reply own op r.status r.old

/-- The Vitrine whose window or scratchpad slot an address lies in, whatever is populated (R7, R28). -/
def slotVit (a : Nat) : Option VitId :=
  if a < 2 ^ 41 || (padBase ≤ a && a < padBase + 2 ^ 32) then some (vitOfAddr a) else none

/-- Perform an operation at its home, as an access of the FABRIC class with hint DEFAULT (R246): its result. An atomic or reduction on a window line is one
operation at its slice (R176-R178). -/
def X.performOp (x : X) (v : VitId) (op : ROp) : X × RRes :=
  let a := op.address.toNat
  let n := op.length.toNat
  let x := { x with dev := (x.dev.watch v 7 a n 0x3FF).1 }
  let x := x.on (fun d => d.trace v 11 0x3FF (op.tag.toNat + op.src.toNat * 2 ^ 32 + op.srcVit.toNat * 2 ^ 48))
  if x.dev.isFenced (dieOfVit v) then (x, { tag := op.tag, status := 9, old := 0, data := [] })
  else match op.type with
    | .get =>
      let (x, l, bad) := x.readBytes a n (some (.fabric v))
      (x, { tag := op.tag, status := if bad then 9 else 0, old := 0, data := if bad then [] else l })
    | .atomic | .reduce =>
      let aop := (aopOf op.op.toNat).getD .add
      let poisoned (x : X) : X × RRes := (x.on (fun d => d.poisonRec (a / 128)), { tag := op.tag, status := 9, old := 0, data := [] })
      let done (x : X) (old : Nat) : X × RRes :=
        (x, { tag := op.tag, status := 0, old := if op.type == .atomic then BitVec.ofNat 64 old else 0, data := [] })
      let x := if op.type == .reduce then x.on (fun d => d.count 0x8015 7 v.toNat) else x
      match x.dev.place a with
      | .win .. =>
        let e : ElemOp := { off := BitVec.ofNat 7 (a % 128), op := aop, wide := n == 8, val := op.operand0, cmp := op.operand1, lane := 0 }
        (match x.atomAt (a / 128) [e] (some (.fabric v)) with
        | (x, some old) => done x ((old.head?.map (·.2)).getD 0)
        | (x, none) => poisoned x)
      | _ =>
        let (x, old, bad) := x.readNat a n
        if bad then poisoned x
        else done (x.writeBytes a (leBytes (elemApply aop (n == 8) old (op.operand0.toNat % 2 ^ (8 * n)) (op.operand1.toNat % 2 ^ (8 * n))) n)) old
    | _ => (x.writeBytes a (op.data.take n) 0 (fun _ => false) (some (.fabric v)), { tag := op.tag, status := 0, old := 0, data := [] })

def srcKey (op : ROp) : Nat := op.src.toNat * 32 + op.srcVit.toNat

/-- Perform the operation that is next for its source entry, record its result and answer it; then those held behind it. -/
def X.performNext (x : X) (l : Nat) (v : VitId) (op : ROp) : X :=
  let k := srcKey op
  let one (x : X) (op : ROp) : X × Bool :=
    if !x.dev.valid (((x.dev.vit v).leader).getD v) op.address.toNat op.length.toNat && op.type != .commit then
      (x.on (fun d => (d.addrErr v (some (7, l)) op.address.toNat 0).reply (d.sameTenancy v) op 2), false)
    else
      let (x, r) := if op.type == .commit then (x, { tag := op.tag, status := 0, old := 0, data := [] }) else x.performOp v op
      let x := x.on (fun d => d.onFab (fun b => match kfind b.srcs k with
        | some e => { b with srcs := kset b.srcs k { e with next := e.next + 1, results := (e.results ++ [r]).drop (e.results.length + 1 - 4096), used := d.ref } }
        | none => b))
      let x := if op.type == .commit then x.on (fun d => (d.tenancy (((d.vit v).leader).getD v)).foldl (fun (e : Dev) w => e.setVit w (fun t => { t with ckptCommitted := BitVec.ofNat 32 op.operand0.toNat })) d) else x
      (x.on (fun d => d.replyResult (d.sameTenancy v) op r), true)
  let (x, ok) := one x op
  if !ok then x
  else
    let held := ((kfind x.dev.fab.srcs k).map (·.held)).getD []
    held.foldl (fun (y : X) _ =>
      match kfind y.dev.fab.srcs k with
      | some e =>
        match e.held.find? (fun o => o.tag == e.next) with
        | some o =>
          let y := y.on (fun d => d.onFab (fun b => { b with srcs := kset b.srcs k { e with held := e.held.filter (fun t => t.tag != o.tag) } }))
          (one y o).1
        | none => y
      | none => y) x

/-- Classify an arriving operation by the order of R249 and perform, hold, replay or refuse it. -/
def X.arriveOp (x : X) (l : Nat) (v : VitId) (op : ROp) : X :=
  let ep := x.dev.epoch v
  let refuse (x : X) (st : Nat) : X := x.on (fun d => d.reply (d.sameTenancy v) op st)
  if op.epoch.toNat < ep.toNat then refuse (x.on (fun d => d.count 0x8018 4 v.toNat)) 3
  else if ep.toNat < op.epoch.toNat then refuse (x.on (fun d => d.count 0x8018 4 v.toNat)) 4
  else
    let k := srcKey op
    let known := kfind x.dev.fab.srcs k
    let idle := x.dev.fab.srcs.find? (fun e => decide (e.2.used + 2 * x.dev.force 0x5000 2 0 ≤ x.dev.ref))
    if known.isNone && 1024 ≤ x.dev.fab.srcs.length && idle.isNone then refuse x 6
    else
      let x := x.on (fun d => d.onFab (fun b =>
        match known with
        | some e => { b with srcs := kset b.srcs k (if e.epoch == op.epoch then { e with used := d.ref } else { epoch := op.epoch, used := d.ref }) }
        | none =>
          let m := if 1024 ≤ b.srcs.length then (match idle with | some e => kdel b.srcs e.1 | none => b.srcs) else b.srcs
          { b with srcs := kset m k { epoch := op.epoch, used := d.ref } }))
      match kfind x.dev.fab.srcs k with
      | none => x
      | some e =>
        let dd := (op.tag - e.next).toInt
        let valid := op.type == .commit || x.dev.valid (((x.dev.vit v).leader).getD v) op.address.toNat op.length.toNat
        if dd < -4096 then refuse x 7
        else if !valid then refuse (x.on (fun d => d.addrErr v (some (7, l)) op.address.toNat 0)) 2
        else if 0 < dd then
          if e.held.any (fun o => o.tag == op.tag) then x
          else if 256 ≤ e.held.length then refuse x 5
          else x.on (fun d => d.onFab (fun b => { b with srcs := kset b.srcs k { e with held := e.held ++ [op] } }))
        else if dd = 0 then x.performNext l v op
        else
          match e.results.find? (fun r => r.tag == op.tag) with
          | some r => x.on (fun d => (d.count 0x8018 3 v.toNat).replyResult (d.sameTenancy v) op r)
          | none => refuse x 7

/-! ### The source (R249, R250) -/

def Dev.updOps (d : Dev) (f : List RemOp → List RemOp) : Dev := d.onFab (fun b => { b with ops := f b.ops })

/-- The outstanding operation of a tag. -/
def Dev.opOf (d : Dev) (v : VitId) (dest : DevId) (tag : Word) : Option RemOp :=
  d.fab.ops.find? (fun o => o.v == v && o.op.dest == dest && o.op.tag == tag)
def Dev.dropOp (d : Dev) (o : RemOp) : Dev := d.updOps (fun l => delFirst (fun p => p.v == o.v && p.op.dest == o.op.dest && p.op.tag == o.op.tag) l)
def Dev.insOf (d : Dev) (o : RemOp) : Option RIns :=
  match o.src with
  | .ins id => d.fab.ins.find? (fun i => i.id == id)
  | _ => none

/-- Drop a remote instruction once it is split and none of its operations remains. -/
def Dev.reapIns (d : Dev) : Dev :=
  d.onFab (fun b => { b with ins := b.ins.filter (fun i => !i.split || b.ops.any (fun o => o.src == .ins i.id)) })

/-- Bytes of a DMA descriptor performed at their destination. -/
def Dev.dmaMoved (d : Dev) (v : VitId) (ring : Nat) (seq : Word) (n : Nat) : Dev :=
  d.setRing v ring (fun q => { q with fetched := updFirst (fun f => f.seq == seq && f.done.isNone) (fun f => { f with moved := f.moved + n }) q.fetched })

/-- The old value of an RATOM reaches its destination. -/
def RIns.land (i : RIns) (old : Nat) (q : Group) : Group :=
  let regs := lsuRegs i.dst.toNat (if i.wide then 8 else 4)
  let q := regs.zipIdx.foldl (fun (h : Group) (r : Nat × Nat) => h.setReg r.1 (lowLane i.lanes) (BitVec.ofNat 32 (old / 2 ^ (32 * r.2)))) q
  { q with busyRegs := q.busyRegs.filter (fun r => !regs.contains r.toNat) }

/-- The same in a saved block. -/
def RIns.landBlk (i : RIns) (old : Nat) (b : SavedBlk) : SavedBlk :=
  let gs := b.blk.groups.zipIdx.map (fun (e : Group × Nat) => if e.2 == i.owner.grp then i.land old e.1 else e.1)
  { b with blk := { b.blk with groups := gs } }

/-- An operation is complete (R246): its value, where it returns one, reaches dst, in the saved image of a saved step (R281). -/
def X.finishOp (x : X) (o : RemOp) (old : Nat) : X :=
  let x := x.on (fun d => (d.dropOp o).count 0x8018 1 o.v.toNat)
  let x := match o.src, x.dev.insOf o with
    | .ins _, some i =>
      if i.type != RType.atomic then x
      else match x.dev.insGroup i with
        | some g => x.on (fun d => d.updGrp g (i.land old))
        | none => x.on (fun d => d.updSavedBlk i (i.landBlk old))
    | .dma r seq, _ => x.on (fun d => d.dmaMoved o.v r seq o.op.length.toNat)
    | _, _ => x
  x.on (fun d => d.reapIns.kickFab)

/-- An exception of an instruction whose step is saved (R281): the step ends with it once its Vitrines are free. -/
def Dev.excSaved (d : Dev) (i : RIns) (code addr : Nat) : Dev :=
  let q := ((d.srv.steps.flatMap (fun s => s.saved.flatMap (fun c => if c.ins.contains i.id then c.blocks else []))).find?
    (fun b => b.core == i.core.toNat && b.slot == i.owner.slot)).bind (fun b => b.blk.groups[i.owner.grp]?)
  let rec' : ExcRec := { addr := BitVec.ofNat 44 addr, space := 1, lanes := i.lanes, pc := i.pc, block := BitVec.ofNat 32 i.owner.block,
                         gslot := (q.map (·.gslot)).getD 0, core := i.core, code := BitVec.ofNat 8 code, seq := i.owner.seq,
                         launch := BitVec.ofNat 16 i.owner.launchIx, detail := 0 }
  d.onSrv (fun s => { s with steps := s.steps.map (fun t =>
    if t.saved.any (fun c => c.ins.contains i.id) then
      { t with ends := if t.ends.contains 4 then t.ends else t.ends ++ [4],
               recs := if (kfind t.recs i.core.toNat).isSome then t.recs else kset t.recs i.core.toNat rec' }
    else t) })

/-- An operation fails with an exception code and, for a DMA descriptor, a completion status (R250, R270). -/
def X.failOp (x : X) (o : RemOp) (code status : Nat) : X :=
  let ins := x.dev.insOf o
  let x := x.on (fun d => d.dropOp o)
  match o.src, ins with
  | .ins _, some i =>
    let x := x.on (fun d => (d.updOps (fun l => l.map (fun p => if p.src == o.src then { p with dead := true } else p))).reapIns)
    match x.dev.insGroup i with
    | some g => x.raise g { code, lanes := i.lanes, pc := i.pc, addr := o.op.address.toNat, space := 1 }
    | none => x.on (fun d => d.excSaved i code o.op.address.toNat)
  | .dma r seq, _ => x.on (fun d => d.setRing o.v r (fun q =>
      { q with fetched := updFirst (fun f => f.seq == seq && f.done.isNone) (fun f => { f with ends := f.ends ++ [status] }) q.fetched }))
  | _, _ => x

/-- End the job of a Vitrine for a remote operation (R202, R249). -/
def X.remoteFault (x : X) (v : VitId) : X :=
  let (n, d) := x.dev.draw
  { x with dev := d }.uncorrected { ukind := 7, unit := v.toNat * 3, cls := (Config.classless n).toNat, outcome := 2, vit := some v, die := dieOfVit v, atrium := true }

/-- Whether fabric ingress for an operation's Vitrine is held: its tenancy is frozen or being frozen (R292). -/
def Dev.heldIn (d : Dev) (op : ROp) : Bool :=
  match op.type, slotVit op.address.toNat with
  | .put, some v | .get, some v | .atomic, some v | .reduce, some v =>
    (d.vit v).st == .frozen || (match (d.vit v).leader with | some t => (kget ({} : CrateSt) d.srv.crate t.toNat).freezing | none => false)
  | _, _ => false

/-- Where the data of a DMA RGET lands: a device address, an offset of a step region (cluster x 2^24 + offset) or a host
address, by 1, 2 and 5. -/
def X.landDma (x : X) (space loc : Nat) (l : List Byte) : X :=
  match space with
  | 1 => x.writeBytes loc l 0 (fun _ => false) (some (.fabric (vitOfAddr loc)))
  | 2 => l.zipIdx.foldl (fun (y : X) e => y.op (.set .clus (y.dev.stepAt (loc / 2 ^ 24) (loc % 2 ^ 24 + e.2)) e.1)) x
  | _ => x.putBytes .host loc l

/-- Whether an operation that arrived on a link came by a link of the tenancy of Vitrine v, or within the device (R19, log 77). -/
def Dev.cameBy (d : Dev) (l : Nat) (v : VitId) (op : ROp) : Bool := d.fab.loop.contains op || d.sameTenancy v (vitOfLink l)

/-- REMOTE_OP_ARRIVAL (R248, R249): an operation for this device. GET data is performed at its source. -/
def execRemoteOpArrival (l : LinkId) (op : ROp) (s : State) : Out :=
  run s (fun x =>
    if op.dest != x.dev.devId || x.dev.dbg.stopped || x.dev.heldIn op then x
    else
      let own (v : VitId) : Bool := x.dev.cameBy l.val v op
      let x := x.on (fun d => d.acceptOp l.val op)
      if !op.crcOk then x.on (fun d => d.count 0x8018 6 (vitOfLink l.val).toNat)
      else match op.type with
        | .getData =>
          match x.dev.opOf op.srcVit op.src op.tag with
          | some o =>
            if o.got || !own op.srcVit then x
            else
              let x := match x.dev.insOf o with
                | some i => if o.space != 1 && x.dev.insSaved i then x.on (fun d => d.landSaved i o.space o.loc op.data)
                  else x.writeSpace i.core i.scr i.clus o.space o.loc op.data 0 (some (.fabric (vitOfCore i.core)))
                | none =>
                  let lead := ((x.dev.vit o.v).leader).getD o.v
                  (match o.src with
                  | .dma r seq =>
                    if o.space == 1 && !x.dev.valid lead o.loc op.data.length then
                      x.on (fun d => (d.addrErr o.v (some (7, l.val)) o.loc 0).setRing o.v r (fun q =>
                        { q with fetched := updFirst (fun f => f.seq == seq && f.done.isNone) (fun f => { f with ends := f.ends ++ [8] }) q.fetched }))
                    else x.landDma o.space o.loc op.data
                  | _ => x.landDma o.space o.loc op.data)
              if o.acked then x.finishOp o 0
              else x.on (fun d => d.updOps (fun l => updFirst (fun p => p.v == o.v && p.op.dest == o.op.dest && p.op.tag == o.op.tag) (fun p => { p with got := true }) l))
          | none => x
        | .put | .get | .atomic | .reduce =>
          match slotVit op.address.toNat with
          | some v => if (x.dev.vit v).held && x.dev.group v == op.group && op.group != 0 && own v then x.arriveOp l.val v op
                      else x.on (fun d => d.reply (d.groupOwn l.val op) op 1)
          | none => x.on (fun d => d.reply (d.groupOwn l.val op) op 1)
        | _ => x)

/-- REMOTE_ACK (R249): the operation is completed, retransmitted, discarded or failed by status. -/
def execRemoteAck (l : LinkId) (op : ROp) (s : State) : Out :=
  run s (fun x =>
    if op.dest != x.dev.devId || op.type != .ack || x.dev.dbg.stopped then x
    else
      let own := x.dev.cameBy l.val op.srcVit op
      let x := x.on (fun d => d.acceptOp l.val op)
      if !op.crcOk then x.on (fun d => d.count 0x8018 6 (vitOfLink l.val).toNat)
      else if !own then x
      else match x.dev.fab.ops.find? (fun o => o.v == op.srcVit && o.op.tag == op.tag && o.op.epoch == op.epoch && (o.op.dest == op.src || op.status == 8)) with
        | none => x
        | some o =>
          match op.status.toNat with
          | 0 =>
            if o.op.type == .get && !o.got then
              x.on (fun d => d.updOps (fun l => updFirst (fun p => p.v == o.v && p.op.dest == o.op.dest && p.op.tag == o.op.tag) (fun p => { p with acked := true }) l))
            else x.finishOp o op.operand0.toNat
          | 4 | 5 | 6 =>
            if o.dead then x
            else x.on (fun d =>
              let o' := { o with op := { o.op with attempt := o.op.attempt + 1 } }
              let (e, p) := d.sendOp o'
              (e.updOps (fun l => updFirst (fun q => q.v == o.v && q.op.dest == o.op.dest && q.op.tag == o.op.tag) (fun _ => p) l)).count 0x8018 2 o.v.toNat)
          | 7 => x
          | 9 => if o.dead then x.on (fun d => (d.dropOp o).reapIns) else (x.failOp o 0x45 6).remoteFault o.v
          | _ => if o.dead then x.on (fun d => (d.dropOp o).reapIns) else x.failOp o 0x0D 9)

/-- REMOTE_RETRY_EXPIRY (R248): an unacknowledged operation is sent again. -/
def execRemoteRetryExpiry (v : VitId) (dest : DevId) (tag : Word) (s : State) : Out :=
  runDev s (fun _ _ d =>
    match d.opOf v dest tag with
    | some o =>
      if o.first.isNone || o.dead then d
      else
        let d := d.reachRef (o.sentAt + d.force 0x5000 3 0)
        let (e, p) := d.sendOp { o with op := { o.op with attempt := o.op.attempt + 1 } }
        (e.updOps (fun l => updFirst (fun q => q.v == v && q.op.dest == dest && q.op.tag == tag) (fun _ => p) l)).count 0x8018 2 v.toNat
    | none => d)

/-- The timeout in force for a Vitrine's operations (R248). -/
def Dev.remoteLimit (d : Dev) (v : VitId) : Nat := if d.vacc v 9 6 == 0 then d.force 0x5000 2 0 else d.vacc v 9 6

/-- REMOTE_TIMEOUT (R202, R241, R248, R290): not while the target is stopped. An operation of a squashed step is counted as
unanswered; any other fails the job. -/
def execRemoteTimeout (v : VitId) (dest : DevId) (tag : Word) (s : State) : Out :=
  run s (fun x =>
    match x.dev.opOf v dest tag with
    | some o =>
      match o.first with
      | none => x
      | some t =>
        let quietDev := match kfind x.dev.fab.halted dest.toNat with | some h => decide (x.dev.ref ≤ h + 1000) | none => false
        if quietDev then x
        else
          let lim := if o.dead then x.dev.force 0x5000 2 0 else x.dev.remoteLimit v
          let x := x.on (fun d => d.reachRef (t + lim + o.susp))
          if o.dead then
            let seq := (x.dev.insOf o).map (fun i => i.owner.seq)
            x.on (fun d => ((d.dropOp o).reapIns).onSrv (fun q => { q with steps := q.steps.map (fun st =>
              if some st.seq == seq && st.mask.getLsbD v.toNat then { st with unanswered := st.unanswered + 1 } else st) }))
          else
            match o.src, x.dev.insOf o with
            | .ins _, some i =>
              (match x.dev.insGroup i with
                | some _ => x.failOp o 0x44 9
                | none => (x.failOp o 0x44 9).remoteFault v)
            | _, _ => (x.failOp o 0x44 6).remoteFault v
    | none => x)

/-! ### Transit (R245, R248) -/

/-- TRANSIT_FORWARD: an operation for another device goes out on an eligible link with HOPS decremented, waiting for transit
credits in the device's buffers, or is discarded with NO_ROUTE to its source. -/
def execTransitForward (l : LinkId) (op : ROp) (s : State) : Out :=
  runDev s (fun _ _ d =>
    if op.dest == d.devId then d
    else
      let d := (d.acceptOp l.val op).count 0x8018 5 (vitOfLink l.val).toNat
      let ls := d.eligible op.dest (fun w => (d.vit w).held && d.group w == op.group)
      match op.hops.toNat, pickLink ls op.tag with
      | h + 1, some k =>
        let op' : ROp := { op with hops := BitVec.ofNat 4 h }
        let d := d.txOp k 1 op'
        if (d.link k).wait.any (fun w => w.2 == op') then d.onFab (fun b => { b with transit := b.transit ++ [(l.val, op', d.ref)] }) else d
      | _, _ => if op.type == .ack then d else d.reply (d.groupOwn l.val op) op 8)

/-- TRANSIT_DISCARD (R248): an operation that has waited 2^20 reference cycles is discarded and counted. -/
def execTransitDiscard (l : LinkId) (tag : Word) (s : State) : Out :=
  runDev s (fun _ _ d =>
    let waits (op : ROp) : Bool := d.fab.links.any (fun k => k.2.wait.any (fun w => w.1 == 1 && w.2 == op))
    match d.fab.transit.find? (fun t => t.1 == l.val && t.2.1.tag == tag && waits t.2.1) with
    | some (_, op, t) =>
      let d := (d.reachRef (t + 2 ^ 20)).count 0x8018 7 (vitOfLink l.val).toNat
      d.onFab (fun b => { b with transit := delFirst (fun e => e.1 == l.val && e.2.1 == op) b.transit,
                                 links := kmapv (fun k => { k with wait := k.wait.filter (fun w => !(w.1 == 1 && w.2 == op)) }) b.links })
    | none => d)

end Sys2Proof.Machine
end

