-- ==== Sys2Proof/Machine/Hbm.lean ====
section
/-! DEFINITION. The HBM controllers: queues and choice (R143, R144), the device code (R146-R149), refresh and calibration
(R150-R152), scrub (R155, R156) and row repair (R158-R160). -/

namespace Sys2Proof.Machine

/-! ### Places -/

/-- The device address of a channel-local address below 1,920 MiB (R140); none in the reserved rows (R157). -/
def devAddr (ch a : Nat) : Option Nat :=
  if 15360 ≤ rowOf a then none
  else
    let q := a / 512
    let f := (q + q / 24) % 24
    let u := q * 24 + (ch % 24 + 24 - f) % 24
    some (ch / 24 * 2 ^ 36 + u * 512 + a % 512)

/-- Where the bytes of a channel-local address stand in the store of HBM bytes: at its device address, or, of the reserved 128 MiB of a channel,
beyond every device address (R18, R157). -/
def hbmKey (ch a : Nat) : Nat := (devAddr ch a).getD (2 ^ 45 + ch * 2 ^ 31 + a)

/-- A burst and its poison as last performed at the controller. -/
def Mems.burst (m : Mems) (q : HPc) (ch a : Nat) : BitVec 512 × Bool :=
  let y := hbmKey ch (q.home a) / 64
  (BitVec.ofNat 512 (m.nat .hbm (y * 64) 64), m.poison.contains y)

/-- The 64 check bits of a burst (R146, R148): the code over its data and the address bits [30:6], which poison has XORed with 0x5A5A in each symbol.
They are a function of what the store of bytes holds; the field's polynomial is not in the spec (log 79). -/
def checkBits (a : Nat) (data : BitVec 512) (poison : Bool) : BitVec 64 :=
  Config.hbmCode data (BitVec.ofNat 25 (a / 64)) ^^^ (if poison then 0x5A5A5A5A5A5A5A5A else 0)

/-- Write a whole burst; a delivery of it not yet taken is out of date. -/
def X.putBurst (x : X) (ch a : Nat) (data : BitVec 512) (poison : Bool) : X :=
  let y := hbmKey ch ((x.dev.hpc ch (pcOf a)).home a) / 64
  let x := (x.putBytes .hbm (y * 64) (leBytes data.toNat 64)).op (.mark false y poison)
  x.on (fun d => d.setHpc ch (pcOf a) (fun q => { q with ret := kdel q.ret (a / 64) }))

/-! ### Requests -/

/-- The priority of a request at a controller (R218): its port's class's, or HIGH for a media engine's whose SLACK is at most MEDIA_URGENT_CYCLES (R233). -/
def Dev.reqHigh (d : Dev) (port : MPort) (home : VitId) (slack : Option (BitVec 16)) : Bool :=
  d.portHigh port home || (match slack with
    | some k => clsNum (portCls port) == 3 && decide (k.toInt ≤ (d.vset home 8 4 : Int))
    | none => false)

/-- HBM_REQUEST_ACCEPT (R143, R145): a burst enters its queue of 64, when it has room; a write is performed. -/
def execHbmRequestAccept (ch : ChanId) (write : Bool) (a : BitVec 31) (data : BitVec 512) (by' : BurstPort) (s : State) : Out :=
  run s (fun x =>
    let c := ch.val
    let p := pcOf a.toNat
    let q := x.dev.hpc c p
    let now := x.dev.hbmCycle (dieOfChan c)
    let high := x.dev.reqHigh by'.port (vitOfChan c) by'.slack
    if !x.dev.runs (dieOfChan c) || (if write then 64 ≤ q.writes.length else 64 ≤ q.reads.length) then x
    else if write then
      (x.putBurst c a.toNat data false).on (fun d => d.setHpc c p (fun q => { q with writes := q.writes ++ [{ a := a.toNat, high, at' := now }] }))
    else
      let (dat, po) := x.mem.burst q c a.toNat
      x.on (fun d => d.setHpc c p (fun q => { q with reads := q.reads ++ [{ a := a.toNat, high, at' := now, data := dat, poison := po }] })))

/-- Whether the first request goes before the second by R143. -/
def HReq.before (q : HPc) (now : Nat) (r s : HReq) : Bool :=
  let old (t : HReq) : Bool := decide (t.at' + 1024 ≤ now)
  let hit (t : HReq) : Bool := q.hits (q.place t.a)
  if old r || old s then old r && (!old s || decide (r.at' ≤ s.at'))
  else if r.high != s.high then r.high
  else if hit r != hit s then hit r
  else decide (r.at' ≤ s.at')

/-- HBM_SCHEDULE (R143): writes drain by the watermarks; the next command goes to the stack, with the activate its row needs. Before a new activate
the postponed refreshes go (R150). -/
def execHbmSchedule (ch : ChanId) (pc : Bool) (s : State) : Out :=
  runDev s (fun _ _ d =>
    let c := ch.val
    let p := if pc then 1 else 0
    let q := d.hpc c p
    let now := d.hbmCycle (dieOfChan c)
    if !d.runs (dieOfChan c) || now < q.calEnd then d
    else
      let drain := if q.drain then !q.writes.isEmpty && (q.reads.isEmpty || decide (16 < q.writes.length))
        else !q.writes.isEmpty && (q.reads.isEmpty || decide (48 ≤ q.writes.length))
      let cand := (if drain then q.writes else q.reads).filter (fun r => kget 0 q.busy (q.place r.a / 16384) ≤ now)
      match cand.foldl (fun (b : Option HReq) r => match b with
          | none => some r
          | some t => if r.before q now t && !(t.before q now r) then some r else some t) none with
      | none => d.setHpc c p (fun q => { q with drain := drain })
      | some r =>
        if !q.hits (q.place r.a) && 0 < q.postponed then d.setHpc c p (fun q => { q.refreshes now 0 with drain := drain })
        else
          ((d.activate c r.a).count 0x8014 (if drain then 2 else 1) (vitOfChan c).toNat).setHpc c p (fun q =>
            { q with drain := drain,
                     reads := if drain then q.reads else delFirst (fun t => t == r) q.reads,
                     writes := if drain then delFirst (fun t => t == r) q.writes else q.writes,
                     flight := if drain then q.flight else q.flight ++ [r] }))

/-! ### Errors (R147, R158) -/

/-- The row of the stack behind an address is to be retired (R158); an uncorrectable error in an assigned window makes it wait for the job's end even
where it was due before. -/
def Dev.dueRow (d : Dev) (ch a : Nat) (unc : Bool) : Dev :=
  let k := (d.hpc ch (pcOf a)).place a
  let r : HRow := { pc := pcOf a, bank := k / 16384, row := k % 16384, unc }
  let same (t : HRow) : Bool := t.pc == r.pc && t.bank == r.bank && t.row == r.row
  d.setHchan ch (fun h => { h with due := if h.due.any same then h.due.map (fun t => if same t then { t with unc := t.unc || unc } else t)
                                          else h.due ++ [r] })

/-- A corrected error of a burst (R147): counted. -/
def Dev.corrected (d : Dev) (ch : Nat) : Dev := d.count 0x8014 5 (vitOfChan ch).toNat

/-- A corrected error of a burst on a read (R147, R158): counted, and its row retired when it recurs in a rewritten burst or reaches
ROW_CE_LIMIT. -/
def Dev.correctedAt (d : Dev) (ch a : Nat) : Dev :=
  let q := d.hpc ch (pcOf a)
  let k := q.place a
  let burst := a / 64
  let n := kget 0 q.ce k + 1
  let d := (d.corrected ch).setHpc ch (pcOf a) (fun q => { q with ce := kset q.ce k n, fixed := sins q.fixed burst })
  if q.fixed.contains burst || d.force 0x4000 4 0 ≤ n then d.dueRow ch a false else d

/-- DETAIL of an error located in a symbol (R147, R354): data symbols are 0-31, check symbols 32-35 and the virtual ones 36 and 37 (log 79). -/
def BurstErr.symbol : BurstErr → Nat
  | .oneSymbol k => k.toNat
  | .wrongAddress (some v) => if v then 37 else 36
  | _ => 0

/-- The error record of a burst. -/
def burstRec (ch a : Nat) (outcome detail : Nat) (vit : Option VitId) : ErrRec :=
  { ukind := 4, unit := ch, cls := 4, outcome, addr := a, akind := 2, detail, vit, die := dieOfChan ch }

/-- An uncorrectable error of a burst on a read: counted, recorded and its row retired. -/
def Dev.uncorrectedAt (d : Dev) (ch a : Nat) (detail : Nat) : Dev :=
  let v := vitOfChan ch
  ((d.count 0x8014 6 v.toNat).logErr (burstRec ch a 1 detail (some v))).dueRow ch a (d.vit v).leader.isSome

/-- What a read of a burst delivers (R147, R148): data and poison, and the burst as it is left; none where it is left alone. -/
def X.decode (x : X) (ch a : Nat) (data : BitVec 512) (poison : Bool) (err : BurstErr) : X × BitVec 512 × Bool :=
  match err with
  | .none => (x, data, poison)
  | .oneSymbol _ => (x.on (fun d => d.correctedAt ch a), data, poison)
  | .twoOrThree | .wrongAddress _ | .fourOrMore false => (x.on (fun d => d.uncorrectedAt ch a (BurstErr.symbol err)), data, true)
  | .fourOrMore true =>
    let (n, d) := x.dev.draw
    ({ x with dev := d.correctedAt ch a }, Config.hbmWrong n, poison)

/-- Whether a write to a burst is queued. -/
def HPc.writing (q : HPc) (a : Nat) : Bool := q.writes.any (fun r => r.a / 64 == a / 64)

/-- HBM_BURST_READ (R147, R148): the data of a read sent to the stack returns to its slice. A corrected burst is written
back unless a write to it is queued. -/
def execHbmBurstRead (ch : ChanId) (a : BitVec 31) (err : BurstErr) (s : State) : Out :=
  run s (fun x =>
    let c := ch.val
    let p := pcOf a.toNat
    let q := x.dev.hpc c p
    if !x.dev.runs (dieOfChan c) || x.dev.hbmCycle (dieOfChan c) < q.calEnd then x else
    match q.flight.find? (fun r => r.a / 64 == a.toNat / 64) with
    | none => x
    | some r =>
      let (y, data, po) := x.decode c a.toNat r.data r.poison err
      let y := match err with
        | .fourOrMore true => if q.writing a.toNat || (x.mem.burst q c a.toNat).1 != r.data then y else y.putBurst c a.toNat data po
        | _ => y
      y.on (fun d => d.setHpc c p (fun q => { q with flight := delFirst (fun t => t.a / 64 == a.toNat / 64) q.flight, ret := kset q.ret (a.toNat / 64) (data, po) })))

/-- HBM_RMW (R144, R148, R178): the burst is read, changed and written as one request. Element operations on a poisoned
burst are not performed (R356); new bytes are stored and the burst stays poisoned. -/
def execHbmRmw (ch : ChanId) (a : BitVec 31) (mask : BitVec 64) (data : BitVec 512) (ops : List ElemOp) (err : BurstErr) (s : State) : Out :=
  run s (fun x =>
    let c := ch.val
    let q := x.dev.hpc c (pcOf a.toNat)
    if !x.dev.runs (dieOfChan c) || x.dev.hbmCycle (dieOfChan c) < q.calEnd then x else
    let v := vitOfChan c
    let x := x.on (fun d => (((d.activate c a.toNat).count 0x8014 1 v.toNat).count 0x8014 2 v.toNat).count 0x8014 3 v.toNat)
    let (old, po) := x.mem.burst q c a.toNat
    let (x, old, po) := x.decode c a.toNat old po err
    let bm : BitVec 512 := (bits mask).foldl (fun m i => m ||| BitVec.ofNat 512 (255 * 2 ^ (8 * i))) 0
    let new : BitVec 512 := (old &&& ~~~bm) ||| (data &&& bm)
    if po && !ops.isEmpty then
      let x := x.on (fun d => d.logErr (burstRec c a.toNat 1 0 (some v)))
      x.putBurst c a.toNat new true
    else
      let l : Line := ops.foldl (fun (l : Line) e => (elemStep { e with off := BitVec.ofNat 7 (e.off.toNat % 64) } l).1) (new.setWidth 1024)
      x.putBurst c a.toNat (l.setWidth 512) po)

/-! ### Refresh, calibration and counts -/

/-- The refresh interval of a stack's band (R150). -/
def Dev.refInterval (d : Dev) (k : Nat) : Nat := d.force 0xA100 1 (kget ({} : HStack) d.hbm.stk k).band / 65536

/-- HBM_REFRESH (R150): while open rows are hit up to 8 refreshes are postponed; else all due ones go to the banks in
rotation, each holding its bank for 132 cycles. -/
def execHbmRefresh (ch : ChanId) (pc : Bool) (openHits : Bool) (s : State) : Out :=
  runDev s (fun _ _ d =>
    let c := ch.val
    let p := if pc then 1 else 0
    let die := dieOfChan c
    if !d.runs die then d else
    let due := (d.hpc c p).refAt + d.refInterval (stackOfChan c)
    let d := d.reachRoot die (8 * due)
    let now := d.hbmCycle die
    d.setHpc c p (fun q =>
      let q := { q with refAt := due }
      if openHits && q.postponed < 8 then { q with postponed := q.postponed + 1 }
      else q.refreshes now 1))

/-- HBM_CALIBRATION (R152): a window of 384 cycles begins when no other pseudo-channel of the channel, and fewer than 4 of
the stack, are in one. -/
def execHbmCalibration (ch : ChanId) (pc : Bool) (s : State) : Out :=
  runDev s (fun _ _ d =>
    let c := ch.val
    let p := if pc then 1 else 0
    let die := dieOfChan c
    if !d.runs die then d else
    let d := d.reachRoot die (8 * ((d.hpc c p).calAt + d.force 0x4000 3 0))
    let now := d.hbmCycle die
    let k := stackOfChan c
    let open' := d.hbm.pcs.filter (fun e => decide (now < e.2.calEnd) && stackOfChan (e.1 / 2) == k)
    if open'.any (fun e => e.1 / 2 == c) || 4 ≤ open'.length then d
    else d.setHpc c p (fun q => { q with calAt := now, calEnd := now + 384 }))

/-- ONDIE_COUNT_READ (R149): the counts of the die's four Vitrines' channels. -/
def execOndieCountRead (die : DieId) (c0 c1 c2 c3 : Word) (s : State) : Out :=
  runDev s (fun _ _ d =>
    let i := die.toNat
    if !d.runs i then d else
    let d := d.reachRoot i (8 * (kget 0 d.hbm.ondieAt i + 2 ^ 30))
    let d := d.onHbm (fun h => { h with ondieAt := kset h.ondieAt i (d.hbmCycle i) })
    [c0, c1, c2, c3].zipIdx.foldl (fun (e : Dev) w => e.count 0x8014 7 (i * 4 + w.2) w.1.toNat) d)

/-! ### Scrub (R155, R156) -/

/-- HBM_SCRUB (R155, R156, R158): the channel's next burst, after a calibration window of its pseudo-channel (R152). An uncorrectable one is written back
poisoned; in an assigned window it ends the tenancy's job. -/
def execHbmScrub (ch : ChanId) (err : BurstErr) (s : State) : Out :=
  run s (fun x =>
    let c := ch.val
    let die := dieOfChan c
    if !x.dev.runs die then x else
    let h := x.dev.hchan c
    let a := h.scrub * 64
    let x := x.on (fun d => d.reachRoot die (8 * max (h.scrubAt + d.force 0x4000 2 0) (d.hpc c (pcOf a)).calEnd))
    let x := x.on (fun d => d.setHchan c (fun t => { t with scrub := (h.scrub + 1) % 2 ^ 25, scrubAt := d.hbmCycle die }))
    let x := if h.scrub == 0 then x.on (fun d => (d.setHpc c 0 (fun q => { q with ce := [] })).setHpc c 1 (fun q => { q with ce := [] })) else x
    let q := x.dev.hpc c (pcOf a)
    let v := vitOfChan c
    let (old, po) := x.mem.burst q c a
    match err with
    | .none => x
    | .oneSymbol _ => x.on (fun d => d.correctedAt c a)
    | .fourOrMore true =>
      let (y, data, _) := x.decode c a old po err
      if q.writing a then y else y.putBurst c a data po
    | _ =>
      let mine := (devAddr c (q.home a)).isSome && (x.dev.vit v).leader.isSome
      let x := x.on (fun d => (d.count 0x8014 6 v.toNat).dueRow c a mine)
      let x := if q.writing a then x else x.putBurst c a old true
      if mine then x.uncorrected (burstRec c a 2 (BurstErr.symbol err) (some v))
      else x.on (fun d => d.logErr (burstRec c a 1 (BurstErr.symbol err) none)))

/-! ### Repair (R159, R160) -/

/-- A row of RETIREMENTS_SINCE_START, in 8 bytes: stack, channel, pseudo-channel, SID, group, bank, row and kind (1 retired, 2 offlined,
3 redirected) (log 79). -/
def retireRow (ch pc key kind : Nat) : Nat :=
  let b := key / 16384
  ch / 32 + ch % 32 * 2 ^ 8 + pc * 2 ^ 16 + b / 16 * 2 ^ 20 + b / 4 % 4 * 2 ^ 24 + b % 4 * 2 ^ 28 + key % 16384 * 2 ^ 32 + kind * 2 ^ 48

/-- Record a repair of a row: the list since start, ROW_RETIRED, the error record and the pending Condition Record. `n` rows went to the pool. -/
def Dev.repaired (d : Dev) (ch pc key kind n : Nat) : Dev :=
  let k := stackOfChan ch
  let d := d.onHbm (fun h =>
    let t := kupd 0 h.tally ((if kind == 1 then 0 else if kind == 2 then 100 else 200) + k) (· + 1)
    { h with retired := h.retired ++ [retireRow ch pc key kind], tally := if kind == 3 then kupd 0 t (100 + k) (· + n) else t })
  let d := d.setHchan ch (fun h => { h with due := h.due.filter (fun r => !(r.pc == pc && r.bank == key / 16384 && (r.row == key % 16384 || kind == 3))) })
  let d := d.post 0x0020 5 k (retireRow ch pc key kind) kind
  (d.logErr { burstRec ch 0 5 0 none with akind := 0, action := kind }).changed kind

/-- A row of the stack that no table sends away and that stands for no other. -/
def HPc.unused (q : HPc) (p : Nat) : Bool := (q.entry p).isNone && (q.servesFor p).isNone

/-- An unused spare of a bank, the lowest (R157, R159; log 79). -/
def HPc.spare (q : HPc) (bank : Nat) : Option Nat :=
  ((List.range 128).map (fun i => bank * 16384 + 15360 + i)).find? q.unused

/-- The rows of the offline pool of a bank. -/
def poolRows (bank : Nat) : List Nat := (List.range 512).map (fun i => bank * 16384 + 15488 + i)
/-- An unused pool row in another bank, the lowest (R160; log 79). -/
def HPc.poolFor (q : HPc) (bank : Nat) : Option Nat :=
  (List.range 64).findSome? (fun b => if b == bank || (kfind q.redirected b).isSome then none else (poolRows b).find? q.unused)

/-- Redirect a bank: its 15,360 populated rows go to unused pool rows of the other banks, and its own entries end (R160). -/
def HPc.redirect (q : HPc) (bank : Nat) : HPc :=
  let free := (List.range 64).flatMap (fun b => if b == bank || (kfind q.redirected b).isSome then [] else (poolRows b).filter q.unused)
  let mine (k : Nat) : Bool := k / 16384 == bank && decide (k % 16384 < 15360)
  { q with remap := q.remap.filter (fun e => !mine e.1), pool := q.pool.filter (fun e => !mine e.1),
           redirected := kset q.redirected bank (free.take 15360) }
/-- Rows that a redirection adds to the offline pool. -/
def HPc.redirAdds (q : HPc) (bank : Nat) : Nat :=
  15360 - (q.pool.filter (fun e => e.1 / 16384 == bank && decide (e.1 % 16384 < 15360))).length

/-- Rows of a bank that are retired or offlined. -/
def HPc.gone (q : HPc) (bank : Nat) : Nat :=
  (q.remap.filter (fun e => e.1 / 16384 == bank)).length + (q.pool.filter (fun e => e.1 / 16384 == bank)).length

/-- Whether repair of a row may be made now: one after an uncorrectable error in an assigned window waits for the job to end
(R159). -/
def Dev.mayRepair (d : Dev) (ch : Nat) (unc : Bool) : Bool :=
  match (d.vit (vitOfChan ch)).leader with
  | none => true
  | some l => !unc || ((d.job l).st != 0 && (d.job l).st != 1 && (d.job l).st != 3)

/-- A burst of a row as its copy finds it (R159): corrected and counted, or copied as poisoned. -/
def X.copyBurst (x : X) (ch pc key col : Nat) (err : BurstErr) : X :=
  let q := x.dev.hpc ch pc
  let a := rowAddr pc (q.back 1024 key) col
  let (old, po) := x.mem.burst q ch a
  match err with
  | .none => x
  | .oneSymbol _ => x.on (fun d => d.corrected ch)
  | .fourOrMore true => let (n, d) := x.dev.draw; ({ x with dev := d.corrected ch }).putBurst ch a (Config.hbmWrong n) po
  | _ =>
    let v := vitOfChan ch
    (x.on (fun d => (d.count 0x8014 6 v.toNat).logErr (burstRec ch a 1 (BurstErr.symbol err) (some v)))).putBurst ch a old true

/-- ROW_RETIRE (R158, R159): a row that awaits retirement is copied to an unused spare of its bank, which the table sends its accesses to. `found` is
what the copy finds in its bursts, by column. -/
def execRowRetire (ch : ChanId) (pc : Bool) (bank : BankId) (row : RowCopy) (s : State) : Out :=
  run s (fun x =>
    let c := ch.val
    let p := if pc then 1 else 0
    let k := bankNum bank * 16384 + row.row.toNat
    match (x.dev.hchan c).due.find? (fun r => r.pc == p && r.bank == bankNum bank && r.row == row.row.toNat), (x.dev.hpc c p).spare (bankNum bank) with
    | some r, some t =>
      if !x.dev.runs (dieOfChan c) || !x.dev.mayRepair c r.unc then x
      else
        let x := row.found.foldl (fun (y : X) e => y.copyBurst c p k e.1.toNat e.2) x
        x.on (fun d => (d.setHpc c p (fun q =>
          { q with spares := kupd 0 q.spares (bankNum bank) (· + 1), remap := kset q.remap k t, ce := kdel q.ce k,
                   fixed := q.fixed.filter (fun b => q.place (b * 64) != k) })).repaired c p k 1 0)
    | _, _ => x)

/-- ROW_OFFLINE (R160): a row of a bank without spares goes to the offline pool, or a whole bank with 64 rows gone, or failed
as a whole, is redirected. Beyond 256 entries or two banks the Vitrine is withdrawn at the next start. -/
def execRowOffline (ch : ChanId) (pc : Bool) (bank : BankId) (row : BitVec 14) (whole : Bool) (s : State) : Out :=
  runDev s (fun _ _ d =>
    let c := ch.val
    let p := if pc then 1 else 0
    let b := bankNum bank
    let k := b * 16384 + row.toNat
    let q := d.hpc c p
    let quit (d : Dev) : Dev := d.onHbm (fun h => { h with giveUp := putBit h.giveUp (vitOfChan c).toNat true })
    let redirect (d : Dev) : Dev :=
      if 2 ≤ q.redirected.length then quit d else (d.setHpc c p (fun q => q.redirect b)).repaired c p k 3 (q.redirAdds b)
    if !d.runs (dieOfChan c) then d else
    match (d.hchan c).due.find? (fun r => r.pc == p && r.bank == b && (whole || r.row == row.toNat)) with
    | none => if whole && 64 ≤ q.gone b && (kfind q.redirected b).isNone && d.mayRepair c true then redirect d else d
    | some r =>
      if !d.mayRepair c (whole || r.unc) then d
      else if whole then (if (kfind q.redirected b).isSome then d else redirect d)
      else if (q.spare b).isSome then d
      else if 256 ≤ q.pool.length then quit d
      else match q.poolFor b with
        | some t => (d.setHpc c p (fun q => { q with pool := kset q.pool k t, ce := kdel q.ce k, fixed := q.fixed.filter (fun f => q.place (f * 64) != k) })).repaired
            c p k 2 0
        | none => quit d)

/-! ### The Condition Record's tables (R160) -/

/-- Load the remap tables of a Condition Record. -/
def Dev.loadRepairs (d : Dev) (rows : List (Nat × Nat × Nat)) (banks : List (Nat × Nat)) : Dev :=
  let d := rows.foldl (fun (e : Dev) (r : Nat × Nat × Nat) =>
    let (c, k, t) := r
    let own := k / 16384 == t / 16384
    (e.setHpc (c / 2) (c % 2) (fun q =>
      if own then { q with remap := kset q.remap k t, spares := kupd 0 q.spares (k / 16384) (· + 1) } else { q with pool := kset q.pool k t })).onHbm
      (fun h => { h with tally := kupd 0 h.tally ((if own then 0 else 100) + stackOfChan (c / 2)) (· + 1) })) d
  banks.foldl (fun (e : Dev) (r : Nat × Nat) =>
    let n := (e.hpc (r.1 / 2) (r.1 % 2)).redirAdds r.2
    let k := stackOfChan (r.1 / 2)
    (e.setHpc (r.1 / 2) (r.1 % 2) (fun q => q.redirect r.2)).onHbm (fun h =>
      { h with tally := kupd 0 (kupd 0 h.tally (200 + k) (· + 1)) (100 + k) (· + n) })) d

/-- The Vitrines whose channels' repair the record shows beyond the limits, and those that repair gave up since the last start (R160). -/
def Dev.beyondRepair (d : Dev) : BitVec 32 :=
  d.hbm.pcs.foldl (fun (m : BitVec 32) (e : Nat × HPc) =>
    if 256 < e.2.pool.length || 2 < e.2.redirected.length then putBit m (vitOfChan (e.1 / 2)).toNat true else m) d.hbm.giveUp

end Sys2Proof.Machine
end

