-- ==== Sys2Proof/Machine/Formats.lean ====
section
/-! DEFINITION. The narrow formats (R75, R91-R95), conversions to them (R98-R100) and the arithmetic of one promotion
interval (R77, R102-R107). -/

namespace Sys2Proof

/-- The format code of R75. -/
def Fmt.code : Fmt → Nat
  | .e4m3 => 0 | .e5m2 => 1 | .e3m2 => 2 | .e2m3 => 3 | .e2m1 => 4 | .int8 => 5 | .int4 => 6 | .int2 => 7
  | .ternary => 8 | .cb4 => 9 | .cb2 => 10 | .bf16 => 11 | .fp16 => 12 | .fp32 => 13

/-- The format of a code; 0xE and 0xF are reserved. -/
def Fmt.ofCode (n : Nat) : Option Fmt :=
  [Fmt.e4m3, .e5m2, .e3m2, .e2m3, .e2m1, .int8, .int4, .int2, .ternary, .cb4, .cb2, .bf16, .fp16, .fp32][n]?

/-- Bits per element (R75). -/
def Fmt.width : Fmt → Nat
  | .e4m3 | .e5m2 | .int8 => 8
  | .e3m2 | .e2m3 => 6
  | .e2m1 | .int4 | .cb4 => 4
  | .int2 | .ternary | .cb2 => 2
  | .bf16 | .fp16 => 16
  | .fp32 => 32

/-- Whether a format carries a block scale per 32 elements (R95). -/
def Fmt.scaled : Fmt → Bool
  | .e4m3 | .e5m2 | .e3m2 | .e2m3 | .e2m1 | .int8 | .int4 | .int2 | .ternary => true
  | _ => false

def Fmt.isCb : Fmt → Bool
  | .cb4 | .cb2 => true
  | _ => false
def Fmt.isFp8 : Fmt → Bool
  | .e4m3 | .e5m2 => true
  | _ => false
def Fmt.isFp6 : Fmt → Bool
  | .e3m2 | .e2m3 => true
  | _ => false
def Fmt.isTwo : Fmt → Bool
  | .int2 | .ternary => true
  | _ => false

end Sys2Proof

namespace Sys2Proof.Machine

/-! ### Elements -/

/-- A small floating-point format (R91): exponent bits, mantissa bits, bias. -/
structure Micro where
  eb : Nat
  mb : Nat
  bias : Int
  deriving DecidableEq, Repr

def microOf : Fmt → Option Micro
  | .e4m3 => some ⟨4, 3, 7⟩
  | .e5m2 => some ⟨5, 2, 15⟩
  | .e3m2 => some ⟨3, 2, 3⟩
  | .e2m3 => some ⟨2, 3, 1⟩
  | .e2m1 => some ⟨2, 1, 1⟩
  | _ => none

/-- The exponent of a small format's least quantum. -/
def Micro.qmin (m : Micro) : Int := 1 - m.bias - (m.mb : Int)

/-- The finite value of a small format's code (R91). -/
def Micro.value (m : Micro) (n : Nat) : FVal :=
  let neg := decide (n / 2 ^ (m.eb + m.mb) % 2 = 1)
  let e := n / 2 ^ m.mb % 2 ^ m.eb
  let f := n % 2 ^ m.mb
  if e = 0 then .fin neg f m.qmin else .fin neg (f + 2 ^ m.mb) (m.qmin + (e : Int) - 1)

/-- The value of a w-bit two's-complement code. -/
def intVal (w n : Nat) : FVal :=
  let i := (BitVec.ofNat w n).toInt
  .fin (decide (i < 0)) i.natAbs 0

/-- The value of an element code, without its block scale; a codebook code must have been replaced by its FP8_E4M3 entry
(R91-R93, R96). -/
def elemVal (f : Fmt) (n : Nat) : FVal :=
  match f with
  | .e4m3 => if n % 128 = 127 then .nan else Micro.value ⟨4, 3, 7⟩ n
  | .e5m2 =>
    if n / 4 % 32 = 31 then (if n % 4 = 0 then .inf (decide (n / 128 % 2 = 1)) else .nan) else Micro.value ⟨5, 2, 15⟩ n
  | .e3m2 => Micro.value ⟨3, 2, 3⟩ n
  | .e2m3 => Micro.value ⟨2, 3, 1⟩ n
  | .e2m1 => Micro.value ⟨2, 1, 1⟩ n
  | .int8 => intVal 8 n
  | .int4 => intVal 4 n
  | .int2 => intVal 2 n
  | .ternary => if n % 4 = 1 then .fin false 1 0 else if n % 4 = 3 then .fin true 1 0 else .fin false 0 0
  | .cb4 | .cb2 => if n % 128 = 127 then .nan else Micro.value ⟨4, 3, 7⟩ n
  | .bf16 => bf16.decode n
  | .fp16 => fp16.decode n
  | .fp32 => fp32.decode n

/-- Multiply a value by 2^k. -/
def FVal.scale (v : FVal) (k : Int) : FVal :=
  match v with
  | .fin n m e => .fin n m (e + k)
  | x => x

/-- A format's largest magnitude as m x 2^e, and the exponent of its smallest subnormal (R103). -/
def fmtMax : Fmt → Nat × Int
  | .e4m3 => (7, 6) | .e5m2 => (7, 13) | .e3m2 => (7, 2) | .e2m3 => (15, -1) | .e2m1 => (3, 1)
  | .int8 => (1, 7) | .int4 => (1, 3) | .int2 => (1, 1) | .ternary => (1, 0)
  | _ => (1, 0)
def fmtQ : Fmt → Int
  | .e4m3 => -9 | .e5m2 => -16 | .e3m2 => -4 | .e2m3 => -3 | .e2m1 => -1 | .cb4 | .cb2 => -9
  | _ => 0

/-- EMAX of CVTB (R100). -/
def emax : Fmt → Int
  | .e4m3 => 8 | .e5m2 => 15 | .e3m2 => 4 | .e2m3 => 2 | .e2m1 => 2 | .int8 => 6 | .int4 => 2
  | _ => 0

/-- The ceiling of the base-2 logarithm of m x 2^e, m > 0. -/
def clog2 (m : Nat) (e : Int) : Int :=
  (if m = 2 ^ Nat.log2 m then (Nat.log2 m : Int) else (Nat.log2 m : Int) + 1) + e

/-- The largest magnitude of a table's entries, m x 2^e (R96); m = 0 when all are zero. -/
def tableMax (codes : List Nat) : Nat × Int :=
  codes.foldl (fun (b : Nat × Int) c => match elemVal .cb4 c with
    | .fin _ m e => if FVal.cmp (.fin false b.1 b.2) (.fin false m e) = some (-1) then (m, e) else b
    | _ => b) (0, 0)

/-! ### Conversions (R99, R100) -/

/-- The outcome of a conversion: the code, the flags, and the two conversion events of R112. -/
structure Cvt where
  code : Nat
  flags : Flags := 0
  sat : Bool := false
  und : Bool := false
  deriving DecidableEq, Repr

/-- A finite value to a small format (R99). -/
def cvtMicro (f : Fmt) (m : Micro) (mode : RMode) (neg : Bool) (k : Nat) (e : Int) : Cvt :=
  let sg := if neg then 2 ^ (m.eb + m.mb) else 0
  if k = 0 then { code := sg }
  else
    let len : Int := (Nat.log2 k : Int) + 1
    let q := max (e + len - (m.mb + 1 : Int)) m.qmin
    let (r, inex) := toQuantum mode neg k e q
    let (mm, me) := fmtMax f
    if FVal.cmp (.fin false mm me) (.fin false r q) = some (-1) then
      let top := if f == .e4m3 then 0x7E else if f == .e5m2 then 0x7B else 2 ^ (m.eb + m.mb) - 1
      { code := sg + top, flags := flOverflow ||| flInexact, sat := true }
    else if r = 0 then { code := sg, flags := flUnderflow ||| flInexact, und := true }
    else
      -- r has at most mb + 2 bits; a carry doubles the quantum
      let (r, q) := if r = 2 ^ (m.mb + 1) then (2 ^ m.mb, q + 1) else (r, q)
      let c := if r < 2 ^ m.mb then r else ((q - m.qmin + 1).toNat) * 2 ^ m.mb + (r - 2 ^ m.mb)
      { code := sg + c, flags := if inex then flInexact else 0 }

/-- The range of an integer format (R93). -/
def intRange : Fmt → Int × Int
  | .int8 => (-128, 127) | .int4 => (-8, 7) | .int2 => (-2, 1) | _ => (-1, 1)

/-- A value to an integer format (R99). -/
def cvtInt (f : Fmt) (mode : RMode) (v : FVal) : Cvt :=
  let (lo, hi) := intRange f
  let enc (i : Int) : Nat := (i % (2 ^ f.width : Int)).toNat
  match v with
  | .nan => { code := 0, flags := flInvalid }
  | .inf neg => { code := enc (if neg then lo else hi), flags := flOverflow, sat := true }
  | .fin neg m e =>
    let (r, inex) := toQuantum mode neg m e 0
    let i : Int := if neg then -(r : Int) else r
    if i < lo then { code := enc lo, flags := flOverflow ||| flInexact, sat := true }
    else if hi < i then { code := enc hi, flags := flOverflow ||| flInexact, sat := true }
    else if r = 0 && m != 0 then { code := 0, flags := flUnderflow ||| flInexact, und := true }
    else { code := enc i, flags := if inex then flInexact else 0 }

/-- Convert a value to a target format (R99). An infinity that clamps sets overflow alone; a finite value that clamps sets inexact too (DESIGN CHOICE,
log 75). -/
def cvtTo (f : Fmt) (mode : RMode) (v : FVal) : Cvt :=
  match f with
  | .bf16 => let (n, g) := bf16.encode mode v; { code := n, flags := g }
  | .fp16 => let (n, g) := fp16.encode mode v; { code := n, flags := g }
  | .fp32 => let (n, g) := fp32.encode mode v; { code := n, flags := g }
  | .cb4 | .cb2 => { code := 0 }
  | .int8 | .int4 | .int2 | .ternary => cvtInt f mode v
  | f =>
    match microOf f with
    | none => { code := 0 }
    | some m =>
      match v with
      | .nan => if f.isFp8 then { code := 0x7F } else { code := 0, flags := flInvalid }
      | .inf neg =>
        let top := if f == .e4m3 then 0x7E else if f == .e5m2 then 0x7B else 2 ^ (m.eb + m.mb) - 1
        { code := top + (if neg then 2 ^ (m.eb + m.mb) else 0), flags := flOverflow, sat := true }
      | .fin neg k e => cvtMicro f m mode neg k e

/-- The block scale exponent of CVTB for the largest magnitude of a block (R100). -/
def blockScale (f : Fmt) (l : List FVal) : Int :=
  if l.any (fun v => match v with | .inf _ => true | _ => false) then 127
  else
    let top := l.foldl (fun (b : Option Int) v => match v with
      | .fin _ m e => if m = 0 then b else
          let k := (Nat.log2 m : Int) + e
          match b with | some t => some (max t k) | none => some k
      | _ => b) none
    match top with
    | none => -127
    | some k => max (-127) (min 127 (k - emax f))

/-! ### Rates (R75) -/

/-- A pair's k-steps summed in one core cycle, its promotion interval in k-steps, and the interval in core cycles; none
for a pair that is not allowed. -/
def pairRate (a b : Fmt) : Option (Nat × Nat × Nat) :=
  if (a == .bf16 && b == .bf16) || (a == .fp16 && b == .fp16) then some (1, 4, 8)
  else if a.isFp8 && (b.isFp8 || b.isFp6 || b == .e2m1) then some (1, 16, 16)
  else if (a.isFp6 || a == .e2m1) && b.isFp8 then some (1, 16, 16)
  else if (a == .int8 && (b == .int8 || b == .int4)) || (a == .int4 && b == .int8) then some (1, 16, 16)
  else if a.isFp6 && (b.isFp6 || b == .e2m1) then some (2, 16, 8)
  else if a == .e2m1 && b.isFp6 then some (2, 16, 8)
  else if (a == .e2m1 && b == .e2m1) || (a == .int4 && b == .int4) then some (2, 32, 16)
  else if a.isFp8 && b.isTwo then some (2, 16, 8)
  else if a == .e2m1 && b.isTwo then some (4, 32, 8)
  else if a.isFp8 && b.isCb then some (1, 16, 16)
  else if (a.isFp6 || a == .e2m1) && b.isCb then some (2, 16, 8)
  else none

/-- Core cycles that `k` k-steps of a pair take at full rate (R75, R80). -/
def pairCycles (a b : Fmt) (k : Nat) : Nat :=
  match pairRate a b with
  | some (_, i, c) => k * c / i
  | none => k

/-! ### One promotion interval (R77, R102-R107) -/

/-- The weight exponent of a pair in normal or escalated mode (R103-R105); `mcb` is a codebook's largest magnitude. -/
def weightExp (a b : Fmt) (mcb : Nat × Int) (esc : Bool) : Int :=
  let (ma, ea) := fmtMax a
  let (mb, eb) := if b.isCb then mcb else fmtMax b
  let q := fmtQ a + fmtQ b
  if mb = 0 then q
  else max q (clog2 (ma * mb) (ea + eb) - (if esc then 16 else 17))

/-- Whether the weight exponent is chosen per cell and interval (R106). -/
def cellWeight (f : Fmt) : Bool := f == .bf16 || f == .fp16

/-- An element's finite value as mantissa and exponent; a NaN or an infinity enters as zero (R107). -/
def finPart (v : FVal) : Int × Int :=
  match v with
  | .fin n m e => (if n then -(m : Int) else m, e)
  | _ => (0, 0)

/-- Whether a value is not finite. -/
def FVal.odd : FVal → Bool
  | .fin .. => false
  | _ => true

/-- A product rounded to a multiple of 2^lp, ties to even (R102). -/
def alignProd (p : Int × Int) (lp : Int) : Int :=
  let (r, _) := toQuantum .rne (decide (p.1 < 0)) p.1.natAbs p.2 lp
  if p.1 < 0 then -(r : Int) else r

/-- 2^k modulo 127 (R82). -/
def pow127 (k : Int) : Nat := 2 ^ (k % 7).toNat
/-- m x 2^k modulo 127. -/
def res127 (m k : Int) : Nat := (m % 127).toNat * pow127 k % 127

/-- What one cell found in one interval. -/
structure CellOut where
  acc : Int
  sat : Bool
  und : Bool
  lp : Int
  deriving DecidableEq, Repr

/-- The limits of a cell's accumulator (R67, R77). -/
def accMax : Int := 524287
def accMin : Int := -524288

/-- Split a list into runs of `n`. -/
def chunks {α : Type} (n : Nat) (l : List α) : List (List α) :=
  (List.range (cdiv l.length (max n 1))).map (fun i => (l.drop (i * n)).take n)

/-- One cell over one interval (R77, R102, R106): the products of each core cycle are aligned, summed exactly and added,
clamping. `grp` is the k-steps of a core cycle. -/
def cellInterval (ps : List (Int × Int)) (grp : Nat) (lp : Int) (own : Bool) : CellOut :=
  let top : Option Int := ps.foldl (fun (b : Option Int) (p : Int × Int) => if p.1 = 0 then b else
    let k : Int := ((Nat.log2 p.1.natAbs : Nat) : Int) + p.2
    match b with | some t => some (max t k) | none => some k) none
  let lp : Int := if own then (match top with | some e => e - 15 | none => 0) else lp
  let al : List (Int × Int) := ps.map (fun p => (p.1, alignProd p lp))
  let und := al.any (fun q => q.1 != 0 && q.2 == 0)
  let (acc, sat) := (chunks grp (al.map (·.2))).foldl (fun (s : Int × Bool) c =>
    let t := s.1 + c.foldl (· + ·) 0
    if accMax < t then (accMax, true) else if t < accMin then (accMin, true) else (t, s.2)) (0, false)
  { acc, sat, und, lp }

/-- An interval's value at promotion: the accumulator scaled and converted to FP32 (R77, R107). -/
def promoted (c : CellOut) (scale : Int) : Word :=
  (word32 .rne (.fin (decide (c.acc < 0)) c.acc.natAbs (c.lp + scale))).1

/-- The residue lane of a column after an interval (R82): what makes the prediction equal the residue of the column's
shadows plus the lane; cells with weights of their own are taken in units of 1. -/
def laneResidue (own : Bool) (lp : Int) (prods : List (Int × Int)) (cells : List CellOut) : Nat :=
  let pred := prods.foldl (fun n p => (n + res127 p.1 (if own then p.2 else p.2 - lp)) % 127) 0
  let got := cells.foldl (fun n c => (n + res127 c.acc (if own then c.lp else 0)) % 127) 0
  (pred + 127 - got) % 127

end Sys2Proof.Machine
end

