-- ==== Sys2Proof/Machine/Tensor.lean ====
section
/-! DEFINITION. Walker descriptors (R117, R118), the elements they address (R119-R121) and their checks (R122). -/

namespace Sys2Proof.Machine

/-! ### Fields -/

/-- A field of a descriptor's header, bits [lo + w - 1 : lo]. -/
def hdr (d : BitVec 1024) (lo w : Nat) : Nat := fld d.toNat lo w
def dBase (d : BitVec 1024) : Nat := hdr d 980 44
def dSpace (d : BitVec 1024) : Nat := hdr d 976 4
def dFmt (d : BitVec 1024) : Option Fmt := Fmt.ofCode (hdr d 972 4)
def dScaleBase (d : BitVec 1024) : Nat := hdr d 928 44
def dScaleSpace (d : BitVec 1024) : Nat := hdr d 924 4
def dAuxBase (d : BitVec 1024) : Nat := hdr d 880 44
def dAuxSpace (d : BitVec 1024) : Nat := hdr d 876 4
def dWeightTag (d : BitVec 1024) : Nat := hdr d 844 32
def dActivation (d : BitVec 1024) : Bool := d.getLsbD 843
def dStable (d : BitVec 1024) : Bool := d.getLsbD 842
def dMaskEn (d : BitVec 1024) : Bool := d.getLsbD 841
def dMaskQ (d : BitVec 1024) : Nat := hdr d 838 3
def dMaskK (d : BitVec 1024) : Nat := hdr d 835 3
def dMaskOff (d : BitVec 1024) : Int := (BitVec.ofNat 16 (hdr d 819 16)).toInt
def dRowStat (d : BitVec 1024) : Bool := d.getLsbD 818
def dFlagEn (d : BitVec 1024) : Bool := d.getLsbD 817
def dParallel (d : BitVec 1024) : Bool := d.getLsbD 816
def dHint (d : BitVec 1024) : Nat := hdr d 814 2

/-- A dimension (R118). -/
structure Dim where
  stride : Int
  extent : Nat
  size : Nat
  origin : Int
  step : Int
  couple : Nat
  role : Nat
  border : Nat
  rest : Nat
  deriving DecidableEq, Repr

def dDim (d : BitVec 1024) (j : Nat) : Dim :=
  let n := fld d.toNat (128 * j) 128
  { stride := (BitVec.ofNat 32 (fld n 96 32)).toInt, extent := fld n 80 16, size := fld n 64 16,
    origin := (BitVec.ofNat 16 (fld n 48 16)).toInt, step := (BitVec.ofNat 16 (fld n 32 16)).toInt,
    couple := fld n 29 3, role := fld n 27 2, border := fld n 25 2, rest := fld n 0 25 }

def dDims (d : BitVec 1024) : List Dim := (List.range 6).map (dDim d)

/-- The product of the extents of a role: 0 SEQ, 1 LANE, 2 COLUMN (R120). -/
def roleSize (ds : List Dim) (role : Nat) : Nat := (ds.filter (fun m => m.role == role)).foldl (fun n m => n * m.extent) 1
def dLanes (d : BitVec 1024) : Nat := roleSize (dDims d) 1
def dCols (d : BitVec 1024) : Nat := roleSize (dDims d) 2
def dPositions (d : BitVec 1024) : Nat := roleSize (dDims d) 0

/-! ### Elements (R119, R120) -/

/-- The index vector of a stream position, lane and column: mixed-radix digits, the lowest dimension least significant. -/
def dIndex (ds : List Dim) (pos lane col : Nat) : List Nat :=
  (ds.foldl (fun (acc : List Nat × Nat × Nat × Nat) m =>
    let (l, p, n, c) := acc
    match m.role with
    | 0 => (l ++ [p % m.extent], p / m.extent, n, c)
    | 1 => (l ++ [n % m.extent], p, n / m.extent, c)
    | _ => (l ++ [c % m.extent], p, n, c / m.extent)) ([], pos, lane, col)).1

/-- The coordinate of a dimension before its border (R119). -/
def rawCoord (m : Dim) (ix : List Nat) (j : Nat) : Int :=
  m.origin + (nthD 0 ix j : Nat) + (if m.couple < 6 then m.step * (nthD 0 ix m.couple : Nat) else 0)

/-- The coordinate after its border; none for a ZERO element. -/
def coord (m : Dim) (ix : List Nat) (j : Nat) : Option Int :=
  let c := rawCoord m ix j
  let inside := decide (0 ≤ c) && decide (c < m.size)
  if m.border = 0 || inside then some c
  else if m.border = 1 then none
  else if m.border = 2 then some (if c < 0 then 0 else (m.size : Int) - 1)
  else some (c % (m.size : Int))

/-- The element offset of an index vector (R119). -/
def elemOff (ds : List Dim) (ix : List Nat) : Option Int :=
  ds.zipIdx.foldl (fun (acc : Option Int) e =>
    match acc, coord e.1 ix e.2 with
    | some n, some c => some (n + c * e.1.stride)
    | _, _ => none) (some 0)

/-- The element offset of (position, lane, column); none where the border mode supplies zero. -/
def offAt (ds : List Dim) (pos lane col : Nat) : Option Int := elemOff ds (dIndex ds pos lane col)

/-- The first byte of an element and the bit within it (R94). -/
def elemByte (base : Nat) (w : Nat) (e : Int) : Int × Nat :=
  let b := e * (w : Int)
  ((base : Int) + b / 8, (b % 8).toNat)

/-- The bytes an element touches. -/
def elemSpan (base w : Nat) (e : Int) : Nat × Nat :=
  let (a, s) := elemByte base w e
  (a.toNat, cdiv (s + w) 8)

/-! ### Checks (R122) -/

/-- The coordinates that the run [lo, hi] of raw coordinates reaches after the border (R119); none when each is a ZERO element. -/
def runRange (m : Dim) (lo hi : Int) : Option (Int × Int) :=
  let top := (m.size : Int) - 1
  match m.border with
  | 0 => some (lo, hi)
  | 1 => if hi < 0 || top < lo then none else some (max lo 0, min hi top)
  | 2 => some (max 0 (min lo top), max 0 (min hi top))
  | _ => let a := lo % (m.size : Int); if a + (hi - lo) ≤ top then some (a, a + (hi - lo)) else some (0, top)

/-- The extreme coordinates a dimension reaches after coupling and border, over the index of the dimension it is coupled to; none when every element it names
is zero. -/
def dimRange (ds : List Dim) (m : Dim) : Option (Int × Int) :=
  let other : Nat := match ds[m.couple]? with
    | some q => if m.step = 0 then 1 else q.extent
    | none => 1
  (List.range other).foldl (fun (acc : Option (Int × Int)) k =>
    let lo := m.origin + (if m.couple < 6 then m.step * k else 0)
    match acc, runRange m lo (lo + (m.extent : Int) - 1) with
    | some (a, b), some (x, y) => some (min a x, max b y)
    | none, r => r
    | some r, none => some r) none

/-- The box of element offsets; none when every element is zero. -/
def elemBox (ds : List Dim) : Option (Int × Int) :=
  ds.foldl (fun (acc : Option (Int × Int)) m =>
    match acc, dimRange ds m with
    | some (a, b), some (lo, hi) =>
      let x := lo * m.stride
      let y := hi * m.stride
      some (a + min x y, b + max x y)
    | _, _ => none) (some (0, 0))

/-- The byte boxes of a descriptor: space code, first byte and length (R122): of the elements, the scales, then the auxiliary regions. -/
def dBoxes (d : BitVec 1024) (w : Walker) : List (Nat × Int × Nat) :=
  let ds := dDims d
  match dFmt d with
  | none => []
  | some f =>
    let eb := elemBox ds
    let span (base : Nat) (lo hi : Int) (bitsPer : Nat) : Int × Nat :=
      let a := (base : Int) + lo * bitsPer / 8
      let z := (base : Int) + (hi * bitsPer + bitsPer - 1) / 8
      (a, (z - a + 1).toNat)
    let main := match eb with
      | some (lo, hi) => let (a, n) := span (dBase d) lo hi f.width; [(dSpace d, a, n)]
      | none => []
    let tiles := dPositions d
    let scales :=
      if !f.scaled then []
      else if w == .o then [(dScaleSpace d, (dScaleBase d : Int), 128 * tiles)]
      else if dParallel d then
        match eb with
        | some (lo, hi) =>
          let a := (dScaleBase d : Int) + lo / 32
          let z := (dScaleBase d : Int) + hi / 32
          [(dScaleSpace d, a, (z - a + 1).toNat)]
        | none => []
      else [(dScaleSpace d, (dScaleBase d : Int), 64 * (tiles / 32))]
    let aux := if w == .o then
        (if dFlagEn d then [(dAuxSpace d, (dAuxBase d : Int), 4)] else []) ++
        (if dRowStat d then [(dAuxSpace d, (dAuxBase d : Int) + 64, 256 * tiles)] else [])
      else []
    main ++ scales ++ aux

/-- The size of a local space, for a block on a core. -/
def Dev.localSize (d : Dev) (c : CoreId) (b : Block) (sp : Nat) : Nat :=
  match sp with
  | 4 => b.launch.s
  | 3 => b.launch.c
  | _ => ((d.clu (clusOfCore c)).stepBytes).getD 0

/-- The first byte of a GLOBAL range that is not valid: the first byte itself, or the first beyond the valid part of its
window (R29). -/
def Dev.firstBad (d : Dev) (l : VitId) (a n : Nat) : Nat :=
  if !d.valid l a 1 then a
  else
    let lim := match d.place a with
      | .win _ o => a - o + windowBytes
      | .pad v o => a - o + (d.vit v).padSteps * stepBytes
      | .hole => a
    min lim (a + n)

/-- The first byte of a box that the issuing block may not access; of one that begins below address 0, that first address modulo 2^44 (DESIGN CHOICE,
log 73). -/
def Dev.boxBad (d : Dev) (c : CoreId) (b : Block) (box : Nat × Int × Nat) : Option Nat :=
  let (sp, a, n) := box
  if n = 0 then none
  else if a < 0 then some (a % 2 ^ 44).toNat
  else if sp = 1 then (if d.valid b.leader a.toNat n then none else some (d.firstBad b.leader a.toNat n))
  else
    let m := d.localSize c b sp
    if a.toNat + n ≤ m then none else some (max a.toNat m)

/-- The field checks of R122. -/
def dFieldsBad (d : BitVec 1024) (w : Walker) : Bool :=
  let ds := dDims d
  let isO := w == .o
  let f := dFmt d
  let sp (n : Nat) : Bool := n < 1 || 4 < n
  let outOk := match f with
    | some .fp32 | some .bf16 | some .fp16 | some .e4m3 | some .e5m2 => true
    | _ => false
  hdr d 768 46 != 0 || ds.any (fun m => m.rest != 0 || m.role == 3) || f.isNone || (isO && !outOk) ||
  sp (dSpace d) || (f.any Fmt.scaled && sp (dScaleSpace d)) || ((dRowStat d || dFlagEn d) && sp (dAuxSpace d)) ||
  (isO && dParallel d) || (isO && dMaskEn d && (5 < dMaskQ d || 5 < dMaskK d)) ||
  ds.any (fun m => m.extent == 0 || (m.border != 0 && m.size == 0)) ||
  ds.zipIdx.any (fun e => e.1.couple == e.2 || e.1.couple == 6) ||
  decide (64 < dLanes d) || (isO && decide (64 < dCols d)) || (!isO && ds.any (fun m => m.role == 2)) ||
  (w != .b && dWeightTag d != 0) || (w != .a && (dActivation d || dStable d)) ||
  (!isO && (dMaskEn d || dRowStat d || dFlagEn d || dHint d != 0 || dMaskQ d != 0 || dMaskK d != 0 || dMaskOff d != 0)) ||
  (!isO && dPositions d % 32 != 0) || decide (2 ^ 40 ≤ ds.foldl (fun n m => n * m.extent) 1)

/-- The check of WK.ARM (R122): none when the descriptor is good, else the first byte that is not valid, if that is why. Where several boxes fail, the first of
`dBoxes` is named (DESIGN CHOICE, log 73). -/
def Dev.descBad (d : Dev) (c : CoreId) (b : Block) (w : Walker) (desc : BitVec 1024) : Option (Option (Nat × Nat)) :=
  if dFieldsBad desc w then some none
  else match (dBoxes desc w).findSome? (fun x => (d.boxBad c b x).map (fun a => (x.1, a))) with
    | some e => some (some e)
    | none => none

end Sys2Proof.Machine
end

