-- ==== Sys2Proof/Machine/Matrix.lean ====
section
/-! DEFINITION. The matrix engine (R67-R90): issue, the array, the banks, the transfers of walker O, the debug view and
the ramp limiter. -/

namespace Sys2Proof.Machine

/-! ### Engine and queue -/

def Dev.eng (d : Dev) (c : CoreId) : Engine := (d.core c).eng
def Dev.setEng (d : Dev) (c : CoreId) (f : Engine → Engine) : Dev := d.setCore c (fun k => { k with eng := f k.eng })

/-- The block a core's engine serves in a slot: the resident one, or one of a squashed step that stays behind for it (R63). -/
def Dev.eblk (d : Dev) (c : CoreId) (slot : Nat) : Option Block :=
  match d.blk c slot with
  | some b => some b
  | none => kfind (d.core c).left slot
/-- Change the block a core's engine serves in a slot. -/
def Dev.updEblk (d : Dev) (c : CoreId) (slot : Nat) (f : Block → Block) : Dev :=
  match d.blk c slot with
  | some b => d.setBlk c slot (f b)
  | none => d.setCore c (fun k => { k with left := match kfind k.left slot with | some b => kset k.left slot (f b) | none => k.left })

/-- Queued or executing instructions of a block slot (R70). -/
def Engine.load (e : Engine) (slot : Nat) : Nat :=
  (e.queue.filter (fun i => i.owner.slot == slot)).length + (e.runs.filter (fun r => r.ins.owner.slot == slot)).length +
  (match e.xfer with | some (i, _) => if i.owner.slot == slot then 1 else 0 | none => 0) +
  (match e.sign with | some i => if i.owner.slot == slot then 1 else 0 | none => 0)

/-- Groups held at MX.WAIT go on when few enough instructions of their block remain (R70): the MX.WAIT completes (R90), and their held cycles
are counted (R424). -/
def Dev.wakeMx (d : Dev) (c : CoreId) (slot : Nat) : Dev :=
  let n := (d.eng c).load slot
  let free : List Group := match d.blk c slot with
    | some b => b.groups.filter (fun q => match q.mxWait with | some k => decide (n ≤ k) | none => false)
    | none => []
  let d := if free.isEmpty then d else (d.profile (vitOfCore c) 6 (free.foldl (fun t q => t + (d.cycOf c - q.mxFrom)) 0)).count 0x8011 1
    (vitOfCore c).toNat free.length
  d.updBlk c slot (fun b => { b with groups := b.groups.map (fun q =>
    match q.mxWait with
    | some k => if n ≤ k then { q with mxWait := none } else q
    | none => q) })

/-- An engine instruction has completed: an MX instruction is counted (R90), and waiting groups are judged again. -/
def Dev.engDone (d : Dev) (c : CoreId) (i : EInstr) (mx : Bool) : Dev :=
  let d := if mx then d.count 0x8011 1 (vitOfCore c).toNat else d
  d.wakeMx c i.owner.slot

/-- The group an engine instruction belongs to. -/
def EInstr.gref (i : EInstr) (c : CoreId) : GRef :=
  { core := c, slot := BitVec.ofNat 4 i.owner.slot, grp := BitVec.ofNat 5 i.owner.grp }

/-- The bank an instruction names, 2 x slot + a (R68). -/
def EInstr.bank (i : EInstr) : Option Nat :=
  let k (a : Bool) : Nat := 2 * i.owner.slot + (if a then 1 else 0)
  match i.op with
  | .opn a | .ldacc a _ | .mma a _ | .store a _ | .close a => some (k a)
  | _ => none

def Block.bank (b : Block) (a : Bool) : Bank := if a then b.bank1 else b.bank0
def Block.setBank (b : Block) (a : Bool) (f : Bank → Bank) : Block :=
  if a then { b with bank1 := f b.bank1 } else { b with bank0 := f b.bank0 }
/-- The values of a bank of the block in a slot. -/
def Dev.bankVals (d : Dev) (c : CoreId) (k : Nat) : KMap Word :=
  match d.eblk c (k / 2) with
  | some b => (b.bank (k % 2 == 1)).vals
  | none => []
def Dev.setBankVals (d : Dev) (c : CoreId) (k : Nat) (v : KMap Word) : Dev :=
  d.updEblk c (k / 2) (fun b => b.setBank (k % 2 == 1) (fun t => { t with vals := v }))

/-- Whether a started MX.MMA or transfer still has the bank (R71). -/
def Engine.bankHeld (e : Engine) (k : Nat) : Bool :=
  e.runs.any (fun r => r.ins.bank == some k) || (match e.xfer with | some (i, _) => i.bank == some k | none => false)

def Block.ctx (b : Block) : Walker → Option WkCtx
  | .a => b.ctxA | .b => b.ctxB | .o => b.ctxO
def Block.setCtx (b : Block) (w : Walker) (c : WkCtx) : Block :=
  match w with
  | .a => { b with ctxA := some c } | .b => { b with ctxB := some c } | .o => { b with ctxO := some c }
def WkCtx.ref (c : WkCtx) : CtxRef := { desc := c.desc, arm := c.arm, pos := c.pos }
/-- Positions left in a context. -/
def WkCtx.left (c : WkCtx) : Nat := dPositions c.desc - c.pos

/-- An X-class instruction: it issues when its group may and the queue has room (R44, R70). -/
def onX (s : State) (g : GRef) (f : Block → Group → RPath → X → X) : Out :=
  onGroup s g .x (fun b q p x => if (x.dev.eng g.core).queue.length < 16 then f b q p x else x)

/-- Queue an instruction and go on (R46, R70). -/
def X.enqueue (x : X) (g : GRef) (b : Block) (p : RPath) (op : EOp) (ra rb : CtxRef := {}) (takes : Bool := false)
    (known : Option Nat := none) (sig : Option (BitVec 64) := none) : X :=
  x.on (fun d =>
    let e := d.eng g.core
    let i : EInstr := { id := e.nextId, op, leader := b.leader, pc := p.pc, lanes := p.mask, at' := d.cycOf g.core, ra, rb,
                        takes, known, sig,
                        owner := { slot := g.slot.toNat, grp := g.grp.toNat, launchIx := b.launchIx, block := b.index, seq := b.seq } }
    (d.setEng g.core (fun e => { e with nextId := e.nextId + 1, queue := e.queue ++ [i] })).stepGrp g Group.next)

/-- Change the block of an issuing group. -/
def X.updBlk (x : X) (g : GRef) (f : Block → Block) : X := x.on (fun d => d.updBlk g.core g.slot.toNat f)

/-- MATRIX_STATE, MATRIX_FORMAT and WALKER_STREAM (R72, R73, R116). -/
def X.matrixExc (x : X) (g : GRef) (p : RPath) (code : Nat) : X := x.raise g { code, lanes := p.mask, pc := p.pc }

/-! ### Operands (R74) -/

def ctrlLayer (n : BitVec 64) : Nat := fld n.toNat 52 12
def ctrlBook (n : BitVec 64) : Nat := fld n.toNat 44 8
def ctrlA (n : BitVec 64) : Option Fmt := Fmt.ofCode (fld n.toNat 40 4)
def ctrlB (n : BitVec 64) : Option Fmt := Fmt.ofCode (fld n.toNat 36 4)
def ctrlReplace (n : BitVec 64) : Bool := n.getLsbD 32
def ctrlK (n : BitVec 64) : Nat := fld n.toNat 16 16

/-- The format pair of a good ctrl operand (R72, R75); CODEBOOK is 0 exactly when neither operand is a codebook code (R74). -/
def ctrlPair (n : BitVec 64) : Option (Fmt × Fmt) :=
  match ctrlA n, ctrlB n with
  | some a, some b =>
    if (pairRate a b).isSome && 1 ≤ ctrlK n && ctrlK n ≤ 2048 && (a.isCb || b.isCb) == (ctrlBook n != 0) then some (a, b) else none
  | _, _ => none

/-- FMT_OUT and ROUND of a good sctrl operand; reserved bits of either operand are ignored (R10). -/
def sctrlOut (n : Word) : Option (Fmt × RMode) :=
  match Fmt.ofCode (fld n.toNat 28 4), fld n.toNat 25 2 with
    | some f, r => match f, r with
      | .fp32, 0 | .bf16, 0 | .fp16, 0 | .e4m3, 0 | .e5m2, 0 => some (f, .rne)
      | .fp32, 1 | .bf16, 1 | .fp16, 1 | .e4m3, 1 | .e5m2, 1 => some (f, .rz)
      | _, _ => none
    | none, _ => none
def sctrlClose (n : Word) : Bool := n.getLsbD 27

/-! ### Issue (R70-R74, R123)

Where several checks of one instruction fail, the spec does not say which exception is raised: the model tests MATRIX_STATE, then MATRIX_FORMAT, then
WALKER_STREAM (DESIGN CHOICE, log 73). -/

/-- MX.OPEN (R70). -/
def execMxOpen (g : GRef) (a : Bool) (s : State) : Out :=
  onX s g (fun b _ p x =>
    if (b.bank a).isOpen then x.matrixExc g p 0x08
    else (x.updBlk g (fun b => b.setBank a (fun k => { k with isOpen := true }))).enqueue g b p (.opn a))

/-- MX.CLOSE (R70). -/
def execMxClose (g : GRef) (a : Bool) (s : State) : Out :=
  onX s g (fun b _ p x =>
    if (b.bank a).isOpen then (x.updBlk g (fun b => b.setBank a (fun k => { k with isOpen := false }))).enqueue g b p (.close a)
    else x.matrixExc g p 0x08)

/-- MX.LDACC (R70, R123): one tile position of context O. -/
def execMxLdacc (g : GRef) (a : Bool) (fmt : Fmt) (s : State) : Out :=
  onX s g (fun b _ p x =>
    if !(fmt == .fp32 || fmt == .bf16) then x.illegal g p
    else if (b.bank a).isOpen then x.matrixExc g p 0x08
    else match b.ctxO with
      | none => x.matrixExc g p 0x0B
      | some o =>
        if dFmt o.desc != some fmt || o.left < 1 then x.matrixExc g p 0x0B
        else (x.updBlk g (fun b => (b.setBank a (fun k => { k with isOpen := true })).setCtx .o { o with pos := o.pos + 1 })).enqueue
          g b p (.ldacc a fmt) o.ref)

/-- Whether an MX.MMA takes part in Provenance (R133). -/
def Dev.pvTakes (d : Dev) (v : VitId) (ctrl : BitVec 64) (da db : BitVec 1024) : Bool :=
  let l := ctrlLayer ctrl
  d.vset v 5 1 == 1 && 0 < d.vset v 5 2 && d.vset v 6 1 (l / 8) / 2 ^ (l % 8) % 2 == 1 && dActivation da && dWeightTag db != 0

/-- MX.MMA (R72, R74, R123): contexts A and B advance by its k-steps. -/
def execMxMma (g : GRef) (a : Bool) (rc : Byte) (s : State) : Out :=
  onX s g (fun b q p x => x.withRegs g b p [rc.toNat, rc.toNat + 1] (fun x =>
    let ctrl := BitVec.ofNat 64 (q.reg64 rc.toNat (lowLane p.mask))
    if !(b.bank a).isOpen then x.matrixExc g p 0x08
    else match ctrlPair ctrl with
      | none => x.matrixExc g p 0x09
      | some (fa, fb) =>
        let k := 32 * ctrlK ctrl
        match b.ctxA, b.ctxB with
        | some ca, some cb =>
          if dFmt ca.desc != some fa || dFmt cb.desc != some fb || (fa.scaled && ca.pos % 32 != 0) ||
             (fb.scaled && cb.pos % 32 != 0) || ca.left < k || cb.left < k then x.matrixExc g p 0x0B
          else
            let takes := x.dev.pvTakes (vitOfCore g.core) ctrl ca.desc cb.desc
            let reg := match ca.sig with
              | some r => if takes && r.pos == ca.pos && r.kb == ctrlK ctrl then some r else none
              | none => none
            (x.updBlk g (fun b => (b.setCtx .a { ca with pos := ca.pos + k }).setCtx .b { cb with pos := cb.pos + k })).enqueue
              g b p (.mma a ctrl) ca.ref cb.ref takes (reg.map (·.sign)) (reg.bind (·.val))
        | _, _ => x.matrixExc g p 0x0B))

/-- MX.STORE (R72, R74, R123). -/
def execMxStore (g : GRef) (a : Bool) (rs : Byte) (s : State) : Out :=
  onX s g (fun b q p x => x.withRegs g b p [rs.toNat] (fun x =>
    let sc := q.reg rs.toNat (lowLane p.mask)
    if !(b.bank a).isOpen then x.matrixExc g p 0x08
    else match sctrlOut sc with
      | none => x.matrixExc g p 0x09
      | some (f, _) =>
        match b.ctxO with
        | none => x.matrixExc g p 0x0B
        | some o =>
          if dFmt o.desc != some f || o.left < 1 then x.matrixExc g p 0x0B
          else (x.updBlk g (fun b => (b.setBank a (fun k => { k with isOpen := !sctrlClose sc })).setCtx .o { o with pos := o.pos + 1 })).enqueue
            g b p (.store a sc) o.ref))

/-- MX.WAIT (R70). -/
def execMxWait (g : GRef) (n : BitVec 4) (s : State) : Out :=
  onX s g (fun _ _ _ x => x.on (fun d =>
    let held := n.toNat < (d.eng g.core).load g.slot.toNat
    let d := if held then d else d.count 0x8011 1 (vitOfCore g.core).toNat
    d.stepGrp g (fun h => let h := h.next; { h with mxWait := if held then some n.toNat else none, mxFrom := d.cycOf g.core })))

/-- MX.RDACC (R85): the state of the last MX.MMA, or a bank, once the block's queued instructions are done. -/
def execMxRdacc (g : GRef) (dst : Byte) (rsel : Byte) (s : State) : Out :=
  onX s g (fun b q p x => x.withRegs g b p [dst.toNat, rsel.toNat] (fun x =>
    let e := x.dev.eng g.core
    let lead := ((x.dev.vit (vitOfCore g.core)).leader).getD b.leader
    if x.dev.vset lead 0xD 1 != 1 then x.illegal g p
    else if 0 < e.load g.slot.toNat then x
    else
      let sel := (q.reg rsel.toNat (lowLane p.mask)).toNat
      let row := fld sel 2 6
      let col (l : Nat) : Nat := fld sel 0 1 * 32 + l
      let bank := b.bank (fld sel 1 1 == 1)
      let w (l : Nat) : Word := match fld sel 8 2 with
        | 0 => BitVec.ofInt 32 (nthD 0 e.shadow (row * 64 + col l))
        | 1 => kget 0 e.promo (row * 64 + col l)
        | 2 => BitVec.ofNat 32 (nthD 0 e.lane (col l))
        | _ => kget 0 bank.vals (row * 64 + col l)
      if fld sel 8 2 == 3 && !bank.isOpen then x.matrixExc g p 0x08
      else x.on (fun d => (d.stepGrp g (fun h => (h.setLanes dst.toNat p.mask w).next)).count 0x8011 1 (vitOfCore g.core).toNat)))

/-! ### The array (R77, R80-R84) -/

/-- Whether a core's engine may begin queued instructions: its die runs, and its Vitrine's step is neither quiesced nor
halted (R278, R418); those issued before a squash go on (R63). -/
def Dev.engGo (d : Dev) (c : CoreId) : Bool :=
  let v := vitOfCore c
  d.runs (dieOfCore c) && (d.vit v).halt == 0 &&
  (match d.stepOn v with | some s => s.works || (s.st == .running && !s.ends.isEmpty) | none => false)

/-- The sixteen codes of a codebook table in force (R96, R97). -/
def Dev.book (d : Dev) (v : VitId) (t : Nat) : List Nat := (List.range 16).map (fun i => d.force (0x9000 + v.toNat) t i)

/-- The next k-block a walker has to fetch for an instruction. -/
def WkUnit.at (u : WkUnit) (id : Nat) : Nat := kget 0 u.pos id
/-- Forget what a walker fetched for instructions other than `keep`. -/
def WkUnit.only (u : WkUnit) (keep : List Nat) : WkUnit :=
  { job := match u.job with | some j => if keep.contains j.id then some j else none | none => none,
                            segs := u.segs.filter (fun g => keep.contains g.id), pos := u.pos.filter (fun e => keep.contains e.1) }

/-- The k-blocks of an MX.MMA or WK.SIGN. -/
def EInstr.kblocks (i : EInstr) : Nat :=
  match i.op with
  | .mma _ ctrl => ctrlK ctrl
  | .sign kb => kb
  | _ => 0

/-- Whether a run's operands have all been fetched, so that it ends without waiting. -/
def Engine.fed (e : Engine) (r : Run) : Bool :=
  let k := r.ins.kblocks
  k ≤ e.wa.at r.ins.id && k ≤ e.wb.at r.ins.id && !(e.wa.job.any (fun j => j.id == r.ins.id)) && !(e.wb.job.any (fun j => j.id == r.ins.id))

/-- Core cycles from a k-step's promotion interval to the end of its check: the last latch, promotion and check (R80). -/
def checkDelay : Nat := 17

/-- Drop entries of a Vitrine's Provenance store, those not yet inserted among them. -/
def Dev.pvDrop (d : Dev) (v : VitId) (p : PvEntry → Bool) : Dev :=
  (coresOfVit v).foldl (fun (e : Dev) k => e.setEng (BitVec.ofNat 9 k) (fun g => { g with inserts := g.inserts.filter (fun q => !p q) }))
    (d.setVit v (fun t => { t with pv := t.pv.filter (fun e => !p e) }))

/-- The key of an MX.MMA's Provenance entry (R132): LAYER, tag, position of B, K_BLOCKS, formats, CODEBOOK. -/
def EInstr.pvKey (i : EInstr) : List Nat :=
  match i.op with
  | .mma _ ctrl => [ctrlLayer ctrl, dWeightTag i.rb.desc, i.rb.pos, ctrlK ctrl, fld ctrl.toNat 40 4, fld ctrl.toNat 36 4, ctrlBook ctrl]
  | _ => []

/-- A PV.INVAL reaches an engine's started instructions: those of its tag make no entry (R135). -/
def Engine.pvInval (e : Engine) (tag : Word) : Engine :=
  { e with runs := e.runs.map (fun r =>
      if tag == 0 || nthD 0 r.ins.pvKey 1 == tag.toNat then { r with ins := { r.ins with takes := false } } else r) }

/-- An instruction leaves its engine without a bank update. -/
def Engine.abandon (e : Engine) (id : Nat) : Engine :=
  { e with queue := e.queue.filter (fun i => i.id != id), runs := e.runs.filter (fun r => r.ins.id != id),
           xfer := match e.xfer with | some (i, t) => if i.id == id then none else some (i, t) | none => none }

/-- An instruction's read of engine storage (R67): a corrected error is counted, an uncorrectable one raises STORAGE_UNCORRECTABLE against its group, and
the instruction takes no effect. -/
def X.engRead (x : X) (c : CoreId) (i : EInstr) (u : Upset) (f : X → X) : X :=
  match u with
  | .none => f x
  | .corrected => f (x.on (fun d => d.count 0x8010 7 (vitOfCore c).toNat))
  | .uncorrectable => (x.on (fun d => d.setEng c (fun e => e.abandon i.id))).raise (i.gref c) { code := 0x42, lanes := i.lanes, pc := i.pc }

/-- The instruction an engine serves: the first it has started. -/
def Engine.serves (e : Engine) : Option EInstr :=
  match e.runs with
  | r :: _ => some r.ins
  | [] => match e.xfer with
    | some (i, _) => some i
    | none => e.sign

/-- Whether instructions that have not started wait for a re-run: its last k-steps have not entered (R81). -/
def Engine.rerunning (e : Engine) : Bool := e.runs.any (fun r => r.phase == .rerun || (r.phase == .array && r.esc))

/-- The cycle after a run's last k-steps enter when nothing delays the rest of it (R80). -/
def Run.lastIn (r : Run) : Nat :=
  match r.ins.op with
  | .mma _ ctrl => match ctrlPair ctrl with
    | some (a, b) =>
      let n := match pairRate a b with | some (_, k, _) => if r.esc then 8 else k | none => 1
      r.next + (if r.esc then 32 * ctrlK ctrl - 8 * r.ival else pairCycles a b (32 * ctrlK ctrl - n * r.ival))
    | none => r.next
  | _ => r.next

/-- The head of the queue begins, MX.STORE and MX.LDACC apart (R71, R80, R81, R114); behind a re-run it waits (R81). -/
def Dev.startHead (d : Dev) (c : CoreId) : Dev :=
    let e := d.eng c
    let v := vitOfCore c
    match e.queue with
    | [] => d
    | i :: rest =>
      if !d.engGo c || e.rerunning then d else
      let t := max e.begun (i.at' + 4)
      let pop (d : Dev) (t : Nat) (f : Engine → Engine) : Dev :=
        (d.reachOf c t).setEng c (fun e => f { e with queue := rest, begun := t })
      match i.op with
      | .mma _ ctrl =>
        match ctrlPair ctrl with
        | none => d
        | some (_, fb) =>
          if 2 ≤ e.runs.length || (i.known.isSome && i.sig.isNone) ||
             e.runs.any (fun r => r.phase == .lookup || (r.phase == .array && !e.fed r)) then d
          else
            let codes := if fb.isCb then d.book v (ctrlBook ctrl) else e.cb
            let t := max (max t e.free) (if codes == e.cb then 0 else i.at' + 8)
            let t := e.runs.foldl (fun n r => if r.phase == .array then max n r.lastIn else n) t
            pop d t (fun e => { e with cb := codes,
                                       runs := e.runs ++ [{ ins := i, codes, phase := if i.takes && i.sig.isSome then .lookup else .array, start := t, next := t }] })
      | .opn _ | .close _ =>
        match i.bank with
        | some k => if e.bankHeld k then d else ((pop d t id).setBankVals c k []).engDone c i true
        | none => d
      | .arm _ | .mark _ | .rewind _ | .skip _ => (pop d t id).engDone c i false
      | .pvInval tag => ((pop d t (fun e => e.pvInval tag)).pvDrop v (fun p => tag == 0 || nthD 0 p.key 1 == tag.toNat)).engDone c i false
      | .sign _ => if e.sign.isSome then d else pop d t (fun e => { e with sign := some i })
      | .ldacc .. | .store .. => d

/-- ENGINE_INSTRUCTION_START (R67, R71): a parity error of the head's queue entry is handled as STORAGE_UNCORRECTABLE. -/
def execEngineInstructionStart (c : CoreParity) (s : State) : Out :=
  run s (fun x =>
    match (x.dev.eng c.core).queue with
    | [] => x
    | i :: _ => if c.parity && x.dev.engGo c.core then x.engRead c.core i .uncorrectable id else x.on (fun d => d.startHead c.core))

/-- The values of 32 x 64 operand elements of a k-block from a segment: by k-step x 64 + lane. -/
def Seg.elem (g : Seg) (kb k lane : Nat) : Option Nat := (nthD none g.elems (((kb - g.kb) * 32 + k) * 64 + lane))
def Seg.scale (g : Seg) (kb lane : Nat) : Nat := nthD 0 g.scales ((kb - g.kb) * 64 + lane)
def Seg.holds (g : Seg) (id kb : Nat) : Bool := g.id == id && g.kb ≤ kb && kb < g.kb + g.n

/-- The value of an operand element: a codebook code takes its entry, and a ZERO element is 0 (R96, R105). -/
def operand (f : Fmt) (codes : List Nat) (e : Option Nat) : FVal :=
  match e with
  | none => .fin false 0 0
  | some n => if f.isCb then elemVal f (nthD 0 codes n) else elemVal f n

/-- The mask of the lanes whose elements or scale of a k-step range are not finite (R107). -/
def oddLanes (f : Fmt) (vals : List (List FVal)) (scales : List Nat) : BitVec 64 :=
  (List.range 64).foldl (fun m l =>
    putBit m l (vals.any (fun row => (nthD (.fin false 0 0) row l).odd) || (f.scaled && nthD 127 scales l == 255))) 0

/-- A product in GF(2^64) modulo x^64 + x^4 + x^3 + x + 1 (R131). -/
def gfMul (a b : BitVec 64) : BitVec 64 :=
  ((List.range 64).foldl (fun (s : BitVec 64 × BitVec 64) i =>
    (if b.getLsbD i then s.1 ^^^ s.2 else s.1, (s.2 <<< 1) ^^^ (if s.2.getLsbD 63 then 0x1B else 0))) (0, a)).1

/-- The 64-bit words of a k-block in canonical order (R131): each lane's 32 elements packed, then the 64 scale bytes. -/
def Seg.words (g : Seg) (f : Fmt) (kb : Nat) : List (BitVec 64) :=
  let lane (l : Nat) : Nat := (List.range 32).foldl (fun n k => n + ((g.elem kb k l).getD 0) * 2 ^ (f.width * k)) 0
  let split (n w : Nat) : List (BitVec 64) := (List.range w).map (fun i => BitVec.ofNat 64 (n >>> (64 * i)))
  (List.range 64).flatMap (fun l => split (lane l) (f.width / 2)) ++
  (if f.scaled then split (leNat ((List.range 64).map (fun l => BitVec.ofNat 8 (g.scale kb l)))) 8 else [])

/-- Add words to a signature (R131): its value and the number of words so far. -/
def sigAdd (key : Nat) (s : BitVec 64 × Nat) (ws : List (BitVec 64)) : BitVec 64 × Nat :=
  ws.foldl (fun (t : BitVec 64 × Nat) w => (t.1 ^^^ gfMul (Config.pvKappa key t.2) w, t.2 + 1)) s

/-- What one promotion interval gives: the cells by row x 64 + column, the residue lanes, and the non-finite lanes. -/
structure IvalOut where
  cells : List CellOut
  lanes : List Nat
  nanRow : BitVec 64
  nanCol : BitVec 64
  scaleA : List Nat
  scaleB : List Nat

/-- Run one interval of `n` k-steps from k-step `k0` of the k-block (R77, R82, R102). -/
def runInterval (fa fb : Fmt) (codes : List Nat) (ga gb : Seg) (kb k0 n grp : Nat) (esc : Bool) : IvalOut :=
  let ks := (List.range n).map (k0 + ·)
  let va := ks.map (fun k => (List.range 64).map (fun l => operand fa codes (ga.elem kb k l)))
  let vb := ks.map (fun k => (List.range 64).map (fun l => operand fb codes (gb.elem kb k l)))
  let lp := weightExp fa fb (tableMax codes) esc
  let own := cellWeight fa
  let fin (v : List (List FVal)) (l : Nat) : List (Int × Int) := v.map (fun row => finPart (nthD (.fin false 0 0) row l))
  let ca := (List.range 64).map (fin va)
  let cb := (List.range 64).map (fin vb)
  let prods (i j : Nat) : List (Int × Int) :=
    (List.zip (nthD [] ca i) (nthD [] cb j)).map (fun e => (e.1.1 * e.2.1, e.1.2 + e.2.2))
  let cells := (List.range 4096).map (fun q => cellInterval (prods (q / 64) (q % 64)) grp lp own)
  let lanes := (List.range 64).map (fun j => laneResidue own lp ((List.range 64).flatMap (fun i => prods i j))
    ((List.range 64).map (fun i => nthD ⟨0, false, false, 0⟩ cells (i * 64 + j))))
  let sa := (List.range 64).map (fun l => if fa.scaled then ga.scale kb l else 127)
  let sb := (List.range 64).map (fun l => if fb.scaled then gb.scale kb l else 127)
  { cells, lanes, nanRow := oddLanes fa va sa, nanCol := oddLanes fb vb sb, scaleA := sa, scaleB := sb }

/-- Add an interval to a promotion buffer (R77): each cell's value scaled, converted and added to nearest even. -/
def promote (buf : KMap Word) (o : IvalOut) : KMap Word :=
  o.cells.zipIdx.map (fun e =>
    let s (l : List Nat) (k : Nat) : Int := let x := nthD 127 l k; if x = 255 then 0 else (x : Int) - 127
    (e.2, (fadd32 .rne (kget 0 buf e.2) (promoted e.1 (s o.scaleA (e.2 / 64) + s o.scaleB (e.2 % 64)))).1))

/-- The escalation threshold in force for a LAYER (R96, R97). -/
def Dev.threshold (d : Dev) (v : VitId) (layer : Nat) : Nat := d.force (0x9040 + v.toNat) 1 layer

/-- ARRAY_RESIDUE (R83, R84): the instruction makes no bank update, and its group faults. The error record names the column and interval, packed as log 67
says, and the residue pair. -/
def X.arrayResidue (x : X) (c : CoreId) (r : Run) (column : Nat) : X :=
  let layer := match r.ins.op with | .mma _ ctrl => ctrlLayer ctrl | _ => 0
  let n := x.dev.fresh
  let x := x.on (fun d => (({ d with fresh := n + 1 } : Dev).count 0x8011 5 (vitOfCore c).toNat).setEng c (fun e => e.abandon r.ins.id))
  x.raise (r.ins.gref c) { code := 0x43, lanes := r.ins.lanes, pc := r.ins.pc, errDetail := column * 2 ^ 16 + r.ival, layer, syndrome := (Config.residuePair n).toNat }

/-- Core cycles in which an array at stage `sg` advances among `n`, `since` cycles after its last admission: of each run of RAMP_STAGES cycles the first `sg`
(R86; runs counted from the last admission, log 37). -/
def rampDone (stages sg since n : Nat) : Nat :=
  let upTo (t : Nat) : Nat := t / max 1 stages * sg + min (t % max 1 stages) sg
  upTo (since + n) - upTo since

/-- Core cycles in which an array at stage `sg` advances k-steps in `n` cycles, `since` cycles after its last admission. -/
def rampTime (stages sg since n : Nat) : Nat :=
  let pos := since % max 1 stages
  let here := sg - pos
  if n = 0 then 0
  else if n ≤ here then n else stages - pos + (n - here - 1) / max 1 sg * stages + (n - here - 1) % max 1 sg + 1

/-- The promotion interval an array has before it: the run, its formats, products per cell and k-steps, core cycles, k-block and segments (R75, R81). -/
structure IvalAt where
  r : Run
  ctrl : BitVec 64
  fa : Fmt
  fb : Fmt
  grp : Nat
  n : Nat
  cyc : Nat
  kb : Nat
  ga : Seg
  gb : Seg

/-- The next interval of the MX.MMA on the array, once its segments are present. -/
def Engine.ivalAt (e : Engine) : Option IvalAt :=
  match e.runs.find? (fun r => r.phase == .array) with
  | none => none
  | some r => match r.ins.op with
    | .mma _ ctrl => match ctrlPair ctrl with
      | none => none
      | some (fa, fb) => match pairRate fa fb with
        | none => none
        | some (grp, ivN, ivC) =>
          let n := if r.esc then 8 else ivN
          let kb := r.ival * n / 32
          match e.wa.segs.find? (fun g => g.holds r.ins.id kb), e.wb.segs.find? (fun g => g.holds r.ins.id kb) with
          | some ga, some gb => some { r, ctrl, fa, fb, grp := if r.esc then 1 else grp, n, cyc := if r.esc then 8 else ivC, kb, ga, gb }
          | _, _ => none
    | _ => none

/-- The core cycle in which an interval's k-steps may begin to enter, and the stall before it (R76). -/
def IvalAt.enter (w : IvalAt) (e : Engine) : Nat × Nat :=
  let start := max w.r.next e.free
  let n := max start (max w.ga.at' w.gb.at')
  (n, n - start)

/-- The cycle up to which an interval has been followed at its stage. -/
def IvalAt.upTo (w : IvalAt) (e : Engine) : Nat := max w.r.seen (w.enter e).1

/-- An array's stage or ceiling changes: what its interval has advanced by now is kept, and the cycles held until now are counted (R86). -/
def Dev.settleRamp (d : Dev) (c : CoreId) : Dev :=
  let e := d.eng c
  let now := d.cycOf c
  match e.ivalAt with
  | none => d
  | some w =>
    let at' := w.upTo e
    if now ≤ at' then d
    else
      let stages := d.force 0xA300 3 0
      let sg := min e.stage e.ceil
      let left := w.cyc - w.r.adv
      let a := rampDone stages sg (at' - e.admitted) (now - at')
      let done := left ≤ a
      let till := if done then at' + rampTime stages sg (at' - e.admitted) left else now
      let adv := if done then left else a
      let mark (q : Run) : Run := { q with adv := q.adv + adv, seen := till }
      (d.count 0x8011 4 (vitOfCore c).toNat (till - at' - adv)).setEng c (fun e => { e with runs := updFirst (fun q => q.ins.id == w.r.ins.id) mark e.runs })

/-- MMA_INTERVAL_CHECK (R77, R80, R82, R83, R109): the next promotion interval of the MX.MMA on the array; after the last,
the escalation decision. An interval is one event, so an accumulator holds nothing between two commands (log 74). -/
def execMmaIntervalCheck (c : CoreId) (found : ArrayFind) (s : State) : Out :=
  run s (fun x =>
    let d := x.dev
    let e := d.eng c
    let v := vitOfCore c
    let stages := d.force 0xA300 3 0
    let sg := min e.stage e.ceil
    match e.ivalAt with
    | none => x
    | some w =>
      let r := w.r
      let left := w.cyc - r.adv
      if (sg = 0 && 0 < left) || !d.runs (dieOfCore c) then x else
      let till := w.upTo e
      let next := till + rampTime stages sg (till - e.admitted) left
      let x := x.on (fun d => (((d.reachOf c (next + checkDelay)).count 0x8011 2 v.toNat w.cyc).count 0x8011 3 v.toNat (w.enter e).2).count
        0x8011 4 v.toNat (next - till - left))
      x.engRead c r.ins found.upset (fun x => match found.column with
      | some j => x.arrayResidue c r j.toNat
      | none =>
        let o := runInterval w.fa w.fb r.codes w.ga w.gb w.kb (r.ival * w.n % 32) w.n w.grp r.esc
        let sat := (o.cells.filter (·.sat)).length
        let und := (o.cells.filter (·.und)).length
        let layer := ctrlLayer w.ctrl
        let watched := d.vset v 4 1 == layer
        let last := (r.ival + 1) * w.n == 32 * ctrlK w.ctrl
        let hot := r.hot || (!r.esc && decide (d.threshold v layer < sat))
        let phase : RunPhase := if !last then .array else if hot then .rerun else if r.stored.isSome then .verify else .update
        let sig := if r.ins.takes && r.ins.known.isNone && !r.esc && (r.ival + 1) * w.n % 32 == 0 then
            sigAdd (d.vit v).pvKey (r.sigAcc, r.sigWords) (w.ga.words w.fa w.kb) else (r.sigAcc, r.sigWords)
        let r' : Run := { r with ival := r.ival + 1, next := next, adv := 0, seen := 0, hot := hot, phase := phase, promo := promote r.promo o,
                                 shadow := o.cells.map (·.acc), lane := o.lanes, nanRow := r.nanRow ||| o.nanRow,
                                 nanCol := r.nanCol ||| o.nanCol, due := next + 26, sigAcc := sig.1, sigWords := sig.2 }
        let done := (r.ival + 1) * w.n / 32
        let drop (u : WkUnit) : WkUnit := { u with segs := u.segs.filter (fun g => !(g.id == r.ins.id && g.kb + g.n ≤ done)) }
        x.on (fun d =>
          let d := if r.esc then d.count 0x8012 4 v.toNat w.n else d.count 0x8012 1 v.toNat sat
          let d := d.count 0x8012 2 v.toNat und
          let d := if watched then (if r.esc then d else d.count 0x8012 8 v.toNat sat).count 0x8012 9 v.toNat und else d
          let d := if last && hot then
              let d := d.count 0x8012 3 v.toNat
              if watched then d.count 0x8012 0xA v.toNat else d
            else d
          d.setEng c (fun e => { e with runs := updFirst (fun q => q.ins.id == r.ins.id) (fun _ => r') e.runs, wa := drop e.wa,
                                        wb := drop e.wb, stepped := max e.stepped next, free := max e.free next,
                                        begun := if r.esc && last then max e.begun next else e.begun }))))

/-- ESCALATED_RUN_START (R81): the operand range is fetched again and the instruction runs again, alone on the array. -/
def execEscalatedRunStart (c : CoreId) (s : State) : Out :=
  runDev s (fun _ _ d =>
    let e := d.eng c
    match e.runs.find? (fun r => r.phase == .rerun) with
    | none => d
    | some r =>
      if !d.runs (dieOfCore c) || e.runs.any (fun q => q.phase == .array || q.phase == .lookup) then d
      else
        let t := e.runs.foldl (fun n q => if q.ins.id == r.ins.id then n else max n q.next) (r.next + 22)
        (d.reachOf c t).setEng c (fun e =>
          { e with wa := e.wa.only [], wb := e.wb.only [],
                   runs := updFirst (fun q => q.ins.id == r.ins.id) (fun q =>
                     { q with phase := .array, esc := true, hot := false, ival := 0, adv := 0, seen := 0, promo := [], nanRow := 0, nanCol := 0, start := t, next := t }) e.runs }))

/-- The value a bank element takes (R77, R107): the addition, the replacement, or the NaN of a non-finite operand. -/
def bankElem (r : Run) (replace : Bool) (old : Word) (k : Nat) : Word :=
  if r.nanRow.getLsbD (k / 64) || r.nanCol.getLsbD (k % 64) then qnan
  else if replace then kget 0 r.promo k
  else (fadd32 .rne old (kget 0 r.promo k)).1

/-- The values an entry holds: what the run adds to, or places in, its bank (R132), non-finite cells included. -/
def Run.values (r : Run) : KMap Word :=
  (List.range 4096).map (fun k =>
    (k, if r.nanRow.getLsbD (k / 64) || r.nanCol.getLsbD (k % 64) then qnan else kget 0 r.promo k))

/-- BANK_UPDATE (R71, R77, R80, R84, R107): the oldest checked MX.MMA adds its buffer to its bank, or replaces it, and completes; a bank that walker O has
kept puts it off. A check that fails names the last interval (log 67). -/
def execBankUpdate (c : CoreId) (found : ArrayFind) (s : State) : Out :=
  run s (fun x =>
    let d := x.dev
    let e := d.eng c
    let v := vitOfCore c
    let first (r : Run) : Bool := !((e.runs.takeWhile (fun q => q.ins.id != r.ins.id)).any (fun q => q.ins.bank == r.ins.bank))
    match e.runs.find? (fun r => r.phase == .update && first r) with
    | none => x
    | some r =>
      match r.ins.op, r.ins.bank with
      | .mma _ ctrl, some k =>
        if !d.runs (dieOfCore c) then x
        else if (match e.xfer with | some (i, _) => i.bank == some k | none => false) then x
        else x.engRead c r.ins found.upset (fun x => match found.column with
        | some j => x.arrayResidue c { r with ival := r.ival - 1 } j.toNat
        | none =>
          let old := d.bankVals c k
          let vals : KMap Word := (List.range 4096).map (fun q => (q, bankElem r (ctrlReplace ctrl) (kget 0 old q) q))
          let odd := (vals.filter (fun q => (val32 q.2).odd)).length
          let t := max (max (d.cycOf c) r.due) (kget 0 e.released k + 8)
          let hit := r.hit && r.stored.isNone
          let ins : List PvEntry := if r.ins.takes && !r.hit then
              match (if r.ins.sig.isSome then r.ins.sig else if r.ins.known.isNone then some r.sigAcc else none) with
              | some sg => [{ key := r.ins.pvKey, sig := sg, vals := r.values }]
              | none => []
            else []
          x.on (fun d =>
            let d := d.reachOf c t
            let d := d.setBankVals c k vals
            let d := d.count 0x8012 7 v.toNat odd
            let d := d.setEng c (fun e => { e with runs := e.runs.filter (fun q => q.ins.id != r.ins.id), inserts := e.inserts ++ ins,
                                                   bankAt := kset e.bankAt k (t - 1), promo := r.promo,
                                                   shadow := if hit then e.shadow else r.shadow,
                                                   lane := if hit then e.lane else r.lane })
            let d := d.trace v 4 c.toNat (ctrlLayer ctrl + ctrlK ctrl % 4096 * 2 ^ 16 + (if r.esc then 2 ^ 28 else 0) + (if r.hit then 2 ^ 29 else 0))
            d.engDone c r.ins true))
      | _, _ => x)

/-! ### Transfers of walker O (R71, R80, R101) -/

/-- STORE_TRANSFER_START (R80): the MX.STORE or MX.LDACC at the head of the queue begins once its bank and walker O are
free. -/
def execStoreTransferStart (c : CoreId) (s : State) : Out :=
  runDev s (fun _ _ d =>
    let e := d.eng c
    match e.queue with
    | [] => d
    | i :: rest =>
      let isX := match i.op with | .ldacc .. | .store .. => true | _ => false
      match i.bank with
      | some k =>
        if !isX || !d.engGo c || e.rerunning || e.bankHeld k || e.xfer.isSome then d
        else
          let t := max (max e.begun (i.at' + 4)) (max (kget 0 e.bankAt k + 1) e.moved)
          (d.reachOf c t).setEng c (fun e => { e with queue := rest, begun := t, xfer := some (i, t) })
      | none => d)

/-- The larger of two values of a row's maximum (R127). -/
def statMax (a b : Word) : Word :=
  if (val32 a) == .nan || (val32 b) == .nan then qnan else fminmax32 true a b

/-- What MX.STORE hands to walker O: codes, scale bytes and row maxima; with the conversion events and the flags of R99. -/
structure StoreOut where
  codes : List Nat := []
  scales : List Nat := []
  stats : List Word := []
  sat : Nat := 0
  und : Nat := 0
  flags : Flags := 0

/-- The conversion of MX.STORE (R101, R127, R128). All 64 columns of a row enter its maximum and its block scales, whatever the tile's columns (log 73). -/
def storeTile (i : EInstr) (sc : Word) (vals : KMap Word) : StoreOut :=
  match sctrlOut sc with
  | none => {}
  | some (f, mode) =>
    let ds := dDims i.ra.desc
    let masked (r c : Nat) : Bool :=
      if dMaskEn i.ra.desc then
        let ix := dIndex ds i.ra.pos r c
        let co (j : Nat) : Int := let m := dDim i.ra.desc j; (coord m ix j).getD (rawCoord m ix j)
        decide (co (dMaskQ i.ra.desc) + dMaskOff i.ra.desc < co (dMaskK i.ra.desc))
      else false
    let v (r c : Nat) : Word := kget 0 vals (r * 64 + c)
    let scale (r h : Nat) : Int :=
      if f.scaled then blockScale f (((List.range 32).filter (fun k => !masked r (h * 32 + k))).map (fun k => val32 (v r (h * 32 + k))))
      else 0
    let top : Nat := match f with | .fp32 => 0xFF800000 | .bf16 => 0xFF80 | .fp16 => 0xFC00 | .e5m2 => 0xFC | _ => 0xFE
    let cells := (List.range 4096).map (fun k =>
      if masked (k / 64) (k % 64) then ({ code := top } : Cvt)
      else cvtTo f mode ((val32 (v (k / 64) (k % 64))).scale (-(scale (k / 64) (k % 64 / 32)))))
    let scales := (List.range 128).map (fun k => (scale (k % 64) (k / 64) + 127).toNat)
    let stats := (List.range 64).map (fun r =>
      (List.range 64).foldl (fun (m : Word) c => statMax m (if masked r c then 0xFF800000 else v r c)) 0xFF800000)
    { codes := cells.map (·.code), scales, stats, sat := (cells.filter (·.sat)).length, und := (cells.filter (·.und)).length,
      flags := cells.foldl (fun f q => f ||| q.flags) 0 }

/-- The FP32 values of an MX.LDACC's tile from the granules walker O has read; elements beyond the extents are +0.0
(R70, R98, R127). -/
def loadTile (i : EInstr) (fmt : Fmt) (got : KMap (BitVec 512)) : KMap Word :=
  let ds := dDims i.ra.desc
  let sp := dSpace i.ra.desc
  (List.range 4096).map (fun k =>
    let r := k / 64
    let c := k % 64
    if dLanes i.ra.desc ≤ r || dCols i.ra.desc ≤ c then (k, 0)
    else match offAt ds i.ra.pos r c with
      | none => (k, 0)
      | some e =>
        let (a, n) := elemSpan (dBase i.ra.desc) fmt.width e
        let byte (p : Nat) : Byte := ((kget 0 got (sp * 2 ^ 48 + p / 64)) >>> (8 * (p % 64))).setWidth 8
        let raw := leNat ((List.range n).map (fun q => byte (a + q)))
        (k, if fmt == .bf16 then (match val32 (BitVec.ofNat 32 (raw * 65536)) with | .nan => qnan | _ => BitVec.ofNat 32 (raw * 65536)) else BitVec.ofNat 32 raw))

/-- STORE_TRANSFER_DONE (R71, R80, R101): the last value has moved; an MX.STORE's tile is walker O's to write and its flags are its group's, an MX.LDACC
has filled its bank once its granules have come. -/
def execStoreTransferDone (c : CoreUpset) (s : State) : Out :=
  run s (fun x =>
    let e := x.dev.eng c.core
    let v := (vitOfCore c.core).toNat
    match e.xfer with
    | none => x
    | some (i, t) =>
      if !x.dev.runs (dieOfCore c.core) then x else
      match i.bank, x.dev.eblk c.core i.owner.slot with
      | some k, some b =>
        match i.op with
        | .store _ sc => x.engRead c.core i c.upset (fun x => x.on (fun d =>
          let o := storeTile i sc (d.bankVals c.core k)
          let tile : Tile := { ins := i, codes := o.codes, scales := o.scales, stats := o.stats, scrGran := b.scrGran, clusGran := b.clusGran }
          let d := ((d.reachOf c.core (t + 128)).count 0x8012 5 v o.sat).count 0x8012 6 v o.und
          let d := d.updGrp (i.gref c.core) (fun q => { q with flags := q.flags ||| o.flags })
          let d := if sctrlClose sc then d.setBankVals c.core k [] else d
          (d.setEng c.core (fun e => { e with xfer := none, moved := t + 128, released := kset e.released k (t + 128), tiles := e.tiles ++ [tile] })).engDone c.core i true))
        | .ldacc _ fmt =>
          match e.wo.job with
          | some j =>
            if j.id == i.id && j.todo.isEmpty && j.bad.isNone then x.engRead c.core i c.upset (fun x => x.on (fun d =>
              let d := (d.reachOf c.core (t + 128)).setBankVals c.core k (loadTile i fmt j.got)
              (d.setEng c.core (fun e => { e with xfer := none, moved := t + 128, bankAt := kset e.bankAt k (t + 127),
                                                  released := kset e.released k (t + 128), wo := { e.wo with job := none } })).engDone c.core i true))
            else x
          | none => x
        | _ => x
      | _, _ => x)

/-! ### The ramp limiter (R86-R89, R337) -/

/-- Whether an array holds work: a queued or executing MX.MMA or MX.LDACC (R86). -/
def Engine.oldestWork (e : Engine) : Option Nat :=
  let q := (e.queue.filter (fun i => match i.op with | .mma .. | .ldacc .. => true | _ => false)).map (·.at')
  let r := e.runs.map (fun r => r.ins.at')
  let t := match e.xfer with | some (i, _) => (match i.op with | .ldacc .. => [i.at'] | _ => []) | none => []
  (q ++ r ++ t).foldl (fun b n => match b with | some m => some (min m n) | none => some n) none

/-- The ramp table in force (R87). -/
def Dev.rampStages (d : Dev) : Nat := d.force 0xA300 3 0

/-- RAMP_WAVE (R86): at the die's next wave boundary the oldest requests are granted, ties in ascending core index. -/
def execRampWave (d : DieId) (s : State) : Out :=
  runDev s (fun _ _ m =>
    if !m.runs d.toNat then m else
    let w := max 1 (m.force 0xA300 1 0)
    let k := max (cdiv (m.cyc d.toNat) w) (m.die d.toNat).wave
    let m := (m.reach d.toNat (k * w)).setDie d.toNat (fun q => { q with wave := k + 1 })
    let reqs := ((List.range 64).map (fun i => d.toNat * 64 + i)).filterMap (fun c =>
      let e := m.eng (BitVec.ofNat 9 c)
      match e.oldestWork with
      | some t => if e.stage < min m.rampStages e.ceil then some (max t e.admitted, c) else none
      | none => none)
    let order := reqs.mergeSort (fun a b => a.1 < b.1 || (a.1 == b.1 && a.2 ≤ b.2))
    (order.take (m.force 0xA300 2 0)).foldl (fun (n : Dev) q =>
      (n.settleRamp (BitVec.ofNat 9 q.2)).setEng (BitVec.ofNat 9 q.2) (fun e => { e with stage := e.stage + 1, admitted := m.cycOf (BitVec.ofNat 9 q.2) })) m)

/-- RAMP_IDLE_EXPIRY (R86): RAMP_IDLE_CYCLES have passed since the array's last k-step and admission. -/
def execRampIdleExpiry (c : CoreId) (s : State) : Out :=
  runDev s (fun _ _ d =>
    let e := d.eng c
    if d.runs (dieOfCore c) && 0 < e.stage then
      ((d.reachOf c (max e.stepped e.admitted + d.force 0xA300 4 0)).settleRamp c).setEng c (fun e => { e with stage := 0 })
    else d)

/-- Set an array's stage ceiling; a lower one takes the stage with it (R89). -/
def Engine.setCeil (e : Engine) (n : Nat) : Engine := { e with ceil := n, stage := min e.stage n }
/-- Set the stage ceiling of a core's array now. -/
def Dev.setCeil (d : Dev) (c : CoreId) (n : Nat) : Dev := (d.settleRamp c).setEng c (fun e => e.setCeil n)

/-- ARRAY_CURRENT_LIMIT (R337): above 3.0 A the array's ceiling is 0 for 1,024 core cycles. -/
def execArrayCurrentLimit (c : CoreId) (milliAmp : BitVec 16) (s : State) : Out :=
  runDev s (fun _ _ d =>
    if d.runs (dieOfCore c) && 3000 < milliAmp.toNat then
      (d.setCeil c 0).setEng c (fun e => { e with limited := some (d.cyc (dieOfCore c) + 1024) })
    else d)

end Sys2Proof.Machine
end

