-- ==== Sys2Proof/Machine/Power.lean ====
section
/-! DEFINITION. Power, clocks and heat (R323-R345): duties, P-states, budgets, hardware limits, margin and pace notices. -/

namespace Sys2Proof.Machine

/-! ### Records and fixed tables -/

def Dev.dpow (d : Dev) (i : Nat) : DiePow := kget {} d.pow.dies i
def Dev.onPow (d : Dev) (f : Power → Power) : Dev := { d with pow := f d.pow }
def Dev.onHost (d : Dev) (f : HostP → HostP) : Dev := { d with host := f d.host }
def Dev.setDpow (d : Dev) (i : Nat) (f : DiePow → DiePow) : Dev := d.onPow (fun p => { p with dies := kupd {} p.dies i f })
/-- The Vitrines of a die (R4). -/
def vitsOfDie (i : Nat) : List VitId := (List.range 4).map (fun k => BitVec.ofNat 5 (i * 4 + k))
/-- The cores of a die (R3). -/
def coresOfDie (i : Nat) : List CoreId := (List.range 64).map (fun k => BitVec.ofNat 9 (i * 64 + k))

/-- DIE_CAP_W of a profile, in mW (R330). -/
def dieCapMw (profile : Nat) : Nat := if profile == 2800 then 337500 else if profile == 2200 then 262500 else 187500
/-- VITRINE_ARRAY_W of a profile, in mW (R330). -/
def vitArrayMw (profile : Nat) : Nat := if profile == 2800 then 26000 else if profile == 2200 then 19500 else 13000
/-- ARRAY_MV of a P-state in the V/F curve in force (R346). -/
def Dev.vfMv (d : Dev) (p : Nat) : Nat := d.force 0xA000 1 p / 256
/-- LOCKED_DUTY0 (R330): the highest duty whose 25.9 W x duty / 64 x (V / 800 mV)^2 fits VITRINE_ARRAY_W, V the P0 voltage with full trim. -/
def Dev.locked (d : Dev) (profile : Nat) : Nat :=
  let u := 2 * d.vfMv 0 + 5 * d.force 0x2000 8 0
  ((List.range 65).filter (fun q => decide (259 * q * u * u * 100 ≤ vitArrayMw profile * 64 * 1600 * 1600))).getLastD 0

/-! ### EMERGENCY_STATE (R347, R349) -/

/-- A cause of HARD that is active on some die: 0 die temperature, 1-3 a stack, 4 the input, 5 a regulator. -/
def Dev.causeOn (d : Dev) (lo hi : Nat) : Bool :=
  (List.range 8).any (fun i => (d.dpow i).causes.any (fun e => decide (lo ≤ e.1) && decide (e.1 ≤ hi) && e.2.isNone))

def Dev.emergency (d : Dev) : Nat :=
  (if (List.range 8).any (fun i => (d.dpow i).hard) then 1 else 0) + (if (List.range 8).any (fun i => (d.dpow i).trip.isSome) then 2 else 0) +
  (if d.causeOn 4 4 then 4 else 0) + (if d.causeOn 5 5 || d.pow.atriumAlert then 8 else 0) + (if d.causeOn 1 3 then 16 else 0)

/-- Note the reference cycle at which EMERGENCY_STATE becomes 0 (R343): `old` is its value before a change. -/
def Dev.calm (d : Dev) (old : Nat) : Dev := if old != 0 && d.emergency == 0 then d.onPow (fun p => { p with calmAt := d.ref }) else d

/-! ### Duties (R326, R332-R335) -/

/-- DUTY_LIMIT under pace-match (R342): with a held notice of a throttled peer, the lowest of the notices' fractions and of the fractions to
which throttling alone holds Vitrines of the tenancy. -/
def Dev.paceLimit (d : Dev) (v : VitId) : Nat :=
  match (d.vit v).leader with
  | none => 64
  | some l =>
    let read (n : Nat) : Nat := if n == 0xFFFF then 65536 else n
    let held := ((d.vit l).pace.heldFrom.filter (fun h => h.2.2.2 != 0)).map (fun h => read h.2.2.1)
    let own := ((d.tenancy l).filter (fun w => (d.vit w).thr < 64)).map (fun w => 65536 * (d.vit w).thr / 64)
    match held with
    | [] => 64
    | f :: rest => max 16 (64 * ((rest ++ own).foldl min f) / 65536)

/-- DUTY_LIMIT (R334, R337, R342, R345). -/
def Dev.dutyLimit (d : Dev) (v : VitId) : Nat :=
  let p := d.dpow (dieOfVit v)
  let soft := min (if p.worn then 42 else 64) (if (d.vit v).cls == 0 && d.vset v 9 3 == 1 then d.paceLimit v else 64)
  if p.hard then min 16 soft else soft

/-- Set a Vitrine's DUTY0. -/
def Dev.setDuty (d : Dev) (v : VitId) (q : Nat) : Dev :=
  if (d.vit v).duty0 == q then d else (d.rebase v).setVit v (fun t => { t with duty0 := q })

/-- A change of DUTY0 by throttling: the tenancy's leader owes its peers a PACE (R341). -/
def Dev.throttle (d : Dev) (v : VitId) (q reason : Nat) : Dev :=
  if (d.vit v).duty0 == q then d
  else
    let d := (d.setDuty v q).setVit v (fun t => { t with pace := { t.pace with reason := reason } })
    match (d.vit v).leader with
    | some l => if d.group l != 0 then d.setVit l (fun t => { t with pace := { t.pace with unsent := true } }) else d
    | none => d

/-- Report a FIXED Vitrine that a limit reduces (R333). -/
def Dev.fixedDown (d : Dev) (v : VitId) : Dev :=
  if (d.vit v).cls == 1 then d.postVit 0x0105 v v.toNat (d.vit v).duty0 else d

/-- Whether a Vitrine runs a step: its die's choice of P-state counts another's DUTY0 as 16 (R332). -/
def Dev.runsStep (d : Dev) (v : VitId) : Bool :=
  match d.stepOn v with
  | some s => s.st == .running
  | none => false

/-- The lowest-voltage P-state at which every DUTY0 of a die can be applied (R335); P1 at most on a worn die (R345). -/
def Dev.wantP (d : Dev) (i : Nat) : Nat :=
  let qs := (vitsOfDie i).map (fun v => if d.runsStep v then (d.vit v).duty0 else 16)
  if qs.all (fun q => q ≤ 32) then 2 else if qs.all (fun q => q ≤ 42) || (d.dpow i).worn then 1 else 0

/-- Switch a die's divider: its P-state is in force and every Vitrine's applied duty changes with it (R324-R326). -/
def Dev.setP (d : Dev) (i p : Nat) : Dev :=
  let d := (vitsOfDie i).foldl (fun (e : Dev) v => e.rebase v) d
  let d := (d.setDie i (fun k => { k with div := p + 2 })).setDpow i (fun q => { q with p := p, goal := none, low1 := 0, low2 := 0 })
  (vitsOfDie i).foldl (fun (e : Dev) v => e.trace v 9 0x3FF (p + (e.vit v).duty0 * 256)) d

/-- A Vitrine begins a step: it takes its leader's power class, the FIXED one its locked duty, and its die learns at once of a higher
P-state it needs (R332, R333, R335). -/
def Dev.dutyStart (d : Dev) (v : VitId) (cls : Nat) : Dev :=
  let old := (d.vit v).cls
  let d := d.setVit v (fun t => { t with cls := cls })
  let d := if cls == 1 && old != 1 then d.setDuty v (min (d.dutyLimit v) (d.locked d.pow.profile)) else d
  let i := dieOfVit v
  if d.wantP i < (d.dpow i).p then d.setDpow i (fun q => { q with due := true, low1 := 0, low2 := 0 }) else d

/-- One Vitrine's part of R334, and of R339's recovery of the FIXED class. -/
def Dev.dutyLoop (d : Dev) (v : VitId) (temp : Int) (array attr : Nat) : Dev :=
  let tt : Int := d.force 0x2000 6 0
  let p := d.dpow (dieOfVit v)
  let t := d.vit v
  let d := d.setVit v (fun u => { u with arrayMw := array, attrMw := attr })
  let d := if p.hard then d.count 0x2020 3 v.toNat else d
  if !d.runsStep v then d
  else if t.cls == 1 then
    let goal := min (d.dutyLimit v) (d.locked d.pow.profile)
    if t.duty0 < goal then d.throttle v (min goal (t.duty0 + 4)) (if t.duty0 + 4 < d.locked d.pow.profile then t.pace.reason else 0)
    else if goal < t.duty0 then (d.throttle v goal (if p.hard then 3 else 4)).fixedDown v
    else d
  else
    let arrLim := vitArrayMw d.pow.profile
    let hot := decide (tt < temp)
    let above := decide (arrLim < array) || decide (p.capMw < 4 * attr)
    let cool := decide (temp ≤ tt - 3)
    let rise := cool && decide (100 * array ≤ 95 * arrLim) && decide (400 * attr ≤ 95 * p.capMw)
    let d := d.setVit v (fun u => { u with thr := if above || hot then max 16 (u.duty0 - 4) else if rise then min 64 (u.thr + 1) else u.thr })
    let lim := d.dutyLimit v
    let q := if above || hot then max 16 (t.duty0 - 4) else if rise then min lim (t.duty0 + 1) else t.duty0
    let d := if q < t.duty0 && (above || hot) then (d.throttle v q (if above then 2 else 1)).count 0x2020 2 v.toNat
      else if t.pace.reason != 0 then d.throttle v q (if q == 64 then 0 else t.pace.reason)
      else d.setDuty v q
    if lim < q then (if p.hard then d.throttle v lim 3 else d.setDuty v lim) else d

/-- POWER_CONTROL_INTERVAL (R334, R335): readings, duties, and how long a lower P-state has sufficed. -/
def execPowerControlInterval (d : DieId) (rd : DieReading) (s : State) : Out :=
  runDev s (fun _ _ m =>
    let i := d.toNat
    if !m.runs i then m else
    let m := m.reach i ((m.dpow i).at' + 65536)
    let m := m.setDpow i (fun p => { p with at' := m.cyc i, temp := rd.temp, arrayMw := rd.arrayPower.foldl (· + ·) 0 })
    let m := (vitsOfDie i).zipIdx.foldl (fun (e : Dev) (w : VitId × Nat) => e.dutyLoop w.1 rd.temp (nthD 0 rd.arrayPower w.2) (nthD 0 rd.attrPower w.2)) m
    let want := m.wantP i
    m.setDpow i (fun p => { p with low1 := if p.p == 0 && 1 ≤ want then p.low1 + 1 else 0, low2 := if p.p < 2 && want == 2 then p.low2 + 1 else 0,
                                   due := decide (want < p.p) }))

/-- PSTATE_CHANGE (R325, R335): a raise begins with the rails; a lowering, due when its condition has held for 4 whole intervals, 5
readings as R342's example counts them, switches the divider at once. -/
def execPstateChange (d : DieId) (p : Fin 3) (s : State) : Out :=
  runDev s (fun _ _ m =>
    let i := d.toNat
    let q := m.dpow i
    if !m.runs i || q.goal.isSome then m
    else if p.val < q.p then
      (if !q.hard && q.due && p.val == m.wantP i then m.setDpow i (fun t => { t with goal := some p.val, since := m.ref, due := false }) else m)
    else if (p.val == 2 && 5 ≤ q.low2) || (p.val == 1 && q.p == 0 && 5 ≤ q.low1) then m.setP i p.val
    else m)

/-- PSTATE_SWITCH_DONE (R325): the rails have slewed at 50 mV per us. -/
def execPstateSwitchDone (d : DieId) (s : State) : Out :=
  runDev s (fun _ _ m =>
    let i := d.toNat
    match (m.dpow i).goal with
    | some p => if m.runs i then
        (m.reachRef ((m.dpow i).since + 2 * (m.vfMv p - m.vfMv (m.dpow i).p))).setP i p else m
    | none => m)

/-! ### Budgets (R328, R329) -/

/-- A PLDM numeric sensor (R452): its reading as of the last update, and its upper warning, critical and fatal thresholds; watts for sensor 33, °C
else. The thresholds of sensor 33 are in hundredths of a watt. -/
structure Sensor where
  reading : Int
  warning : Nat
  critical : Nat
  fatal : Option Nat

/-- The sensors by ID: 1 + d the hottest sensor of die d, 9 + k stack k, 33 the device's power (R452). -/
def Dev.sensor (d : Dev) (id : Nat) : Option Sensor :=
  let rd := kget 0 d.host.sensors id
  if 1 ≤ id && id ≤ 8 then some { reading := rd, warning := d.force 0x2000 6 0, critical := 105, fatal := some 115 }
  else if 9 ≤ id && id ≤ 32 then some { reading := rd, warning := 95, critical := 106, fatal := some 115 }
  else if id == 33 then some { reading := rd, warning := 95 * d.pow.profile, critical := 100 * d.pow.profile, fatal := none }
  else none

/-- The sensors' readings update every 100 ms (R452): at the first budget tick that far from the last update (log 81). -/
def Dev.sensorsRead (d : Dev) : Dev :=
  if d.ref < d.host.sensorsAt + 10000000 then d
  else
    let dies := (List.range 8).map (fun i => (1 + i, (d.dpow i).temp))
    let hot := (List.range 24).map (fun k => (9 + k, (kget {} d.hbm.stk k : HStack).temp))
    d.onHost (fun h => { h with sensors := dies ++ hot ++ [(33, ((d.pow.deviceMw / 1000 : Nat) : Int))], sensorsAt := d.ref })

/-- POWER_BUDGET_TICK (R328, R329). -/
def execPowerBudgetTick (ext : List Nat) (atrium : Nat) (s : State) : Out :=
  runDev s (fun _ _ m =>
    let m := m.reachRef (m.pow.budgetAt + 100000)
    let arrays := (List.range 8).foldl (fun n i => n + (m.dpow i).arrayMw) 0
    let m := m.onPow (fun p => { p with ext := ext, atriumMw := atrium, budgetAt := m.ref, deviceMw := arrays + ext.foldl (· + ·) 0 + atrium })
    let m := m.sensorsRead
    (List.range 8).foldl (fun (e : Dev) i => { e with net := { e.net with ctl := e.net.ctl ++
      [{ cls := .power, toAtrium := false, die := BitVec.ofNat 3 i, body := BitVec.ofNat 64 (dieCapMw e.pow.profile + nthD 0 ext i * 2 ^ 32), agent := .power }] } }) m)

/-- DIE_BUDGET (R329): the die takes its cap and external power and answers. -/
def execDieBudget (d : DieId) (capMw extMw : Nat) (s : State) : Out :=
  runDev s (fun _ _ m =>
    let i := d.toNat
    if !m.runs i then m else
    let m := m.setDpow i (fun p => { p with capMw := capMw, extMw := extMw })
    { m with net := { m.net with ctl := m.net.ctl ++ [{ cls := .power, toAtrium := true, die := d, body := BitVec.ofNat 64 (m.dpow i).arrayMw, agent := .curator }] } })

/-- DIE_REPORT (R329). -/
def execDieReport (d : DieId) (s : State) : Out :=
  runDev s (fun _ _ m =>
    let i := d.toNat
    m.setDpow i (fun p => { p with report := some (p.arrayMw, p.temp, p.p, (vitsOfDie i).map (fun v => (m.vit v).duty0)) }))

/-! ### Hardware limits (R337-R339) -/

/-- Every array of a die takes a stage ceiling, those under a current limit excepted (R89, R337). -/
def Dev.dieCeil (d : Dev) (i n : Nat) : Dev :=
  (coresOfDie i).foldl (fun (e : Dev) c => if (e.eng c).limited.isSome then e else e.setCeil c n) d

/-- Put a die into HARD for a cause (R337). -/
def Dev.enterHard (d : Dev) (i cause reading : Nat) : Dev :=
  let old := (d.dpow i).hard
  let d := d.setDpow i (fun p => { p with hard := true, goal := none, due := false, causes := kset p.causes cause none })
  if old then d
  else
    let d := if (d.dpow i).p == 2 then d else d.setP i 2
    let d := (vitsOfDie i).foldl (fun (e : Dev) v =>
      let e := e.setVit v (fun t => { t with thr := 16 })
      if 16 < (e.vit v).duty0 then (e.throttle v 16 3).fixedDown v else e) d
    (d.dieCeil i (d.rampStages / 2)).post 0x0100 1 i d.emergency reading

/-- A cause of HARD is seen clear: the reference cycle since which it is (R339). -/
def Dev.clearCause (d : Dev) (i cause : Nat) : Dev :=
  let old := d.emergency
  (d.setDpow i (fun p => match kfind p.causes cause with
    | some none => { p with causes := kset p.causes cause (some d.ref) }
    | _ => p)).calm old

/-- TRIP of a die (R337): its regulators turn off and its clocks stop. -/
def Dev.tripDie (d : Dev) (i cause reading : Nat) : Dev :=
  if (d.dpow i).trip.isSome then d
  else ((d.setDpow i (fun p => { p with trip := some cause })).setDie i (fun k => { k with running := false })).post 0x0102 1 i cause reading

/-- A temperature against the limits `hard` and `trip` of a die (R337, R339). -/
def Dev.tempLimits (d : Dev) (i cause tripCause hardAt : Nat) (temp : Int) : Dev :=
  let d := if (hardAt : Int) ≤ temp then d.enterHard i cause temp.toNat else if temp ≤ (hardAt : Int) - 5 then d.clearCause i cause else d
  if 115 ≤ temp then d.tripDie i tripCause temp.toNat else d

/-- DIE_TEMP_LIMIT (R337, R339): a reading of a die's hottest sensor. -/
def execDieTempLimit (d : DieId) (temp : Int) (s : State) : Out :=
  runDev s (fun _ _ m => (m.setDpow d.toNat (fun p => { p with temp := temp })).tempLimits d.toNat 0 0 105 temp)

/-- The refresh band of a temperature: the first row of the refresh curve that reaches it, else the last (R150). -/
def Dev.bandOf (d : Dev) (temp : Int) : Nat :=
  ((List.range 3).find? (fun r => decide (temp ≤ ((d.force 0xA100 1 r % 256 : Nat) : Int)))).getD 2

/-- STACK_TEMP_READ (R151, R337). -/
def execStackTempRead (k : StackId) (temp : Option (BitVec 8)) (s : State) : Out :=
  runDev s (fun _ _ m =>
    let i := k.val / 3
    if !m.runs i && (m.dpow i).trip.isNone then m else
    let q : HStack := kget {} m.hbm.stk k.val
    let m := if m.runs i then m.reachRoot i (8 * (q.readAt + 2 ^ 20)) else m
    let t : Option Int := temp.map (fun b => b.toInt)
    let last := (t :: q.last).take 4
    let up := match t with | some n => m.bandOf n | none => 2
    let okFor (b : Nat) : Bool := last.length == 4 && last.all (fun r => match r with
      | some n => decide (n ≤ ((m.force 0xA100 1 b % 256 : Nat) : Int) - 3)
      | none => false)
    let band := if q.band ≤ up then up else ((List.range q.band).find? okFor).getD q.band
    let m := m.onHbm (fun h => { h with stk := kset h.stk k.val { q with temp := t.getD q.temp, last, band, readAt := m.hbmCycle i } })
    match t with
    | some n => m.tempLimits i (1 + k.val % 3) 1 106 n
    | none => m.post 0x0021 5 k.val)

/-- RAIL_OVERVOLTAGE (R337): the regulator clamps at 900 mV; a condition that persists trips the die. -/
def execRailOvervoltage (d : DieId) (milliVolt : BitVec 16) (persists : Bool) (s : State) : Out :=
  runDev s (fun _ _ m => if 900 ≤ milliVolt.toNat && persists then m.tripDie d.toNat 2 milliVolt.toNat else m)

/-- INPUT_UNDERVOLTAGE (R337, R339): a reading of the 12 V input. -/
def execInputUndervoltage (milliVolt : BitVec 16) (s : State) : Out :=
  runDev s (fun _ _ m =>
    let mv := milliVolt.toNat
    let m : Dev := { m with host := { m.host with vin := mv } }
    if mv < 11000 then (List.range 8).foldl (fun (e : Dev) i => e.enterHard i 4 mv) m
    else if 11300 < mv then (List.range 8).foldl (fun (e : Dev) i => e.clearCause i 4) m
    else m)

/-- Report the regulators of a segment that show a fault, in ascending address (R337, R451). -/
def Dev.alerts (d : Dev) (seg : Nat) (words : List Nat) : Dev :=
  words.zipIdx.foldl (fun (e : Dev) (w : Nat × Nat) =>
    if w.1 != 0 then e.post 0x0104 (if seg < 8 then 1 else 0) (if seg < 8 then seg else 0) (0x40 + w.2) w.1 else e) d

/-- Regulators of a segment (R451). -/
def segRegs (seg : Nat) : Nat := if seg < 8 then 7 else 3

/-- REGULATOR_ALERT (R337): HARD of the segment's die, or EMERGENCY_STATE bit 3 for the Atrium's. -/
def execRegulatorAlert (seg : Fin 9) (words : List (BitVec 16)) (s : State) : Out :=
  runDev s (fun _ _ m =>
    let m := if seg.val < 8 then m.enterHard seg.val 5 0 else m.onPow (fun p => { p with atriumAlert := true })
    m.alerts seg.val ((words.map (·.toNat)).take (segRegs seg.val)))

/-- REGULATOR_STATUS_POLL (R339): the alert is clear once the line is released and no status word shows a fault. -/
def execRegulatorStatusPoll (seg : Fin 9) (words : List (BitVec 16)) (released : Bool) (s : State) : Out :=
  runDev s (fun _ _ m =>
    let ok := released && words.all (fun w => w == 0)
    if seg.val < 8 then
      match kfind (m.dpow seg.val).causes 5 with
      | none => m
      | some _ => if ok then m.clearCause seg.val 5 else m.setDpow seg.val (fun p => { p with causes := kset p.causes 5 none })
    else if ok && m.pow.atriumAlert then (m.onPow (fun p => { p with atriumAlert := false })).calm m.emergency
    else m)

/-- REGULATOR_SILENT (R451): treated as an alert whose regulators all read 0xFFFF. -/
def execRegulatorSilent (d : DieId) (s : State) : Out :=
  runDev s (fun _ _ m => (m.enterHard d.toNat 5 0).alerts d.toNat (List.replicate 7 0xFFFF))

/-- HARD_LIMIT_EXIT (R339): every cause has been clear for 100,000 reference cycles. -/
def execHardLimitExit (d : DieId) (s : State) : Out :=
  runDev s (fun _ _ m =>
    let i := d.toNat
    let p := m.dpow i
    if !p.hard || p.causes.any (fun e => e.2.isNone) then m
    else
      let old := m.emergency
      let m := m.reachRef (p.causes.foldl (fun n e => max n (e.2.getD 0)) 0 + 100000)
      let m := m.setDpow i (fun q => { q with hard := false, causes := [] })
      ((m.dieCeil i m.rampStages).post 0x0101 1 i m.emergency).calm old)

/-- ARRAY_CEILING_RELEASE (R337, R89): the 1,024 core cycles of a current limit have passed. -/
def execArrayCeilingRelease (c : CoreId) (s : State) : Out :=
  runDev s (fun _ _ d =>
    let i := dieOfCore c
    match (d.eng c).limited with
    | some t => if d.runs i then
        (d.reach i t).setEng c (fun e => { e with limited := none, ceil := if (d.dpow i).hard then d.rampStages / 2 else d.rampStages }) else d
    | none => d)

/-! ### Margin and trim (R344, R345) -/

/-- The trim steps TRIM_CURVE expects at a number of hours (R346): those of the last row it has reached. -/
def Dev.trimExpected (d : Dev) (hours : Nat) : Nat :=
  (List.range 16).foldl (fun n r =>
    let row := d.force 0xA200 1 r
    if row % 2 ^ 32 ≤ hours && (r == 0 || row != 0) then row / 2 ^ 32 else n) 0

/-- MARGIN_CHECK (R344, R345). -/
def execMarginCheck (d : DieId) (short : Bool) (s : State) : Out :=
  runDev s (fun _ _ m =>
    let i := d.toNat
    if !m.runs i then m else
    let m := m.reachRef ((m.dpow i).marginAt + 2 ^ 36)
    let m := m.setDpow i (fun p => { p with marginAt := m.ref })
    if !short then m
    else
      let lim := m.force 0x2000 8 0
      let t := (m.dpow i).trim
      if t < lim then
        let h := m.rel.hours
        let m := m.setDpow i (fun p => { p with trim := t + 1, hist := p.hist ++ [(h, t + 1)] })
        let m := (m.post 0x0106 1 i (t + 1) h).changed 0
        if m.trimExpected h < t + 1 then m.post 0x0107 1 i (t + 1) (m.trimExpected h) else m
      else if (m.dpow i).worn then m
      else
        let m := (m.setDpow i (fun p => { p with worn := true })).post 0x0108 1 i t
        let m := if (m.dpow i).p == 0 then m.setP i 1 else m
        (vitsOfDie i).foldl (fun (e : Dev) v =>
          if (e.vit v).cls == 1 && 42 < (e.vit v).duty0 then (e.throttle v 42 4).fixedDown v else e) m)

/-! ### Pace notices (R252, R341, R342) -/

/-- The devices marked in FABRIC_MEMBERS of a Vitrine (R257). -/
def Dev.members (d : Dev) (l : VitId) : List DevId :=
  let base := (0x300A + l.toNat * 16) * 256 + 1
  (d.cat.force.filter (fun e => e.1 / 65536 == base)).flatMap (fun e =>
    (List.range 32).filterMap (fun k => if fld e.2 k 1 == 1 then some (BitVec.ofNat 16 (e.1 % 65536 * 32 + k)) else none))

/-- CLOCK_FRACTION of a duty as sent (R252, R341). -/
def paceFraction (q : Nat) : Nat := min 0xFFFF (65536 * q / 64)

/-- Full duty of a Vitrine: 64, or LOCKED_DUTY0 in the FIXED class (R341). -/
def Dev.fullDuty (d : Dev) (v : VitId) : Nat := if (d.vit v).cls == 1 then d.locked d.pow.profile else 64

/-- The leader sends the tenancy's state to every member (R341): the lowest DUTY0 and the reason of that Vitrine's latest change. -/
def Dev.sendPace (d : Dev) (l : VitId) : Dev :=
  let vs := d.tenancy l
  let low := vs.foldl (fun (b : VitId) v => if (d.vit v).duty0 < (d.vit b).duty0 then v else b) l
  let reason := if vs.all (fun v => d.fullDuty v ≤ (d.vit v).duty0) then 0 else (d.vit low).pace.reason
  let seq := (d.vit l).pace.seq + 1
  let d := d.setVit l (fun t => { t with pace := { t.pace with seq := seq, sentAt := some d.ref, unsent := false } })
  let body := BitVec.ofNat 64 (paceFraction (d.vit low).duty0 * 2 ^ 48 + reason % 16 * 2 ^ 44 + seq.toNat * 2 ^ 12)
  (d.members l).foldl (fun (e : Dev) dest =>
    (e.sendFree (e.sameTenancy l) { e.opHead l dest .pace with operand1 := body }).count 0x2020 4 l.toNat) d

/-- PACE_SEND (R252, R341): at most one notice per 1,000 reference cycles. -/
def execPaceSend (v : VitId) (s : State) : Out :=
  runDev s (fun _ _ d =>
    let p := (d.vit v).pace
    if p.unsent && (match p.sentAt with | some t => decide (t + 1000 ≤ d.ref) | none => true) then d.sendPace v else d)

/-- PACE_LATEST_STATE_SEND (R252): the spacing has run out and the latest state is sent. -/
def execPaceLatestStateSend (v : VitId) (s : State) : Out :=
  runDev s (fun _ _ d =>
    let p := (d.vit v).pace
    match p.unsent, p.sentAt with
    | true, some t => (d.reachRef (t + 1000)).sendPace v
    | _, _ => d)

/-- PACE_RECEIVE (R252, R341, R342): a notice of the tenancies of its group, from a member, of no lower epoch and with a higher PACE_SEQ. -/
def execPaceReceive (op : ROp) (s : State) : Out :=
  runDev s (fun _ _ d =>
    if op.dest != d.devId || op.type != .pace then d
    else
      let d := (List.range 96).foldl (fun (e : Dev) l => if (e.link l).ingress.contains op || e.fab.loop.contains op then e.acceptOp l op else e) d
      let frac := fld op.operand1.toNat 48 16
      let reason := fld op.operand1.toNat 44 4
      let seq := BitVec.ofNat 32 (op.operand1.toNat / 2 ^ 12)
      let leaders := (vitsOf (BitVec.allOnes 32)).filter (fun v => (d.vit v).leader == some v && (d.vit v).held && d.group v == op.group && op.group != 0)
      leaders.foldl (fun (e : Dev) l =>
        let old := (e.vit l).pace.heldFrom.find? (fun h => h.1 == op.src)
        let newer := match old with | some h => decide (h.2.1.toNat < seq.toNat) | none => true
        if op.epoch.toNat < (e.epoch l).toNat || !(e.members l).contains op.src || !newer then e
        else
          let e := e.setVit l (fun t => { t with pace := { t.pace with
                                                           heldFrom := t.pace.heldFrom.filter (fun h => h.1 != op.src) ++ [(op.src, seq, frac, reason)] } })
          let e := e.count 0x2020 5 l.toNat
          if (e.vit l).cls == 1 && (reason == 3 || reason == 4) then e.postVit 0x0013 l op.src.toNat frac else e) d)

end Sys2Proof.Machine
end

