-- ==== Sys2Proof/Machine/Tenancy.lean ====
section
/-! DEFINITION. Tenancies (R259-R262, R291), rings, doorbells and descriptor fetch (R263-R268), and the disable of a ring (R289). -/

namespace Sys2Proof.Machine

/-! ### Catalogue statuses (R307) -/

def stOk : Nat := 0
def stProgress : Nat := 1
def stRange : Nat := 2
def stBusy : Nat := 3
def stAccess : Nat := 4
def stNoEntry : Nat := 5
def stLength : Nat := 6
def stSealed : Nat := 7
def stNotAssigned : Nat := 8
def stPin : Nat := 9
def stSequence : Nat := 10
def stMalformed : Nat := 11
def stOutOfService : Nat := 12
def stNoTxn : Nat := 13

/-! ### Commands of a tenancy -/

/-- A row of TENANCY_CMD_STATUS (R295). -/
def Dev.setCmd (d : Dev) (l : VitId) (command status : Nat) (needed : Nat := 0) : Dev :=
  d.onSrv (fun s => { s with cmd := kset s.cmd l.toNat { command, status, needed } })
/-- A command of a tenancy completes: its row and the event TENANCY_COMMAND (R317). -/
def Dev.endCmd (d : Dev) (l : VitId) (command status : Nat) (needed : Nat := 0) : Dev :=
  (d.setCmd l command status needed).postVit 0x0003 l command status
def Dev.crate (d : Dev) (l : VitId) : CrateSt := kget {} d.srv.crate l.toNat
def Dev.setCrate (d : Dev) (l : VitId) (c : CrateSt) : Dev := d.onSrv (fun s => { s with crate := kset s.crate l.toNat c })
/-- Whether a Vitrine leads a tenancy. -/
def Dev.leads (d : Dev) (l : VitId) : Bool := (d.vit l).leader == some l

/-- Free the ALIAS rows of fabric groups that no Vitrine of the device holds any longer (R255). -/
def Dev.freeAlias (d : Dev) : Dev :=
  d.onFab (fun b => { b with aliases := b.aliases.filter (fun a =>
    (List.range 32).any (fun i => let v := BitVec.ofNat 5 i; (d.vit v).held && d.group v == a.1)) })

/-- Clear a Vitrine (R41, R162, R192, R261): its storage, window and Gallery share read zero, its lines, stores and pins are gone, its
Vitrine-scope entries are at their defaults and its rings are disabled. -/
def X.clearVit (x : X) (v : VitId) : X :=
  let x := (coresOfVit v).foldl (fun (y : X) c => y.op (.zero .scr (c * 2 ^ 19) (2 ^ 19))) x
  let x := (clusOfVit v).foldl (fun (y : X) k => y.op (.zero .clus (k * 2 ^ 24) (2 ^ 24))) x
  let x := (x.op (.zero .hbm (v.toNat * 2 ^ 36) windowBytes)).op (.clean false (v.toNat * 2 ^ 30) (windowBytes / 64))
  let p := padBase + v.toNat * 2 ^ 27
  let x := (x.op (.zero .pad p (2 ^ 27))).op (.clean true (p / 64) (2 ^ 21))
  x.on (fun d =>
    let d := (slicesOfVit v).foldl (fun (e : Dev) g => e.setSlice g (fun s => { s with lines := [], ops := [], streams := [], changing := false, pvChanging := false })) d
    let d := (coresOfVit v).foldl (fun (e : Dev) c => e.setCore (BitVec.ofNat 9 c) (fun k =>
      { tick := k.tick, eng := { ceil := k.eng.ceil, limited := k.eng.limited } })) d
    let d := (clusOfVit v).foldl (fun (e : Dev) k => e.setClu k (fun _ => {})) d
    let d := (d.vitDefaults v).count 0x8014 2 v.toNat (windowBytes / 64)
    let d := d.setVit v (fun t => { st := t.st, leader := t.leader, duty0 := t.duty0, thr := t.thr, dutyBase := t.dutyBase, clkBase := t.clkBase,
                                    arrayMw := t.arrayMw, attrMw := t.attrMw, missAt := t.missAt, pvKey := t.pvKey })
    let d := d.onSrv (fun s => { s with rings := kdrop (fun k => k / 2048 == v.toNat) s.rings,
                                        ranges := s.ranges.filter (fun r => r.v != v) })
    let d := d.onFab (fun b => { b with tags := kdrop (fun k => k / 65536 == v.toNat) b.tags, ops := b.ops.filter (fun o => o.v != v),
                                        ins := b.ins.filter (fun i => vitOfCore i.core != v) })
    { d with msgs := d.msgs.filter (fun m => vitOfAddr (m.line * 128) != v) }.freeAlias)

/-- TENANCY_ASSIGN (R260, R261, R309). -/
def X.doAssign (x : X) (mask : Word) : X × Nat :=
  let vs := vitsOf mask
  if !x.dev.cat.ready then (x, stBusy)
  else if !([1, 2, 4, 8, 16, 32].contains vs.length) then (x, stRange)
  else if vs.any (fun v => (x.dev.vit v).st != .unassigned) then (x, stBusy)
  else
    let l := vs.headD 0
    (x.on (fun d => (vs.foldl (fun (e : Dev) v => (e.setVit v (fun t => { t with leader := some l })).vitState v .clearing) d).setCmd l 1 1), stProgress)

/-- Whether every ring of a tenancy is disabled and no step of it remains (R289, R291). -/
def Dev.drained (d : Dev) (l : VitId) : Bool :=
  (d.tenancy l).all (fun v => d.srv.rings.all (fun e => e.1 / 2048 != v.toNat || e.2.st == .disabled)) &&
  !d.srv.steps.any (fun s => s.leader == l) && !d.srv.media.any (fun m => match m.2.cur with
    | some (v, _, _) => (d.vit v).leader == some l
    | none => false)

/-- CLEARING_DONE (R261, R291): a Vitrine being assigned enters ASSIGNED; one of a drained tenancy that is being deaccessioned leaves it. -/
def execClearingDone (v : VitId) (s : State) : Out :=
  run s (fun x =>
    match (x.dev.vit v).st, (x.dev.vit v).leader with
    | .clearing, some l =>
      let x := (x.clearVit v).on (fun d => (d.clearCounters v).vitState v .assigned)
      if (x.dev.tenancy l).all (fun w => (x.dev.vit w).st == .assigned) then x.on (fun d => d.setCmd l 1 0) else x
    | .deaccessioning, some l =>
      if !x.dev.drained l then x
      else
        let x := (x.clearVit v).on (fun d => { d with host := { d.host with vfOff := putBit d.host.vfOff v.toNat true } })
        let st : VitSt := if x.dev.rel.withdrawn.getLsbD v.toNat then .withdrawn
          else if x.dev.isFenced (dieOfVit v) || x.dev.rel.noWindow.getLsbD v.toNat then .outOfService else .unassigned
        let x := x.on (fun d => (d.setVit v (fun t => { t with leader := none })).vitState v st)
        if (x.dev.tenancy l).isEmpty then x.on (fun d => (((d.setJob l (fun _ => {})).setCrate l {}).endCmd l 2 0)) else x
    | _, _ => x)

/-! ### Doorbells (R262, R264) -/

/-- SQ_TAIL (R264). -/
def execSqTail (v : VitId) (r : RingId) (val : Word) (s : State) : Out :=
  run s (fun x =>
    let q := x.dev.ring v r.toNat
    if !(x.dev.vit v).held || q.st != .enabled || (q.type == 2 && q.docentFed) then x
    else
      let ahead := diff32 val q.sqHead
      if ahead ≤ q.size && diff32 q.sqTail q.sqHead < ahead then
        x.on (fun d => (d.setRing v r.toNat (fun q => { q with sqTail := val, bells := q.bells ++ [(val, d.srv.bells)] })).onSrv
          (fun s => { s with bells := s.bells + 1 }))
      else if (val - q.sqTail).toInt ≤ 0 then x.on (fun d => d.count 0x801A 5 v.toNat)
      else
        let x := x.on (fun d => (d.count 0x801A 6 v.toNat).postVit 0x0033 v r.toNat val.toNat)
        match (x.dev.vit v).leader with
        | some l => x.ringEvent l 0x84 r.toNat
        | none => x)

/-- CQ_HEAD (R264). -/
def execCqHead (v : VitId) (r : RingId) (val : Word) (s : State) : Out :=
  runDev s (fun _ _ d =>
    let q := d.ring v r.toNat
    let n := diff32 val q.cqHead
    if (d.vit v).held && q.st != .disabled && 1 ≤ n && n ≤ diff32 q.cqTail q.cqHead then
      d.setRing v r.toNat (fun q => { q with cqHead := val })
    else d)

/-! ### Ring configuration (R263, R289) -/

/-- The fields of RING_CONFIG that may change while ENABLE = 1: ENABLE, DISABLE_MODE and INTR_EN (R263). -/
def ringFree : BitVec 128 := BitVec.ofNat 128 (7 * 2 ^ 28)

/-- R263's placement of an enabled ring's queues. -/
def Dev.ringOk (d : Dev) (l : VitId) (q : Ring) : Bool :=
  4 ≤ q.log2 && q.log2 ≤ 16 && q.sqBase % 4096 == 0 && q.cqBase % 4096 == 0 &&
  d.validWin l q.sqBase (64 * q.size) && d.validWin l q.cqBase (16 * q.size) &&
  (q.sqBase + 64 * q.size ≤ q.cqBase || q.cqBase + 16 * q.size ≤ q.sqBase)

/-- Begin to disable a ring (R289, R290): under SQUASH its step is squashed or discarded, requests in progress stop, and every other
fetched descriptor completes SQUASHED. -/
def X.disableRing (x : X) (v : VitId) (r : Nat) (squash : Bool) : X :=
  let x := x.on (fun d => d.setRing v r (fun q => { q with st := .disabling, offTail := q.sqTail, offSquash := squash,
                                                           cfg := putBit q.cfg 30 false }))
  if !squash then x
  else
    let mine := x.dev.srv.steps.filter (fun s => s.ringVit == v && s.ring == r)
    let x := mine.foldl (fun (y : X) s =>
      if s.st == .saved then
        let y := y.on (fun d => (d.onSrv (fun q => { q with steps := delFirst (fun t => s.same t) q.steps })).count 0x801A 1 s.leader.toNat)
        y.complete s.ringVit s.ring s.seq 7 (s.recs.length + s.unanswered * 65536)
      else y.on (fun d => d.squashStep s 7)) x
    let busy (d : Dev) (q : Ring) (f : Fetched) : Bool :=
      match q.type with
      | 0 => d.srv.steps.any (fun s => s.ringVit == v && s.ring == r && s.seq == f.seq)
      | 1 => f.started
      | _ => d.srv.media.any (fun m => m.2.cur == some (v, r, f.seq))
    let x := x.on (fun d =>
      let q := d.ring v r
      (d.squashOps v r).setRing v r (fun p => { p with fetched := p.fetched.map (fun f =>
        match f.done with
        | some _ => f
        | none => if busy d q f then { f with ends := f.ends ++ [7] }
                  else { f with done := some (7, if q.type == 2 then f.frames else f.moved) }) }))
    x.flushRing v r

/-- End a ring's use by a deaccession or a function-level reset (R289, R291, R445): an enabled ring is disabled, a draining one is
squashed where SQUASH is asked. -/
def X.endRing (x : X) (v : VitId) (r : Nat) (squash : Bool) : X :=
  match (x.dev.ring v r).st with
  | .enabled => x.disableRing v r squash
  | .disabling => if squash && !(x.dev.ring v r).offSquash then
      (let t := (x.dev.ring v r).offTail
       (x.disableRing v r true).on (fun d => d.setRing v r (fun q => { q with offTail := t }))) else x
  | .disabled => x

/-- A row of RING_CONFIG is written (R263). -/
def X.doRingConfig (x : X) (v : VitId) (r : Nat) (row : BitVec 128) : X × Nat :=
  let q := x.dev.ring v r
  let row := row &&& ~~~(BitVec.ofNat 128 (2 ^ 26 - 1))
  let new : Ring := { cfg := row }
  match q.st with
  | .disabling => (x, stBusy)
  | .enabled =>
    if (row &&& ~~~ringFree) != (q.cfg &&& ~~~ringFree) then (x, stBusy)
    else
      let x := x.on (fun d => d.setRing v r (fun q => { q with cfg := row }))
      (if row.getLsbD 30 then x else x.disableRing v r (row.getLsbD 29), stOk)
  | .disabled =>
    if new.type == 3 then (x, stRange)
    else if row.getLsbD 30 then
      match (x.dev.vit v).leader with
      | some l => if x.dev.ringOk l new then (x.on (fun d => d.setRing v r (fun _ => { new with st := .enabled })), stOk) else (x, stRange)
      | none => (x, stRange)
    else (x.on (fun d => d.setRing v r (fun q => { q with cfg := row })), stOk)

/-- RING_DISABLE_DONE (R289): every descriptor up to the tail at the disable has a CQ entry. -/
def execRingDisableDone (v : VitId) (r : RingId) (s : State) : Out :=
  runDev s (fun _ _ d =>
    let q := d.ring v r.toNat
    if q.st == .disabling && q.sqHead == q.offTail && q.fetched.isEmpty then d.setRing v r.toNat (fun q => { q with st := .disabled, bells := [] }) else d)

/-- TENANCY_DEACCESSION (R291, R401): every Vitrine enters DEACCESSIONING, its lock ends, and every ring is disabled in the mode; the rings of a tenancy whose
job cannot run again are squashed. -/
def X.doDeaccession (x : X) (leader : Byte) (squash : Bool) : X × Nat :=
  let l : VitId := BitVec.ofNat 5 leader.toNat
  if 32 ≤ leader.toNat || !x.dev.leads l then (x, stRange)
  else if (x.dev.tenancy l).any (fun v => (x.dev.vit v).st == .clearing || (x.dev.vit v).st == .deaccessioning) then (x, stBusy)
  else
    let squash := squash || (x.dev.job l).st == 4 || (x.dev.job l).st == 5
    let vs := x.dev.tenancy l
    let x := x.on (fun d => vs.foldl (fun (e : Dev) v =>
      let e := e.vitState v .deaccessioning
      if (e.vit v).tspLocked then (e.setVit v (fun t => { t with tspLocked := false })).postVit 0x0306 v v.toNat 0 else e) (d.setCrate l {}))
    let x := vs.foldl (fun (y : X) v => (y.dev.ringsOf v).foldl (fun (z : X) r => z.endRing v r squash) y) x
    (x.on (fun d => d.setCmd l 2 1), stProgress)

/-! ### Descriptor fetch (R266, R268) -/

/-- The opcodes of a ring's TYPE (R267). -/
def opAllowed (type op : Nat) : Bool :=
  match type with
  | 0 => op == 1 || op == 2
  | 1 => 0x10 ≤ op && op ≤ 0x14
  | 2 => 0x20 ≤ op && op ≤ 0x23
  | _ => false

/-- The media engine a MEDIA ring of a Vitrine is bound to (R263). -/
def engineOf (v : VitId) (q : Ring) : Nat := 2 * dieOfVit v + q.engine
def Dev.media (d : Dev) (e : Nat) : Media := kget {} d.srv.media e
def Dev.setMedia (d : Dev) (e : Nat) (f : Media → Media) : Dev := d.onSrv (fun s => { s with media := kupd {} s.media e f })

/-- Whether a Vitrine's Docent works on its tenancy's rings: its die runs, it does not restart, no freeze, halt or job end stops it (R292, R358,
R364, R418). -/
def Dev.serves (d : Dev) (v : VitId) : Bool :=
  d.runs (dieOfVit v) && (d.proc (2 + dieOfVit v)).st != 1 && (d.vit v).halt == 0 && (match (d.vit v).leader with
    | some l => d.jobRuns l
    | none => false)

/-- An unfinished poisoned read of a Docent ends the job (R356, R358). -/
def X.docentPoison (x : X) (v : VitId) (addr : Nat) : X :=
  let (n, d) := x.dev.draw
  (X.on { x with dev := d } (fun d => d.count 0x6050 2 v.toNat)).uncorrected
    { ukind := 9, unit := 2 + dieOfVit v, cls := (Config.classless n).toNat, outcome := 2, vit := some v, die := dieOfVit v, addr, akind := 1 }

/-- DESCRIPTOR_FETCH (R266, R268, R274, R282, R284): a descriptor is fetched while a CQ entry is free and its ring's engine takes more. -/
def execDescriptorFetch (v : VitId) (r : RingId) (s : State) : Out :=
  run s (fun x =>
    let q := x.dev.ring v r.toNat
    let d := x.dev
    let tail := if q.st == .disabling then q.offTail else q.sqTail
    let squashing := q.st == .disabling && q.offSquash
    let frozen := match (d.vit v).leader with | some l => (d.crate l).freezing | none => true
    let alive := (q.fetched.filter (fun f => f.done.isNone)).length
    let room := match q.type with
      | 0 => alive < 1
      | 1 => alive < 8
      | _ => alive < 4 && (d.media (engineOf v q)).admin == 0
    let st := (d.vit v).st
    if q.st == .disabled || q.sqHead == tail || q.cqFree == 0 || frozen || !(st == .assigned || st == .deaccessioning) || !d.runs (dieOfVit v) then x
    else if !squashing && !(d.serves v && room) then x
    else
      let a := q.sqBase + 64 * (q.sqHead.toNat % q.size)
      let (x, n, bad) := x.readNat a 64
      let raw := BitVec.ofNat 512 n
      let bell := ((q.bells.head?).map (·.2)).getD 0
      let seq := descSeq raw
      let gap := diff32 seq q.nextSeq
      let status : Option Nat :=
        if squashing then some 7
        else if bad then some 6
        else if 2 ^ 31 ≤ gap then some 1
        else if gap != 0 then some 2
        else if !opAllowed q.type (descOp raw) then some 3
        else none
      let x := x.on (fun d => d.setRing v r.toNat (fun q =>
        { q with sqHead := q.sqHead + 1, bells := (match q.bells with
                   | (t, b) :: rest => if t == q.sqHead + 1 then rest else (t, b) :: rest
                   | [] => []),
                 nextSeq := if gap == 0 then q.nextSeq + 1 else q.nextSeq,
                 fetched := q.fetched ++ [{ seq, raw, at' := d.ref, bell, ord := d.srv.fetchNo, done := status.map (fun k => (k, 0)) }] }))
      let x := x.on (fun d => d.onSrv (fun s => { s with fetchNo := s.fetchNo + 1 }))
      let x := if status == some 1 then x.on (fun d => d.count 0x801A 4 v.toNat) else x
      let x := x.flushRing v r.toNat
      if bad && !squashing then x.docentPoison v a else x)

end Sys2Proof.Machine
end

