-- ==== Sys2Proof/Machine/Walkers.lean ====
section
/-! DEFINITION. Walkers (R113-R129) and Provenance (R130-R138). -/

namespace Sys2Proof.Machine

/-! ### Walker instructions (R114, R115, R123) -/

/-- The arming numbers of a context that serve a block's queued or executing instructions (R115). -/
def Engine.armed (e : Engine) (slot : Nat) (w : Walker) : List Nat :=
  let all := e.queue ++ e.runs.map (·.ins) ++ (match e.xfer with | some (i, _) => [i] | none => []) ++ e.sign.toList
  (all.filterMap (fun i =>
    if i.owner.slot != slot then none
    else match i.op, w with
      | .mma .., .a => some i.ra.arm
      | .mma .., .b => some i.rb.arm
      | .sign _, .a => some i.ra.arm
      | .store .., .o => some i.ra.arm
      | .ldacc .., .o => some i.ra.arm
      | _, _ => none)).dedup

/-- WK.ARM (R115, R122): the descriptor is read once the thread's earlier stores are performed, and checked; the context is
left unchanged by any exception. -/
def execWkArm (g : GRef) (w : Walker) (space : Space) (ra : Byte) (s : State) : Out :=
  onX s g (fun b q p x => x.withRegs g b p (addrRegs space ra.toNat) (fun x =>
    let c := g.core
    let lane := lowLane p.mask
    let a := laneAddr q space ra.toNat 0 lane
    let exc (code addr : Nat) : X := x.raise g { code, lanes := bit1 32 lane, pc := p.pc, addr, space := spaceCode space }
    let stores := (x.dev.core c).ops.any (fun o => o.writes && o.owner.slot == g.slot.toNat && o.owner.grp == g.grp.toNat && o.accs.any (fun k => k.lane == lane))
    let e := x.dev.eng c
    let used := e.armed g.slot.toNat w
    if stores || 2 ≤ used.length then x
    else if a % 128 != 0 then exc 0x02 a
    else
      let bad : Option (Nat × Nat) := match space with
        | .global => if x.dev.valid b.leader a 128 then none else some (0x01, x.dev.firstBad b.leader a 128)
        | _ =>
          let m := x.dev.localSize c b (spaceCode space)
          if a + 128 ≤ m then none else some (0x03, max a m)
      match bad with
      | some (code, addr) => exc code addr
      | none =>
        let (x, bs, poison) := x.readSpace c b.scrGran b.clusGran (spaceCode space) a 128
        let desc := BitVec.ofNat 1024 (leNat bs)
        if poison then x.raise g { code := 0x45, lanes := bit1 32 lane, pc := p.pc, addr := a, space := spaceCode space }
        else match x.dev.descBad c b w desc with
          | some none => x.raise g { code := 0x0A, lanes := bit1 32 lane, pc := p.pc }
          | some (some (sp, addr)) => x.raise g { code := 0x0A, lanes := bit1 32 lane, pc := p.pc, addr, space := sp }
          | none =>
            (x.updBlk g (fun b => { b.setCtx w { desc, arm := b.nextArm } with nextArm := b.nextArm + 1 })).enqueue g b p (.arm w)))

/-- Change a context, if it is armed. -/
def Block.updCtx (b : Block) (w : Walker) (f : WkCtx → WkCtx) : Block :=
  match b.ctx w with
  | some k => b.setCtx w (f k)
  | none => b

/-- WK.MARK (R114). -/
def execWkMark (g : GRef) (w : Walker) (s : State) : Out :=
  onX s g (fun b _ p x => (x.updBlk g (fun b => b.updCtx w (fun k => { k with mark := k.pos }))).enqueue g b p (.mark w))

/-- WK.REWIND (R114). -/
def execWkRewind (g : GRef) (w : Walker) (s : State) : Out :=
  onX s g (fun b _ p x => (x.updBlk g (fun b => b.updCtx w (fun k => { k with pos := k.mark }))).enqueue g b p (.rewind w))

/-- WK.SKIP (R114). -/
def execWkSkip (g : GRef) (w : Walker) (rn : Byte) (s : State) : Out :=
  onX s g (fun b q p x => x.withRegs g b p [rn.toNat] (fun x =>
    let n := (q.reg rn.toNat (lowLane p.mask)).toNat
    (x.updBlk g (fun b => b.updCtx w (fun k => { k with pos := k.pos + n }))).enqueue g b p (.skip w)))

/-- WK.SIGN (R123, R133): the signature register of context A awaits the signature of its next 32 x kb positions; the instruction carries its number in
`known`. -/
def execWkSign (g : GRef) (rk : Byte) (s : State) : Out :=
  onX s g (fun b q p x => x.withRegs g b p [rk.toNat] (fun x =>
    let kb := (q.reg rk.toNat (lowLane p.mask)).toNat
    match b.ctxA with
    | none => x.matrixExc g p 0x0B
    | some a =>
      let scaled := (dFmt a.desc).any Fmt.scaled
      if kb < 1 || 2048 < kb || !dActivation a.desc || !dStable a.desc || (scaled && a.pos % 32 != 0) || a.left < 32 * kb then
        x.matrixExc g p 0x0B
      else
        let on := x.dev.vset (vitOfCore g.core) 5 1 == 1
        let reg : Option SigReg := if on then some { pos := a.pos, kb, sign := b.nextArm, val := none } else none
        (x.updBlk g (fun b => { b.setCtx .a { a with sig := reg } with nextArm := b.nextArm + 1 })).enqueue g b p (.sign kb) a.ref {} on
          (some b.nextArm)))

/-- PV.INVAL (R114, R135). -/
def execPvInval (g : GRef) (rt : Byte) (s : State) : Out :=
  onX s g (fun b q p x => x.withRegs g b p [rt.toNat] (fun x =>
    x.enqueue g b p (.pvInval (q.reg rt.toNat (lowLane p.mask)))))

/-! ### Granules and segments (R119-R121, R124, R125) -/

/-- Whole k-blocks that a 4 KiB segment holds (R125). -/
def perSeg (f : Fmt) : Nat := max 1 (4096 / (256 * f.width + (if f.scaled then 64 else 0)))

/-- The address of a lane's scale byte for the k-block that begins at position q; none stands for 127 (R121), which the model also takes, without a read, for a
lane beyond the LANE product in PARALLEL mode (DESIGN CHOICE, log 73). -/
def scaleAddr (d : BitVec 1024) (ds : List Dim) (q lane : Nat) : Option Nat :=
  if dParallel d then
    if dLanes d ≤ lane then none
    else ((List.range 32).findSome? (fun k => offAt ds (q + k) lane 0)).map (fun e => ((dScaleBase d : Int) + e / 32).toNat)
  else some (dScaleBase d + 64 * (q / 32) + lane)

/-- The granules, space and number, that the k-block at position q holds elements or scales in, each once (R124). -/
def granules (d : BitVec 1024) (f : Fmt) (q : Nat) : List (Nat × Nat) :=
  let ds := dDims d
  let lanes := min 64 (dLanes d)
  let el := (List.range 32).flatMap (fun k => (List.range lanes).flatMap (fun l =>
    match offAt ds (q + k) l 0 with
    | none => []
    | some e => let (a, m) := elemSpan (dBase d) f.width e; [(dSpace d, a / 64), (dSpace d, (a + m - 1) / 64)]))
  let sc := if f.scaled then
      (List.range 64).filterMap (fun l => (scaleAddr d ds q l).map (fun a => (dScaleSpace d, a / 64)))
    else []
  (el ++ sc).dedup

/-- The granules of one tile of an MX.LDACC. -/
def tileGranules (d : BitVec 1024) (f : Fmt) (q : Nat) : List (Nat × Nat) :=
  let ds := dDims d
  ((List.range (min 64 (dLanes d))).flatMap (fun r => (List.range (min 64 (dCols d))).flatMap (fun c =>
    match offAt ds q r c with
    | none => []
    | some e => let (a, m) := elemSpan (dBase d) f.width e; [(dSpace d, a / 64), (dSpace d, (a + m - 1) / 64)]))).dedup

/-- A byte of the granules received. -/
def gotByte (got : KMap (BitVec 512)) (sp a : Nat) : Byte := ((kget 0 got (sp * 2 ^ 48 + a / 64)) >>> (8 * (a % 64))).setWidth 8

/-- The code of the element at offset e (R94). -/
def gotElem (d : BitVec 1024) (f : Fmt) (got : KMap (BitVec 512)) (e : Int) : Nat :=
  let (a, m) := elemSpan (dBase d) f.width e
  let s := (elemByte (dBase d) f.width e).2
  fld (leNat ((List.range m).map (fun i => gotByte got (dSpace d) (a + i)))) s f.width

/-- The segment of `n` k-blocks from k-block kb of an instruction whose range starts at position q0. -/
def segOf (d : BitVec 1024) (f : Fmt) (id q0 kb n : Nat) (got : KMap (BitVec 512)) (at' : Nat) : Seg :=
  let ds := dDims d
  let q := q0 + 32 * kb
  { id, kb, n, at',
    elems := (List.range (32 * n * 64)).map (fun i =>
      if dLanes d ≤ i % 64 then none else (offAt ds (q + i / 64) (i % 64) 0).map (gotElem d f got)),
    scales := if f.scaled then
        (List.range (n * 64)).map (fun i => match scaleAddr d ds (q + 32 * (i / 64)) (i % 64) with
          | some a => (gotByte got (dScaleSpace d) a).toNat
          | none => 127)
      else [] }

/-- Read one granule for an instruction: its contents, and an address fault or poison (R126, R356). GLOBAL reads pass the
home's watchpoints (R419). -/
def X.readGranule (x : X) (c : CoreId) (w : Walker) (i : EInstr) (sp gr : Nat) : X × BitVec 512 × Option (Bool × Nat) :=
  let a := gr * 64
  match x.dev.eblk c i.owner.slot with
  | none => (x, 0, none)
  | some b =>
    let x := x.on (fun d => d.profile (vitOfCore c) 5 1)
    if sp = 1 then
      if !x.dev.valid i.leader a 64 then (x, 0, some (false, a))
      else
        let x := x.on (fun d => (d.watch (vitOfAddr a) 2 a 64 c.toNat).1)
        let (x, bs, poison) := x.readBytes a 64 (some (.walker c w))
        (x, BitVec.ofNat 512 (leNat bs), if poison then some (true, a) else none)
    else
      let (x, bs, _) := x.readSpace c b.scrGran b.clusGran sp a 64
      (x, BitVec.ofNat 512 (leNat bs), none)

def Engine.wk (e : Engine) : Walker → WkUnit
  | .a => e.wa | .b => e.wb | .o => e.wo
def Engine.setWk (e : Engine) (w : Walker) (u : WkUnit) : Engine :=
  match w with
  | .a => { e with wa := u } | .b => { e with wb := u } | .o => { e with wo := u }

/-- The instruction a walker serves next: the first in queue order with k-blocks still to fetch. An MX.MMA that presents a signature is not fetched before its
lookup misses (R133), and none behind it is fetched before (R125). -/
def Engine.toFetch (e : Engine) (w : Walker) : Option EInstr :=
  match w with
  | .o => match e.xfer with
    | some (i, _) => (match i.op with | .ldacc .. => some i | _ => none)
    | none => none
  | _ =>
    let u := e.wk w
    let more (i : EInstr) : Bool := decide (u.at i.id < i.kblocks)
    match e.runs.find? (fun r => r.phase == .lookup || (r.phase == .array && more r.ins)) with
    | some r => if r.phase == .lookup then none else some r.ins
    | none => match e.queue.find? (fun i => match i.op with | .mma .. => i.known.isSome || more i | _ => false) with
      | some i => if i.known.isSome then none else some i
      | none => none

/-- The context a walker reads an instruction's operand through. -/
def EInstr.ctxOf (i : EInstr) (w : Walker) : CtxRef := if w == .b then i.rb else i.ra

/-- Find an instruction of an engine by its number. -/
def Engine.find (e : Engine) (id : Nat) : Option EInstr :=
  (e.queue ++ e.runs.map (·.ins) ++ (match e.xfer with | some (i, _) => [i] | none => []) ++ e.sign.toList).find? (fun i => i.id == id)

/-- Issue up to four granule requests of the fetch in progress (R124). -/
def X.fetchFour (x : X) (c : CoreId) (w : Walker) (i : EInstr) : X :=
  match ((x.dev.eng c).wk w).job with
  | none => x
  | some j =>
    let (x, j) := (j.todo.take 4).foldl (fun (acc : X × FetchJob) q =>
      let (y, v, bad) := acc.1.readGranule c w i q.1 q.2
      (y, { acc.2 with todo := acc.2.todo.drop 1, got := kset acc.2.got (q.1 * 2 ^ 48 + q.2) v,
                       bad := match acc.2.bad with | some e => some e | none => bad })) (x, j)
    x.on (fun d => d.setEng c (fun e => e.setWk w { e.wk w with job := some j }))

/-- WALKER_FETCH (R124): up to four granule requests for the k-blocks of queued instructions, running ahead by up to four
segments. -/
def execWalkerFetch (c : CoreId) (w : Walker) (s : State) : Out :=
  run s (fun x =>
    let e := x.dev.eng c
    let u := e.wk w
    if !x.dev.runs (dieOfCore c) then x
    else match u.job with
      | some j =>
        match e.find j.id with
        | some i => if j.bad.isSome then x else x.fetchFour c w i
        | none => x.on (fun d => d.setEng c (fun e => e.setWk w { u with job := none }))
      | none =>
        match e.toFetch w with
        | none => x
        | some i =>
          let r := i.ctxOf w
          match dFmt r.desc with
          | none => x
          | some f =>
            if 4 ≤ u.segs.length then x
            else
              let kb := u.at i.id
              let n := if w == .o then 1 else min (perSeg f) (i.kblocks - kb)
              let todo := if w == .o then tileGranules r.desc f r.pos
                else (List.range n).flatMap (fun b => granules r.desc f (r.pos + 32 * (kb + b)))
              (x.on (fun d => d.setEng c (fun e => e.setWk w { u with job := some { id := i.id, kb, n, todo, got := [] } }))).fetchFour c w i)

/-- SEGMENT_PRESENT (R125): all data of the segment has arrived. -/
def execSegmentPresent (c : CoreId) (w : Walker) (s : State) : Out :=
  runDev s (fun _ _ d =>
    let e := d.eng c
    let u := e.wk w
    match u.job with
    | some j =>
      if w == .o || !j.todo.isEmpty || j.bad.isSome || !d.runs (dieOfCore c) then d
      else match e.find j.id with
        | some i =>
          let r := i.ctxOf w
          match dFmt r.desc with
          | some f =>
            let g := segOf r.desc f i.id r.pos j.kb j.n j.got (d.cycOf c)
            d.setEng c (fun e => e.setWk w { job := none, segs := u.segs ++ [g], pos := kset u.pos i.id (j.kb + j.n) })
          | none => d
        | none => d.setEng c (fun e => e.setWk w { u with job := none })
    | none => d)

/-- The error record of a walker request whose address is no longer valid (R29, R126). -/
def Dev.walkerErr (d : Dev) (c : CoreId) (i : EInstr) (a : Nat) : Dev :=
  d.addrErr (vitOfCore c) (some (1, d.physSlot c)) a i.owner.seq.toNat

/-- WALKER_FAULT (R126, R356): a read met an address no longer valid, or poison, and its instruction makes no bank update;
or a write of walker O met such an address, and its tile gets no flag. -/
def execWalkerFault (c : CoreId) (w : Walker) (poison : Bool) (at' : Addr) (s : State) : Out :=
  run s (fun x =>
    let e := x.dev.eng c
    let fault (x : X) (i : EInstr) : X :=
      let x := if poison then x else x.on (fun d => d.walkerErr c i at'.toNat)
      x.raise (i.gref c) { code := if poison then 0x45 else 0x0C, lanes := i.lanes, pc := i.pc, addr := at'.toNat, space := 1 }
    match (e.wk w).job with
    | some j =>
      if j.bad == some (poison, at'.toNat) then
        match e.find j.id with
        | some i => fault (x.on (fun d => d.setEng c (fun e => (e.abandon i.id).setWk w { e.wk w with job := none }))) i
        | none => x
      else x
    | none =>
      if w == .o && !poison then
        match e.tiles.find? (fun t => t.wrote && t.fault == some at'.toNat) with
        | some t => fault (x.on (fun d => d.setEng c (fun e => { e with tiles := e.tiles.filter (fun q => q.ins.id != t.ins.id) }))) t.ins
        | none => x
      else x)

/-! ### Walker O (R127, R128, R208) -/

/-- One write of walker O: nothing where the address is no longer valid (R126). -/
def X.tileWrite (c : CoreId) (t : Tile) (hint : Nat) (acc : X × Option Nat) (w : Nat × Nat × List Byte) : X × Option Nat :=
  let (x, bad) := acc
  let (sp, a, bs) := w
  if sp = 1 && !x.dev.valid t.ins.leader a bs.length then (x, some (bad.getD a))
  else
    let x := if sp = 1 then x.on (fun d => (d.watch (vitOfAddr a) 3 a bs.length c.toNat).1) else x
    (x.writeSpace c t.scrGran t.clusGran sp a bs hint (some (.walker c .o)), bad)

/-- The writes of a tile: elements, scales and row statistics (R127). -/
def tileWrites (t : Tile) : List (Nat × Nat × List Byte) :=
  let d := t.ins.ra.desc
  let q := t.ins.ra.pos
  let ds := dDims d
  match dFmt d with
  | none => []
  | some f =>
    let el := (List.range (min 64 (dLanes d))).flatMap (fun r => (List.range (min 64 (dCols d))).filterMap (fun c =>
      (offAt ds q r c).map (fun e => (dSpace d, (elemByte (dBase d) f.width e).1.toNat, leBytes (nthD 0 t.codes (r * 64 + c)) (f.width / 8)))))
    let sc := if f.scaled then
        ((List.range 128).filter (fun k => k % 64 < dLanes d)).map (fun k =>
          (dScaleSpace d, dScaleBase d + 128 * q + k, [BitVec.ofNat 8 (nthD 0 t.scales k)]))
      else []
    let st := if dRowStat d then
        (List.range 64).map (fun r => (dAuxSpace d, dAuxBase d + 64 + 256 * q + 4 * r, leBytes (nthD 0 t.stats r).toNat 4))
      else []
    el ++ sc ++ st

/-- WALKER_O_WRITE (R127): the oldest tile handed over is written; without a flag to write it is done. -/
def execWalkerOWrite (c : CoreId) (s : State) : Out :=
  run s (fun x =>
    match (x.dev.eng c).tiles.find? (fun t => !t.wrote) with
    | none => x
    | some t =>
      if !x.dev.runs (dieOfCore c) then x else
      let (x, bad) := (tileWrites t).foldl (X.tileWrite c t (dHint t.ins.ra.desc)) (x, none)
      (x.on (fun d => d.setEng c (fun e =>
        if bad.isNone && !dFlagEn t.ins.ra.desc then { e with tiles := e.tiles.filter (fun q => q.ins.id != t.ins.id) }
        else { e with tiles := updFirst (fun q => q.ins.id == t.ins.id) (fun q => { q with wrote := true, fault := bad }) e.tiles }))).remotePump c)

/-- TILE_FLAG_WRITE (R127, R208): q + 1 is written once the tile is performed. -/
def execTileFlagWrite (c : CoreId) (s : State) : Out :=
  run s (fun x =>
    match (x.dev.eng c).tiles.find? (fun t => t.wrote && t.fault.isNone) with
    | none => x
    | some t =>
      if !x.dev.runs (dieOfCore c) then x else
      let d := t.ins.ra.desc
      let (x, bad) := X.tileWrite c t (dHint d) (x, none) (dAuxSpace d, dAuxBase d, leBytes (t.ins.ra.pos + 1) 4)
      (x.on (fun m => m.setEng c (fun e =>
        if bad.isNone then { e with tiles := e.tiles.filter (fun q => q.ins.id != t.ins.id) }
        else { e with tiles := updFirst (fun q => q.ins.id == t.ins.id) (fun q => { q with fault := bad }) e.tiles }))).remotePump c)

/-! ### Provenance (R130-R137) -/

/-- The signature of a range of context A, and whether an address was not valid, with its error record, or poisoned (R126, R131). -/
def X.signRange (x : X) (c : CoreId) (i : EInstr) (kb : Nat) : X × BitVec 64 × Bool :=
  match dFmt i.ra.desc with
  | none => (x, 0, true)
  | some f =>
    let key := (x.dev.vit (vitOfCore c)).pvKey
    let (x, sg, bad) := (List.range kb).foldl (fun (acc : X × (BitVec 64 × Nat) × Bool) b =>
      let q := i.ra.pos + 32 * b
      let (y, got, bad) := (granules i.ra.desc f q).foldl (fun (t : X × KMap (BitVec 512) × Bool) gr =>
        let (z, v, e) := t.1.readGranule c .a i gr.1 gr.2
        let z := match e with
          | some (false, a) => z.on (fun d => d.walkerErr c i a)
          | _ => z
        (z, kset t.2.1 (gr.1 * 2 ^ 48 + gr.2) v, t.2.2 || e.isSome)) (acc.1, [], acc.2.2)
      (y, sigAdd key acc.2.1 ((segOf i.ra.desc f i.id q 0 1 got 0).words f 0), bad)) (x, (0, 0), false)
    (x, sg.1, bad)

/-- WK_SIGN_DONE (R126, R131, R133): the signature register and the instructions that wait for it receive the signature,
or stay without one. -/
def execWkSignDone (c : CoreId) (poison : Bool) (s : State) : Out :=
  run s (fun x =>
    match (x.dev.eng c).sign with
    | none => x
    | some i =>
      if !x.dev.runs (dieOfCore c) then x else
      let (x, val) : X × Option (BitVec 64) := if !i.takes then (x, none)
        else let (y, sg, bad) := x.signRange c i i.kblocks; (y, if bad || poison then none else some sg)
      let tell (j : EInstr) : EInstr :=
        if j.known == i.known && j.owner.slot == i.owner.slot then (match val with | some g => { j with sig := some g } | none => { j with known := none }) else j
      x.on (fun d =>
        let d := d.setEng c (fun e => { e with sign := none, queue := e.queue.map tell })
        let d := d.updEblk c i.owner.slot (fun b => b.updCtx .a (fun k => match k.sig with
          | some r => if some r.sign == i.known then { k with sig := val.map (fun g => { r with val := some g }) } else k
          | none => k))
        d.engDone c i false))

/-- PV_LOOKUP (R133, R136): 25 core cycles from the start the store has been looked up. A hit moves the entry's values into
the promotion buffer, or, every N-th, runs to be compared with it; a miss begins to fetch its range. Values in a poisoned granule raise POISON_CONSUMED
(R356, log 72). -/
def execPvLookup (c : CoreId) (s : State) : Out :=
  run s (fun x =>
    let d := x.dev
    let e := d.eng c
    let v := vitOfCore c
    match e.runs.find? (fun r => r.phase == .lookup) with
    | none => x
    | some r =>
      match r.ins.sig with
      | none => x
      | some sg =>
        if !d.runs (dieOfCore c) then x else
        let t := r.start + 25
        let d := (d.reachOf c t).count 0x8013 1 v.toNat
        let mine (p : PvEntry) : Bool := p.key == r.ins.pvKey && p.sig == sg
        let put (f : Run → Run) (d : Dev) : X :=
          { x with dev := d.setEng c (fun e => { e with runs := updFirst (fun q => q.ins.id == r.ins.id) f e.runs, free := max e.free t }) }
        match (d.vit v).pv.find? mine with
        | some p =>
          let hits := (d.vit v).pvHits + 1
          let n := d.vset v 5 3
          let d := (d.count 0x8013 2 v.toNat).setVit v (fun u => { u with pvHits := hits, pv := u.pv.filter (fun q => !mine q) ++ [p] })
          if p.bad then
            ({ x with dev := d.setEng c (fun e => { e.abandon r.ins.id with free := max e.free t }) } : X).raise (r.ins.gref c)
              { code := 0x45, lanes := r.ins.lanes, pc := r.ins.pc }
          else if 0 < n && hits % n == 0 then
            put (fun q => { q with phase := .array, next := t, hit := true, stored := some p.vals }) (d.count 0x8013 5 v.toNat)
          else put (fun q => { q with phase := .update, next := t, hit := true, promo := p.vals, due := r.start + 161 }) d
        | none => put (fun q => { q with phase := .array, next := t }) d)

/-- PV_VERIFY (R136): the computed values are compared bit for bit with the entry's. -/
def execPvVerify (c : CoreId) (s : State) : Out :=
  runDev s (fun _ _ d =>
    let e := d.eng c
    let v := vitOfCore c
    match e.runs.find? (fun r => r.phase == .verify) with
    | none => d
    | some r =>
      if !d.runs (dieOfCore c) then d else
      let vals := r.values
      let d := d.setEng c (fun e => { e with runs := updFirst (fun q => q.ins.id == r.ins.id) (fun q => { q with phase := .update }) e.runs })
      match r.stored, r.ins.op with
      | some old, .mma _ ctrl =>
        if vals.all (fun p => kget 0 old p.1 == p.2) then d
        else
          let d := d.setVit v (fun u => { u with pv := u.pv.map (fun p =>
            if p.key == r.ins.pvKey && some p.sig == r.ins.sig then { p with vals := vals, bad := false } else p) })
          (d.count 0x8013 6 v.toNat).postVit 0x0031 v (ctrlLayer ctrl)
      | _, _ => d)

/-- Place an entry in a store of `cap` entries (R132, R134): the store, and whether another entry made room. It takes the place of the entry it replaces, or
the lowest free one (log 72). -/
def pvPlace (store : List PvEntry) (cap : Nat) (p : PvEntry) : List PvEntry × Bool :=
  let same (q : PvEntry) : Bool := q.key == p.key
  let inPlaceOf (q : Option PvEntry) : PvEntry := { p with slot := (q.map (·.slot)).getD (((List.range cap).find? (fun k => !store.any (fun e => e.slot == k))).getD 0) }
  match store.find? (fun q => same q && q.sig == p.sig) with
  | some q => (store.filter (fun q => !(same q && q.sig == p.sig)) ++ [inPlaceOf (some q)], false)
  | none =>
    if 64 ≤ (store.filter same).length then (delFirst same store ++ [inPlaceOf (store.find? same)], true)
    else if cap ≤ store.length then (store.drop 1 ++ [inPlaceOf store.head?], true)
    else (store ++ [inPlaceOf none], false)

/-- PV_INSERT (R134). -/
def execPvInsert (c : CoreId) (s : State) : Out :=
  runDev s (fun _ _ d =>
    let v := vitOfCore c
    match (d.eng c).inserts with
    | [] => d
    | p :: rest =>
      if !d.runs (dieOfCore c) then d else
      let d := d.setEng c (fun e => { e with inserts := rest })
      if d.pvRoom v = 0 || d.vset v 5 1 != 1 then d
      else
        let (store, out) := pvPlace (d.vit v).pv (254 * d.pvRoom v) p
        let d := (d.setVit v (fun u => { u with pv := store })).count 0x8013 3 v.toNat
        if out then d.count 0x8013 4 v.toNat else d)

end Sys2Proof.Machine
end

