-- ==== Sys2Proof/Machine/Steps.lean ====
section
/-! DEFINITION. The batch step: checks and start (R271-R275), end (R276, R277), pre-emption and restore (R278-R281), checkpoints (R285-R287)
and preview (R288). -/

namespace Sys2Proof.Machine

/-! ### Fields of a STEP descriptor (R271) -/

def sLaunchTable (r : BitVec 512) : Nat := fld r.toNat 468 44
def sLaunchCount (r : BitVec 512) : Nat := fld r.toNat 456 12
def sMask (r : BitVec 512) : BitVec 32 := (r >>> 424).setWidth 32
def sTimeLimit (r : BitVec 512) : Nat := fld r.toNat 392 32
def sCkptTable (r : BitVec 512) : Nat := fld r.toNat 348 44
def sCkptRegions (r : BitVec 512) : Nat := fld r.toNat 340 8
def sCkptNumber (r : BitVec 512) : Word := (r >>> 308).setWidth 32
def sPreviewDesc (r : BitVec 512) : Nat := fld r.toNat 264 44
def sPreviewRing (r : BitVec 512) : Nat := fld r.toNat 253 11
def sExcArea (r : BitVec 512) : Nat := fld r.toNat 209 44
def sReserved (r : BitVec 512) : Nat := fld r.toNat 64 145
def sCkpt (r : BitVec 512) : Bool := r.getLsbD 21
def sPreview (r : BitVec 512) : Bool := r.getLsbD 20

/-- A launch record (R271). -/
def launchOf (n : Nat) : Launch :=
  { entry := BitVec.ofNat 44 (fld n 468 44), args := BitVec.ofNat 44 (fld n 424 44), blocks := fld n 392 32, g := fld n 386 6,
    r := fld n 377 9, s := fld n 357 20, c := fld n 332 25, step := fld n 307 25, v := BitVec.ofNat 5 (fld n 302 5) }

/-! ### Checkpoint slots and regions (R285, R286) -/

/-- Bytes of a checkpoint slot of a Vitrine. -/
def Dev.slotBytes (d : Dev) (v : VitId) : Nat := d.vset v 0 4 * 0x10000000
/-- Device address of slot s of a Vitrine. -/
def Dev.slotAt (d : Dev) (v : VitId) (s : Nat) : Nat := v.toNat * 2 ^ 36 + windowBytes - (2 - s) * d.slotBytes v

/-- A checkpoint region: its Vitrine, device address, length and offset in the slot. -/
structure Region where
  v : VitId
  base : Nat
  len : Nat
  off : Nat
  deriving DecidableEq, Repr

/-- Pack the regions of a table in order (R286). -/
def packRegions (l : List (Nat × Nat)) : List Region :=
  l.foldl (fun (acc : List Region) (e : Nat × Nat) =>
    let v := vitOfAddr e.1
    acc ++ [{ v, base := e.1, len := e.2, off := ((acc.filter (fun r => r.v == v)).map (·.len)).foldl (· + ·) 0 }]) []

/-- Whether one region follows R286. -/
def Dev.regionOk (d : Dev) (mask : BitVec 32) (r : Region) : Bool :=
  r.base % 64 == 0 && r.len % 64 == 0 && 0 < r.len && r.base + r.len ≤ 2 ^ 41 && r.base % 2 ^ 36 + r.len ≤ windowBytes - 2 * d.slotBytes r.v &&
  mask.getLsbD r.v.toNat && d.windowed r.v && r.off + r.len ≤ d.slotBytes r.v

/-- Read a step's region table: its regions, and whether a read was poisoned. -/
def X.regions (x : X) (raw : BitVec 512) : X × List Region × Bool :=
  let (x, l, bad) := (List.range (sCkptRegions raw)).foldl (fun (acc : X × List (Nat × Nat) × Bool) i =>
    let (y, n, p) := acc.1.readNat (sCkptTable raw + 16 * i) 16
    (y, acc.2.1 ++ [(n % 2 ^ 64, n / 2 ^ 64)], acc.2.2 || p)) (x, [], false)
  (x, packRegions l, bad)

/-- Whether a checkpoint table lies in the tenancy's windows and its regions follow R286. -/
def Dev.ckptOk (d : Dev) (l : VitId) (raw : BitVec 512) (rs : List Region) : Bool :=
  1 ≤ sCkptRegions raw && d.validWin l (sCkptTable raw) (16 * sCkptRegions raw) && rs.all (d.regionOk (sMask raw))

/-- Copy bytes of device memory granule by granule of the destination, poison with them (R356); whether any was poisoned. -/
def X.copyDev (x : X) (src dst len : Nat) (hint : Nat := 0) : X × Bool :=
  if len = 0 then (x, false)
  else (List.range ((dst + len - 1) / 64 - dst / 64 + 1)).foldl (fun (acc : X × Bool) i =>
    let lo := max dst ((dst / 64 + i) * 64)
    let hi := min (dst + len) ((dst / 64 + i) * 64 + 64)
    let (y, l, bad) := acc.1.readBytes (src + (lo - dst)) (hi - lo)
    (y.writeBytes lo l hint (fun _ => bad), acc.2 || bad)) (x, false)

/-! ### Settings at a step's start (R97, R130, R135, R298, R342) -/

/-- Whether a line's home keeps it while its way is taken: it is in a transient state or busy. -/
def GLine.stays (g : GLine) : Bool := g.st.transient || 0 < g.ops

/-- Vacate a position that a carve-out takes (R169): the line is evicted by the Evict row with write-back; a pinned one moves to a remaining cache way, once there is
one (log 71). -/
def X.vacate (x : X) (line : Nat) : X :=
  match x.dev.gline line with
  | none => x
  | some g =>
    if g.stays then x
    else if g.pinned then
      let x := match x.dev.freeWay line with
        | some _ => x
        | none => match victimOf ((x.dev.inSet (sliceOf line) (setOf line)).filter (fun e =>
            (x.dev.cacheWays (sliceOf line) (setOf line)).contains e.2.way)) with
          | some (k, _) => x.dropLine k true
          | none => x
      match x.dev.freeWay line with
      | some w => x.on (fun d => d.updGline line (fun h => { h with way := w }))
      | none => x
    else x.dropLine line true

/-- Bring a slice's lines within its cache ways. -/
def X.vacateSlice (x : X) (g : Nat) : X :=
  ((x.dev.slice g).lines.filter (fun e => !(x.dev.cacheWays g (setOf e.1)).contains e.2.way)).foldl (fun (y : X) e => y.vacate e.1) x

/-- Whether every line of a slice stands in a cache way. -/
def Dev.vacated (d : Dev) (g : Nat) : Bool := (d.slice g).lines.all (fun e => (d.cacheWays g (setOf e.1)).contains e.2.way)

/-- The Vitrine-scope values about to change at a Vitrine's next step: key and new value. -/
def Dev.changes (d : Dev) (v : VitId) : List (Nat × Nat) :=
  d.cat.acc.filter (fun e => ofVit v e.1 && (kfind d.cat.force e.1).getD (entryDefault (e.1 / 16777216) (e.1 / 65536 % 256) (e.1 % 65536)) != e.2)

/-- Whether a stored entry outlives a change of a Provenance setting, a codebook or a threshold (R135). -/
def PvEntry.lives (p : PvEntry) (d : Dev) (v : VitId) (c : Nat × Nat) : Bool :=
  let i := c.1 / 16777216
  let sub := c.1 / 65536 % 256
  let row := c.1 % 65536
  if i == 0x9000 + v.toNat then nthD 0 p.key 6 != sub
  else if i == 0x9040 + v.toNat then nthD 0 p.key 0 != row
  else if i == 0x3006 + v.toNat * 16 then
    !(nthD 0 p.key 0 / 8 == row && d.vset v 6 1 row / 2 ^ (nthD 0 p.key 0 % 8) % 2 == 1 && c.2 / 2 ^ (nthD 0 p.key 0 % 8) % 2 == 0)
  else true

/-- A Vitrine's next batch step begins: its accepted settings are in force. -/
def X.enforceVit (x : X) (v : VitId) : X :=
  let ch := x.dev.changes v
  let at' (k sub : Nat) : Bool := ch.any (fun c => c.1 / 16777216 == 0x3000 + v.toNat * 16 + k && c.1 / 65536 % 256 == sub)
  let x := x.on (fun d => d.pvDrop v (fun p => !ch.all (p.lives d v)))
  let x := x.on (fun d => d.enforce v)
  let x := if at' 9 1 then x.on Dev.freeAlias else x
  let x := if at' 9 2 then x.on (fun d => d.setVit v (fun t => { t with pace := { t.pace with heldFrom := [] } })) else x
  let x := if at' 5 1 || at' 5 2 then x.on (fun d => d.pvDrop v (fun _ => true)) else x
  let x := if at' 5 1 then
      let k := x.dev.fresh
      x.on (fun d => if d.vset v 5 1 == 1 then ({ d with fresh := k + 1 } : Dev).setVit v (fun t => { t with pvKey := k, pvHits := 0 }) else d) else x
  let x := if at' 5 3 then x.on (fun d => d.setVit v (fun t => { t with pvHits := 0 })) else x
  if at' 5 2 then
    x.on (fun d =>
      let d := d.setVit v (fun t => { t with pvResize := some (d.vset v 5 2) })
      (slicesOfVit v).foldl (fun (e : Dev) g => e.setSlice g (fun s => { s with pvChanging := true })) d)
  else x

/-! ### Selection (R272, R275) -/

/-- A candidate of R275: a SAVED step, or a fetched STEP descriptor. -/
structure Cand where
  v : VitId
  ring : Nat
  seq : Word
  raw : BitVec 512
  saved : Bool
  prio : Nat
  bell : Nat
  deriving DecidableEq, Repr

/-- Rank of candidates (R275). -/
def Cand.before (a b : Cand) : Bool :=
  if a.prio != b.prio then b.prio < a.prio
  else if a.saved != b.saved then a.saved
  else if a.bell != b.bell then a.bell < b.bell
  else if a.ring != b.ring then a.ring < b.ring
  else a.v.toNat ≤ b.v.toNat

/-- The fetched descriptor of a ring that stands first and undecided. -/
def Ring.head (q : Ring) : Option Fetched := q.fetched.find? (fun f => f.done.isNone)

/-- The candidates of a tenancy in rank order. -/
def Dev.candidates (d : Dev) (l : VitId) : List Cand :=
  let saved := (d.srv.steps.filter (fun s => s.leader == l && s.st == .saved)).map (fun s =>
    ({ v := s.ringVit, ring := s.ring, seq := s.seq, raw := s.raw, saved := true, prio := (d.ring s.ringVit s.ring).prio,
       bell := (((d.ring s.ringVit s.ring).fetched.find? (fun f => f.seq == s.seq && f.done.isNone)).map (·.bell)).getD 0 } : Cand))
  let fresh := (d.tenancy l).flatMap (fun v => (d.ringsOf v).filterMap (fun r =>
    let q := d.ring v r
    match q.head with
    | some f => if q.type == 0 && q.st != .disabled && !f.started && descOp f.raw == 1 then
        some ({ v, ring := r, seq := f.seq, raw := f.raw, saved := false, prio := q.prio, bell := f.bell } : Cand) else none
    | none => none))
  (saved ++ fresh).mergeSort (fun a b => a.before b)

/-- Whether a mask is empty or names a Vitrine outside the tenancy (R272). -/
def Dev.maskBad (d : Dev) (l : VitId) (m : BitVec 32) : Bool := m == 0 || (vitsOf m).any (fun v => (d.vit v).leader != some l)

/-- A STEP descriptor's checks but those of its tables (R272): true when one fails. -/
def Dev.stepBad (d : Dev) (l : VitId) (raw : BitVec 512) : Bool :=
  descPreempt raw == 3 || sReserved raw != 0 || sLaunchCount raw == 0 || sLaunchTable raw % 64 != 0 ||
  !d.validWin l (sLaunchTable raw) (64 * sLaunchCount raw) || (sExcArea raw != 0 && !d.validWin l (sExcArea raw) 512) ||
  (sPreview raw && (!d.validWin l (sPreviewDesc raw) 64 ||
    (let q := d.ring l (sPreviewRing raw); q.st != .enabled || q.type != 2 || !q.docentFed)))

/-- A step that never starts completes with a status (R272, R270). -/
def X.refuseStep (x : X) (l : VitId) (c : Cand) (status : Nat) : X :=
  (x.on (fun d => (d.count 0x801A 1 l.toNat).setJob l (fun j => if j.st == 3 then {} else j))).complete c.v c.ring c.seq status 0

/-- A step's launches, dispatchers and clocks begin (R271-R275). -/
def X.beginStep (x : X) (l : VitId) (c : Cand) (ls : List Launch) : X :=
  let vs := vitsOf (sMask c.raw)
  let x := vs.foldl X.enforceVit x
  x.on (fun d =>
    let cls := d.vset l 0xB 1
    let d := vs.foldl (fun (e : Dev) v =>
      let mine := (ls.zipIdx.filter (fun (p : Launch × Nat) => p.1.v == v)).map (fun (p : Launch × Nat) => (p.2, p.1))
      let e := e.setVit v (fun t => { t with disp := { launches := mine } })
      let e := (coresOfVit v).foldl (fun (f : Dev) k => f.setCore (BitVec.ofNat 9 k) (fun q => { q with exc := none })) e
      e.trace v 1 0x3FF c.seq.toNat) d
    let d := d.setRing c.v c.ring (fun q => { q with fetched := updFirst (fun f => f.seq == c.seq && f.done.isNone) (fun f => { f with started := true }) q.fetched })
    let lim := if sTimeLimit c.raw == 0 then d.vset l 0 3 else sTimeLimit c.raw
    let d := d.onSrv (fun s => { s with steps := s.steps ++ [{ leader := l, ringVit := c.v, ring := c.ring, seq := c.seq, raw := c.raw, mask := sMask c.raw,
                                                               since := d.cyc (dieOfVit l), limit := lim * 1024 }] })
    vs.foldl (fun (e : Dev) v => e.dutyStart v cls) d)

/-- Start a fetched step whose Vitrines are free: its checks (R272), then a withdrawn Vitrine (R25), then its start. -/
def X.tryStart (x : X) (l : VitId) (c : Cand) : X :=
  let raw := c.raw
  if x.dev.maskBad l (sMask raw) || x.dev.stepBad l raw then x.refuseStep l c 3
  else
    let (x, ls, bad) := (List.range (sLaunchCount raw)).foldl (fun (acc : X × List Nat × Bool) i =>
      let (y, n, p) := acc.1.readNat (sLaunchTable raw + 64 * i) 64
      (y, acc.2.1 ++ [n], acc.2.2 || p)) (x, [], false)
    let (x, rs, bad2) := if sCkpt raw && x.dev.validWin l (sCkptTable raw) (16 * sCkptRegions raw) then x.regions raw else (x, [], false)
    if bad || bad2 then (x.refuseStep l c 6).docentPoison l (sLaunchTable raw)
    else if ls.any (fun n => n % 2 ^ 302 != 0 || !(sMask raw).getLsbD (launchOf n).v.toNat) || (sCkpt raw && !((vitsOf (sMask raw)).foldl Dev.enforce x.dev).ckptOk l raw rs) then x.refuseStep l c 3
    else if (vitsOf (sMask raw)).any (fun v => (x.dev.vit v).st == .withdrawn) then x.refuseStep l c 0x0D
    else x.beginStep l c (ls.map launchOf)

/-- Each Vitrine's part of a save or restore is done no earlier than its T, in clocked cycles, after it began (R280,
R340). -/
def Dev.reachAll (d : Dev) (l : List (VitId × Nat)) : Dev := l.foldl (fun (e : Dev) t => e.reachVit t.1 t.2) d

/-- Begin to restore a SAVED step (R280), or to end one that an exception met while it was saved. -/
def Dev.beginRestore (d : Dev) (l : VitId) (c : Cand) : Dev :=
  d.onSrv (fun q => { q with steps := q.steps.map (fun s =>
    if s.ringVit == c.v && s.ring == c.ring && s.seq == c.seq && s.st == .saved then
      (if s.ends.isEmpty then { s with st := .restoring, dues := s.saved.map (fun c => (c.v, d.clocked c.v + c.cycles)) }
       else { s with st := .running, saved := [], since := d.cyc (dieOfVit l) })
    else s) })

/-- Whether a candidate may be started at all now: its Vitrines' dies run and none is STANDBY or awaits its Docent's restart (R254, R388). -/
def Dev.startable (d : Dev) (m : BitVec 32) : Bool :=
  (vitsOf m).all (fun v => d.runs (dieOfVit v) && d.vacc v 9 4 != 2 && !d.fw.docents.getLsbD (dieOfVit v))

/-- STEP_START (R272, R275, R278, R292): one pass of the leader's loop over its candidates in rank order. -/
def execStepStart (leader : VitId) (s : State) : Out :=
  run s (fun x =>
    let l := leader
    let cr := x.dev.crate l
    if !x.dev.leads l || !x.dev.serves l || !((x.dev.vit l).st == .assigned || (x.dev.vit l).st == .deaccessioning) || (cr.freezing && !cr.boundary) then x
    else
      ((x.dev.candidates l).foldl (fun (acc : X × BitVec 32) c =>
        let (y, wanted) := acc
        let m := sMask c.raw
        if cr.freezing && !c.saved then acc
        else if !c.saved && y.dev.maskBad l m then (y.refuseStep l c 3, wanted)
        else if !y.dev.startable m then (y, wanted ||| m)
        else
          let holders := (vitsOf m).filterMap (fun v => y.dev.stepOn v)
          if holders.isEmpty && (wanted &&& m) == 0 then
            (if c.saved then y.on (fun d => d.beginRestore l c) else y.tryStart l c, wanted)
          else if holders.all (fun h => decide ((y.dev.ring h.ringVit h.ring).prio < c.prio)) then
            (holders.foldl (fun (z : X) h => if descPreempt h.raw == 0 then z
              else z.on (fun d => d.setStep h (fun t => { t with stopAsked := true }))) y, wanted ||| m)
          else (y, wanted ||| m)) (x, 0)).1)

/-! ### Ends (R276, R277) -/

/-- STEP_TIME_LIMIT (R277): step time has reached the limit. -/
def execStepTimeLimit (leader : VitId) (seq : Word) (s : State) : Out :=
  runDev s (fun _ _ d =>
    match d.srv.steps.find? (fun t => t.leader == leader && t.seq == seq && t.st == .running) with
    | some t =>
      if !t.ends.isEmpty || (d.vit leader).halt == 2 || !d.runs (dieOfVit leader) then d
      else (d.reach (dieOfVit leader) (t.since + (t.limit - t.used))).squashStep t 5
    | none => d)

/-- A 32-byte exception record (R65). -/
def ExcRec.nat (r : ExcRec) : Nat :=
  r.addr.toNat * 2 ^ 212 + r.space.toNat * 2 ^ 208 + r.lanes.toNat * 2 ^ 176 + r.pc.toNat * 2 ^ 132 + r.block.toNat * 2 ^ 96 + r.gslot.toNat * 2 ^ 90 +
  r.core.toNat * 2 ^ 75 + r.code.toNat * 2 ^ 64 + r.seq.toNat * 2 ^ 32 + r.launch.toNat * 2 ^ 16 + r.detail.toNat

/-- The status of a step's endings, the first of R277's order. -/
def stepStatus (ends : List Nat) : Nat := ([6, 0xD, 4, 5, 7, 0xC].find? ends.contains).getD 0

/-- Whether a Vitrine's launches have all retired (R276). -/
def Disp.finished (p : Disp) : Bool := p.launches.isEmpty && p.idle && p.swapped.isEmpty

/-- Whether an engine has nothing queued, started or handed over to write. -/
def Engine.settled (e : Engine) : Bool := e.queue.isEmpty && e.runs.isEmpty && e.xfer.isNone && e.sign.isNone && e.tiles.isEmpty

/-- Whether every write and remote operation of a step's Vitrines has been performed, and what its engines had been given (R63, R276, R290). -/
def Dev.stepQuiet (d : Dev) (s : StepRec) : Bool :=
  (vitsOf s.mask).all (fun v =>
    (coresOfVit v).all (fun k => let c := d.core (BitVec.ofNat 9 k); c.ops.isEmpty && c.eng.settled) &&
    !d.fab.ins.any (fun i => vitOfCore i.core == v && !d.insSaved i) &&
    !d.srv.ranges.any (fun r => match r.core with | some c => vitOfCore c == v | none => false))

/-- Write the exception records of the 16 lowest cores to EXC_AREA (R65, R276). -/
def X.writeRecs (x : X) (s : StepRec) : X :=
  let keep := s.recs.take 16
  let x := x.on (fun d => d.countRecs s.recs)
  if sExcArea s.raw == 0 then x
  else (keep.zipIdx).foldl (fun (y : X) (e : (Nat × ExcRec) × Nat) => y.writeBytes (sExcArea s.raw + 32 * e.2) (leBytes e.1.2.nat 32)) x

/-- The preview hand-off of R288: whether the preview was dropped. -/
def X.preview (x : X) (l : VitId) (raw : BitVec 512) : X × Bool :=
  let r := sPreviewRing raw
  let q := x.dev.ring l r
  if q.st != .enabled || q.type != 2 || !q.docentFed || q.size ≤ diff32 q.sqTail q.sqHead then (x.on (fun d => d.count 0x801A 0xA l.toNat), true)
  else
    let (x, n, bad) := x.readNat (sPreviewDesc raw) 64
    let seq := q.nextSeq + (q.sqTail - q.sqHead)
    let m := n / 2 ^ 64 * 2 ^ 64 + seq.toNat * 2 ^ 32 + n % 2 ^ 32
    let x := x.writeBytes (q.sqBase + 64 * (q.sqTail.toNat % q.size)) (leBytes m 64) 0 (fun _ => bad)
    (x.on (fun d => (d.setRing l r (fun q => { q with sqTail := q.sqTail + 1, bells := q.bells ++ [(q.sqTail + 1, d.srv.bells)] })).onSrv
      (fun s => { s with bells := s.bells + 1 })), false)

/-- Whether every PUT of a tenancy's checkpoint stream has been sent (R254, R287). -/
def Dev.streamSent (d : Dev) (l : VitId) : Bool := !d.fab.ops.any (fun o => o.src == .ckpt && o.v == l && o.first.isNone && o.op.type == .put)

/-- Copy PROFILE_COUNTS of a Vitrine to PROFILE_LAST_STEP (R424). -/
def Dev.lastStep (d : Dev) (v : VitId) : Dev :=
  (List.range 8).foldl (fun (e : Dev) k =>
    { e with cnt := kset e.cnt (ckey 0x8111 2 (v.toNat * 8 + k)) (e.counter 0x8111 1 (v.toNat * 8 + k)) }) d

/-- A step leaves its Vitrines: regions and dispatchers are freed, the completion is posted and the job's state follows (R40, R276, R358, R375). -/
def X.finishStep (x : X) (s : StepRec) (dropped : Bool) : X :=
  let st := stepStatus s.ends
  let vs := vitsOf s.mask
  let x := x.on (fun d =>
    let d := vs.foldl (fun (e : Dev) v =>
      let e := (clusOfVit v).foldl (fun (f : Dev) k => f.setClu k (fun _ => {})) e
      let e := (coresOfVit v).foldl (fun (f : Dev) k => f.setCore (BitVec.ofNat 9 k) (fun c => { c with left := [] })) e
      ((e.setVit v (fun t => { t with disp := {} })).trace v 2 0x3FF (st + s.seq.toNat * 256)).lastStep v) d
    let d := d.onSrv (fun q => { q with steps := delFirst (fun t => s.same t) q.steps })
    let d := d.count 0x801A 1 s.leader.toNat
    let left := d.srv.steps.any (fun t => t.leader == s.leader)
    d.setJob s.leader (fun j => if j.st == 3 then {} else if j.st == 1 && !left then { j with st := 2 } else j))
  x.complete s.ringVit s.ring s.seq st (min 16 s.recs.length + (if dropped then 256 else 0) + s.unanswered % 65536 * 65536)

/-- STEP_END (R276, R277): first the writes and the exception records, then, for a step that ends OK with CKPT, the checkpoint copy begins;
after it, or at once, the preview and the completion. -/
def execStepEnd (leader : VitId) (seq : Word) (s : State) : Out :=
  run s (fun x =>
    match x.dev.srv.steps.find? (fun t => t.leader == leader && t.seq == seq && t.st == .running) with
    | none => x
    | some t =>
      let d := x.dev
      let squashed := !t.ends.isEmpty && !t.ckptDone
      let all := squashed || (vitsOf t.mask).all (fun v => (d.vit v).disp.finished)
      if !all || !d.stepQuiet t || !(vitsOf t.mask).all (fun v => d.runs (dieOfVit v) || d.isFenced (dieOfVit v)) then x
      else
        let x := if t.ckpt then x else x.writeRecs t
        if t.ends.isEmpty && sCkpt t.raw && !t.ckpt then x.on (fun d => d.setStep t (fun u => { u with ckpt := true }))
        else if t.ckpt && !t.ckptDone && t.ends.isEmpty then x
        else if t.ckptDone && !d.streamSent leader then x
        else
          let ok := stepStatus t.ends == 0 || stepStatus t.ends == 0xC
          let (x, dropped) := if ok && sPreview t.raw then x.preview leader t.raw else (x, false)
          x.finishStep t dropped)

/-! ### Checkpoints (R254, R287) -/

/-- Stream a checkpoint's regions and its COMMIT to the standby (R254); false when no pair link of the tenancy serves. -/
def X.stream (x : X) (l : VitId) (c : Word) (rs : List Region) : X × Bool :=
  let d := x.dev
  let dest := BitVec.ofNat 16 (d.force 0x5200 1 0)
  let links := (d.eligible dest (fun w => d.sameTenancy l w)).filter (fun k => fld (d.force 0x5200 2 0) k 1 == 1)
  if links.isEmpty then (x, false)
  else
    let x := rs.foldl (fun (y : X) r =>
      let a := y.dev.slotAt r.v (c.toNat % 2) + r.off
      (pieces256 r.len).foldl (fun (z : X) (p : Nat × Nat) =>
        let (z, bytes, _) := z.readBytes (r.base + p.1) p.2
        z.on (fun d => d.newOp l .ckpt dest .put 0 (a + p.1) p.2 0 0 bytes 1 0)) y) x
    (x.on (fun d => d.newOp l .ckpt dest .commit 0 0 0 c.toNat 0 [] 1 0), true)

/-- CKPT_COPY_DONE (R287): the regions are in the local slot, CKPT_LOCAL is set, and a PRIMARY streams them to its standby. -/
def execCkptCopyDone (leader : VitId) (seq : Word) (s : State) : Out :=
  run s (fun x =>
    match x.dev.srv.steps.find? (fun t => t.leader == leader && t.seq == seq && t.st == .running && t.ckpt && !t.ckptDone) with
    | none => x
    | some t =>
      if !t.ends.isEmpty || !(vitsOf t.mask).all (fun v => x.dev.runs (dieOfVit v)) then x
      else
        let c := sCkptNumber t.raw
        let (x, rs, bad) := x.regions t.raw
        let (x, bad) := rs.foldl (fun (acc : X × Bool) r =>
          let (y, b) := acc.1.copyDev r.base (acc.1.dev.slotAt r.v (c.toNat % 2) + r.off) r.len
          (y, acc.2 || b)) (x, bad)
        if bad then x.docentPoison leader (sCkptTable t.raw)
        else
          let x := x.on (fun d => (vitsOf t.mask).foldl (fun (e : Dev) v => e.setVit v (fun u => { u with ckptLocal := c })) d)
          let (x, ok) := if x.dev.vset leader 9 4 == 1 then x.stream leader c rs else (x, true)
          x.on (fun d => d.setStep t (fun u => { u with ckptDone := true, ends := if ok then u.ends else u.ends ++ [0xC] })))

/-- Copy checkpoint slot c mod 2 back to its regions; true when poison was read. -/
def X.restoreRegions (x : X) (c : Word) (rs : List Region) : X × Bool :=
  rs.foldl (fun (acc : X × Bool) r =>
    let (y, b) := acc.1.copyDev (acc.1.dev.slotAt r.v (c.toNat % 2) + r.off) r.base r.len
    (y, acc.2 || b)) (x, false)

/-- RESTORE (R287, R359). -/
def execRestore (v : VitId) (r : RingId) (seq : Word) (s : State) : Out :=
  run s (fun x =>
    match (x.dev.ring v r.toNat).head, (x.dev.vit v).leader with
    | some f, some l =>
      let raw := f.raw
      let c := sCkptNumber raw
      if f.seq != seq || descOp raw != 2 || (x.dev.ring v r.toNat).type != 0 || !x.dev.serves v || (x.dev.crate l).freezing || (x.dev.vit v).st == .frozen then x
      else
        let done (y : X) (st : Nat) : X := y.complete v r.toNat seq st 0
        if x.dev.maskBad l (sMask raw) || sLaunchTable raw != 0 || sLaunchCount raw != 0 || sReserved raw != 0 || descPreempt raw == 3 ||
            !x.dev.validWin l (sCkptTable raw) (16 * sCkptRegions raw) then done x 3
        else if (vitsOf (sMask raw)).any (fun w => (x.dev.stepOn w).isSome || !x.dev.runs (dieOfVit w)) then x
        else
          let (x, rs, bad) := x.regions raw
          if bad then (done x 6).docentPoison l (sCkptTable raw)
          else if !x.dev.ckptOk l raw rs then done x 3
          else if (vitsOf (sMask raw)).any (fun w => (x.dev.vit w).st == .withdrawn) then done x 0x0D
          else if (vitsOf (sMask raw)).any (fun w => (x.dev.vit w).ckptLocal != c) then done x 0x0E
          else
            let (x, poison) := x.restoreRegions c rs
            if poison then (done x 6).docentPoison l (sCkptTable raw) else done x 0
    | _, _ => x)

/-! ### Pre-emption (R278-R281) -/

/-- Whether a core is quiesced for a save: the executing engine instruction has completed and every access issued is performed (R278). -/
def Core.quiesced (k : Core) : Bool :=
  k.ops.isEmpty && k.eng.runs.isEmpty && k.eng.xfer.isNone && k.eng.sign.isNone && k.eng.tiles.all (fun t => t.wrote) && k.swap.isNone

/-- Whether a Vitrine stands at the safe point of its step (R278). -/
def Dev.atSafePoint (d : Dev) (v : VitId) (preempt : Nat) : Bool :=
  let quiet := (coresOfVit v).all (fun k => (d.core (BitVec.ofNat 9 k)).quiesced)
  quiet && (preempt == 2 || ((d.vit v).disp.idle && (d.vit v).disp.swapped.isEmpty))

/-- Remote operations of a Vitrine outstanding, those of its step (R280). -/
def Dev.remoteOut (d : Dev) (v : VitId) : Nat :=
  d.fab.ops.countP (fun o => o.v == v && (match o.src with | .ins _ => true | _ => false))

/-- S of R279 and T of R280 for one Vitrine. -/
def Dev.switchTime (d : Dev) (v : VitId) : Nat × Nat :=
  let blocks := (coresOfVit v).flatMap (fun k => d.resident (BitVec.ofNat 9 k))
  let steps := ((clusOfVit v).map (fun k => (d.clu k).stepGran.length * 65536)).foldl (· + ·) 0
  let sz := (blocks.map Block.liveBytes).foldl (· + ·) 0 + steps
  let c := d.cacheBytes v - (d.vit v).pinned
  (sz, 1500 + cdiv (min sz c) 1536 + cdiv (sz - c) 384 + 350 * d.remoteOut v)

/-- STEP_SAFE_POINT (R278): every Vitrine of the mask stands at its safe point and the save begins. -/
def execStepSafePoint (leader : VitId) (seq : Word) (s : State) : Out :=
  run s (fun x =>
    match x.dev.srv.steps.find? (fun t => t.leader == leader && t.seq == seq && t.st == .running) with
    | none => x
    | some t =>
      let vs := vitsOf t.mask
      if !t.stopAsked || !t.ends.isEmpty || t.ckpt || descPreempt t.raw == 0 || (x.dev.vit leader).halt != 0 || !vs.all (fun v => x.dev.runs (dieOfVit v)) ||
          !vs.all (fun v => x.dev.atSafePoint v (descPreempt t.raw)) then x
      else
        let x := vs.foldl (fun (y : X) v => (coresOfVit v).foldl (fun (z : X) k => z.remotePump (BitVec.ofNat 9 k)) y) x
        x.on (fun d =>
          let now := d.cyc (dieOfVit leader)
          d.setStep t (fun u => { u with st := .saving, used := u.used + (now - u.since), dues := vs.map (fun v => (v, d.clocked v + (d.switchTime v).2)) })))

/-- Shift the first arrivals of a block's barriers (R53). -/
def Block.shiftBars (b : Block) (f : Nat → Nat) : Block :=
  { b with barB := kmapv f b.barB, groups := b.groups.map (fun q => { q with barG := q.barG.map f }) }

/-- Whether a key is of a table that a whole step sees with one content (R97, R112): codebooks, thresholds, LAYER_WATCH. -/
def stepTable (v : VitId) (k : Nat) : Bool :=
  ofVit v k && (0x9000 ≤ k / 16777216 || (k / 16777216 == 0x3000 + v.toNat * 16 + 4 && k / 65536 % 256 == 1))

/-- The saved context of one Vitrine (R279). -/
def X.saveVit (x : X) (v : VitId) : SavedVit :=
  let d := x.dev
  let now := d.cyc (dieOfVit v)
  let one (k : Nat) (e : Nat × Block) : SavedBlk :=
    let (scr, clus) := x.blockBytes (BitVec.ofNat 9 k) e.2
    let q := (d.core (BitVec.ofNat 9 k)).eng.queue.filter (fun i => i.owner.slot == e.1)
    { core := k, slot := e.1, blk := ({ e.2 with queued := q } : Block).shiftBars (fun t => now - t), scr, clus }
  let blocks := (coresOfVit v).flatMap (fun k => ((d.core (BitVec.ofNat 9 k)).slots).map (one k))
  let region (k : Nat) (m : Nat) : SavedStep :=
    { cluster := k, bytes := m, data := (d.clu k).stepGran.zipIdx.flatMap (fun (g : Nat × Nat) =>
        (x.mem.clus.filter (fun q => k * 2 ^ 24 + g.1 * 65536 ≤ q.1 && q.1 < k * 2 ^ 24 + g.1 * 65536 + 65536)).map
          (fun q => (g.2 * 65536 + (q.1 - k * 2 ^ 24 - g.1 * 65536), q.2))) }
  let steps := (clusOfVit v).filterMap (fun k => ((d.clu k).stepBytes).map (region k))
  let (bytes, cycles) := d.switchTime v
  let p := (d.vit v).disp
  { v, disp := { p with swapped := p.swapped.map (fun w => { w with blk := w.blk.shiftBars (fun t => now - t) }) }, blocks, steps, bytes,
    remote := d.remoteOut v, cycles, tables := d.cat.force.filter (fun e => stepTable v e.1), ins := (d.fab.ins.filter (fun i => vitOfCore i.core == v && !d.insSaved i)).map (·.id) }

/-- A Vitrine's cores after its context has been saved. -/
def Dev.emptyVit (d : Dev) (v : VitId) : Dev :=
  let d := (coresOfVit v).foldl (fun (e : Dev) k => e.setCore (BitVec.ofNat 9 k) (fun c =>
    { c with slots := [], slot0 := none, issued := [], exc := none, eng := { c.eng with queue := [], wa := {}, wb := {}, wo := {}, bankAt := [], released := [] } })) d
  let d := (clusOfVit v).foldl (fun (e : Dev) k => e.setClu k (fun _ => {})) d
  d.setVit v (fun t => { t with disp := {} })

/-- STEP_SAVE_DONE (R69, R279, R280): T has elapsed in every Vitrine and the step is SAVED. -/
def execStepSaveDone (leader : VitId) (seq : Word) (s : State) : Out :=
  run s (fun x =>
    match x.dev.srv.steps.find? (fun t => t.leader == leader && t.seq == seq && t.st == .saving) with
    | none => x
    | some t =>
      if !t.dues.all (fun e => x.dev.runs (dieOfVit e.1)) then x
      else
        let x := x.on (fun d => d.reachAll t.dues)
        let vs := vitsOf t.mask
        let saved := vs.map x.saveVit
        x.on (fun d =>
          let d := saved.foldl (fun (e : Dev) c =>
            ((e.count 0x801A 3 c.v.toNat c.cycles).count 0x8011 6 c.v.toNat ((c.blocks.map (fun b => b.blk.openBanks)).foldl (· + ·) 0)).emptyVit c.v) d
          (d.setStep t (fun u => { u with st := .saved, stopAsked := false, saved := saved })).count 0x801A 2 leader.toNat))

/-- A resumed step sees the tables it began with again (R97): what differs from them takes effect like any change (R135). -/
def X.retable (x : X) (v : VitId) (old : KMap Nat) : X :=
  let value (m : KMap Nat) (k : Nat) : Nat := (kfind m k).getD (entryDefault (k / 16777216) (k / 65536 % 256) (k % 65536))
  let now := x.dev.cat.force.filter (fun e => stepTable v e.1)
  let ch := ((old ++ now).filter (fun e => value old e.1 != value now e.1)).map (fun e => (e.1, value old e.1))
  (x.on (fun d => d.pvDrop v (fun p => !ch.all (p.lives d v)))).on (fun d => d.onCat (fun c =>
    { c with force := old.foldl (fun m e => kset m e.1 e.2) (kdrop (stepTable v) c.force) }))

/-- Put a saved Vitrine's context back (R280): blocks return to the cores and granules they left. -/
def X.restoreVit (x : X) (c : SavedVit) : X :=
  let now := x.dev.cyc (dieOfVit c.v)
  let x := x.on (fun d => d.setVit c.v (fun t => { t with disp :=
    { c.disp with swapped := c.disp.swapped.map (fun w => { w with blk := w.blk.shiftBars (fun t => now - t) }) } }))
  let x := x.retable c.v c.tables
  let x := c.blocks.foldl (fun (y : X) b =>
    let k : CoreId := BitVec.ofNat 9 b.core
    let y := y.on (fun d => (d.setBlk k b.slot (({ b.blk with queued := [] } : Block).shiftBars (fun t => now - t))).setCore k (fun e =>
      { e with eng := { e.eng with queue := (e.eng.queue ++ b.blk.queued).mergeSort (fun i j => i.id ≤ j.id) } }))
    y.restoreBytes k b.blk b.scr b.clus) x
  c.steps.foldl (fun (y : X) t =>
    let g := freeGran (gran64 t.bytes) 256 ((y.dev.clusBlocks t.cluster).flatMap (·.clusGran))
    let y := y.on (fun d => d.setClu t.cluster (fun _ => { stepBytes := some t.bytes, stepGran := g }))
    let y := g.foldl (fun (z : X) n => z.op (.zero .clus (t.cluster * 2 ^ 24 + n * 65536) 65536)) y
    t.data.foldl (fun (z : X) e => z.op (.set .clus (z.dev.stepAt t.cluster e.1) e.2)) y) x

/-- STEP_RESTORE_DONE (R280): T has elapsed and the step resumes. -/
def execStepRestoreDone (leader : VitId) (seq : Word) (s : State) : Out :=
  run s (fun x =>
    match x.dev.srv.steps.find? (fun t => t.leader == leader && t.seq == seq && t.st == .restoring) with
    | none => x
    | some t =>
      if !t.dues.all (fun e => x.dev.runs (dieOfVit e.1)) then x
      else
        let x := x.on (fun d => d.reachAll t.dues)
        let x := t.saved.foldl X.restoreVit x
        x.on (fun d =>
          let d := t.saved.foldl (fun (e : Dev) c => e.count 0x801A 3 c.v.toNat c.cycles) d
          d.setStep t (fun u => { u with st := .running, saved := [], since := d.cyc (dieOfVit leader) })))

end Sys2Proof.Machine
end

