-- ==== Sys2Proof/Machine/Dma.lean ====
section
/-! DEFINITION. DMA descriptors (R209, R282) and media requests (R283, R284, R289). -/

namespace Sys2Proof.Machine

/-! ### Fields of a DMA descriptor (R282) -/

def dSrc (r : BitVec 512) : Nat := fld r.toNat 460 52
def dDst (r : BitVec 512) : Nat := fld r.toNat 408 52
def dLen (r : BitVec 512) : Nat := fld r.toNat 376 32
def dDevice (r : BitVec 512) : DevId := (r >>> 360).setWidth 16
def dSrcHost (r : BitVec 512) : Bool := r.getLsbD 359
def dDstHost (r : BitVec 512) : Bool := r.getLsbD 358
def dmaHint (r : BitVec 512) : Nat := fld r.toNat 356 2
def dGcOp (r : BitVec 512) : Nat := fld r.toNat 352 4
def dCluster (r : BitVec 512) : Option Nat := if r.getLsbD 351 then some (fld r.toNat 344 6) else none
def dFill (r : BitVec 512) : Nat := fld r.toNat 312 32
def dFence (r : BitVec 512) : Bool := r.getLsbD 23

/-! ### Transfers -/

/-- Read a piece of a transfer's source; none, and an error record, when it is not valid (R29). -/
def X.dmaRead (x : X) (v l : VitId) (host : Bool) (a n : Nat) : X × Option (List Byte × Bool) :=
  if host then (x, some (x.mem.bytes .host a n, false))
  else if !x.dev.valid l a n then (x.on (fun d => d.addrErr v none (d.firstBad l a n) 0), none)
  else
    let (y, bytes, bad) := x.readBytes a n (some (.dma v))
    ({ y with dev := (y.dev.watch (vitOfAddr a) 4 a n 0x3FF).1 }, some (bytes, bad))

/-- Write a piece of a transfer's destination: host memory, a step region, or device memory with the descriptor's hint; false, and an error record of a device
address, when it is not valid (R29). -/
def X.dmaWrite (x : X) (v l : VitId) (raw : BitVec 512) (a : Nat) (bytes : List Byte) (bad : Nat → Bool) : X × Bool :=
  match dCluster raw with
  | some k =>
    if a + bytes.length ≤ ((x.dev.clu k).stepBytes).getD 0 then (x.landDma 2 (k * 2 ^ 24 + a) bytes, true) else (x, false)
  | none =>
    if dDstHost raw then (x.putBytes .host a bytes, true)
    else if !x.dev.valid l a bytes.length then (x.on (fun d => d.addrErr v none (d.firstBad l a bytes.length) 0), false)
    else
      let y := x.writeBytes a bytes (dmaHint raw) bad (some (.dma v))
      ({ y with dev := (y.dev.watch (vitOfAddr a) 4 a bytes.length 0x3FF).1 }, true)

/-- The pieces of a destination range by 64-byte granule: offset and length. -/
def granPieces (dst len : Nat) : List (Nat × Nat) :=
  if len = 0 then []
  else (List.range ((dst + len - 1) / 64 - dst / 64 + 1)).map (fun i =>
    let lo := max dst ((dst / 64 + i) * 64)
    (lo - dst, min (dst + len) ((dst / 64 + i) * 64 + 64) - lo))

/-- What a descriptor's transfers came to: bytes performed, the failures met (statuses of R270; 22 stands for FAULT on poison, R356) and
whether an invalid piece ended them. -/
structure Moved where
  x : X
  n : Nat := 0
  ends : List Nat := []
  stop : Bool := false

def Moved.add (m : Moved) (st : Nat) : Moved := { m with ends := if m.ends.contains st then m.ends else m.ends ++ [st] }

/-- One piece from a source's bytes to the destination; `bad` lists the granules of it whose source was poisoned. -/
def Moved.put (m : Moved) (v l : VitId) (raw : BitVec 512) (a : Nat) (bytes : List Byte) (bad : List Nat) : Moved :=
  let (y, ok) := m.x.dmaWrite v l raw a bytes bad.contains
  if ok then (let m : Moved := { m with x := y, n := m.n + bytes.length }
              if bad.isEmpty then m else m.add 22)
  else { m.add 8 with x := y, stop := true }

/-- Read the source of one line's piece of a COPY by granule of the destination: the bytes up to the first part that is not
valid, the destination granules whose source is poisoned, and whether all of it was valid. -/
def X.copyRead (x : X) (v l : VitId) (raw : BitVec 512) (src dst n : Nat) : X × List Byte × List Nat × Bool :=
  (granPieces dst n).foldl (fun (acc : X × List Byte × List Nat × Bool) p =>
    if !acc.2.2.2 then acc
    else match acc.1.dmaRead v l (dSrcHost raw) (src + p.1) p.2 with
      | (y, some (bytes, bad)) =>
        (y, acc.2.1 ++ bytes, if bad then acc.2.2.1 ++ [(dst + p.1) / 64] else acc.2.2.1, true)
      | (y, none) => (y, acc.2.1, acc.2.2.1, false)) (x, [], [], true)

/-- Whether every transfer of a DMA descriptor has been performed at its destination (R209). -/
def Dev.performed (d : Dev) (v : VitId) (r : Nat) (f : Fetched) : Bool :=
  f.done.isSome || (f.started && !d.transferring v r f.seq)

/-- The fetched descriptor that a command names, when it may begin: undecided, not begun, its ORDER_FENCE satisfied (R209). -/
def Dev.dmaReady (d : Dev) (v : VitId) (r op : Nat) (seq : Word) : Option Fetched :=
  let q := d.ring v r
  let before := q.fetched.takeWhile (fun f => !(f.seq == seq && f.done.isNone))
  match (q.fetched.drop before.length).head? with
  | some f =>
    if q.type == 1 && !f.started && descOp f.raw == op && d.runs (dieOfVit v) && (!dFence f.raw || before.all (d.performed v r)) then some f else none
  | none => none

/-- Run a DMA descriptor: `bad` is a check of its fields that fails (R270, R282), `go` its transfers; its reserved fields are ignored (R10). -/
def execDma (v : VitId) (r : RingId) (op : Nat) (seq : Word) (s : State) (bad : BitVec 512 → Bool) (go : VitId → Fetched → X → Moved) : Out :=
  run s (fun x =>
    match x.dev.dmaReady v r.toNat op seq, (x.dev.vit v).leader with
    | some f, some l =>
      let foreign := match dCluster f.raw with
        | some k => (x.dev.vit (BitVec.ofNat 5 (k / 2))).leader != some l
        | none => false
      if bad f.raw || foreign then x.complete v r.toNat seq 3 0
      else
        let x := x.on (fun d => d.setRing v r.toNat (fun q =>
          { q with fetched := updFirst (fun g => g.seq == seq && g.done.isNone) (fun g => { g with started := true }) q.fetched }))
        let m := go l f x
        m.x.on (fun d => d.setRing v r.toNat (fun q =>
          { q with fetched := updFirst (fun g => g.seq == seq && g.done.isNone)
                     (fun g => { g with moved := g.moved + m.n, ends := g.ends ++ m.ends }) q.fetched }))
    | _, _ => x)

/-- COPY (R282): pieces in ascending order, up to the first that is not valid. -/
def execCopy (v : VitId) (r : RingId) (seq : Word) (s : State) : Out :=
  execDma v r 0x10 seq s (fun raw => dLen raw == 0) (fun l f x =>
    (linePieces (dDst f.raw) (dLen f.raw)).foldl (fun (m : Moved) (p : Nat × Nat × Nat) =>
      if m.stop then m
      else
        let a := p.1 * 128 + p.2.1
        let (y, bytes, bad, ok) := m.x.copyRead v l f.raw (dSrc f.raw + (a - dDst f.raw)) a p.2.2
        let m := if bytes.isEmpty then { m with x := y } else ({ m with x := y } : Moved).put v l f.raw a bytes bad
        if ok then m else { m.add 8 with stop := true }) { x })

/-- FILL (R282). -/
def execFill (v : VitId) (r : RingId) (seq : Word) (s : State) : Out :=
  execDma v r 0x11 seq s (fun raw => dLen raw % 4 != 0) (fun l f x =>
    (linePieces (dDst f.raw) (dLen f.raw)).foldl (fun (m : Moved) (p : Nat × Nat × Nat) =>
      if m.stop then m
      else
        let a := p.1 * 128 + p.2.1
        m.put v l f.raw a ((List.range p.2.2).map (fun i => BitVec.ofNat 8 (dFill f.raw / 256 ^ ((a - dDst f.raw + i) % 4)))) []) { x })

/-- Checks of RPUT and RGET descriptors (R282). -/
def remoteBad (raw : BitVec 512) : Bool := dLen raw % 64 != 0 || dSrc raw % 64 != 0 || dDst raw % 64 != 0

/-- DMA RPUT (R246, R282): the source is read in ascending order and put in operations of up to 256 bytes; a poisoned source is not sent. -/
def execDmaRput (v : VitId) (r : RingId) (seq : Word) (s : State) : Out :=
  execDma v r 0x12 seq s remoteBad (fun l f x =>
    (pieces256 (dLen f.raw)).foldl (fun (m : Moved) (p : Nat × Nat) =>
      if m.stop then m
      else if 2 ^ 44 < dDst f.raw + p.1 + p.2 then { m.add 8 with stop := true }
      else match m.x.dmaRead v l (dSrcHost f.raw) (dSrc f.raw + p.1) p.2 with
        | (y, none) => { m.add 8 with x := y, stop := true }
        | (y, some (bytes, bad)) =>
          if bad then { m.add 22 with x := y, stop := true }
          else { m with x := y.on (fun d => d.newOp v (.dma r.toNat seq) (dDevice f.raw) .put 0 (dDst f.raw + p.1) p.2 0 0 bytes 1 0) }) { x })

/-- Whether a local destination of an RGET piece is valid, and its place as the fabric lands it. -/
def Dev.getPlace (d : Dev) (l : VitId) (raw : BitVec 512) (a n : Nat) : Option (Nat × Nat) :=
  match dCluster raw with
  | some k => if a + n ≤ ((d.clu k).stepBytes).getD 0 then some (2, k * 2 ^ 24 + a) else none
  | none => if dDstHost raw then some (5, a) else if d.valid l a n then some (1, a) else none

/-- DMA RGET (R246, R282). -/
def execDmaRget (v : VitId) (r : RingId) (seq : Word) (s : State) : Out :=
  execDma v r 0x13 seq s remoteBad (fun l f x =>
    (pieces256 (dLen f.raw)).foldl (fun (m : Moved) (p : Nat × Nat) =>
      if m.stop then m
      else match m.x.dev.getPlace l f.raw (dDst f.raw + p.1) p.2 with
        | some (sp, loc) =>
          if 2 ^ 44 < dSrc f.raw + p.1 + p.2 then { m.add 8 with stop := true }
          else { m with x := m.x.on (fun d => d.newOp v (.dma r.toNat seq) (dDevice f.raw) .get 0 (dSrc f.raw + p.1) p.2 0 0 [] sp loc) }
        | none => { m.add 8 with stop := true, x := if dDstHost f.raw || (dCluster f.raw).isSome then m.x
                                                      else m.x.on (fun d => d.addrErr v none (d.firstBad l (dDst f.raw + p.1) p.2) 0) }) { x })

/-- The range operation of a GC_OP code (R282). -/
def gcOpOf (n : Nat) : Option GcOp := [GcOp.prefetch, .flush, .invalWb, .invalNoWb, .pin, .unpin][n]?

/-- DMA GALLERY (R173, R282): the range operation of GC_OP; DETAIL holds PIN's status or the bytes of the range. -/
def execGallery (v : VitId) (r : RingId) (seq : Word) (s : State) : Out :=
  execDma v r 0x14 seq s (fun raw => (gcOpOf (dGcOp raw)).isNone || dLen raw == 0 || dLen raw % 128 != 0 || dSrc raw % 128 != 0) (fun l f x =>
    match gcOpOf (dGcOp f.raw) with
    | none => { x }
    | some op =>
      if !x.dev.valid l (dSrc f.raw) (dLen f.raw) then { x := x.on (fun d => d.addrErr v none (d.firstBad l (dSrc f.raw) (dLen f.raw)) 0), ends := [8] }
      else
        let (y, st) := x.rangeStart op (dSrc f.raw) (dLen f.raw) none none (some (ringKey v r.toNat, seq))
        { x := y, n := if op == .pin then st else dLen f.raw })

/-- The status of a DMA descriptor by the failures it met (R270). -/
def dmaStatus (ends : List Nat) : Nat :=
  if ends.contains 6 || ends.contains 22 then 6 else ([8, 9, 7].find? ends.contains).getD 0

/-- DMA_TRANSFER_DONE (R209, R210, R356): every transfer is performed, the completion is posted, and consumed poison ends the job. -/
def execDmaTransferDone (v : VitId) (r : RingId) (seq : Word) (s : State) : Out :=
  run s (fun x =>
    match (x.dev.ring v r.toNat).fetched.find? (fun f => f.seq == seq && f.done.isNone) with
    | some f =>
      if (x.dev.ring v r.toNat).type != 1 || !f.started || !x.dev.performed v r.toNat f || !x.dev.runs (dieOfVit v) then x
      else
        let st := dmaStatus f.ends
        let x := x.on (fun d => d.trace v 7 0x3FF (r.toNat + st * 2048))
        let x := x.complete v r.toNat seq st f.moved
        if f.ends.contains 22 then x.docentPoison v (dSrc f.raw) else x
    | none => x)

/-! ### Media requests (R283, R284) -/

def mSrc (r : BitVec 512) : Nat := fld r.toNat 468 44
def mDst (r : BitVec 512) : Nat := fld r.toNat 424 44
def mCap (r : BitVec 512) : Nat := fld r.toNat 392 32
def mWidth (r : BitVec 512) : Nat := fld r.toNat 376 16
def mHeight (r : BitVec 512) : Nat := fld r.toNat 360 16
def mFormat (r : BitVec 512) : Nat := fld r.toNat 356 4
def mFrames (r : BitVec 512) : Nat := fld r.toNat 344 12
def mDeadline (r : BitVec 512) : Nat := fld r.toNat 272 32
def mHint (r : BitVec 512) : Nat := fld r.toNat 270 2

/-- Bytes of a full frame in PIXEL_FORMAT: NV12, P010, RGBA8, RGBA_FP16. -/
def frameBytes (r : BitVec 512) : Nat :=
  let n := mWidth r * mHeight r
  match mFormat r with
  | 0 => n * 3 / 2
  | 1 => n * 3
  | 2 => n * 4
  | _ => n * 8

/-- A field of a media descriptor that fails its range (R283); its reserved field is ignored (R10). -/
def mediaBad (encode : Bool) (r : BitVec 512) : Bool :=
  let dim (n lim : Nat) : Bool := n % 8 != 0 || n < 64 || lim < n
  dim (mWidth r) 7680 || dim (mHeight r) 4320 || (if encode then 3 else 1) < mFormat r || mFrames r == 0

/-- The key by which an engine orders its requests (R284): deadline, none last, then fetch order. -/
def Fetched.due (f : Fetched) : Nat := if mDeadline f.raw == 0 then 2 ^ 64 else f.at' + mDeadline f.raw

/-- The requests an engine holds, of the rings bound to it. -/
def Dev.mediaHeld (d : Dev) (e : Nat) : List (VitId × Nat × Fetched) :=
  (vitsOfDie (e / 2)).flatMap (fun v => (d.ringsOf v).flatMap (fun r =>
    let q := d.ring v r
    if q.type == 2 && engineOf v q == e then (q.fetched.filter (fun f => f.done.isNone)).map (fun f => (v, r, f)) else []))

/-- The begun request that is served next (R284). -/
def Dev.mediaNext (d : Dev) (e : Nat) : Option (VitId × Nat × Fetched) :=
  ((d.mediaHeld e).filter (fun h => h.2.2.started)).foldl (fun (b : Option (VitId × Nat × Fetched)) h =>
    match b with
    | none => some h
    | some o => if h.2.2.due < o.2.2.due || (h.2.2.due == o.2.2.due && h.2.2.ord < o.2.2.ord) then some h else b) none

/-- Set an engine to the request it serves next; MEDIA_BUSY_CYCLES (R322) counts the cycles since the last choice. -/
def Dev.mediaPick (d : Dev) (e : Nat) : Dev :=
  let d := if (d.media e).cur.isSome then d.count 0xB000 3 e (d.ref - (d.media e).since) else d
  let cur := (d.mediaNext e).map (fun h => (h.1, h.2.1, h.2.2.seq))
  d.setMedia e (fun m => { m with cur := cur, since := d.ref })

/-- A media request begins: it is checked and joins its engine's requests. -/
def execMedia (v : VitId) (r : RingId) (op : Nat) (seq : Word) (profileOk : Bool) (s : State) : Out :=
  run s (fun x =>
    let q := x.dev.ring v r.toNat
    match q.fetched.find? (fun f => f.seq == seq && f.done.isNone) with
    | some f =>
      let e := engineOf v q
      if q.type != 2 || f.started || descOp f.raw != op || !x.dev.runs (dieOfVit v) then x
      else if !profileOk || mediaBad (decide (op ≤ 0x21)) f.raw then (x.on (fun d => d.count 0x801A 8 v.toNat)).complete v r.toNat seq 3 0
      else
        x.on (fun d =>
          let d := d.setRing v r.toNat (fun q => { q with fetched := updFirst (fun g => g.seq == seq && g.done.isNone) (fun g => { g with started := true }) q.fetched })
          if (d.media e).cur.isNone then d.mediaPick e else d)
    | none => x)

/-- ENCODE_AV1 (R283). -/
def execEncodeAv1 (v : VitId) (r : RingId) (seq : Word) (s : State) : Out := execMedia v r 0x20 seq true s
/-- ENCODE_HEVC (R283). -/
def execEncodeHevc (v : VitId) (r : RingId) (seq : Word) (s : State) : Out := execMedia v r 0x21 seq true s
/-- DECODE_AV1 (R283): `profileOk` is whether the bitstream's profile is supported. -/
def execDecodeAv1 (v : VitId) (r : RingId) (seq : Word) (profileOk : Bool) (s : State) : Out := execMedia v r 0x22 seq profileOk s
/-- DECODE_HEVC (R283). -/
def execDecodeHevc (v : VitId) (r : RingId) (seq : Word) (profileOk : Bool) (s : State) : Out := execMedia v r 0x23 seq profileOk s

/-- Complete a media request (R283, R289): DETAIL is the bytes written, or the frames done when it is squashed. -/
def X.mediaDone (x : X) (v : VitId) (r : Nat) (f : Fetched) (status : Nat) : X :=
  let late := status == 0 && mDeadline f.raw != 0 && f.due < x.dev.ref
  let st := if late then 0x0A else status
  let x := x.on (fun d => d.count 0x801A 8 v.toNat)
  let x := if late then x.on (fun d => (d.count 0x801A 9 v.toNat).count 0xB000 4 (engineOf v (d.ring v r))) else x
  x.complete v r f.seq st (if st == 7 then f.frames else f.moved)

/-- MEDIA_FRAME_BOUNDARY (R284): the engine has finished a frame of its request. `bytes` is the length the codec's standard gives the
frame's bitstream: the output of an encode, the input of a decode. The output's contents are the codec's, a free value. -/
def execMediaFrameBoundary (e : EngineId) (bytes : Word) (poison : Bool) (s : State) : Out :=
  run s (fun x =>
    let e := e.toNat
    if !x.dev.runs (e / 2) then x
    else
      let x := match (x.dev.media e).cur with
        | none => x
        | some (v, r, seq) =>
          match (x.dev.ring v r).fetched.find? (fun (f : Fetched) => f.seq == seq && f.done.isNone), (x.dev.vit v).leader with
          | some f, some l =>
            let raw := f.raw
            let encode := descOp raw ≤ 0x21
            let src := mSrc raw + (if encode then f.frames * frameBytes raw else f.srcPos)
            let inLen := if encode then frameBytes raw else bytes.toNat
            let outLen := if encode then bytes.toNat else frameBytes raw
            let fits := min outLen (mCap raw - f.moved)
            let srcOk := x.dev.valid l src inLen
            if !srcOk || !x.dev.valid l (mDst raw + f.moved) fits then
              (x.on (fun d => d.addrErr v (some (11, e)) (if srcOk then d.firstBad l (mDst raw + f.moved) fits else d.firstBad l src inLen) 0)).mediaDone v r f 8
            else
              let (y, _, bad) := x.readBytes src inLen (some (.media e))
              let x : X := { y with dev := (y.dev.watch (vitOfAddr src) 5 src inLen 0x3FF).1 }
              if bad || poison then (x.mediaDone v r f 6).docentPoison v src
              else
                let (n, d) := x.dev.draw
                let x : X := { x with dev := d }
                let x := x.writeBytes (mDst raw + f.moved) ((List.range fits).map (Config.mediaByte n)) (mHint raw) (fun _ => false) (some (.media e))
                let x : X := { x with dev := (x.dev.watch (vitOfAddr (mDst raw)) 5 (mDst raw + f.moved) fits 0x3FF).1 }
                let x := x.on (fun d => d.count 0xB000 2 e (mWidth raw * mHeight raw))
                let f := { f with frames := f.frames + 1, moved := f.moved + fits, srcPos := f.srcPos + inLen }
                let x := x.on (fun d => d.setRing v r (fun q => { q with fetched := updFirst (fun g => g.seq == seq && g.done.isNone) (fun _ => f) q.fetched }))
                if fits < outLen then x.mediaDone v r f 0x0B
                else if f.ends.contains 7 then x.mediaDone v r f 7
                else if mFrames raw ≤ f.frames then x.mediaDone v r f 0
                else x
          | _, _ => x
      x.on (fun d => d.mediaPick e))

/-- MEDIA_ADMIN of an engine (R289): 0 enabled, 1 drain, 2 squash: the current request stops at its next frame boundary, the others
complete SQUASHED. -/
def X.doMediaAdmin (x : X) (e val : Nat) : X × Nat :=
  if 2 < val || 16 ≤ e then (x, stRange)
  else
    let x := x.on (fun d => (d.setMedia e (fun m => { m with admin := val })).setAcc 0xB010 1 e val)
    if val != 2 then (x, stOk)
    else
      ((x.dev.mediaHeld e).foldl (fun (y : X) (h : VitId × Nat × Fetched) =>
        if (y.dev.media e).cur == some (h.1, h.2.1, h.2.2.seq) then
          y.on (fun d => d.setRing h.1 h.2.1 (fun q => { q with fetched := updFirst (fun g => g.seq == h.2.2.seq && g.done.isNone)
                                                                  (fun g => { g with ends := g.ends ++ [7] }) q.fetched }))
        else y.mediaDone h.1 h.2.1 h.2.2 7) x, stOk)

end Sys2Proof.Machine
end

