-- ==== Sys2Proof/Machine/Crate.lean ====
section
/-! DEFINITION. Crates (R292-R294, R402). -/

namespace Sys2Proof.Machine

/-- Whether every Vitrine of a tenancy is in a state. -/
def Dev.allIn (d : Dev) (l : VitId) (st : VitSt) : Bool := (d.tenancy l).all (fun v => (d.vit v).st == st)

/-- FREEZE_SAFE and FREEZE_BOUNDARY begin (R278, R292): fetching stops; a safe freeze asks running steps to stop at their safe points. -/
def X.doFreeze (x : X) (l : VitId) (boundary : Bool) : X × Nat :=
  if !x.dev.leads l then (x, stRange)
  else if !x.dev.allIn l .assigned || (x.dev.crate l).freezing then (x, stBusy)
  else
    let x := x.on (fun d => (d.setCrate l { freezing := true, boundary }).setCmd l 3 1)
    let ask (s : StepRec) : StepRec :=
      if s.leader == l && s.st != .saved && s.st != .saving && descPreempt s.raw != 0 then { s with stopAsked := true } else s
    (if boundary then x else x.on (fun d => d.onSrv (fun q => { q with steps := q.steps.map ask })), stProgress)

/-- FREEZE_DONE (R292): fetched requests have finished and every step is saved, or has ended. -/
def execFreezeDone (leader : VitId) (s : State) : Out :=
  run s (fun x =>
    let c := x.dev.crate leader
    let vs := x.dev.tenancy leader
    let stepsOk := x.dev.srv.steps.all (fun t => t.leader != leader || (t.st == .saved && !c.boundary))
    let busy := vs.any (fun v => (x.dev.ringsOf v).any (fun r => let q := x.dev.ring v r; q.type != 0 && q.fetched.any (fun f => f.done.isNone)))
    if !c.freezing || !stepsOk || busy || !x.dev.allIn leader .assigned then x
    else
      let x := x.on (fun d => vs.foldl (fun (e : Dev) v => e.vitState v .frozen) (d.setCrate leader {}))
      (x.ringEvent leader 0x81 0).on (fun d => d.endCmd leader 3 0))

/-- THAW (R292): fetching and scheduling resume. -/
def X.doThaw (x : X) (l : VitId) : X × Nat :=
  if !x.dev.leads l then (x, stRange)
  else if !x.dev.allIn l .frozen then (x, stBusy)
  else
    let x := x.on (fun d => (d.tenancy l).foldl (fun (e : Dev) v => e.vitState v .assigned) d)
    ((x.ringEvent l 0x82 0).on (fun d => d.endCmd l 3 0), stProgress)

/-! ### Saving -/

/-- A section of a crate (R293, R294): its type, its Vitrine and its length. -/
structure CSec where
  type : Nat
  vit : Nat
  len : Nat

/-- The sections of a tenancy's crate in directory order (R294, R402): SEAL, then each Vitrine's. Lengths include the 16-byte tags; those of
the seal, the settings and the contexts are not in the spec. -/
def Dev.sections (d : Dev) (l : VitId) (memory : Bool) (n : Nat) : List CSec :=
  let ctx := d.srv.steps.any (fun s => s.leader == l)
  [{ type := 0x0100, vit := 0xFF, len := Config.sectionLen n 0 }] ++
  (d.tenancy l).flatMap (fun v =>
    let k := v.toNat
    [{ type := 1, vit := k, len := Config.sectionLen n (8 * k + 1) },
     { type := 2, vit := k, len := 255 * 16 + 4096 * 2 + 2 + 16 },
     { type := 3, vit := k, len := 2048 * (16 + 21) + 16 }] ++
    (if ctx then [{ type := 4, vit := k, len := Config.sectionLen n (8 * k + 4) }] else []) ++
    [{ type := 5, vit := k, len := (d.vit v).padSteps * stepBytes + 16 }] ++
    (if memory then [{ type := 6, vit := k, len := windowBytes + 16 }] else []))

/-- Where the sections begin: after the header and the directory. -/
def secOffset (ss : List CSec) (i : Nat) : Nat := 128 + 32 * ss.length + ((ss.take i).map (·.len)).foldl (· + ·) 0

/-- A directory row (R293). -/
def dirEntry (ss : List CSec) (e : CSec × Nat) : List Byte :=
  leBytes e.1.type 2 ++ leBytes e.1.vit 1 ++ leBytes 0 5 ++ leBytes (secOffset ss e.2) 8 ++ leBytes e.1.len 8 ++ leBytes 0 8

/-- The crate header (R293). -/
def Dev.crateHead (d : Dev) (l : VitId) (memory : Bool) (n : Nat) (ss : List CSec) : Nat :=
  let ctx := ss.any (fun s => s.type == 4)
  (Config.digest [n, 0x293]).toNat * 2 ^ 768 + Config.packageSerial.toNat * 2 ^ 672 + d.fw.version % 2 ^ 32 * 2 ^ 640 + (d.group l).toNat * 2 ^ 608 +
  (d.epoch l).toNat * 2 ^ 576 + (d.tenMask l).toNat * 2 ^ 544 + ss.length % 2 ^ 16 * 2 ^ 528 +
  ((if memory then 1 else 0) + (if ctx then 2 else 0)) * 2 ^ 520 + 1 * 2 ^ 112 + 0x3145544152435A48

/-- SAVE (R292-R294, R402): the crate is written to the host buffer. Ciphertext, tags and the seal are free values. -/
def X.doSave (x : X) (l : VitId) (memory : Bool) (buf : HostBuf) : X × Nat :=
  if !x.dev.leads l then (x, stRange)
  else if !x.dev.allIn l .frozen then (x, stBusy)
  else
    let (n, d) := x.dev.draw
    let x : X := { x with dev := d }
    let ss := x.dev.sections l memory n
    let need := secOffset ss ss.length
    if buf.len.toNat < need then (x.on (fun d => d.endCmd l 3 7 need), stProgress)
    else
      let clear := leBytes (x.dev.crateHead l memory n ss) 128 ++ ss.zipIdx.flatMap (dirEntry ss)
      let x := x.putBytes .host buf.addr.toNat clear
      let x := x.putBytes .host (buf.addr.toNat + clear.length) ((List.range (need - clear.length)).map (Config.fileByte n))
      let steps := x.dev.srv.steps.filter (fun s => s.leader == l)
      (x.on (fun d => (d.onSrv (fun s => { s with crates := kset s.crates n steps })).endCmd l 3 0), stProgress)

/-! ### Restoring -/

/-- The status a crate's checks give (R293-R295, R402): 4 DIGEST, 5 VERSION, 6 MASK. -/
def Dev.crateStatus (d : Dev) (l : VitId) (c : CrateInfo) : Nat :=
  if !c.magicOk then 4
  else if !c.versionOk then 5
  else if !(c.digestOk && c.sealOk) then 4
  else if c.mask != d.tenMask l then 6
  else if c.contexts && (c.fw.toNat != d.fw.version || !c.steppingsOk) then 5
  else 0

/-- A ring as a crate carries it (R294). -/
def ringOf (cfg : BitVec 128) (st : List Nat) : Ring :=
  let w (i : Nat) : Word := BitVec.ofNat 32 (nthD 0 st i)
  { cfg, st := match nthD 0 st 5 with | 1 => .enabled | 2 => .disabling | _ => .disabled, sqHead := w 0, sqTail := w 1, cqHead := w 2, cqTail := w 3,
                                      nextSeq := w 4, offTail := w 1 }

/-- CRATE RESTORE (R292, R294, R402): a refused crate leaves the tenancy cleared; an accepted one leaves it FROZEN with the crate's settings,
rings, memory and step contexts. -/
def X.doCrateRestore (x : X) (l : VitId) (c : CrateInfo) : X × Nat :=
  let vs := x.dev.tenancy l
  if !x.dev.leads l then (x, stRange)
  else if !x.dev.allIn l .assigned || !x.dev.drained l || (x.dev.crate l).freezing then (x, stBusy)
  else
    let st := x.dev.crateStatus l c
    let x := vs.foldl X.clearVit x
    if st != 0 then (x.on (fun d => d.endCmd l 3 st), stProgress)
    else
      let x := c.settings.foldl (fun (y : X) (e : EntryRef × List Nat) =>
        e.2.zipIdx.foldl (fun (z : X) (r : Nat × Nat) =>
          let k := ckey e.1.index.toNat e.1.sub.toNat r.2
          if !vs.any (fun v => ofVit v k) then z else z.on (fun d => d.onCat (fun t => { t with acc := kset t.acc k r.1, force := kset t.force k r.1 }))) y) x
      let x := vs.foldl (fun (y : X) v => y.on (fun d =>
        let k := d.fresh
        ({ d with fresh := k + 1 } : Dev).setVit v (fun t => { t with padSteps := d.vacc v 7 1, pvSteps := d.vset v 5 2, pvKey := k }))) x
      let x := x.on (fun d => d.onSrv (fun s => { s with rings := (c.rings.filter (fun (e : Nat × BitVec 128) => vs.any (fun v => v.toNat == e.1 / 2048))).foldl (fun (m : KMap Ring) (e : Nat × BitVec 128) =>
        kset m e.1 (ringOf e.2 (((c.ringState.find? (fun t => t.1 == e.1)).map (·.2)).getD []))) s.rings }))
      let x := (c.memory.filter (fun (e : Nat × BitVec 8) => x.dev.valid l e.1 1)).foldl (fun (y : X) (e : Nat × BitVec 8) => y.op (.set (if e.1 < 2 ^ 41 then .hbm else .pad) e.1 e.2)) x
      let steps := if c.contexts then (kfind x.dev.srv.crates c.number).getD [] else []
      let x := x.on (fun d => d.onSrv (fun s => { s with steps := s.steps ++ steps }))
      (x.on (fun d => (vs.foldl (fun (e : Dev) v => e.vitState v .frozen) d).endCmd l 3 0), stProgress)

end Sys2Proof.Machine
end

