-- ==== Sys2Proof/Machine/Network.lean ====
section
/-! DEFINITION. The on-package networks: the seam (R215, R219), die links (R220-R224), the control network (R225) and the
regulation of master ports (R228-R233). -/

namespace Sys2Proof.Machine

/-! ### Bundles (R20, R21, R235) -/

/-- Report a direction's state (R235). -/
def Dev.postBund (d : Dev) (r : Nat) : Dev := d.post 0x0010 4 r (d.bund r).st ((d.bund r).failed.toNat % 2 ^ 64)

/-- BUNDLES_DEGRADED of a die (R31): its 16 bundles in bundle-name order. -/
def Dev.degraded (d : Dev) (i : Nat) : Nat :=
  let mine := (List.range 72).filter (fun b => let (s, t, _) := dirEnds (2 * b); s == i || t == i)
  (mine.zipIdx).foldl (fun n (e : Nat × Nat) => if (d.bund (2 * e.1)).st == 2 then n + 2 ^ e.2 else n) 0

/-- Take the whole bundle of a direction out of service (R21): the change is reported for its dies. -/
def Dev.bundleOut (d : Dev) (r : Nat) : Dev :=
  if (d.bund r).st == 2 then d
  else
    let d := ((d.setBund r (fun b => { b with st := 2 })).setBund (dirBack r) (fun b => { b with st := 2 })).postBund r
    let (s, t, _) := dirEnds r
    ([s, t].filter (· < 8)).foldl (fun (e : Dev) i => e.identChanged (some i) ((0x1001 + i) * 256 + 6) (e.degraded i)) d

/-- The physical lanes that carry logical lanes 0 to 63 of a direction, in order (R222). -/
def Bund.lanes (b : Bund) : List Nat := ((List.range 68).filter (fun l => !b.failed.getLsbD l)).take 64

/-- Take the whole bundle of a direction out of service when more than four failed lanes leave too few (R21, R222). -/
def Dev.bundCheck (d : Dev) (r : Nat) : Dev :=
  if (d.bund r).lanes.length < 64 then
    d.bundleOut r
  else d

/-- The error record of a bundle direction. -/
def bundRec (r lane : Nat) : ErrRec :=
  { ukind := 6, unit := r, cls := 5, outcome := 5, action := 6, detail := lane, die := dirDie r, atrium := (dirEnds r).2.1 == 8 }

/-- Note the parity errors of a frame by lane (R223): the lanes that reach LANE_ERROR_LIMIT within 1,024 frames. -/
def Bund.parity (b : Bund) (lanes : List Nat) (limit : Nat) : Bund × List Nat :=
  let n := b.frames + 1
  let errs := lanes.foldl (fun m l => kset m l ((kget [] m l ++ [n]).filter (fun f => n < f + 1024))) b.errs
  let bad := (lanes.dedup).filter (fun l => !b.failed.getLsbD l && limit ≤ (kget [] errs l).length)
  ({ b with frames := n, errs, failed := bad.foldl (fun m l => putBit m l true) b.failed, want := b.want || !bad.isEmpty }, bad)

/-! ### Frames (R220, R221) -/

/-- The check word that goes with a frame of a direction (R220): what its sender, as receiver of the other direction, has to say. -/
structure CheckWord where
  msg0 : Option CtlMsg
  msg1 : Option CtlMsg
  creditReturn : List Nat
  ackSeq : BitVec 16
  nak : Bool
  frameSeq : BitVec 16

/-- The check word of a frame (log 80). -/
def Dev.checkWord (d : Dev) (r : Nat) (f : DlFrame) : CheckWord :=
  let q := d.bund (dirBack r)
  { msg0 := f.msg0, msg1 := f.msg1, creditReturn := (List.range 4).map (fun v => kget 0 q.owed v), ackSeq := q.rxSeq, nak := q.nak, frameSeq := f.frameSeq }

/-- The flits of a frame marked valid. -/
def flitsOf (f : DlFrame) : List DlFlit := f.flits.filter (·.valid)
/-- Whether every valid flit's FLIT_CRC is good. -/
def frameOk (f : DlFrame) : Bool := (f.flits.zipIdx).all (fun (e : DlFlit × Nat) => !e.1.valid || !f.crcBad.getLsbD e.2)
/-- Flits by virtual channel. -/
def vcCount (m : KMap Nat) (l : List DlFlit) : KMap Nat := l.foldl (fun m t => kupd 0 m t.vc.toNat (· + 1)) m

/-- Take acknowledged frames out of the replay buffer. -/
def Bund.acked (b : Bund) (n : BitVec 16) : List DlFrame :=
  match b.sent.findIdx? (fun f => f.frameSeq == n) with
  | some i => b.sent.drop (i + 1)
  | none => b.sent

/-- The sender's next frame (R221): the one its replay has come to, before any new one; else a new one, of what waits to be filled again or of what the
command brings, while the replay buffer of 64 has room. None where the sequence number is not the one it sends. -/
def Bund.nextFrame (b : Bund) (f : DlFrame) : Option (DlFrame × Bund) :=
  match b.replay with
  | some n =>
    if f.frameSeq != n then none
    else (b.sent.find? (fun g => g.frameSeq == n)).map (fun g =>
      ({ g with crcBad := f.crcBad, laneErrors := f.laneErrors }, { b with replay := if n == b.txSeq then none else some (n + 1) }))
  | none =>
    if f.frameSeq != b.txSeq + 1 || 64 ≤ b.sent.length then none
    else
      let g := match b.backlog with | h :: _ => { f with flits := h.flits, msg0 := h.msg0, msg1 := h.msg1 } | [] => f
      some (g, { b with txSeq := f.frameSeq, sent := b.sent ++ [g], backlog := b.backlog.drop 1, lent := vcCount b.lent (flitsOf g) })

/-- A direction's receiver reads a check word (R216, R220, R221): it takes back the credits returned, frees acknowledged frames of its own and, on a
NAK, begins to replay from ACK_SEQ + 1. -/
def Dev.readCheck (d : Dev) (r : Nat) (w : CheckWord) : Dev :=
  let q := dirBack r
  let left := (d.bund q).acked w.ackSeq
  let d := d.setBund q (fun k =>
    { k with sent := left, nak := false, owed := [], replay := if w.nak && !left.isEmpty then some (w.ackSeq + 1) else k.replay,
             lent := (w.creditReturn.zipIdx).foldl (fun m (e : Nat × Nat) => kupd 0 m e.2 (· - e.1)) k.lent })
  if w.nak && !left.isEmpty then d.count 0x8017 1 q else d

/-- Control messages of a frame's check word join those to be delivered (R225). -/
def Dev.ctlIn (d : Dev) (f : DlFrame) : Dev := d.onNet (fun n => { n with ctl := n.ctl ++ f.msg0.toList ++ f.msg1.toList })

/-- A frame reaches its receiver (R221, R223): an intact one in sequence delivers its flits and messages; a bad one is answered with NAK, and the
eighth failure of one frame calls for a retrain. -/
def Dev.frameIn (d : Dev) (r : Nat) (f : DlFrame) : Dev :=
  let d := d.readCheck r (d.checkWord r f)
  let (b, bad) := (d.bund r).parity (f.laneErrors.map (·.val)) (d.force 0x5100 2 0)
  let d := d.setBund r (fun _ => b)
  let d := bad.foldl (fun (e : Dev) l => (e.logErr (bundRec r l)).changed 6) d
  let d := if bad.isEmpty then d else d.postBund r
  let d := d.bundCheck r
  let inSeq := f.frameSeq == b.rxSeq + 1
  if frameOk f then
    let d := d.setBund r (fun b => { b with heard := d.cyc (dirDie r) })
    if inSeq then
      ((d.setBund r (fun b => { b with rxSeq := f.frameSeq, nak := false, fails := 0, owed := vcCount b.owed (flitsOf f) })).count 0x8017 3 r
        (flitsOf f).length).ctlIn f
    else d
  else
    d.setBund r (fun b => { b with nak := true, fails := if inSeq then b.fails + 1 else b.fails, want := b.want || (inSeq && decide (8 ≤ b.fails + 1)) })

/-- DIE_LINK_FRAME (R220, R221, R223): the sender's next frame arrives. A stopped receiver captures it, up to 64, until the STOP_MARK (R410). -/
def execDieLinkFrame (dir : DirId) (f : DlFrame) (s : State) : Out :=
  runDev s (fun _ _ d =>
    let r := dir.val
    let b := d.bund r
    let (_, t, _) := dirEnds r
    if b.st != 0 || b.lost || b.quiet then d
    else match b.nextFrame f with
    | none => d
    | some (g, b) =>
      if t != 8 && !d.runs t then
        if b.marked || d.isFenced t || 64 ≤ b.captured.length then d
        else d.setBund r (fun _ => { b with captured := b.captured ++ [g], marked := g.stopMark })
      else (d.setBund r (fun _ => b)).frameIn r g)

/-! ### Retrains and lost peers (R223, R224) -/

/-- The same direction of the pair's other bundle. -/
def dirOther (r : Nat) : Nat := if r / 2 % 2 == 0 then r + 2 else r - 2

/-- A direction's sender stops: frames its receiver has not had, followed by what waited, move to the pair's other bundle in sequence order, or wait where
that carries no traffic (R223). -/
def Dev.moveFrames (d : Dev) (r : Nat) : Dev :=
  let b := d.bund r
  let rest := b.acked b.rxSeq ++ b.backlog
  let o := d.bund (dirOther r)
  let up := o.st == 0 && !o.lost && !o.quiet
  let d := d.setBund r (fun b => { b with sent := [], replay := none, txSeq := b.rxSeq, backlog := if up then [] else rest })
  if up then d.setBund (dirOther r) (fun q => { q with backlog := q.backlog ++ rest }) else d

/-- DIE_LINK_RETRAIN (R223): a direction with a cause moves its traffic to the other bundle and trains. -/
def execDieLinkRetrain (dir : DirId) (s : State) : Out :=
  runDev s (fun _ _ d =>
    let r := dir.val
    let b := d.bund r
    if b.st == 0 && b.want then
      (((d.moveFrames r).setBund r (fun b => { b with st := 1, want := false, fails := 0, nak := false, began := d.cyc (dirDie r) })).count 0x8017 2 r).postBund r
    else d)

/-- Whether a direction's other bundle, while it carries traffic, has delivered every flit routed to it (R223). -/
def Dev.otherEmpty (d : Dev) (r : Nat) : Bool :=
  let o := d.bund (dirOther r)
  o.st != 0 || o.lost || o.quiet || (o.backlog.isEmpty && (o.acked o.rxSeq).isEmpty)

/-- DIE_LINK_RETRAIN_DONE (R223): lanes found bad join the failed set, and the direction returns, once the other bundle has delivered what was routed
to it, unless more than four have failed. -/
def execDieLinkRetrainDone (dir : DirId) (bad : List (Fin 68)) (s : State) : Out :=
  runDev s (fun _ _ d =>
    let r := dir.val
    if (d.bund r).st == 1 && d.otherEmpty r then
      let new := bad.filter (fun l => !(d.bund r).failed.getLsbD l.val)
      let d := d.setBund r (fun b => { b with st := 0, failed := bad.foldl (fun m l => putBit m l.val true) b.failed, heard := d.cyc (dirDie r) })
      let d := new.foldl (fun (e : Dev) l => (e.logErr (bundRec r l.val)).changed 6) d
      if (d.bund r).lanes.length < 64 then d.bundCheck r else d.postBund r
    else d)

/-- DIE_LINK_PEER_LOST (R224): no intact frame for 64 word cycles, 256 core cycles. The receiver's own sender stops, and what it held moves to the other
bundle. -/
def execDieLinkPeerLost (dir : DirId) (s : State) : Out :=
  runDev s (fun _ _ d =>
    let r := dir.val
    let (_, t, _) := dirEnds r
    if (d.bund r).st == 2 || (d.bund r).lost || (t != 8 && !d.runs t) then d
    else
      let d := (d.reach (dirDie r) ((d.bund r).heard + 256)).setBund r (fun b => { b with lost := true })
      (d.setBund (dirBack r) (fun b => { b with quiet := true })).moveFrames (dirBack r))

/-! ### Seam (R215, R219) -/

/-- The lanes of a seam direction that carry flits (R219): 26, or 25 where two failed before the start. -/
def Seam.active (k : Seam) : List Nat :=
  (List.range 27).filter (fun l => if l == 26 then k.spareFor.isSome else k.spareFor != some l && !k.dropped.getLsbD l)

/-- Whether a lane is failing (R219): 16 or more of its last 1,024 flits needed replay. -/
def Seam.failing (k : Seam) (lane : Nat) : Bool := decide (16 ≤ (kget [] k.replays lane).length)

/-- FLIT_CRC_REPLAY (R215, R219, R236): the sender's buffer gives the flit again, so no message is lost. On the seam it is counted for the requester's
Vitrine and for its lane, which has carried `since` flits after its last replayed one. -/
def execFlitCrcReplay (_d : DieId) (seam : Option (SeamId × Fin 27)) (v : ReplayFor) (s : State) : Out :=
  runDev s (fun _ _ d =>
    match seam with
    | some (sm, lane) =>
      if !(d.seam sm.val).active.contains lane.val then d
      else
        (d.setSeam sm.val (fun k =>
          let n := kget 0 k.flits lane.val + v.since.toNat + 1
          { k with flits := kset k.flits lane.val n,
                   replays := kset k.replays lane.val ((kget [] k.replays lane.val ++ [n]).filter (fun m => decide (n < m + 1024))) })).count 0x8016 4 v.vit.toNat
    | none => d)

/-- A seam lane fails (R219): the spare replaces it while the direction pauses; a second failing lane stays in service and is only
recorded. -/
def Dev.seamFailed (d : Dev) (sm lane : Nat) : Dev :=
  let die := sm / 2
  let d := d.setSeam sm (fun k =>
    { k with failed := putBit k.failed lane true,
             spareFor := if k.spareFor.isNone && lane != 26 then some lane else k.spareFor,
             pauseEnd := if k.spareFor.isNone && lane != 26 then (d.die die).root + 2048 * 4 else k.pauseEnd })
  let k := d.seam sm
  let d := d.post 0x0011 1 die (k.spareFor.getD 0xFF) k.failed.toNat
  (d.logErr { ukind := 5, unit := sm, cls := 5, outcome := 5, action := 6, detail := lane, die }).changed 6

/-- SEAM_LANE_SUBSTITUTE (R219): of a failing lane. -/
def execSeamLaneSubstitute (sm : SeamId) (lane : Fin 27) (s : State) : Out :=
  runDev s (fun _ _ d =>
    let k := d.seam sm.val
    if !d.runs (sm.val / 2) || k.failed.getLsbD lane.val || !k.active.contains lane.val || !k.failing lane.val then d else d.seamFailed sm.val lane.val)

/-! ### Control network (R225) -/

def ctlRank : CtlClass → Nat
  | .stop => 0 | .fault => 1 | .power => 2 | .mgmt => 3

/-- Whether a control message is of one die's link in one direction. -/
def CtlMsg.on (m : CtlMsg) (toAtrium : Bool) (die : DieId) : Bool := m.toAtrium == toAtrium && m.die == die

/-- CONTROL_MESSAGE (R225): the first message of the highest class between a die and the Atrium is delivered to its agent on the die's ring; one from
another die for it goes on from the Atrium. A stopped die takes none. -/
def execControlMessage (toAtrium : Bool) (die : DieId) (s : State) : Out :=
  runDev s (fun _ _ d =>
    if !toAtrium && !d.runs die.toNat then d else
    match (d.net.ctl.filter (fun m => CtlMsg.on m toAtrium die)).foldl (fun (b : Option CtlMsg) m => match b with
        | none => some m
        | some t => if ctlRank m.cls < ctlRank t.cls then some m else some t) none with
    | some m => d.onNet (fun n =>
        let left := delFirst (fun t => t == m) n.ctl
        match m.toAtrium, m.beyond with
        | true, some e => { n with ctl := left ++ [{ m with toAtrium := false, die := e, beyond := none }] }
        | _, _ => { n with ctl := left, got := m :: n.got.filter (fun t => !(CtlMsg.on t toAtrium die && t.agent == m.agent)) })
    | none => d)

/-! ### Regulation (R228-R233) -/

def Dev.otMin (d : Dev) (v : VitId) (c : Nat) : Nat := fld (d.vset v 8 1 c) 24 12
def Dev.otMax (d : Dev) (v : VitId) (c : Nat) : Nat := fld (d.vset v 8 1 c) 36 12
/-- Tokens a port holds. -/
def Reg.held' (r : Reg) (p : MPort) : Nat := ((r.out.find? (fun e => e.1 == p)).map (·.2)).getD 0
def Reg.setOut (r : Reg) (p : MPort) (n : Nat) : Reg :=
  { r with out := if n == 0 then r.out.filter (fun e => e.1 != p) else
      if r.out.any (fun e => e.1 == p) then r.out.map (fun e => if e.1 == p then (p, n) else e) else r.out ++ [(p, n)] }

/-- Whether a port may issue (R229): below OT_MIN, or below OT_MAX with a shared token free. -/
def Dev.mayIssue (d : Dev) (v : VitId) (r : Reg) (p : MPort) : Bool :=
  let c := clsNum (portCls p)
  let reserved := (portCount.zipIdx).foldl (fun n e => n + e.1 * d.otMin v e.2) 0
  let used := r.out.foldl (fun n e => n + (e.2 - d.otMin v (clsNum (portCls e.1)))) 0
  decide (r.held' p < d.otMin v c) || (decide (r.held' p < d.otMax v c) && decide (used < d.vset v 8 2 - reserved))

/-- PORT_ISSUE (R229): the transaction takes a token, or is held behind the port's earlier ones. -/
def execPortIssue (v : VitId) (p : MPort) (s : State) : Out :=
  runDev s (fun _ _ d =>
    let r := d.reg v
    if !d.runs (dieOfVit v) then d
    else if !r.held.any (fun h => h.1 == p) && d.mayIssue v r p then d.setReg v (fun r => r.setOut p (r.held' p + 1))
    else d.setReg v (fun r => { r with held := r.held ++ [(p, d.cyc (dieOfVit v))] }))

/-- Whether a held request waited longer, or on a tie comes of an earlier class or a lower port (R229). -/
def heldFirst (a b : MPort × Nat) : Bool :=
  a.2 < b.2 || (a.2 == b.2 && (clsNum (portCls a.1) < clsNum (portCls b.1) || (clsNum (portCls a.1) == clsNum (portCls b.1) && portNum a.1 < portNum b.1)))

/-- Give tokens to held requests while one may issue. -/
def Dev.grantHeld (d : Dev) (v : VitId) : Dev :=
  (d.reg v).held.foldl (fun (e : Dev) _ =>
    let r := e.reg v
    let heads := r.held.filter (fun h => e.mayIssue v r h.1)
    match heads.foldl (fun (b : Option (MPort × Nat)) h => match b with
        | none => some h
        | some t => if heldFirst h t then some h else some t) none with
    | some h => e.setReg v (fun r => ({ r with held := delFirst (fun t => t.1 == h.1) r.held } : Reg).setOut h.1 (r.held' h.1 + 1))
    | none => e) d

/-- TOKEN_RETURN (R229). -/
def execTokenReturn (v : VitId) (p : MPort) (s : State) : Out :=
  runDev s (fun _ _ d =>
    if 0 < (d.reg v).held' p then (d.setReg v (fun r => r.setOut p (r.held' p - 1))).grantHeld v else d)

/-- Report one miss (R232): its bit, counter unless `late`, the interrupt when the bit was clear, and the event. -/
def Dev.miss (d : Dev) (v : VitId) (bit cls : Nat) (late : Bool) : Dev :=
  let st := d.vacc v 8 5
  let d := d.setAcc (0x3000 + v.toNat * 16 + 8) 5 0 (st ||| 2 ^ bit)
  let d := d.count 0x8016 (if late then 3 else 2) v.toNat
  let d := if fld st bit 1 == 1 then d else d.onSrv (fun s => { s with intr := s.intr ++ [(v.toNat + 1, 64)] })
  d.postVit 0x0032 v (st ||| 2 ^ bit) cls

/-- A miss of an arbitration point, whose event names no class. -/
def Dev.pointMiss (d : Dev) (v : VitId) (on : Bool) (bit : Nat) : Dev :=
  if on then (let (n, d) := d.draw; d.miss v bit (Config.missClass n).toNat false) else d

/-- REG_WINDOW_END (R232). -/
def execRegWindowEnd (v : VitId) (m : MissView) (s : State) : Out :=
  runDev s (fun _ _ d =>
    let die := dieOfVit v
    if !d.runs die then d else
    let d := d.reach die ((d.vit v).missAt + 2 ^ d.vset v 8 3)
    let d := d.setVit v (fun t => { t with missAt := d.cyc die })
    let d := (((d.pointMiss v m.router 1).pointMiss v m.seam 2).pointMiss v m.dieLink 3).pointMiss v m.atrium 4
    match m.port with
    | some c => d.miss v 5 (clsNum c) false
    | none => d)

/-- MEDIA_RESPONSE (R233): a slack below zero is a late transfer. -/
def execMediaResponse (v : VitId) (slack : BitVec 16) (s : State) : Out :=
  runDev s (fun _ _ d => if d.runs (dieOfVit v) && slack.msb then d.miss v 0 3 true else d)

end Sys2Proof.Machine
end

