-- ==== Sys2Proof/Machine/Pendant.lean ====
section
/-! DEFINITION. The Pendant (R253-R255): pairing, checkpoint commits, takeover and the ALIAS table. -/

namespace Sys2Proof.Machine

/-- PAIR (R253): everything agrees and at least 4 pair links have trained to the named peer, or the pair is refused. -/
def execPair (p : PairInfo) (s : State) : Out :=
  runDev s (fun _ _ d =>
    let me := d.force 0x5200 1 0
    if me == 0xFFFF || d.fab.pendant == 5 || p.peer.toNat != me then d
    else
      let agree := p.fw.toNat == d.fw.version && p.partOk && p.steppingsOk && p.links.toNat == d.force 0x5200 2 0
      let n := min d.pairTrained (bits p.trained).length
      let st := if !agree then 3 else if 4 ≤ n then 2 else if d.fab.pendant == 2 || d.fab.pendant == 4 then 4 else 1
      d.onFab (fun b => { b with pendant := st }))

/-- The link whose ingress holds an operation. -/
def Dev.linkOf (d : Dev) (op : ROp) : Nat := ((List.range 96).find? (fun l => (d.link l).ingress.contains op)).getD 0

/-- COMMIT (R248, R254): performed in tag order by the Vitrine of the source's number. -/
def execCommit (op : ROp) (s : State) : Out :=
  run s (fun x =>
    if op.dest != x.dev.devId || op.type != .commit || x.dev.dbg.stopped then x
    else
      let l := x.dev.linkOf op
      let x := x.on (fun d => d.acceptOp l op)
      let v := op.srcVit
      if !op.crcOk then x.on (fun d => d.count 0x8018 6 v.toNat)
      else if (x.dev.vit v).held && x.dev.group v == op.group && op.group != 0 then x.arriveOp l v op
      else x.on (fun d => d.reply (d.groupOwn l op) op 1))

/-- Set a Vitrine-scope value at once: accepted and in force. -/
def Dev.setNow (d : Dev) (v : VitId) (k sub val : Nat) : Dev :=
  let key := ckey (0x3000 + v.toNat * 16 + k) sub 0
  d.onCat (fun c => { c with acc := kset c.acc key val, force := kset c.force key val })

/-- The standby tenancy led by l takes over (R255): PRIMARY, CKPT_COMMITTED restored as its local checkpoint, the next epoch, an empty
Provenance store, and TAKEOVER to every member. -/
def Dev.takeOver (d : Dev) (l : VitId) (old : DevId) : Dev :=
  let ep := d.epoch l + 1
  let d := (d.tenancy l).foldl (fun (e : Dev) v =>
    ((e.setNow v 9 4 1).setNow v 9 2 ep.toNat).setVit v (fun t =>
      { t with ckptLocal := t.ckptCommitted, pv := [], pace := { t.pace with heldFrom := [] } })) d
  let body := BitVec.ofNat 64 (old.toNat * 2 ^ 48 + d.devId.toNat * 2 ^ 32 + ep.toNat)
  (d.members l).foldl (fun (e : Dev) dest => e.sendFree (e.sameTenancy l) { e.opHead l dest .takeover with operand1 := body }) d

/-- A member's ALIAS table takes a mapping (R255): a chain rewrites its row, a repeat changes nothing, a seventeenth row is refused. -/
def Dev.addAlias (d : Dev) (group : Word) (old new : DevId) : Dev :=
  if d.fab.aliases.contains (group, old, new) then d
  else if d.fab.aliases.any (fun a => a.1 == group && a.2.2 == old) then
    d.onFab (fun b => { b with aliases := b.aliases.map (fun a => if a.1 == group && a.2.2 == old then (a.1, a.2.1, new) else a) })
  else if 16 ≤ d.fab.aliases.length then d.post 0x0035 0 0 group.toNat (old.toNat + new.toNat * 65536)
  else d.onFab (fun b => { b with aliases := b.aliases ++ [(group, old, new)] })

/-- A former primary learns that it has been taken over: its pair links enter QUARANTINE with REASON 5 (R255). -/
def Dev.takenOver (d : Dev) : Dev :=
  let d := d.onFab (fun b => { b with pendant := 5 })
  (List.range 96).foldl (fun (e : Dev) l =>
    let k := e.link l
    if fld (e.force 0x5200 2 0) l 1 == 1 && (k.st == .mgmt || k.st == .active || k.st == .quarantine) && !(k.st == .quarantine && k.reason == 5) then
      e.linkTo l .quarantine 5 else e) d

/-- The leader of a tenancy that stands by for the fabric group of an operation's source Vitrine (R254). -/
def Dev.standbyFor (d : Dev) (op : ROp) : Option VitId :=
  let v := op.srcVit
  if (d.vit v).held && d.group v == op.group && op.group != 0 && d.vacc v 9 4 == 2 then (d.vit v).leader else none

/-- TAKEOVER (R255): from the primary, the standby takes over; at another member the ALIAS table maps the old device to the new one. -/
def execTakeover (op : ROp) (s : State) : Out :=
  runDev s (fun _ _ d =>
    if op.dest != d.devId || op.type != .takeover || d.dbg.stopped then d
    else
      let l := d.linkOf op
      let d := d.acceptOp l op
      let old : DevId := BitVec.ofNat 16 (fld op.operand1.toNat 48 16)
      let new : DevId := BitVec.ofNat 16 (fld op.operand1.toNat 32 16)
      if !op.crcOk then d.count 0x8018 6 op.srcVit.toNat
      else if old == d.devId then d.takenOver
      else if new == d.devId then
        match d.standbyFor op with
        | some t => d.takeOver t old
        | none => d
      else if (List.range 32).any (fun i => let v := BitVec.ofNat 5 i; (d.vit v).held && d.group v == op.group) && op.group != 0 then d.addAlias op.group old new
      else d)

/-- A write of TAKEOVER_VITRINES (R255): the standby tenancies of the named Vitrines take over from the paired device. -/
def X.doTakeover (x : X) (mask : Word) : X × Nat :=
  let ls := ((vitsOf mask).filterMap (fun v => if (x.dev.vit v).held && x.dev.vacc v 9 4 == 2 then (x.dev.vit v).leader else none)).dedup
  (x.on (fun d => ls.foldl (fun (e : Dev) l => e.takeOver l (BitVec.ofNat 16 (e.force 0x5200 1 0))) d), stOk)

end Sys2Proof.Machine
end

