-- ==== Sys2Proof/Machine/Resize.lean ====
section
/-! DEFINITION. The resize of a Gallery share's scratchpad (R168, R169) and REG_MISS_STATUS (R232). -/

namespace Sys2Proof.Machine

/-- The pinned lines of a Vitrine fit a cache part of other sizes (R169, R174). -/
def Dev.pinsFit (d : Dev) (v : VitId) (pad pv : Nat) : Bool :=
  let e := d.setVit v (fun t => { t with padSteps := pad, pvSteps := pv, resize := none, pvResize := none })
  e.pinStatus v (d.pinnedLines v) == 0

/-- A write of GALLERY_SCRATCH_STEPS (R168, R169): the status, and the resize begun; a shrink holds for the cores at once. The pinned lines must fit beside the
Provenance store in force and the one accepted. -/
def X.doScratchSteps (x : X) (v : VitId) (n : Nat) : X × Nat :=
  let t := x.dev.vit v
  let pv := max (max t.pvSteps (t.pvResize.getD 0)) (x.dev.vacc v 5 2)
  if t.resize.isSome then (x, stBusy)
  else if 18 < n + pv then (x, stRange)
  else if !x.dev.pinsFit v n pv then (x, stPin)
  else
    (x.on (fun d =>
      let d := (d.setAcc (0x3000 + v.toNat * 16 + 7) 1 0 n).setVit v (fun t => { t with resize := some n })
      (slicesOfVit v).foldl (fun (e : Dev) g => e.setSlice g (fun s => { s with changing := true })) d), stProgress)

/-- A core request on a line of a slice's scratchpad beyond a size (R169, step 2 of a shrink). -/
def Dev.corePending (d : Dev) (g from' to' : Nat) : Bool :=
  let v := g / 24
  let lo := padBase + v * 2 ^ 27 + from'
  let hi := padBase + v * 2 ^ 27 + to'
  d.cores.any (fun c => c.2.ops.any (fun o => o.accs.any (fun a => lo ≤ a.addr && a.addr < hi && o.space == .global && (a.addr - (padBase + v * 2 ^ 27)) / 128 % 24 == g % 24)))

/-- A slice's change of its scratchpad (R169): its lines beyond the new cache ways are evicted or moved, and once none is left the size changes; what a shrink
discards and a growth takes reads zero. -/
def X.padChange (x : X) (g n : Nat) : X :=
  let v : VitId := BitVec.ofNat 5 (g / 24)
  let old := (x.dev.vit v).padSteps
  if n < old && x.dev.corePending g (n * stepBytes) (old * stepBytes) then x
  else
    let y := x.on (fun d => d.setSlice g (fun s => { s with changing := false }))
    let y := y.vacateSlice g
    if !y.dev.vacated g then y.on (fun d => d.setSlice g (fun s => { s with changing := true }))
    else
      let lines := (List.range (carveLines (max old n) g)).drop (carveLines (min old n) g)
      let y := lines.foldl (fun (z : X) k =>
        let a := padBase + v.toNat * 2 ^ 27 + (k * 24 + g % 24) * 128
        (z.op (.zero .pad a 128)).op (.clean true (a / 64) 2)) y
      if (slicesOfVit v).any (fun k => (y.dev.slice k).changing) then y
      else y.on (fun d =>
        let d := d.setVit v (fun t => { t with padSteps := n, resize := none })
        d.postVit 0x0036 v n (d.cacheBytes v))

/-- A slice's change of its part of the Provenance store (R130, R169). -/
def X.pvChange (x : X) (g n : Nat) : X :=
  let v : VitId := BitVec.ofNat 5 (g / 24)
  let y := (x.on (fun d => d.setSlice g (fun s => { s with pvChanging := false }))).vacateSlice g
  if !y.dev.vacated g then y.on (fun d => d.setSlice g (fun s => { s with pvChanging := true }))
  else if (slicesOfVit v).any (fun k => (y.dev.slice k).pvChanging) then y
  else y.on (fun d =>
    let d := d.setVit v (fun t => { t with pvSteps := n, pvResize := none })
    d.postVit 0x0036 v (d.vit v).padSteps (d.cacheBytes v))

/-- SLICE_CHANGE_POINT (R169): the slice applies a new size, of the scratchpad first; the last one completes the change. -/
def execSliceChangePoint (sl : ChanId) (s : State) : Out :=
  run s (fun x =>
    let g := sl.val
    let t := x.dev.vit (BitVec.ofNat 5 (g / 24))
    if !x.dev.runs (dieOfVit (BitVec.ofNat 5 (g / 24))) then x
    else match t.resize, t.pvResize with
      | some n, pv => if (x.dev.slice g).changing then x.padChange g n
        else (match pv with | some m => if (x.dev.slice g).pvChanging then x.pvChange g m else x | none => x)
      | none, some m => if (x.dev.slice g).pvChanging then x.pvChange g m else x
      | none, none => x)

/-- A write of REG_MISS_STATUS (R232): bits written 1 are cleared. -/
def X.doRegMiss (x : X) (v : VitId) (val : Word) : X × Nat :=
  (x.on (fun d => d.setAcc (0x3000 + v.toNat * 16 + 8) 5 0 (BitVec.ofNat 32 (d.vacc v 8 5) &&& ~~~val).toNat), stOk)

end Sys2Proof.Machine
end

