-- ==== Sys2Proof/Machine/Reliability.lean ====
section
/-! DEFINITION. Resets (R445, R446), clock loss and die faults (R327, R360-R363, R191), repair (R358, R366-R368), patrol scrub (R352)
and power-on hours. -/

namespace Sys2Proof.Machine

/-! ### Resets (R445, R446) -/

/-- A reset of every die and the Atrium: all but the MRAM and the host's memory is lost, the lands follow `f`, and start-up stands at a step. -/
def X.reset (x : X) (step : Nat) (f : HostP → HostP) : X :=
  let x := [MemSp.hbm, MemSp.pad, MemSp.clus, MemSp.scr, MemSp.stage].foldl (fun (y : X) sp => y.op (.zero sp 0 (2 ^ 64))) x
  let x := (x.op (.clean false 0 (2 ^ 64))).op (.clean true 0 (2 ^ 64))
  let h := x.dev.host
  { x with dev := { fresh := x.dev.fresh, fw := { step := step }, hbm := { giveUp := x.dev.hbm.giveUp },
                    host := f { perst := h.perst, pwrOk := h.pwrOk, fatal := h.fatal, straps := h.straps, vin := h.vin } } }

/-- The fatal reset: FATAL_N is asserted and start-up resumes at step 2. -/
def X.fatalReset (x : X) : X := if x.dev.fw.step ≤ 1 then x else x.reset 2 (fun h => { h with fatal := true })

/-- DEVICE_FAULT (R363): no completion or event is written. -/
def execDeviceFault (s : State) : Out := run s X.fatalReset

/-- POWER_FAIL (R445, R337): PWR_OK falls or the input is below 10.2 V. -/
def execPowerFail (milliVolt : BitVec 16) (pwrOkFell : Bool) (s : State) : Out :=
  run s (fun x =>
    if !x.dev.host.pwrOk || !(pwrOkFell || milliVolt.toNat < 10200) then x
    else x.reset (if pwrOkFell then 1 else 0) (fun h => { h with fatal := true, pwrOk := !pwrOkFell, vin := milliVolt.toNat }))

/-- PLINTH_12V_RECOVERY (R445): the input has been above 11.3 V for 10 ms. -/
def execPlinth12vRecovery (s : State) : Out :=
  runDev s (fun _ _ d =>
    if d.fw.step == 0 && d.host.pwrOk then
      { d with fw := { d.fw with step := if d.host.perst then 1 else 2 }, ref := d.ref + 1000000 }
    else d)

/-! ### The admin ring and the end of an activation (R387, R388) -/

/-- A completion on the admin ring, E = 64, and the physical function's vector 0 (R269, R387, R431). -/
def Dev.adminPost (d : Dev) (seq tag detail opcode status : Nat) : Dev :=
  let r := d.fw.admin
  let e := cqEntry seq detail tag opcode status (r.cqTail / 64 % 2 == 0)
  let cq := r.cq ++ [BitVec.ofNat 128 e]
  let d : Dev := { d with fw := { d.fw with admin := { r with cqTail := (r.cqTail + 1) % 2 ^ 32, cq := cq.drop (cq.length - 64) } } }
  d.onSrv (fun s => { s with intr := s.intr ++ [(0, 0)] })

/-- The areas of the staging memory (R383): the bundle in force, the staged bundle, the record supplied at start, and the second record area. -/
def stageBundle : Nat := 0
def stageSecond : Nat := 48 * 2 ^ 20
def stageRecord : Nat := 96 * 2 ^ 20
def stageSealed : Nat := 104 * 2 ^ 20

/-- Copy `len` bytes of one store over zeros of another. -/
def X.copyCells (x : X) (src : MemSp) (a : Nat) (dst : MemSp) (b len : Nat) : X :=
  let cells := (x.mem.sel src).filter (fun c => decide (a ≤ c.1) && decide (c.1 < a + len))
  cells.foldl (fun (y : X) c => y.op (.set dst (b + (c.1 - a)) c.2)) (x.op (.zero dst b len))

/-- An activation ends when every processor has restarted on the new components (R388): the staged bundle is the bundle in force. -/
def X.endActivation (x : X) : X :=
  let f := x.dev.fw
  match f.staged with
  | some b =>
    if f.act == 2 && f.consLeft == 0 && !f.curLeft && f.docents == 0 && (List.range 18).all (fun p => (x.dev.proc p).st != 1) then
      (x.copyCells .stage stageSecond .stage stageBundle stageSecond).on (fun d =>
        let d : Dev := { d with fw := { d.fw with version := b.version.toNat, svn := b.svn.toNat, staged := none, act := 0 } }
        (d.post 0x0300 0 0 b.version.toNat f.version).adminPost f.actSeq f.actTag 0 0x41 0)
    else x
  | none => x

/-! ### Records of a fault -/

/-- DETAIL1 of DIE_FENCED (R377). -/
def fenceCode : FenceCause → Nat
  | .clock => 0 | .trip => 1 | .command => 2 | .peerLost => 3

/-- CLOCK_LOSS (R327, R351, R363): the domains of a die stop, with an error record; a loss in the Atrium or of the reference is a device
fault. A root PLL has no domain number of R354: a free value stands for it. -/
def execClockLoss (dom : ClockDomain) (s : State) : Out :=
  run s (fun x =>
    let lose (i unit : Nat) (x : X) : X :=
      if !x.dev.runs i then x
      else x.on (fun d => ((d.setDie i (fun k => { k with running := false })).onRel (fun r => { r with clockLost := putBit r.clockLost i true })).logErr
        { ukind := 10, unit, cls := 6, outcome := 3, die := i })
    match dom with
    | .die d k => lose d.toNat (d.toNat * 8 + k.toNat) x
    | .rootPll d =>
      let (n, e) := x.dev.draw
      lose d.toNat (d.toNat * 8 + (Config.pllDomain n).toNat) { x with dev := e }
    | .atrium _ | .reference => x.fatalReset)

/-! ### The fence of a die (R360, R361, R191) -/

/-- The die of a master port. -/
def portDie : MPort → Option Nat
  | .core c => some (dieOfCore c)
  | .walker c _ => some (dieOfCore c)
  | .dma v => some (dieOfVit v)
  | .media e => some (e.toNat / 2)
  | .host => none
  | .fabric v => some (dieOfVit v)

/-- The die that homes a line. -/
def homeDie (line : Nat) : Nat := dieOfVit (vitOfAddr (line * 128))

/-- A core's access loses its lines of a fenced die: reads return poison, writes are done with. -/
def OutOp.lose (o : OutOp) (i : Nat) : OutOp :=
  if o.space != .global then o
  else (((o.accs.map LaneAcc.line).filter (fun l => homeDie l == i)).dedup).foldl (fun (p : OutOp) l =>
    if o.kind == .store then p.dropLine l else p.capture l 0 3) o

/-- A core of a surviving die after a fence: its L1 drops the lines homed on the fenced die (R191). -/
def Core.lose (k : Core) (i : Nat) : Core :=
  { k with l1 := k.l1.filter (fun e => homeDie e.1 != i), ops := k.ops.map (fun o => o.lose i) }

/-- A sharer record without the cores of a die. -/
def Sharers.without (s : Sharers) (i : Nat) : Sharers :=
  { s with cores := s.cores.filter (fun c => dieOfCore c != i), vits := s.vits.map (fun m => m &&& ~~~((0xF : BitVec 32) <<< (4 * i))) }

/-- A home of a surviving die treats the L1s of the fenced one as holding nothing (R191). `acks` are the InvAcks awaited from it, `recalled`
whether a recall awaits one of its cores. -/
def X.homeLose (x : X) (i line acks : Nat) (recalled : Bool) : X :=
  match x.dev.gline line with
  | none => x
  | some g =>
    let dead (r : HomeReq) : Bool := portDie r.port == some i
    let g := { g with queue := g.queue.filter (fun r => !dead r), cur := g.cur.filter (fun r => !dead r), sh := g.sh.without i }
    let set (h : GLine) : X := x.on (fun d => d.setGline line h)
    let ownerDead := match g.owner with | some c => dieOfCore c == i | none => false
    match g.st with
    | .ol => if ownerDead then (set { g with st := .i, owner := none, poison := 3, dirty := true }).drain line else set g
    | .oRs | .oRi =>
      if ownerDead || recalled then (set { g with poison := 3, dirty := true }).resolve line .i {}
      else set g
    | .sInv =>
      let y := set { g with acks := g.acks - acks }
      if g.acks ≤ acks && !g.bi then y.resolve line .i g.sh else y
    | .fill | .hBi => set g
    | _ => (set g).drain line

/-- R191 over every line of the surviving dies, and the end of the fenced die's messages. -/
def X.homesLose (x : X) (i : Nat) : X :=
  let ms := x.dev.msgs.filter (fun m => match m.core with | some c => dieOfCore c == i | none => false)
  let lines := (x.dev.gal.filter (fun e => e.1 / 96 != i)).flatMap (fun e => e.2.lines.map (·.1))
  let x := x.on (fun d =>
    let d : Dev := { d with msgs := d.msgs.filter (fun m => m.kind == .rspIHitI ||
      !(homeDie m.line == i || (match m.core with | some c => dieOfCore c == i | none => false))) }
    { d with gal := d.gal.map (fun e => (e.1, if e.1 / 96 == i then { spare := e.2.spare } else
        { e.2 with ops := e.2.ops.map (fun o => match o.core with
            | some c => if dieOfCore c == i then { o with core := none } else o
            | none => o) })) })
  lines.foldl (fun (y : X) l =>
    let mine := ms.filter (fun m => m.line == l)
    y.homeLose i l (mine.countP (fun m => m.kind == .inv || m.kind == .invAck))
      (mine.any (fun m => m.kind == .recallS || m.kind == .recallI || m.kind == .rspData || m.kind == .rspNoData))) x

/-- What the fenced die itself held is gone: its cores, clusters, dispatchers, rings, engines, queues and traffic. -/
def Dev.dieLost (d : Dev) (i : Nat) : Dev :=
  let onDie (v : VitId) : Bool := dieOfVit v == i
  let d := { d with cores := kdrop (fun c => c / 64 == i) d.cores, clus := kdrop (fun k => k / 8 == i) d.clus }
  let d := (vitsOfDie i).foldl (fun (e : Dev) v => e.setVit v (fun t =>
    { t with disp := { stopped := true }, ckptLocal := 0xFFFFFFFF, pv := [], halt := 0, haltCause := 0, padSteps := t.resize.getD t.padSteps, resize := none,
             pvSteps := t.pvResize.getD t.pvSteps, pvResize := none, thrash := {} })) d
  let d := d.onSrv (fun s => { s with rings := kdrop (fun k => k / 2048 / 4 == i) s.rings, media := kdrop (fun e => e / 2 == i) s.media,
                                      ranges := s.ranges.filter (fun r => !(onDie r.v || (match r.core with | some c => dieOfCore c == i | none => false))) })
  let d := d.onFab (fun b => { b with ops := b.ops.filter (fun o => !onDie o.v), ins := b.ins.filter (fun r => dieOfCore r.core != i) })
  let d := d.onHbm (fun h => { h with pcs := h.pcs.map (fun e => (e.1, if e.1 / 192 == i then
      { remap := e.2.remap, pool := e.2.pool, spares := e.2.spares, redirected := e.2.redirected, ce := e.2.ce } else e.2)) })
  let d := d.onNet (fun n => { n with ctl := n.ctl.filter (fun m => m.die.toNat != i), seams := n.seams, regs := kdrop (fun k => k / 4 == i) n.regs })
  let d := (List.range 144).foldl (fun (e : Dev) r =>
    let (a, b, _) := dirEnds r
    if a == i || b == i then e.setBund r (fun q => { q with lost := true }) else e) d
  let d := (List.range 12).foldl (fun (e : Dev) k =>
    if (e.link (i * 12 + k)).st == .down then e else e.linkTo (i * 12 + k) .down 0) d
  let d : Dev := { d with fw := { d.fw with consLeft := putBit d.fw.consLeft i false, docents := putBit d.fw.docents i false } }
  (d.setProc (2 + i) (fun p => { p with st := 2 })).setProc (10 + i) (fun p => { p with st := 2 })

/-- The error record of a fence; a clock loss has its own already. A cause that R351 and R354 give no class or unit has free values. -/
def Dev.fenceRec (d : Dev) (i : Nat) (cause : FenceCause) : Dev :=
  match cause with
  | .clock => d
  | .peerLost =>
    let r := ((List.range 144).find? (fun r => (d.bund r).lost && (let (a, b, _) := dirEnds r; a == i || b == i))).getD 0
    d.logErr { ukind := 6, unit := r, cls := 5, outcome := 3, die := i }
  | .trip | .command =>
    let (n, d) := d.draw
    d.logErr { ukind := (Config.dieUnit n).toNat % 256, unit := (Config.dieUnit n).toNat / 256, cls := (Config.classless n).toNat, outcome := 3, die := i }

/-- End the self-test of a row with RESULT 2 (R371, R372). -/
def X.bistEnd (x : X) (row : Nat) (entries : List BistEntry) (result : Nat) : X :=
  let b : Bist := kget {} x.dev.rel.bist row
  x.on (fun d =>
    let seq := d.rel.report.seq + 1
    let bytes := [b.kind, b.target, result, b.nonce.toNat, seq, entries.length]
    let rep : Report := { seq, kind := b.kind, target := b.target, result, nonce := b.nonce, duration := d.ref - b.start, entries,
                          recSeq := d.fw.recSeq, fw := d.fw.version, signature := Config.signature bytes }
    let d := d.onRel (fun r => { r with report := rep, bist := kset r.bist row {} })
    let d := (if row < 8 then [row] else List.range 8).foldl (fun (e : Dev) i => e.count 0x6051 4 i) d
    d.post 0x0208 (if row < 8 then 1 else 0) (if row < 8 then row else 0) seq result)

/-- Serve the held host requests whose home runs again or is fenced, in arrival order (R360, R434). -/
def X.flushHost (x : X) : X :=
  let ok (d : Dev) (r : HostReq) : Bool := let i := dieOfVit (vitOfAddr r.addr); d.runs i || d.isFenced i
  let now := x.dev.host.held.filter (ok x.dev)
  let x := x.on (fun d => { d with host := { d.host with held := d.host.held.filter (fun r => !ok d r) } })
  now.foldl X.hostServe x

/-- What a fence does to the rest of the device (R191, R358, R360, R361): requests awaiting the die end, and every tenancy with a Vitrine
on it enters an episode. -/
def X.fenceRest (x : X) (i n cls : Nat) : X :=
  let x := x.on (fun d => { d with cores := d.cores.map (fun e => (e.1, if e.1 / 64 == i then e.2 else e.2.lose i)) })
  let x := (x.homesLose i).on (fun d => d.dieLost i)
  let x := x.dev.cores.foldl (fun (y : X) e => y.pump (BitVec.ofNat 9 e.1)) x
  let leaders := ((vitsOfDie i).filterMap (fun v => (x.dev.vit v).leader)).dedup
  let x := leaders.foldl (fun (y : X) l => (y.episode l n cls).on (fun d => d.setJob l (fun j => { j with lost := true }))) x
  x.flushHost.endActivation

/-- Fence a die (R360, R361, R411): its Vitrines go out of service. During a stop the die leaves the cut at once and the rest follows on
resume. -/
def X.fence (x : X) (i : Nat) (cause : FenceCause) : X :=
  if x.dev.isFenced i || x.dev.fw.step != 11 || x.dev.rel.diesOut.getLsbD i then x
  else
    let x := x.on (fun d => d.fenceRec i cause)
    let n := ((x.dev.rel.log.filter (fun r => r.die == i && r.outcome == 3)).getLast?.map (·.seq)).getD x.dev.lastRec
    let cls := ((x.dev.rel.log.find? (fun r => r.seq == n)).map (·.cls)).getD 0
    let x := x.on (fun d =>
      let d := (d.setDie i (fun k => { k with running := false })).onRel (fun r =>
        { r with fenced := kset r.fenced i cause, dieFaults := kupd 0 r.dieFaults i (· + 1) })
      let d := d.onRel (fun r => if d.force 0x6000 2 0 ≤ kget 0 r.dieFaults i then { r with barred := kset r.barred i true } else r)
      (((d.count 0x6051 1 i).post 0x0203 1 i i (fenceCode cause))))
    let x := if (kget {} x.dev.rel.bist i : Bist).running then x.bistEnd i [] 2 else x
    let x := x.on (fun d => { d with dbg := { d.dbg with halted := putBit d.dbg.halted i false, captured := putBit d.dbg.captured i false } })
    let x := if x.dev.dbg.stopped then x.on (fun d => { d with dbg := { d.dbg with fences := d.dbg.fences ++ [(i, n, cls)] } })
      else x.fenceRest i n cls
    x.on (fun d =>
      let d := (vitsOfDie i).foldl (fun (e : Dev) v => if (e.vit v).st == .withdrawn then e else e.vitState v .outOfService) d
      (d.identChanged none 0x100007 d.diesIn).identChanged none 0x100008 d.vitsIn)

/-- Whether both bundles of a pair have declared their peer lost (R224, R360): of each, a direction's receiver or the bundle is out of service. -/
def Dev.pairLost (d : Dev) (p : Nat) : Bool :=
  let gone (j : Nat) : Bool := (d.bund (4 * p + 2 * j)).lost || (d.bund (4 * p + 2 * j + 1)).lost || (d.bund (4 * p + 2 * j)).st == 2
  let said := (List.range 4).any (fun k => (d.bund (4 * p + k)).lost)
  gone 0 && gone 1 && said

/-- Of a die's 16 bundles, those out of service or lost (R21, R360). -/
def Dev.bundlesGone (d : Dev) (i : Nat) : Nat :=
  (List.range 72).countP (fun b =>
    let (s, t, _) := dirEnds (2 * b)
    (s == i || t == i) && ((d.bund (2 * b)).st == 2 || (d.bund (2 * b)).lost || (d.bund (2 * b + 1)).lost))

/-- Whether a die is the one that fails for lost bundles (R360): both to the Atrium, or as R21 chooses between a pair. -/
def Dev.peerLostDie (d : Dev) (i : Nat) : Bool :=
  (bundlePairs.zipIdx).any (fun (e : (Nat × Nat) × Nat) =>
    let (a, b) := e.1
    (a == i || b == i) && d.pairLost e.2 && (b == 8 ||
      (let o := if a == i then b else a
       !d.isFenced o && (d.bundlesGone o < d.bundlesGone i || (d.bundlesGone o == d.bundlesGone i && o < i)))))

/-- DIE_FENCE (R360): the cause given holds. -/
def execDieFence (d : DieId) (cause : FenceCause) (s : State) : Out :=
  run s (fun x =>
    let i := d.toNat
    let ok := match cause with
      | .clock => x.dev.rel.clockLost.getLsbD i
      | .trip => (x.dev.dpow i).trip.isSome
      | .command => true
      | .peerLost => x.dev.peerLostDie i
    if ok then x.fence i cause else x)

/-! ### Rejoin (R362) -/

/-- Whether the cause of a die's trip has cleared (R339). -/
def Dev.tripCleared (d : Dev) (i : Nat) : Bool :=
  let tt : Int := d.force 0x2000 6 0
  match (d.dpow i).trip with
  | some c => c == 2 || (decide ((d.dpow i).temp ≤ tt) && (List.range 3).all (fun k => decide ((kget {} d.hbm.stk (i * 3 + k) : HStack).temp ≤ tt)))
  | none => true

/-- DIE_REJOIN (R362): a fenced die whose cause has cleared begins its reset. -/
def execDieRejoin (d : DieId) (s : State) : Out :=
  runDev s (fun _ _ m =>
    let i := d.toNat
    if !m.isFenced i || kget false m.rel.barred i || (kfind m.rel.rejoining i).isSome || !m.tripCleared i || m.dbg.stopped then m
    else
      let old := m.emergency
      ((m.setDpow i (fun p => { trim := p.trim, hist := p.hist, worn := p.worn, capMw := p.capMw, temp := p.temp, marginAt := p.marginAt, at' := p.at' })).onRel
        (fun r => { r with rejoining := kset r.rejoining i m.ref, clockLost := putBit r.clockLost i false })).calm old)

/-- Clear a Vitrine of a rejoining die (R41, R162, R192): memory, Gallery share and storage; its settings and its place in a tenancy stay. -/
def X.rejoinVit (x : X) (v : VitId) : X :=
  let old := x.dev.vit v
  let cat := x.dev.cat
  let al := x.dev.fab.aliases
  (x.clearVit v).on (fun d =>
    let d : Dev := { d with cat := { d.cat with acc := cat.acc, force := cat.force }, fab := { d.fab with aliases := al } }
    d.setVit v (fun t => { t with padSteps := old.padSteps, pvSteps := old.pvSteps, cls := old.cls, tspLocked := old.tspLocked, tspDigest := old.tspDigest,
                                  pace := old.pace, trace := old.trace, watch := old.watch, excCount := old.excCount,
                                  ckptCommitted := if d.vacc v 9 4 == 1 then old.ckptCommitted else 0xFFFFFFFF }))

/-- A rejoining die's clocks start: its counters are 0 (R86), and what its units time by them starts with them. -/
def Dev.clocksAnew (d : Dev) (i : Nat) : Dev :=
  let d := (d.setDie i (fun _ => { running := true })).setDpow i (fun p => { p with at' := 0 })
  let d := (vitsOfDie i).foldl (fun (e : Dev) v => e.setVit v (fun t =>
    { t with missAt := 0, dutyBase := 0, clkBase := 0, thrash := { t.thrash with at' := 0 }, trace := { t.trace with cyc := 0, inCyc := 0 } })) d
  let d := d.onRel (fun r => { r with scrub := kdrop (fun k => decide (k < 65536) && k % 1024 / (if k / 1024 == 4 then 8 else 64) == i) r.scrub })
  let d := d.onHbm (fun h => { h with chans := h.chans.map (fun e => if e.1 / 96 == i then (e.1, { e.2 with scrubAt := 0 }) else e),
                                      stk := h.stk.map (fun e => if e.1 / 3 == i then (e.1, { e.2 with readAt := 0 }) else e),
                                      ondieAt := kdel h.ondieAt i })
  d.onNet (fun n => { n with seams := n.seams.map (fun e => if e.1 / 2 == i then (e.1, { e.2 with pauseEnd := 0 }) else e) })

/-- A Vitrine whose stack or channel has failed training (R161). -/
def Dev.vitOut (d : Dev) (v : VitId) : Dev :=
  let d := d.onRel (fun r => { r with noWindow := putBit r.noWindow v.toNat true })
  d.setVit v (fun t => if t.st == .withdrawn then t else { t with st := .outOfService })

/-- Channels that fail training take their Vitrines out of service (R161). -/
def Dev.channelsOut (d : Dev) (chans : List Nat) : Dev :=
  let d := d.onHbm (fun h => { h with failed := chans.foldl (fun m c => kset m c true) h.failed })
  chans.foldl (fun (e : Dev) c => if c < 768 then e.vitOut (BitVec.ofNat 5 (c / 24)) else e) d

/-- DIE_REJOINED (R161, R362): a die that passes DIE_QUICK is cleared and its Vitrines return, but those with a channel that fails when its stacks
retrain; one that fails stays fenced until the next start. -/
def execDieRejoined (d : DieId) (found : RejoinFind) (s : State) : Out :=
  run s (fun x =>
    let i := d.toNat
    if (kfind x.dev.rel.rejoining i).isNone || x.dev.dbg.stopped then x
    else if !found.quickOk then x.on (fun m => m.onRel (fun r => { r with rejoining := kdel r.rejoining i, barred := kset r.barred i true }))
    else
      let x := (vitsOfDie i).foldl X.rejoinVit x
      let x := x.op (.zero .hbm (2 ^ 45 + 96 * i * 2 ^ 31) (96 * 2 ^ 31))
      x.on (fun m =>
        let m := m.channelsOut ((found.channels.map (·.val)).filter (fun c => dieOfChan c == i))
        let m := m.onRel (fun r => { r with rejoining := kdel r.rejoining i, fenced := kdel r.fenced i })
        let m := m.clocksAnew i
        let m := (m.setProc (2 + i) (fun p => { p with st := 0 })).setProc (10 + i) (fun p => { p with st := 0 })
        let again := m.fw.act == 2
        let m : Dev := { m with fw := { m.fw with consLeft := putBit m.fw.consLeft i again, docents := putBit m.fw.docents i again } }
        let m := (List.range 144).foldl (fun (e : Dev) r =>
          let (a, b, _) := dirEnds r
          if (a == i && (b == 8 || !e.isFenced b)) || (b == i && !e.isFenced a) then
            e.setBund r (fun q => { st := q.st, failed := q.failed, heard := m.cyc (dirDie r) }) else e) m
        let m := (List.range 12).foldl (fun (e : Dev) k => if (e.link (i * 12 + k)).out || (e.link (i * 12 + k)).draining then e else e.linkTo (i * 12 + k) .training 0) m
        let m := (vitsOfDie i).foldl (fun (e : Dev) v =>
          if (e.vit v).st != .outOfService || e.rel.noWindow.getLsbD v.toNat then e
          else e.vitState v (if (e.vit v).leader.isSome then .assigned else .unassigned)) m
        ((m.post 0x0204 1 i i (m.counter 0x6051 1 i)).identChanged none 0x100007 m.diesIn).identChanged none 0x100008 m.vitsIn))

/-! ### Repair (R24, R25, R358, R366) -/

/-- Slot 16 gives back a name it holds for a test (R370); at shipment core j of a pair stands in slot j (R24). -/
def Slots.untest (p : Slots) : Slots :=
  match p.testing with
  | some j => { p with testing := none, slotOf := setNth p.slotOf j j }
  | none => p

/-- Retire the slot behind a core (R24, R25, R366): slot 16 takes its name, or the Vitrine is withdrawn when slot 16 is gone or used. -/
def X.retireSlot (x : X) (c : CoreId) : X :=
  let v := vitOfCore c
  let p := (kget {} x.dev.rel.slots v.toNat : Slots).untest
  let x := x.on (fun d => d.onRel (fun r => { r with slots := kset r.slots v.toNat p }))
  let slot := nthD 0 p.slotOf (c.toNat % 16)
  if p.retired.getLsbD slot then x
  else
    let phys := x.dev.physSlot c
    let again := p.retired != 0 || slot == 16
    let x := x.on (fun d =>
      let (n, d) := d.draw
      let p' : Slots := { p with retired := putBit p.retired slot true,
                                 slotOf := if again then p.slotOf else setNth p.slotOf (c.toNat % 16) 16 }
      let d := d.onRel (fun r => { r with slots := kset r.slots v.toNat p' })
      d.logErr { ukind := 1, unit := phys, cls := (Config.classless n).toNat, outcome := 5, action := if again then 8 else 4, vit := some v, die := dieOfVit v })
    if again then (x.on (fun d => d.coreMapChanged v)).withdraw v
    else x.on (fun d => ((d.post 0x0205 2 v.toNat phys c.toNat).count 0x6050 3 v.toNat).coreMapChanged v |>.changed 4)

/-- The standby takes over a job that cannot restart (R255, R359): TAKEOVER goes to the Pendant. -/
def Dev.askTakeover (d : Dev) (l : VitId) : Dev :=
  let dest : DevId := BitVec.ofNat 16 (d.force 0x5200 1 0)
  let body := BitVec.ofNat 64 (d.devId.toNat * 2 ^ 48 + dest.toNat * 2 ^ 32 + (d.epoch l + 1).toNat)
  (d.setJob l (fun j => { j with st := 5 })).sendFree (d.sameTenancy l) { d.opHead l dest .takeover with operand1 := body }

/-- REPAIR_DONE (R358, R359, R366): the Conservators have repaired; `failedSlots` are cores whose CORE self-test failed. Repairs wait for a
Conservator that restarts (R364), and a tenancy's job for rows still to be retired (R159) and a die that rejoins (R358). A restarted tenancy begins with an
empty Provenance store (R135). -/
def execRepairDone (leader : VitId) (failedSlots : List CoreId) (s : State) : Out :=
  run s (fun x =>
    let l := leader
    let vs := x.dev.tenancy l
    let wait := vs.any (fun v => (x.dev.proc (10 + dieOfVit v)).st == 1 || (kfind x.dev.rel.rejoining (dieOfVit v)).isSome ||
      (x.dev.runs (dieOfVit v) && (slicesOfVit v).any (fun ch => (x.dev.hchan ch).due.any (·.unc))))
    if (x.dev.job l).st != 2 || wait || x.dev.dbg.stopped then x
    else
      let worn (c : CoreId) : Bool :=
        let p : Slots := kget {} x.dev.rel.slots (vitOfCore c).toNat
        2 ≤ kget 0 p.faults (nthD 0 p.slotOf (c.toNat % 16))
      let bad := (vs.flatMap (fun v => (coresOfVit v).map (BitVec.ofNat 9))).filter (fun c => failedSlots.contains c || worn c)
      let x := bad.foldl X.retireSlot x
      if (x.dev.job l).st != 2 then x
      else if vs.all (fun v => (x.dev.vit v).st == .assigned) && !(x.dev.job l).lost then
        x.on (fun d => (vs.foldl (fun (e : Dev) v => e.pvDrop v (fun _ => true)) (d.setJob l (fun j => { j with st := 3 }))).postVit 0x0202 l l.toNat)
      else
        x.on (fun d =>
          let d := d.setJob l (fun j => { j with st := 4 })
          if d.vset l 9 4 == 1 && (d.vit l).ckptCommitted != 0xFFFFFFFF then d.askTakeover l else d))

/-! ### Patrol scrub of the core-domain stores and cluster memory (R352) -/

def sramCode : SramStore → Nat
  | .regFile => 0 | .scratch => 1 | .l1 => 2 | .engine => 3 | .cluster => 4

/-- SRAM_SCRUB (R352): the next word of a store of the die; `unit` is the core, or the cluster of cluster memory. A corrected word is
counted, an uncorrectable one is a fault of the unit; in engine storage it raises STORAGE_UNCORRECTABLE against the group whose instruction the engine serves,
if it serves one (R67). Cluster memory counts its own domain, a quarter of the root clock (R8). -/
def execSramScrub (d : DieId) (store : SramStore) (unit : BitVec 9) (upset : Upset) (s : State) : Out :=
  run s (fun x =>
    let i := d.toNat
    let u := unit.toNat
    let isClus := store == .cluster
    if !x.dev.runs i || (if isClus then u / 8 != i else u / 64 != i) then x
    else
      let key := sramCode store * 1024 + u
      let iv := x.dev.force 0x6000 1 0
      let last := kget 0 x.dev.rel.scrub key
      let x := x.on (fun m => if isClus then m.reachRoot i (last + 4 * iv) else m.reachOf unit (last + iv))
      let x := x.on (fun m => m.onRel (fun r => { r with scrub := kset r.scrub key (if isClus then (m.die i).root else m.cycOf unit) }))
      let v : VitId := if isClus then BitVec.ofNat 5 (u / 2) else vitOfCore unit
      match upset with
      | .none => x
      | .corrected => x.on (fun m => (m.count 0x6051 2 i).count 0x8010 7 v.toNat)
      | .uncorrectable =>
        match if store == .engine then (x.dev.eng unit).serves else none with
        | some e => x.engRead unit e .uncorrectable id
        | none =>
        let x := if isClus then x else x.on (fun m => m.slotFault unit)
        x.uncorrected { ukind := if isClus then 2 else 1, unit := if isClus then u else x.dev.physSlot unit, cls := 2, outcome := 2, vit := some v, die := i })

/-! ### Gallery ways (R26, R367) -/

/-- SPARE_WAYS_USED of a die (R31) has changed. -/
def Dev.spareWays (d : Dev) (i : Nat) : Dev :=
  d.identChanged (some i) ((0x1001 + i) * 256 + 5) ((d.gal.filter (fun e => e.1 / 96 == i && e.2.spare.isSome)).length)

/-- A failed way of a slice (R367): its dirty lines are written back, pinned ones move to the spare, which stands in its place; with the
spare in use the owning Vitrine's job ends and the Vitrine is withdrawn. -/
def X.wayFailed (x : X) (sl way : Nat) : X :=
  let v : VitId := BitVec.ofNat 5 (sl / 24)
  let g := x.dev.slice sl
  let rec' (action : Nat) : ErrRec := { ukind := 3, unit := sl, cls := 3, outcome := 5, action, addr := way, akind := 3, vit := some v, die := sl / 96 }
  match g.spare with
  | none =>
    let mine := g.lines.filter (fun e => e.2.way == way)
    let bad := mine.filter (fun e => e.2.poison != 0)
    let x := mine.foldl (fun (y : X) e => if e.2.pinned || e.2.stays then y else y.dropLine e.1 true) x
    let x := x.on (fun d => (((d.setSlice sl (fun t => { t with spare := some way })).post 0x0206 2 v.toNat sl way).logErr (rec' 5)).changed 5 |>.spareWays (sl / 96))
    bad.foldl (fun (y : X) e => y.uncorrected { rec' 0 with outcome := 2, addr := e.1 * 128, akind := 1 }) x
  | some old =>
    if old == way then x
    else
      let x := x.on (fun d => d.logErr (rec' 8))
      let n := x.dev.lastRec
      let x := match (x.dev.vit v).leader with
        | some l => x.episode l n 3
        | none => x
      if (x.dev.vit v).st == .withdrawn then x else x.withdraw v

/-- WAY_SUBSTITUTE (R367). -/
def execWaySubstitute (sl : ChanId) (way : BitVec 4) (s : State) : Out :=
  run s (fun x => if x.dev.runs (sl.val / 96) then x.wayFailed sl.val way.toNat else x)

/-! ### Lasers (R23, R237, R368) -/

/-- Region (8 for the Atrium) and group of a laser group. -/
def laserPlace (k : Nat) : Nat × Nat := if k < 112 then (k / 14, k % 14) else (8, k - 112)

/-- What an active laser feeds: a bundle direction by its sending end (R23), or a link. -/
def laserFeeds (region group laser : Nat) : Sum Nat Nat :=
  if group < 8 then .inl (nthD 0 ((List.range 144).filter (fun r => (dirEnds r).1 == region)) (group * 2 + laser / 4))
  else .inr (region * 12 + (group - 8) * 2 + laser / 4)

/-- A laser has failed (R23, R237, R368): its group's spare takes its place and what it feeds retrains, or what it feeds goes out of service. -/
def Dev.laserFailed (d : Dev) (k laser : Nat) : Dev :=
  let (region, group) := laserPlace k
  let q : Laser := kget {} d.rel.lasers k
  if q.failed.getLsbD laser then d
  else
    let failed := putBit q.failed laser true
    let spareOk := q.spareFor.isNone && !q.failed.getLsbD 8
    let hit : Option Nat := if laser == 8 then q.spareFor else some laser
    let use := laser != 8 && spareOk
    let d := d.onRel (fun r => { r with lasers := kset r.lasers k { spareFor := if use then some laser else q.spareFor, failed } })
    let d := d.post 0x0207 (if region < 8 then 1 else 0) (if region < 8 then region else 0) (region * 16 + group) laser
    let d := if region < 8 then d.count 0x6051 3 region else d
    let d := (d.logErr { ukind := 8, unit := region * 16 + group, cls := 8, outcome := 5, action := 7, detail := laser, die := region % 8, atrium := region == 8 }).changed 7
    let row := (match (kget {} d.rel.lasers k : Laser).spareFor with | some n => n | none => 0xFF) + failed.toNat * 256
    let d := if region < 8 then d.identChanged (some region) ((0x1001 + region) * 256 + 4) row else d.identChanged none 0x100904 row
    match hit with
    | none => d
    | some n =>
      match laserFeeds region group n with
      | .inl r =>
        if use then d.setBund r (fun b => { b with want := true })
        else d.bundleOut r
      | .inr l =>
        if use then (if (d.link l).st == .down then d else d.linkTo l .training 0)
        else
          let d := d.setLink l (fun k => { k with out := true })
          if (d.link l).st == .down then d else d.linkTo l .down 0

/-- LASER_CHECK (R368): the lasers of a group below 70% of their start value, every 1,024 reference cycles. -/
def execLaserCheck (lg : LaserId) (failed : BitVec 9) (s : State) : Out :=
  runDev s (fun _ _ d =>
    let k := lg.val
    let (region, _) := laserPlace k
    if d.fw.step != 11 || (region < 8 && (d.isFenced region || d.rel.diesOut.getLsbD region)) then d
    else
      let d := d.reachRef (kget 0 d.rel.scrub (65536 + k) + 1024)
      let d := d.onRel (fun r => { r with scrub := kset r.scrub (65536 + k) d.ref })
      (bits failed).foldl (fun (e : Dev) n => e.laserFailed k n) d)

/-! ### Power-on hours (R374) -/

/-- POWER_ON_HOURS (R374). -/
def execPowerOnHours (s : State) : Out :=
  runDev s (fun _ _ d => if d.fw.step != 11 then d else (d.onRel (fun r => { r with hours := (r.hours + 1) % 2 ^ 32 })).changed 0)

end Sys2Proof.Machine
end

