-- ==== Sys2Proof/Machine/Bist.lean ====
section
/-! DEFINITION. Built-in self-test (R369-R373) and the sealing of the Condition Record (R374). -/

namespace Sys2Proof.Machine

/-! ### Starting a run (R369, R370) -/

/-- The BIST_STATE row of a target, when it is in range: its die, or 8 for the device (log 50). -/
def bistRow (kind t : Nat) : Option Nat :=
  match kind with
  | 1 => if t < 544 then some (t / 68) else none
  | 2 => if t < 64 then some (t / 8) else none
  | 3 => if t < 768 then some (t / 96) else none
  | 4 => if t < 144 * 68 then some (dirDie (t / 68)) else none
  | 5 => if t < 16 * 27 then some (t / 27 / 2) else none
  | 6 => if t / 16 < 8 && t % 16 < 14 then some (t / 16) else if t / 16 == 8 && t % 16 < 8 then some 8 else none
  | 7 => if t < 8 then some t else none
  | 8 | 9 => some 8
  | _ => none

def Dev.bistOf (d : Dev) (row : Nat) : Bist := kget {} d.rel.bist row

/-- Whether a run on a row must wait for one that runs: a die tests one resource at a time, a device run needs every die. -/
def Dev.bistBusy (d : Dev) (row kind : Nat) : Bool :=
  if 8 ≤ kind then (List.range 9).any (fun i => (d.bistOf i).running)
  else (d.bistOf row).running || ((d.bistOf 8).running && 8 ≤ (d.bistOf 8).kind)

def Dev.anyActive (d : Dev) (vs : List VitId) : Bool := vs.any (fun v => (d.vit v).busy)

/-- Whether the condition of a kind holds (R369, R370). -/
def Dev.bistAllowed (d : Dev) (kind t : Nat) : Bool :=
  match kind with
  | 1 =>
    let v : VitId := BitVec.ofNat 5 (t / 17)
    let p : Slots := kget {} d.rel.slots v.toNat
    !(p.slotOf.contains (t % 17) && p.retired != 0 && (d.vit v).busy)
  | 2 => (match (d.vit (BitVec.ofNat 5 (t / 2))).st with | .unassigned | .withdrawn | .outOfService => true | _ => false)
  | 3 => (d.slice t).spare.isNone
  | 7 => !d.anyActive (vitsOfDie t)
  | 8 | 9 => !d.anyActive (vitsOf (BitVec.allOnes 32))
  | _ => true

/-- A write of BIST_COMMAND (R369): the run begins, a lane under test is marked failed and its direction retrains (R370). -/
def X.doBist (x : X) (kind t : Nat) (nonce : BitVec 256) : X × Nat :=
  match bistRow kind t with
  | none => (x, stRange)
  | some row =>
    if x.dev.bistBusy row kind || !x.dev.bistAllowed kind t || x.dev.dbg.stopped || (row < 8 && !x.dev.runs row) then (x, stBusy)
    else
      let x := x.on (fun d => d.onRel (fun r => { r with bist := kset r.bist row { running := true, kind, target := t, nonce, start := d.ref } }))
      let x := match kind with
        | 4 => x.on (fun d => d.setBund (t / 68) (fun b => { b with failed := putBit b.failed (t % 68) true, want := true }))
        | 5 => x.on (fun d => d.setSeam (t / 27) (fun k =>
            { k with failed := putBit k.failed (t % 27) true, spareFor := if k.spareFor.isNone && t % 27 != 26 then some (t % 27) else k.spareFor,
                     pauseEnd := (d.die row).root + 2048 * 4 }))
        | _ => x
      (x, stProgress)

/-! ### Substitution during a CORE test (R370) -/

/-- Write back and invalidate a core's L1 (R370). -/
def X.flushL1 (x : X) (c : CoreId) : X :=
  (x.dev.core c).l1.foldl (fun (y : X) e =>
    match e.2.st with
    | .e | .m => y.settle e.1 true
    | .s => y.on (fun d => d.delL1 c e.1)
    | _ => y) x

/-- BIST_SLOT_SWAP (R370): with no step running in the Vitrine, slot 16 takes the name of the slot under test, or returns it after the test. -/
def execBistSlotSwap (v : VitId) (s : State) : Out :=
  run s (fun x =>
    let i := dieOfVit v
    let p : Slots := kget {} x.dev.rel.slots v.toNat
    let b := x.dev.bistOf i
    let mine := b.running && b.kind == 1 && b.target / 17 == v.toNat
    let quiet := (coresOfVit v).all (fun k => (x.dev.core (BitVec.ofNat 9 k)).ops.isEmpty)
    if !x.dev.runs i || (x.dev.stepOn v).isSome || !quiet then x
    else
      match p.testing, p.slotOf.findIdx? (fun t => t == b.target % 17) with
      | some j, _ =>
        if mine then x
        else (x.flushL1 (BitVec.ofNat 9 (v.toNat * 16 + j))).on (fun d => d.onRel (fun r => { r with slots := kset r.slots v.toNat p.untest }) |>.coreMapChanged v)
      | none, some j =>
        if mine && p.retired == 0 && b.target % 17 != 16 then
          let q : Slots := { p with testing := some j, slotOf := setNth p.slotOf j 16 }
          (x.flushL1 (BitVec.ofNat 9 (v.toNat * 16 + j))).on (fun d =>
            ((d.onRel (fun r => { r with slots := kset r.slots v.toNat q })).post 0x0205 2 v.toNat b.target (v.toNat * 16 + j)).count 0x6050 3 v.toNat |>.coreMapChanged v)
        else x
      | none, none => x)

/-! ### The end of a run (R371-R373) -/

/-- An entry passes when its signature is as expected and nothing failed (R373). -/
def bistPass (e : BistEntry) : Bool := e.notRun || (e.misr == e.expected && e.failCount == 0)

/-- Retire a physical slot that failed its test (R365, R366, R370). A slot in service of a Vitrine whose step runs ends that Vitrine's job, and is retired before
the job restarts (R25). -/
def X.slotFailed (x : X) (unit : Nat) : X :=
  let v : VitId := BitVec.ofNat 5 (unit / 17)
  let p : Slots := kget {} x.dev.rel.slots v.toNat
  let slot := unit % 17
  match p.testing, p.slotOf.findIdx? (fun t => t == slot) with
  | some j, _ =>
    if j == slot then x.on (fun d => (d.onRel (fun r => { r with slots := kset r.slots v.toNat { p with testing := none, retired := putBit p.retired slot true } })).coreMapChanged v |>.changed 4)
    else x
  | none, some j =>
    if (x.dev.stepOn v).isNone then x.retireSlot (BitVec.ofNat 9 (v.toNat * 16 + j))
    else
      let (n, d) := x.dev.draw
      let d := d.onRel (fun r => { r with slots := kset r.slots v.toNat { p with faults := kset p.faults slot 2 } })
      ({ x with dev := d } : X).uncorrected { ukind := 1, unit := unit, cls := (Config.classless n).toNat, outcome := 2, vit := some v, die := dieOfVit v }
  | none, none =>
    if p.retired.getLsbD slot then x
    else
      let x := x.on (fun d => (d.onRel (fun r => { r with slots := kset r.slots v.toNat { p with retired := putBit p.retired slot true } })).coreMapChanged v |>.changed 4)
      if p.retired != 0 && (x.dev.vit v).st != .withdrawn then x.withdraw v else x

/-- The repair of a failing entry's resource (R365, R371). An HBM entry's FIRST_FAIL is taken as the 8-byte word of the channel (log 50). -/
def X.testRepair (x : X) (e : BistEntry) : X :=
  let u := e.unitIndex.toNat
  let k := e.block.toNat
  match e.unitKind.toNat with
  | 1 => if u < 544 then x.slotFailed u else x
  | 2 =>
    let v : VitId := BitVec.ofNat 5 (u / 2)
    if 64 ≤ u || (x.dev.vit v).st == .withdrawn then x else x.withdraw v
  | 3 => if u < 768 && k < 16 then x.wayFailed u k else x
  | 4 => if u < 768 then x.on (fun d => d.dueRow u (e.firstFail.toNat * 8) false) else x
  | 5 => if u < 16 && k < 27 && !(x.dev.seam u).failed.getLsbD k then x.on (fun d => d.seamFailed u k) else x
  | 6 =>
    if u < 144 && k < 68 then
      x.on (fun d => ((((d.setBund u (fun b => { b with failed := putBit b.failed k true, want := true })).logErr (bundRec u k)).changed 6).bundCheck u))
    else x
  | 8 => if u / 16 < 8 && u % 16 < 14 then x.on (fun d => d.laserFailed (u / 16 * 14 + u % 16) k) else if u / 16 == 8 && u % 16 < 8 then x.on (fun d => d.laserFailed (112 + u % 16) k) else x
  | _ => x

/-- Put a lane back that a test took out of service (R370). -/
def Dev.returnLane (d : Dev) (b : Bist) : Dev :=
  match b.kind with
  | 4 => d.setBund (b.target / 68) (fun q => { q with failed := putBit q.failed (b.target % 68) false, want := true })
  | 5 => d.setSeam (b.target / 27) (fun k =>
      { k with failed := putBit k.failed (b.target % 27) false, spareFor := if k.spareFor == some (b.target % 27) then none else k.spareFor })
  | _ => d

/-- The Vitrine that holds the resource of a run, for its tenancy's episode (R371). -/
def bistVit (b : Bist) : Option VitId :=
  match b.kind with
  | 1 => some (BitVec.ofNat 5 (b.target / 17))
  | 2 => some (BitVec.ofNat 5 (b.target / 2))
  | 3 => some (BitVec.ofNat 5 (b.target / 24))
  | _ => none

/-- BIST_DONE (R370-R373): the run ends with its report, which the Registrar signs. It is aborted by a stop, a fault episode of the
tenancy that holds the resource, or a fence. -/
def execBistDone (row : Fin 9) (entries : List BistEntry) (aborted : Bool) (s : State) : Out :=
  run s (fun x =>
    let b := x.dev.bistOf row.val
    if !b.running || (x.dev.proc 1).st == 1 then x
    else
      let faulted := match (bistVit b).bind (fun v => (x.dev.vit v).leader) with
        | some l => (x.dev.job l).st == 1 || (x.dev.job l).st == 2
        | none => false
      let stop := aborted || x.dev.dbg.stopped || faulted || (row.val < 8 && !x.dev.runs row.val)
      let x := x.on (fun d => d.returnLane b)
      let x := if stop then x else (entries.filter (fun e => !bistPass e)).foldl X.testRepair x
      x.bistEnd row.val entries (if stop then 2 else if entries.all bistPass then 0 else 1))

/-! ### Sealing (R374, R386) -/

/-- A write of RECORD_SEAL. -/
def X.doRecordSeal (x : X) (val : Nat) : X × Nat :=
  if 1 < val then (x, stRange)
  else if val == 0 then (x, stOk)
  else if x.dev.rel.sealing.isSome || (x.dev.proc 1).st == 1 then (x, stBusy)
  else (x.on (fun d => d.onRel (fun r => { r with sealing := some d.ref })), stProgress)

/-- RECORD_SEAL_DONE (R374, R386): the record's sequence is one above the last sealed in this start, or above the accepted one. -/
def execRecordSealDone (s : State) : Out :=
  runDev s (fun _ _ d =>
    if d.rel.sealing.isNone || (d.proc 1).st != 0 then d
    else
      let seq := (max d.fw.lastSealed d.fw.recSeq + 1) % 2 ^ 32
      let d := d.onRel (fun r => { r with sealing := none, sealedSeq := seq, changes := 0 })
      { d with fw := { d.fw with lastSealed := seq } })

end Sys2Proof.Machine
end

