-- ==== Sys2Proof/Machine/Firmware.lean ====
section
/-! DEFINITION. Firmware and security (R378-R405): loading and checks, start-up (R447, R448), restarts, the admin ring and activation,
attestation and locks. -/

namespace Sys2Proof.Machine

def Dev.onFw (d : Dev) (f : Fw → Fw) : Dev := { d with fw := f d.fw }
/-- The dies in service that are neither fenced nor out, as a mask. -/
def Dev.dieMask (d : Dev) : BitVec 8 := BitVec.ofNat 8 d.diesIn

/-! ### Sessions (R305, R312, R393) -/

/-- Whether a port is a field-network or MCTP session. -/
def CatPort.isSession : CatPort → Bool
  | .session _ => true
  | _ => false

/-- End every field-network and MCTP session; their transactions are discarded. -/
def Cat.endSessions (c : Cat) : Cat := { c with reqs := c.reqs.filter (fun r => !CatPort.isSession r.port) }

/-- APPROVED_MODE (R392): certified hardware and Registrar firmware, and the self-tests passed. -/
def Dev.approvedOf (registrar : Nat) (error : Bool) : Bool :=
  !error && (Config.atriumStepping == 0x4101 || Config.atriumStepping == 0x4200) && (registrar == 0x03010000 || registrar == 0x03010002)

/-! ### Loading (R383) -/

/-- Whether a refused start waits for a new LOAD_SEGMENT (R384): one for SELF_TEST, SUPPLY or ATRIUM_SELF_TEST does not. -/
def Fw.reloads (f : Fw) : Bool := f.step == 4 && (f.start == 0 || f.start == 2)

/-- LOAD_SEGMENT (R383, R384): data within an area of the staging memory, at step 4. -/
def execLoadSegment (target : BitVec 1) (offset : BitVec 64) (data : List Byte) (s : State) : Out :=
  run s (fun x =>
    let size := if target == 0 then stageSecond else 8 * 2 ^ 20
    let base := if target == 0 then stageBundle else stageRecord
    if !x.dev.fw.reloads || size < offset.toNat + data.length then x
    else (x.putBytes .stage (base + offset.toNat) data).on (fun d => d.onFw (fun f => { f with start := 0, reason := 0 })))

/-- LOAD_END (R383): the checks of step 5 begin. -/
def execLoadEnd (driverIf : BitVec 16) (bundleLen recordLen : BitVec 64) (s : State) : Out :=
  runDev s (fun _ _ d =>
    if d.fw.step == 4 && d.fw.start == 0 then
      d.onFw (fun f => { f with start := 1, step := 5, bundleLen := bundleLen.toNat, recordLen := recordLen.toNat, driverIf := driverIf.toNat })
    else d)

/-- START_STATUS (R383): STATE, REASON, FW_VERSION and the Registrar's self-test result, once the mailbox is ready or a start is held. -/
def execStartStatus (s : State) : Out :=
  runDev s (fun _ _ d =>
    if 4 ≤ d.fw.step || d.fw.start == 2 then
      d.onHost (fun h => { h with mbox := leBytes d.fw.start 1 ++ leBytes d.fw.reason 1 ++ leBytes d.fw.version 4 ++ leBytes (Config.selfTestResult (!d.fw.error)).toNat 4 })
    else d)

/-! ### The checks of R384 -/

/-- A stepping list accepts the Plinth, the Atrium and every die. -/
def steppingsOk (l : List (BitVec 16)) : Bool :=
  l.contains Config.plinthStepping && l.contains Config.atriumStepping && (List.range 8).all (fun i => l.contains (Config.dieStepping i))

/-- A bundle's checks, orders 1-6: the REASON of the first that fails. -/
def bundleCheck (m : Mram) (len : Nat) (b : BundleInfo) : Nat :=
  if !b.formatOk || stageSecond < len then 1
  else if m.keysRevoked.getLsbD b.keyIndex.toNat then 2
  else if !b.signatureOk then 3
  else if !b.digestOk then 4
  else if b.svn.toNat < m.svnFloor then 5
  else if !steppingsOk b.steppings then 6
  else 0

/-- Order 11. -/
def driverOk (driverIf : Nat) (b : BundleInfo) : Bool := b.ifMin.toNat ≤ driverIf && driverIf ≤ b.ifMax.toNat

/-- Whether a record's retirements cover the counters of R385. -/
def covers (m : Mram) (r : RecordInfo) : Bool := m.retire.all (fun e => decide (e.2 ≤ nthD 0 r.retirements e.1))

/-- The checks of a start in order (R384). -/
def Dev.startCheck (d : Dev) (m : Mram) (b : BundleInfo) (r : RecordInfo) : Nat :=
  let n := bundleCheck m d.fw.bundleLen b
  if 8 * 2 ^ 20 < d.fw.recordLen then 1
  else if n != 0 then n
  else if !r.pufOk then 7
  else if !r.signatureOk then 8
  else if r.serial != Config.packageSerial then 9
  else if r.seq.toNat < m.recordSeqFloor || !covers m r then 10
  else if !driverOk d.fw.driverIf b then 11
  else 0

/-- The slots of a pair with the record's retired ones (R24). -/
def slotsOf (m : BitVec 17) : Slots :=
  { retired := m, slotOf := (List.range 16).map (fun j => if m.getLsbD j && !m.getLsbD 16 then 16 else j) }

/-- What a record's laser failures leave out of service: lasers beyond the spare of their group (R23). Of several failed lasers of a group the lowest stands on
the spare (DESIGN CHOICE, log 76). -/
def laserOuts (k : Nat) (failed : BitVec 9) : List (Sum Nat Nat) :=
  let act := (bits failed).filter (· < 8)
  let (region, group) := laserPlace k
  (if failed.getLsbD 8 then act else act.drop 1).map (laserFeeds region group)

/-- The accepted Condition Record's state (R24-R26, R222, R311, R344, R345, R374), with the remap tables (R160). Of two failed lanes of a seam
direction the lower stands on the spare and the other is left out, 25 lanes (R219, log 76). -/
def Dev.applyRecord (d : Dev) (r : RecordInfo) : Dev :=
  let d := d.loadRepairs r.repairs r.redirects
  let two (w : Nat) : Bool := decide (2 ≤ w)
  let prov := r.provisioned.flatMap (fun (e : EntryRef × List Nat) =>
    e.2.zipIdx.map (fun (v : Nat × Nat) => (ckey e.1.index.toNat e.1.sub.toNat v.2, v.1)))
  let d := d.onCat (fun c => { c with acc := prov.foldl (fun m (e : Nat × Nat) => kset m e.1 e.2) c.acc,
                                      force := prov.foldl (fun m (e : Nat × Nat) => kset m e.1 e.2) c.force, pendingRwp := [] })
  let lost := (r.retiredSlots.zipIdx).foldl (fun (m : BitVec 32) (e : BitVec 17 × Nat) => if two (bits e.1).length then putBit m e.2 true else m)
    (r.withdrawn ||| d.beyondRepair)
  let lost := r.failedWays.foldl (fun (m : BitVec 32) (e : Nat × BitVec 17) => if two (bits e.2).length then putBit m (e.1 / 24) true else m) lost
  let d := (d.onHbm (fun h => { h with giveUp := 0 })).onRel (fun q => { q with
                                                                         slots := (r.retiredSlots.zipIdx).foldl (fun (m : KMap Slots) (e : BitVec 17 × Nat) => if e.1 == 0 then m else kset m e.2 (slotsOf e.1)) q.slots,
                                                                         lasers := r.lasers.foldl (fun (m : KMap Laser) (e : Nat × BitVec 9) =>
      kset m e.1 { failed := e.2, spareFor := if e.2.getLsbD 8 then none else ((bits e.2).filter (· < 8)).head? }) q.lasers,
                                                                         hours := r.hours.toNat, withdrawn := lost })
  let d := r.failedWays.foldl (fun (e : Dev) (w : Nat × BitVec 17) => e.setSlice w.1 (fun g => { g with spare := ((bits w.2).filter (· < 16)).head? })) d
  let d := r.failedLanes.foldl (fun (e : Dev) (w : Nat × BitVec 68) => e.setBund w.1 (fun b => { b with failed := w.2 })) d
  let d := r.failedSeam.foldl (fun (e : Dev) (w : Nat × BitVec 27) =>
    e.setSeam w.1 (fun k =>
      let bad := (bits w.2).filter (· < 26)
      let use := if w.2.getLsbD 26 then none else bad.head?
      { k with failed := w.2, spareFor := use, dropped := (bad.filter (fun l => some l != use)).foldl (fun m l => putBit m l true) 0 })) d
  let d := r.lasers.foldl (fun (e : Dev) (w : Nat × BitVec 9) => (laserOuts w.1 w.2).foldl (fun (f : Dev) o =>
    match o with
    | .inl b => (f.setBund b (fun q => { q with st := 2 })).setBund (dirBack b) (fun q => { q with st := 2 })
    | .inr l => f.setLink l (fun q => { q with out := true })) e) d
  let d := (r.trim.zipIdx).foldl (fun (e : Dev) (t : Byte × Nat) =>
    e.setDpow t.2 (fun p => { p with trim := t.1.toNat, hist := nthD [] r.trimHistory t.2, worn := decide (e.force 0x2000 8 0 ≤ t.1.toNat) })) d
  (bits lost).foldl (fun (e : Dev) v => e.setVit (BitVec.ofNat 5 v) (fun t => { t with st := .withdrawn })) d

/-- START_VERIFY_DONE (R384-R386, R392): a refused start waits again at step 4; an accepted one raises the MRAM's floors, revokes the key that
the record names, and continues at step 7. -/
def execStartVerifyDone (bundle : BundleInfo) (record : RecordInfo) (s : State) : Out :=
  run s (fun x =>
    if x.dev.fw.step != 5 || x.dev.fw.start != 1 then x
    else
      let n := x.dev.startCheck x.mram bundle record
      if n != 0 then
        ((x.op (.zero .stage stageBundle stageSecond)).op (.zero .stage stageRecord (8 * 2 ^ 20))).on (fun d =>
          d.onFw (fun f => { f with start := 2, reason := n, step := 4 }))
      else
        let key := (record.provisioned.find? (fun (e : EntryRef × List Nat) => e.1.index == 0x7003 && e.1.sub == 3)).map (fun e => nthD 0 e.2 0)
        let x := x.mop (.raiseRecord record.seq.toNat)
        let x := record.retirements.zipIdx.foldl (fun (y : X) (e : Nat × Nat) => y.mop (.retire e.2 e.1)) x
        let x := x.on (fun d => (d.applyRecord record).onFw (fun f =>
          { f with start := 3, reason := 0, step := 7, version := bundle.version.toNat, svn := bundle.svn.toNat,
                   registrarVersion := bundle.registrarVersion.toNat, registrarDigest := bundle.registrarDigest,
                   recSeq := record.seq.toNat, lastSealed := record.seq.toNat,
                   approved := Dev.approvedOf bundle.registrarVersion.toNat f.error }))
        match key with
        | some k => if k < 4 && !x.mram.keysRevoked.getLsbD k then (x.mop (.revoke (BitVec.ofNat 2 k))).on (fun d => d.post 0x0307 0 0 k) else x
        | none => x)

/-! ### Start-up (R21, R161, R365, R447, R448) -/

/-- A die that a start takes out of service: its Vitrines stay unassignable, their windows unpopulated (R21). -/
def Dev.dieOut (d : Dev) (i : Nat) : Dev :=
  let d := d.onRel (fun r => { r with diesOut := putBit r.diesOut i true,
                                      noWindow := (vitsOfDie i).foldl (fun m v => putBit m v.toNat true) r.noWindow })
  let d := (d.setDie i (fun k => { k with running := false })).setProc (2 + i) (fun p => { p with st := 2 })
  let d := d.setProc (10 + i) (fun p => { p with st := 2 })
  (vitsOfDie i).foldl (fun (e : Dev) v => e.setVit v (fun t => if t.st == .withdrawn then t else { t with st := .outOfService })) d

/-- Whether both bundles of a pair are out of service. -/
def Dev.pairOut (d : Dev) (p : Nat) : Bool := (d.bund (4 * p)).st == 2 && (d.bund (4 * p + 2)).st == 2

/-- R21's decision: dies without a bundle to the Atrium, then, in bundle-name order, one die of each compute pair without a bundle. -/
def Dev.decideDies (d : Dev) : Dev :=
  let pairs := bundlePairs.zipIdx
  let d := (pairs.filter (fun (e : (Nat × Nat) × Nat) => e.1.2 == 8 && d.pairOut e.2)).foldl (fun (e : Dev) (p : (Nat × Nat) × Nat) => e.dieOut p.1.1) d
  let outs (i : Nat) : Nat := d.bundlesGone i
  (pairs.filter (fun (e : (Nat × Nat) × Nat) => e.1.2 != 8 && d.pairOut e.2)).foldl (fun (e : Dev) (p : (Nat × Nat) × Nat) =>
    let (a, b) := p.1
    if e.rel.diesOut.getLsbD a || e.rel.diesOut.getLsbD b then e
    else e.dieOut (if outs b < outs a then a else b)) d

/-- Step 7: the lanes that training found bad join the failed ones, the dies are decided and those in service run (R21, R222). -/
def Dev.startDies (d : Dev) (res : StepResult) : Dev :=
  let d := res.badLanes.foldl (fun (e : Dev) (w : Nat × BitVec 68) =>
    let new := w.2 &&& ~~~(e.bund w.1).failed
    let e := e.setBund w.1 (fun b => { b with failed := b.failed ||| w.2 })
    if new == 0 then e else e.changed 6) d
  let d := (List.range 144).foldl (fun (e : Dev) r =>
    if 4 < (bits (e.bund r).failed).length then (e.setBund r (fun b => { b with st := 2 })).setBund (dirBack r) (fun b => { b with st := 2 }) else e) d
  let d := (res.diesFailed.foldl (fun (e : Dev) i => e.dieOut i.toNat) d).decideDies
  (List.range 8).foldl (fun (e : Dev) i =>
    if e.rel.diesOut.getLsbD i then e
    else ((e.setDie i (fun k => { k with running := true })).setProc (2 + i) (fun p => { p with st := 0 })).setProc (10 + i) (fun p => { p with st := 0 })) d

/-- Step 8: failed channels and stacks (R161). -/
def Dev.startHbm (d : Dev) (res : StepResult) : Dev :=
  d.channelsOut (res.channelsFailed ++ res.stacksFailed.flatMap (fun k => (List.range 32).map (fun i => 32 * k + i)))

/-- Step 9: what fails its test is repaired or taken out of service, and the run leaves its report (R365, R369, R375). -/
def X.startTest (x : X) (res : StepResult) : X :=
  let x := (res.entries.filter (fun e => !bistPass e)).foldl X.testRepair x
  let x := x.on (fun d => res.diesFailed.foldl (fun (e : Dev) i => e.dieOut i.toNat) d)
  let result := if res.entries.all bistPass then 0 else 1
  x.on (fun d => d.onRel (fun r => { r with report :=
    { kind := 8, result, duration := d.ref - (kget {} r.bist 8 : Bist).start, entries := res.entries, recSeq := d.fw.recSeq, fw := d.fw.version,
      signature := Config.signature [8, 0, result, 0, 0, res.entries.length] }, bist := kdel r.bist 8 }))

/-- Step 10: the Curator publishes the Catalogue, posts PROFILE_IN_FORCE and starts link training (R242, R300, R309, R330). -/
def Dev.publish (d : Dev) : Dev :=
  let node := d.force 0x100A 2 0
  let d := d.onCat (fun c => { c with published := true, nodeInUse := if node == 0xFFFF then d.host.straps.toNat else node })
  let top := d.force 0x2000 1 0
  let d := d.onPow (fun p => { p with profile := top })
  let d := (List.range 8).foldl (fun (e : Dev) i => e.setDpow i (fun p => { p with capMw := dieCapMw top })) d
  let d := (d.onFw (fun f => { f with start := 4, step := 11 })).setProc 0 (fun p => { p with st := 0 })
  let d := d.post 0x0103 0 0 top top
  (List.range 96).foldl (fun (e : Dev) l => if e.rel.diesOut.getLsbD (l / 12) || (e.link l).out then e else e.linkTo l .training 0) d

/-- STARTUP_STEP_DONE (R443, R447, R448): the step under way ends with what the hardware found. A start held at SUPPLY, SELF_TEST or
ATRIUM_SELF_TEST goes no further. -/
def execStartupStepDone (res : StepResult) (s : State) : Out :=
  run s (fun x =>
    let f := x.dev.fw
    let held (n : Nat) (y : X) : X := y.on (fun d => d.onFw (fun f => { f with start := 2, reason := n }))
    if f.start == 2 && f.step != 4 then x
    else match f.step with
    | 2 =>
      if res.ok then x.on (fun d => d.onFw (fun f => { f with step := 3 }))
      else (held 0x0E x).on (fun d => d.onHost (fun h => { h with fatal := true }))
    | 3 =>
      if res.ok && x.mram.checkOk then
        x.on (fun d => ((d.onFw (fun f => { f with step := 4, start := 0, reason := 0 })).onHost (fun h => { h with fatal := false })).setProc 1 (fun p => { p with st := 0 }))
      else (held 0x0C x).on (fun d => d.onFw (fun f => { f with error := true }))
    | 7 => x.on (fun d => (d.startDies res).onFw (fun f => { f with step := 8 }))
    | 8 => x.on (fun d => ((d.startHbm res).onRel (fun r => { r with bist := kset r.bist 8 { running := true, kind := 8, start := d.ref } })).onFw (fun f => { f with step := 9 }))
    | 9 => if res.ok then (x.startTest res).on (fun d => d.onFw (fun f => { f with step := 10 })) else held 0x0F x
    | 10 => x.on Dev.publish
    | _ => x)

/-! ### Restarts (R380, R364, R388, R393) -/

/-- The die of a Docent or Conservator. -/
def procDie (p : Nat) : Nat := if p < 10 then p - 2 else p - 10

/-- An activation takes this processor next (R388): Conservators one die at a time, then the Curator; Docents have a command of their own. -/
def Dev.activates (d : Dev) (p : Nat) : Bool :=
  d.fw.act == 2 && !d.dbg.stopped && (List.range 8).all (fun i => (d.proc (10 + i)).st != 1) &&
  (if p == 0 then d.fw.consLeft == 0 && d.fw.curLeft else 10 ≤ p && d.fw.consLeft.getLsbD (p - 10))

/-- A processor is reset and reloads (R380): it counts, is reported, and ends what its restart ends. -/
def Dev.restart (d : Dev) (p cause : Nat) : Dev :=
  let d := (d.setProc p (fun q => { st := 1, restarts := q.restarts + 1 })).post 0x020A 0 0 p cause
  match p with
  | 0 => d.onCat (fun c => { c.endSessions with reqs := c.endSessions.reqs.map (fun r => { r with txn := none }) })
  | 1 => d.onCat Cat.endSessions
  | _ => d

/-- FIRMWARE_RESTARTED (R364, R380, R388): cause 0 watchdog, 1 protection, 2 activation. The fourth restart of a processor in a start fences
its die or is fatal, and so is a component whose digest differs. -/
def execFirmwareRestarted (p : ProcId) (cause : BitVec 2) (digestOk : Bool) (s : State) : Out :=
  run s (fun x =>
    let i := p.val
    let die := procDie i
    let act := cause == 2
    if x.dev.fw.step != 11 || (x.dev.proc i).st != 0 || cause == 3 || (2 ≤ i && !x.dev.runs die) || (act && !x.dev.activates i) then x
    else if !digestOk then x.fatalReset
    else
      let x := if act then x.on (fun d => d.onFw (fun f =>
          if i == 0 then { f with curLeft := false } else { f with consLeft := putBit f.consLeft die false }))
        else x.on (fun d => d.logErr { ukind := 9, unit := i, cls := 7, outcome := if 2 ≤ i && i < 10 then 2 else 0, action := 9,
                                       die := if 2 ≤ i then die else 0, atrium := decide (i < 2) })
      let n := x.dev.lastRec
      let x := x.on (fun d => d.restart i cause.toNat)
      if 4 ≤ (x.dev.proc i).restarts then (if i < 2 then x.fatalReset else x.fence die .command)
      else if 2 ≤ i && i < 10 && !act then
        let x := x.on (fun d => d.post 0x0200 0 0 n 7)
        (((vitsOfDie die).filterMap (fun v => (x.dev.vit v).leader)).dedup).foldl (fun (y : X) l => y.episode l n 7) x
      else x)

/-- Append the records that a die's hardware held (R353). -/
def Dev.heldRecords (d : Dev) (die : Nat) : Dev :=
  let mine := ((d.rel.heldRecs.find? (fun h => h.1 == die)).map (·.2)).getD []
  let d := d.onRel (fun r => { r with heldRecs := r.heldRecs.filter (fun h => h.1 != die) })
  mine.foldl (fun (e : Dev) m =>
    e.onRel (fun q =>
      let l := q.log ++ [{ m with seq := q.next }]
      let ovr := l.length - 1024
      { q with log := l.drop ovr, next := (q.next + 1) % 2 ^ 32, lost := q.lost + ((l.take ovr).filter (fun t => decide (q.read ≤ t.seq))).length })) d

/-! ### The admin ring (R387) -/

/-- Whether the admin ring's descriptors are served: the Catalogue is published and the Curator runs. -/
def Dev.adminServes (d : Dev) : Bool := d.cat.published && (d.proc 0).st == 0

/-- Take the next SEQ of the admin ring. -/
def Dev.adminSeq (d : Dev) : Nat × Dev := (d.fw.admin.seq, d.onFw (fun f => { f with admin := { f.admin with seq := (f.admin.seq + 1) % 2 ^ 32 } }))

/-- Complete an admin command with its SEQ. -/
def X.adminDone (x : X) (tag detail opcode status : Nat) : X :=
  x.on (fun d => let (n, d) := d.adminSeq; d.adminPost n tag detail opcode status)

/-- FW_STAGE (R384, R387): the bundle is read into the second area and checked, orders 1-6 and 11. -/
def execFwStage (userTag : BitVec 16) (src len : BitVec 64) (bundle : BundleInfo) (s : State) : Out :=
  run s (fun x =>
    if !x.dev.adminServes || 2 ≤ x.dev.fw.act || (x.dev.proc 1).st != 0 then x
    else
      let n := bundleCheck x.mram len.toNat bundle
      let n := if n == 0 && !driverOk x.dev.fw.driverIf bundle then 11 else n
      let x := if len.toNat ≤ stageSecond then x.copyCells .host src.toNat .stage stageSecond len.toNat else x
      if n == 0 then (x.on (fun d => d.onFw (fun f => { f with staged := some bundle, act := 1 }))).adminDone userTag.toNat 0 0x40 0
      else ((x.on (fun d => (d.onFw (fun f => { f with staged := none, act := 0 })).post 0x0301 0 0 n))).adminDone userTag.toNat n 0x40 0x10)

/-- An activation begins (R388): every Conservator, the Curator and every Docent have to restart. -/
def Dev.beginActivation (d : Dev) : Dev :=
  d.onFw (fun f => { f with act := 2, consLeft := d.dieMask, curLeft := true, docents := d.dieMask })

/-- FW_ACTIVATE (R343, R387, R388): refused when the Registrar's component differs, deferred in an emergency. -/
def execFwActivate (userTag : BitVec 16) (s : State) : Out :=
  run s (fun x =>
    if !x.dev.adminServes || 2 ≤ x.dev.fw.act then x
    else match x.dev.fw.staged with
    | none => x.adminDone userTag.toNat 0 0x41 3
    | some b =>
      if b.registrarDigest != x.dev.fw.registrarDigest then (x.on (fun d => d.post 0x0301 0 0 0x0D)).adminDone userTag.toNat 0x0D 0x41 0x10
      else
        let (n, d) := x.dev.adminSeq
        let x : X := { x with dev := d.onFw (fun f => { f with actSeq := n, actTag := userTag.toNat }) }
        if x.dev.emergency == 0 then x.on Dev.beginActivation
        else
          let x := x.on (fun d => ((d.onFw (fun f => { f with act := 3 })).post 0x0110 0 0 d.emergency).adminPost n userTag.toNat 0 0x41 0x11)
          ((vitsOf (BitVec.allOnes 32)).filter (fun v => x.dev.leads v)).foldl (fun (y : X) l => y.ringEvent l 0x83 0) x)

/-- FW_ACTIVATION_RESUMED (R343): EMERGENCY_STATE has been 0 for 100 ms. -/
def execFwActivationResumed (s : State) : Out :=
  runDev s (fun _ _ d =>
    if d.fw.act == 3 && d.emergency == 0 && !d.dbg.stopped then ((d.reachRef (d.pow.calmAt + 10000000)).beginActivation).post 0x0111 0 0 else d)

/-- DOCENT_ACTIVATION_RESTART (R388): no step of the die's Vitrines runs or is SAVED. -/
def execDocentActivationRestart (d : DieId) (s : State) : Out :=
  runDev s (fun _ _ m =>
    let i := d.toNat
    let free := !m.srv.steps.any (fun t => (vitsOfDie i).any (fun v => t.mask.getLsbD v.toNat))
    if m.fw.act == 2 && m.fw.consLeft == 0 && !m.fw.curLeft && (m.proc 0).st == 0 && m.fw.docents.getLsbD i && free && m.runs i && (m.proc (2 + i)).st == 0 &&
        !m.dbg.stopped then
      (m.onFw (fun f => { f with docents := putBit f.docents i false })).restart (2 + i) 2
    else m)

/-- RECORD_FETCH (R383, R387): the latest sealed record, or the one supplied at start when none has been sealed. -/
def execRecordFetch (userTag : BitVec 16) (dst : BitVec 64) (s : State) : Out :=
  run s (fun x =>
    if !x.dev.adminServes || x.dev.fw.act == 2 then x
    else
      let n := x.dev.rel.sealedSeq
      let x := if n == 0 then x.copyCells .stage stageRecord .host dst.toNat x.dev.fw.recordLen
        else x.putBytes .host dst.toNat ((List.range (Config.recordLen n)).map (Config.recordByte n))
      x.adminDone userTag.toNat 0 0x42 0)

/-- LOG_FETCH (R387): the diagnostic logs, of at most the 16 MiB of R383. -/
def execLogFetch (userTag : BitVec 16) (dst : BitVec 64) (s : State) : Out :=
  run s (fun x =>
    if !x.dev.adminServes || x.dev.fw.act == 2 then x
    else
      let (n, d) := x.dev.draw
      let x := ({ x with dev := d } : X).putBytes .host dst.toNat ((List.range (min (Config.logLen n) (2 ^ 24))).map (Config.fileByte n))
      x.adminDone userTag.toNat 0 0x43 0)

/-! ### Self-tests, anti-rollback and zeroisation (R385, R391, R393) -/

/-- SELF_TEST_FAILED (R391): the module's error state; while running it restarts the Registrar, and after that restart it is fatal. -/
def execSelfTestFailed (test : Byte) (afterRestart : Bool) (s : State) : Out :=
  run s (fun x =>
    let st := (x.dev.proc 1).st
    if x.dev.fw.step != 11 || (if afterRestart then st != 1 else st != 0) then x
    else
      let x := x.on (fun d => (d.onFw (fun f => { f with error := true, approved := false })).post 0x0305 0 0 test.toNat 0)
      if afterRestart then x.fatalReset
      else
        let x := x.on (fun d => d.restart 1 3)
        if 4 ≤ (x.dev.proc 1).restarts then x.fatalReset else x)

/-- A write of SVN_COMMIT (R385): after ready, SVN_FLOOR rises to the SVN in force. -/
def X.doSvnCommit (x : X) (val : Nat) : X × Nat :=
  if 1 < val then (x, stRange)
  else if val == 0 then (x, stOk)
  else if !x.dev.cat.ready then (x, stBusy)
  else
    let x := x.mop (.raiseSvn x.dev.fw.svn)
    (x.on (fun d => d.post 0x0302 0 0 x.mram.svnFloor), stOk)

/-- A write of ZEROIZE (R393): the fatal reset. -/
def X.doZeroize (x : X) (val : Nat) : X × Nat :=
  if 1 < val then (x, stRange) else if val == 0 then (x, stOk) else (x.fatalReset, stOk)

/-! ### Attestation and locks (R396, R397, R401) -/

/-- The measurements by index (R397): digests of the components and records in force, of the values in force, and of a locked Vitrine. -/
def Dev.measure (d : Dev) (i : Nat) : BitVec 256 :=
  if 16 ≤ i then (d.vit (BitVec.ofNat 5 (i - 16))).tspDigest
  else if i == 9 then Config.digest (i :: (d.cat.force.filter (fun e => match entryAt (e.1 / 16777216) (e.1 / 65536 % 256) with
    | some t => 3 ≤ t.access
    | none => false)).flatMap (fun e => [e.1, e.2]))
  else if i == 8 then Config.digest [i, d.fw.recSeq]
  else if i == 1 then Config.digest [i]
  else if i == 2 then d.fw.registrarDigest
  else Config.digest [i, d.fw.version, d.fw.svn]

/-- The measurement indices a port may read (R397). -/
def measureIndices : SpdmPort → List Nat
  | .doeVf n => (List.range 9).map (· + 1) ++ [16 + n.toNat]
  | _ => (List.range 9).map (· + 1) ++ (List.range 32).map (· + 16)

/-- The Registrar's answer to an SPDM request (R396, R397): its kind and the measurements it carries; index 255 asks for every one. -/
def Dev.spdmAnswer (d : Dev) (port : SpdmPort) (req : SpdmReq) : Dev :=
  let ans (k : Nat) (l : List (Nat × BitVec 256)) : Dev := d.onFw (fun f => { f with spdmOut := some (port, k, l) })
  let d := match port with | .mctp => d.onHost (fun h => { h with ibi := h.ibi + 1 }) | _ => d
  match req with
  | .getCertificate slot => ans (1 + slot.toNat) []
  | .challenge => ans 3 []
  | .getMeasurements i =>
    let all := measureIndices port
    ans 4 ((if i == 255 then all else all.filter (· == i.toNat)).map (fun k => (k, d.measure k)))
  | .keyExchange => ans 5 []
  | .finish _ ok => if ok then ans 6 [] else d
  | .endSession => ans 7 []

/-- SPDM_MESSAGE (R393, R396): the Registrar answers; a message waits while it restarts. -/
def execSpdmMessage (port : SpdmPort) (req : SpdmReq) (s : State) : Out :=
  runDev s (fun _ _ d => if d.fw.step < 4 || (d.proc 1).st != 0 then d else d.spdmAnswer port req)

/-- The values of a Vitrine's RW entries (R401). -/
def Dev.vitRw (d : Dev) (v : VitId) : List Nat :=
  (d.cat.acc.filter (fun e => ofVit v e.1)).flatMap (fun e => [e.1, e.2]) ++
  (d.ringsOf v).flatMap (fun r => [r, (d.ring v r).cfg.toNat])

/-- TSP_LOCK (R401): the lock records the digest of the Vitrine's RW entries. -/
def execTspLock (v : VitId) (s : State) : Out :=
  runDev s (fun _ _ d =>
    let t := d.vit v
    if !t.held || t.tspLocked || (d.proc 1).st != 0 then d
    else (d.setVit v (fun t => { t with tspLocked := true, tspDigest := Config.digest (d.vitRw v) })).postVit 0x0306 v v.toNat 1)

end Sys2Proof.Machine
end

