-- ==== Sys2Proof/Machine/Debug.lean ====
section
/-! DEFINITION. Stopping, watching and tracing (R407-R425): the global stop and resume, scan-outs, the Vitrine halt, watchpoints, trace
controls and markers. -/

namespace Sys2Proof.Machine

def Dev.onDbg (d : Dev) (f : Dbg → Dbg) : Dev := { d with dbg := f d.dbg }

/-! ### Global stop (R408-R411) -/

/-- Every die stands still: STOP_STATE becomes STOPPED. -/
def Dev.stopCheck (d : Dev) : Dev :=
  if d.dbg.st == 1 && (List.range 8).all (fun i => !d.runs i) then (d.onDbg (fun b => { b with st := 2 })).post 0x0400 0 0 d.dbg.seq d.dbg.cause else d

/-- A stop begins (R408): cause 1 command, 2 stop land. -/
def Dev.beginStop (d : Dev) (cause : Nat) : Dev :=
  (d.onDbg (fun b => { b with st := 1, seq := (b.seq + 1) % 2 ^ 32, cause, halted := 0, captured := 0, cycle := [] })).stopCheck

/-- STOP_LAND (R408, R439). -/
def execStopLand (s : State) : Out :=
  runDev s (fun _ _ d => if d.cat.published && d.force 0x8100 5 0 == 1 && d.dbg.st == 0 then d.beginStop 2 else d)

/-- STOP_ARRIVAL (R409): every domain of the die halts on one boundary. -/
def execStopArrival (d : DieId) (s : State) : Out :=
  runDev s (fun _ _ m =>
    let i := d.toNat
    if m.dbg.st != 1 then m
    else if !m.runs i then m.stopCheck
    else
      ((m.setDie i (fun k => { k with running := false })).onDbg (fun b =>
        { b with halted := putBit b.halted i true, captured := putBit b.captured i true, cycle := kset b.cycle i (m.cyc i) })).stopCheck)

/-- STOP_MARK (R410): the sender of a direction has halted, and its mark closes the receiver's capture. -/
def execStopMark (dir : DirId) (s : State) : Out :=
  runDev s (fun _ _ d =>
    let (a, b, _) := dirEnds dir.val
    if b != 8 && d.dbg.halted.getLsbD b && (a == 8 || d.dbg.halted.getLsbD a) then d.setBund dir.val (fun q => { q with marked := true }) else d)

/-! ### Resume (R412, R434) -/

/-- The device runs again once every halted die has restarted: the requests that the CXL port held are performed. -/
def X.resumeCheck (x : X) : X :=
  if x.dev.dbg.st == 3 && x.dev.dbg.halted == 0 then (x.on (fun d => (d.onDbg (fun b => { b with st := 0 })).post 0x0401 0 0 d.dbg.seq)).flushHost else x

/-- A write of 2 to STOP_COMMAND (R411, R412): RESUME goes out, and what the fences of the stop left open proceeds. -/
def X.beginResume (x : X) : X :=
  let open' := x.dev.dbg.fences
  let x := x.on (fun d => d.onDbg (fun b => { b with st := 3, fences := [] }))
  (open'.foldl (fun (y : X) (e : Nat × Nat × Nat) => y.fenceRest e.1 e.2.1 e.2.2) x).resumeCheck

/-- A write of STOP_COMMAND (R408, R412). -/
def X.doStop (x : X) (val : Nat) : X × Nat :=
  let b := x.dev.dbg
  match val with
  | 1 => if b.st == 0 then (x.on (fun d => d.beginStop 1), stOk) else if b.st == 3 then (x, stBusy) else (x, stOk)
  | 2 => if b.st == 2 then (if b.scan.isSome then (x, stBusy) else (x.beginResume, stOk)) else if b.st == 1 then (x, stBusy) else (x, stOk)
  | _ => (x, stRange)

/-- RESUME_ARRIVAL (R412): the die restarts, and its receivers deliver their captured frames before any new one. -/
def execResumeArrival (d : DieId) (s : State) : Out :=
  run s (fun x =>
    let i := d.toNat
    if x.dev.dbg.st != 3 || !x.dev.dbg.halted.getLsbD i then x
    else
      let ok := !x.dev.isFenced i && (x.dev.dpow i).trip.isNone && !x.dev.rel.clockLost.getLsbD i
      X.resumeCheck (x.on (fun m =>
        let m := (m.setDie i (fun k => { k with running := ok })).onDbg (fun b => { b with halted := putBit b.halted i false })
        ((List.range 144).filter (fun r => (dirEnds r).2.1 == i)).foldl (fun (e : Dev) r =>
          let held := (e.bund r).captured
          held.foldl (fun (f : Dev) g => f.frameIn r g) (e.setBund r (fun q => { q with captured := [], marked := false }))) m)))

/-! ### Scan-out (R413-R416) -/

/-- A section of a scan-out file: its directory row's fields and, for a unit of a Vitrine, whether it is redacted. -/
structure SSec where
  type : Nat
  die : Nat
  vit : Nat
  unit : Nat
  len : Nat
  redacted : Bool := false

/-- The sections of one type and die (R415): bit k of the mask asks for TYPE k (log 48). `vs` are the Vitrines covered. -/
def Dev.unitsOf (d : Dev) (device : Bool) (vs : List VitId) (type die : Nat) : List SSec :=
  let per (n lo len : Nat) : List SSec := (List.range (n * 4)).filterMap (fun k =>
    let v : VitId := BitVec.ofNat 5 (die * 4 + k / n)
    if vs.contains v then
      some { type, die, vit := v.toNat, unit := lo + k, len,
             redacted := device && (d.vit v).busy && d.vacc v 0xD 2 == 0 }
    else none)
  let one (unit len : Nat) : List SSec := if device then [{ type, die, vit := 0xFF, unit, len }] else []
  match type with
  | 1 => per 16 (die * 64) (1552 * 1024)
  | 2 => per 2 (die * 8) (2 ^ 24 + Config.sectionLen 0x415 2)
  | 3 => per 24 (die * 96) (Config.sectionLen 0x415 3)
  | 4 => per 24 (die * 96) (Config.sectionLen 0x415 4)
  | 5 => one die (Config.sectionLen 0x415 5)
  | 6 => if device then ((List.range 144).filter (fun r => (dirEnds r).2.1 == die)).flatMap (fun r =>
      one r (Config.sectionLen 0x416 ((d.bund r).captured.length))) else []
  | 7 => one die (Config.sectionLen 0x415 7)
  | 8 => (per 1 (die * 4) 0).map (fun u => { u with len := 16 * (d.vit (BitVec.ofNat 5 u.vit)).trace.buf.length + 5 })
  | _ => []

/-- The sections of a scan-out, by type, then die, then unit. -/
def Dev.scanSecs (d : Dev) (r : ScanRec) : List SSec :=
  let vs := match r.leader with | some l => d.tenancy l | none => vitsOf (BitVec.allOnes 32)
  let dies := (List.range 8).filter (fun i => match r.leader with
    | some _ => vs.any (fun v => dieOfVit v == i)
    | none => r.dies.getLsbD i && d.dbg.captured.getLsbD i)
  ((List.range 9).filter (fun t => r.sections.getLsbD t)).flatMap (fun t => dies.flatMap (d.unitsOf r.leader.isNone vs t))

/-- Where the sections begin: after the header and the directory (R414). -/
def scanOffset (ss : List SSec) (i : Nat) : Nat := 128 + 32 * ss.length + ((ss.take i).map (·.len)).foldl (· + ·) 0
def scanSize (ss : List SSec) : Nat := scanOffset ss ss.length

/-- A directory row (R414). -/
def scanRow (ss : List SSec) (e : SSec × Nat) : List Byte :=
  leBytes e.1.type 2 ++ leBytes e.1.die 1 ++ leBytes e.1.vit 1 ++ leBytes e.1.unit 4 ++ leBytes (scanOffset ss e.2) 8 ++ leBytes e.1.len 8 ++
  leBytes (if e.1.redacted then 1 else 0) 4 ++ leBytes 0 4

/-- The header (R414). -/
def Dev.scanHead (d : Dev) (r : ScanRec) (n count : Nat) : Nat :=
  let dev := r.leader.isNone
  let cycles := if dev then (List.range 8).foldl (fun a i => a + kget 0 d.dbg.cycle i % 2 ^ 48 * 2 ^ (48 * i)) 0 else 0
  let cause := match r.leader with | some l => 0x10 + l.toNat | none => d.dbg.cause
  let dies := match r.leader with
    | some l => (d.tenancy l).foldl (fun (m : BitVec 8) v => putBit m (dieOfVit v) true) 0
    | none => r.dies &&& d.dbg.captured
  (Config.digest [n, 0x414]).toNat * 2 ^ 768 + cycles * 2 ^ 384 + Config.packageSerial.toNat * 2 ^ 288 + d.fw.version % 2 ^ 32 * 2 ^ 256 +
  (if dev then d.dbg.seq else 0) * 2 ^ 224 + count % 2 ^ 16 * 2 ^ 208 + dies.toNat * 2 ^ 200 + cause * 2 ^ 192 + 2 ^ 112 + 0x31304E4143535A48

/-- A group record of a CORE section (R416). Its STATE byte, whose coding the spec does not give, is left as the section's free byte. -/
def groupRecord (slot : Nat) (q : Group) : List (Nat × List Byte) :=
  let p := q.paths.headD { pc := 0, mask := 0 }
  [(0, leBytes p.pc.toNat 8 ++ leBytes p.mask.toNat 4 ++ leBytes q.exited.toNat 4),
   (17, leBytes slot 1 ++ leBytes q.stack.length 1 ++ leBytes q.flags.toNat 1 ++ leBytes q.stamp 8 ++
        ((List.range 32).flatMap (fun i => match q.stack[i]? with
          | some e => leBytes e.joinAt.toNat 8 ++ leBytes e.mask.toNat 4
          | none => leBytes 0 12)) ++ List.replicate 100 0)]

/-- FP32 values by row x 64 + column as bytes. -/
def tileBytes (m : KMap Word) : List Byte := (List.range 4096).flatMap (fun i => leBytes (kget 0 m i).toNat 4)
/-- An accumulation bank of a CORE section; a closed one reads 0 (R416). -/
def bankBytes (b : Bank) : List Byte := if b.isOpen then tileBytes b.vals else List.replicate 16384 0
/-- The promotion buffers, of the started MX.MMAs in order and then of the last one ended, the shadow registers sign-extended, and the residue lanes of a
CORE section (R85, R416; log 74). -/
def engineBytes (e : Engine) : List Byte :=
  let pb := (e.runs.map (·.promo) ++ [e.promo]).take 2
  let sh := (e.runs.getLast?.map (·.shadow)).getD e.shadow
  let ln := (e.runs.getLast?.map (·.lane)).getD e.lane
  (List.range 2).flatMap (fun i => tileBytes (nthD [] pb i)) ++
  (List.range 4096).flatMap (fun i => leBytes (BitVec.ofInt 32 (nthD 0 sh i)).toNat 4) ++
  (List.range 64).flatMap (fun i => leBytes (nthD 0 ln i % 256) 1)

/-- Write one section's content. Bytes whose layout the spec does not give are free values; a redacted section is zeros. -/
def X.writeSection (x : X) (n : Nat) (addr : Nat) (off : Nat) (u : SSec) : X :=
  let a := addr + off
  if u.redacted then x.op (.zero .host a u.len)
  else
    let x := x.putBytes .host a ((List.range u.len).map (fun k => Config.fileByte n (off + k)))
    match u.type with
    | 1 =>
      let x := x.copyCells .scr (u.unit * 2 ^ 19) .host (a + 0x40000) (2 ^ 19)
      let blocks := (x.dev.core (BitVec.ofNat 9 u.unit)).slots
      let x := blocks.foldl (fun (y : X) (b : Nat × Block) => b.2.groups.foldl (fun (z : X) q =>
        (groupRecord b.1 q).foldl (fun (w : X) (e : Nat × List Byte) => w.putBytes .host (a + 0xE2000 + 512 * q.gslot.toNat + e.1) e.2) z) y) x
      let x := (List.range 32).foldl (fun (y : X) k =>
        y.putBytes .host (a + 0xEB000 + 16384 * k) (bankBytes (((kfind blocks (k / 2)).map (fun b => b.bank (k % 2 == 1))).getD {}))) x
      x.putBytes .host (a + 0x16B000) (engineBytes (x.dev.eng (BitVec.ofNat 9 u.unit)))
    | 2 => x.copyCells .clus (u.unit * 2 ^ 24) .host a (2 ^ 24)
    | 8 =>
      let t := (x.dev.vit (BitVec.ofNat 5 u.vit)).trace
      x.putBytes .host a (t.buf.flatMap (fun e => leBytes e.toNat 16) ++ leBytes t.wr 4 ++ leBytes t.st 1)
    | _ => x

/-- Begin a scan-out (R413). -/
def X.beginScan (x : X) (r : ScanRec) : X × Nat :=
  let size := scanSize (x.dev.scanSecs r)
  if r.buf.len.toNat < size then (x.on (fun d => d.onDbg (fun b => { b with status := 3, bytes := size })), stRange)
  else (x.on (fun d => d.onDbg (fun b => { b with status := 1, bytes := 0, scan := some r })), stProgress)

/-- A write of SCANOUT_COMMAND: it needs STOPPED. -/
def X.doScanout (x : X) (sections : BitVec 16) (dies : Byte) (buf : HostBuf) : X × Nat :=
  if x.dev.dbg.st != 2 || x.dev.dbg.scan.isSome then (x, stBusy) else x.beginScan { leader := none, sections, dies, buf }

/-- A write of SCAN_COMMAND: every Vitrine of the tenancy must be halted. -/
def X.doScan (x : X) (v : VitId) (sections : BitVec 16) (buf : HostBuf) : X × Nat :=
  match (x.dev.vit v).leader with
  | some l =>
    if x.dev.dbg.scan.isSome || !(x.dev.tenancy l).all (fun w => (x.dev.vit w).halt == 2) then (x, stBusy)
    else x.beginScan { leader := some l, sections, dies := 0, buf }
  | none => (x, stBusy)

/-- SCANOUT_DONE (R413): the file stands in the buffer, or the host refused the write. -/
def execScanoutDone (ok : Bool) (s : State) : Out :=
  run s (fun x =>
    match x.dev.dbg.scan with
    | none => x
    | some r =>
      let fin (y : X) (status bytes : Nat) : X :=
        y.on (fun d => (d.onDbg (fun b => { b with scan := none, status, bytes })).post 0x0402 0 0 status bytes)
      if !ok then fin x 4 0
      else
        let (n, d) := x.dev.draw
        let x : X := { x with dev := d }
        let ss := x.dev.scanSecs r
        let a := r.buf.addr.toNat
        let x := x.putBytes .host a (leBytes (x.dev.scanHead r n ss.length) 128 ++ ss.zipIdx.flatMap (scanRow ss))
        let x := ss.zipIdx.foldl (fun (y : X) (e : SSec × Nat) => y.writeSection n a (scanOffset ss e.2) e.1) x
        fin x 2 (scanSize ss))

/-! ### The halt of a tenancy (R417, R418) -/

/-- Shift the first arrivals of the barriers of a Vitrine's blocks (R53, R418). -/
def Dev.shiftVitBars (d : Dev) (v : VitId) (f : Nat → Nat) : Dev :=
  let d := (coresOfVit v).foldl (fun (e : Dev) k => e.setCore (BitVec.ofNat 9 k) (fun c => { c with slots := kmapv (fun b => Block.shiftBars b f) c.slots })) d
  d.setVit v (fun t => { t with disp := { t.disp with swapped := t.disp.swapped.map (fun w => { w with blk := w.blk.shiftBars f }) } })

/-- A write of 0 to VITRINE_HALT: issue resumes, and step time and the barrier watchdogs run on. -/
def Dev.unhalt (d : Dev) (l : VitId) : Dev :=
  let was := (d.vit l).halt
  let d := (d.tenancy l).foldl (fun (e : Dev) v =>
    let now := e.cyc (dieOfVit v)
    let e := if was == 2 then (e.shiftVitBars v (fun t => now - t)).postVit 0x0404 v v.toNat else e
    e.setVit v (fun t => { t with halt := 0, haltCause := 0 })) d
  if was == 2 then d.onSrv (fun q => { q with steps := q.steps.map (fun s =>
    if s.leader == l && s.st != .saved then { s with since := d.cyc (dieOfVit l) } else s) }) else d

/-- A write of VITRINE_HALT. -/
def X.doVitHalt (x : X) (v : VitId) (val : Nat) : X × Nat :=
  match (x.dev.vit v).leader with
  | some l =>
    match val with
    | 1 => (x.on (fun d => d.haltTenancy l 1), stOk)
    | 0 => (if (x.dev.vit v).halt == 0 then x else x.on (fun d => d.unhalt l), stOk)
    | _ => (x, stRange)
  | none => (x, stNotAssigned)

/-- VITRINE_HALTED (R278, R418): every Vitrine of the tenancy stands quiet; step time and the barrier watchdogs stop. -/
def execVitrineHalted (leader : VitId) (s : State) : Out :=
  run s (fun x =>
    let vs := x.dev.tenancy leader
    let quiet (v : VitId) : Bool := x.dev.runs (dieOfVit v) && (coresOfVit v).all (fun k => (x.dev.core (BitVec.ofNat 9 k)).quiesced)
    if vs.isEmpty || !vs.all (fun v => (x.dev.vit v).halt == 1 && quiet v) then x
    else
      let x := vs.foldl (fun (y : X) v => (coresOfVit v).foldl (fun (z : X) k => z.remotePump (BitVec.ofNat 9 k)) y) x
      x.on (fun d =>
        let d := vs.foldl (fun (e : Dev) v =>
          let now := e.cyc (dieOfVit v)
          let e := (e.shiftVitBars v (fun t => now - t)).setVit v (fun t => { t with halt := 2 })
          (e.count 0x8110 6 v.toNat).postVit 0x0403 v v.toNat (e.vit v).haltCause) d
        let now := d.cyc (dieOfVit leader)
        d.onSrv (fun q => { q with steps := q.steps.map (fun s =>
          if s.leader == leader && s.st != .saved then { s with used := s.used + (now - s.since), since := now } else s) })))

/-! ### Watchpoints and trace (R419, R420) -/

/-- DEBUG_MODE in force of a Vitrine's tenancy (R417). -/
def Dev.debugMode (d : Dev) (v : VitId) : Bool :=
  match (d.vit v).leader with
  | some l => d.vset l 0xD 1 == 1
  | none => false

/-- A row of WATCHPOINTS is written. -/
def X.doWatch (x : X) (v : VitId) (row val : Nat) : X × Nat :=
  let val := val % 2 ^ 128 / 2 ^ 29 * 2 ^ 29
  let base := fld val 84 44
  let limit := fld val 40 44
  match (x.dev.vit v).leader with
  | some l =>
    if limit < base || !x.dev.valid l base (limit - base + 1) || (fld val 30 2 == 3 && !x.dev.debugMode v) then (x, stRange)
    else (x.on (fun d => d.setAcc (0x3000 + v.toNat * 16 + 0xD) 4 row val), stOk)
  | none => (x, stNotAssigned)

/-- TRACE_CONTROL is written: ENABLE from 0 to 1 clears the buffer and starts recording. -/
def X.doTraceControl (x : X) (v : VitId) (val : Nat) : X × Nat :=
  let val := fld val 8 40 * 256 + val % 4
  if fld val 32 2 == 3 then (x, stRange)
  else
    let old := x.dev.traceCtl v % 2
    (x.on (fun d => (d.setAcc (0x3000 + v.toNat * 16 + 0xD) 5 0 val).setVit v (fun t =>
      if val % 2 == 1 && old == 0 then { t with trace := { st := 1 } }
      else if val % 2 == 0 then { t with trace := { t.trace with st := 0 } } else t)), stOk)

/-- TRACE_TRIGGERED (R420): POST_TRIGGER entries have been accepted; the buffer freezes with the trigger's action. -/
def execTraceTriggered (v : VitId) (s : State) : Out :=
  runDev s (fun _ _ d =>
    let t := (d.vit v).trace
    if t.st != 2 || t.post != 0 then d
    else
      let d := d.setVit v (fun u => { u with trace := { u.trace with st := 3 } })
      match fld (d.traceCtl v) 32 2 with
      | 1 => d.postVit 0x0405 v v.toNat t.wr
      | 2 => (match (d.vit v).leader with
        | some l => if d.debugMode v then d.haltTenancy l 4 else d
        | none => d)
      | _ => d)

/-! ### Markers (R423) -/

/-- The Atrium sends MARK with the next marker number to every die in service. -/
def Dev.sendMark (d : Dev) : Dev :=
  let n := d.dbg.marker
  d.onDbg (fun b =>
    let log := b.log ++ [(n, [])]
    { b with marker := (n + 1) % 2 ^ 32, markedAt := d.ref, log := log.drop (log.length - 64),
             toMark := ((List.range 8).filter (fun i => !d.isFenced i && !d.rel.diesOut.getLsbD i)).foldl (fun m i => kupd [] m i (fun l => l ++ [n])) b.toMark })

/-- A write of MARKER_COMMAND. -/
def X.doMarker (x : X) (val : Nat) : X × Nat :=
  if 1 < val then (x, stRange) else if val == 0 then (x, stOk) else (x.on Dev.sendMark, stOk)

/-- MARKER_INTERVAL_TICK (R423). -/
def execMarkerIntervalTick (s : State) : Out :=
  runDev s (fun _ _ d =>
    let iv := d.acc 0x8102 2 0
    if iv == 0 || !d.cat.published then d else (d.reachRef (d.dbg.markedAt + iv)).sendMark)

/-- MARK (R423): the die writes a MARKER entry into every enabled trace buffer, and MARKER_LOG its core cycle. -/
def execMark (d : DieId) (s : State) : Out :=
  runDev s (fun _ _ m =>
    let i := d.toNat
    match kget [] m.dbg.toMark i with
    | [] => m
    | n :: rest =>
      if !m.runs i then m
      else
        let m := m.onDbg (fun b => { b with toMark := kset b.toMark i rest,
                                            log := b.log.map (fun e => if e.1 == n then (e.1, kset e.2 i (m.cyc i)) else e) })
        (vitsOfDie i).foldl (fun (e : Dev) v => e.trace v 8 0x3FF n) m)

end Sys2Proof.Machine
end

