-- ==== Sys2Proof/Machine/HostPort.lean ====
section
/-! DEFINITION. The host port and the lands: resets from outside (R445-R447), function-level resets and HDM decoders (R432), and what the device
tells a host of itself: its identity registers (R429), CDAT (R435) and I3C address (R450). -/

namespace Sys2Proof.Machine

/-- The identity registers of a function (R429). -/
structure Ident where
  vendor : BitVec 16
  device : BitVec 16
  revision : BitVec 8
  classCode : BitVec 24
  subVendor : BitVec 16
  subsystem : BitVec 16
  serial : Option (BitVec 64)
  haldixDvsec : Bool
  deriving DecidableEq, Repr

/-- Revision ID: the stepping's letter less "A" times 16, and its digit; ATRIUM_STEPPING holds the letter's character and the digit (R392: 0x4101 is A1). -/
def revisionOf (stepping : BitVec 16) : BitVec 8 := BitVec.ofNat 8 ((stepping.toNat / 256 - 0x41) * 16 + (stepping.toNat % 256))

/-- The identity of the physical function, or of a virtual one (R429). -/
def ident (vf : Bool) : Ident :=
  { vendor := 0x1FB7, device := if vf then 0x1441 else 0x1440, revision := revisionOf Config.atriumStepping, classCode := 0x120000, subVendor := 0x1FB7,
    subsystem := 0x0001, serial := if vf then none else some (Config.packageSerial.setWidth 64), haldixDvsec := !vf }

/-- A window's CDAT entries (R435): DSMAS with its DPA base and length, and DSLBIS with the read and write latency in ns and the bandwidth in GB/s. -/
structure CdatEntry where
  base : Nat
  length : Nat
  latency : Nat
  bandwidth : Nat
  deriving DecidableEq, Repr
/-- CDAT: one DSMAS for each Vitrine window (R435). -/
def cdat : List CdatEntry := (List.range 32).map (fun n => { base := n * 2 ^ 36, length := windowBytes, latency := 210, bandwidth := 115 })

/-- The I3C target's static address, for SETDASA (R450). -/
def i3cStatic : BitVec 7 := 0x3A
/-- Whether the I3C target answers a transfer that a controller addresses to it: never a legacy I2C one (R450). -/
def i3cAnswers (addr : BitVec 7) (legacy : Bool) : Bool := addr == i3cStatic && !legacy

/-- PERST_N_ASSERT (R445): a conventional reset, which CXL hot reset and link down cause too (log 15). After a power-fail reset the input is
still awaited. -/
def execPerstNAssert (s : State) : Out :=
  run s (fun x => x.reset (min x.dev.fw.step 1) (fun h => { h with perst := true }))

/-- PERST_N_RISE (R300, R445, R447): start-up step 2, with the straps as read. -/
def execPerstNRise (straps : Byte) (s : State) : Out :=
  runDev s (fun _ _ d =>
    if d.host.perst && d.host.pwrOk then
      (d.onHost (fun h => { h with perst := false, straps := straps })).onFw (fun f => { f with step := if f.step == 0 then 0 else 2 })
    else d)

/-- PWR_OK_RISE (R445): a power-on reset. -/
def execPwrOkRise (s : State) : Out :=
  run s (fun x => if x.dev.host.pwrOk then x else x.reset 1 (fun h => { h with pwrOk := true }))

/-- PF_FLR (R445): every tenancy is deaccessioned in SQUASH mode and the virtual functions are disabled. -/
def execPfFlr (s : State) : Out :=
  run s (fun x =>
    if !x.dev.cat.published then x
    else
      let ls := (vitsOf (BitVec.allOnes 32)).filter (fun v => x.dev.leads v)
      let x := ls.foldl (fun (y : X) l => (y.doDeaccession (BitVec.ofNat 8 l.toNat) true).1) x
      x.on (fun d => d.onHost (fun h => { h with vfEnabled := false })))

/-- VF_FLR (R289, R445): every ring of the Vitrine is disabled in SQUASH mode; the function's MSI-X and command registers reset. -/
def execVfFlr (v : VitId) (s : State) : Out :=
  run s (fun x =>
    if !x.dev.cat.published then x
    else
      let x := (x.dev.ringsOf v).foldl (fun (y : X) r => y.endRing v r true) x
      x.on (fun d => d.onHost (fun h => { h with vfOff := putBit h.vfOff v.toNat true })))

/-- HDM_DECODER_COMMIT (R432): one way, a multiple of 256 MiB, within offsets 0 to 0xB_3FFF_FFFF of one window; else Commit Error. -/
def execHdmDecoderCommit (k : BitVec 5) (base size : BitVec 64) (ways : Byte) (s : State) : Out :=
  runDev s (fun _ _ d =>
    let b := base.toNat
    let n := size.toNat
    let ok := ways == 1 && n % 2 ^ 28 == 0 && 0 < n && b < 2 ^ 41 && b % 2 ^ 36 + n ≤ windowBytes
    d.onHost (fun h => { h with hdm := kset h.hdm k.toNat { base := b, size := n, committed := ok, error := !ok } }))

end Sys2Proof.Machine
end

