-- ==== Sys2Proof/Machine/Catalogue.lean ====
section
/-! DEFINITION. What the Catalogue's entries read as (R299): the row counts and values of the entries that show the machine's state (R31, R90,
R96, R130, R163, R193, R235, R257, R295, R320, R322, R347, R348, R375, R405, R425), and the bytes of a value on the wire. -/

namespace Sys2Proof.Machine

/-! ### Rows -/

/-- The fields of a RECORD row in the listed order, little-endian without padding: values and bytes (R299). -/
def packRow : List (Nat × Nat) → Nat
  | [] => 0
  | (v, n) :: l => v % 256 ^ n + 256 ^ n * packRow l

/-- A record whose fields stand at bit positions: value, position and width. -/
def packBits (l : List (Nat × Nat × Nat)) : Nat := l.foldl (fun n e => n + e.1 % 2 ^ e.2.2 * 2 ^ e.2.1) 0

/-- An I8 (R299). -/
def asI8 (t : Int) : Nat := (t % 256).toNat

/-- A power in mW as an F32 in watts, rounded to nearest even (R299). -/
def asWatts (mw : Nat) : Nat :=
  let n := mw * 2 ^ 40
  (fp32.round .rne false (n / 1000 * 2 + (if n % 1000 == 0 then 0 else 1)) (-41)).1

/-- The value of an optional index: 0xFF for none. -/
def orFF (o : Option Nat) : Nat := o.getD 0xFF

/-- An error record (R354). -/
def errRow (r : ErrRec) : Nat :=
  packBits [(r.seq, 480, 32), (r.detail, 448, 32), (r.addr, 404, 44), (r.akind, 400, 4), (r.cycle, 352, 48), (r.stepSeq, 320, 32), (r.layer, 304, 16),
    (r.unit, 288, 16), (r.ukind, 280, 8), (r.cls, 272, 8), (r.outcome, 264, 8), (r.action, 256, 8),
    ((match r.vit with | some v => v.toNat | none => 0), 251, 5), ((if r.vit.isSome then 1 else 0), 250, 1), (r.die, 247, 3),
    ((if r.atrium then 1 else 0), 246, 1), (r.syndrome, 182, 64)]

/-- The header of a Condition Report (R372). -/
def reportHead (r : Report) : Nat :=
  packBits [(r.duration, 640, 64), (r.nonce.toNat, 384, 256), (r.target, 368, 16), (r.kind, 360, 8), (r.entries.length, 320, 32), (r.result, 304, 8),
    (r.recSeq, 256, 32), (r.fw, 224, 32), (Config.packageSerial.toNat, 128, 96), (r.seq, 96, 32), (1, 64, 16), (0x3154504552435A48, 0, 64)]

/-- An entry of a Condition Report (R373). -/
def reportEntry (e : BistEntry) : Nat :=
  packBits [(e.misr.toNat, 192, 64), (e.expected.toNat, 128, 64), (e.failCount.toNat, 96, 32), (e.firstFail.toNat, 56, 40), (e.unitIndex.toNat, 40, 16),
    (e.unitKind.toNat, 32, 8), (e.test.toNat, 24, 8), ((if e.notRun then 2 else if bistPass e then 0 else 1), 16, 8), (e.block.toNat, 0, 16)]

/-- The indices of MEASUREMENTS' rows (R397, R405). -/
def measureRows : List Nat := (List.range 9).map (· + 1) ++ (List.range 32).map (· + 16)

/-- A laser group's row (R31). -/
def laserRow (l : Laser) : Nat := packRow [(orFF l.spareFor, 1), (l.failed.toNat, 2)]

/-- The state code of a ring (R263). -/
def ringCode : RingSt → Nat
  | .disabled => 0
  | .enabled => 1
  | .disabling => 2

/-- VITRINE_STATE (R261). -/
def vitCode : VitSt → Nat
  | .unassigned => 0
  | .clearing => 1
  | .assigned => 2
  | .frozen => 3
  | .deaccessioning => 4
  | .withdrawn => 5
  | .outOfService => 6

/-- MEDIA_STATE of an engine (R322): disabled once no request is held (R289). -/
def Dev.mediaState (d : Dev) (e : Nat) : Nat :=
  let a := (d.media e).admin
  if a == 0 then 0 else if (d.mediaHeld e).isEmpty then 3 else a

/-! ### Values by chapter -/

/-- Identity and service entries, 0x1000 to 0x1010 (R31, R320). -/
def Dev.idValue (d : Dev) (index sub row : Nat) : Option Nat :=
  if index == 0x1000 then
    match sub with
    | 5 => some Config.packageSerial.toNat
    | 6 => some Config.plinthStepping.toNat
    | 7 => some d.diesIn
    | 8 => some d.vitsIn
    | 9 => some d.fw.recSeq
    | _ => none
  else if 0x1001 ≤ index && index ≤ 0x1008 then
    let i := index - 0x1001
    match sub with
    | 1 => some (Config.dieSerial i).toNat
    | 2 => some (Config.dieStepping i).toNat
    | 3 =>
      let p : Slots := kget {} d.rel.slots (4 * i + row)
      some (packRow ((p.retired.toNat, 4) :: p.slotOf.map (fun k => (k, 1))))
    | 4 => some (laserRow (kget {} d.rel.lasers (14 * i + row)))
    | 5 => some ((List.range 96).countP (fun k => (d.slice (96 * i + k)).spare.isSome))
    | 6 => some (d.degraded i)
    | _ => none
  else if index == 0x1009 then
    match sub with
    | 1 => some Config.atriumSerial.toNat
    | 2 => some Config.atriumStepping.toNat
    | 4 => some (laserRow (kget {} d.rel.lasers (112 + row)))
    | _ => none
  else if index == 0x100A then
    match sub with
    | 1 => some Config.fieldMac.toNat
    | 4 => some d.cat.nodeInUse
    | _ => none
  else if index == 0x1010 then
    match sub with
    | 1 => some (if d.cat.ready then 1 else 0)
    | 2 => some d.cat.gen
    | 3 => some d.cat.evNext
    | 4 => some (d.cat.reqs.countP (fun r => CatPort.isSession r.port && r.auth))
    | 5 => some d.cat.authFail
    | 6 => some (if d.cat.pendingRwp.isEmpty then 0 else 1)
    | _ => none
  else none

/-- Power entries, 0x2000 to 0x2010 (R347). -/
def Dev.powValue (d : Dev) (index sub row : Nat) : Option Nat :=
  if index == 0x2000 then
    match sub with
    | 3 => some d.pow.profile
    | 4 => some (asWatts d.pow.deviceMw)
    | 5 => some d.emergency
    | 7 => some (if d.fw.act == 3 then 1 else 0)
    | _ => none
  else if 0x2001 ≤ index && index ≤ 0x2008 then
    let p := d.dpow (index - 0x2001)
    match sub with
    | 1 => some (asWatts (p.arrayMw + nthD 0 d.pow.ext (index - 0x2001)))
    | 2 => some p.p
    | 3 => some (asI8 p.temp)
    | 4 => some ((if p.hard then 1 else 0) + (if p.trip.isSome then 2 else 0) + (if p.worn then 4 else 0))
    | 5 => some p.trim
    | 6 => some (let h := nthD (0, 0) p.hist row; packRow [(h.1, 4), (h.2, 1)])
    | _ => none
  else if index == 0x2010 then
    let w := nthD 0 [2800, 2200, 1600] row
    some (packRow [(w, 2), (asWatts (dieCapMw w), 4), (asWatts (vitArrayMw w), 4), (d.locked w, 1)])
  else none

/-- Entries of a Vitrine's block that show its state (R295, R130, R193, R257, R348, R405, R425). -/
def Dev.vitValue (d : Dev) (v : VitId) (k sub row : Nat) : Option Nat :=
  let t := d.vit v
  match k, sub with
  | 0, 1 => some (vitCode t.st)
  | 0, 2 => some (match t.leader with | some l => l.toNat | none => 0xFF)
  | 0, 5 => some t.ckptLocal.toNat
  | 1, 1 => some (d.ring v row).cfg.toNat
  | 2, 1 =>
    let q := d.ring v row
    some (packRow [(q.sqHead.toNat, 4), (q.sqTail.toNat, 4), (q.cqHead.toNat, 4), (q.cqTail.toNat, 4), (q.nextSeq.toNat, 4), (ringCode q.st, 1)])
  | 5, 4 => some t.pv.length
  | 7, 2 => some (d.cacheBytes v)
  | 7, 3 => some t.pinned
  | 9, 5 => some t.ckptCommitted.toNat
  | 0xB, 2 => some t.duty0
  | 0xB, 3 => some (d.dutyLimit v)
  | 0xB, 4 => some (6600 / max 1 (d.die (dieOfVit v)).div * d.duty v / 64)
  | 0xB, 5 => some (asWatts t.arrayMw)
  | 0xC, 1 => some (if t.tspLocked then 1 else 0)
  | 0xC, 3 => some t.tspDigest.toNat
  | 0xD, 3 => some t.halt
  | 0xD, 7 => some (packRow [(t.trace.wr, 4), (t.trace.st, 1)])
  | 0xD, 8 => some (match t.trace.buf[row]? with | some e => e.toNat | none => 0)
  | _, _ => none

/-- Memory, fabric and network entries, 0x3200 to 0x5200 (R295, R163, R257, R235). -/
def Dev.netValue (d : Dev) (index sub row : Nat) : Option Nat :=
  if index == 0x3200 && sub == 4 then
    let c : CmdStatus := kget {} d.srv.cmd row
    some (packRow [(c.command, 1), (c.status, 1), (c.needed, 8)])
  else if index == 0x4000 then
    match sub with
    | 1 => some ((bits (BitVec.ofNat 32 d.vitsIn)).length * windowBytes)
    | 5 => some (nthD 0 d.hbm.retired row)
    | _ => none
  else if 0x4001 ≤ index && index ≤ 0x4008 then
    let i := index - 0x4001
    let k := 3 * i + row
    match sub with
    | 1 => some (asI8 (kget ({} : HStack) d.hbm.stk k).temp)
    | 2 => some (kget ({} : HStack) d.hbm.stk k).band
    | 3 => some (kget 0 d.hbm.tally k)
    | 4 => some (kget 0 d.hbm.tally (100 + k))
    | 5 => some (kget 0 d.hbm.tally (200 + k))
    | _ => some ((List.range 96).foldl (fun n c => if kget false d.hbm.failed (96 * i + c) then n + 2 ^ c else n) 0)
  else if index == 0x5003 then
    let k := d.link row
    some (packRow [((match k.st with | .down => 0 | .training => 1 | .mgmt => 2 | .quarantine => 3 | .active => 4), 1), (k.peer.toNat, 2), (k.peerLink, 1),
      (k.reason, 1)])
  else if index == 0x5004 then
    some (match d.fab.aliases[row]? with | some (g, o, n) => packRow [(g.toNat, 4), (o.toNat, 2), (n.toNat, 2)] | none => 0)
  else if index == 0x5100 && sub == 1 then
    some (packRow [((d.bund row).st, 1), ((d.bund row).failed.toNat, 9)])
  else if index == 0x5101 then
    some (packRow [(orFF (d.seam row).spareFor, 1), ((d.seam row).failed.toNat, 4)])
  else if index == 0x5200 && sub == 3 then some d.fab.pendant
  else none

/-- The bytes of PENDING_CONDITION_RECORD: the latest sealed record, or the one supplied at start (R375). -/
def X.recordLen (x : X) : Nat := if x.dev.rel.sealedSeq == 0 then x.dev.fw.recordLen else Config.recordLen x.dev.rel.sealedSeq
def X.recordBytes (x : X) (row : Nat) : List Byte :=
  (List.range 32).map (fun i =>
    let k := 32 * row + i
    if x.recordLen ≤ k then 0
    else if x.dev.rel.sealedSeq == 0 then x.mem.byte .stage (stageRecord + k) else Config.recordByte x.dev.rel.sealedSeq k)

/-- Reliability entries, 0x6010 to 0x6041 (R375). -/
def X.relValue (x : X) (index sub row : Nat) : Option Nat :=
  let r := x.dev.rel
  if index == 0x6010 then
    match sub with
    | 1 => some (match r.log[row]? with | some e => errRow e | none => 0)
    | 2 => some r.next
    | _ => some r.lost
  else if index == 0x6020 then
    let j := x.dev.job (BitVec.ofNat 5 row)
    some (packRow [(j.st, 1), (j.rec', 4), (j.cls, 1)])
  else if index == 0x6030 then
    match sub with
    | 1 => some (leNat (x.recordBytes row))
    | 3 => some r.changes
    | _ => none
  else if index == 0x6040 && sub == 2 then
    let b : Bist := kget {} r.bist row
    some (if b.running then packRow [(1, 1), (b.kind, 1), (b.target, 2)] else 0)
  else if index == 0x6041 then
    match sub with
    | 1 =>
      let p := r.report
      let e := p.entries.length
      some (if row < 4 then fld (reportHead p) (256 * row) 256
        else match p.entries[row - 4]? with
        | some t => reportEntry t
        | none => fld p.signature (256 * (row - 4 - e)) 256)
    | _ => some r.report.seq
  else none

/-- Security entries, 0x7000 to 0x7006 (R405). -/
def X.secValue (x : X) (index sub row : Nat) : Option Nat :=
  let f := x.dev.fw
  match index, sub with
  | 0x7000, 1 => some f.version
  | 0x7000, 2 => some f.svn
  | 0x7000, 3 => some x.mram.svnFloor
  | 0x7000, 5 => some f.driverIf
  | 0x7000, 6 => some f.registrarVersion
  | 0x7000, 7 => some (if f.approved then 1 else 0)
  | 0x7000, 8 => some Config.certificate.toNat
  | 0x7001, 1 => some (let k := nthD 0 measureRows row; packRow [(k, 1), ((x.dev.measure k).toNat, 32)])
  | 0x7002, 1 => some (Config.chainByte false row).toNat
  | 0x7002, 2 => some (Config.chainByte true row).toNat
  | 0x7003, 1 => some x.mram.recordSeqFloor
  | 0x7003, 2 => some x.mram.keysRevoked.toNat
  | 0x7004, 1 => some (packRow [((x.dev.link row).genTx, 4), (x.dev.counter 0x7004 2 row, 4)])
  | 0x7005, 2 => some Config.crateEk.toNat
  | 0x7006, 1 => some (packRow [((x.dev.proc row).st, 1), ((x.dev.proc row).restarts, 4)])
  | 0x7006, 2 => some f.act
  | _, _ => none

/-- Debug entries, codebook exponents, the ramp table and the media engines (R425, R96, R87, R322). -/
def Dev.dbgValue (d : Dev) (index sub row : Nat) : Option Nat :=
  if 0x9020 ≤ index && index ≤ 0x903F then
    let (m, e) := tableMax ((List.range 16).map (fun i => d.acc (index - 0x20) sub i))
    some (asI8 (if m == 0 then -128 else clog2 m e))
  else match index, sub with
  | 0x8100, 2 => some d.dbg.st
  | 0x8100, 3 => some d.dbg.seq
  | 0x8100, 4 => some (kget 0 d.dbg.cycle row)
  | 0x8101, 2 => some d.dbg.status
  | 0x8101, 3 => some d.dbg.bytes
  | 0x8102, 3 => some (match d.dbg.log[row]? with
      | some m => packRow ((m.1, 4) :: (List.range 8).map (fun i => (kget 0 m.2 i, 8)))
      | none => 0)
  | 0x8110, 1 => some (packRow ((List.range 8).map (fun k => (d.counter 0x8111 1 (8 * row + k), 8))))
  | 0x8110, 2 => some (packRow ((List.range 8).map (fun k => (d.counter 0x8111 2 (8 * row + k), 8))))
  | 0xA300, 5 => some (if (List.range 4).all (fun k => d.force 0xA300 (k + 1) 0 == entryDefault 0xA300 (k + 1) 0) then 0 else 1)
  | 0xB000, 1 => some (d.mediaState row)
  | 0xB000, 3 => some (d.counter 0xB000 3 row + (if (d.media row).cur.isSome then d.ref - (d.media row).since else 0))
  | _, _ => none

/-! ### Any entry -/

/-- Whether an entry's rows are counters (R66 and the other counter rules). -/
def isCounter (index sub : Nat) : Bool :=
  (0x8010 ≤ index && index ≤ 0x801A) || index == 0x6050 || index == 0x6051 || index == 0x2020 || (index == 0x8110 && 3 ≤ sub) || (index == 0xB000 && 2 ≤ sub)

/-- A row of an entry as it reads (R298): the state it shows, its count, or the value last accepted. -/
def X.rowValue (x : X) (index sub row : Nat) : Nat :=
  let d := x.dev
  let shown : Option Nat :=
    if index < 0x2000 then d.idValue index sub row
    else if index < 0x3000 then d.powValue index sub row
    else if index < 0x3200 then d.vitValue (BitVec.ofNat 5 ((index - 0x3000) / 16)) (index % 16) sub row
    else if index < 0x6000 then d.netValue index sub row
    else if index < 0x7000 then x.relValue index sub row
    else if index < 0x8000 then x.secValue index sub row
    else d.dbgValue index sub row
  match shown with
  | some n => n
  | none => if isCounter index sub then d.counter index sub row else d.acc index sub row

/-- ROW_COUNT of a TABLE (R299): the rows held, where the table's length varies. -/
def X.rowCount (x : X) (t : EntryInfo) (index sub : Nat) : Nat :=
  let d := x.dev
  match index, sub with
  | 0x4000, 5 => d.hbm.retired.length
  | 0x6010, 1 => d.rel.log.length
  | 0x6030, 1 => cdiv x.recordLen 32
  | 0x6041, 1 => 4 + d.rel.report.entries.length + 49856 / 32
  | 0x7001, 1 => measureRows.length
  | 0x7002, 1 => Config.chainLen false
  | 0x7002, 2 => Config.chainLen true
  | 0x8102, 3 => d.dbg.log.length
  | _, _ =>
    if 0x2001 ≤ index && index ≤ 0x2008 then (d.dpow (index - 0x2001)).hist.length
    else if 0x3000 ≤ index && index < 0x3200 && index % 16 == 0xD && sub == 8 then (d.vit (BitVec.ofNat 5 ((index - 0x3000) / 16))).trace.buf.length
    else t.rows

/-- The size of an entry's value, its header included (R299, R302). -/
def X.entrySize (x : X) (t : EntryInfo) (index sub : Nat) : Nat :=
  if t.ty == 12 then 16 + x.rowCount t index sub * t.rowBytes else t.rowBytes

/-- The header of a TABLE (R299). -/
def X.tableHead (x : X) (t : EntryInfo) (index sub : Nat) : List Byte :=
  leBytes (packRow [(x.rowCount t index sub, 4), (t.rowBytes, 2), (t.rowTy, 1)]) 16

/-- `len` bytes of an entry's value from `off`; a row for which `hide` holds reads as zero (R306). -/
def X.entryBytes (x : X) (t : EntryInfo) (index sub off len : Nat) (hide : Nat → Bool) : List Byte :=
  let row (r : Nat) : List Byte := leBytes (if hide r then 0 else x.rowValue index sub r) t.rowBytes
  if t.ty == 12 then
    let first := (off - 16) / t.rowBytes
    let last := cdiv (off + len - 16) t.rowBytes
    let body := ((List.range (last - first)).map (fun i => row (first + i))).flatten
    let all := if off < 16 then ((x.tableHead t index sub) ++ body).drop off else body.drop (off - 16 - first * t.rowBytes)
    all.take len
  else ((row 0).drop off).take len

end Sys2Proof.Machine
end

