-- ==== Sys2Proof/Machine/Requests.lean ====
section
/-! DEFINITION. Catalogue requests (R297-R312): reach and roles, the range rules of the entries, what an accepted write does, transactions, and
the answer with its sequence rule. -/

namespace Sys2Proof.Machine

/-! ### Reach and roles (R304, R306) -/

/-- The Vitrines of the tenancy that holds a Vitrine (R306). -/
def Dev.reachVits (d : Dev) (n : VitId) : List VitId :=
  match (d.vit n).leader with
  | some l => d.tenancy l
  | none => []

/-- Whether an entry lies in a role's reach (R306). -/
def Dev.inReach (d : Dev) (role : Role) (t : EntryInfo) (index : Nat) : Bool :=
  match role with
  | .tenant n => index == 0x1000 || (if t.scope == 2 then (d.reachVits n).contains (BitVec.ofNat 5 (vitOfIndex index)) else rowsAreVits index)
  | _ => true

/-- The rows that a role does not see (R306). -/
def Dev.hides (d : Dev) (role : Role) (index row : Nat) : Bool :=
  match role with
  | .tenant n => rowsAreVits index && !(d.reachVits n).contains (BitVec.ofNat 5 row)
  | _ => false

/-- A role as a number (R304). -/
def roleCode : Role → Nat
  | .anonymous => 0
  | .observer => 1
  | .operator => 2
  | .provisioner => 3
  | .driver => 4
  | .tenant n => 5 + 256 * n.toNat

/-- Entries restricted to DRIVER (R304, R405, R413, R423, R255). -/
def driverOnly (index sub : Nat) : Bool :=
  index == 0x3200 || index == 0x5005 || index == 0xB010 || (index == 0x7000 && sub == 4) || (index == 0x7005 && sub == 1) ||
  (0x3000 ≤ index && index < 0x3200 && index % 16 == 0xC && sub == 2) || (index == 0x5200 && sub == 4) || (index == 0x8101 && sub == 1) ||
  (index == 0x8102 && sub == 1)

/-- ZEROIZE, restricted to PROVISIONER (R405). -/
def provisionerOnly (index sub : Nat) : Bool := index == 0x7000 && sub == 9

/-- STOP_COMMAND is for DRIVER and PROVISIONER (R408). -/
def stopEntry (index sub : Nat) : Bool := index == 0x8100 && sub == 1

/-- Whether a role may write an entry within its reach (R304): access 1 RW, 2 WO, 3 RWS, 4 RWP. -/
def mayWrite (role : Role) (t : EntryInfo) (index sub : Nat) : Bool :=
  let plain := t.access == 1 || t.access == 2
  match role with
  | .anonymous | .observer => false
  | .operator => plain && t.scope != 2 && !driverOnly index sub && !provisionerOnly index sub && !stopEntry index sub
  | .provisioner => t.access == 4 || (plain && t.scope != 2 && !driverOnly index sub)
  | .driver => t.access == 3 || (plain && !provisionerOnly index sub)
  | .tenant _ => plain && t.scope == 2 && !driverOnly index sub

/-- Whether an entry's die or Vitrine is out of service (R307). -/
def Dev.outOfReach (d : Dev) (t : EntryInfo) (index : Nat) : Bool :=
  if t.scope == 1 then d.diesIn / 2 ^ (index % 16 - 1) % 2 == 0
  else t.scope == 2 && (d.vit (BitVec.ofNat 5 (vitOfIndex index))).st == .outOfService

/-- The requester of a port, if it holds a session or a mailbox. -/
def Cat.requester (c : Cat) (p : CatPort) : Option Requester :=
  match c.reqs.find? (fun q => q.port == p), p with
  | some q, _ => some q
  | none, .pf => some { port := .pf, role := .driver }
  | none, .vf n => some { port := .vf n, role := .tenant n }
  | none, _ => none

/-- Replace a port's requester. -/
def Dev.setRequester (d : Dev) (q : Requester) : Dev :=
  d.onCat (fun c => { c with reqs := q :: c.reqs.filter (fun o => o.port != q.port) })

/-- Whether an entry is locked by another session or port (R308). -/
def Cat.lockedBy (c : Cat) (p : CatPort) (e : EntryRef) : Bool :=
  c.reqs.any (fun q => q.port != p && (match q.txn with | some t => t.entry == e | none => false))

/-- Why a write of an entry is refused before its value is looked at: the status (R304, R306, R307, R308, R310, R401). -/
def Dev.writeRefusal (d : Dev) (port : CatPort) (role : Role) (t : EntryInfo) (e : EntryRef) : Option Nat :=
  let index := e.index.toNat
  let sub := e.sub.toNat
  let v := d.vit (BitVec.ofNat 5 (vitOfIndex index))
  if !d.inReach role t index then some stNoEntry
  else if role == .anonymous || role == .observer || t.access == 0 then some stAccess
  else if t.scope == 2 && !v.held then some stNotAssigned
  else if !mayWrite role t index sub then some stAccess
  else if t.access == 3 && d.cat.ready then some stSealed
  else if t.scope == 2 && t.access == 1 && role == .driver && v.tspLocked then some stAccess
  else if d.cat.lockedBy port e then some stBusy
  else none

/-! ### Ranges -/

/-- A profile of R330. -/
def isProfile (n : Nat) : Bool := n == 1600 || n == 2200 || n == 2800

/-- The sum of a rule over the six regulation classes. -/
def sumClasses (f : Nat → Nat) : Nat := (List.range 6).foldl (fun n c => n + f c) 0

/-- R230's rule for REG_CLASSES with REG_POOL: 16 core, 48 walker and one port of each other class. -/
def regOk (get : Nat → Nat) (pool : Nat) : Bool :=
  256 ≤ pool && pool ≤ 2048 && sumClasses (fun c => fld (get c) 48 8) ≤ 100 &&
  sumClasses (fun c => nthD 1 [16, 48] c * fld (get c) 24 12) ≤ pool &&
  (List.range 6).all (fun c => fld (get c) 24 12 ≤ fld (get c) 36 12 && 1 ≤ fld (get c) 36 12)

/-- R346's rule for a V/F curve with a trim limit: at most 860 mV with full trim. -/
def vfOk (get : Nat → Nat) (steps : Nat) : Bool := (List.range 3).all (fun r => 2 * (get r / 256) + 5 * steps ≤ 1720)

def within (n lo hi : Nat) : Bool := decide (lo ≤ n) && decide (n ≤ hi)

/-- The range rules of an entry of a Vitrine's block at offset k (R53, R130, R168, R193, R230, R235, R257, R285, R295, R332, R345, R424): the status
that refuses the rows, or 0. `get` reads the whole result. -/
def X.vitRange (x : X) (v : VitId) (k sub : Nat) (rows : KMap Nat) (get : Nat → Nat) : Nat :=
  let d := x.dev
  let n := get 0
  let ok (b : Bool) : Nat := if b then stOk else stRange
  match k, sub with
  | 0, 3 => ok (1 ≤ n)
  | 0, 4 => ok (n ≤ 64)
  | 3, 1 => ok (0x10000 ≤ n)
  | 5, 2 =>
    let pad := max (d.vit v).padSteps (d.vacc v 7 1)
    if 8 < n || 18 < pad + n then stRange else if d.pinsFit v pad n then stOk else stPin
  | 7, 5 => ok (within n 8 1024)
  | 7, 7 => ok (within n 16 30)
  | 8, 1 => ok (regOk get (d.vacc v 8 2))
  | 8, 2 => ok (regOk (d.vacc v 8 1) n)
  | 8, 3 => ok (within n 12 24)
  | 8, 4 => ok (n ≤ 32767)
  | 9, 3 => ok (n ≤ 1)
  | 9, 4 => ok (n ≤ 2)
  | 9, 6 => ok (n == 0 || within n (d.force 0x5000 2 0) 4000000000)
  | 0xB, 1 => ok (n == 0 || (n == 1 && !((d.dpow (dieOfVit v)).worn && 42 < d.locked d.pow.profile)))
  | 0xD, 0xA => ok (rows.all (fun e => e.2 ≤ 8))
  | _, _ => stOk

/-- The range rules of the other entries (R87, R97, R150, R163, R193, R235, R257, R320, R321, R346, R347, R375, R405). -/
def X.devRange (x : X) (index sub : Nat) (rows : KMap Nat) (get : Nat → Nat) : Bool :=
  let d := x.dev
  let n := get 0
  let old (r : Nat) : Nat := d.acc index sub r
  if 0x9000 ≤ index && index ≤ 0x901F then rows.all (fun e => e.2 != 0x7F && e.2 != 0xFF)
  else if 0x9040 ≤ index && index ≤ 0x905F then rows.all (fun e => e.2 ≤ 4096)
  else match index, sub with
  | 0x100A, 2 => n ≤ 0xFF || n == 0xFFFF
  | 0x100A, 3 => 2 ≤ n
  | 0x2000, 1 => isProfile n
  | 0x2000, 6 => within n 70 95
  | 0x2000, 8 => within n 4 16 && vfOk (d.acc 0xA000 1) n
  | 0x4000, 2 => within n 0x4000 0x80000
  | 0x4000, 3 => within n 0x8000 0x20000
  | 0x4000, 4 => within n 1 8
  | 0x4010, 1 => within n 0x4000 0x20000
  | 0x5000, 2 => within n 1000000 1000000000
  | 0x5000, 3 => within n 10000 10000000
  | 0x5100, 2 => within n 4 64
  | 0x5200, 2 => 4 ≤ (bits (BitVec.ofNat 96 n)).length
  | 0x6000, 1 => within n 64 1024
  | 0x6000, 2 => within n 1 8
  | 0x7003, 3 => n ≤ 3
  | 0x7100, 1 => rows.all (fun e => e.2 % 256 ≤ 3)
  | 0x8102, 2 => n == 0 || 10000 ≤ n
  | 0xA000, 1 => rows.all (fun e => e.2 % 256 == old e.1 % 256 && old e.1 / 256 ≤ e.2 / 256) && vfOk get (d.acc 0x2000 8 0)
  | 0xA100, 1 => rows.all (fun e => e.2 % 256 ≤ old e.1 % 256 && fld e.2 8 8 == fld (old e.1) 8 8 && e.2 / 65536 ≤ old e.1 / 65536)
  | 0xA200, 1 => rows.all (fun e => e.2 % 2 ^ 32 == old e.1 % 2 ^ 32 && e.2 / 2 ^ 32 ≤ old e.1 / 2 ^ 32)
  | 0xA300, 1 => within n 32 1024
  | 0xA300, 2 => within n 8 64
  | 0xA300, 3 => n == 8 || n == 16
  | 0xA300, 4 => within n 64 4096
  | _, _ => true

/-- The status of the range rules for the rows of a write (R299, R304): 0 when they hold. -/
def X.rangeStatus (x : X) (t : EntryInfo) (index sub : Nat) (rows : KMap Nat) : Nat :=
  let get (r : Nat) : Nat := (kfind rows r).getD (x.dev.acc index sub r)
  if t.rowTy == 1 && rows.any (fun e => 1 < e.2) then stRange
  else if 0x3000 ≤ index && index < 0x3200 then x.vitRange (BitVec.ofNat 5 ((index - 0x3000) / 16)) (index % 16) sub rows get
  else if x.devRange index sub rows get then stOk else stRange

/-! ### The effect of an accepted write -/

/-- The bits of a row that the device keeps; it ignores what is written to reserved fields (R10). -/
def rowMask (index sub val : Nat) : Nat :=
  if 0x3000 ≤ index && index < 0x3200 && index % 16 == 8 && sub == 1 then fld val 23 33 * 2 ^ 23
  else if index == 0x5001 then val / 2 ^ 31 * 2 ^ 31 + val % 256
  else val

/-- The settings by which a STANDBY Vitrine serves its primary: its fabric entries and its checkpoint slots. -/
def standbyKey (v : VitId) (k : Nat) : Bool :=
  let i := k / 16777216
  i == 0x3009 + v.toNat * 16 || i == 0x300A + v.toNat * 16 || (i == 0x3000 + v.toNat * 16 && k / 65536 % 256 == 4)

/-- Accept rows whose entry names no further effect (R298, R311): those in force at once are in force; a provisioned one is recorded in the pending
Condition Record; a STANDBY Vitrine, which runs no step (R254), takes those it serves the primary by at once (log 43). -/
def X.accept (x : X) (role : Role) (t : EntryInfo) (e : EntryRef) (rows : KMap Nat) : X :=
  let index := e.index.toNat
  let sub := e.sub.toNat
  let put (m : KMap Nat) : KMap Nat := rows.foldl (fun m r => kset m (ckey index sub r.1) r.2) m
  let x := x.on (fun d => d.onCat (fun c => { c with acc := put c.acc, force := if t.moment == 0 then put c.force else c.force }))
  let x := if t.access == 4 then x.on (fun d =>
      let d := d.onCat (fun c => { c with pendingRwp := sins c.pendingRwp (ckey index sub 0) })
      (d.post 0x0034 0 0 ((d.cat.gen + 1) % 2 ^ 64) (roleCode role) (index * 256 + sub)).changed 0) else x
  let v : VitId := BitVec.ofNat 5 (vitOfIndex index)
  if t.scope == 2 && x.dev.vacc v 9 4 == 2 && (x.dev.stepOn v).isNone then x.on (fun d => (d.enforceKeys (standbyKey v)).freeAlias) else x

/-- A TENANCY_CRATE command (R292): leader, operation, flags, buffer; RESTORE brings its crate. -/
def X.doCrate (x : X) (val : Nat) (crate : Option CrateInfo) : X × Nat :=
  let l : VitId := BitVec.ofNat 5 (val % 32)
  let buf : HostBuf := { addr := BitVec.ofNat 64 (fld val 64 64), len := BitVec.ofNat 64 (fld val 128 64) }
  let sealing := (x.dev.proc 1).st == 1
  if 32 ≤ val % 256 then (x, stRange)
  else match fld val 8 8 with
  | 1 => x.doFreeze l false
  | 2 => x.doFreeze l true
  | 3 => if sealing then (x, stBusy) else x.doSave l (fld val 16 1 == 1) buf
  | 4 => if sealing then (x, stBusy) else (match crate with | some c => x.doCrateRestore l c | none => (x, stRange))
  | 5 => x.doThaw l
  | _ => (x, stRange)

/-- A write of DEVICE_READY (R310). -/
def X.doReady (x : X) (val : Nat) : X × Nat :=
  if 1 < val then (x, stRange)
  else if val == 0 then (x, stOk)
  else (x.on (fun d => (d.onCat (fun c => { c with ready := true })).onFw (fun f => { f with start := 5 })), stOk)

/-- A write of PROFILE_SELECT (R330). -/
def X.doProfile (x : X) (val : Nat) : X × Nat :=
  let top := x.dev.force 0x2000 1 0
  if val != 0 && !(isProfile val && val ≤ top) then (x, stRange)
  else (x.on (fun d => ((d.setAcc 0x2000 2 0 val).onCat (fun c => { c with force := kset c.force (ckey 0x2000 2 0) val })).onPow (fun p =>
    { p with profile := if val == 0 then top else val })), stOk)

/-- A FORWARDING row is written (R244, R255): the ALIAS rows of its OLD_DEVICE are freed, and held operations may move. -/
def Dev.setForwarding (d : Dev) (row val : Nat) : Dev :=
  ((d.setAcc 0x5001 1 row (rowMask 0x5001 1 val)).onFab (fun b => { b with aliases := b.aliases.filter (fun a => a.2.1.toNat != row) })).kickFab

/-- The effect of one row of an entry whose write does more than set a value: none where the entry is a plain one. -/
def X.special (x : X) (index sub row val : Nat) (crate : Option CrateInfo) : Option (X × Nat) :=
  let v : VitId := BitVec.ofNat 5 ((index - 0x3000) / 16)
  let buf : HostBuf := { addr := BitVec.ofNat 64 (fld val 64 64), len := BitVec.ofNat 64 (fld val 128 64) }
  if 0x3000 ≤ index && index < 0x3200 then
    match index % 16, sub with
    | 1, 1 => some (x.doRingConfig v row (BitVec.ofNat 128 val))
    | 7, 1 => some (x.doScratchSteps v val)
    | 8, 5 => some (x.doRegMiss v (BitVec.ofNat 32 val))
    | 0xD, 3 => some (x.doVitHalt v val)
    | 0xD, 4 => some (x.doWatch v row val)
    | 0xD, 5 => some (x.doTraceControl v val)
    | 0xD, 9 => some (x.doScan v (BitVec.ofNat 16 val) buf)
    | _, _ => none
  else match index, sub with
  | 0x1010, 1 => some (x.doReady val)
  | 0x2000, 2 => some (x.doProfile val)
  | 0x3200, 1 => some (x.doAssign (BitVec.ofNat 32 val))
  | 0x3200, 2 => some (x.doDeaccession (BitVec.ofNat 8 val) (fld val 8 1 == 1))
  | 0x3200, 3 => some (x.doCrate val crate)
  | 0x5001, 1 => some (x.on (fun d => d.setForwarding row val), stOk)
  | 0x5002, 1 => some (x.on (fun d => (d.setAcc 0x5002 1 row val).kickFab), stOk)
  | 0x5005, 1 => some (if 2 < val then (x, stRange) else (x.on (fun d => (d.setAcc 0x5005 1 row val).linkAdmin row val), stOk))
  | 0x5200, 4 => some (x.doTakeover (BitVec.ofNat 32 val))
  | 0x6030, 2 => some (x.doRecordSeal val)
  | 0x6040, 1 => some (x.doBist (fld val 0 8) (fld val 16 16) (BitVec.ofNat 256 (fld val 64 256)))
  | 0x7000, 4 => some (x.doSvnCommit val)
  | 0x7000, 9 => some (x.doZeroize val)
  | 0x8100, 1 => some (x.doStop val)
  | 0x8101, 1 => some (x.doScanout (BitVec.ofNat 16 val) (BitVec.ofNat 8 (fld val 16 8)) buf)
  | 0x8102, 1 => some (x.doMarker val)
  | 0xB010, 1 => some (x.doMediaAdmin row val)
  | _, _ => none

/-- Apply rows one after another; the first refusal undoes them all (R297), and itself leaves only what it shows (SCANOUT_STATUS and SCANOUT_BYTES, R413). -/
def X.applyRows (x : X) (index sub : Nat) (crate : Option CrateInfo) : KMap Nat → X × Nat
  | [] => (x, stOk)
  | (r, val) :: rest =>
    match x.special index sub r val crate with
    | none => (x, stOk)
    | some (y, st) =>
      if st != stOk && st != stProgress then (y, st)
      else
        let (z, st') := y.applyRows index sub crate rest
        if st' != stOk && st' != stProgress then (x, st') else (z, max st st')

/-- Write rows of an entry (R297): the new state and the status. A refused write changes no value; an accepted one adds 1 to
CATALOGUE_GENERATION, unless it has reset the device. -/
def X.commit (x : X) (role : Role) (t : EntryInfo) (e : EntryRef) (rows : KMap Nat) (crate : Option CrateInfo) : X × Nat :=
  let index := e.index.toNat
  let sub := e.sub.toNat
  let rows := rows.map (fun r => (r.1, rowMask index sub r.2))
  let (y, st) :=
    if t.access == 4 && (x.dev.proc 1).st == 1 then (x, stBusy)
    else match rows with
    | [] => (x, stOk)
    | (r, val) :: _ =>
      if (x.special index sub r val crate).isSome then x.applyRows index sub crate rows
      else
        let n := x.rangeStatus t index sub rows
        if n != stOk then (x, n)
        else
          let y := x.accept role t e rows
          (if index == 0x8102 then y.on (fun d => { d with dbg := { d.dbg with markedAt := d.ref } }) else y, stOk)
  if st != stOk && st != stProgress then (y, st)
  else if !y.dev.cat.published then (y, st)
  else (y.on (fun d => d.onCat (fun c => { c with gen := (c.gen + 1) % 2 ^ 64 })), st)

/-! ### The requests (R302) -/

/-- The rows that bytes at an offset of a TABLE cover, when they are whole rows (R299). -/
def rowsAt (t : EntryInfo) (off : Nat) (data : List Byte) : Option (KMap Nat) :=
  let n := data.length / t.rowBytes
  let first := (off - 16) / t.rowBytes
  if off < 16 || data.isEmpty || (off - 16) % t.rowBytes != 0 || data.length % t.rowBytes != 0 || 1440 < data.length || t.rows < first + n then none
  else some ((List.range n).map (fun i => (first + i, leNat ((data.drop (i * t.rowBytes)).take t.rowBytes))))

/-- READ (R302, R304, R306, R307): a WO entry returns its status and no value; ERROR_LOG's records count as read (R353). -/
def X.serveRead (x : X) (role : Role) (h : PduHead) : X × Nat × List Byte :=
  let index := h.entry.index.toNat
  let sub := h.entry.sub.toNat
  match entryAt index sub with
  | none => (x, stNoEntry, [])
  | some t =>
    if !x.dev.inReach role t index then (x, stNoEntry, [])
    else if (role == .anonymous && index != 0x1000) || t.access == 2 then (x, stAccess, [])
    else
      let size := x.entrySize t index sub
      let off := h.offset.toNat
      let len := if h.length == 0 then size else h.length.toNat
      if 1440 < len || size < off + len || (t.ty != 12 && t.ty != 11 && len != size) then (x, stLength, [])
      else
        let data := x.entryBytes t index sub off len (x.dev.hides role index)
        let x := if index == 0x6010 && sub == 1 then
            match x.dev.rel.log[(off + len - 16 + 63) / 64 - 1]? with
            | some r => if 16 < off + len then x.on (fun d => d.onRel (fun q => { q with read := max q.read (r.seq + 1) })) else x
            | none => x
          else x
        (x, if x.dev.outOfReach t index then stOutOfService else stOk, data)

/-- WRITE (R297, R302). -/
def X.serveWrite (x : X) (role : Role) (h : PduHead) (data : List Byte) (crate : Option CrateInfo) : X × Nat × List Byte :=
  match entryAt h.entry.index.toNat h.entry.sub.toNat with
  | none => (x, stNoEntry, [])
  | some t =>
    match x.dev.writeRefusal h.port role t h.entry with
    | some st => (x, st, [])
    | none =>
      let rows : Option (KMap Nat) :=
        if h.length.toNat != data.length then none
        else if t.ty == 12 then rowsAt t h.offset.toNat data
        else if h.offset != 0 || data.length != t.rowBytes then none
        else some [(0, leNat data)]
      match rows with
      | none => (x, stLength, [])
      | some l =>
        let (y, st) := x.commit role t h.entry l crate
        (y, st, [])

/-- WRITE_BEGIN (R308). -/
def X.serveBegin (x : X) (q : Requester) (h : PduHead) : X × Nat × List Byte :=
  match entryAt h.entry.index.toNat h.entry.sub.toNat with
  | none => (x, stNoEntry, [])
  | some t =>
    match x.dev.writeRefusal h.port q.role t h.entry with
    | some st => (x, st, [])
    | none =>
      if t.ty != 12 then (x, stLength, [])
      else if q.txn.isSome then (x, stBusy, [])
      else (x.on (fun d => d.setRequester { q with txn := some { entry := h.entry, last := d.ref } }), stOk, [])

/-- WRITE_SEGMENT, WRITE_COMMIT and WRITE_ABORT (R308), by opcode: with the transaction open on the entry named. -/
def X.serveTxn (x : X) (q : Requester) (op : Nat) (h : PduHead) (data : List Byte) (crate : Option CrateInfo) : X × Nat × List Byte :=
  match q.txn with
  | none => (x, stNoTxn, [])
  | some n =>
    if n.entry != h.entry then (x, stNoTxn, [])
    else match entryAt h.entry.index.toNat h.entry.sub.toNat with
    | none => (x, stNoTxn, [])
    | some t =>
      let touch (m : Txn) (y : X) : X := y.on (fun d => d.setRequester { q with txn := some { m with last := d.ref } })
      match op with
      | 4 =>
        match (if h.length.toNat != data.length then none else rowsAt t h.offset.toNat data) with
        | none => (touch n x, stLength, [])
        | some l => (touch { n with rows := l.foldl (fun m r => kset m r.1 r.2) n.rows } x, stOk, [])
      | 5 =>
        match x.dev.writeRefusal h.port q.role t h.entry with
        | some st => (touch n x, st, [])
        | none =>
          let (y, st) := x.commit q.role t h.entry n.rows crate
          if st != stOk && st != stProgress then (touch n x, st, [])
          else (if y.dev.cat.published then y.on (fun d => d.setRequester { q with txn := none }) else y, st, [])
      | _ => (x.on (fun d => d.setRequester { q with txn := none }), stOk, [])

/-- DISCOVER (R302). -/
def X.discovery (x : X) : List Byte :=
  leBytes (x.rowValue 0x1000 1 0) 16 ++ leBytes (x.rowValue 0x1000 3 0) 16 ++ leBytes (x.rowValue 0x1000 5 0) 12 ++ leBytes (x.dev.acc 0x5000 1 0) 2 ++
    leBytes (x.rowValue 0x100A 1 0) 6

/-- DESCRIBE (R299, R302). -/
def X.serveDescribe (x : X) (role : Role) (h : PduHead) : X × Nat × List Byte :=
  let index := h.entry.index.toNat
  let sub := h.entry.sub.toNat
  match entryAt index sub with
  | none => (x, stNoEntry, [])
  | some t =>
    if !x.dev.inReach role t index then (x, stNoEntry, [])
    else
      let head := leBytes t.ty 1 ++ leBytes t.access 1 ++ leBytes t.scope 1 ++ leBytes (x.entrySize t index sub) 4
      (x, stOk, if t.ty == 12 then head ++ (x.tableHead t index sub).take 7 else head)

/-- The reader of a port. -/
def Cat.reader (c : Cat) (p : CatPort) : Option Reader := c.readers.find? (fun r => r.port == p)
def Dev.setReader (d : Dev) (r : Reader) : Dev := d.onCat (fun c => { c with readers := r :: c.readers.filter (fun o => o.port != r.port) })

/-- EVENT_SUBSCRIBE (R302): the sequence number from which events are wanted; 0xFFFF_FFFF means only new events. -/
def Dev.subscribe (d : Dev) (p : CatPort) (n : Nat) : Dev :=
  let pos := if n == 0xFFFFFFFF then d.cat.evNext else n
  d.setReader { port := p, pos, acked := (pos + 2 ^ 32 - 1) % 2 ^ 32, sentAt := d.ref }

/-- EVENT_ACK (R302, R315): the acknowledgement moves on to a number that has been sent. -/
def Dev.ackEvents (d : Dev) (p : CatPort) (n : Nat) : Dev :=
  match d.cat.reader p with
  | none => d
  | some r =>
    let from' (k : Nat) : Nat := (k + 2 ^ 32 - r.acked) % 2 ^ 32
    if from' n < from' r.pos then d.setReader { r with acked := n, inFlight := r.inFlight.filter (fun k => from' n < from' k) } else d

/-- SESSION_END (R302): the session, its transaction and its reader end. -/
def Dev.endSession (d : Dev) (p : CatPort) : Dev :=
  d.onCat (fun c => { c with reqs := c.reqs.filter (fun q => q.port != p), readers := c.readers.filter (fun r => r.port != p) })

/-- Serve a request of a session or mailbox: the new state, the status and the payload. -/
def X.serveReq (x : X) (q : Requester) (op : Nat) (h : PduHead) (data : List Byte) (crate : Option CrateInfo) : X × Nat × List Byte :=
  if !h.reservedZero || h.version != 1 then (x, stMalformed, [])
  else match op with
  | 0x01 => x.serveRead q.role h
  | 0x02 => x.serveWrite q.role h data crate
  | 0x03 => x.serveBegin q h
  | 0x04 | 0x05 | 0x06 => x.serveTxn q op h data crate
  | 0x11 => if CatPort.isSession h.port then (x.on (fun d => d.endSession h.port), stOk, []) else (x, stAccess, [])
  | 0x20 => if data.length == 4 then (x.on (fun d => d.subscribe h.port (leNat data)), stOk, []) else (x, stLength, [])
  | 0x22 => if data.length == 4 then (x.on (fun d => d.ackEvents h.port (leNat data)), stOk, []) else (x, stLength, [])
  | 0x30 => (x, stOk, x.discovery)
  | 0x31 => x.serveDescribe q.role h
  | _ => (x, stMalformed, [])

/-- Serve a request without a session (R302, R304). -/
def X.serveAnon (x : X) (op : Nat) (h : PduHead) : X × Nat × List Byte :=
  if !h.reservedZero || h.version != 1 then (x, stMalformed, [])
  else match op with
  | 0x01 => x.serveRead .anonymous h
  | 0x30 => (x, stOk, x.discovery)
  | 0x31 => x.serveDescribe .anonymous h
  | 0x02 | 0x03 | 0x04 | 0x05 | 0x06 | 0x11 | 0x20 | 0x22 => (x, stAccess, [])
  | _ => (x, stMalformed, [])

/-- Send a response. -/
def Dev.respond (d : Dev) (r : Resp) : Dev := d.onCat (fun c => { c with out := some r })

/-- A PDU whose tag does not verify, or that names no session, is discarded (R305): it is counted, and the sixteenth in a row ends its session. -/
def Dev.authFailure (d : Dev) (p : CatPort) : Dev :=
  let d := d.onCat (fun c => { c with authFail := (c.authFail + 1) % 2 ^ 64 })
  match d.cat.reqs.find? (fun q => q.port == p) with
  | some q => if 16 ≤ q.fails + 1 then d.endSession p else d.setRequester { q with fails := q.fails + 1 }
  | none => d

/-- Keep a request's SEQ and response (R303), unless its session has ended or the device has been reset. -/
def Dev.keep (d : Dev) (p : CatPort) (seq : Word) (r : Resp) : Dev :=
  match d.cat.requester p with
  | some q => d.setRequester { q with lastSeq := some seq, kept := some r, lastPdu := d.ref, fails := 0 }
  | none => d

/-- A Catalogue request (R297, R303, R312): a repeated SEQ gets the kept response, another but its successor SEQUENCE. While the Curator restarts,
requests of the mailboxes wait in their buffers. -/
def X.request (x : X) (op : Nat) (h : PduHead) (data : List Byte) (crate : Option CrateInfo := none) : X :=
  let d := x.dev
  if !d.cat.published then x
  else if (d.proc 0).st == 1 then
    match h.port with
    | .pf | .vf _ => x.on (fun d => d.onCat (fun c => { c with waiting := c.waiting ++ [(op, h, data, crate)] }))
    | _ => x
  else if h.port == .anon then
    let (y, st, out) := x.serveAnon op h
    y.on (fun d => d.respond { port := .anon, opcode := op, status := st, seq := h.seq, data := out })
  else match d.cat.requester h.port with
  | none => x.on (fun d => d.authFailure h.port)
  | some q =>
    if !q.auth then x.on (fun d => d.authFailure h.port)
    else if q.lastSeq == some h.seq && q.kept.isSome then
      x.on (fun d => (d.setRequester { q with lastPdu := d.ref, fails := 0 }).onCat (fun c => { c with out := q.kept }))
    else if (match q.lastSeq with | some n => n + 1 != h.seq | none => false) then
      x.on (fun d => (d.setRequester { q with lastPdu := d.ref, fails := 0 }).respond { port := h.port, opcode := op, status := stSequence, seq := h.seq })
    else
      let (y, st, out) := x.serveReq q op h data crate
      let r : Resp := { port := h.port, opcode := op, status := st, seq := h.seq, data := out }
      if !y.dev.cat.published then y else y.on (fun d => (d.keep h.port h.seq r).respond r)

end Sys2Proof.Machine
end

