-- ==== Sys2Proof/Machine/Commands.lean ====
section
/-! DEFINITION. The Catalogue's commands: requests by opcode and by entry (R302-R314), sessions (R305), the event channel (R315) and the end of a
firmware processor's restart (R312, R380). -/

namespace Sys2Proof.Machine

/-! ### Requests by opcode (R302, R314) -/

/-- READ (R302). -/
def execRead (h : PduHead) (s : State) : Out := run s (fun x => x.request 0x01 h [])
/-- WRITE (R297, R302). -/
def execWrite (h : PduHead) (data : List Byte) (s : State) : Out := run s (fun x => x.request 0x02 h data)
/-- WRITE_BEGIN (R308). -/
def execWriteBegin (h : PduHead) (s : State) : Out := run s (fun x => x.request 0x03 h [])
/-- WRITE_SEGMENT (R308). -/
def execWriteSegment (h : PduHead) (data : List Byte) (s : State) : Out := run s (fun x => x.request 0x04 h data)
/-- WRITE_COMMIT (R308). -/
def execWriteCommit (h : PduHead) (s : State) : Out := run s (fun x => x.request 0x05 h [])
/-- WRITE_ABORT (R308). -/
def execWriteAbort (h : PduHead) (s : State) : Out := run s (fun x => x.request 0x06 h [])
/-- SESSION_END (R302). -/
def execSessionEnd (h : PduHead) (s : State) : Out := run s (fun x => x.request 0x11 h [])
/-- EVENT_SUBSCRIBE (R302). -/
def execEventSubscribe (h : PduHead) (start : Word) (s : State) : Out := run s (fun x => x.request 0x20 h (leBytes start.toNat 4))
/-- EVENT_ACK (R302). -/
def execEventAck (h : PduHead) (upTo : Word) (s : State) : Out := run s (fun x => x.request 0x22 h (leBytes upTo.toNat 4))
/-- DISCOVER (R302). -/
def execDiscover (h : PduHead) (s : State) : Out := run s (fun x => x.request 0x30 h [])
/-- DESCRIBE (R302). -/
def execDescribe (h : PduHead) (s : State) : Out := run s (fun x => x.request 0x31 h [])

/-- CATALOGUE (R314): one PDU through the mailbox of the physical function, or of virtual function n + 1. -/
def execCatalogue (fn : Option VitId) (opcode : Byte) (h : PduHead) (data : List Byte) (s : State) : Out :=
  run s (fun x => x.request opcode.toNat { h with port := match fn with | some n => .vf n | none => .pf } data)

/-- TRANSACTION_TIMEOUT (R308): 100,000,000 reference cycles without a segment or commit. -/
def execTransactionTimeout (port : CatPort) (s : State) : Out :=
  runDev s (fun _ _ d =>
    match d.cat.reqs.find? (fun q => q.port == port) with
    | some q => (match q.txn with
      | some t => (d.reachRef (t.last + 100000000)).setRequester { q with txn := none }
      | none => d)
    | none => d)

/-! ### Requests by entry -/

/-- A WRITE of an entry whole, or of one row of a TABLE, given by value. -/
def X.writeOwn (x : X) (rq : CatReq) (index sub : Nat) (row : Option Nat) (bytes val : Nat) (crate : Option CrateInfo := none) : X :=
  x.request 0x02
    { port := rq.port, seq := rq.seq, entry := { index := BitVec.ofNat 16 index, sub := BitVec.ofNat 8 sub }, version := 1, reservedZero := true,
      offset := match row with | some r => BitVec.ofNat 32 (16 + r * bytes) | none => 0, length := BitVec.ofNat 16 bytes } (leBytes val bytes) crate

/-- The index of Vitrine v's block at offset k (R319). -/
def blockIx (v : VitId) (k : Nat) : Nat := 0x3000 + v.toNat * 16 + k

/-- GALLERY_SCRATCH_STEPS (R169). -/
def execGalleryScratchStepsWrite (rq : CatReq) (v : VitId) (steps : Byte) (s : State) : Out :=
  run s (fun x => x.writeOwn rq (blockIx v 7) 1 none 1 steps.toNat)
/-- REG_MISS_STATUS (R232). -/
def execRegMissStatusWrite (rq : CatReq) (v : VitId) (val : Word) (s : State) : Out := run s (fun x => x.writeOwn rq (blockIx v 8) 5 none 4 val.toNat)
/-- TAKEOVER_VITRINES (R255). -/
def execTakeoverVitrines (rq : CatReq) (mask : Word) (s : State) : Out := run s (fun x => x.writeOwn rq 0x5200 4 none 4 mask.toNat)
/-- REMOTE_TIMEOUT_OVERRIDE (R257). -/
def execRemoteTimeoutOverride (rq : CatReq) (v : VitId) (val : Word) (s : State) : Out := run s (fun x => x.writeOwn rq (blockIx v 9) 6 none 4 val.toNat)
/-- LINK_ADMIN (R289). -/
def execLinkAdmin (rq : CatReq) (l : LinkId) (val : Byte) (s : State) : Out := run s (fun x => x.writeOwn rq 0x5005 1 (some l.val) 1 val.toNat)
/-- TENANCY_ASSIGN (R261). -/
def execTenancyAssign (rq : CatReq) (mask : Word) (s : State) : Out := run s (fun x => x.writeOwn rq 0x3200 1 none 4 mask.toNat)
/-- RING_CONFIG (R263). -/
def execRingConfig (rq : CatReq) (v : VitId) (r : RingId) (row : BitVec 128) (s : State) : Out :=
  run s (fun x => x.writeOwn rq (blockIx v 1) 1 (some r.toNat) 16 row.toNat)
/-- MEDIA_ADMIN (R289). -/
def execMediaAdmin (rq : CatReq) (e : EngineId) (val : Byte) (s : State) : Out := run s (fun x => x.writeOwn rq 0xB010 1 (some e.toNat) 1 val.toNat)
/-- TENANCY_DEACCESSION (R291). -/
def execTenancyDeaccession (rq : CatReq) (leader : Byte) (squash : Bool) (s : State) : Out :=
  run s (fun x => x.writeOwn rq 0x3200 2 none 2 (leader.toNat + (if squash then 256 else 0)))

/-- A TENANCY_CRATE operation (R292, R295). -/
def X.writeCrate (x : X) (rq : CatReq) (leader : VitId) (op : Nat) (memory : Bool) (buf : HostBuf) (crate : Option CrateInfo) : X :=
  x.writeOwn rq 0x3200 3 none 24
    (packRow [(leader.toNat, 1), (op, 1), ((if memory then 1 else 0), 2), (0, 4), (buf.addr.toNat, 8), (buf.len.toNat, 8)]) crate

/-- FREEZE_SAFE (R292). -/
def execFreezeSafe (rq : CatReq) (leader : VitId) (s : State) : Out := run s (fun x => x.writeCrate rq leader 1 false { addr := 0, len := 0 } none)
/-- FREEZE_BOUNDARY (R292). -/
def execFreezeBoundary (rq : CatReq) (leader : VitId) (s : State) : Out := run s (fun x => x.writeCrate rq leader 2 false { addr := 0, len := 0 } none)
/-- SAVE (R292). -/
def execSave (rq : CatReq) (leader : VitId) (memory : Bool) (buf : HostBuf) (s : State) : Out :=
  run s (fun x => x.writeCrate rq leader 3 memory buf none)
/-- RESTORE (R292). -/
def execCrateRestore (rq : CatReq) (leader : VitId) (crate : CrateInfo) (buf : HostBuf) (s : State) : Out :=
  run s (fun x => x.writeCrate rq leader 4 false buf (some crate))
/-- THAW (R292). -/
def execThaw (rq : CatReq) (leader : VitId) (s : State) : Out := run s (fun x => x.writeCrate rq leader 5 false { addr := 0, len := 0 } none)

/-- DEVICE_READY (R310). -/
def execDeviceReady (rq : CatReq) (val : Byte) (s : State) : Out := run s (fun x => x.writeOwn rq 0x1010 1 none 1 val.toNat)
/-- POWER_CLASS (R332). -/
def execPowerClass (rq : CatReq) (v : VitId) (val : Byte) (s : State) : Out := run s (fun x => x.writeOwn rq (blockIx v 0xB) 1 none 1 val.toNat)
/-- PROFILE_SELECT (R330). -/
def execProfileSelect (rq : CatReq) (val : BitVec 16) (s : State) : Out := run s (fun x => x.writeOwn rq 0x2000 2 none 2 val.toNat)

/-- A write of BIST_COMMAND (R369, R375). -/
def X.writeBist (x : X) (rq : CatReq) (kind : Nat) (target : BitVec 16) (nonce : BitVec 256) : X :=
  x.writeOwn rq 0x6040 1 none 40 (packRow [(kind, 1), (0, 1), (target.toNat, 2), (0, 4), (nonce.toNat, 32)])

/-- BIST_COMMAND of KIND 1 CORE (R369). -/
def execBistCore (rq : CatReq) (target : BitVec 16) (nonce : BitVec 256) (s : State) : Out := run s (fun x => x.writeBist rq 1 target nonce)
/-- BIST_COMMAND of KIND 2 CLUSTER_MEMORY (R369). -/
def execBistClusterMemory (rq : CatReq) (target : BitVec 16) (nonce : BitVec 256) (s : State) : Out := run s (fun x => x.writeBist rq 2 target nonce)
/-- BIST_COMMAND of KIND 3 SLICE (R369). -/
def execBistSlice (rq : CatReq) (target : BitVec 16) (nonce : BitVec 256) (s : State) : Out := run s (fun x => x.writeBist rq 3 target nonce)
/-- BIST_COMMAND of KIND 4 DIE_LINK_LANE (R369). -/
def execBistDieLinkLane (rq : CatReq) (target : BitVec 16) (nonce : BitVec 256) (s : State) : Out := run s (fun x => x.writeBist rq 4 target nonce)
/-- BIST_COMMAND of KIND 5 SEAM_LANE (R369). -/
def execBistSeamLane (rq : CatReq) (target : BitVec 16) (nonce : BitVec 256) (s : State) : Out := run s (fun x => x.writeBist rq 5 target nonce)
/-- BIST_COMMAND of KIND 6 LASER_GROUP (R369). -/
def execBistLaserGroup (rq : CatReq) (target : BitVec 16) (nonce : BitVec 256) (s : State) : Out := run s (fun x => x.writeBist rq 6 target nonce)
/-- BIST_COMMAND of KIND 7 DIE_QUICK (R369). -/
def execBistDieQuick (rq : CatReq) (target : BitVec 16) (nonce : BitVec 256) (s : State) : Out := run s (fun x => x.writeBist rq 7 target nonce)
/-- BIST_COMMAND of KIND 8 DEVICE_QUICK (R369). -/
def execBistDeviceQuick (rq : CatReq) (target : BitVec 16) (nonce : BitVec 256) (s : State) : Out := run s (fun x => x.writeBist rq 8 target nonce)
/-- BIST_COMMAND of KIND 9 DEVICE_FULL (R369). -/
def execBistDeviceFull (rq : CatReq) (target : BitVec 16) (nonce : BitVec 256) (s : State) : Out := run s (fun x => x.writeBist rq 9 target nonce)

/-- RECORD_SEAL (R374). -/
def execRecordSeal (rq : CatReq) (val : Byte) (s : State) : Out := run s (fun x => x.writeOwn rq 0x6030 2 none 1 val.toNat)
/-- SVN_COMMIT (R385). -/
def execSvnCommit (rq : CatReq) (val : Byte) (s : State) : Out := run s (fun x => x.writeOwn rq 0x7000 4 none 1 val.toNat)
/-- ZEROIZE (R393). -/
def execZeroize (rq : CatReq) (val : Byte) (s : State) : Out := run s (fun x => x.writeOwn rq 0x7000 9 none 1 val.toNat)
/-- STOP: STOP_COMMAND is written with 1 (R408). -/
def execStop (rq : CatReq) (s : State) : Out := run s (fun x => x.writeOwn rq 0x8100 1 none 1 1)
/-- RESUME: STOP_COMMAND is written with 2 (R412). -/
def execResume (rq : CatReq) (s : State) : Out := run s (fun x => x.writeOwn rq 0x8100 1 none 1 2)
/-- SCANOUT_COMMAND (R413). -/
def execScanoutCommand (rq : CatReq) (sections : BitVec 16) (dies : Byte) (buf : HostBuf) (s : State) : Out :=
  run s (fun x => x.writeOwn rq 0x8101 1 none 24
    (packRow [(sections.toNat, 2), (dies.toNat, 1), (0, 1), (0, 4), (buf.addr.toNat, 8), (buf.len.toNat, 8)]))
/-- SCAN_COMMAND (R413). -/
def execScanCommand (rq : CatReq) (v : VitId) (sections : BitVec 16) (buf : HostBuf) (s : State) : Out :=
  run s (fun x => x.writeOwn rq (blockIx v 0xD) 9 none 24 (packRow [(sections.toNat, 2), (0, 2), (0, 4), (buf.addr.toNat, 8), (buf.len.toNat, 8)]))
/-- VITRINE_HALT is written with 1 (R418). -/
def execVitrineHalt (rq : CatReq) (v : VitId) (s : State) : Out := run s (fun x => x.writeOwn rq (blockIx v 0xD) 3 none 1 1)
/-- VITRINE_HALT is written with 0 (R418). -/
def execVitrineResumed (rq : CatReq) (v : VitId) (s : State) : Out := run s (fun x => x.writeOwn rq (blockIx v 0xD) 3 none 1 0)
/-- WATCHPOINTS (R419). -/
def execWatchpoints (rq : CatReq) (v : VitId) (row : BitVec 3) (val : BitVec 128) (s : State) : Out :=
  run s (fun x => x.writeOwn rq (blockIx v 0xD) 4 (some row.toNat) 16 val.toNat)
/-- TRACE_CONTROL (R420). -/
def execTraceControl (rq : CatReq) (v : VitId) (val : BitVec 64) (s : State) : Out :=
  run s (fun x => x.writeOwn rq (blockIx v 0xD) 5 none 8 val.toNat)
/-- MARKER_COMMAND (R423). -/
def execMarkerCommand (rq : CatReq) (val : Byte) (s : State) : Out := run s (fun x => x.writeOwn rq 0x8102 1 none 1 val.toNat)

/-! ### Sessions (R305) -/

/-- The sessions open or being established. -/
def Cat.sessions (c : Cat) : List Requester := c.reqs.filter (fun q => CatPort.isSession q.port)

/-- The number of a session that KEY_EXCHANGE opens: the one it names, or the least free one (log 42). -/
def Cat.newSession (c : Cat) (p : CatPort) : CatPort :=
  match p with
  | .session _ => p
  | _ => .session (BitVec.ofNat 32 (((List.range 17).find? (fun k => !c.reqs.any (fun q => q.port == .session (BitVec.ofNat 32 (k + 1))))).getD 0 + 1))

/-- The role that a verified requester's chain gives, while its anchor is in force; the provisioning root gives PROVISIONER (R305, R321). -/
def Dev.anchorRole (d : Dev) (anchor : Option Role) : Option Role :=
  match anchor with
  | none => some .provisioner
  | some r => if 1 ≤ roleCode r && roleCode r ≤ 3 && (List.range 8).any (fun i => d.force 0x7100 1 i % 256 == roleCode r) then some r else none

/-- One SPDM message of a SESSION PDU (R305): the status of its answer. KEY_EXCHANGE opens a session, FINISH authenticates it. -/
def Dev.sessionStep (d : Dev) (p : CatPort) (req : SpdmReq) : Dev × Nat :=
  let known := d.cat.reqs.find? (fun q => q.port == p)
  match req with
  | .keyExchange =>
    if known.isSome then (d, stMalformed)
    else if 16 ≤ d.cat.sessions.length then (d, stBusy)
    else ((d.setRequester { port := d.cat.newSession p, role := .anonymous, auth := false, lastPdu := d.ref }).spdmAnswer .field req, stOk)
  | .finish anchor ok =>
    match known, d.anchorRole anchor with
    | some q, some r =>
      if q.auth then (d, stMalformed)
      else if ok then ((d.setRequester { q with role := r, auth := true, lastPdu := d.ref }).spdmAnswer .field req, stOk)
      else (d.endSession p, stAccess)
    | some q, none => if q.auth then (d, stMalformed) else (d.endSession p, stAccess)
    | none, _ => (d, stMalformed)
  | .endSession => if known.isSome then ((d.endSession p).spdmAnswer .field req, stOk) else (d, stMalformed)
  | _ => (d.spdmAnswer .field req, stOk)

/-- SESSION (R305, R393): a PDU whose tag fails is discarded; while the Registrar restarts, establishment is answered BUSY. -/
def execSession (h : PduHead) (req : SpdmReq) (tagOk : Bool) (s : State) : Out :=
  run s (fun x =>
    let d := x.dev
    let mail := match h.port with | .pf | .vf _ => true | _ => false
    let q := d.cat.reqs.find? (fun q => q.port == h.port)
    if mail then x.request 0x10 h []
    else if !d.cat.published || (d.proc 0).st == 1 then x
    else if !tagOk then x.on (fun d => d.authFailure h.port)
    else
      let resp (st : Nat) : Resp := { port := h.port, opcode := 0x10, status := st, seq := h.seq }
      match q.bind (·.lastSeq) with
      | some n =>
        if n == h.seq then x.on (fun d => d.onCat (fun c => { c with out := q.bind (·.kept) }))
        else if n + 1 != h.seq then x.on (fun d => d.respond (resp stSequence))
        else
          let (d, st) := if !h.reservedZero || h.version != 1 then (d, stMalformed) else if (d.proc 1).st == 1 then (d, stBusy) else d.sessionStep h.port req
          { x with dev := (d.keep h.port h.seq (resp st)).respond (resp st) }
      | none =>
        let (d, st) := if !h.reservedZero || h.version != 1 then (d, stMalformed) else if (d.proc 1).st == 1 then (d, stBusy) else d.sessionStep h.port req
        { x with dev := (d.keep h.port h.seq (resp st)).respond (resp st) })

/-- SESSION_IDLE_TIMEOUT (R305): no PDU for 600 s. -/
def execSessionIdleTimeout (id : Word) (s : State) : Out :=
  runDev s (fun _ _ d =>
    match d.cat.reqs.find? (fun q => q.port == .session id) with
    | some q => (d.reachRef (q.lastPdu + 60000000000)).endSession q.port
    | none => d)

/-! ### The event channel (R315) -/

/-- Whether a reader receives an event (R306, R315). -/
def Dev.sees (d : Dev) (p : CatPort) (e : Event) : Bool :=
  match p with
  | .vf n => e.kind == 2 && (d.reachVits n).contains (BitVec.ofNat 5 e.index)
  | _ => true

/-- Up to `most` records after a reader's position, an EVENTS_LOST record first where it has fallen behind, and the position after them. -/
def Dev.eventsFor (d : Dev) (r : Reader) (most : Nat) : List Event × Nat :=
  let ahead := (d.cat.evNext + 2 ^ 32 - r.pos) % 2 ^ 32
  let behind := if 2 ^ 31 ≤ ahead then 0 else ahead
  let held := d.cat.events.length
  let lost := behind - held
  let pos := (r.pos + lost) % 2 ^ 32
  let lead : List Event :=
    if lost == 0 then [] else [{ code := 0xFF, kind := 0, index := 0, d0 := lost, seq := (pos + 2 ^ 32 - 1) % 2 ^ 32, cycle := d.curCycle % 2 ^ 32 }]
  let mine := (d.cat.events.drop (held - behind)).filter (d.sees r.port)
  let room := most - lead.length
  let out := mine.take room
  let next := if mine.length ≤ room then (if behind == 0 then r.pos else d.cat.evNext)
    else match out.getLast? with | some e => (e.seq + 1) % 2 ^ 32 | none => pos
  (lead ++ out, next)

/-- Send a reader one EVENT PDU of 1 to 45 records, unless four stand unacknowledged (R315). -/
def Dev.sendEvents (d : Dev) (r : Reader) : Dev :=
  if 4 ≤ r.inFlight.length then d
  else
    let (out, next) := d.eventsFor r 45
    match out.getLast? with
    | none => d.setReader { r with pos := next }
    | some e =>
      let d := d.setReader { r with pos := next, inFlight := r.inFlight ++ [e.seq], sentAt := d.ref }
      d.onCat (fun c => { c with evOut := out, evTo := r.port, evLast := next == c.evNext })

/-- Whether the Curator can send a reader EVENT PDUs: a virtual function's mailbox or an authenticated session. -/
def Dev.canSend (d : Dev) (p : CatPort) : Bool :=
  d.cat.published && (d.proc 0).st != 1 && p != .pf && (match d.cat.requester p with | some q => q.auth | none => false)

/-- EVENT (R315). -/
def execEvent (port : CatPort) (s : State) : Out :=
  runDev s (fun _ _ d =>
    if !d.canSend port then d
    else match d.cat.reader port with
    | some r => d.sendEvents r
    | none => d)

/-- EVENT_RESEND (R315): 10 ms without acknowledgement; sending starts again after the last event acknowledged. -/
def execEventResend (port : CatPort) (s : State) : Out :=
  runDev s (fun _ _ d =>
    if !d.canSend port then d
    else match d.cat.reader port with
    | some r =>
      if r.inFlight.isEmpty then d
      else (d.reachRef (r.sentAt + 1000000)).sendEvents { r with pos := (r.acked + 1) % 2 ^ 32, inFlight := [] }
    | none => d)

/-- GET_EVENT_RECORDS (R314, R436): up to `n` records after the position of the physical function's event log. -/
def execGetEventRecords (n : Byte) (s : State) : Out :=
  runDev s (fun _ _ d =>
    if !d.cat.published || (d.proc 0).st == 1 || n == 0 then d
    else
      let r : Reader := (d.cat.reader .pf).getD { port := .pf, pos := 0, acked := 0xFFFFFFFF }
      let (out, next) := d.eventsFor r n.toNat
      (d.setReader { r with pos := next }).onCat (fun c => { c with evOut := out, evTo := .pf, evLast := next == c.evNext }))

/-! ### The end of a restart (R312, R353, R380, R391) -/

/-- PROCESSOR_RESTART_COMPLETE: the processor runs again. Writes that waited for the Curator are served, the Registrar's self-tests have passed, and
a Conservator writes the records its hardware held. -/
def execProcessorRestartComplete (p : ProcId) (s : State) : Out :=
  run s (fun x =>
    let i := p.val
    if (x.dev.proc i).st != 1 || (2 ≤ i && !x.dev.runs (procDie i)) then x
    else
      let x := x.on (fun d => d.setProc i (fun q => { q with st := 0 }))
      let x := match i with
        | 0 =>
          let l := x.dev.cat.waiting
          l.foldl (fun (y : X) (e : Nat × PduHead × List Byte × Option CrateInfo) => y.request e.1 e.2.1 e.2.2.1 e.2.2.2)
            (x.on (fun d => d.onCat (fun c => { c with waiting := [] })))
        | 1 => x.on (fun d => d.onFw (fun f => { f with error := false, approved := Dev.approvedOf f.registrarVersion false }))
        | _ => if 10 ≤ i then x.on (fun d => d.heldRecords (i - 10)) else x
      x.endActivation)

end Sys2Proof.Machine
end

