-- ==== Sys2Proof/Machine/Vector.lean ====
section
/-! DEFINITION. Vector and special-function instructions (R59-R61, R98-R100, R129, R462). -/

namespace Sys2Proof.Machine

/-! ### Results -/

/-- Integer division truncating toward zero; by zero all ones and the dividend (R59). -/
def idiv32 (signed : Bool) (a b : Word) : Word := if b = 0 then 0xFFFFFFFF else if signed then a.sdiv b else a.udiv b
def irem32 (signed : Bool) (a b : Word) : Word := if b = 0 then a else if signed then a.srem b else a.umod b

/-- FP32 comparison; a NaN is unequal to everything. -/
def fcmp32 (c : FCond) (a b : Word) : Bool × Flags :=
  match (val32 a).cmp (val32 b) with
  | none => (c == .ne, sigFlags [a, b] ||| (if Config.cmpInvalid c then flInvalid else 0))
  | some k => (match c with
    | .eq => k == 0 | .ne => k != 0 | .lt => decide (k < 0) | .le => decide (k ≤ 0) | .gt => decide (0 < k) | .ge => decide (0 ≤ k), 0)

/-- A 32-bit integer to FP32. -/
def intToFp (signed : Bool) (mode : RMode) (a : Word) : Word × Flags :=
  if signed then word32 mode (.fin (decide (a.toInt < 0)) a.toInt.natAbs 0) else word32 mode (.fin false a.toNat 0)

/-- An element in the low bits of a register, with its block scale byte, as FP32 (R98). -/
def widen32 (f : Fmt) (mode : RMode) (a scale : Word) : Word × Flags :=
  let x := scale.toNat % 256
  if f.scaled && x == 255 then (qnan, 0)
  else match elemVal f (a.toNat % 2 ^ f.width) with
    | .nan => (qnan, 0)
    | v => word32 (if f.scaled then .rne else mode) (v.scale (if f.scaled then (x : Int) - 127 else 0))

/-- What a V-class operation writes: a word, or a predicate bit for a comparison, and its flags. -/
inductive VRes where
  | word (w : Word) (f : Flags)
  | bit (b : Bool) (f : Flags)
  deriving DecidableEq, Repr

/-- A V-class operation on one thread (R59, R98). -/
def vop (op : VOp) (mode : RMode) (a b c : Word) : VRes :=
  match op with
  | .mov => .word a 0
  | .iadd => .word (a + b) 0
  | .isub => .word (a - b) 0
  | .imul => .word (a * b) 0
  | .idiv s => .word (idiv32 s a b) 0
  | .irem s => .word (irem32 s a b) 0
  | .imin s => .word (if (if s then a.slt b else a.ult b) then a else b) 0
  | .imax s => .word (if (if s then a.slt b else a.ult b) then b else a) 0
  | .and => .word (a &&& b) 0
  | .or => .word (a ||| b) 0
  | .xor => .word (a ^^^ b) 0
  | .not => .word (~~~a) 0
  | .fadd => let (w, f) := fadd32 mode a b; .word w f
  | .fsub => let (w, f) := fadd32 mode a (b ^^^ 0x80000000); .word w f
  | .fmul => let (w, f) := fmul32 mode a b; .word w f
  | .ffma => let (w, f) := ffma32 mode a b c; .word w f
  | .fmin => .word (fminmax32 false a b) (sigFlags [a, b])
  | .fmax => .word (fminmax32 true a b) (sigFlags [a, b])
  | .icmp k => .bit (condHolds k a b) 0
  | .fcmp k => let (r, f) := fcmp32 k a b; .bit r f
  | .i2f s => let (w, f) := intToFp s mode a; .word w f
  | .widen f => let (w, g) := widen32 f mode a b; .word w g

/-- Register operands a V-class operation reads: one, two or three. -/
def vopReads : VOp → Nat
  | .mov | .not | .i2f _ => 1
  | .ffma => 3
  | .widen f => if f.scaled then 2 else 1
  | _ => 2

/-- Whether an operation writes a predicate. -/
def vopPred : VOp → Bool
  | .icmp _ | .fcmp _ => true
  | _ => false

/-- Write a result per active lane, or-ing the flags (R59), and go on. -/
def Group.vwrite (q : Group) (dst : Nat) (m : Mask) (f : Nat → VRes) : Group :=
  let q := (bits m).foldl (fun (h : Group) l =>
    match f l with
    | .word w fl => { h.setReg dst l w with flags := h.flags ||| fl }
    | .bit b fl => { h.setPred dst l b with flags := h.flags ||| fl }) q
  q.next

/-- The retirement check of R61: a mismatch is counted and raises VECTOR_RESIDUE before any consumer reads the result. -/
def X.vecCheck (x : X) (g : GRef) (p : RPath) (ok : Bool) (f : X → X) : X :=
  if ok then f x
  else (x.on (fun d => d.count 0x8010 6 (vitOfCore g.core).toNat)).raise g { code := 0x41, lanes := p.mask, pc := p.pc }

/-- VECTOR_ARITHMETIC (R59, R61, R98): each active lane's result, and the flags it sets. A predicate destination is one of eight registers, and a codebook
code, for which R98 names no table, is no source of a conversion to FP32: ILLEGAL_INSTRUCTION (both DESIGN CHOICE, log 75). -/
def execVectorArithmetic (g : GRef) (op : VOp) (mode : RMode) (dst a b c : Byte) (checkOk : Bool) (s : State) : Out :=
  onGroup s g .v (fun bl q p x =>
    let srcs := [a.toNat, b.toNat, c.toNat].take (vopReads op)
    if (vopPred op && 8 ≤ dst.toNat) || op == .widen .cb4 || op == .widen .cb2 then x.illegal g p
    else x.withRegs g bl p (srcs ++ (if vopPred op then [] else [dst.toNat])) (fun x => x.vecCheck g p checkOk (fun x =>
      x.on (fun d => d.stepGrp g (fun h => h.vwrite dst.toNat p.mask (fun l =>
        vop op mode (q.reg a.toNat l) (q.reg b.toNat l) (q.reg c.toNat l)))))))

/-- A shift of 32 bits (R462). -/
def shift32 (op : ShiftOp) (a amt : Word) : Word :=
  let n := amt.toNat
  match op with
  | .shl => if n < 32 then a <<< n else 0
  | .shr => if n < 32 then a >>> n else 0
  | .sar => if n < 32 then a.sshiftRight n else if a.getLsbD 31 then 0xFFFFFFFF else 0

/-- SHIFT (R61, R462). -/
def execShift (g : GRef) (op : ShiftOp) (dst a amt : Byte) (checkOk : Bool) (s : State) : Out :=
  onGroup s g .v (fun bl q p x => x.withRegs g bl p [a.toNat, amt.toNat, dst.toNat] (fun x => x.vecCheck g p checkOk (fun x =>
    x.on (fun d => d.stepGrp g (fun h => h.vwrite dst.toNat p.mask (fun l => .word (shift32 op (q.reg a.toNat l) (q.reg amt.toNat l)) 0))))))

/-- FP32 to a 32-bit integer (R462). -/
def fpToInt (signed : Bool) (mode : RMode) (a : Word) : Word × Flags :=
  let lo : Int := if signed then -2 ^ 31 else 0
  let hi : Int := if signed then 2 ^ 31 - 1 else 2 ^ 32 - 1
  match val32 a with
  | .nan => (0, flInvalid)
  | .inf neg => (BitVec.ofInt 32 (if neg then lo else hi), flInvalid)
  | .fin neg m e =>
    let (r, inexact) := toQuantum mode neg m e 0
    let i : Int := if neg then -(r : Int) else r
    if i < lo then (BitVec.ofInt 32 lo, flInvalid)
    else if hi < i then (BitVec.ofInt 32 hi, flInvalid)
    else (BitVec.ofInt 32 i, if inexact then flInexact else 0)

/-- FP32_TO_INTEGER_CONVERSION (R61, R462). -/
def execFp32ToIntegerConversion (g : GRef) (signed : Bool) (mode : RMode) (dst src : Byte) (checkOk : Bool) (s : State) : Out :=
  onGroup s g .v (fun bl q p x => x.withRegs g bl p [src.toNat, dst.toNat] (fun x => x.vecCheck g p checkOk (fun x =>
    x.on (fun d => d.stepGrp g (fun h => h.vwrite dst.toNat p.mask (fun l => let (w, f) := fpToInt signed mode (q.reg src.toNat l); .word w f))))))

/-! ### Special functions (R60) -/

/-- An exact result enclosed: lo x 2^q ≤ |result| ≤ hi x 2^q. -/
structure Encl where
  neg : Bool
  lo : Nat
  hi : Nat
  q : Int

/-- 2^(2^-i) x 2^100, rounded down, for i = 1 .. n. -/
def roots (n : Nat) : List Nat :=
  ((List.range n).foldl (fun (s : List Nat × Nat) _ => let r := Nat.sqrt (s.2 * 2 ^ 100); (s.1 ++ [r], r)) ([], 2 * 2 ^ 100)).1

/-- The enclosure of 2^x for x = (-1)^neg m 2^e. -/
def exp2Encl (neg : Bool) (m : Nat) (e : Int) : Encl :=
  -- x in units of 2^-40, rounded down
  let x : Int := (if neg then -(m : Int) else m) * 2 ^ (e + 40).toNat / 2 ^ (-(e + 40)).toNat
  let n := x / 2 ^ 40
  let f := (x % 2 ^ 40).toNat
  let lo := (roots 40).zipIdx.foldl (fun p r => if f / 2 ^ (39 - r.2) % 2 = 1 then p * r.1 / 2 ^ 100 else p) (2 ^ 100)
  { neg := false, lo := lo, hi := lo + lo / 2 ^ 38 + 1024, q := n - 100 }

/-- Whether a word's value lies within `u` ulp of an enclosed result. -/
def withinUlp (w : Word) (r : Encl) (u : Nat) : Bool :=
  match val32 w with
  | .fin neg m e =>
    let t := max ((Nat.log2 r.lo : Int) + r.q - 23) (-149)
    let base := min (min e r.q) t
    let v : Int := (m * 2 ^ (e - base).toNat : Nat)
    let v := if neg != r.neg then -v else v
    let lo : Int := (r.lo * 2 ^ (r.q - base).toNat : Nat)
    let hi : Int := (r.hi * 2 ^ (r.q - base).toNat : Nat)
    let d : Int := (u * 2 ^ (t - base).toNat : Nat)
    decide (lo - d ≤ v) && decide (v ≤ hi + d)
  | _ => false

/-- A special function's result (R60): the unit's own where it lies within the stated error, the nearest value otherwise;
outside the stated domain the unit's own. -/
def sfuVal (fn : SfuOp) (x : Word) : Word :=
  let pick (r : Encl) (u : Nat) : Word :=
    let near := (word32 .rne (.fin r.neg r.lo r.q)).1
    if withinUlp near r u && withinUlp (Config.sfu fn x) r u && !(fn == .exp2 && (Config.sfu fn x) < 0x00800000) then Config.sfu fn x else near
  match fn, val32 x with
  | _, .nan => qnan
  | .exp2, .inf neg => if neg then 0 else 0x7F800000
  | .exp2, .fin neg m e =>
    if FVal.cmp (.fin neg m e) (.fin true 126 0) = some (-1) then 0
    else if FVal.cmp (.fin neg m e) (.fin false 128 0) = some (-1) then pick (exp2Encl neg m e) 2
    else 0x7F800000
  | .rcp, .fin neg m e =>
    if m = 0 then Config.sfu fn x
    else let k := 2 ^ 100 / m; pick { neg, lo := k, hi := k + 1, q := -100 - e } 1
  | .rsqrt, .fin neg m e =>
    if m = 0 || neg then Config.sfu fn x
    else
      let (m, e) := if e % 2 = 0 then (m, e) else (m * 2, e - 1)
      let k := Nat.sqrt (2 ^ 200 / m)
      pick { neg := false, lo := k, hi := k + 2, q := -100 - e / 2 } 2
  | .rsqrt, .inf false => 0
  | _, _ => Config.sfu fn x

/-- SPECIAL_FUNCTION (R60, R61). -/
def execSpecialFunction (g : GRef) (fn : SfuOp) (dst src : Byte) (checkOk : Bool) (s : State) : Out :=
  onGroup s g .s (fun bl q p x => x.withRegs g bl p [src.toNat, dst.toNat] (fun x => x.vecCheck g p checkOk (fun x =>
    x.on (fun d => d.stepGrp g (fun h => h.vwrite dst.toNat p.mask (fun l =>
      .word (sfuVal fn (q.reg src.toNat l)) (Config.sfuFlags fn (q.reg src.toNat l))))))))

/-! ### Narrow formats (R99, R100) -/

/-- The conversion events of a conversion (R112). -/
def Dev.cvtEvents (d : Dev) (v : VitId) (l : List Cvt) : Dev :=
  (d.count 0x8012 5 v.toNat (l.filter (·.sat)).length).count 0x8012 6 v.toNat (l.filter (·.und)).length

/-- CVT (R99). A signaling NaN source sets invalid for every target, beside the flags that R99 names (DESIGN CHOICE, log 75). -/
def execCvt (g : GRef) (target : Target) (mode : RMode) (dst src xs : Byte) (checkOk : Bool) (s : State) : Out :=
  onGroup s g .v (fun bl q p x =>
    if target == .cb4 || target == .cb2 || target == .fp32 then x.illegal g p
    else x.withRegs g bl p [src.toNat, xs.toNat, dst.toNat] (fun x => x.vecCheck g p checkOk (fun x =>
      let r (l : Nat) : Cvt := cvtTo target mode ((val32 (q.reg src.toNat l)).scale (-(q.reg xs.toNat l).toInt))
      let sig (l : Nat) : Flags := sigFlags [q.reg src.toNat l]
      x.on (fun d => (d.cvtEvents (vitOfCore g.core) ((bits p.mask).map r)).stepGrp g (fun h =>
        h.vwrite dst.toNat p.mask (fun l => .word (BitVec.ofNat 32 (r l).code) ((r l).flags ||| sig l)))))))

/-- CVTB (R100): one block of a block-scaled target and its scale byte. -/
def execCvtb (g : GRef) (target : Target) (mode : RMode) (dst src sdst : Byte) (checkOk : Bool) (s : State) : Out :=
  onGroup s g .s (fun bl q p x =>
    if !target.scaled then x.illegal g p
    else x.withRegs g bl p [src.toNat, dst.toNat, sdst.toNat] (fun x => x.vecCheck g p checkOk (fun x =>
      let e := blockScale target ((bits p.mask).map (fun l => val32 (q.reg src.toNat l)))
      let r (l : Nat) : Cvt := cvtTo target mode ((val32 (q.reg src.toNat l)).scale (-e))
      let sig (l : Nat) : Flags := sigFlags [q.reg src.toNat l]
      x.on (fun d => (d.cvtEvents (vitOfCore g.core) ((bits p.mask).map r)).stepGrp g (fun h =>
        let h := h.setLanes sdst.toNat p.mask (fun _ => BitVec.ofInt 32 (e + 127))
        h.vwrite dst.toNat p.mask (fun l => .word (BitVec.ofNat 32 (r l).code) ((r l).flags ||| sig l)))))))

/-! ### Row operations (R129) -/

/-- The widths of a row operation. -/
def rowWidth (w : Nat) : Bool := w == 2 || w == 4 || w == 8 || w == 16 || w == 32

/-- The exact maximum of the active lanes of a run. -/
def rowMax (l : List Word) : Word :=
  if l.any (fun w => val32 w == .nan) then qnan
  else l.foldl (fun m w => fminmax32 true m w) 0xFF800000

/-- The fixed-tree sum of a run: neighbours, then neighbouring pairs, in ascending lane order. -/
def rowSum : Nat → List Word → Word × Flags
  | 0, l => (l.headD 0, 0)
  | n + 1, l =>
    let h := 2 ^ n
    let (a, f) := rowSum n (l.take h)
    let (b, k) := rowSum n (l.drop h)
    let (w, e) := fadd32 .rne a b
    (w, f ||| k ||| e)

/-- ROWMAX (R129). -/
def execRowmax (g : GRef) (w : BitVec 6) (dst src : Byte) (checkOk : Bool) (s : State) : Out :=
  onGroup s g .s (fun bl q p x =>
    if !rowWidth w.toNat then x.illegal g p
    else x.withRegs g bl p [src.toNat, dst.toNat] (fun x => x.vecCheck g p checkOk (fun x =>
      let n := w.toNat
      let r (l : Nat) : Word := rowMax (((bits p.mask).filter (fun k => k / n == l / n)).map (fun k => q.reg src.toNat k))
      x.on (fun d => d.stepGrp g (fun h => h.vwrite dst.toNat p.mask (fun l => .word (r l) 0))))))

/-- ROWSUM (R129): inactive lanes count as +0. -/
def execRowsum (g : GRef) (w : BitVec 6) (dst src : Byte) (checkOk : Bool) (s : State) : Out :=
  onGroup s g .s (fun bl q p x =>
    if !rowWidth w.toNat then x.illegal g p
    else x.withRegs g bl p [src.toNat, dst.toNat] (fun x => x.vecCheck g p checkOk (fun x =>
      let n := w.toNat
      let v (k : Nat) : Word := if p.mask.getLsbD k then q.reg src.toNat k else 0
      let r (l : Nat) : Word × Flags := rowSum (Nat.log2 n) ((List.range n).map (fun i => v (l / n * n + i)))
      x.on (fun d => d.stepGrp g (fun h => h.vwrite dst.toNat p.mask (fun l => .word (r l).1 (r l).2))))))

end Sys2Proof.Machine
end

