-- ==== Sys2Proof/Machine/Dispatch.lean ====
section
/-! DEFINITION. The meaning of every command: one arm per constructor of Instr, each one direct call. -/

namespace Sys2Proof.Machine

def exec (i : Instr) (s : State) : Host.Outcome State Fault Refusal :=
  match i with
  | .launchDispatch v => Sys2Proof.Machine.execLaunchDispatch v s
  | .blockDispatch v => Sys2Proof.Machine.execBlockDispatch v s
  | .blockRetire c unit => Sys2Proof.Machine.execBlockRetire c unit s
  | .issueCycle c views => Sys2Proof.Machine.execIssueCycle c views s
  | .vectorArithmetic g op mode dst a b c checkOk => Sys2Proof.Machine.execVectorArithmetic g op mode dst a b c checkOk s
  | .shift g op dst a amt checkOk => Sys2Proof.Machine.execShift g op dst a amt checkOk s
  | .fp32ToIntegerConversion g signed mode dst src checkOk => Sys2Proof.Machine.execFp32ToIntegerConversion g signed mode dst src checkOk s
  | .specialFunction g fn dst src checkOk => Sys2Proof.Machine.execSpecialFunction g fn dst src checkOk s
  | .clrf g => Sys2Proof.Machine.execClrf g s
  | .getsr g dst sr => Sys2Proof.Machine.execGetsr g dst sr s
  | .exit g => Sys2Proof.Machine.execExit g s
  | .brx g pred neg target joinAt => Sys2Proof.Machine.execBrx g pred neg target joinAt s
  | .bri g ra joinAt => Sys2Proof.Machine.execBri g ra joinAt s
  | .join g at' => Sys2Proof.Machine.execJoin g at' s
  | .wait g cond space ra rv rt => Sys2Proof.Machine.execWait g cond space ra rv rt s
  | .waitRetest g lane => Sys2Proof.Machine.execWaitRetest g lane s
  | .waitTimeout g lane => Sys2Proof.Machine.execWaitTimeout g lane s
  | .barG g => Sys2Proof.Machine.execBarG g s
  | .barB g id => Sys2Proof.Machine.execBarB g id s
  | .barrierWatchdog g blockBar => Sys2Proof.Machine.execBarrierWatchdog g blockBar s
  | .trap g code => Sys2Proof.Machine.execTrap g code s
  | .blockSwap c => Sys2Proof.Machine.execBlockSwap c s
  | .swapComplete c => Sys2Proof.Machine.execSwapComplete c s
  | .load g space size dst ra imm => Sys2Proof.Machine.execLoad g space size dst ra imm s
  | .loadDataReturn g op upset => Sys2Proof.Machine.execLoadDataReturn g op upset s
  | .store g space size ra imm src => Sys2Proof.Machine.execStore g space size ra imm src s
  | .atomic g space op wide dst ra imm val cmp => Sys2Proof.Machine.execAtomic g space op wide dst ra imm val cmp s
  | .red g space op ra imm src => Sys2Proof.Machine.execRed g space op ra imm src s
  | .cvt g target mode dst src xs checkOk => Sys2Proof.Machine.execCvt g target mode dst src xs checkOk s
  | .cvtb g target mode dst src sdst checkOk => Sys2Proof.Machine.execCvtb g target mode dst src sdst checkOk s
  | .rowmax g w dst src checkOk => Sys2Proof.Machine.execRowmax g w dst src checkOk s
  | .rowsum g w dst src checkOk => Sys2Proof.Machine.execRowsum g w dst src checkOk s
  | .fenceC g => Sys2Proof.Machine.execFenceC g s
  | .fenceD g => Sys2Proof.Machine.execFenceD g s
  | .fenceF g => Sys2Proof.Machine.execFenceF g s
  | .fenceComplete g => Sys2Proof.Machine.execFenceComplete g s
  | .mxOpen g a => Sys2Proof.Machine.execMxOpen g a s
  | .mxLdacc g a fmt => Sys2Proof.Machine.execMxLdacc g a fmt s
  | .mxMma g a rc => Sys2Proof.Machine.execMxMma g a rc s
  | .mxStore g a rs => Sys2Proof.Machine.execMxStore g a rs s
  | .mxClose g a => Sys2Proof.Machine.execMxClose g a s
  | .mxWait g n => Sys2Proof.Machine.execMxWait g n s
  | .mxRdacc g dst rsel => Sys2Proof.Machine.execMxRdacc g dst rsel s
  | .engineInstructionStart c => Sys2Proof.Machine.execEngineInstructionStart c s
  | .mmaIntervalCheck c found => Sys2Proof.Machine.execMmaIntervalCheck c found s
  | .escalatedRunStart c => Sys2Proof.Machine.execEscalatedRunStart c s
  | .bankUpdate c found => Sys2Proof.Machine.execBankUpdate c found s
  | .storeTransferStart c => Sys2Proof.Machine.execStoreTransferStart c s
  | .storeTransferDone c => Sys2Proof.Machine.execStoreTransferDone c s
  | .rampWave d => Sys2Proof.Machine.execRampWave d s
  | .rampIdleExpiry c => Sys2Proof.Machine.execRampIdleExpiry c s
  | .arrayCurrentLimit c milliAmp => Sys2Proof.Machine.execArrayCurrentLimit c milliAmp s
  | .arrayCeilingRelease c => Sys2Proof.Machine.execArrayCeilingRelease c s
  | .wkArm g w space ra => Sys2Proof.Machine.execWkArm g w space ra s
  | .wkMark g w => Sys2Proof.Machine.execWkMark g w s
  | .wkRewind g w => Sys2Proof.Machine.execWkRewind g w s
  | .wkSkip g w rn => Sys2Proof.Machine.execWkSkip g w rn s
  | .wkSign g rk => Sys2Proof.Machine.execWkSign g rk s
  | .wkSignDone c poison => Sys2Proof.Machine.execWkSignDone c poison s
  | .pvInval g rt => Sys2Proof.Machine.execPvInval g rt s
  | .walkerFetch c w => Sys2Proof.Machine.execWalkerFetch c w s
  | .segmentPresent c w => Sys2Proof.Machine.execSegmentPresent c w s
  | .walkerFault c w poison at' => Sys2Proof.Machine.execWalkerFault c w poison at' s
  | .walkerOWrite c => Sys2Proof.Machine.execWalkerOWrite c s
  | .tileFlagWrite c => Sys2Proof.Machine.execTileFlagWrite c s
  | .pvLookup c => Sys2Proof.Machine.execPvLookup c s
  | .pvInsert c => Sys2Proof.Machine.execPvInsert c s
  | .pvVerify c => Sys2Proof.Machine.execPvVerify c s
  | .hbmRequestAccept ch write a data by' => Sys2Proof.Machine.execHbmRequestAccept ch write a data by' s
  | .hbmSchedule ch pc => Sys2Proof.Machine.execHbmSchedule ch pc s
  | .hbmBurstRead ch a err => Sys2Proof.Machine.execHbmBurstRead ch a err s
  | .hbmRmw ch a mask data ops err => Sys2Proof.Machine.execHbmRmw ch a mask data ops err s
  | .hbmRefresh ch pc openHits => Sys2Proof.Machine.execHbmRefresh ch pc openHits s
  | .stackTempRead k temp => Sys2Proof.Machine.execStackTempRead k temp s
  | .hbmCalibration ch pc => Sys2Proof.Machine.execHbmCalibration ch pc s
  | .ondieCountRead d c0 c1 c2 c3 => Sys2Proof.Machine.execOndieCountRead d c0 c1 c2 c3 s
  | .hbmScrub ch err => Sys2Proof.Machine.execHbmScrub ch err s
  | .rowRetire ch pc bank row => Sys2Proof.Machine.execRowRetire ch pc bank row s
  | .rowOffline ch pc bank row whole => Sys2Proof.Machine.execRowOffline ch pc bank row whole s
  | .gets a c => Sys2Proof.Machine.execGets a c s
  | .getm a c => Sys2Proof.Machine.execGetm a c s
  | .rdu a p => Sys2Proof.Machine.execRdu a p s
  | .wru a p mask data hint => Sys2Proof.Machine.execWru a p mask data hint s
  | .atomred a c ops returns => Sys2Proof.Machine.execAtomred a c ops returns s
  | .hostMemrd a m inStream => Sys2Proof.Machine.execHostMemrd a m inStream s
  | .hostMemwr a mask data inStream => Sys2Proof.Machine.execHostMemwr a mask data inStream s
  | .evict a wb => Sys2Proof.Machine.execEvict a wb s
  | .flush a => Sys2Proof.Machine.execFlush a s
  | .pute a c => Sys2Proof.Machine.execPute a c s
  | .putm a c data => Sys2Proof.Machine.execPutm a c data s
  | .invack a c => Sys2Proof.Machine.execInvack a c s
  | .rspdata a c data => Sys2Proof.Machine.execRspdata a c data s
  | .rspnodata a c => Sys2Proof.Machine.execRspnodata a c s
  | .birsp a shared => Sys2Proof.Machine.execBirsp a shared s
  | .hbmFillData a poison => Sys2Proof.Machine.execHbmFillData a poison s
  | .datas c a data poison => Sys2Proof.Machine.execDatas c a data poison s
  | .datae c a data poison => Sys2Proof.Machine.execDatae c a data poison s
  | .datau c a data poison => Sys2Proof.Machine.execDatau c a data poison s
  | .datam c a data poison => Sys2Proof.Machine.execDatam c a data poison s
  | .grantm c a => Sys2Proof.Machine.execGrantm c a s
  | .noalloc c a => Sys2Proof.Machine.execNoalloc c a s
  | .inv c a => Sys2Proof.Machine.execInv c a s
  | .recalls c a => Sys2Proof.Machine.execRecalls c a s
  | .recalli c a => Sys2Proof.Machine.execRecalli c a s
  | .putack c a => Sys2Proof.Machine.execPutack c a s
  | .h2dSnoop a => Sys2Proof.Machine.execH2dSnoop a s
  | .sliceOpApply sl => Sys2Proof.Machine.execSliceOpApply sl s
  | .streamEntryExpiry sl p k => Sys2Proof.Machine.execStreamEntryExpiry sl p k s
  | .gcPrefetch g dst ra rl => Sys2Proof.Machine.execGcPrefetch g dst ra rl s
  | .gcFlush g dst ra rl => Sys2Proof.Machine.execGcFlush g dst ra rl s
  | .gcInval g wb dst ra rl => Sys2Proof.Machine.execGcInval g wb dst ra rl s
  | .gcPin g dst ra rl => Sys2Proof.Machine.execGcPin g dst ra rl s
  | .gcUnpin g dst ra rl => Sys2Proof.Machine.execGcUnpin g dst ra rl s
  | .gcRangeDone id => Sys2Proof.Machine.execGcRangeDone id s
  | .galleryScratchStepsWrite rq v steps => Sys2Proof.Machine.execGalleryScratchStepsWrite rq v steps s
  | .sliceChangePoint sl => Sys2Proof.Machine.execSliceChangePoint sl s
  | .thrashEvaluation v => Sys2Proof.Machine.execThrashEvaluation v s
  | .galleryScrub sl found tagBad => Sys2Proof.Machine.execGalleryScrub sl found tagBad s
  | .flitCrcReplay d seam v => Sys2Proof.Machine.execFlitCrcReplay d seam v s
  | .seamLaneSubstitute unit lane => Sys2Proof.Machine.execSeamLaneSubstitute unit lane s
  | .dieLinkFrame dir f => Sys2Proof.Machine.execDieLinkFrame dir f s
  | .dieLinkRetrain dir => Sys2Proof.Machine.execDieLinkRetrain dir s
  | .dieLinkRetrainDone dir bad => Sys2Proof.Machine.execDieLinkRetrainDone dir bad s
  | .dieLinkPeerLost dir => Sys2Proof.Machine.execDieLinkPeerLost dir s
  | .controlMessage toAtrium d => Sys2Proof.Machine.execControlMessage toAtrium d s
  | .portIssue v p => Sys2Proof.Machine.execPortIssue v p s
  | .tokenReturn v p => Sys2Proof.Machine.execTokenReturn v p s
  | .regWindowEnd v m => Sys2Proof.Machine.execRegWindowEnd v m s
  | .mediaResponse v slack => Sys2Proof.Machine.execMediaResponse v slack s
  | .regMissStatusWrite rq v val => Sys2Proof.Machine.execRegMissStatusWrite rq v val s
  | .fabricFrameReceive l f => Sys2Proof.Machine.execFabricFrameReceive l f s
  | .fabricPeerLost l => Sys2Proof.Machine.execFabricPeerLost l s
  | .linkTrainingDone l peer peerLink failedStep => Sys2Proof.Machine.execLinkTrainingDone l peer peerLink failedStep s
  | .digestExchange l peer => Sys2Proof.Machine.execDigestExchange l peer s
  | .rput g rdev rra space rla rlen => Sys2Proof.Machine.execRput g rdev rra space rla rlen s
  | .rget g rdev rra space rla rlen => Sys2Proof.Machine.execRget g rdev rra space rla rlen s
  | .ratom g op wide dst rdev rra rval rcmp => Sys2Proof.Machine.execRatom g op wide dst rdev rra rval rcmp s
  | .rred g op rdev rra rval => Sys2Proof.Machine.execRred g op rdev rra rval s
  | .remoteOpArrival l op => Sys2Proof.Machine.execRemoteOpArrival l op s
  | .remoteAck l op => Sys2Proof.Machine.execRemoteAck l op s
  | .remoteRetryExpiry v dest tag => Sys2Proof.Machine.execRemoteRetryExpiry v dest tag s
  | .remoteTimeout v dest tag => Sys2Proof.Machine.execRemoteTimeout v dest tag s
  | .transitForward l op => Sys2Proof.Machine.execTransitForward l op s
  | .transitDiscard l tag => Sys2Proof.Machine.execTransitDiscard l tag s
  | .paceSend v => Sys2Proof.Machine.execPaceSend v s
  | .paceReceive op => Sys2Proof.Machine.execPaceReceive op s
  | .pair p => Sys2Proof.Machine.execPair p s
  | .commit op => Sys2Proof.Machine.execCommit op s
  | .takeover op => Sys2Proof.Machine.execTakeover op s
  | .takeoverVitrines rq mask => Sys2Proof.Machine.execTakeoverVitrines rq mask s
  | .remoteTimeoutOverride rq v val => Sys2Proof.Machine.execRemoteTimeoutOverride rq v val s
  | .linkAdmin rq l val => Sys2Proof.Machine.execLinkAdmin rq l val s
  | .tenancyAssign rq mask => Sys2Proof.Machine.execTenancyAssign rq mask s
  | .clearingDone v => Sys2Proof.Machine.execClearingDone v s
  | .sqTail v r val => Sys2Proof.Machine.execSqTail v r val s
  | .cqHead v r val => Sys2Proof.Machine.execCqHead v r val s
  | .ringConfig rq v r row => Sys2Proof.Machine.execRingConfig rq v r row s
  | .ringDisableDone v r => Sys2Proof.Machine.execRingDisableDone v r s
  | .descriptorFetch v r => Sys2Proof.Machine.execDescriptorFetch v r s
  | .stepStart leader => Sys2Proof.Machine.execStepStart leader s
  | .stepEnd leader seq => Sys2Proof.Machine.execStepEnd leader seq s
  | .stepTimeLimit leader seq => Sys2Proof.Machine.execStepTimeLimit leader seq s
  | .stepSafePoint leader seq => Sys2Proof.Machine.execStepSafePoint leader seq s
  | .stepSaveDone leader seq => Sys2Proof.Machine.execStepSaveDone leader seq s
  | .stepRestoreDone leader seq => Sys2Proof.Machine.execStepRestoreDone leader seq s
  | .copy v r seq => Sys2Proof.Machine.execCopy v r seq s
  | .fill v r seq => Sys2Proof.Machine.execFill v r seq s
  | .dmaRput v r seq => Sys2Proof.Machine.execDmaRput v r seq s
  | .dmaRget v r seq => Sys2Proof.Machine.execDmaRget v r seq s
  | .gallery v r seq => Sys2Proof.Machine.execGallery v r seq s
  | .dmaTransferDone v r seq => Sys2Proof.Machine.execDmaTransferDone v r seq s
  | .encodeAv1 v r seq => Sys2Proof.Machine.execEncodeAv1 v r seq s
  | .encodeHevc v r seq => Sys2Proof.Machine.execEncodeHevc v r seq s
  | .decodeAv1 v r seq profileOk => Sys2Proof.Machine.execDecodeAv1 v r seq profileOk s
  | .decodeHevc v r seq profileOk => Sys2Proof.Machine.execDecodeHevc v r seq profileOk s
  | .mediaFrameBoundary e bytes poison => Sys2Proof.Machine.execMediaFrameBoundary e bytes poison s
  | .mediaAdmin rq e val => Sys2Proof.Machine.execMediaAdmin rq e val s
  | .ckptCopyDone leader seq => Sys2Proof.Machine.execCkptCopyDone leader seq s
  | .restore v r seq => Sys2Proof.Machine.execRestore v r seq s
  | .tenancyDeaccession rq leader squash => Sys2Proof.Machine.execTenancyDeaccession rq leader squash s
  | .freezeSafe rq leader => Sys2Proof.Machine.execFreezeSafe rq leader s
  | .freezeBoundary rq leader => Sys2Proof.Machine.execFreezeBoundary rq leader s
  | .freezeDone leader => Sys2Proof.Machine.execFreezeDone leader s
  | .save rq leader memory buf => Sys2Proof.Machine.execSave rq leader memory buf s
  | .crateRestore rq leader crate buf => Sys2Proof.Machine.execCrateRestore rq leader crate buf s
  | .thaw rq leader => Sys2Proof.Machine.execThaw rq leader s
  | .read h => Sys2Proof.Machine.execRead h s
  | .write h data => Sys2Proof.Machine.execWrite h data s
  | .writeBegin h => Sys2Proof.Machine.execWriteBegin h s
  | .writeSegment h data => Sys2Proof.Machine.execWriteSegment h data s
  | .writeCommit h => Sys2Proof.Machine.execWriteCommit h s
  | .writeAbort h => Sys2Proof.Machine.execWriteAbort h s
  | .transactionTimeout port => Sys2Proof.Machine.execTransactionTimeout port s
  | .session h req tagOk => Sys2Proof.Machine.execSession h req tagOk s
  | .sessionEnd h => Sys2Proof.Machine.execSessionEnd h s
  | .sessionIdleTimeout id => Sys2Proof.Machine.execSessionIdleTimeout id s
  | .eventSubscribe h start => Sys2Proof.Machine.execEventSubscribe h start s
  | .event port => Sys2Proof.Machine.execEvent port s
  | .eventResend port => Sys2Proof.Machine.execEventResend port s
  | .eventAck h upTo => Sys2Proof.Machine.execEventAck h upTo s
  | .discover h => Sys2Proof.Machine.execDiscover h s
  | .describe h => Sys2Proof.Machine.execDescribe h s
  | .catalogue fn opcode h data => Sys2Proof.Machine.execCatalogue fn opcode h data s
  | .getEventRecords n => Sys2Proof.Machine.execGetEventRecords n s
  | .deviceReady rq val => Sys2Proof.Machine.execDeviceReady rq val s
  | .powerControlInterval d rd => Sys2Proof.Machine.execPowerControlInterval d rd s
  | .pstateChange d p => Sys2Proof.Machine.execPstateChange d p s
  | .pstateSwitchDone d => Sys2Proof.Machine.execPstateSwitchDone d s
  | .powerBudgetTick ext atrium => Sys2Proof.Machine.execPowerBudgetTick ext atrium s
  | .dieBudget d capMw extMw => Sys2Proof.Machine.execDieBudget d capMw extMw s
  | .dieReport d => Sys2Proof.Machine.execDieReport d s
  | .clockLoss dom => Sys2Proof.Machine.execClockLoss dom s
  | .dieTempLimit d temp => Sys2Proof.Machine.execDieTempLimit d temp s
  | .railOvervoltage d milliVolt persists => Sys2Proof.Machine.execRailOvervoltage d milliVolt persists s
  | .inputUndervoltage milliVolt => Sys2Proof.Machine.execInputUndervoltage milliVolt s
  | .powerFail milliVolt pwrOkFell => Sys2Proof.Machine.execPowerFail milliVolt pwrOkFell s
  | .regulatorAlert seg words => Sys2Proof.Machine.execRegulatorAlert seg words s
  | .regulatorStatusPoll seg words released => Sys2Proof.Machine.execRegulatorStatusPoll seg words released s
  | .regulatorSilent d => Sys2Proof.Machine.execRegulatorSilent d s
  | .hardLimitExit d => Sys2Proof.Machine.execHardLimitExit d s
  | .fwActivationResumed => Sys2Proof.Machine.execFwActivationResumed s
  | .marginCheck d short => Sys2Proof.Machine.execMarginCheck d short s
  | .powerClass rq v val => Sys2Proof.Machine.execPowerClass rq v val s
  | .profileSelect rq val => Sys2Proof.Machine.execProfileSelect rq val s
  | .repairDone leader failedSlots => Sys2Proof.Machine.execRepairDone leader failedSlots s
  | .sramScrub d store unit upset => Sys2Proof.Machine.execSramScrub d store unit upset s
  | .dieFence d cause => Sys2Proof.Machine.execDieFence d cause s
  | .dieRejoin d => Sys2Proof.Machine.execDieRejoin d s
  | .dieRejoined d found => Sys2Proof.Machine.execDieRejoined d found s
  | .deviceFault => Sys2Proof.Machine.execDeviceFault s
  | .waySubstitute sl way => Sys2Proof.Machine.execWaySubstitute sl way s
  | .laserCheck lg failed => Sys2Proof.Machine.execLaserCheck lg failed s
  | .bistCore rq target nonce => Sys2Proof.Machine.execBistCore rq target nonce s
  | .bistClusterMemory rq target nonce => Sys2Proof.Machine.execBistClusterMemory rq target nonce s
  | .bistSlice rq target nonce => Sys2Proof.Machine.execBistSlice rq target nonce s
  | .bistDieLinkLane rq target nonce => Sys2Proof.Machine.execBistDieLinkLane rq target nonce s
  | .bistSeamLane rq target nonce => Sys2Proof.Machine.execBistSeamLane rq target nonce s
  | .bistLaserGroup rq target nonce => Sys2Proof.Machine.execBistLaserGroup rq target nonce s
  | .bistDieQuick rq target nonce => Sys2Proof.Machine.execBistDieQuick rq target nonce s
  | .bistDeviceQuick rq target nonce => Sys2Proof.Machine.execBistDeviceQuick rq target nonce s
  | .bistDeviceFull rq target nonce => Sys2Proof.Machine.execBistDeviceFull rq target nonce s
  | .bistSlotSwap v => Sys2Proof.Machine.execBistSlotSwap v s
  | .bistDone row entries aborted => Sys2Proof.Machine.execBistDone row entries aborted s
  | .recordSeal rq val => Sys2Proof.Machine.execRecordSeal rq val s
  | .recordSealDone => Sys2Proof.Machine.execRecordSealDone s
  | .firmwareRestarted p cause digestOk => Sys2Proof.Machine.execFirmwareRestarted p cause digestOk s
  | .loadSegment target offset data => Sys2Proof.Machine.execLoadSegment target offset data s
  | .loadEnd driverIf bundleLen recordLen => Sys2Proof.Machine.execLoadEnd driverIf bundleLen recordLen s
  | .startStatus => Sys2Proof.Machine.execStartStatus s
  | .startVerifyDone bundle record => Sys2Proof.Machine.execStartVerifyDone bundle record s
  | .startupStepDone res => Sys2Proof.Machine.execStartupStepDone res s
  | .fwStage userTag src len bundle => Sys2Proof.Machine.execFwStage userTag src len bundle s
  | .fwActivate userTag => Sys2Proof.Machine.execFwActivate userTag s
  | .docentActivationRestart d => Sys2Proof.Machine.execDocentActivationRestart d s
  | .recordFetch userTag dst => Sys2Proof.Machine.execRecordFetch userTag dst s
  | .logFetch userTag dst => Sys2Proof.Machine.execLogFetch userTag dst s
  | .svnCommit rq val => Sys2Proof.Machine.execSvnCommit rq val s
  | .zeroize rq val => Sys2Proof.Machine.execZeroize rq val s
  | .selfTestFailed test afterRestart => Sys2Proof.Machine.execSelfTestFailed test afterRestart s
  | .spdmMessage port req => Sys2Proof.Machine.execSpdmMessage port req s
  | .tspLock v => Sys2Proof.Machine.execTspLock v s
  | .linkKeyRatchet l tx => Sys2Proof.Machine.execLinkKeyRatchet l tx s
  | .linkAuthRetry l => Sys2Proof.Machine.execLinkAuthRetry l s
  | .stop rq => Sys2Proof.Machine.execStop rq s
  | .stopLand => Sys2Proof.Machine.execStopLand s
  | .stopArrival d => Sys2Proof.Machine.execStopArrival d s
  | .stopMark dir => Sys2Proof.Machine.execStopMark dir s
  | .resume rq => Sys2Proof.Machine.execResume rq s
  | .resumeArrival d => Sys2Proof.Machine.execResumeArrival d s
  | .scanoutCommand rq sections dies buf => Sys2Proof.Machine.execScanoutCommand rq sections dies buf s
  | .scanCommand rq v sections buf => Sys2Proof.Machine.execScanCommand rq v sections buf s
  | .scanoutDone ok => Sys2Proof.Machine.execScanoutDone ok s
  | .vitrineHalt rq v => Sys2Proof.Machine.execVitrineHalt rq v s
  | .vitrineHalted leader => Sys2Proof.Machine.execVitrineHalted leader s
  | .vitrineResumed rq v => Sys2Proof.Machine.execVitrineResumed rq v s
  | .watchpoints rq v row val => Sys2Proof.Machine.execWatchpoints rq v row val s
  | .traceControl rq v val => Sys2Proof.Machine.execTraceControl rq v val s
  | .traceTriggered v => Sys2Proof.Machine.execTraceTriggered v s
  | .markerCommand rq val => Sys2Proof.Machine.execMarkerCommand rq val s
  | .markerIntervalTick => Sys2Proof.Machine.execMarkerIntervalTick s
  | .mark d => Sys2Proof.Machine.execMark d s
  | .perstNAssert => Sys2Proof.Machine.execPerstNAssert s
  | .perstNRise straps => Sys2Proof.Machine.execPerstNRise straps s
  | .pwrOkRise => Sys2Proof.Machine.execPwrOkRise s
  | .pfFlr => Sys2Proof.Machine.execPfFlr s
  | .vfFlr v => Sys2Proof.Machine.execVfFlr v s
  | .hdmDecoderCommit k base size ways => Sys2Proof.Machine.execHdmDecoderCommit k base size ways s
  | .processorRestartComplete p => Sys2Proof.Machine.execProcessorRestartComplete p s
  | .plinth12vRecovery => Sys2Proof.Machine.execPlinth12vRecovery s
  | .paceLatestStateSend v => Sys2Proof.Machine.execPaceLatestStateSend v s
  | .frameLockLoss l => Sys2Proof.Machine.execFrameLockLoss l s
  | .powerOnHours => Sys2Proof.Machine.execPowerOnHours s

end Sys2Proof.Machine
end

