-- ==== Sys2Proof/Machine/Ticks.lean ====
section
/-! DEFINITION. What happens while no command waits (log 2): one cycle of the package reference, 100 MHz, with the root clocks of the dies that run
(R8, R323). -/

namespace Sys2Proof.Machine

/-- A running die's clocks over one reference cycle: 66 root cycles, and the core cycles its divider makes of them. -/
def Dev.tickDie (d : Dev) (i : Nat) : Dev :=
  let k := d.die i
  if !k.running then d
  else
    let n := k.rem + 66
    let dv := max 1 k.div
    (d.advance i (k.core + n / dv) (k.root + 66)).setDie i (fun k => { k with rem := n % dv })

/-- One reference cycle. -/
def Dev.tick (d : Dev) : Dev := (List.range 8).foldl Dev.tickDie (d.advanceRef (d.ref + 1))

end Sys2Proof.Machine
end

