-- ==== Sys2Proof/Safety.lean ====
section
/-! DEFINITION. The terms the statements are made in: what every run keeps, what a command's answer leaves as it was, and when a thread
group's instruction goes ahead. -/

namespace Sys2Proof.Machine

/-- The bytes of memory stand in their canonical form. -/
def State.Canonical (s : State) : Prop := Memory.wf s.mem = true

/-- The MRAM of `t` is no older than that of `m`: floors and retirement counters have not fallen, no key's revocation is gone, and the key digests
and the self-check are as they were (R385). -/
def Mram.NoOlder (m t : Mram) : Prop :=
  m.svnFloor ≤ t.svnFloor ∧ m.recordSeqFloor ≤ t.recordSeqFloor ∧ (∀ k, m.keysRevoked.getLsbD k = true → t.keysRevoked.getLsbD k = true) ∧
  (∀ k, kget 0 m.retire k ≤ kget 0 t.retire k) ∧ t.keyDigests = m.keyDigests ∧ t.checkOk = m.checkOk

/-- The command is answered with a next state, and `P` holds of that state. -/
def Completes (i : Instr) (s : State) (P : State → Prop) : Prop := ∃ t, exec i s = .next t ∧ P t

/-- The parts of the machine that a frame speaks of. -/
inductive Part where
  | mram | mem | ref | clk | cat | cnt | vits | cores | clus | gal | msgs | mesh | srv | fab | hbm | net | host | rel | fw | pow | dbg | fresh
  deriving DecidableEq, Repr

/-- One part is the same in two states. -/
def Part.Same (s t : State) : Part → Prop
  | .mram => t.mram = s.mram
  | .mem => t.mem = s.mem
  | .ref => t.dev.ref = s.dev.ref
  | .clk => t.dev.clk = s.dev.clk
  | .cat => t.dev.cat = s.dev.cat
  | .cnt => t.dev.cnt = s.dev.cnt
  | .vits => t.dev.vits = s.dev.vits
  | .cores => t.dev.cores = s.dev.cores
  | .clus => t.dev.clus = s.dev.clus
  | .gal => t.dev.gal = s.dev.gal
  | .msgs => t.dev.msgs = s.dev.msgs
  | .mesh => t.dev.mesh = s.dev.mesh
  | .srv => t.dev.srv = s.dev.srv
  | .fab => t.dev.fab = s.dev.fab
  | .hbm => t.dev.hbm = s.dev.hbm
  | .net => t.dev.net = s.dev.net
  | .host => t.dev.host = s.dev.host
  | .rel => t.dev.rel = s.dev.rel
  | .fw => t.dev.fw = s.dev.fw
  | .pow => t.dev.pow = s.dev.pow
  | .dbg => t.dev.dbg = s.dev.dbg
  | .fresh => t.dev.fresh = s.dev.fresh

/-- The queue and every part but those listed are the same in two states: the frame of a command that changes only these. -/
def Keeps (but : List Part) (s t : State) : Prop := t.pending = s.pending ∧ ∀ p, p ∉ but → p.Same s t

/-- The group a command names, as it stands. -/
def Dev.groupOf (d : Dev) (g : GRef) : Group := ((d.grp g).map (·.2)).getD {}

/-- A group without a running path is not in the active set. -/
def Group.settled (q : Group) : Group := if q.done || q.paths.isEmpty then { q with active := false } else q

/-- The group may issue an instruction of the class (R42), it is group `q` of block `b`, `p` is its running path, and the registers it reads stand without
an upset (R61). -/
def Dev.Issues (d : Dev) (g : GRef) (cls : IClass) (b : Block) (q : Group) (p : RPath) : Prop :=
  d.canIssue g cls = true ∧ d.grp g = some (b, q) ∧ q.paths.head? = some p ∧ (d.slotOf g).map (·.upset) = some .none

/-- The registers named are below the block's r (R62) and await nothing (R45). -/
def Ready (b : Block) (q : Group) (l : List Nat) : Prop := (∀ r ∈ l, r < b.launch.r) ∧ ∀ r ∈ q.busyRegs, r.toNat ∉ l

/-- The group of an issue view may take an issue slot this cycle (R42-R44): it has threads to run, its next instruction is ready, it has stood in the active
set for two cycles and its unit is free. -/
def Dev.MayTake (d : Dev) (c : CoreId) (w : IssueView) : Prop :=
  d.mayRun c w = true ∧ w.ready = true ∧ d.inActive c w = true ∧ d.unitFree c w.cls = true ∧
  ∃ e, d.grp (viewRef c w) = some e ∧ e.2.entered + 2 ≤ d.cycOf c

/-- Between two states only a group's own state has changed, but for the blocked time and the active set of its block (R52) and its core's issue slots and
units (R43, R44): every other part, core and block slot is as it was. -/
def OnlyGroup (g : GRef) (s t : State) : Prop :=
  Keeps [.cores] s t ∧ (∀ c, c ≠ g.core → t.dev.core c = s.dev.core c) ∧
  (∀ k, k ≠ g.slot.toNat → t.dev.blk g.core k = s.dev.blk g.core k)

/-- As `OnlyGroup`, but that counters may have counted the instruction. -/
def CountedGroup (g : GRef) (s t : State) : Prop :=
  Keeps [.cores, .cnt] s t ∧ (∀ c, c ≠ g.core → t.dev.core c = s.dev.core c) ∧
  (∀ k, k ≠ g.slot.toNat → t.dev.blk g.core k = s.dev.blk g.core k)

/-- A vector instruction has written word `w l` to register `dst` of every lane l of its path, or-ed the lanes' flags into the sticky flags and
gone on to the next instruction; every other register, predicate and part of the group is as it was, but that a group whose threads have all exited leaves the
active set. -/
def Wrote (q h : Group) (p : RPath) (dst : Nat) (w : Nat → Word) (fl : Nat → Flags) : Prop :=
  (∀ r l, l < 32 → h.reg r l = if r = dst ∧ p.mask.getLsbD l = true then w l else q.reg r l) ∧
  h.flags = (bits p.mask).foldl (fun f l => f ||| fl l) q.flags ∧
  h = { q with regs := h.regs, flags := h.flags, paths := { p with pc := Config.pcNext p.pc } :: q.paths.tail, active := h.active }

/-- The group has only gone on to its next instruction. -/
def WentOn (q h : Group) (p : RPath) : Prop :=
  h = { q with paths := { p with pc := Config.pcNext p.pc } :: q.paths.tail, active := h.active }

/-- A class P exception of code `code` stands recorded for the core as its first of the step (R65), and its step has met the ending EXCEPTION and
is squashed (R63): the core's blocks are gone. -/
def Squashed (g : GRef) (b : Block) (p : RPath) (code detail : Nat) (s t : State) : Prop :=
  (∃ r, (t.dev.core g.core).exc = some r ∧ r.code = BitVec.ofNat 8 code ∧ r.detail = BitVec.ofNat 16 detail ∧ r.lanes = p.mask ∧ r.pc = p.pc ∧
    r.core = g.core ∧ r.block = BitVec.ofNat 32 b.index ∧ r.seq = b.seq) ∧
  (t.dev.core g.core).slots = [] ∧ Keeps [.cores, .vits, .srv, .fab, .cnt] s t

/-- Every lane of a path reaches a place of its own (R37, R62): lane and address in `ts`; no watchpoint of the group's Vitrine matches a GLOBAL one (R419). -/
def Dev.Reaches (d : Dev) (g : GRef) (b : Block) (p : RPath) (sp : Space) (agent n : Nat) (addr : Nat → Nat) (ts : List (Nat × Nat)) : Prop :=
  (bits p.mask).map (fun l => (l, d.resolve g.core b sp (addr l) n)) = ts.map (fun e => (e.1, Target'.ok e.2)) ∧
  (sp = .global → (d.issue g .m).watchLanes g agent n ts = (d.issue g .m, false))

/-- No remote instruction waits to be split into its operations. -/
def Dev.AllSplit (d : Dev) : Prop := ∀ i ∈ d.fab.ins, i.split = true

/-- An access has begun: the group has gone on with its destination registers awaiting data (R45), the core has taken one operation, and only memory,
lines, operations, messages, counters and error records have changed. -/
def Began (g : GRef) (q : Group) (p : RPath) (dsts : List Nat) (s t : State) : Prop :=
  Keeps [.mem, .cat, .cnt, .vits, .cores, .gal, .msgs, .mesh, .hbm, .rel, .fresh] s t ∧
  WentOn { q with busyRegs := q.busyRegs ++ dsts.map (BitVec.ofNat 8) } (t.dev.groupOf g) p ∧
  (t.dev.core g.core).nextOp = (s.dev.core g.core).nextOp + 1 ∧ ∀ c, (t.dev.core c).exc = (s.dev.core c).exc

/-- The home of a window address stands ready: its die runs and is not fenced. -/
def Dev.AtHome (d : Dev) (a : Addr) : Prop :=
  a.toNat < 2 ^ 41 ∧ d.runs (dieOfVit (vitOfAddr a.toNat)) = true ∧ d.isFenced (dieOfVit (vitOfAddr a.toNat)) = false

/-- Only one line's entry, the messages, the counters and the marks of lookups and streams have changed. -/
def OnlyLine (l : Nat) (s t : State) : Prop :=
  Keeps [.gal, .cnt, .vits, .msgs, .mesh] s t ∧ ∀ m, m ≠ l → t.dev.gline m = s.dev.gline m

/-- Of the messages in flight the oldest of kind `k` for a line and a core has been taken, and one has been sent: of kind `k'` for the line, with its data. -/
def Exchanged (k : MsgKind) (l : Nat) (c : Option CoreId) (k' : MsgKind) (c' : Option CoreId) (data : Line) (po : BitVec 2) (s t : State) : Prop :=
  ∃ m, t.dev.msgs = (s.dev.take k l c).msgs ++ [m] ∧ m.kind = k' ∧ m.line = l ∧ m.core = c' ∧ m.data = data ∧ m.poison = po

/-- A request may arrive at its slice: it is the message in flight whose turn it is, or none is, and the slice has credit for it (R184, R217). -/
def Dev.Admits (d : Dev) (k : MsgKind) (l : Nat) (r : HomeReq) : Prop := d.arrives k l (portCore r.port) = true ∧ d.withheld l r = false

/-- A message for a core's L1 arrives in its turn, with this data: that of the message in flight, or its own where none is (R185, R217). -/
def Dev.Delivers (d : Dev) (k : MsgKind) (l : Nat) (c : CoreId) (data : Line) (po : BitVec 2) : Prop :=
  d.arrives k l (some c) = true ∧ ∀ m, d.flying k l (some c) = some m → m.data = data ∧ m.poison = po

/-- The die is in HARD with the cause active (R337, R339). -/
def Dev.HeldBy (d : Dev) (i cause : Nat) : Prop := (d.dpow i).hard = true ∧ kfind (d.dpow i).causes cause = some none

/-- The integer `i` is n / d rounded under a rounding mode (R59). -/
def RoundsTo (mode : RMode) (n : Int) (d : Nat) (i : Int) : Prop :=
  match mode with
  | .rz => i = n.tdiv d
  | .rm => i = n.fdiv d
  | .rp => i = -((-n).fdiv d)
  | .rne => 2 * (i * d - n).natAbs ≤ d ∧ (2 * (i * d - n).natAbs = d → i % 2 = 0)

/-- An engine instruction has been queued (R46, R70): the core's queue ends with it, carrying its group's owner, path and time; the group has gone on; its block
is `b` but for its groups and blocked time; nothing else of the machine has changed. -/
def Enqueued (g : GRef) (b : Block) (q : Group) (p : RPath) (op : EOp) (ra rb : CtxRef) (s t : State) : Prop :=
  Keeps [.cores] s t ∧ (∀ c, c ≠ g.core → t.dev.core c = s.dev.core c) ∧
  (∃ i : EInstr, i.op = op ∧ i.ra = ra ∧ i.rb = rb ∧ i.pc = p.pc ∧ i.lanes = p.mask ∧ i.at' = s.dev.cycOf g.core ∧ i.id = (s.dev.eng g.core).nextId ∧
    i.owner = { slot := g.slot.toNat, grp := g.grp.toNat, launchIx := b.launchIx, block := b.index, seq := b.seq } ∧
    t.dev.eng g.core = { s.dev.eng g.core with nextId := (s.dev.eng g.core).nextId + 1, queue := (s.dev.eng g.core).queue ++ [i] }) ∧
  (∃ e, t.dev.blk g.core g.slot.toNat = some e ∧ e = { b with groups := e.groups, blockedAt := e.blockedAt }) ∧
  WentOn q (t.dev.groupOf g) p

/-- Only one core's L1 lines and accesses, and the messages in flight, have changed: every other line and core is as it was. -/
def OnlyL1 (c : CoreId) (l : Nat) (s t : State) : Prop :=
  Keeps [.cores, .msgs, .mesh] s t ∧ (∀ k, k ≠ c → t.dev.core k = s.dev.core k) ∧ (∀ m, m ≠ l → t.dev.l1 c m = s.dev.l1 c m) ∧
  t.dev.core c = { s.dev.core c with l1 := (t.dev.core c).l1, ops := (t.dev.core c).ops, tick := (t.dev.core c).tick }

/-- The request that the holder `q` of a port sends is served (R297, R303, R305): the Catalogue is published, the Curator runs, and SEQ follows the last one. -/
def Dev.Serves (d : Dev) (p : CatPort) (seq : Word) (q : Requester) : Prop :=
  d.cat.published = true ∧ (d.proc 0).st ≠ 1 ∧ p ≠ .anon ∧ d.cat.requester p = some q ∧ q.auth = true ∧ ∀ n, q.lastSeq = some n → seq = n + 1

/-- A command's write of an entry is served, and nothing refuses it before its value is looked at (R304, R306-R308, R310). -/
def Dev.Writes (d : Dev) (rq : CatReq) (q : Requester) (index sub : Nat) : Prop :=
  d.Serves rq.port rq.seq q ∧ ∃ t, entryAt index sub = some t ∧
    d.writeRefusal rq.port q.role t { index := BitVec.ofNat 16 index, sub := BitVec.ofNat 8 sub } = none

/-- The response to a request has been sent (R302). -/
def Answered (p : CatPort) (op st : Nat) (seq : Word) (data : List Byte) (t : State) : Prop :=
  t.dev.cat.out = some { port := p, opcode := op, status := st, seq, data }

/-- A write has been accepted (R297): it is answered with the status and adds 1 to CATALOGUE_GENERATION. -/
def Accepted (rq : CatReq) (st : Nat) (s t : State) : Prop :=
  Answered rq.port 2 st rq.seq [] t ∧ t.dev.cat.gen = (s.dev.cat.gen + 1) % 2 ^ 64

/-- A write has been refused (R297): it is answered with the status and changes no value. -/
def Refused (rq : CatReq) (st : Nat) (s t : State) : Prop :=
  Answered rq.port 2 st rq.seq [] t ∧ Keeps [.cat] s t ∧ t.dev.cat.acc = s.dev.cat.acc ∧ t.dev.cat.force = s.dev.cat.force ∧ t.dev.cat.gen = s.dev.cat.gen

/-- A fetched descriptor has been decided with a status and DETAIL (R266, R269): behind an undecided one it waits so for its turn; where it was the ring's only one
its CQ entry has been posted and CQ_TAIL has moved on. -/
def Decided (v : VitId) (r : Nat) (f : Fetched) (st det : Nat) (s t : State) : Prop :=
  (∀ e a b, (s.dev.ring v r).fetched = e :: a ++ f :: b → e.done = none → (∀ g ∈ e :: a, g.seq ≠ f.seq) →
    (t.dev.ring v r).fetched = e :: a ++ { f with done := some (st, det) } :: b ∧ (t.dev.ring v r).cqTail = (s.dev.ring v r).cqTail) ∧
  ((s.dev.ring v r).fetched = [f] → (t.dev.ring v r).fetched = [] ∧ (t.dev.ring v r).cqTail = (s.dev.ring v r).cqTail + 1)

/-- The row of TENANCY_CMD_STATUS of a tenancy (R295). -/
def CmdRow (l : VitId) (command status : Nat) (t : State) : Prop := ∃ n, kfind t.dev.srv.cmd l.toNat = some { command, status, needed := n }

/-- The device has been reset (R445): all but the MRAM and the host's memory is lost, start-up stands at a step, and the lands and inputs are `h`. -/
def WasReset (step : Nat) (h : HostP) (s t : State) : Prop :=
  t.pending = s.pending ∧ t.mram = s.mram ∧
  t.dev = { fresh := s.dev.fresh, fw := { step := step }, hbm := { giveUp := s.dev.hbm.giveUp }, host := h } ∧
  (∀ a, t.mem.byte .host a = s.mem.byte .host a) ∧
  ∀ sp ∈ [MemSp.hbm, .pad, .clus, .scr, .stage], ∀ a, a < 2 ^ 64 → t.mem.byte sp a = 0

/-- The lands and inputs of the host port as a reset finds them. -/
def HostP.lands (h : HostP) : HostP := { perst := h.perst, pwrOk := h.pwrOk, fatal := h.fatal, straps := h.straps, vin := h.vin }

/-- A fatal reset (R445): FATAL_N is asserted and start-up resumes at step 2; before step 2 nothing is left to reset. -/
def FatallyReset (s t : State) : Prop :=
  (s.dev.fw.step ≤ 1 → t = s) ∧ (1 < s.dev.fw.step → WasReset 2 { s.dev.host.lands with fatal := true } s t)

/-- A command of the admin ring has completed (R387, R269): it has taken the next SEQ and its CQ entry stands last. -/
def AdminDone (tag detail opcode status : Nat) (s t : State) : Prop :=
  t.dev.fw.admin.seq = (s.dev.fw.admin.seq + 1) % 2 ^ 32 ∧ t.dev.fw.admin.cqTail = (s.dev.fw.admin.cqTail + 1) % 2 ^ 32 ∧
  t.dev.fw.admin.cq.getLast? =
    some (BitVec.ofNat 128 (cqEntry s.dev.fw.admin.seq detail tag opcode status (s.dev.fw.admin.cqTail / 64 % 2 == 0)))

/-- `n` bytes from address `a` of a store read as `f` says. -/
def State.Reads (t : State) (sp : MemSp) (a n : Nat) (f : Nat → Byte) : Prop := ∀ i, i < n → t.mem.byte sp (a + i) = f i

end Sys2Proof.Machine
end

