-- ==== Sys2Proof/Certificates/Slice0/Obligations.lean ====
section
/-! DEFINITION. The statements for the provers: what the queue and the step do, what every run keeps, and for each family of commands where
its commands complete, with the effect the spec gives them and what they leave as it was. -/

open Sys2Proof Sys2Proof.Machine

/-! ### The queue, the step and what every run keeps -/

/-- A step runs the command at the front of the queue: it is exec of that command on the state with the queue's rest. -/
def Obligations.StepRunsTheFrontCommand : Prop :=
  ∀ (c : Instr) (s : State), step { s with pending := c :: s.pending } = exec c s

/-- On an empty queue one reference cycle passes (the model's choice, log 2): the reference count rises by one, a die whose clocks stand
still keeps them, a die that runs gets 66 root cycles, and nothing but the clocks and counters changes. -/
def Obligations.IdleStepIsOneReferenceCycle : Prop :=
  ∀ s : State, s.pending = [] → ∃ t, step s = .next t ∧ t.dev.ref = s.dev.ref + 1 ∧ Keeps [.ref, .clk, .cnt] s t ∧
    ∀ i, i < 8 → (t.dev.die i).root = (s.dev.die i).root + (if (s.dev.die i).running then 66 else 0)

/-- A command changes memory only through changes of the listed kinds, the MRAM only through those of R385, never the queue; it raises no fault
and no refusal. -/
def Obligations.CommandsChangeMemoryByListedChanges : Prop :=
  ∀ (c : Instr) (s : State), ∃ (d : Dev) (ops : List MemOp) (mops : List MramOp),
    exec c s = .next { s with dev := d, mem := applyAll s.mem ops, mram := mops.foldl applyMram s.mram }

/-- Every step keeps memory in its canonical form: addresses rising, no zero byte listed, poison listed once. -/
def Obligations.StepKeepsMemoryCanonical : Prop :=
  ∀ s t : State, s.Canonical → step s = .next t → t.Canonical

/-- No step makes the MRAM older: its floors and retirement counters never fall and no key's revocation is withdrawn (R385). -/
def Obligations.StepNeverMakesMramOlder : Prop :=
  ∀ s t : State, step s = .next t → s.mram.NoOlder t.mram

/-- The machine after reset is in canonical form, its queue is empty, no die runs, START_STATUS is 0, every Vitrine is UNASSIGNED, every
line is in no slice and every processor is stopped (values the model names are in log 3). -/
def Obligations.ResetStateIsAsStated : Prop :=
  State.reset.Canonical ∧ State.reset.pending = [] ∧ (∀ i, State.reset.dev.runs i = false) ∧ State.reset.dev.fw.start = 0 ∧
    (∀ v, (State.reset.dev.vit v).st = .unassigned) ∧ (∀ g, (State.reset.dev.slice g).lines = []) ∧ (∀ p, (State.reset.dev.proc p).st = 2)

/-! ### Vector and special-function instructions -/

/-- VECTOR_ARITHMETIC, SHIFT, FP32_TO_INTEGER_CONVERSION, SPECIAL_FUNCTION, ROWMAX and ROWSUM complete when the group may issue, its registers are
ready and the check of R61 finds no mismatch: each active lane's destination register takes the result, the flags are or-ed in, and nothing else
changes. -/
def Obligations.VectorInstructionsWriteTheirLanes : Prop :=
  ∀ (s : State) (g : GRef) (b : Block) (q : Group) (p : RPath) (dst : Byte),
    (∀ (op : VOp) (mode : RMode) (x y z : Byte) (w : Nat → Word) (fl : Nat → Flags), s.dev.Issues g .v b q p → vopPred op = false →
      op ≠ .widen .cb4 → op ≠ .widen .cb2 → Ready b q ([x.toNat, y.toNat, z.toNat].take (vopReads op) ++ [dst.toNat]) →
      (∀ l, vop op mode (q.reg x.toNat l) (q.reg y.toNat l) (q.reg z.toNat l) = .word (w l) (fl l)) →
      Completes (.vectorArithmetic g op mode dst x y z true) s (fun t => OnlyGroup g s t ∧ Wrote q (t.dev.groupOf g) p dst.toNat w fl)) ∧
    (∀ (op : ShiftOp) (x amt : Byte), s.dev.Issues g .v b q p → Ready b q [x.toNat, amt.toNat, dst.toNat] →
      Completes (.shift g op dst x amt true) s (fun t => OnlyGroup g s t ∧
        Wrote q (t.dev.groupOf g) p dst.toNat (fun l => shift32 op (q.reg x.toNat l) (q.reg amt.toNat l)) (fun _ => 0))) ∧
    (∀ (signed : Bool) (mode : RMode) (x : Byte), s.dev.Issues g .v b q p → Ready b q [x.toNat, dst.toNat] →
      Completes (.fp32ToIntegerConversion g signed mode dst x true) s (fun t => OnlyGroup g s t ∧
        Wrote q (t.dev.groupOf g) p dst.toNat (fun l => (fpToInt signed mode (q.reg x.toNat l)).1) (fun l => (fpToInt signed mode (q.reg x.toNat l)).2))) ∧
    (∀ (fn : SfuOp) (x : Byte), s.dev.Issues g .s b q p → Ready b q [x.toNat, dst.toNat] →
      Completes (.specialFunction g fn dst x true) s (fun t => OnlyGroup g s t ∧
        Wrote q (t.dev.groupOf g) p dst.toNat (fun l => sfuVal fn (q.reg x.toNat l)) (fun l => Config.sfuFlags fn (q.reg x.toNat l)))) ∧
    (∀ (n : BitVec 6) (x : Byte), s.dev.Issues g .s b q p → rowWidth n.toNat = true → Ready b q [x.toNat, dst.toNat] →
      Completes (.rowmax g n dst x true) s (fun t => OnlyGroup g s t ∧
        Wrote q (t.dev.groupOf g) p dst.toNat
          (fun l => rowMax (((bits p.mask).filter (fun k => k / n.toNat == l / n.toNat)).map (fun k => q.reg x.toNat k))) (fun _ => 0))) ∧
    (∀ (n : BitVec 6) (x : Byte), s.dev.Issues g .s b q p → rowWidth n.toNat = true → Ready b q [x.toNat, dst.toNat] →
      Completes (.rowsum g n dst x true) s (fun t => OnlyGroup g s t ∧
        ∃ r : Nat → Word × Flags, (∀ l, r l = rowSum (Nat.log2 n.toNat) ((List.range n.toNat).map (fun i =>
            let k := l / n.toNat * n.toNat + i
            if p.mask.getLsbD k then q.reg x.toNat k else 0))) ∧
          Wrote q (t.dev.groupOf g) p dst.toNat (fun l => (r l).1) (fun l => (r l).2)))

/-- Comparisons, CVT, CVTB, CLRF and GETSR complete on ready registers: a comparison writes one predicate bit per active lane; CVT and CVTB write element codes
(CVTB also the block's scale byte) and count saturations and underflows; CLRF clears the sticky flags; GETSR writes the special register. -/
def Obligations.PredicatesConversionsAndSpecialRegisters : Prop :=
  ∀ (s : State) (g : GRef) (b : Block) (q : Group) (p : RPath) (dst : Byte),
    (∀ (op : VOp) (mode : RMode) (x y z : Byte) (r : Nat → Bool) (fl : Nat → Flags), s.dev.Issues g .v b q p → vopPred op = true → dst.toNat < 8 →
      Ready b q ([x.toNat, y.toNat, z.toNat].take (vopReads op)) →
      (∀ l, vop op mode (q.reg x.toNat l) (q.reg y.toNat l) (q.reg z.toNat l) = .bit (r l) (fl l)) →
      Completes (.vectorArithmetic g op mode dst x y z true) s (fun t => OnlyGroup g s t ∧
        (∀ l, l < 32 → ((t.dev.groupOf g).pred dst.toNat).getLsbD l = if p.mask.getLsbD l then r l else (q.pred dst.toNat).getLsbD l) ∧
        (t.dev.groupOf g).regs = q.regs ∧ (∀ k, k ≠ dst.toNat → (t.dev.groupOf g).pred k = q.pred k) ∧
        (t.dev.groupOf g).flags = (bits p.mask).foldl (fun f l => f ||| fl l) q.flags)) ∧
    (∀ (tgt : Fmt) (mode : RMode) (x xs : Byte), s.dev.Issues g .v b q p → tgt ≠ .cb4 → tgt ≠ .cb2 → tgt ≠ .fp32 → Ready b q [x.toNat, xs.toNat, dst.toNat] →
      Completes (.cvt g tgt mode dst x xs true) s (fun t => ∃ r : Nat → Cvt,
        (∀ l, r l = cvtTo tgt mode ((val32 (q.reg x.toNat l)).scale (-(q.reg xs.toNat l).toInt))) ∧
        Wrote q (t.dev.groupOf g) p dst.toNat (fun l => BitVec.ofNat 32 (r l).code) (fun l => (r l).flags ||| sigFlags [q.reg x.toNat l]) ∧
        Keeps [.cores, .cnt] s t ∧ ∀ c, c ≠ g.core → t.dev.core c = s.dev.core c)) ∧
    (∀ (tgt : Fmt) (mode : RMode) (x sd : Byte), s.dev.Issues g .s b q p → tgt.scaled = true → sd ≠ dst → Ready b q [x.toNat, dst.toNat, sd.toNat] →
      Completes (.cvtb g tgt mode dst x sd true) s (fun t => ∃ e : Int, e = blockScale tgt ((bits p.mask).map (fun l => val32 (q.reg x.toNat l))) ∧
        (∀ l, l < 32 → p.mask.getLsbD l = true →
          (t.dev.groupOf g).reg sd.toNat l = BitVec.ofInt 32 (e + 127) ∧
          (t.dev.groupOf g).reg dst.toNat l = BitVec.ofNat 32 (cvtTo tgt mode ((val32 (q.reg x.toNat l)).scale (-e))).code) ∧
        (∀ r l, l < 32 → (r ≠ dst.toNat ∧ r ≠ sd.toNat) ∨ p.mask.getLsbD l = false → (t.dev.groupOf g).reg r l = q.reg r l) ∧
        (t.dev.groupOf g).preds = q.preds ∧ Keeps [.cores, .cnt] s t)) ∧
    (s.dev.Issues g .v b q p → Completes (.clrf g) s (fun t => OnlyGroup g s t ∧ (t.dev.groupOf g).flags = 0 ∧
      WentOn { q with flags := 0 } (t.dev.groupOf g) p)) ∧
    (∀ (sr : SReg), s.dev.Issues g .b b q p → Ready b q [dst.toNat] →
      Completes (.getsr g dst sr) s (fun t => OnlyGroup g s t ∧ Wrote q (t.dev.groupOf g) p dst.toNat
        (fun l => match sr with
          | .lane => BitVec.ofNat 32 l
          | .group => BitVec.ofNat 32 g.grp.toNat
          | .block => BitVec.ofNat 32 b.index
          | .nblocks => BitVec.ofNat 32 b.launch.blocks
          | .argsLo => BitVec.ofNat 32 b.launch.args.toNat
          | .argsHi => BitVec.ofNat 32 (b.launch.args.toNat / 2 ^ 32)
          | .core => BitVec.ofNat 32 g.core.toNat
          | .vitrine => BitVec.ofNat 32 (g.core.toNat / 16 % 32)
          | .cycle => BitVec.ofNat 32 (s.dev.cyc (dieOfCore g.core))
          | .flags => q.flags.setWidth 32) (fun _ => 0)))

/-- R62: an instruction that names a register at or beyond its block's r raises ILLEGAL_INSTRUCTION, a class P exception whose DETAIL holds that register;
R63: its step is squashed with the ending EXCEPTION. -/
def Obligations.RegisterBeyondTheBlockIsIllegal : Prop :=
  ∀ (s : State) (g : GRef) (b : Block) (q : Group) (p : RPath) (dst x amt : Byte) (op : ShiftOp) (st : StepRec), s.dev.Issues g .v b q p →
    x.toNat ≥ b.launch.r → (s.dev.core g.core).exc = none → s.dev.stepOn (vitOfCore g.core) = some st → st.mask.getLsbD (vitOfCore g.core).toNat = true →
    st ∈ s.dev.srv.steps →
    Completes (.shift g op dst x amt true) s (fun t => Squashed g b p 0x04 x.toNat s t ∧
      ∃ u ∈ t.dev.srv.steps, u.same st = true ∧ 4 ∈ u.ends)

/-! ### Divergence, waiting, barriers and traps -/

/-- EXIT, BRX, BRI and JOIN complete when the group may issue: EXIT takes its threads out for good; BRX goes to its target or past it when all threads
agree and otherwise pushes an entry whose fall-through path runs first (R47); BRI pushes one entry and runs one path per target (R48); a JOIN that no entry
of its threads names is passed (log 11). -/
def Obligations.DivergenceInstructionsComplete : Prop :=
  ∀ (s : State) (g : GRef) (b : Block) (q : Group) (p : RPath), s.dev.Issues g .b b q p →
    Completes (.exit g) s (fun t => Keeps [.cores] s t ∧ (∀ c, c ≠ g.core → t.dev.core c = s.dev.core c) ∧
      ∃ h, (t.dev.grp g).map (fun e => e.2) = some h ∧ h.exited = q.exited ||| p.mask ∧ h.regs = q.regs ∧ h.flags = q.flags) ∧
    (∀ (k : BitVec 3) (neg : Bool) (target joinAt : Addr) (m : Mask), m = p.mask &&& (if neg then ~~~(q.pred k.toNat) else q.pred k.toNat) →
      (m = 0 → Completes (.brx g k neg target joinAt) s (fun t => OnlyGroup g s t ∧ WentOn q (t.dev.groupOf g) p)) ∧
      (m = p.mask → m ≠ 0 → Completes (.brx g k neg target joinAt) s (fun t => OnlyGroup g s t ∧
        (t.dev.groupOf g).paths = { p with pc := target } :: q.paths.tail ∧ (t.dev.groupOf g).stack = q.stack)) ∧
      (m ≠ 0 → m ≠ p.mask → q.stack.length < 32 → Completes (.brx g k neg target joinAt) s (fun t => OnlyGroup g s t ∧
        (t.dev.groupOf g).paths = { pc := Config.pcNext p.pc, mask := p.mask &&& ~~~m } :: { pc := target, mask := m } :: q.paths.tail ∧
        (t.dev.groupOf g).stack = { joinAt, mask := p.mask, arrived := 0 } :: q.stack ∧ (t.dev.groupOf g).regs = q.regs))) ∧
    (∀ (ra : Byte) (joinAt : Addr), Ready b q [ra.toNat, ra.toNat + 1] → q.stack.length < 32 →
      Completes (.bri g ra joinAt) s (fun t => OnlyGroup g s t ∧
        (t.dev.groupOf g).stack = { joinAt, mask := p.mask, arrived := 0 } :: q.stack ∧ (t.dev.groupOf g).regs = q.regs ∧
        (t.dev.groupOf g).paths.map (·.pc) =
          ((((bits p.mask).map (fun l => q.addr ra.toNat l)).mergeSort (· ≤ ·)).dedup.map (BitVec.ofNat 44)) ++ q.paths.tail.map (·.pc))) ∧
    (∀ at' : Addr, (∀ e ∈ q.stack, e.joinAt ≠ at') → Completes (.join g at') s (fun t => OnlyGroup g s t ∧ WentOn q (t.dev.groupOf g) p)) ∧
    (∀ (at' : Addr) (m a : Mask) (rest : List REntry), q.stack = ⟨at', m, a⟩ :: rest → p.mask &&& m = p.mask → ((a ||| p.mask ||| q.exited) &&& m) ≠ m →
      Completes (.join g at') s (fun t => OnlyGroup g s t ∧ (t.dev.groupOf g).paths = q.paths.tail ∧
        (t.dev.groupOf g).stack = ⟨at', m, a ||| p.mask⟩ :: rest ∧ (t.dev.groupOf g).regs = q.regs))

/-- TRAP with DEBUG_MODE 0 raises the class P exception TRAP with its code as DETAIL (R62, R63); with DEBUG_MODE 1 the group stands at the next
instruction and its tenancy begins to halt (R418). BARRIER_WATCHDOG counts and raises BARRIER_WATCHDOG, code 0x40 of class F, at a barrier that has
been waited at (R53): the exception of the core is recorded when it is the first. -/
def Obligations.TrapAndBarrierWatchdogComplete : Prop :=
  ∀ (s : State) (g : GRef) (b : Block) (q : Group) (p : RPath),
    (∀ (code : BitVec 16) (st : StepRec), s.dev.Issues g .b b q p → s.dev.vset (((s.dev.vit (vitOfCore g.core)).leader).getD b.leader) 0xD 1 = 0 →
      (s.dev.core g.core).exc = none → s.dev.stepOn (vitOfCore g.core) = some st → st.mask.getLsbD (vitOfCore g.core).toNat = true →
      Completes (.trap g code) s (fun t => Squashed g b p 0x06 code.toNat s t)) ∧
    (∀ (code : BitVec 16) (l : VitId), s.dev.Issues g .b b q p → (s.dev.vit (vitOfCore g.core)).leader = some l → s.dev.vset l 0xD 1 = 1 →
      Completes (.trap g code) s (fun t => Keeps [.cores, .vits] s t ∧ WentOn q (t.dev.groupOf g) p ∧
        ∀ v ∈ s.dev.tenancy l, (t.dev.vit v).halt ≠ 0)) ∧
    (∀ (id : Option (BitVec 4)) (n : Nat) (l : List (Nat × Parked)), s.dev.grp g = some (b, q) → watchedBar b q id = some (n, l) →
      s.dev.runs (dieOfCore g.core) = true → (s.dev.vit (vitOfCore g.core)).halt ≠ 2 → (s.dev.core g.core).exc = none →
      Completes (.barrierWatchdog g id) s (fun t => ∃ r, (t.dev.core g.core).exc = some r ∧ r.code = 0x40 ∧ r.core = g.core ∧ r.block = BitVec.ofNat 32 b.index ∧
        r.lanes = l.foldl (fun m e => putBit m e.1 true) 0))

/-- BAR.G, BAR.B and WAIT complete: the running threads park, at a barrier once their earlier local accesses are performed; a WAIT whose condition holds in
a thread, or whose timeout is 0, sets P0 and goes on. WAIT_RETEST releases a parked thread whose condition holds with P0 true, and notes the test of one whose condition
does not; WAIT_TIMEOUT releases it with P0 telling whether the condition held (R49, log 70). -/
def Obligations.BarriersAndWaitsComplete : Prop :=
  ∀ (s : State) (g : GRef) (b : Block) (q : Group) (p : RPath),
    (s.dev.Issues g .b b q p → s.dev.mayArrive g q = true → Completes (.barG g) s (fun t => OnlyGroup g s t ∧
      (t.dev.groupOf g).regs = q.regs ∧ (t.dev.groupOf g).preds = q.preds ∧ ∃ h : Group, h.parked = (q.park .barG).parked ∧ h.paths = q.paths.tail ∧
        h.exited = q.exited ∧ (t.dev.groupOf g).parked = h.tryBarG.parked ∧ (t.dev.groupOf g).paths = h.tryBarG.paths)) ∧
    (∀ id : BitVec 4, s.dev.Issues g .b b q p → s.dev.mayArrive g q = true → Completes (.barB g id) s (fun t => Keeps [.cores] s t ∧
      (∀ c, c ≠ g.core → t.dev.core c = s.dev.core c) ∧ (t.dev.groupOf g).regs = q.regs ∧
      ((∃ o ∈ b.groups, ¬ o.done ∧ o ≠ q ∧ o.parked = []) → ∃ e, t.dev.blk g.core g.slot.toNat = some e ∧ (kfind e.barB id.toNat).isSome))) ∧
    (∀ (c : Cond) (sp : Space) (ra rv rt : Byte) (ts : List (Nat × Nat)), s.dev.Issues g .b b q p → sp ≠ .scratch →
      Ready b q (addrRegs sp ra.toNat ++ [rv.toNat, rt.toNat]) →
      (bits p.mask).map (fun l => (l, s.dev.resolve g.core b sp (laneAddr q sp ra.toNat 0 l) 4)) = ts.map (fun e => (e.1, Target'.ok e.2)) →
      q.fence = none → ts.any (fun e => s.dev.ownAccess g sp e.1 e.2) = false →
      Completes (.wait g c sp ra rv rt) s (fun t => OnlyGroup g s t ∧ (t.dev.groupOf g).regs = q.regs ∧
        ∀ l a, (l, a) ∈ ts →
          if condHolds c (({ dev := s.dev, mem := s.mem, mram := s.mram } : X).waitWord sp a) (q.reg rv.toNat l) = true ∨ q.reg rt.toNat l = 0 then
            ((t.dev.groupOf g).pred 0).getLsbD l = condHolds c (({ dev := s.dev, mem := s.mem, mram := s.mram } : X).waitWord sp a) (q.reg rv.toNat l) ∧
            kfind (t.dev.groupOf g).parked l = kfind q.parked l
          else ∃ w : WaitRec, kfind (t.dev.groupOf g).parked l = some ⟨.wait w, p.pc, Config.pcNext p.pc⟩ ∧ w.addr = a ∧ w.value = q.reg rv.toNat l ∧
            w.cond = c ∧ w.limit = (q.reg rt.toNat l).toNat ∧ w.start = s.dev.cycOf g.core)) ∧
    (∀ (l : BitVec 5) (w : WaitRec), s.dev.grp g = some (b, q) → q.waitOf l.toNat = some w → s.dev.groupLives g = true →
      (condHolds w.cond (({ dev := s.dev, mem := s.mem, mram := s.mram } : X).waitWord w.space w.addr) w.value = true →
        Completes (.waitRetest g l) s (fun t => OnlyGroup g s t ∧ kfind (t.dev.groupOf g).parked l.toNat = none ∧
          ((t.dev.groupOf g).pred 0).getLsbD l.toNat = true ∧ (t.dev.groupOf g).regs = q.regs)) ∧
      (condHolds w.cond (({ dev := s.dev, mem := s.mem, mram := s.mram } : X).waitWord w.space w.addr) w.value = false →
        Completes (.waitRetest g l) s (fun t => OnlyGroup g s t ∧ (t.dev.groupOf g).waitOf l.toNat = some { w with tested := s.dev.cycOf g.core } ∧
          (t.dev.groupOf g).preds = q.preds ∧ (t.dev.groupOf g).regs = q.regs)) ∧
      Completes (.waitTimeout g l) s (fun t => Keeps [.cores, .clk, .cnt] s t ∧ kfind (t.dev.groupOf g).parked l.toNat = none ∧
          ((t.dev.groupOf g).pred 0).getLsbD l.toNat = condHolds w.cond (({ dev := s.dev, mem := s.mem, mram := s.mram } : X).waitWord w.space w.addr) w.value ∧
          (t.dev.groupOf g).regs = q.regs ∧ s.dev.cyc (dieOfCore g.core) ≤ t.dev.cyc (dieOfCore g.core)))

/-! ### Blocks: dispatch, issue, swap and retirement -/

/-- LAUNCH_DISPATCH takes the next launch of a dispatcher whose last one has retired (R34); BLOCK_DISPATCH places the next WAITING block on the first core in
rotation where it fits, with its groups ready to run; BLOCK_RETIRE frees the slot of a block whose groups are done and counts it (R35). -/
def Obligations.DispatchersStartAndRetireBlocks : Prop :=
  ∀ (s : State) (v : VitId) (p : Disp), (s.dev.vit v).disp = p →
    (∀ (i : Nat) (l : Launch) (rest : List (Nat × Launch)) (st : StepRec), s.dev.dispatches v = true → p.idle = true → s.dev.stepOn v = some st → st.holds = false →
      p.launches = (i, l) :: rest → s.dev.launchOk l = true →
      Completes (.launchDispatch v) s (fun t => ∃ q, (t.dev.vit v).disp = q ∧ q.launches = rest ∧ q.cur = some (i, l) ∧ q.next = 0 ∧ q.retired = 0 ∧
        Keeps [.clus, .vits, .cnt] s t ∧ (l.step = 0 → t.dev.clus = s.dev.clus))) ∧
    (∀ (n : Nat) (l : Launch) (st : StepRec) (i : Nat), s.dev.dispatches v = true → p.swapped = [] → p.cur = some (n, l) → s.dev.stepOn v = some st → p.next < l.blocks →
      ((List.range 16).map (fun k => (p.rot + k) % 16)).find? (fun k => s.dev.fits (BitVec.ofNat 9 (v.toNat * 16 + k)) l) = some i →
      Completes (.blockDispatch v) s (fun t => (t.dev.vit v).disp = { p with next := p.next + 1, rot := (i + 1) % 16 } ∧ Keeps [.vits, .cores] s t ∧
        ∃ (k : Nat) (b : Block), t.dev.blk (BitVec.ofNat 9 (v.toNat * 16 + i)) k = some b ∧ b.launch = l ∧ b.launchIx = n ∧ b.index = p.next ∧
          b.groups.length = l.g ∧ ∀ q ∈ b.groups, q.exited = 0 ∧ q.paths = [{ pc := l.entry, mask := BitVec.allOnes 32 }])) ∧
    (∀ (c : CoreId) (k : SlotId) (b : Block), vitOfCore c = v → s.dev.blk c k.toNat = some b → b.groups.all Group.done = true → s.dev.quiet c k.toNat = true →
      s.dev.runs (dieOfCore c) = true →
      Completes (.blockRetire c k) s (fun t => (t.dev.vit v).disp = { p with retired := p.retired + 1 } ∧ Keeps [.vits, .cores] s t ∧
        t.dev.core c = { s.dev.core c with slots := kdel (s.dev.core c).slots k.toNat }))

/-- R42-R44: ISSUE_CYCLE on a clocked cycle of a running die completes, at the core's next cycle of issue. After the active set has changed, at most two
instructions issue: of groups that may take a slot, two of them paired; when such a group stands ready an instruction issues, and a group not issued for
16 cycles comes first. Only the core, its clock's advance and the profile counts change. -/
def Obligations.IssueCycleIssuesReadyGroups : Prop :=
  ∀ (s : State) (c : CoreId) (views : List IssueView) (d e : Dev), s.dev.runs (dieOfCore c) = true → s.dev.isClocked (vitOfCore c) = true →
    d = s.dev.reachOf c (s.dev.core c).issueAt → e = d.changeActive c (views.filter (d.mayRun c)) →
    Completes (.issueCycle c views) s (fun t => Keeps [.clk, .cores, .cnt] s t ∧ (∀ k, k ≠ c → t.dev.core k = s.dev.core k) ∧
      t.dev.cycOf c = d.cycOf c ∧ (t.dev.core c).issueAt = d.cycOf c + 1 ∧ (t.dev.core c).issued.length ≤ 2 ∧
      (∀ n ∈ (t.dev.core c).issued, ∃ w ∈ views, e.MayTake c w ∧ (n.slot, n.grp) = viewName w ∧ (n.cls = w.cls ∨ w.second = some n.cls)) ∧
      (∀ m n, (t.dev.core c).issued = [m, n] → pairs m.cls n.cls = true) ∧
      (∀ w ∈ views, e.MayTake c w → ∃ u ∈ views, (t.dev.core c).issued.head? = some (viewSlot u) ∧
        (16 ≤ ((e.grp (viewRef c w)).map (fun p => p.2.idle)).getD 0 → 16 ≤ ((e.grp (viewRef c u)).map (fun p => p.2.idle)).getD 0)))

/-- BLOCK_SWAP and SWAP_COMPLETE (R54, R55): when every resident block is blocked and a WAITING block goes first, the swap that makes room takes the next
index of the launch and holds the core until T_swap has passed; then the admitted block is no longer restoring and the core is free to swap again. -/
def Obligations.SwapsAdmitAndComplete : Prop :=
  ∀ (s : State) (c : CoreId),
    (∀ (n : Nat) (l : Launch) (st : StepRec) (y : X) (out : Nat), s.dev.dispatches (vitOfCore c) = true → (s.dev.core c).swap = none → (s.dev.resident c) ≠ [] →
      (s.dev.resident c).all (fun b => b.blockedAt.isSome && !b.restoring) = true → (s.dev.vit (vitOfCore c)).disp.cur = some (n, l) →
      s.dev.stepOn (vitOfCore c) = some st → (s.dev.vit (vitOfCore c)).disp.next < l.blocks →
      ({ dev := s.dev, mem := s.mem, mram := s.mram } : X).makeRoom c l = some (y, out) →
      Completes (.blockSwap c) s (fun t => (t.dev.vit (vitOfCore c)).disp.next = (s.dev.vit (vitOfCore c)).disp.next + 1 ∧ t.mram = y.mops.reverse.foldl applyMram s.mram ∧
        ∃ w, (t.dev.core c).swap = some w ∧ 400 ≤ w.cycles ∧ ∃ b, t.dev.blk c w.slot = some b ∧ b.launch = l ∧ b.restoring = true)) ∧
    (∀ (w : SwapRec) (b : Block), (s.dev.core c).swap = some w → s.dev.blk c w.slot = some b → s.dev.runs (dieOfCore c) = true →
      Completes (.swapComplete c) s (fun t => (t.dev.core c).swap = none ∧ Keeps [.cores, .clk, .cnt] s t ∧
        ∃ e, t.dev.blk c w.slot = some e ∧ e.restoring = false ∧ e.launch = b.launch ∧ e.index = b.index))

/-! ### Accesses of memory -/

/-- LOAD, STORE, ATOMIC and RED begin their access in every space when each active lane's address resolves: the group goes on, and the destination registers of a
LOAD or ATOMIC await their data (R37, R45). -/
def Obligations.AccessesBegin : Prop :=
  ∀ (s : State) (g : GRef) (b : Block) (q : Group) (p : RPath) (sp : Space) (ra : Byte) (imm : Word) (ts : List (Nat × Nat)),
    s.dev.Issues g .m b q p → s.dev.AllSplit →
    (∀ (size : BitVec 3) (n : Nat) (dst : Byte), lsuSize size = some n → s.dev.Reaches g b p sp 0 n (fun l => laneAddr q sp ra.toNat imm.toNat l) ts →
      Ready b q (addrRegs sp ra.toNat ++ lsuRegs dst.toNat n) →
      Completes (.load g sp size dst ra imm) s (Began g q p (lsuRegs dst.toNat n) s)) ∧
    (∀ (size : BitVec 3) (n : Nat) (src : Byte), lsuSize size = some n → s.dev.Reaches g b p sp 1 n (fun l => laneAddr q sp ra.toNat imm.toNat l) ts →
      Ready b q (addrRegs sp ra.toNat ++ lsuRegs src.toNat n) →
      Completes (.store g sp size ra imm src) s (Began g q p [] s)) ∧
    (∀ (op : AtomOp) (wide : Bool) (n : Nat) (dst val cmp : Byte), (wide && !atomWide op) = false → n = (if wide then 8 else 4) →
      s.dev.Reaches g b p sp 1 n (fun l => laneAddr q sp ra.toNat imm.toNat l) ts →
      Ready b q (addrRegs sp ra.toNat ++ lsuRegs dst.toNat n ++ lsuRegs val.toNat n ++ (if op == .cas then lsuRegs cmp.toNat n else [])) →
      Completes (.atomic g sp op wide dst ra imm val cmp) s (Began g q p (lsuRegs dst.toNat n) s)) ∧
    (∀ (op : RedOp) (src : Byte), sp = .global → s.dev.Reaches g b p sp 1 4 (fun l => laneAddr q sp ra.toNat imm.toNat l) ts →
      Ready b q (addrRegs sp ra.toNat ++ [src.toNat]) → Completes (.red g sp op ra imm src) s (Began g q p [] s))

/-- A LOAD from STEP, CLUSTER or SCRATCH of a core with nothing outstanding takes its lanes' bytes at once, as they stand in the local store, and changes no
memory; a STORE there changes only the bytes its lanes address, and a byte that one lane alone addresses takes that lane's value. -/
def Obligations.LocalAccessesArePerformed : Prop :=
  ∀ (s : State) (g : GRef) (b : Block) (q : Group) (p : RPath) (sp : Space) (ra : Byte) (imm : Word) (ts : List (Nat × Nat)) (size : BitVec 3) (n : Nat),
    s.dev.Issues g .m b q p → s.dev.AllSplit → (s.dev.core g.core).ops = [] → sp ≠ .global → lsuSize size = some n → Memory.wf s.mem = true →
    s.dev.Reaches g b p sp 0 n (fun l => laneAddr q sp ra.toNat imm.toNat l) ts →
    (∀ dst : Byte, Ready b q (addrRegs sp ra.toNat ++ lsuRegs dst.toNat n) →
      Completes (.load g sp size dst ra imm) s (fun t => t.mem = s.mem ∧ ∃ o, (t.dev.core g.core).ops = [o] ∧ o.kind = .load ∧ o.accs = [] ∧ o.dst = dst ∧
        o.size = n ∧ ∀ l a, (l, a) ∈ ts →
          kfind o.vals l = some (lineGet (lineOf ((List.range 128).map (fun i => s.mem.byte (localSp sp) (a / 128 * 128 + i)))) (a % 128) n))) ∧
    (∀ src : Byte, Ready b q (addrRegs sp ra.toNat ++ lsuRegs src.toNat n) →
      Completes (.store g sp size ra imm src) s (fun t => (t.dev.core g.core).ops = [] ∧
        (∀ tp a, (tp ≠ localSp sp ∨ ∀ e ∈ ts, ¬(e.2 ≤ a ∧ a < e.2 + n)) → t.mem.byte tp a = s.mem.byte tp a) ∧
        ∀ l a i, (l, a) ∈ ts → i < n → (∀ e ∈ ts, e.2 ≤ a + i → a + i < e.2 + n → e = (l, a)) →
          t.mem.byte (localSp sp) (a + i) = (leBytes (q.regNat src.toNat l n) n)[i]?.getD 0))

/-- LOAD_DATA_RETURN writes each lane's bytes to the destination registers and frees them (R45); on an uncorrectable upset no register is written and STORAGE_UNCORRECTABLE,
code 0x42, is recorded (R61). FENCE.C, FENCE.D and FENCE.F hold the group's fence with the accesses it covers, the last two with walker reads, completed stores'
tiles and range operations, FENCE.F with the group's remote instructions (R201, R205); FENCE_COMPLETE lifts a fence whose
accesses have been performed. -/
def Obligations.DataReturnsAndFences : Prop :=
  ∀ (s : State) (g : GRef) (b : Block) (q : Group),
    (∀ (op : Word) (o : OutOp), s.dev.grp g = some (b, q) → s.dev.op? g.core op.toNat = some o → o.reads = true → o.accs = [] → o.ofGroup g b = true → s.dev.runs (dieOfCore g.core) = true →
      (o.poisoned = false → (o.vals.map (·.1)).Nodup → (∀ e ∈ o.vals, e.1 < 32) →
        Completes (.loadDataReturn g op .none) s (fun t => Keeps [.cores] s t ∧
          (t.dev.core g.core).ops = (s.dev.core g.core).ops.filter (fun p => p.id != o.id) ∧
          (∀ r l, l < 32 → (t.dev.groupOf g).reg r l = (if o.dst.toNat ≤ r ∧ r < o.dst.toNat + (lsuRegs 0 o.size).length then
            (match o.vals.find? (fun e => e.1 == l) with | some e => BitVec.ofNat 32 (e.2 / 2 ^ (32 * (r - o.dst.toNat))) | none => q.reg r l) else q.reg r l)) ∧
          (t.dev.groupOf g).paths = q.paths ∧ (t.dev.groupOf g).busyRegs = q.busyRegs.filter (fun r => !((lsuRegs o.dst.toNat o.size).map (BitVec.ofNat 8)).contains r))) ∧
      ((s.dev.core g.core).exc = none → Completes (.loadDataReturn g op .uncorrectable) s (fun t => ∃ r, (t.dev.core g.core).exc = some r ∧ r.code = 0x42 ∧ r.pc = o.pc))) ∧
    (∀ (p : RPath) (k : CoreId → List OutOp) (M : Owner → Prop) (W : FenceRec → Prop), s.dev.Issues g .m b q p →
      M = (fun o => o.slot = g.slot.toNat ∧ o.grp = g.grp.toNat ∧ o.launchIx = b.launchIx ∧ o.block = b.index) →
      W = (fun f => (∀ i ∈ (s.dev.eng g.core).readers, M i.owner → i.id ∈ f.reads) ∧ (∀ u ∈ (s.dev.eng g.core).tiles, u.ins.owner.slot = g.slot.toNat → u.ins.id ∈ f.tiles) ∧
        ∀ r ∈ s.dev.srv.ranges, r.core = some g.core → (∃ o, r.owner = some o ∧ M o) → r.id ∈ f.ranges) → k = (fun c => (s.dev.core c).ops.filter (fun o => o.ofGroup g b && !o.accs.isEmpty)) →
      Completes (.fenceC g) s (fun t => OnlyGroup g s t ∧ (t.dev.groupOf g).regs = q.regs ∧ ∃ f, (t.dev.groupOf g).fence = some f ∧ f.kind = .c ∧ f.at' = s.dev.cycOf g.core ∧
        f.ops = ((k g.core).filter (fun o => o.space != .global)).map (·.id) ∧ f.remote = [] ∧ f.ranges = []) ∧
      Completes (.fenceD g) s (fun t => OnlyGroup g s t ∧ (t.dev.groupOf g).regs = q.regs ∧ ∃ f, (t.dev.groupOf g).fence = some f ∧ f.kind = .d ∧ f.at' = s.dev.cycOf g.core ∧
        f.ops = (k g.core).map (·.id) ∧ f.remote = [] ∧ W f) ∧
      Completes (.fenceF g) s (fun t => OnlyGroup g s t ∧ (t.dev.groupOf g).regs = q.regs ∧ ∃ f, (t.dev.groupOf g).fence = some f ∧ f.kind = .f ∧ f.at' = s.dev.cycOf g.core ∧
        f.ops = (k g.core).map (·.id) ∧ W f ∧
        (∀ i, i ∈ f.remote ↔ ∃ r ∈ s.dev.fab.ins, r.id = i ∧ r.core = g.core ∧ M r.owner))) ∧
    (∀ f : FenceRec, s.dev.grp g = some (b, q) → q.fence = some f → s.dev.fenceDone g.core f = true → s.dev.groupLives g = true →
      Completes (.fenceComplete g) s (fun t => Keeps [.clk, .cnt, .cores] s t ∧ t.dev.groupOf g = { q with fence := none } ∧
        ∀ c, c ≠ g.core → t.dev.core c = s.dev.core c))

/-! ### The home of a line -/

/-- R186, state I: a line that no cache holds, without a queue and in no operation, serves an arriving request at once. GETS and GETM make the core its owner and
send it the data; RDU sends the data and changes nothing; WRU merges its bytes; ATOMRED queues its operations at the slice; EVICT frees the line, written
back when dirty, and FLUSH writes it back and keeps it clean. A GETS or GETM of a line in a transient state waits in the line's queue (R184). -/
def Obligations.RequestsOnAPresentLine : Prop :=
  ∀ (s : State) (a : Addr) (l : Nat) (g : GLine), l = a.toNat / 128 → s.dev.AtHome a → s.dev.gline l = some g →
    (g.st = .i → g.queue = [] → g.ops = 0 →
      (∀ c : CoreId, s.dev.Admits .getS l { kind := .getS, port := .core c } → Completes (.gets a c) s (fun t => OnlyLine l s t ∧
        Exchanged .getS l (some c) .dataE (some c) g.data g.poison s t ∧ ∃ u, t.dev.gline l = some { g with st := .ol, owner := some c, sh := {}, used := u })) ∧
      (∀ c : CoreId, s.dev.Admits .getM l { kind := .getM, port := .core c } → Completes (.getm a c) s (fun t => OnlyLine l s t ∧
        Exchanged .getM l (some c) .dataM (some c) g.data g.poison s t ∧ ∃ u, t.dev.gline l = some { g with st := .ol, owner := some c, sh := {}, used := u })) ∧
      (∀ p : MPort, s.dev.Admits .rdU l { kind := .rdU, port := p } → Completes (.rdu a p) s (fun t => OnlyLine l s t ∧
        Exchanged .rdU l (portCore p) (if p == .host then .hostData else .data) (portCore p) g.data g.poison s t ∧ ∃ u, t.dev.gline l = some { g with used := u })) ∧
      (∀ (p : MPort) (mask m : BitVec 128) (data w : Line) (hint : BitVec 2),
        ((s.dev.flying .wrU l (portCore p)).map (fun n => (n.mask, n.data))).getD (mask, data) = (m, w) →
        s.dev.Admits .wrU l { kind := .wrU m w hint, port := p } →
        ((∀ c, p ≠ .core c) → Completes (.wru a p mask data hint) s (fun t => OnlyLine l s t ∧ Exchanged .wrU l none .wrDone none 0 0 s t ∧
          ∃ u, t.dev.gline l = some { g with sh := {}, owner := none, data := mergeLine g.data w m, dirty := true, poison := mergePoison g.poison m, used := u })) ∧
        (s.dev.AllSplit → Completes (.wru a p mask data hint) s (fun t => Keeps [.mem, .cat, .cnt, .vits, .cores, .gal, .msgs, .mesh, .hbm, .rel, .fresh] s t))) ∧
      (∀ (c : CoreId) (ops o : List ElemOp) (ret : Bool), ((s.dev.flying .atomRed l (some c)).map (fun n => n.ops)).getD ops = o →
        s.dev.Admits .atomRed l { kind := .atom o ret, port := .core c } →
        Completes (.atomred a c ops ret) s (fun t => OnlyLine l s t ∧ t.dev.msgs = (s.dev.take .atomRed l (some c)).msgs ∧
          (t.dev.slice (sliceOf l)).ops = (s.dev.slice (sliceOf l)).ops ++ [{ line := l, todo := o, old := [], returns := ret, core := some c }] ∧
          ∃ u, t.dev.gline l = some { g with sh := {}, owner := none, ops := 1, used := u })) ∧
      (∀ wb : Bool, Completes (.evict a wb) s (fun t => Keeps [.mem, .gal, .cnt, .vits, .hbm] s t ∧ (∀ k, k ≠ l → t.dev.gline k = s.dev.gline k) ∧
        t.dev.gline l = none ∧ ((g.dirty && wb) = false → t.mem = s.mem) ∧
        (g.dirty = true → wb = true → Memory.wf s.mem = true → ∀ i, i < 128 → t.mem.byte .hbm (l * 128 + i) = (lineBytes g.data)[i]?.getD 0))) ∧
      Completes (.flush a) s (fun t => Keeps [.mem, .gal, .cnt, .vits, .hbm] s t ∧ t.dev.gline l = some { g with dirty := false } ∧
        (g.dirty = false → t.mem = s.mem) ∧ (g.dirty = true → Memory.wf s.mem = true → ∀ i, i < 128 → t.mem.byte .hbm (l * 128 + i) = (lineBytes g.data)[i]?.getD 0))) ∧
    (g.st.transient = true → ∀ c : CoreId,
      (s.dev.Admits .getS l { kind := .getS, port := .core c } → Completes (.gets a c) s (fun t => OnlyLine l s t ∧ t.dev.msgs = (s.dev.take .getS l (some c)).msgs ∧
        t.dev.gline l = some { g with queue := g.queue ++ [{ kind := .getS, port := .core c }] })) ∧
      (s.dev.Admits .getM l { kind := .getM, port := .core c } → Completes (.getm a c) s (fun t => OnlyLine l s t ∧ t.dev.msgs = (s.dev.take .getM l (some c)).msgs ∧
        t.dev.gline l = some { g with queue := g.queue ++ [{ kind := .getM, port := .core c }] })))

/-- R186, the answers: PUTE and PUTM of a line's owner bring it to I, PUTM with its data, and are acknowledged. The last answer that a waiting GETM awaits (RSPDATA or RSPNODATA of a
recalled owner, the last INVACK, BIRSP) makes its core the owner. The data is that of the message in flight, where there is one. -/
def Obligations.AnswersAtTheHome : Prop :=
  ∀ (s : State) (a : Addr) (l : Nat) (g : GLine) (c : CoreId), l = a.toNat / 128 → s.dev.AtHome a → s.dev.gline l = some g →
    (g.st = .ol → g.owner = some c →
      (s.dev.arrives .putE l (some c) = true → Completes (.pute a c) s (fun t => OnlyLine l s t ∧ Exchanged .putE l (some c) .putAck (some c) 0 0 s t ∧
        t.dev.gline l = some { g with st := .i, owner := none, sh := {} })) ∧
      ∀ data w p, ((s.dev.flying .putM l (some c)).map (fun n => (n.data, n.poison))).getD (data, 0) = (w, p) → s.dev.arrives .putM l (some c) = true →
        Completes (.putm a c data) s (fun t => OnlyLine l s t ∧ Exchanged .putM l (some c) .putAck (some c) 0 0 s t ∧
          t.dev.gline l = some { g with st := .i, owner := none, sh := {}, data := w, poison := p, dirty := true })) ∧
    (∀ e : CoreId, g.cur = some { kind := .getM, port := .core e } → g.queue = [] →
      (g.st = .oRi →
        (∀ data w p, ((s.dev.flying .rspData l (some c)).map (fun n => (n.data, n.poison))).getD (data, 0) = (w, p) → s.dev.arrives .rspData l (some c) = true →
          Completes (.rspdata a c data) s (fun t => OnlyLine l s t ∧ ∃ h, t.dev.gline l = some h ∧ h.st = .ol ∧ h.owner = some e ∧ h.data = w ∧ h.dirty = true ∧ h.cur = none)) ∧
        (s.dev.arrives .rspNoData l (some c) = true →
          Completes (.rspnodata a c) s (fun t => OnlyLine l s t ∧ ∃ h, t.dev.gline l = some h ∧ h.st = .ol ∧ h.owner = some e ∧ h.data = g.data ∧ h.cur = none))) ∧
      (g.st = .sInv → g.acks = 1 → g.bi = false → s.dev.arrives .invAck l (some c) = true →
        Completes (.invack a c) s (fun t => OnlyLine l s t ∧ ∃ h, t.dev.gline l = some h ∧ h.st = .ol ∧ h.owner = some e ∧ h.data = g.data ∧ h.cur = none)) ∧
      (g.st = .hBi → Completes (.birsp a false) s (fun t => OnlyLine l s t ∧ ∃ h, t.dev.gline l = some h ∧ h.st = .ol ∧ h.owner = some e ∧ h.data = g.data ∧ h.cur = none))) ∧
    (g.st = .sInv → 1 < g.acks → s.dev.arrives .invAck l (some c) = true →
      Completes (.invack a c) s (fun t => OnlyLine l s t ∧ t.dev.gline l = some { g with acks := g.acks - 1 }))

/-- HBM_FILL_DATA brings a line in FILL to I with its HBM contents; SLICE_OP_APPLY performs one element operation on its line (R176), and STREAM_ENTRY_EXPIRY frees a
live stream entry (R171). -/
def Obligations.FillsOperationsAndStreams : Prop :=
  ∀ (s : State) (l : Nat) (g : GLine),
    (∀ (a : Addr) (p : BitVec 2), l = a.toNat / 128 → s.dev.AtHome a → s.dev.gline l = some g → g.st = .fill → g.queue = [] →
      (s.dev.inSet (sliceOf l) (setOf l)).any (fun e => e.1 != l && e.2.way == g.way) = false →
      Completes (.hbmFillData a p) s (fun t => Keeps [.gal, .cnt, .vits, .msgs, .mesh, .hbm] s t ∧ (∀ m, m ≠ l → t.dev.gline m = s.dev.gline m) ∧
        t.dev.msgs = (s.dev.take .hbmRead l none).msgs ∧
        ∃ q, t.dev.gline l = some { g with st := .i, data := (s.mem.hbmLine l).1, poison := q } ∧ ∀ i, ((s.mem.hbmLine l).2 ||| p).getLsbD i = true → q.getLsbD i = true)) ∧
    (∀ (sl : ChanId) (o : SliceOp) (rest : List SliceOp) (e n : ElemOp) (todo : List ElemOp), s.dev.runs (sl.val / 96) = true → (s.dev.slice sl.val).ops = o :: rest → o.line = l → l < 2 ^ 41 / 128 → sliceOf l = sl.val →
      s.dev.gline l = some g → o.todo = e :: n :: todo → (∀ k ∈ o.todo, g.poison.getLsbD (k.off.toNat / 64) = false) →
      Completes (.sliceOpApply sl) s (fun t => OnlyLine l s t ∧ t.dev.gline l = some { g with data := (elemStep e g.data).1, dirty := true } ∧
        (t.dev.slice sl.val).ops = { o with todo := n :: todo, old := o.old ++ [(e.lane.toNat, (elemStep e g.data).2)] } :: rest)) ∧
    (∀ (sl : ChanId) (p : MPort) (k : BitVec 4) (e : StreamEnt), ((s.dev.slice sl.val).port p)[k.toNat]? = some e → e.live = true → s.dev.runs (sl.val / 96) = true →
      Completes (.streamEntryExpiry sl p k) s (fun t => Keeps [.clk, .cnt, .gal] s t ∧ (∀ m, t.dev.gline m = s.dev.gline m) ∧
        4 * (e.moved + 4096) ≤ (t.dev.die (sl.val / 96)).root ∧ ∃ e', ((t.dev.slice sl.val).port p)[k.toNat]? = some e' ∧ e'.live = false ∧ e'.next = e.next))

/-! ### Power, clocks and heat -/

/-- R334: at POWER_CONTROL_INTERVAL, a control interval having passed, an OPPORTUNISTIC Vitrine of the die that runs a step, under no hard limit, worn hold or
pace-match, loses 4 of its DUTY0, to 16 at least, when it is over its power or the die is hot; gains 1, to 64 at most, when it is cool and its powers stand at
95% or below; and keeps it otherwise. The die holds the reading (R328). -/
def Obligations.PowerLoopMovesDutyByItsRule : Prop :=
  ∀ (s : State) (i : DieId) (rd : DieReading) (j : Fin 4), s.dev.runs i.toNat = true → (s.dev.dpow i.toNat).at' + 65536 ≤ s.dev.cyc i.toNat →
    (s.dev.dpow i.toNat).hard = false → (s.dev.dpow i.toNat).worn = false →
    ∀ (v : VitId) (q arr attr : Nat), v = BitVec.ofNat 5 (i.toNat * 4 + j.val) → s.dev.runsStep v = true → (s.dev.vit v).cls = 0 → s.dev.vset v 9 3 = 0 →
      (s.dev.vit v).duty0 = q → q ≤ 64 → nthD 0 rd.arrayPower j.val = arr → nthD 0 rd.attrPower j.val = attr →
      Completes (.powerControlInterval i rd) s (fun t => Keeps [.vits, .cat, .cnt, .pow] s t ∧
        (t.dev.dpow i.toNat).temp = rd.temp ∧ (t.dev.dpow i.toNat).at' = s.dev.cyc i.toNat ∧ (t.dev.dpow i.toNat).arrayMw = rd.arrayPower.foldl (· + ·) 0 ∧
        (t.dev.vit v).duty0 =
          if vitArrayMw s.dev.pow.profile < arr ∨ (s.dev.dpow i.toNat).capMw < 4 * attr ∨ (s.dev.force 0x2000 6 0 : Int) < rd.temp then max 16 (q - 4)
          else if rd.temp ≤ (s.dev.force 0x2000 6 0 : Int) - 3 ∧ 100 * arr ≤ 95 * vitArrayMw s.dev.pow.profile ∧ 400 * attr ≤ 95 * (s.dev.dpow i.toNat).capMw then
            min 64 (q + 1)
          else q)

/-- The P-state changes: PSTATE_CHANGE to a higher P-state that the die needs begins with the rails, and PSTATE_SWITCH_DONE, once they have slewed, switches the
divider (R325); PSTATE_CHANGE to a lower one whose condition has held switches it at once (R335). No Vitrine's DUTY0 changes by a switch. -/
def Obligations.PStatesSwitchTheDivider : Prop :=
  ∀ (s : State) (i : DieId) (q : DiePow), s.dev.dpow i.toNat = q → s.dev.runs i.toNat = true →
    (∀ p : Fin 3, q.goal = none → p.val < q.p → q.hard = false → q.due = true → p.val = s.dev.wantP i.toNat →
      Completes (.pstateChange i p) s (fun t => Keeps [.pow] s t ∧ t.dev.dpow i.toNat = { q with goal := some p.val, since := s.dev.ref, due := false } ∧
        ∀ k, k ≠ i.toNat → t.dev.dpow k = s.dev.dpow k)) ∧
    (∀ p : Fin 3, q.goal = none → ¬ p.val < q.p → (p.val = 2 ∧ 5 ≤ q.low2 ∨ p.val = 1 ∧ q.p = 0 ∧ 5 ≤ q.low1) →
      Completes (.pstateChange i p) s (fun t => Keeps [.vits, .clk, .cnt, .pow] s t ∧ t.dev.die i.toNat = { s.dev.die i.toNat with div := p.val + 2 } ∧
        t.dev.dpow i.toNat = { q with p := p.val, goal := none, low1 := 0, low2 := 0 } ∧ ∀ v, (t.dev.vit v).duty0 = (s.dev.vit v).duty0)) ∧
    (∀ p : Nat, q.goal = some p → q.since + 2 * (s.dev.vfMv p - s.dev.vfMv q.p) ≤ s.dev.ref →
      Completes (.pstateSwitchDone i) s (fun t => Keeps [.vits, .clk, .cnt, .pow] s t ∧ t.dev.die i.toNat = { s.dev.die i.toNat with div := p + 2 } ∧
        t.dev.dpow i.toNat = { q with p := p, goal := none, low1 := 0, low2 := 0 } ∧ ∀ v, (t.dev.vit v).duty0 = (s.dev.vit v).duty0))

/-- R328, R329: POWER_BUDGET_TICK takes the external powers, sums the device's power and sends each die its cap and external power; DIE_BUDGET stores them and the
die answers; DIE_REPORT holds the die's array power, temperature, P-state and duties. -/
def Obligations.BudgetsAreSentStoredAndReported : Prop :=
  ∀ (s : State),
    (∀ (ext : List Nat) (atrium : Nat), s.dev.pow.budgetAt + 100000 ≤ s.dev.ref →
      Completes (.powerBudgetTick ext atrium) s (fun t => Keeps [.pow, .net, .host] s t ∧ t.dev.pow.dies = s.dev.pow.dies ∧ t.dev.pow.ext = ext ∧
        t.dev.pow.deviceMw = ((List.range 8).map (fun i => (s.dev.dpow i).arrayMw)).sum + ext.sum + atrium ∧
        t.dev.net.ctl = s.dev.net.ctl ++ 
          (List.range 8).map (fun i => { cls := .power, toAtrium := false, die := BitVec.ofNat 3 i, body := BitVec.ofNat 64 (dieCapMw s.dev.pow.profile + nthD 0 ext i * 2 ^ 32), agent := .power }))) ∧
    (∀ (i : DieId) (cap ext : Nat), s.dev.runs i.toNat = true →
      Completes (.dieBudget i cap ext) s (fun t => Keeps [.pow, .net] s t ∧ t.dev.dpow i.toNat = { s.dev.dpow i.toNat with capMw := cap, extMw := ext } ∧
        t.dev.net.ctl = s.dev.net.ctl ++ [{ cls := .power, toAtrium := true, die := i, body := BitVec.ofNat 64 (s.dev.dpow i.toNat).arrayMw, agent := .curator }])) ∧
    (∀ (i : DieId), Completes (.dieReport i) s (fun t => Keeps [.pow] s t ∧
        (t.dev.dpow i.toNat).report = some ((s.dev.dpow i.toNat).arrayMw, (s.dev.dpow i.toNat).temp, (s.dev.dpow i.toNat).p,
          (vitsOfDie i.toNat).map (fun v => (s.dev.vit v).duty0))))

/-- R337, R339: a reading at or above its limit, an alert, a silent regulator or a low input puts its die into HARD for that cause, so that no Vitrine of the die has
a DUTY_LIMIT above 16, and a die that enters HARD goes to P2; a reading 5 degrees below, an input above 11.3 V, or a released alert without a fault marks the cause clear from that
reference cycle; HARD_LIMIT_EXIT leaves HARD when every cause has been clear for 100,000 reference cycles. -/
def Obligations.HardLimitsEnterAndClear : Prop :=
  ∀ (s : State) (i : DieId) (q : DiePow), s.dev.dpow i.toNat = q →
    (∀ temp : Int, 105 ≤ temp →
      Completes (.dieTempLimit i temp) s (fun t => Keeps [.vits, .cores, .clk, .cat, .cnt, .pow] s t ∧ t.dev.HeldBy i.toNat 0 ∧
        (q.hard = false → (t.dev.dpow i.toNat).p = 2) ∧ (t.dev.dpow i.toNat).temp = temp ∧ ((t.dev.dpow i.toNat).trip.isSome = true ↔ q.trip.isSome = true ∨ 115 ≤ temp) ∧
        ∀ v, dieOfVit v = i.toNat → t.dev.dutyLimit v ≤ 16)) ∧
    (∀ temp : Int, temp ≤ 100 →
      Completes (.dieTempLimit i temp) s (fun t => Keeps [.pow] s t ∧ (t.dev.dpow i.toNat).temp = temp ∧ (t.dev.dpow i.toNat).hard = q.hard ∧
        (kfind q.causes 0 = some none → kfind (t.dev.dpow i.toNat).causes 0 = some (some s.dev.ref)))) ∧
    (∀ (k : StackId) (b : BitVec 8), k.val / 3 = i.toNat → s.dev.runs i.toNat = true → 8 * ((kget ({} : HStack) s.dev.hbm.stk k.val).readAt + 2 ^ 20) ≤ (s.dev.die i.toNat).root →
      106 ≤ b.toInt →
      Completes (.stackTempRead k (some b)) s (fun t => Keeps [.vits, .cores, .clk, .cat, .cnt, .pow, .hbm] s t ∧ t.dev.HeldBy i.toNat (1 + k.val % 3) ∧
        (kget ({} : HStack) t.dev.hbm.stk k.val).temp = b.toInt)) ∧
    (∀ mv : BitVec 16, mv.toNat < 11000 →
      Completes (.inputUndervoltage mv) s (fun t => Keeps [.vits, .cores, .clk, .cat, .cnt, .pow, .host] s t ∧ t.dev.host.vin = mv.toNat ∧
        ∀ k, k < 8 → t.dev.HeldBy k 4)) ∧
    (∀ (seg : Fin 9) (words : List (BitVec 16)),
      Completes (.regulatorAlert seg words) s (fun t => Keeps [.vits, .cores, .clk, .cat, .cnt, .pow] s t ∧
        (seg.val < 8 → t.dev.HeldBy seg.val 5) ∧ (seg.val = 8 → t.dev.pow.atriumAlert = true ∧ t.dev.pow.dies = s.dev.pow.dies))) ∧
    (∀ (seg : Fin 9) (words : List (BitVec 16)), seg.val = i.toNat → kfind q.causes 5 = some none → words.all (fun w => w == 0) = true →
      Completes (.regulatorStatusPoll seg words true) s (fun t => Keeps [.pow] s t ∧ kfind (t.dev.dpow i.toNat).causes 5 = some (some s.dev.ref))) ∧
    Completes (.regulatorSilent i) s (fun t => Keeps [.vits, .cores, .clk, .cat, .cnt, .pow] s t ∧ t.dev.HeldBy i.toNat 5) ∧
    (q.hard = true → (∀ e ∈ q.causes, ∃ n, e.2 = some n ∧ n + 100000 ≤ s.dev.ref) → 100000 ≤ s.dev.ref →
      Completes (.hardLimitExit i) s (fun t => Keeps [.cores, .cat, .cnt, .pow] s t ∧ t.dev.dpow i.toNat = { q with hard := false, causes := [] }))

/-- R337, R89: a persisting over-voltage trips the die, whose clocks stop; an array over 3.0 A has the ceiling 0 for 1,024 core cycles and then its ceiling
back; an interval on the array has by then advanced under the old stage (R86). R344, R345: MARGIN_CHECK raises the trim of a die that is short by one step and appends the raise to TRIM_HISTORY, and holds a die at the limit as worn. -/
def Obligations.TripsCeilingsAndTrim : Prop :=
  ∀ (s : State) (i : DieId) (q : DiePow), s.dev.dpow i.toNat = q →
    (∀ mv : BitVec 16, 900 ≤ mv.toNat → q.trip = none →
      Completes (.railOvervoltage i mv true) s (fun t => Keeps [.clk, .cat, .pow] s t ∧ t.dev.dpow i.toNat = { q with trip := some 2 } ∧
        t.dev.die i.toNat = { s.dev.die i.toNat with running := false })) ∧
    (∀ (c : CoreId) (mA : BitVec 16), s.dev.runs (dieOfCore c) = true → 3000 < mA.toNat →
      Completes (.arrayCurrentLimit c mA) s (fun t => Keeps [.cores, .cnt] s t ∧ (∀ e, e ≠ c → t.dev.core e = s.dev.core e) ∧
        ∃ rs, ((s.dev.eng c).ivalAt = none → rs = (s.dev.eng c).runs ∧ Keeps [.cores] s t) ∧
          t.dev.core c = { s.dev.core c with eng := { s.dev.eng c with runs := rs, ceil := 0, stage := 0, limited := some (s.dev.cyc (dieOfCore c) + 1024) } })) ∧
    (∀ (c : CoreId) (n : Nat), s.dev.runs (dieOfCore c) = true → (s.dev.eng c).limited = some n → n ≤ s.dev.cyc (dieOfCore c) →
      Completes (.arrayCeilingRelease c) s (fun t => Keeps [.cores] s t ∧ (∀ e, e ≠ c → t.dev.core e = s.dev.core e) ∧
        t.dev.eng c = { s.dev.eng c with limited := none, ceil := if (s.dev.dpow (dieOfCore c)).hard = true then s.dev.rampStages / 2 else s.dev.rampStages })) ∧
    (s.dev.runs i.toNat = true → q.marginAt + 2 ^ 36 ≤ s.dev.ref →
      Completes (.marginCheck i false) s (fun t => Keeps [.pow] s t ∧ t.dev.dpow i.toNat = { q with marginAt := s.dev.ref }) ∧
      (q.trim < s.dev.force 0x2000 8 0 →
        Completes (.marginCheck i true) s (fun t => Keeps [.pow, .cat, .rel] s t ∧
          t.dev.dpow i.toNat = { q with marginAt := s.dev.ref, trim := q.trim + 1, hist := q.hist ++ [(s.dev.rel.hours, q.trim + 1)] })) ∧
      (s.dev.force 0x2000 8 0 ≤ q.trim → q.worn = false →
        Completes (.marginCheck i true) s (fun t => Keeps [.pow, .cat, .vits, .clk, .cnt] s t ∧ (t.dev.dpow i.toNat).worn = true ∧ (t.dev.dpow i.toNat).trim = q.trim ∧
          (t.dev.dpow i.toNat).p ≠ 0 ∧ ∀ v, dieOfVit v = i.toNat → t.dev.dutyLimit v ≤ 42)))

/-- R252, R341: a leader whose tenancy's state is unsent, its last notice at least 1,000 reference cycles old, sends one PACE of the next PACE_SEQ to each member device,
with the lowest duty as CLOCK_FRACTION and its JOB_EPOCH. R252, R342: a leader holds the PACE that a member sends its group, of no lower epoch and with a higher PACE_SEQ. -/
def Obligations.PaceNoticesAreSentAndHeld : Prop :=
  ∀ (s : State) (v : VitId) (p : PaceSt), (s.dev.vit v).pace = p →
    (∀ i : Instr, p.unsent = true → (i = .paceSend v ∧ (∀ n, p.sentAt = some n → n + 1000 ≤ s.dev.ref) ∨ i = .paceLatestStateSend v ∧ ∃ n, p.sentAt = some n ∧ n + 1000 ≤ s.dev.ref) →
      Completes i s (fun t => Keeps [.vits, .fab, .cnt] s t ∧ (∀ w, w ≠ v → t.dev.vit w = s.dev.vit w) ∧
        t.dev.vit v = { s.dev.vit v with pace := { p with seq := p.seq + 1, sentAt := some s.dev.ref, unsent := false } } ∧
        ∃ (op : ROp) (low : Nat), op.type = .pace ∧ op.src = s.dev.devId ∧ op.group = s.dev.group v ∧ op.epoch = s.dev.epoch v ∧
          fld op.operand1.toNat 48 16 = min 0xFFFF (65536 * low / 64) % 65536 ∧ fld op.operand1.toNat 12 32 = (p.seq + 1).toNat ∧
          (low = (s.dev.vit v).duty0 ∨ ∃ w ∈ s.dev.tenancy v, low = (s.dev.vit w).duty0) ∧ low ≤ (s.dev.vit v).duty0 ∧ (∀ w ∈ s.dev.tenancy v, low ≤ (s.dev.vit w).duty0) ∧
          t.dev.fab = ((s.dev.members v).foldl (fun (e : Dev) dest => e.sendFree (e.sameTenancy v) { op with dest := dest }) s.dev).fab)) ∧
    (∀ op : ROp, op.dest = s.dev.devId → op.type = .pace → (s.dev.vit v).leader = some v → (s.dev.vit v).held = true → op.group = s.dev.group v → op.group ≠ 0 →
      (s.dev.epoch v).toNat ≤ op.epoch.toNat → op.src ∈ s.dev.members v → (∀ h ∈ p.heldFrom, h.1 = op.src → h.2.1.toNat < (fld op.operand1.toNat 12 32)) →
      Completes (.paceReceive op) s (fun t => Keeps [.vits, .fab, .cnt, .cat] s t ∧
        (t.dev.vit v).pace = { p with heldFrom := p.heldFrom.filter (fun h => h.1 != op.src) ++
          [(op.src, BitVec.ofNat 32 (fld op.operand1.toNat 12 32), fld op.operand1.toNat 48 16, fld op.operand1.toNat 44 4)] }))

/-! ### Rules stated word for word -/

/-- R4: Vitrine n = die x 4 + Wing x 2 + pair holds the cores of clusters 0 and 1 of its Wing when pair = 0, and of clusters 2 and 3 when pair = 1. -/
def Obligations.VitrinesHoldTheirClusters : Prop :=
  ∀ (die wing cluster core pair : Nat), die < 8 → wing < 2 → cluster < 4 → core < 8 → pair < 2 →
    (vitOfCore (BitVec.ofNat 9 (die * 64 + wing * 32 + cluster * 8 + core)) = BitVec.ofNat 5 (die * 4 + wing * 2 + pair) ↔
      (pair = 0 ∧ (cluster = 0 ∨ cluster = 1) ∨ pair = 1 ∧ (cluster = 2 ∨ cluster = 3)))

/-- R462: SHIFT and FP32_TO_INTEGER_CONVERSION complete with the values of the rule: amounts below 32 shift as written, amounts of 32 and more give 0, or 32 copies of the
sign bit for an arithmetic right shift, and no flag is set; a conversion rounds under its mode, an in-range value is written and is inexact when it differs, and a NaN, a value
below and a value above the range give 0, the smallest and the largest value with the invalid flag and no other. -/
def Obligations.ShiftsAndIntegerConversionsGiveTheRulesValues : Prop :=
  ∀ (s : State) (g : GRef) (b : Block) (q : Group) (p : RPath) (dst x amt : Byte), s.dev.Issues g .v b q p → Ready b q [x.toNat, amt.toNat, dst.toNat] →
    (∀ op : ShiftOp, Completes (.shift g op dst x amt true) s (fun t => OnlyGroup g s t ∧ ∃ w : Nat → Word, Wrote q (t.dev.groupOf g) p dst.toNat w (fun _ => 0) ∧
      ∀ l, let a := q.reg x.toNat l; let n := (q.reg amt.toNat l).toNat
        (n < 32 → w l = match op with | .shl => a <<< n | .shr => a >>> n | .sar => a.sshiftRight n) ∧
        (32 ≤ n → w l = match op with | .shl => 0 | .shr => 0 | .sar => if a.toInt < 0 then BitVec.allOnes 32 else 0))) ∧
    (∀ (signed : Bool) (mode : RMode), Completes (.fp32ToIntegerConversion g signed mode dst x true) s (fun t => OnlyGroup g s t ∧
      ∃ (w : Nat → Word) (fl : Nat → Flags), Wrote q (t.dev.groupOf g) p dst.toNat w fl ∧ ∀ l,
        (val32 (q.reg x.toNat l) = .nan → w l = 0 ∧ fl l = flInvalid) ∧
        (∀ neg, val32 (q.reg x.toNat l) = .inf neg → fl l = flInvalid ∧
          w l = if neg then (if signed then 0x80000000 else 0) else (if signed then 0x7FFFFFFF else 0xFFFFFFFF)) ∧
        (∀ (neg : Bool) (m : Nat) (e i : Int), val32 (q.reg x.toNat l) = .fin neg m e →
          RoundsTo mode ((if neg then -1 else 1) * (m * 2 ^ e.toNat : Nat)) (2 ^ (-e).toNat) i →
          if i < (if signed then -2147483648 else 0) then w l = (if signed then 0x80000000 else 0) ∧ fl l = flInvalid
          else if (if signed then 2147483647 else 4294967295) < i then w l = (if signed then 0x7FFFFFFF else 0xFFFFFFFF) ∧ fl l = flInvalid
          else w l = BitVec.ofInt 32 i ∧ fl l = if (if neg then -1 else 1) * ((m * 2 ^ e.toNat : Nat) : Int) = i * (2 ^ (-e).toNat : Nat) then 0 else flInexact)))

/-- R285: slot s of a Vitrine's two checkpoint slots, each of CKPT_SLOT_STEPS x 256 MiB, begins at window offset 0xB_4000_0000 - (2 - s) x CKPT_SLOT_STEPS x 0x1000_0000. -/
def Obligations.CheckpointSlotsLieAtTheEndOfTheWindow : Prop :=
  ∀ (d : Dev) (v : VitId) (n k : Nat), d.vset v 0 4 = n → n ≤ 16 → k < 2 →
    d.slotBytes v = n * 2 ^ 28 ∧ d.slotAt v k = v.toNat * 2 ^ 36 + (0xB40000000 - (2 - k) * n * 0x10000000) ∧
    d.slotAt v k + d.slotBytes v = if k = 0 then d.slotAt v 1 else v.toNat * 2 ^ 36 + 0xB40000000

/-! ### HBM -/

/-- R143, R145, R147, R148: a burst request enters its queue of 64, a read with the burst and its poison as performed, a write performed at its 64 bytes alone; HBM_SCHEDULE
sends the one waiting read to the stack, opening its row where another was open, but the postponed refreshes go before a new activate (R150); HBM_BURST_READ returns its data, with
the error corrected and counted, or poisoned and counted when uncorrectable; HBM_RMW changes the masked bytes alone. A burst's bytes stand at the place of the address served
(`hbmKey` of `HPc.home`, log 79). -/
def Obligations.HbmRequestsBurstsAndRmw : Prop :=
  ∀ (s : State) (ch : ChanId) (a : BitVec 31) (q : HPc) (y : Nat), s.dev.hpc ch.val (pcOf a.toNat) = q → s.dev.runs (dieOfChan ch.val) = true → Memory.wf s.mem = true →
    hbmKey ch.val (q.home a.toNat) / 64 = y →
    (∀ (data : BitVec 512) (port : MPort) (slack : Option (BitVec 16)), q.reads.length < 64 →
      Completes (.hbmRequestAccept ch false a data ⟨port, slack⟩) s (fun t => Keeps [.hbm] s t ∧ t.dev.hpc ch.val (pcOf a.toNat) =
        { q with reads := q.reads ++ [{ a := a.toNat, high := s.dev.reqHigh port (vitOfChan ch.val) slack, at' := s.dev.hbmCycle (dieOfChan ch.val), data := (s.mem.burst q ch.val a.toNat).1, poison := (s.mem.burst q ch.val a.toNat).2 }] })) ∧
    (∀ (data : BitVec 512) (port : MPort) (slack : Option (BitVec 16)), q.writes.length < 64 →
      Completes (.hbmRequestAccept ch true a data ⟨port, slack⟩) s (fun t => Keeps [.hbm, .mem] s t ∧
        t.dev.hpc ch.val (pcOf a.toNat) = { q with ret := kdel q.ret (a.toNat / 64), writes := q.writes ++
          [{ a := a.toNat, high := s.dev.reqHigh port (vitOfChan ch.val) slack, at' := s.dev.hbmCycle (dieOfChan ch.val) }] } ∧
        (∀ i, i < 64 → t.mem.byte .hbm (y * 64 + i) = BitVec.ofNat 8 (data.toNat / 2 ^ (8 * i))) ∧
        (∀ tp b, (tp ≠ .hbm ∨ b / 64 ≠ y) → t.mem.byte tp b = s.mem.byte tp b) ∧ t.mem.poison.contains y = false)) ∧
    (∀ (pc : Bool) (r : HReq), pcOf a.toNat = (if pc then 1 else 0) → q.calEnd ≤ s.dev.hbmCycle (dieOfChan ch.val) → q.reads = [r] → q.writes = [] →
      pcOf r.a = pcOf a.toNat → kget 0 q.busy (q.place r.a / 16384) ≤ s.dev.hbmCycle (dieOfChan ch.val) →
      (q.hits (q.place r.a) = true ∨ q.postponed = 0 →
        Completes (.hbmSchedule ch pc) s (fun t => Keeps [.hbm, .cnt] s t ∧ t.dev.hpc ch.val (pcOf a.toNat) =
          { q with drain := false, rows := if q.hits (q.place r.a) then q.rows else kset q.rows (q.place r.a / 16384) (q.place r.a % 16384), reads := [],
                   flight := q.flight ++ [r] })) ∧
      (q.hits (q.place r.a) = false → 0 < q.postponed →
        Completes (.hbmSchedule ch pc) s (fun t => Keeps [.hbm] s t ∧ (t.dev.hpc ch.val (pcOf a.toNat)).reads = [r] ∧ (t.dev.hpc ch.val (pcOf a.toNat)).postponed = 0 ∧
          (t.dev.hpc ch.val (pcOf a.toNat)).rotate = (q.rotate + q.postponed) % 64))) ∧
    (∀ r : HReq, q.calEnd ≤ s.dev.hbmCycle (dieOfChan ch.val) → q.flight.find? (fun r => r.a / 64 == a.toNat / 64) = some r →
      Completes (.hbmBurstRead ch a .none) s (fun t => Keeps [.hbm] s t ∧ t.dev.hpc ch.val (pcOf a.toNat) =
        { q with flight := delFirst (fun u => u.a / 64 == a.toNat / 64) q.flight, ret := kset q.ret (a.toNat / 64) (r.data, r.poison) }) ∧
      (∀ k, Completes (.hbmBurstRead ch a (.oneSymbol k)) s (fun t => Keeps [.hbm, .cnt] s t ∧
        kfind (t.dev.hpc ch.val (pcOf a.toNat)).ret (a.toNat / 64) = some (r.data, r.poison) ∧
        t.dev.counter 0x8014 5 (vitOfChan ch.val).toNat = (s.dev.counter 0x8014 5 (vitOfChan ch.val).toNat + 1) % 2 ^ 64)) ∧
      ∀ e : BurstErr, (e = .twoOrThree ∨ e = .fourOrMore false ∨ ∃ v, e = .wrongAddress v) →
        Completes (.hbmBurstRead ch a e) s (fun t => Keeps [.hbm, .cnt, .rel] s t ∧
          kfind (t.dev.hpc ch.val (pcOf a.toNat)).ret (a.toNat / 64) = some (r.data, true) ∧
          t.dev.counter 0x8014 6 (vitOfChan ch.val).toNat = (s.dev.counter 0x8014 6 (vitOfChan ch.val).toNat + 1) % 2 ^ 64)) ∧
    (∀ (mask : BitVec 64) (data : BitVec 512), q.calEnd ≤ s.dev.hbmCycle (dieOfChan ch.val) →
      Completes (.hbmRmw ch a mask data [] .none) s (fun t => Keeps [.mem, .cnt, .hbm] s t ∧
        (∀ i, i < 64 → t.mem.byte .hbm (y * 64 + i) = if mask.getLsbD i then BitVec.ofNat 8 (data.toNat / 2 ^ (8 * i)) else s.mem.byte .hbm (y * 64 + i)) ∧
        (∀ tp b, (tp ≠ .hbm ∨ b / 64 ≠ y) → t.mem.byte tp b = s.mem.byte tp b) ∧
        t.dev.counter 0x8014 3 (vitOfChan ch.val).toNat = (s.dev.counter 0x8014 3 (vitOfChan ch.val).toNat + 1) % 2 ^ 64))

/-- R149-R152, R155-R160: HBM_REFRESH postpones a refresh while open rows are hit, and else refreshes the banks of the rotation, each held for 132 cycles; HBM_CALIBRATION opens a window
of 384 cycles; ONDIE_COUNT_READ adds the counts of the die's Vitrines; HBM_SCRUB reads the next burst, and counts, poisons and lists an uncorrectable one; ROW_RETIRE gives a row an unused
spare of its bank; ROW_OFFLINE puts a row of a bank without spares into the pool of another, redirects a whole bank, and with 256 entries or two banks gives the Vitrine up. Which unused
row is taken is log 79. -/
def Obligations.HbmUpkeepAndRepairs : Prop :=
  ∀ (s : State) (ch : ChanId) (pc : Bool) (p : Nat) (q : HPc) (h : HChan), p = (if pc then 1 else 0) → s.dev.hpc ch.val p = q → s.dev.hchan ch.val = h → s.dev.runs (dieOfChan ch.val) = true →
    (8 * (q.refAt + s.dev.refInterval (stackOfChan ch.val)) ≤ (s.dev.die (dieOfChan ch.val)).root →
      (q.postponed < 8 → Completes (.hbmRefresh ch pc true) s (fun t => Keeps [.hbm] s t ∧
        t.dev.hpc ch.val p = { q with refAt := q.refAt + s.dev.refInterval (stackOfChan ch.val), postponed := q.postponed + 1 })) ∧
      (∀ hit : Bool, hit = false ∨ 8 ≤ q.postponed → Completes (.hbmRefresh ch pc hit) s (fun t => Keeps [.hbm] s t ∧
        (t.dev.hpc ch.val p).postponed = 0 ∧ (t.dev.hpc ch.val p).rotate = (q.rotate + q.postponed + 1) % 64 ∧
        (t.dev.hpc ch.val p).refAt = q.refAt + s.dev.refInterval (stackOfChan ch.val))) ∧
      (q.postponed = 0 → Completes (.hbmRefresh ch pc false) s (fun t => Keeps [.hbm] s t ∧
        t.dev.hpc ch.val p = { q with refAt := q.refAt + s.dev.refInterval (stackOfChan ch.val), rotate := (q.rotate + 1) % 64, rows := kdel q.rows q.rotate,
                                      busy := kset q.busy q.rotate (max (s.dev.hbmCycle (dieOfChan ch.val)) (kget 0 q.busy q.rotate) + 132) }))) ∧
    (8 * (q.calAt + s.dev.force 0x4000 3 0) ≤ (s.dev.die (dieOfChan ch.val)).root → (∀ e ∈ s.dev.hbm.pcs, e.2.calEnd ≤ s.dev.hbmCycle (dieOfChan ch.val)) →
      Completes (.hbmCalibration ch pc) s (fun t => Keeps [.hbm] s t ∧
        t.dev.hpc ch.val p = { q with calAt := s.dev.hbmCycle (dieOfChan ch.val), calEnd := s.dev.hbmCycle (dieOfChan ch.val) + 384 })) ∧
    (∀ (i : DieId) (c0 c1 c2 c3 : Word), s.dev.runs i.toNat = true → 8 * (kget 0 s.dev.hbm.ondieAt i.toNat + 2 ^ 30) ≤ (s.dev.die i.toNat).root →
      Completes (.ondieCountRead i c0 c1 c2 c3) s (fun t => Keeps [.hbm, .cnt] s t ∧ kget 0 t.dev.hbm.ondieAt i.toNat = s.dev.hbmCycle i.toNat ∧
        ∀ (k : Nat) (n : Word), [c0, c1, c2, c3][k]? = some n → t.dev.counter 0x8014 7 (i.toNat * 4 + k) = (s.dev.counter 0x8014 7 (i.toNat * 4 + k) + n.toNat) % 2 ^ 64)) ∧
    (∀ a Q, h.scrub * 64 = a → s.dev.hpc ch.val (pcOf a) = Q → 8 * max (h.scrubAt + s.dev.force 0x4000 2 0) Q.calEnd ≤ (s.dev.die (dieOfChan ch.val)).root →
      Completes (.hbmScrub ch .none) s (fun t => Keeps [.hbm] s t ∧
        t.dev.hchan ch.val = { h with scrub := (h.scrub + 1) % 2 ^ 25, scrubAt := s.dev.hbmCycle (dieOfChan ch.val) }) ∧
      ((s.dev.vit (vitOfChan ch.val)).leader = none → Q.writing a = false →
        Completes (.hbmScrub ch .twoOrThree) s (fun t => Keeps [.hbm, .mem, .cnt, .rel] s t ∧ t.mem.poison.contains (hbmKey ch.val (Q.home a) / 64) = true ∧
          (t.dev.hchan ch.val).scrub = (h.scrub + 1) % 2 ^ 25 ∧
          (∃ r ∈ (t.dev.hchan ch.val).due, r.pc = pcOf a ∧ r.bank = Q.place a / 16384 ∧ r.row = Q.place a % 16384) ∧
          t.dev.counter 0x8014 6 (vitOfChan ch.val).toNat = (s.dev.counter 0x8014 6 (vitOfChan ch.val).toNat + 1) % 2 ^ 64))) ∧
    (∀ (bank : BankId) (row : BitVec 14) (r : HRow) (k n : Nat), bankNum bank * 16384 + row.toNat = k →
      h.due.find? (fun r => r.pc == p && r.bank == bankNum bank && r.row == row.toNat) = some r → s.dev.mayRepair ch.val r.unc = true →
      (∀ found, q.spare (bankNum bank) = some n → Completes (.rowRetire ch pc bank ⟨row, found⟩) s (fun t => Keeps [.mem, .cnt, .fresh, .hbm, .cat, .rel] s t ∧
        (t.dev.hpc ch.val p).remap = kset q.remap k n ∧ (t.dev.hpc ch.val p).spares = kupd 0 q.spares (bankNum bank) (· + 1) ∧
        (found = [] → Keeps [.hbm, .cat, .rel] s t))) ∧
      (q.spare (bankNum bank) = none → q.pool.length < 256 → q.poolFor (bankNum bank) = some n →
        Completes (.rowOffline ch pc bank row false) s (fun t => Keeps [.hbm, .cat, .rel] s t ∧ t.dev.hpc ch.val p =
          { q with pool := kset q.pool k n, ce := kdel q.ce k, fixed := q.fixed.filter (fun f => q.place (f * 64) != k) })) ∧
      (q.spare (bankNum bank) = none → 256 ≤ q.pool.length → Completes (.rowOffline ch pc bank row false) s (fun t => Keeps [.hbm] s t ∧
        t.dev.hbm = { s.dev.hbm with giveUp := putBit s.dev.hbm.giveUp (vitOfChan ch.val).toNat true }))) ∧
    (∀ (bank : BankId) (row : BitVec 14), h.due = [] → 64 ≤ q.gone (bankNum bank) → kfind q.redirected (bankNum bank) = none → s.dev.mayRepair ch.val true = true →
      (q.redirected.length < 2 → Completes (.rowOffline ch pc bank row true) s (fun t => Keeps [.hbm, .cat, .rel] s t ∧
        t.dev.hpc ch.val p = q.redirect (bankNum bank))) ∧
      (2 ≤ q.redirected.length → Completes (.rowOffline ch pc bank row true) s (fun t => Keeps [.hbm] s t ∧
        t.dev.hbm.giveUp = putBit s.dev.hbm.giveUp (vitOfChan ch.val).toNat true)))

/-! ### Matrix engines, walkers and Provenance -/

/-- R70-R74, R123: with room in its core's queue of 16, an MX instruction whose bank is as it must be and whose contexts fit is queued, opens or closes its bank, and moves its contexts
on by the positions it takes; MX.WAIT holds its group while more than n instructions of its block remain; with DEBUG_MODE 1 and nothing of the block in the engine, MX.RDACC
writes the selected values (R85); each MX.WAIT and MX.RDACC that completes is counted (R90). -/
def Obligations.MatrixInstructionsQueue : Prop :=
  ∀ (s : State) (g : GRef) (b : Block) (q : Group) (p : RPath) (a : Bool), s.dev.Issues g .x b q p → (s.dev.eng g.core).queue.length < 16 →
    ((b.bank a).isOpen = false → Completes (.mxOpen g a) s (fun t => Enqueued g (b.setBank a (fun k => { k with isOpen := true })) q p (.opn a) {} {} s t)) ∧
    ((b.bank a).isOpen = true → Completes (.mxClose g a) s (fun t => Enqueued g (b.setBank a (fun k => { k with isOpen := false })) q p (.close a) {} {} s t)) ∧
    (∀ (fmt : Fmt) (o : WkCtx), fmt = .fp32 ∨ fmt = .bf16 → (b.bank a).isOpen = false → b.ctxO = some o → dFmt o.desc = some fmt → 1 ≤ o.left →
      Completes (.mxLdacc g a fmt) s (fun t =>
        Enqueued g ((b.setBank a (fun k => { k with isOpen := true })).setCtx .o { o with pos := o.pos + 1 }) q p (.ldacc a fmt) o.ref {} s t)) ∧
    (∀ (rc : Byte) (ctrl : BitVec 64) (fa fb : Fmt) (ca cb : WkCtx), Ready b q [rc.toNat, rc.toNat + 1] → ctrl = BitVec.ofNat 64 (q.reg64 rc.toNat (lowLane p.mask)) →
      (b.bank a).isOpen = true → ctrlPair ctrl = some (fa, fb) → b.ctxA = some ca → b.ctxB = some cb → dFmt ca.desc = some fa → dFmt cb.desc = some fb →
      (fa.scaled = true → ca.pos % 32 = 0) → (fb.scaled = true → cb.pos % 32 = 0) → 32 * ctrlK ctrl ≤ ca.left → 32 * ctrlK ctrl ≤ cb.left →
      Completes (.mxMma g a rc) s (fun t =>
        Enqueued g ((b.setCtx .a { ca with pos := ca.pos + 32 * ctrlK ctrl }).setCtx .b { cb with pos := cb.pos + 32 * ctrlK ctrl }) q p (.mma a ctrl) ca.ref cb.ref s t)) ∧
    (∀ (rs : Byte) (sc : Word) (f : Fmt) (m : RMode) (o : WkCtx), Ready b q [rs.toNat] → sc = q.reg rs.toNat (lowLane p.mask) → (b.bank a).isOpen = true →
      sctrlOut sc = some (f, m) → b.ctxO = some o → dFmt o.desc = some f → 1 ≤ o.left →
      Completes (.mxStore g a rs) s (fun t =>
        Enqueued g ((b.setBank a (fun k => { k with isOpen := !sctrlClose sc })).setCtx .o { o with pos := o.pos + 1 }) q p (.store a sc) o.ref {} s t)) ∧
    (∀ n : BitVec 4, Completes (.mxWait g n) s (fun t => CountedGroup g s t ∧ (n.toNat < (s.dev.eng g.core).load g.slot.toNat → OnlyGroup g s t) ∧
      ((s.dev.eng g.core).load g.slot.toNat ≤ n.toNat → t.dev.counter 0x8011 1 (vitOfCore g.core).toNat = (s.dev.counter 0x8011 1 (vitOfCore g.core).toNat + 1) % 2 ^ 64) ∧ t.dev.groupOf g =
      { q with paths := { p with pc := Config.pcNext p.pc } :: q.paths.tail, active := (t.dev.groupOf g).active, mxFrom := s.dev.cycOf g.core,
               mxWait := if n.toNat < (s.dev.eng g.core).load g.slot.toNat then some n.toNat else none })) ∧
    (∀ (dst rsel : Byte) (sel row : Nat), Ready b q [dst.toNat, rsel.toNat] → s.dev.vset (((s.dev.vit (vitOfCore g.core)).leader).getD b.leader) 0xD 1 = 1 →
      (s.dev.eng g.core).load g.slot.toNat = 0 → sel = (q.reg rsel.toNat (lowLane p.mask)).toNat → row = fld sel 2 6 → (fld sel 8 2 = 3 → (b.bank (fld sel 1 1 == 1)).isOpen = true) →
      Completes (.mxRdacc g dst rsel) s (fun t => CountedGroup g s t ∧ ∃ w : Nat → Word, Wrote q (t.dev.groupOf g) p dst.toNat w (fun _ => 0) ∧ ∀ l,
        (fld sel 8 2 = 0 → w l = BitVec.ofInt 32 (nthD 0 (s.dev.eng g.core).shadow (row * 64 + (fld sel 0 1 * 32 + l)))) ∧
        (fld sel 8 2 = 1 → w l = kget 0 (s.dev.eng g.core).promo (row * 64 + (fld sel 0 1 * 32 + l))) ∧
        (fld sel 8 2 = 2 → w l = BitVec.ofNat 32 (nthD 0 (s.dev.eng g.core).lane (fld sel 0 1 * 32 + l))) ∧
        (fld sel 8 2 = 3 → w l = kget 0 (b.bank (fld sel 1 1 == 1)).vals (row * 64 + (fld sel 0 1 * 32 + l)))))

/-- R114, R115, R123, R133, R135: WK.ARM with a good descriptor in the block's local storage arms its context at position 0; WK.MARK, WK.REWIND and WK.SKIP note, restore and add to the
position of an armed context; WK.SIGN over a stable activation range awaits its signature; PV.INVAL is queued with its tag. -/
def Obligations.WalkerInstructionsQueue : Prop :=
  ∀ (s : State) (g : GRef) (b : Block) (q : Group) (p : RPath) (w : Walker), s.dev.Issues g .x b q p → (s.dev.eng g.core).queue.length < 16 →
    (∀ (sp : Space) (ra : Byte) (a : Nat) (bs : List Byte) (D : Dev), Ready b q (addrRegs sp ra.toNat) → a = laneAddr q sp ra.toNat 0 (lowLane p.mask) → a % 128 = 0 →
      D = s.dev.issue g .x → (sp = .global → D.valid b.leader a 128 = true) → (sp ≠ .global → a + 128 ≤ D.localSize g.core b (spaceCode sp)) →
      (∀ o ∈ (s.dev.core g.core).ops, o.writes = false) → ((s.dev.eng g.core).armed g.slot.toNat w).length < 2 →
      ({ dev := D, mem := s.mem, mram := s.mram } : X).readSpace g.core b.scrGran b.clusGran (spaceCode sp) a 128 =
        ({ dev := D, mem := s.mem, mram := s.mram }, bs, false) →
      D.descBad g.core b w (BitVec.ofNat 1024 (leNat bs)) = none →
      Completes (.wkArm g w sp ra) s (fun t =>
        Enqueued g { b.setCtx w { desc := BitVec.ofNat 1024 (leNat bs), arm := b.nextArm } with nextArm := b.nextArm + 1 } q p (.arm w) {} {} s t)) ∧
    (b.ctx w = none → Completes (.wkMark g w) s (fun t => Enqueued g b q p (.mark w) {} {} s t) ∧
      Completes (.wkRewind g w) s (fun t => Enqueued g b q p (.rewind w) {} {} s t)) ∧
    (∀ k : WkCtx, b.ctx w = some k →
      Completes (.wkMark g w) s (fun t => Enqueued g (b.setCtx w { k with mark := k.pos }) q p (.mark w) {} {} s t) ∧
      Completes (.wkRewind g w) s (fun t => Enqueued g (b.setCtx w { k with pos := k.mark }) q p (.rewind w) {} {} s t) ∧
      (∀ rn : Byte, Ready b q [rn.toNat] →
        Completes (.wkSkip g w rn) s (fun t => Enqueued g (b.setCtx w { k with pos := k.pos + (q.reg rn.toNat (lowLane p.mask)).toNat }) q p (.skip w) {} {} s t))) ∧
    (∀ (rk : Byte) (kb : Nat) (k : WkCtx), Ready b q [rk.toNat] → kb = (q.reg rk.toNat (lowLane p.mask)).toNat → b.ctxA = some k → 1 ≤ kb → kb ≤ 2048 →
      dActivation k.desc = true → dStable k.desc = true → ((dFmt k.desc).any Fmt.scaled = true → k.pos % 32 = 0) → 32 * kb ≤ k.left →
      Completes (.wkSign g rk) s (fun t =>
        Enqueued g { b.setCtx .a { k with sig := if s.dev.vset (vitOfCore g.core) 5 1 = 1 then some { pos := k.pos, kb, sign := b.nextArm, val := none } else none }
                     with nextArm := b.nextArm + 1 } q p (.sign kb) k.ref {} s t)) ∧
    (∀ rt : Byte, Ready b q [rt.toNat] →
      Completes (.pvInval g rt) s (fun t => Enqueued g b q p (.pvInval (q.reg rt.toNat (lowLane p.mask))) {} {} s t))

/-- R71, R77, R80, R81, R84: the MX.MMA at the head of a queue starts on an idle array; each interval check adds its interval to the promotion buffer; an escalated run begins again from
empty buffers; a bank update adds the buffer to the bank or replaces it; MX.STORE and MX.LDACC take walker O in turn, and a stored tile is handed to it. -/
def Obligations.EnginesRunTheirQueue : Prop :=
  ∀ (s : State) (c : CoreId) (e : Engine), s.dev.eng c = e → s.dev.engGo c = true →
    (∀ (i : EInstr) (rest : List EInstr) (a : Bool) (ctrl : BitVec 64) (fa fb : Fmt), e.queue = i :: rest → i.op = .mma a ctrl → ctrlPair ctrl = some (fa, fb) → fb.isCb = false →
      e.runs = [] → i.known = none → max (max e.begun (i.at' + 4)) e.free ≤ s.dev.cycOf c →
      Completes (.engineInstructionStart ⟨c, false⟩) s (fun t => Keeps [.cores] s t ∧ (∀ k, k ≠ c → t.dev.core k = s.dev.core k) ∧
        t.dev.eng c = { e with queue := rest, begun := max (max e.begun (i.at' + 4)) e.free, runs := [{ ins := i, codes := e.cb, phase := if i.takes && i.sig.isSome then .lookup else .array, start := max (max e.begun (i.at' + 4)) e.free, next := max (max e.begun (i.at' + 4)) e.free }] })) ∧
    (∀ (i : EInstr) (rest : List EInstr), e.queue = i :: rest → (s.dev.core c).exc = none → (s.dev.grp (i.gref c)).isSome = true →
      Completes (.engineInstructionStart ⟨c, true⟩) s (fun t => ∃ r, (t.dev.core c).exc = some r ∧ r.code = 0x42 ∧ r.pc = i.pc ∧ r.lanes = i.lanes)) ∧
    (∀ w : IvalAt, e.ivalAt = some w → e.runs = [w.r] → 0 < min e.stage e.ceil →
      Completes (.mmaIntervalCheck c ⟨none, .none⟩) s (fun t => Keeps [.cores, .clk, .cnt] s t ∧ ∃ u, (t.dev.eng c).runs = [u] ∧ u.ins = w.r.ins ∧ u.ival = w.r.ival + 1 ∧
        u.promo = promote w.r.promo (runInterval w.fa w.fb w.r.codes w.ga w.gb w.kb (w.r.ival * w.n % 32) w.n w.grp w.r.esc)) ∧
      (∀ j, (s.dev.core c).exc = none → (s.dev.grp (w.r.ins.gref c)).isSome = true →
        Completes (.mmaIntervalCheck c ⟨some j, .none⟩) s (fun t => ∃ r, (t.dev.core c).exc = some r ∧ r.code = 0x43 ∧ r.pc = w.r.ins.pc ∧ r.lanes = w.r.ins.lanes))) ∧
    (∀ r : Run, e.runs = [r] → r.phase = .rerun → r.next + 22 ≤ s.dev.cycOf c →
      Completes (.escalatedRunStart c) s (fun t => Keeps [.cores] s t ∧ ∃ u, (t.dev.eng c).runs = [u] ∧ u.ins = r.ins ∧ u.phase = .array ∧ u.esc = true ∧ u.ival = 0 ∧ u.promo = [])) ∧
    (∀ (r : Run) (a : Bool) (ctrl : BitVec 64) (k : Nat) (b : Block), e.runs = [r] → r.phase = .update → r.ins.op = .mma a ctrl → r.ins.bank = some k → e.xfer = none →
      s.dev.blk c (k / 2) = some b → max r.due (kget 0 e.released k + 8) ≤ s.dev.cycOf c →
      Completes (.bankUpdate c ⟨none, .none⟩) s (fun t => Keeps [.cores, .vits, .cnt] s t ∧ (t.dev.eng c).runs = [] ∧
        ∀ j, j < 4096 → kget 0 (t.dev.bankVals c k) j = bankElem r (ctrlReplace ctrl) (kget 0 (s.dev.bankVals c k) j) j)) ∧
    (∀ (i : EInstr) (rest : List EInstr) (k : Nat), e.queue = i :: rest → (∃ a sc, i.op = .store a sc) ∨ (∃ a f, i.op = .ldacc a f) → i.bank = some k → e.bankHeld k = false → e.xfer = none → e.rerunning = false →
      max (max e.begun (i.at' + 4)) (max (kget 0 e.bankAt k + 1) e.moved) ≤ s.dev.cycOf c →
      Completes (.storeTransferStart c) s (fun t => Keeps [.cores] s t ∧
        t.dev.eng c = { e with queue := rest, begun := max (max e.begun (i.at' + 4)) (max (kget 0 e.bankAt k + 1) e.moved), xfer := some (i, max (max e.begun (i.at' + 4)) (max (kget 0 e.bankAt k + 1) e.moved)) })) ∧
    (∀ (i : EInstr) (n : Nat) (a : Bool) (sc : Word) (k : Nat) (b : Block), e.xfer = some (i, n) → i.op = .store a sc → i.bank = some k → s.dev.blk c i.owner.slot = some b →
      n + 128 ≤ s.dev.cycOf c →
      Completes (.storeTransferDone ⟨c, .none⟩) s (fun t => Keeps [.cores, .cnt] s t ∧ (t.dev.eng c).xfer = none ∧ (t.dev.eng c).moved = n + 128 ∧
        ∃ u, (t.dev.eng c).tiles = e.tiles ++ [u] ∧ u.ins = i ∧ u.codes = (storeTile i sc (s.dev.bankVals c k)).codes ∧ u.wrote = false)) ∧
    (∀ (i : EInstr) (n : Nat) (a : Bool) (f : Fmt) (k : Nat) (b : Block) (j : FetchJob), e.xfer = some (i, n) → i.op = .ldacc a f → i.bank = some k →
      s.dev.blk c i.owner.slot = some b → e.wo.job = some j → j.id = i.id → j.todo = [] → j.bad = none → n + 128 ≤ s.dev.cycOf c →
      Completes (.storeTransferDone ⟨c, .none⟩) s (fun t => Keeps [.cores, .cnt] s t ∧ (t.dev.eng c).xfer = none ∧ (t.dev.eng c).moved = n + 128 ∧
        t.dev.bankVals c k = loadTile i f j.got))

/-- R86: at a wave boundary the RAMP_GRANTS oldest requests at most gain one stage each, and no other array changes; RAMP_IDLE_EXPIRY puts an idle array back to stage 0. -/
def Obligations.RampWavesAdmitByOneStage : Prop :=
  ∀ (s : State),
    (∀ (i : DieId), s.dev.runs i.toNat = true → Completes (.rampWave i) s (fun t => Keeps [.clk, .cnt, .cores] s t ∧
      (∀ c : CoreId, t.dev.core c = s.dev.core c ∨ (dieOfCore c = i.toNat ∧ (s.dev.eng c).oldestWork.isSome ∧ (s.dev.eng c).stage < min s.dev.rampStages (s.dev.eng c).ceil ∧
        ∃ n rs, t.dev.core c = { s.dev.core c with eng := { s.dev.eng c with runs := rs, stage := (s.dev.eng c).stage + 1, admitted := n } })) ∧
      (((List.range 512).filter (fun c => t.dev.core (BitVec.ofNat 9 c) ≠ s.dev.core (BitVec.ofNat 9 c))).length ≤ s.dev.force 0xA300 2 0))) ∧
    (∀ c : CoreId, s.dev.runs (dieOfCore c) = true → 0 < (s.dev.eng c).stage →
      Completes (.rampIdleExpiry c) s (fun t => Keeps [.clk, .cnt, .cores] s t ∧ (∀ k, k ≠ c → t.dev.core k = s.dev.core k) ∧
        (∃ rs, ((s.dev.eng c).ivalAt = none → rs = (s.dev.eng c).runs) ∧ t.dev.eng c = { s.dev.eng c with runs := rs, stage := 0 }) ∧ max (s.dev.eng c).stepped (s.dev.eng c).admitted + s.dev.force 0xA300 4 0 ≤ max (s.dev.cycOf c) (t.dev.cycOf c)))

/-- R124-R128: WALKER_FETCH reads up to four granules of the fetch under way; SEGMENT_PRESENT hands over the segment of a complete fetch; WALKER_FAULT withdraws the instruction whose
read failed; WALKER_O_WRITE writes a tile and TILE_FLAG_WRITE its flag, after which the tile is gone. -/
def Obligations.WalkersFetchAndWrite : Prop :=
  ∀ (s : State) (c : CoreId) (e : Engine), s.dev.eng c = e → s.dev.runs (dieOfCore c) = true →
    (∀ (w : Walker) (j : FetchJob), (e.wk w).job = some j → e.find j.id = none →
      Completes (.walkerFetch c w) s (fun t => Keeps [.cores] s t ∧ t.dev.eng c = e.setWk w { e.wk w with job := none })) ∧
    (∀ (w : Walker) (j : FetchJob) (i : EInstr) (b : Block), (e.wk w).job = some j → e.find j.id = some i → j.bad = none → s.dev.blk c i.owner.slot = some b →
      (∀ gr ∈ j.todo, gr.1 ≠ 1) →
      Completes (.walkerFetch c w) s (fun t => Keeps [.cores, .cnt] s t ∧ ∃ k, ((t.dev.eng c).wk w).job = some k ∧ k.todo = j.todo.drop 4 ∧ k.id = j.id ∧ k.kb = j.kb ∧ k.n = j.n ∧
        ∀ gr ∈ j.todo.take 4, (kfind k.got (gr.1 * 2 ^ 48 + gr.2)).isSome)) ∧
    (∀ (w : Walker) (j : FetchJob) (i : EInstr) (f : Fmt), w ≠ .o → (e.wk w).job = some j → j.todo = [] → j.bad = none → e.find j.id = some i → dFmt (i.ctxOf w).desc = some f →
      Completes (.segmentPresent c w) s (fun t => Keeps [.cores] s t ∧ t.dev.eng c = e.setWk w { job := none, pos := kset (e.wk w).pos i.id (j.kb + j.n), segs := (e.wk w).segs ++ [segOf (i.ctxOf w).desc f i.id (i.ctxOf w).pos j.kb j.n j.got (s.dev.cycOf c)] })) ∧
    (∀ (w : Walker) (j : FetchJob) (i : EInstr) (poison : Bool) (a : Addr), (e.wk w).job = some j → j.bad = some (poison, a.toNat) → e.find j.id = some i → (s.dev.core c).exc = none →
      (s.dev.grp (i.gref c)).isSome = true →
      Completes (.walkerFault c w poison a) s (fun t => ∃ r, (t.dev.core c).exc = some r ∧ r.code = (if poison then 0x45 else 0x0C) ∧ r.pc = i.pc ∧ r.lanes = i.lanes)) ∧
    (∀ u : Tile, e.tiles = [u] → u.wrote = false → (∀ w ∈ tileWrites u, w.1 ≠ 1) → s.dev.fab.ins = [] →
      (dFlagEn u.ins.ra.desc = false → Completes (.walkerOWrite c) s (fun t => Keeps [.mem, .cores] s t ∧ (t.dev.eng c).tiles = [])) ∧
      (dFlagEn u.ins.ra.desc = true → Completes (.walkerOWrite c) s (fun t => Keeps [.mem, .cores] s t ∧ (t.dev.eng c).tiles = [{ u with wrote := true, fault := none }]))) ∧
    (∀ u : Tile, e.tiles = [u] → u.wrote = true → u.fault = none → dAuxSpace u.ins.ra.desc ≠ 1 → s.dev.fab.ins = [] →
      Completes (.tileFlagWrite c) s (fun t => Keeps [.mem, .cores] s t ∧ (t.dev.eng c).tiles = []))

/-- R131-R136: a queued signing that took no part in Provenance ends without a signature; a lookup that misses sends its run to the array and one that hits gives it the entry's values; a
verified run whose values agree goes on to its bank update; an insertion places the entry and counts it. -/
def Obligations.ProvenanceLooksUpAndInserts : Prop :=
  ∀ (s : State) (c : CoreId) (e : Engine) (v : VitId), s.dev.eng c = e → v = vitOfCore c → s.dev.runs (dieOfCore c) = true →
    (∀ (i : EInstr) (poison : Bool), e.sign = some i → i.takes = false →
      Completes (.wkSignDone c poison) s (fun t => Keeps [.cores, .cnt] s t ∧ (t.dev.eng c).sign = none ∧
        (t.dev.eng c).queue = e.queue.map (fun j => if j.known = i.known ∧ j.owner.slot = i.owner.slot then { j with known := none } else j))) ∧
    (∀ (r : Run) (sg : BitVec 64), e.runs = [r] → r.phase = .lookup → r.ins.sig = some sg → r.start + 25 ≤ s.dev.cycOf c →
      ((∀ p ∈ (s.dev.vit v).pv, ¬(p.key = r.ins.pvKey ∧ p.sig = sg)) →
        Completes (.pvLookup c) s (fun t => Keeps [.cores, .cnt] s t ∧ (t.dev.eng c).runs = [{ r with phase := .array, next := r.start + 25 }] ∧
          t.dev.counter 0x8013 1 v.toNat = (s.dev.counter 0x8013 1 v.toNat + 1) % 2 ^ 64)) ∧
      (∀ p, (s.dev.vit v).pv.find? (fun p => p.key == r.ins.pvKey && p.sig == sg) = some p → p.bad = false → s.dev.vset v 5 3 = 0 →
        Completes (.pvLookup c) s (fun t => Keeps [.cores, .vits, .cnt] s t ∧
          (t.dev.eng c).runs = [{ r with phase := .update, next := r.start + 25, hit := true, promo := p.vals, due := r.start + 161 }] ∧
          (t.dev.vit v).pvHits = (s.dev.vit v).pvHits + 1))) ∧
    (∀ (r : Run) (old : KMap Word) (a : Bool) (ctrl : BitVec 64), e.runs = [r] → r.phase = .verify → r.stored = some old → r.ins.op = .mma a ctrl →
      (∀ k ∈ r.values, kget 0 old k.1 = k.2) →
      Completes (.pvVerify c) s (fun t => Keeps [.cores] s t ∧ (t.dev.eng c).runs = [{ r with phase := .update }])) ∧
    (∀ (p : PvEntry) (rest : List PvEntry), e.inserts = p :: rest → 0 < s.dev.pvRoom v → s.dev.vset v 5 1 = 1 →
      Completes (.pvInsert c) s (fun t => Keeps [.cores, .vits, .cnt] s t ∧ (t.dev.eng c).inserts = rest ∧
        (t.dev.vit v).pv = (pvPlace (s.dev.vit v).pv (254 * s.dev.pvRoom v) p).1 ∧ (∃ k, { p with slot := k } ∈ (t.dev.vit v).pv) ∧
        ((s.dev.vit v).pv.length ≤ 254 * s.dev.pvRoom v → (t.dev.vit v).pv.length ≤ 254 * s.dev.pvRoom v)))

/-! ### The L1 data cache and the host port's accesses -/

/-- R185: at a core whose one access waits for a line, DATAS, DATAE and DATAU complete the load, the line entering S or E or returning to I; DATAM and GRANTM perform the store and
the line enters M; NOALLOC sends the store as WrU and the line returns to I. INV is acknowledged and removes a shared line; RECALLS and RECALLI are answered with an M line's data,
the line staying in S or returning to I; PUTACK ends XI_A. A message is taken in its turn, with the data it carries (R217). -/
def Obligations.L1LinesAnswerMessages : Prop :=
  ∀ (s : State) (c : CoreId) (a : Addr) (l : Nat) (k : Core), s.dev.core c = k → l = a.toNat / 128 → s.dev.runs (dieOfCore c) = true → s.dev.AllSplit →
    (∀ (o : OutOp) (data : Line) (poison : BitVec 2), k.ops = [o] → (∀ b ∈ o.accs, b.line = l) → o.accs ≠ [] → o.space = .global →
      (o.kind = .load → s.dev.l1St c l = .isD →
        (s.dev.Delivers .dataS l c data poison → Completes (.datas c a data poison) s (fun t => OnlyL1 c l s t ∧ t.dev.msgs = (s.dev.take .dataS l (some c)).msgs ∧
          (t.dev.core c).ops = [o.capture l data poison] ∧ t.dev.l1 c l = some { st := .s, data, poison, used := k.tick + 1 })) ∧
        (s.dev.Delivers .dataE l c data poison → Completes (.datae c a data poison) s (fun t => OnlyL1 c l s t ∧ t.dev.msgs = (s.dev.take .dataE l (some c)).msgs ∧
          (t.dev.core c).ops = [o.capture l data poison] ∧ t.dev.l1 c l = some { st := .e, data, poison, used := k.tick + 1 })) ∧
        (s.dev.Delivers .dataU l c data poison → Completes (.datau c a data poison) s (fun t => OnlyL1 c l s t ∧ t.dev.msgs = (s.dev.take .dataU l (some c)).msgs ∧
          (t.dev.core c).ops = [o.capture l data poison] ∧ t.dev.l1 c l = none))) ∧
      (o.kind = .store → (∀ b ∈ o.accs, b.sent = false) → s.dev.l1St c l = .imD ∨ s.dev.l1St c l = .smD →
        (s.dev.Delivers .dataM l c data poison → Completes (.datam c a data poison) s (fun t => OnlyL1 c l s t ∧ t.dev.msgs = (s.dev.take .dataM l (some c)).msgs ∧
          (t.dev.core c).ops = [] ∧ t.dev.l1 c l = some { o.writeInto l { st := .m, data, poison, used := 0 } with used := k.tick + 1 })) ∧
        (s.dev.arrives .noAlloc l (some c) = true → Completes (.noalloc c a) s (fun t => OnlyL1 c l s t ∧ Exchanged .noAlloc l (some c) .wrU (some c) (o.wrMask l).2 0 s t ∧
          (t.dev.core c).ops = [{ o with accs := o.accs.map (fun b => { b with sent := true }) }] ∧ t.dev.l1 c l = none))) ∧
      (∀ u : L1Line, o.kind = .store → (∀ b ∈ o.accs, b.sent = false) → s.dev.l1 c l = some u → u.st = .smD → s.dev.arrives .grantM l (some c) = true →
        Completes (.grantm c a) s (fun t => OnlyL1 c l s t ∧ t.dev.msgs = (s.dev.take .grantM l (some c)).msgs ∧ (t.dev.core c).ops = [] ∧
          t.dev.l1 c l = some { o.writeInto l { st := .m, data := u.data, poison := u.poison, used := 0 } with used := k.tick + 1 }))) ∧
    (s.dev.arrives .inv l (some c) = true → s.dev.l1St c l = .i ∨ s.dev.l1St c l = .s → Completes (.inv c a) s (fun t => OnlyL1 c l s t ∧
      Exchanged .inv l (some c) .invAck (some c) 0 0 s t ∧ (t.dev.core c).ops = k.ops ∧
      (s.dev.l1St c l = .s → t.dev.l1 c l = none))) ∧
    (∀ u : L1Line, s.dev.l1 c l = some u → u.st = .m →
      (s.dev.arrives .recallS l (some c) = true → Completes (.recalls c a) s (fun t => OnlyL1 c l s t ∧ t.dev.l1 c l = some { u with st := .s } ∧ (t.dev.core c).ops = k.ops ∧
        Exchanged .recallS l (some c) .rspData (some c) u.data u.poison s t)) ∧
      (s.dev.arrives .recallI l (some c) = true → Completes (.recalli c a) s (fun t => OnlyL1 c l s t ∧ t.dev.l1 c l = none ∧
        (t.dev.core c).ops = k.ops ∧ Exchanged .recallI l (some c) .rspData (some c) u.data u.poison s t))) ∧
    (∀ u : L1Line, s.dev.l1 c l = some u → u.st = .xiA → k.ops = [] → s.dev.arrives .putAck l (some c) = true →
      Completes (.putack c a) s (fun t => OnlyL1 c l s t ∧ t.dev.msgs = (s.dev.take .putAck l (some c)).msgs ∧ (t.dev.core c).ops = [] ∧
        t.dev.l1 c l = none))

/-- R189, R190, R432-R434: a host read or write of a mapped window address whose tenancy admits it, with no watchpoint on it and its line uncached, is served at once: the read
gets the line's data with its MetaValue, the write merges its bytes and is answered; a window held by no tenancy answers poison and counts a refusal; while the home's die stands still
the request is held. A snoop of host memory is answered RspIHitI; an HDM decoder commits with one way, whole multiples of 256 MiB and a range within one window, and else takes
Commit Error. -/
def Obligations.HostAccessesAndDecoders : Prop :=
  ∀ (s : State),
    (∀ (a : Addr) (l : Nat) (g : GLine) (inStream : Bool), l = a.toNat / 128 → s.dev.hdmMaps a.toNat = true →
      (s.dev.AtHome a → s.dev.gline l = some g → g.st = .i → g.queue = [] → g.ops = 0 → (s.dev.vit (vitOfAddr (l * 128))).held = true →
        (s.dev.vit (vitOfAddr (l * 128))).tspLocked = false → s.dev.watch (vitOfAddr (l * 128)) 6 (l * 128) 128 0x3FF = (s.dev, false) →
        (∀ m : Meta, Completes (.hostMemrd a m inStream) s (fun t => OnlyLine l s t ∧
          (∃ u, t.dev.msgs = s.dev.msgs ++ [u] ∧ u.kind = .hostData ∧ u.line = l ∧ u.data = g.data ∧ u.poison = g.poison ∧ u.mvalue = some m) ∧
          ∃ u st sh, t.dev.gline l = some { g with used := u, st := st, sh := sh, owner := (if m = .i then g.owner else none) } ∧
            (m = .i → st = .i) ∧ (m = .s → st = .s ∧ sh.host = true) ∧ (m = .a → st = .oh))) ∧
        (∀ (mask : BitVec 128) (data : Line), Completes (.hostMemwr a mask data inStream) s (fun t => OnlyLine l s t ∧
          (∃ u, t.dev.msgs = s.dev.msgs ++ [u] ∧ u.kind = .wrDone ∧ u.line = l) ∧
          ∃ u, t.dev.gline l = some { g with sh := {}, owner := none, data := mergeLine g.data data mask, dirty := true, poison := mergePoison g.poison mask, used := u }))) ∧
      (s.dev.AtHome a → (s.dev.vit (vitOfAddr (l * 128))).held = false →
        (∀ m : Meta, Completes (.hostMemrd a m inStream) s (fun t => Keeps [.host, .msgs, .mesh] s t ∧ t.dev.host = { s.dev.host with refused := min 0xFFFFFFFF (s.dev.host.refused + 1) } ∧
          ∃ u, t.dev.msgs = s.dev.msgs ++ [u] ∧ u.kind = .hostData ∧ u.line = l ∧ u.poison = 3)) ∧
        (∀ (mask : BitVec 128) (data : Line), Completes (.hostMemwr a mask data inStream) s (fun t => Keeps [.host, .msgs, .mesh] s t ∧
          ∃ u, t.dev.msgs = s.dev.msgs ++ [u] ∧ u.kind = .wrDone ∧ u.line = l))) ∧
      (s.dev.runs (dieOfVit (vitOfAddr a.toNat)) = false → s.dev.isFenced (dieOfVit (vitOfAddr a.toNat)) = false → s.dev.host.held.length < 512 →
        ∀ m : Meta, Completes (.hostMemrd a m inStream) s (fun t => Keeps [.host] s t ∧
          t.dev.host = { s.dev.host with held := s.dev.host.held ++ [{ addr := l * 128, kind := .memRd m, inStream }] }))) ∧
    (∀ a : BitVec 52, Completes (.h2dSnoop a) s (fun t => Keeps [.msgs, .mesh] s t ∧ ∃ u, t.dev.msgs = s.dev.msgs ++ [u] ∧ u.kind = .rspIHitI ∧ u.line = a.toNat / 128)) ∧
    (∀ (k : BitVec 5) (base size : BitVec 64) (ways : Byte),
      (ways = 1 ∧ size.toNat % 2 ^ 28 = 0 ∧ 0 < size.toNat ∧ base.toNat < 2 ^ 41 ∧ base.toNat % 2 ^ 36 + size.toNat ≤ windowBytes →
        Completes (.hdmDecoderCommit k base size ways) s (fun t => Keeps [.host] s t ∧
          t.dev.host = { s.dev.host with hdm := kset s.dev.host.hdm k.toNat { base := base.toNat, size := size.toNat, committed := true, error := false } })) ∧
      (¬(ways = 1 ∧ size.toNat % 2 ^ 28 = 0 ∧ 0 < size.toNat ∧ base.toNat < 2 ^ 41 ∧ base.toNat % 2 ^ 36 + size.toNat ≤ windowBytes) →
        Completes (.hdmDecoderCommit k base size ways) s (fun t => Keeps [.host] s t ∧
          t.dev.host = { s.dev.host with hdm := kset s.dev.host.hdm k.toNat { base := base.toNat, size := size.toNat, committed := false, error := true } })))

/-! ### The Gallery's range operations and upkeep -/

/-- R172, R174: a range instruction on a valid range writes its status and leaves its record until the range is done; GC.PIN of one present line pins it with status 0,
and refuses with a status other than 0, counted, what its limits do not admit, pinning nothing. GC_RANGE_DONE ends the record of an operation whose lines are done, and unpins the
lines of GC.UNPIN. -/
def Obligations.RangeOperationsStartAndEnd : Prop :=
  ∀ (s : State),
    (∀ (g : GRef) (b : Block) (q : Group) (p : RPath) (dst ra rl : Byte) (base len : Nat) (v : VitId) (own : Owner) (old new : List Nat) (u : RangeOp), s.dev.Issues g .m b q p →
      Ready b q [dst.toNat, ra.toNat, ra.toNat + 1, rl.toNat] → base = q.addr ra.toNat (lowLane p.mask) → len = (q.reg rl.toNat (lowLane p.mask)).toNat → base % 128 = 0 → len % 128 = 0 →
      0 < len → s.dev.coreValid b.leader base len = true → s.dev.place base ≠ .hole → v = ((s.dev.place base).vit).getD 0 →
      own = { slot := g.slot.toNat, grp := g.grp.toNat, launchIx := b.launchIx, block := b.index, seq := b.seq } →
      u = { id := s.dev.srv.nextRange, op := .pin, v, base, len, core := some g.core, owner := some own, ring := none } →
      old = s.dev.pinnedLines (vitOfAddr base) → new = (rangeOf base len).filter (fun l => !old.contains l) →
      (∀ (op : GcOp) (i : Instr), (op, i) ∈ [(.prefetch, .gcPrefetch g dst ra rl), (.flush, .gcFlush g dst ra rl), (.invalWb, .gcInval g true dst ra rl),
          (.invalNoWb, .gcInval g false dst ra rl), (.unpin, .gcUnpin g dst ra rl)] ∨ (op = .pin ∧ i = .gcPin g dst ra rl ∧ 2 ^ 41 ≤ base) →
        Completes i s (fun t => Keeps [.cores, .srv] s t ∧ (∀ c, c ≠ g.core → t.dev.core c = s.dev.core c) ∧
          WentOn { q with regs := kset q.regs (dst.toNat * 32 + lowLane p.mask) 0 } (t.dev.groupOf g) p ∧
          t.dev.srv = { s.dev.srv with nextRange := s.dev.srv.nextRange + 1, ranges := s.dev.srv.ranges ++ [{ u with op := op }] })) ∧
      (∀ l : GLine, base < 2 ^ 41 → len = 128 → s.dev.gline (base / 128) = some l → l.pinned = false → base / 128 ∉ old →
        old.length * 128 + len - old.countP (fun l => base ≤ l * 128 && l * 128 < base + len) * 128 ≤ s.dev.pinCap (vitOfAddr base) →
        s.dev.pinStatus (vitOfAddr base) (old ++ new) = 0 →
        Completes (.gcPin g dst ra rl) s (fun t => Keeps [.cores, .srv, .gal, .vits] s t ∧
          WentOn { q with regs := kset q.regs (dst.toNat * 32 + lowLane p.mask) 0 } (t.dev.groupOf g) p ∧
          t.dev.srv = { s.dev.srv with nextRange := s.dev.srv.nextRange + 1, ranges := s.dev.srv.ranges ++ [u] } ∧
          t.dev.gline (base / 128) = some { l with pinned := true } ∧
          (t.dev.vit (vitOfAddr (base / 128 * 128))).pinned = (s.dev.vit (vitOfAddr (base / 128 * 128))).pinned + 128)) ∧
      (∀ (st : Nat) (full : Prop), full = (s.dev.pinCap (vitOfAddr base) < old.length * 128 + len - old.countP (fun l => base ≤ l * 128 && l * 128 < base + len) * 128) → base < 2 ^ 41 →
        (full ∧ st = 1 ∨ ¬full ∧ st = s.dev.pinStatus (vitOfAddr base) (old ++ new) ∧ st ≠ 0) →
        Completes (.gcPin g dst ra rl) s (fun t => Keeps [.cores, .srv, .cnt] s t ∧
          WentOn { q with regs := kset q.regs (dst.toNat * 32 + lowLane p.mask) (BitVec.ofNat 32 st) } (t.dev.groupOf g) p ∧
          t.dev.srv = { s.dev.srv with nextRange := s.dev.srv.nextRange + 1, ranges := s.dev.srv.ranges ++ [{ u with refused := true }] } ∧
          t.dev.counter 0x8015 0xA (vitOfAddr base).toNat = (s.dev.counter 0x8015 0xA (vitOfAddr base).toNat + 1) % 2 ^ 64))) ∧
    (∀ (id : Word) (r : RangeOp), s.dev.srv.ranges.find? (fun r => r.id == id.toNat) = some r → s.dev.runs (dieOfVit r.v) = true →
      (r.op = .pin ∧ (r.refused = true ∨ 2 ^ 41 ≤ r.base) ∨ r.op = .prefetch ∧ (2 ^ 41 ≤ r.base ∨ r.begun = true) ∨ r.op ≠ .pin ∧ r.op ≠ .prefetch ∧ s.dev.rangeLines r.base r.len = [] →
        Completes (.gcRangeDone id) s (fun t => Keeps [.srv] s t ∧
          t.dev.srv = { s.dev.srv with ranges := s.dev.srv.ranges.filter (fun q => q.id != id.toNat) })) ∧
      (∀ (l : Nat) (h g : GLine), r.op = .unpin → r.begun = false → s.dev.rangeLines r.base r.len = [(l, h)] → s.dev.gline l = some g → g.pinned = true →
        Completes (.gcRangeDone id) s (fun t => Keeps [.srv, .gal, .vits] s t ∧ t.dev.srv = { s.dev.srv with ranges := s.dev.srv.ranges.filter (fun q => q.id != id.toNat) } ∧
          t.dev.gline l = some { g with pinned := false } ∧ (∀ m, m ≠ l → t.dev.gline m = s.dev.gline m) ∧
          (t.dev.vit (vitOfAddr (l * 128))).pinned = (s.dev.vit (vitOfAddr (l * 128))).pinned - 128)) ∧
      (∀ (l : Nat) (g : GLine), r.op = .flush → r.begun = true → (l, g) ∈ s.dev.rangeLines r.base r.len → g.rangeDue = true →
        Completes (.gcRangeDone id) s (fun t => Keeps [.srv] s t ∧ ∃ u ∈ t.dev.srv.ranges, u.id = id.toNat)))

/-- R169, R175, R179, R180: a slice without cached lines that shrinks its scratchpad gives up its lines, whose bytes then read zero, and the last slice makes the size the Vitrine's;
the thrash evaluation compares the hits of its window with the threshold and reports the first breach; the scrub moves to its next position and counts a corrected word, and on an
uncorrectable one poisons the line's granule and logs it. -/
def Obligations.GalleryResizesWatchesAndScrubs : Prop :=
  ∀ (s : State),
    (∀ (sl : ChanId) (v : VitId) (n old : Nat), v = BitVec.ofNat 5 (sl.val / 24) → (s.dev.vit v).resize = some n → (s.dev.vit v).padSteps = old → n ≤ old →
      (s.dev.slice sl.val).changing = true → (s.dev.slice sl.val).lines = [] → s.dev.runs (dieOfVit v) = true → s.dev.corePending sl.val (n * stepBytes) (old * stepBytes) = false →
      Completes (.sliceChangePoint sl) s (fun t => Keeps [.gal, .mem, .vits, .cat] s t ∧ t.dev.slice sl.val = { s.dev.slice sl.val with changing := false } ∧
        (∀ k, k ≠ sl.val → t.dev.slice k = s.dev.slice k) ∧
        (Memory.wf s.mem = true → ∀ k i, carveLines n sl.val ≤ k → k < carveLines old sl.val → i < 128 → t.mem.byte .pad (padBase + v.toNat * 2 ^ 27 + (k * 24 + sl.val % 24) * 128 + i) = 0) ∧
        (if (slicesOfVit v).any (fun k => k != sl.val && (s.dev.slice k).changing) then t.dev.vits = s.dev.vits
         else t.dev.vit v = { s.dev.vit v with padSteps := n, resize := none }))) ∧
    (∀ (v : VitId) (h : Thrash) (th : Nat), (s.dev.vit v).thrash = h → th = s.dev.vset v 7 6 → s.dev.runs (dieOfVit v) = true → h.at' + 262144 ≤ (s.dev.die (dieOfVit v)).root →
      (0 < th → 2 ^ s.dev.vset v 7 7 ≤ h.lookups → Completes (.thrashEvaluation v) s (fun t => Keeps [.vits, .cnt, .cat] s t ∧ t.dev.vit v = { s.dev.vit v with thrash :=
          { h with at' := (s.dev.die (dieOfVit v)).root, lookups := 0, hits := 0, lastLookups := h.lookups, lastHits := h.hits, raised := decide (h.hits * 256 < th * h.lookups) } } ∧
        t.dev.counter 0x8015 0xB v.toNat = (if h.hits * 256 < th * h.lookups ∧ h.raised = false then (s.dev.counter 0x8015 0xB v.toNat + 1) % 2 ^ 64 else s.dev.counter 0x8015 0xB v.toNat))) ∧
      (th = 0 ∨ h.lookups < 2 ^ s.dev.vset v 7 7 → Completes (.thrashEvaluation v) s (fun t => Keeps [.vits] s t ∧
        t.dev.vit v = { s.dev.vit v with thrash := { h with at' := (s.dev.die (dieOfVit v)).root } }))) ∧
    (∀ (sl : ChanId) (half : Bool) (p : Slice) (v : VitId), s.dev.slice sl.val = p → v = BitVec.ofNat 5 (sl.val / 24) → s.dev.runs (sl.val / 96) = true →
      p.scrubAt + 4 * s.dev.force 0x4010 1 0 ≤ (s.dev.die (sl.val / 96)).root →
      (∀ err, Completes (.galleryScrub sl ⟨err, half⟩ false) s (fun t => Keeps [.gal, .cnt, .rel, .fresh, .mem, .vits] s t ∧ (t.dev.slice sl.val).scrub = (p.scrub + 1) % 24576)) ∧
      (∀ err, (err = .clean ∨ err = .corrected) → Completes (.galleryScrub sl ⟨err, half⟩ false) s (fun t => Keeps [.gal, .cnt] s t ∧ (∀ k, k ≠ sl.val → t.dev.slice k = s.dev.slice k) ∧
        t.dev.slice sl.val = { p with scrub := (p.scrub + 1) % 24576, scrubAt := (s.dev.die (sl.val / 96)).root } ∧
        t.dev.counter 0x8015 0xE v.toNat = (if err = .clean then s.dev.counter 0x8015 0xE v.toNat else (s.dev.counter 0x8015 0xE v.toNat + 1) % 2 ^ 64))) ∧
      (∀ (l : Nat) (g : GLine), (s.dev.inSet sl.val (p.scrub / 16)).find? (fun e => e.2.way == p.scrub % 16) = some (l, g) → sliceOf l = sl.val →
        Completes (.galleryScrub sl ⟨.detected, half⟩ false) s (fun t => Keeps [.gal, .cnt, .rel] s t ∧ t.dev.gline l = some { g with poison := putBit g.poison (if half then 1 else 0) true } ∧
          (t.dev.slice sl.val).scrub = (p.scrub + 1) % 24576 ∧ t.dev.counter 0x8015 0xF v.toNat = (s.dev.counter 0x8015 0xF v.toNat + 1) % 2 ^ 64)))

/-! ### On-package networks -/

/-- R215, R219-R225: the sender's next frame enters its replay buffer and reaches a running receiver: an intact one in sequence delivers its messages and flits and clears the failures,
a bad one asks for replay and the eighth failure of one frame for a retrain; a stopped receiver captures it. A direction that wants it trains, its frames moving to the other bundle,
returns with the bad lanes in its failed set, and is lost after 256 silent core cycles. A replayed seam flit is counted; a failing seam lane takes the spare for 2,048 cycles of
pause; the control network delivers a message of the highest class between its ends. -/
def Obligations.LinksDeliverRetrainAndSubstitute : Prop :=
  ∀ (s : State),
    (∀ (dir : DirId) (b : Bund), s.dev.bund dir.val = b →
      (∀ f : DlFrame, b.replay = none → f.frameSeq = b.txSeq + 1 → b.sent.length < 64 → b.backlog = [] →
        b.nextFrame f = some (f, { b with txSeq := f.frameSeq, sent := b.sent ++ [f], lent := vcCount b.lent (flitsOf f) })) ∧
      (∀ (f g : DlFrame) (c : Bund), b.st = 0 → b.lost = false → b.quiet = false → b.nextFrame f = some (g, c) →
        (((dirEnds dir.val).2.1 = 8 ∨ s.dev.runs (dirEnds dir.val).2.1 = true) → g.laneErrors = [] → 64 ≤ b.lanes.length →
          (frameOk g = true → g.frameSeq = b.rxSeq + 1 → Completes (.dieLinkFrame dir f) s (fun t => Keeps [.net, .cnt] s t ∧
            t.dev.bund dir.val = { c with frames := b.frames + 1, heard := s.dev.cyc (dirDie dir.val), fails := 0, rxSeq := g.frameSeq, nak := false, owed := vcCount b.owed (flitsOf g) } ∧
            t.dev.net.ctl = s.dev.net.ctl ++ g.msg0.toList ++ g.msg1.toList ∧
            t.dev.counter 0x8017 3 dir.val = (s.dev.counter 0x8017 3 dir.val + (flitsOf g).length) % 2 ^ 64)) ∧
          (frameOk g = false → Completes (.dieLinkFrame dir f) s (fun t => Keeps [.net, .cnt] s t ∧
            t.dev.bund dir.val = { c with frames := b.frames + 1, nak := true, fails := if g.frameSeq = b.rxSeq + 1 then b.fails + 1 else b.fails, want := b.want || decide (g.frameSeq = b.rxSeq + 1 ∧ 8 ≤ b.fails + 1) } ∧
            t.dev.net.ctl = s.dev.net.ctl))) ∧
        ((dirEnds dir.val).2.1 ≠ 8 → s.dev.runs (dirEnds dir.val).2.1 = false → s.dev.isFenced (dirEnds dir.val).2.1 = false → b.marked = false → b.captured.length < 64 →
          Completes (.dieLinkFrame dir f) s (fun t => Keeps [.net] s t ∧ t.dev.bund dir.val = { c with captured := b.captured ++ [g], marked := g.stopMark }))) ∧
      (∀ o : Bund, s.dev.bund (dirOther dir.val) = o →
        (b.st = 0 → b.want = true → Completes (.dieLinkRetrain dir) s (fun t => Keeps [.net, .cnt, .cat] s t ∧
          (t.dev.bund dir.val).st = 1 ∧ (t.dev.bund dir.val).want = false ∧ (t.dev.bund dir.val).sent = [] ∧ (t.dev.bund dir.val).began = s.dev.cyc (dirDie dir.val) ∧
          (o.st = 0 → o.lost = false → o.quiet = false → t.dev.bund (dirOther dir.val) = { o with backlog := o.backlog ++ (b.acked b.rxSeq ++ b.backlog) }) ∧
          t.dev.counter 0x8017 2 dir.val = (s.dev.counter 0x8017 2 dir.val + 1) % 2 ^ 64)) ∧
        (∀ (bad : List (Fin 68)) (u : Bund), b.st = 1 → (o.st ≠ 0 ∨ o.lost = true ∨ o.quiet = true ∨ o.backlog = [] ∧ o.acked o.rxSeq = []) →
          u = { b with st := 0, failed := bad.foldl (fun m l => putBit m l.val true) b.failed, heard := s.dev.cyc (dirDie dir.val) } → 64 ≤ u.lanes.length →
          Completes (.dieLinkRetrainDone dir bad) s (fun t => Keeps [.net, .cat, .rel] s t ∧ t.dev.bund dir.val = u))) ∧
      (b.st ≠ 2 → b.lost = false → ((dirEnds dir.val).2.1 = 8 ∨ s.dev.runs (dirEnds dir.val).2.1 = true) → b.heard + 256 ≤ s.dev.cyc (dirDie dir.val) →
        Completes (.dieLinkPeerLost dir) s (fun t => Keeps [.net] s t ∧ t.dev.bund dir.val = { b with lost := true } ∧
          (t.dev.bund (dirBack dir.val)).quiet = true ∧ (t.dev.bund (dirBack dir.val)).sent = []))) ∧
    (∀ (i : DieId) (v : VitId) (p : SeamId × Fin 27) (since : BitVec 16),
      ((s.dev.seam p.1.val).active.contains p.2.val = true → Completes (.flitCrcReplay i (some p) ⟨v, since⟩) s (fun t => Keeps [.net, .cnt] s t ∧
        kget 0 (t.dev.seam p.1.val).flits p.2.val = kget 0 (s.dev.seam p.1.val).flits p.2.val + since.toNat + 1 ∧
        t.dev.counter 0x8016 4 v.toNat = (s.dev.counter 0x8016 4 v.toNat + 1) % 2 ^ 64)) ∧
      ((s.dev.seam p.1.val).active.contains p.2.val = false → Completes (.flitCrcReplay i (some p) ⟨v, since⟩) s (fun t => t = s)) ∧
      Completes (.flitCrcReplay i none ⟨v, since⟩) s (fun t => t = s)) ∧
    (∀ (sm : SeamId) (lane : Fin 27) (k : Seam), s.dev.seam sm.val = k →
      (s.dev.runs (sm.val / 2) = true → k.failed.getLsbD lane.val = false → k.active.contains lane.val = true → k.failing lane.val = true →
        (k.spareFor = none → Completes (.seamLaneSubstitute sm lane) s (fun t => Keeps [.net, .cat, .rel] s t ∧
          t.dev.seam sm.val = { k with spareFor := some lane.val, failed := putBit k.failed lane.val true, pauseEnd := (s.dev.die (sm.val / 2)).root + 2048 * 4 })) ∧
        (k.spareFor ≠ none → Completes (.seamLaneSubstitute sm lane) s (fun t => Keeps [.net, .cat, .rel] s t ∧ t.dev.seam sm.val = { k with failed := putBit k.failed lane.val true }))) ∧
      (k.failing lane.val = false → Completes (.seamLaneSubstitute sm lane) s (fun t => t = s))) ∧
    (∀ (up : Bool) (i : DieId) (n : CtlMsg), (up = false → s.dev.runs i.toNat = true) → n ∈ s.dev.net.ctl → n.toAtrium = up → n.die = i →
      Completes (.controlMessage up i) s (fun t => Keeps [.net] s t ∧ ∃ m ∈ s.dev.net.ctl, m.toAtrium = up ∧ m.die = i ∧
        (∀ k ∈ s.dev.net.ctl, k.toAtrium = up → k.die = i → ctlRank m.cls ≤ ctlRank k.cls) ∧
        (∀ e, up = true → m.beyond = some e → t.dev.net = { s.dev.net with ctl := delFirst (fun k => k == m) s.dev.net.ctl ++ [{ m with toAtrium := false, die := e, beyond := none }] }) ∧
        (up = false ∨ m.beyond = none → t.dev.net = { s.dev.net with ctl := delFirst (fun k => k == m) s.dev.net.ctl, got := m :: s.dev.net.got.filter (fun k => !(CtlMsg.on k up i && k.agent == m.agent)) })))

/-- R229, R232, R233: a transaction of a port takes a token when one may be had and nothing of the port is held, and else is held; a returned token is free again; the end of a
regulation window and a late media transfer set their bit of REG_MISS_STATUS, are counted, and interrupt when the bit was clear. -/
def Obligations.PortsAreRegulated : Prop :=
  ∀ (s : State) (v : VitId) (r : Reg) (st : Nat), s.dev.reg v = r → s.dev.vacc v 8 5 = st → s.dev.runs (dieOfVit v) = true →
    (∀ p : MPort,
      (r.held.any (fun h => h.1 == p) = false → s.dev.mayIssue v r p = true → Completes (.portIssue v p) s (fun t => Keeps [.net] s t ∧ t.dev.reg v = r.setOut p (r.held' p + 1))) ∧
      (r.held.any (fun h => h.1 == p) = true ∨ s.dev.mayIssue v r p = false → Completes (.portIssue v p) s (fun t => Keeps [.net] s t ∧
        t.dev.reg v = { r with held := r.held ++ [(p, s.dev.cyc (dieOfVit v))] })) ∧
      (r.held = [] → 0 < r.held' p → Completes (.tokenReturn v p) s (fun t => Keeps [.net] s t ∧ t.dev.reg v = r.setOut p (r.held' p - 1))) ∧
      (0 < r.held' p → Completes (.tokenReturn v p) s (fun t => Keeps [.net] s t))) ∧
    (∀ m : MissView, (s.dev.vit v).missAt + 2 ^ s.dev.vset v 8 3 ≤ s.dev.cyc (dieOfVit v) →
      Completes (.regWindowEnd v m) s (fun t => Keeps [.vits, .cat, .cnt, .srv, .fresh] s t ∧ (t.dev.vit v).missAt = s.dev.cyc (dieOfVit v))) ∧
    (∀ (m : MissView) (c : RegClass), m.router = false → m.seam = false → m.dieLink = false → m.atrium = false → m.port = some c →
      (s.dev.vit v).missAt + 2 ^ s.dev.vset v 8 3 ≤ s.dev.cyc (dieOfVit v) →
      Completes (.regWindowEnd v m) s (fun t => Keeps [.vits, .cat, .cnt, .srv] s t ∧ t.dev.vit v = { s.dev.vit v with missAt := s.dev.cyc (dieOfVit v) } ∧
        t.dev.vacc v 8 5 = st ||| 2 ^ 5 ∧ t.dev.counter 0x8016 2 v.toNat = (s.dev.counter 0x8016 2 v.toNat + 1) % 2 ^ 64 ∧
        t.dev.srv.intr = s.dev.srv.intr ++ (if fld st 5 1 = 1 then [] else [(v.toNat + 1, 64)]))) ∧
    (∀ slack : BitVec 16,
      (slack.msb = true → Completes (.mediaResponse v slack) s (fun t => Keeps [.cat, .cnt, .srv] s t ∧ t.dev.vacc v 8 5 = st ||| 2 ^ 0 ∧
        t.dev.counter 0x8016 3 v.toNat = (s.dev.counter 0x8016 3 v.toNat + 1) % 2 ^ 64 ∧
        t.dev.srv.intr = s.dev.srv.intr ++ (if fld st 0 1 = 1 then [] else [(v.toNat + 1, 64)]))) ∧
      (slack.msb = false → Completes (.mediaResponse v slack) s (fun t => t = s)))

/-! ### The fabric -/

/-- R239-R243, R289, R398-R400: an accepted frame delivers its operations and credits and acknowledges what was sent, a bad one asks for replay, and the sixteenth in a row that fails
authentication trains the link again; a silent peer takes it DOWN, a lost frame lock trains it, a refused link is tried again; training ends in MGMT with fresh numbering or DOWN;
equal digests make the link ACTIVE and others put it in QUARANTINE with the first reason that differs; a ratchet moves one direction's key on. -/
def Obligations.FabricLinksChangeState : Prop :=
  ∀ (s : State) (l : LinkId) (k : Link), s.dev.link l.val = k →
    (k.st ≠ .down → k.st ≠ .training →
      (∀ f : FabFrame,
        (f.decodes = true → f.crcOk = true → f.authOk = true → f.stopped = false → f.nak = false → f.frameSeq = k.rxSeq + 1 → k.draining = false → k.wait = [] →
          Completes (.fabricFrameReceive l f) s (fun t => Keeps [.fab, .cnt] s t ∧ (∀ j, j ≠ l.val → t.dev.link j = s.dev.link j) ∧
            t.dev.link l.val =
              { k with
                heard := s.dev.ref, authFails := 0, rxSeq := f.frameSeq, nak := false, ingress := k.ingress ++ f.ops
                sent := k.sent.filter (fun e => (e.1 - f.ackSeq - 1).toNat < 2 ^ 31)
                creditData := k.creditData + f.dataCredits.toNat
                creditTransit := k.creditTransit + f.transitCredits.toNat
                creditMgmt := k.creditMgmt + f.mgmtCredits.toNat } ∧
            t.dev.counter 0x8019 1 l.val = (s.dev.counter 0x8019 1 l.val + f.corrected.toNat) % 2 ^ 64)) ∧
        (f.decodes && f.crcOk = false → f.authOk = true → Completes (.fabricFrameReceive l f) s (fun t => Keeps [.fab, .cnt] s t ∧
          t.dev.link l.val = { k with nak := true, authFails := 0 })) ∧
        (f.authOk = false → k.authFails + 1 < 16 → Completes (.fabricFrameReceive l f) s (fun t => Keeps [.fab, .cnt] s t ∧
          t.dev.link l.val = { k with nak := true, authFails := k.authFails + 1 } ∧ t.dev.counter 0x7004 2 l.val = (s.dev.counter 0x7004 2 l.val + 1) % 2 ^ 64)) ∧
        (f.authOk = false → 16 ≤ k.authFails + 1 → Completes (.fabricFrameReceive l f) s (fun t => Keeps [.fab, .cnt, .cat] s t ∧
          (t.dev.link l.val).st = .training ∧ (t.dev.link l.val).reason = 0))) ∧
      (k.heard + 1000 ≤ s.dev.ref → Completes (.fabricPeerLost l) s (fun t => Keeps [.fab, .cnt, .cat] s t ∧ (t.dev.link l.val).st = .down ∧ (t.dev.link l.val).reason = 0)) ∧
      Completes (.frameLockLoss l) s (fun t => Keeps [.fab, .cnt, .cat] s t ∧ (t.dev.link l.val).st = .training ∧ (t.dev.link l.val).reason = 0) ∧
      (∀ (tx : Bool) (g : Nat), g = (if tx then k.genTx else k.genRx) + 1 → k.since + g * 2 ^ 32 * 5 ≤ s.dev.ref →
        Completes (.linkKeyRatchet l tx) s (fun t => Keeps [.fab] s t ∧ t.dev.link l.val = (if tx then { k with genTx := g } else { k with genRx := g })))) ∧
    (∀ t0 : Nat, k.refusedAt = some t0 → k.st = .down → k.out = false → t0 + 100000000 ≤ s.dev.ref →
      Completes (.linkAuthRetry l) s (fun t => Keeps [.fab, .cnt, .cat] s t ∧ (t.dev.link l.val).st = .training ∧ (t.dev.link l.val).refusedAt = none)) ∧
    (∀ (peer : DevId) (pl : Byte), s.dev.cat.published = true → k.out = false → k.draining = false → k.st = .training →
      Completes (.linkTrainingDone l peer pl none) s (fun t => Keeps [.fab, .cat] s t ∧ t.dev.link l.val =
        { k with
          st := .mgmt, reason := 0, peer := peer, peerLink := pl.toNat, rxSeq := 0xFFFFFFFF, txSeq := 0, authFails := 0, heard := s.dev.ref
          creditData := 4096, creditTransit := 1024, creditMgmt := 256, genTx := 0, genRx := 0, since := s.dev.ref }) ∧
      ∀ n : BitVec 3, Completes (.linkTrainingDone l peer pl (some n)) s (fun t => Keeps [.fab, .cat] s t ∧ (t.dev.link l.val).st = .down ∧ (t.dev.link l.val).refusedAt = some s.dev.ref)) ∧
    (∀ (p : PeerDigest) (v : VitId), v = vitOfLink l.val → k.st = .mgmt ∨ k.st = .quarantine ∨ k.st = .active → s.dev.devId ≠ 0xFFFF → (s.dev.vit v).held = true →
      s.dev.group v ≠ 0 → ¬(s.dev.fab.pendant = 5 ∧ fld (s.dev.force 0x5200 2 0) l.val 1 = 1) →
      (Config.cfgDigest (s.dev.digestInputs s.dev.fw.version v) = p.digest → Completes (.digestExchange l p) s (fun t => Keeps [.fab, .cnt, .cat] s t ∧ (t.dev.link l.val).st = .active)) ∧
      (Config.cfgDigest (s.dev.digestInputs s.dev.fw.version v) ≠ p.digest → Completes (.digestExchange l p) s (fun t => Keeps [.fab, .cnt, .cat] s t ∧ (t.dev.link l.val).st = .quarantine ∧
        (t.dev.link l.val).reason = (if p.fw.toNat ≠ s.dev.fw.version then 1 else if p.group ≠ s.dev.group v then 2 else if p.epoch ≠ s.dev.epoch v then 3 else 4))))

/-- R246, R248: a remote instruction with room among its group's 64 is taken: its group goes on, its destination registers awaiting the old value, and its record names target, range and
lanes. RGET, RATOM and RRED without earlier writes are split into their operations at once; RPUT from its block's storage too, and RPUT waits for the group's earlier writes. -/
def Obligations.RemoteInstructionsAreTaken : Prop :=
  ∀ (s : State) (g : GRef) (b : Block) (q : Group) (p : RPath) (own : Owner) (rdev rra : Byte) (ra : Nat) (dest : DevId), s.dev.Issues g .m b q p → s.dev.AllSplit →
    own = { slot := g.slot.toNat, grp := g.grp.toNat, launchIx := b.launchIx, block := b.index, seq := b.seq } → ra = q.addr rra.toNat (lowLane p.mask) →
    dest = BitVec.ofNat 16 (q.reg rdev.toNat (lowLane p.mask)).toNat →
    s.dev.fab.ins.countP (fun j => j.core == g.core && (j.owner.slot == own.slot && j.owner.grp == own.grp && j.owner.launchIx == own.launchIx && j.owner.block == own.block)) < 64 →
    (∀ (sp : Space) (rla rlen : Byte) (len la : Nat), Ready b q ([rdev.toNat, rra.toNat, rra.toNat + 1, rlen.toNat] ++ addrRegs sp rla.toNat) → len = (q.reg rlen.toNat (lowLane p.mask)).toNat →
      la = laneAddr q sp rla.toNat 0 (lowLane p.mask) → 64 ≤ len → len ≤ 65536 → len % 64 = 0 → ra % 64 = 0 → la % 64 = 0 →
      (sp = .global → s.dev.valid b.leader la len = true) → (sp = .scratch → la + len ≤ b.launch.s) → (sp = .cluster → la + len ≤ b.launch.c) →
      (sp = .step → la + len ≤ ((s.dev.clu (clusOfCore g.core)).stepBytes).getD 0) →
      ((s.dev.core g.core).ops = [] → (s.dev.eng g.core).tiles = [] → Completes (.rget g rdev rra sp rla rlen) s (fun t => Keeps [.cores, .fab, .cnt] s t ∧ WentOn q (t.dev.groupOf g) p ∧
        ∃ i : RIns, t.dev.fab.ins = s.dev.fab.ins ++ [i] ∧ i.core = g.core ∧ i.owner = own ∧ i.pc = p.pc ∧ i.lanes = p.mask ∧ i.type = .get ∧ i.dest = dest ∧ i.raddr = ra ∧
          i.space = spaceCode sp ∧ i.laddr = la ∧ i.len = len ∧ i.split = true)) ∧
      ((s.dev.core g.core).ops = [] → (s.dev.eng g.core).tiles = [] → sp ≠ .global → Completes (.rput g rdev rra sp rla rlen) s (fun t => Keeps [.cores, .fab, .cnt] s t ∧ WentOn q (t.dev.groupOf g) p ∧
        ∃ i : RIns, t.dev.fab.ins = s.dev.fab.ins ++ [i] ∧ i.core = g.core ∧ i.owner = own ∧ i.type = .put ∧ i.dest = dest ∧ i.raddr = ra ∧ i.space = spaceCode sp ∧ i.laddr = la ∧
          i.len = len ∧ i.split = true)) ∧
      (∀ o ∈ (s.dev.core g.core).ops, o.ofGroup g b = true → o.writes = true → o.accs ≠ [] → Completes (.rput g rdev rra sp rla rlen) s (fun t => Keeps [.cores, .fab] s t ∧ WentOn q (t.dev.groupOf g) p ∧
        ∃ i : RIns, t.dev.fab = { s.dev.fab with ins := s.dev.fab.ins ++ [i], nextIns := s.dev.fab.nextIns + 1 } ∧ i.type = .put ∧ i.dest = dest ∧ i.raddr = ra ∧ i.space = spaceCode sp ∧
          i.laddr = la ∧ i.len = len ∧ o.id ∈ i.waits ∧ i.split = false))) ∧
    (∀ (op : AtomOp) (wide : Bool) (n : Nat) (dst rval rcmp : Byte), (wide && !atomWide op) = false → n = (if wide then 8 else 4) →
      Ready b q ([rdev.toNat, rra.toNat, rra.toNat + 1] ++ lsuRegs dst.toNat n ++ lsuRegs rval.toNat n ++ (if op == .cas then lsuRegs rcmp.toNat n else [])) → ra % n = 0 →
      Completes (.ratom g op wide dst rdev rra rval rcmp) s (fun t => Keeps [.cores, .fab, .cnt] s t ∧
        WentOn { q with busyRegs := q.busyRegs ++ (lsuRegs dst.toNat n).map (BitVec.ofNat 8) } (t.dev.groupOf g) p ∧
        ∃ i : RIns, t.dev.fab.ins = s.dev.fab.ins ++ [i] ∧ i.owner = own ∧ i.type = .atomic ∧ i.dest = dest ∧ i.raddr = ra ∧ i.aop = op ∧ i.wide = wide ∧ i.dst = dst ∧
          i.val = q.regNat rval.toNat (lowLane p.mask) n ∧ i.cmp = q.regNat rcmp.toNat (lowLane p.mask) n ∧ i.split = true)) ∧
    (∀ (op : RedOp) (rval : Byte), Ready b q [rdev.toNat, rra.toNat, rra.toNat + 1, rval.toNat] → ra % 4 = 0 →
      Completes (.rred g op rdev rra rval) s (fun t => Keeps [.cores, .fab, .cnt] s t ∧ WentOn q (t.dev.groupOf g) p ∧
        ∃ i : RIns, t.dev.fab.ins = s.dev.fab.ins ++ [i] ∧ i.owner = own ∧ i.type = .reduce ∧ i.dest = dest ∧ i.raddr = ra ∧ i.aop = redElem op ∧
          i.val = (q.reg rval.toNat (lowLane p.mask)).toNat ∧ i.split = true))

/-- R241, R245, R246, R248-R250: the next put of a source is performed at its scratchpad bytes and recorded, one that comes early is held, and GET data lands at its source; an ACK
completes its operation, whose old value reaches the registers of RATOM; an expired retry sends the operation again, and a timeout raises code 0x44 at its instruction's group, or fails the job of a checkpoint stream. A transit operation
leaves on its route's link with one hop less, and one that has waited 2^20 cycles is discarded and counted. -/
def Obligations.RemoteOperationsArriveAndEnd : Prop :=
  ∀ (s : State),
    (∀ (l : LinkId) (op : ROp), op.dest = s.dev.devId → s.dev.dbg.stopped = false → op.crcOk = true →
      (∀ (v : VitId) (e : SrcEnt) (w : VitId) (off : Nat), s.dev.heldIn op = false → s.dev.cameBy l v op = true → op.type = .put → slotVit op.address.toNat = some v → (s.dev.vit v).held = true → s.dev.group v = op.group → op.group ≠ 0 →
        s.dev.epoch v = op.epoch → kfind s.dev.fab.srcs (srcKey op) = some e → e.epoch = op.epoch → s.dev.valid (((s.dev.vit v).leader).getD v) op.address.toNat op.length.toNat = true →
        (op.tag = e.next → e.held = [] → s.dev.place op.address.toNat = .pad w off → s.dev.isFenced (dieOfVit v) = false → op.data.length = op.length.toNat → (∀ k, ∀ o ∈ (s.dev.slice k).ops, o.todo = []) → Memory.wf s.mem = true →
          vitOfAddr op.address.toNat = w →
          Completes (.remoteOpArrival l op) s (fun t => Keeps [.mem, .fab, .vits, .cnt, .cat] s t ∧
            (∀ i, i < op.length.toNat → t.mem.byte .pad (op.address.toNat + i) = op.data[i]?.getD 0) ∧
            (∀ sp b, (sp ≠ .pad ∨ b < op.address.toNat ∨ op.address.toNat + op.length.toNat ≤ b) → t.mem.byte sp b = s.mem.byte sp b) ∧
            ∃ f, kfind t.dev.fab.srcs (srcKey op) = some f ∧ f.next = e.next + 1 ∧ f.epoch = e.epoch ∧ { tag := op.tag, status := 0, old := 0, data := [] } ∈ f.results)) ∧
        (0 < (op.tag - e.next).toInt → e.held.any (fun o => o.tag == op.tag) = false → e.held.length < 256 →
          Completes (.remoteOpArrival l op) s (fun t => Keeps [.fab] s t ∧ kfind t.dev.fab.srcs (srcKey op) = some { e with used := s.dev.ref, held := e.held ++ [op] }))) ∧
      (∀ (o : RemOp) (i : RIns), op.type = .getData → s.dev.opOf op.srcVit op.src op.tag = some o → o.got = false → o.acked = false → s.dev.insOf o = some i → o.space ≠ 1 → s.dev.insSaved i = false → s.dev.cameBy l op.srcVit op = true →
        Completes (.remoteOpArrival l op) s (fun t => Keeps [.mem, .fab] s t ∧ t.dev.opOf op.srcVit op.src op.tag = some { o with got := true })) ∧
      (∀ (o : RemOp) (i : RIns), op.type = .ack → op.status = 0 → s.dev.cameBy l op.srcVit op = true → s.dev.fab.ops = [o] → o.v = op.srcVit → o.op.tag = op.tag → o.op.epoch = op.epoch → o.op.dest = op.src → o.op.type ≠ .get →
        o.src = .ins i.id → s.dev.fab.ins = [i] → i.split = true →
        (i.type ≠ .atomic → Completes (.remoteAck l op) s (fun t => Keeps [.fab, .cnt] s t ∧ t.dev.fab.ops = [] ∧ t.dev.fab.ins = [] ∧
          t.dev.counter 0x8018 1 o.v.toNat = (s.dev.counter 0x8018 1 o.v.toNat + 1) % 2 ^ 64)) ∧
        (∀ (g : GRef) (b : Block) (q : Group), i.type = .atomic → s.dev.insGroup i = some g → s.dev.grp g = some (b, q) →
          Completes (.remoteAck l op) s (fun t => Keeps [.fab, .cnt, .cores] s t ∧ t.dev.fab.ops = [] ∧ t.dev.fab.ins = [] ∧ t.dev.groupOf g = i.land op.operand0.toNat q)))) ∧
    (∀ (v : VitId) (dest : DevId) (tag : Word) (o : RemOp) (t0 : Nat), s.dev.opOf v dest tag = some o → o.first = some t0 →
      (o.dead = false → o.sentAt + s.dev.force 0x5000 3 0 ≤ s.dev.ref → Completes (.remoteRetryExpiry v dest tag) s (fun t => Keeps [.fab, .cnt] s t ∧
        t.dev.counter 0x8018 2 v.toNat = (s.dev.counter 0x8018 2 v.toNat + 1) % 2 ^ 64 ∧ ∃ p, t.dev.opOf v dest tag = some p ∧ p.op = { o.op with attempt := o.op.attempt + 1 } ∧ p.first = o.first)) ∧
      (o.dead = false → kfind s.dev.fab.halted dest.toNat = none → t0 + s.dev.remoteLimit v + o.susp ≤ s.dev.ref →
        (∀ ld : VitId, o.src = .ckpt → (s.dev.vit v).leader = some ld → s.dev.jobRuns ld = true →
          Completes (.remoteTimeout v dest tag) s (fun t => t.pending = s.pending ∧ ((t.dev.job ld).st = 1 ∨ (t.dev.job ld).st = 2))) ∧
        (∀ (i : RIns) (g : GRef) (b : Block) (q : Group) (n : Nat), o.src = .ins n → s.dev.insOf o = some i → s.dev.insGroup i = some g → s.dev.grp g = some (b, q) → (s.dev.core g.core).exc = none →
          Completes (.remoteTimeout v dest tag) s (fun t => ∃ r, (t.dev.core g.core).exc = some r ∧ r.code = 0x44 ∧ r.pc = i.pc ∧ r.lanes = i.lanes)))) ∧
    (∀ (l : LinkId) (op : ROp) (h j : Nat), op.dest ≠ s.dev.devId → op.hops.toNat = h + 1 → (s.dev.fab.loop.contains op) = false →
      pickLink (s.dev.eligible op.dest (fun w => (s.dev.vit w).held && s.dev.group w == op.group)) op.tag = some j → (s.dev.link j).wait = [] → (s.dev.link j).sent.length < 256 →
      1 + op.dataSlots.toNat ≤ (s.dev.link j).creditTransit →
      Completes (.transitForward l op) s (fun t => Keeps [.fab, .cnt] s t ∧ t.dev.counter 0x8018 5 (vitOfLink l.val).toNat = (s.dev.counter 0x8018 5 (vitOfLink l.val).toNat + 1) % 2 ^ 64 ∧
        (t.dev.link j).sent = (s.dev.link j).sent ++ [((s.dev.link j).txSeq, { op with hops := BitVec.ofNat 4 h })] ∧ (t.dev.link j).txSeq = (s.dev.link j).txSeq + 1 ∧
        (t.dev.link j).creditTransit = (s.dev.link j).creditTransit - (1 + op.dataSlots.toNat))) ∧
    (∀ (l : LinkId) (tag : Word) (op : ROp) (t0 : Nat), op.tag = tag → s.dev.fab.transit = [(l.val, op, t0)] → s.dev.fab.links.any (fun k => k.2.wait.any (fun w => w.1 == 1 && w.2 == op)) = true →
      t0 + 2 ^ 20 ≤ s.dev.ref → Completes (.transitDiscard l tag) s (fun t => Keeps [.fab, .cnt] s t ∧ t.dev.fab.transit = [] ∧
        (∀ k ∈ t.dev.fab.links, ∀ w ∈ k.2.wait, ¬(w.1 = 1 ∧ w.2 = op)) ∧ t.dev.counter 0x8018 7 (vitOfLink l.val).toNat = (s.dev.counter 0x8018 7 (vitOfLink l.val).toNat + 1) % 2 ^ 64))

/-- R253-R255: a PAIR with the named peer that agrees, with four trained pair links, pairs the devices, and one that does not agree is refused; the next COMMIT of a source records the
committed checkpoint for its tenancy; TAKEOVER makes the standby tenancy primary in the next epoch with its committed checkpoint and an empty Provenance store, marks the former
primary as taken over, and gives another member a new ALIAS row. -/
def Obligations.PendantPairsCommitsAndTakesOver : Prop :=
  ∀ (s : State),
    (∀ p : PairInfo, p.peer.toNat = s.dev.force 0x5200 1 0 → p.peer ≠ 0xFFFF → s.dev.fab.pendant ≠ 5 →
      (p.fw.toNat = s.dev.fw.version → p.partOk = true → p.steppingsOk = true → p.links.toNat = s.dev.force 0x5200 2 0 → 4 ≤ min s.dev.pairTrained (bits p.trained).length →
        Completes (.pair p) s (fun t => Keeps [.fab] s t ∧ t.dev.fab = { s.dev.fab with pendant := 2 })) ∧
      (¬(p.fw.toNat = s.dev.fw.version ∧ p.partOk = true ∧ p.steppingsOk = true ∧ p.links.toNat = s.dev.force 0x5200 2 0) →
        Completes (.pair p) s (fun t => Keeps [.fab] s t ∧ t.dev.fab = { s.dev.fab with pendant := 3 }))) ∧
    (∀ (op : ROp) (v : VitId) (e : SrcEnt) (lead : VitId), op.dest = s.dev.devId → op.type = .commit → s.dev.dbg.stopped = false → op.crcOk = true → v = op.srcVit → (s.dev.vit v).held = true →
      (s.dev.vit v).leader = some lead → s.dev.group v = op.group → op.group ≠ 0 → s.dev.epoch v = op.epoch → kfind s.dev.fab.srcs (srcKey op) = some e → e.epoch = op.epoch → op.tag = e.next → e.held = [] →
      Completes (.commit op) s (fun t => Keeps [.fab, .vits] s t ∧ (∃ f, kfind t.dev.fab.srcs (srcKey op) = some f ∧ f.next = e.next + 1 ∧ f.epoch = e.epoch) ∧
        ∀ w, t.dev.vit w = if w ∈ s.dev.tenancy lead then { s.dev.vit w with ckptCommitted := BitVec.ofNat 32 op.operand0.toNat } else s.dev.vit w)) ∧
    (∀ (op : ROp) (old new : DevId), op.dest = s.dev.devId → op.type = .takeover → s.dev.dbg.stopped = false → op.crcOk = true → old = BitVec.ofNat 16 (fld op.operand1.toNat 48 16) →
      new = BitVec.ofNat 16 (fld op.operand1.toNat 32 16) →
      (old = s.dev.devId → Completes (.takeover op) s (fun t => Keeps [.fab, .cat, .cnt] s t ∧ t.dev.fab.pendant = 5)) ∧
      (∀ l : VitId, old ≠ s.dev.devId → new = s.dev.devId → s.dev.standbyFor op = some l →
        Completes (.takeover op) s (fun t => Keeps [.fab, .cat, .vits] s t ∧ (∀ w ∈ s.dev.tenancy l, (t.dev.vit w).ckptLocal = (s.dev.vit w).ckptCommitted ∧ (t.dev.vit w).pv = [] ∧
          t.dev.vacc w 9 4 = 1 ∧ t.dev.epoch w = s.dev.epoch l + 1) ∧ ∀ w, w ∉ s.dev.tenancy l → t.dev.vit w = s.dev.vit w)) ∧
      (∀ v : VitId, old ≠ s.dev.devId → new ≠ s.dev.devId → (s.dev.vit v).held = true → s.dev.group v = op.group → op.group ≠ 0 →
        (∀ a ∈ s.dev.fab.aliases, a.1 = op.group → a.2.2 ≠ old ∧ ¬(a.2.1 = old ∧ a.2.2 = new)) → s.dev.fab.aliases.length < 16 →
        Completes (.takeover op) s (fun t => Keeps [.fab] s t ∧ t.dev.fab.aliases = s.dev.fab.aliases ++ [(op.group, old, new)])))

/-- R11, R297: every command of every form completes, in every state: it is answered with a next state, never with a fault or a refusal, and leaves the queue of waiting commands
to `step`. What each command's next state holds, and where a form traps or waits, the other statements say. -/
def Obligations.EveryCommandCompletes : Prop := ∀ (i : Instr) (s : State), ∃ t, exec i s = .next t ∧ t.pending = s.pending

/-- R61-R63, R72, R129: forms that trap. ILLEGAL_INSTRUCTION: a row width other than 2 to 32, CVTB to a format without a scale, a RED outside GLOBAL, an RPUT or RGET shorter
than 64 or longer than 65,536 bytes; as the model's choice an access of 32 bytes or more, a 64-bit floating atomic, a predicate beyond seven, a codebook code widened or made by CVT
and a WAIT on SCRATCH (logs 4, 75). MATRIX_STATE: MX.OPEN on an open bank and MX.CLOSE, MX.MMA and MX.STORE on a closed one. A result that fails its check raises VECTOR_RESIDUE, an
uncorrectable upset of the register file STORAGE_UNCORRECTABLE in the lane that reads it; both are counted or recorded and end the step. -/
def Obligations.ImpossibleFormsTrap : Prop :=
  ∀ (s : State) (g : GRef) (b : Block) (q : Group) (p : RPath), (s.dev.core g.core).exc = none →
    (s.dev.Issues g .v b q p →
      (∀ op mode dst x y z ok, (vopPred op = true ∧ 8 ≤ dst.toNat) ∨ op = .widen .cb4 ∨ op = .widen .cb2 →
        Completes (.vectorArithmetic g op mode dst x y z ok) s (Squashed g b p 0x04 0 s)) ∧
      (∀ tgt mode dst x xs ok, tgt = .cb4 ∨ tgt = .cb2 ∨ tgt = .fp32 → Completes (.cvt g tgt mode dst x xs ok) s (Squashed g b p 0x04 0 s)) ∧
      (∀ (i : Instr) (l : List Nat), Ready b q l →
        ((∃ op mode dst x y z, i = .vectorArithmetic g op mode dst x y z false ∧ ¬((vopPred op = true ∧ 8 ≤ dst.toNat) ∨ op = .widen .cb4 ∨ op = .widen .cb2) ∧
            l = [x.toNat, y.toNat, z.toNat].take (vopReads op) ++ (if vopPred op then [] else [dst.toNat])) ∨
          (∃ op dst x amt, i = .shift g op dst x amt false ∧ l = [x.toNat, amt.toNat, dst.toNat]) ∨
          (∃ sg mode dst x, i = .fp32ToIntegerConversion g sg mode dst x false ∧ l = [x.toNat, dst.toNat]) ∨
          (∃ tgt mode dst x xs, i = .cvt g tgt mode dst x xs false ∧ tgt ≠ .cb4 ∧ tgt ≠ .cb2 ∧ tgt ≠ .fp32 ∧ l = [x.toNat, xs.toNat, dst.toNat])) →
        Completes i s (fun t => t.dev.counter 0x8010 6 (vitOfCore g.core).toNat = (s.dev.counter 0x8010 6 (vitOfCore g.core).toNat + 1) % 2 ^ 64 ∧
          ∃ r, (t.dev.core g.core).exc = some r ∧ r.code = 0x41 ∧ r.lanes = p.mask ∧ r.pc = p.pc))) ∧
    (s.dev.Issues g .s b q p →
      (∀ tgt mode dst x sd ok, tgt.scaled = false → Completes (.cvtb g tgt mode dst x sd ok) s (Squashed g b p 0x04 0 s)) ∧
      (∀ (w : BitVec 6) dst x ok, w.toNat ∉ [2, 4, 8, 16, 32] →
        Completes (.rowmax g w dst x ok) s (Squashed g b p 0x04 0 s) ∧ Completes (.rowsum g w dst x ok) s (Squashed g b p 0x04 0 s)) ∧
      (∀ fn dst x, Ready b q [x.toNat, dst.toNat] → Completes (.specialFunction g fn dst x false) s (fun t =>
        t.dev.counter 0x8010 6 (vitOfCore g.core).toNat = (s.dev.counter 0x8010 6 (vitOfCore g.core).toNat + 1) % 2 ^ 64 ∧
          ∃ r, (t.dev.core g.core).exc = some r ∧ r.code = 0x41 ∧ r.lanes = p.mask ∧ r.pc = p.pc))) ∧
    (s.dev.Issues g .m b q p →
      (∀ sp (size : BitVec 3) dst ra imm src, 4 < size.toNat →
        Completes (.load g sp size dst ra imm) s (Squashed g b p 0x04 0 s) ∧ Completes (.store g sp size ra imm src) s (Squashed g b p 0x04 0 s)) ∧
      (∀ sp op dst ra imm v c rdev, op = .fadd ∨ op = .fmin ∨ op = .fmax →
        Completes (.atomic g sp op true dst ra imm v c) s (Squashed g b p 0x04 0 s) ∧ Completes (.ratom g op true dst rdev ra v c) s (Squashed g b p 0x04 0 s)) ∧
      (∀ sp op ra imm src, sp ≠ .global → Completes (.red g sp op ra imm src) s (Squashed g b p 0x04 0 s)) ∧
      (∀ (rdev rra : Byte) sp (rla rlen : Byte) (len : Nat), Ready b q ([rdev.toNat, rra.toNat, rra.toNat + 1, rlen.toNat] ++ addrRegs sp rla.toNat) →
        len = (q.reg rlen.toNat (lowLane p.mask)).toNat → len < 64 ∨ 65536 < len →
        Completes (.rput g rdev rra sp rla rlen) s (Squashed g b p 0x04 0 s) ∧ Completes (.rget g rdev rra sp rla rlen) s (Squashed g b p 0x04 0 s))) ∧
    (s.dev.Issues g .b b q p → ∀ cond ra rv rt, Completes (.wait g cond .scratch ra rv rt) s (Squashed g b p 0x04 0 s)) ∧
    (s.dev.Issues g .x b q p → (s.dev.eng g.core).queue.length < 16 → ∀ a : Bool,
      ((b.bank a).isOpen = true → Completes (.mxOpen g a) s (Squashed g b p 0x08 0 s)) ∧
      ((b.bank a).isOpen = false → Completes (.mxClose g a) s (Squashed g b p 0x08 0 s) ∧
        (∀ rc : Byte, Ready b q [rc.toNat, rc.toNat + 1] → Completes (.mxMma g a rc) s (Squashed g b p 0x08 0 s)) ∧
        ∀ rs : Byte, Ready b q [rs.toNat] → Completes (.mxStore g a rs) s (Squashed g b p 0x08 0 s))) ∧
    (∀ (cls : IClass) (u : Issued), s.dev.canIssue g cls = true → s.dev.grp g = some (b, q) → q.paths.head? = some p → s.dev.slotOf g = some u → u.upset = .uncorrectable →
      ∀ i : Instr, (cls = .v ∧ ((∃ op dst x amt ok, i = .shift g op dst x amt ok) ∨ i = .clrf g) ∨ cls = .m ∧ (∃ sp z dst ra imm, i = .load g sp z dst ra imm) ∨ cls = .x ∧ (∃ a, i = .mxOpen g a)) →
        Completes i s (fun t => ∃ r, (t.dev.core g.core).exc = some r ∧ r.code = 0x42 ∧ r.lanes = bit1 32 u.lane ∧ r.pc = p.pc))

/-- R302-R308, R314, R315: requests of a session or mailbox in their SEQ order are answered. READ gives the bytes of its entry; WRITE, or a TABLE transaction from WRITE_BEGIN over
WRITE_SEGMENT to WRITE_COMMIT, sets a plain entry's rows and adds 1 to CATALOGUE_GENERATION; WRITE_ABORT and the timeout drop the transaction; a refused write changes nothing.
DISCOVER and DESCRIBE answer; CATALOGUE carries the same requests through a mailbox. EVENT_SUBSCRIBE and EVENT_ACK move a reader, EVENT and EVENT_RESEND send it up to 45 records, GET_EVENT_RECORDS those of
the physical function. -/
def Obligations.CatalogueRequestsAreAnswered : Prop :=
  ∀ (s : State) (x : X) (p : CatPort), x = { dev := s.dev, mem := s.mem, mram := s.mram } →
    (∀ (q : Requester) (h : PduHead) (index sub : Nat), s.dev.Serves p h.seq q → h.port = p → h.reservedZero = true → h.version = 1 → index = h.entry.index.toNat → sub = h.entry.sub.toNat →
      (∀ (t : EntryInfo) (len : Nat), entryAt index sub = some t → s.dev.inReach q.role t index = true → q.role ≠ .anonymous →
        (t.access ≠ 2 → len = (if h.length = 0 then x.entrySize t index sub else h.length.toNat) → len ≤ 1440 → h.offset.toNat + len ≤ x.entrySize t index sub →
          t.ty = 12 ∨ t.ty = 11 ∨ len = x.entrySize t index sub →
          Completes (.read h) s (fun u => Keeps [.cat, .rel] s u ∧ u.dev.cat.acc = s.dev.cat.acc ∧ Answered p 1 (if s.dev.outOfReach t index then 12 else 0) h.seq
            (x.entryBytes t index sub h.offset.toNat len (s.dev.hides q.role index)) u)) ∧
        Completes (.describe h) s (fun u => Keeps [.cat] s u ∧ Answered p 0x31 0 h.seq
          (leBytes t.ty 1 ++ leBytes t.access 1 ++ leBytes t.scope 1 ++ leBytes (x.entrySize t index sub) 4 ++ (if t.ty = 12 then (x.tableHead t index sub).take 7 else [])) u) ∧
        (s.dev.writeRefusal p q.role t h.entry = none →
          (∀ data, t.ty ≠ 12 → h.offset = 0 → h.length.toNat = data.length → data.length = t.rowBytes → t.access ≠ 4 → t.scope ≠ 2 → x.special index sub 0 (rowMask index sub (leNat data)) none = none →
            x.rangeStatus t index sub [(0, rowMask index sub (leNat data))] = 0 →
            Completes (.write h data) s (fun u => Keeps [.cat, .dbg] s u ∧ Answered p 2 0 h.seq [] u ∧ u.dev.acc index sub 0 = rowMask index sub (leNat data) ∧
              u.dev.cat.gen = (s.dev.cat.gen + 1) % 2 ^ 64)) ∧
          (t.ty = 12 → q.txn = none → Completes (.writeBegin h) s (fun u => Keeps [.cat] s u ∧ Answered p 3 0 h.seq [] u ∧
            ∃ r, u.dev.cat.requester p = some r ∧ r.txn = some { entry := h.entry, last := s.dev.ref })) ∧
          (∀ n : Txn, q.txn = some n → n.entry = h.entry → n.rows ≠ [] → (n.rows.map (·.1)).Nodup → t.access ≠ 4 → t.scope ≠ 2 →
            (∀ r ∈ n.rows, r.1 < 65536 ∧ x.special index sub r.1 (rowMask index sub r.2) none = none) → x.rangeStatus t index sub (n.rows.map (fun r => (r.1, rowMask index sub r.2))) = 0 →
            Completes (.writeCommit h) s (fun u => Keeps [.cat, .dbg] s u ∧ Answered p 5 0 h.seq [] u ∧ (∀ r ∈ n.rows, u.dev.acc index sub r.1 = rowMask index sub r.2) ∧
              u.dev.cat.gen = (s.dev.cat.gen + 1) % 2 ^ 64 ∧ ∃ r, u.dev.cat.requester p = some r ∧ r.txn = none))) ∧
        (∀ st data, s.dev.writeRefusal p q.role t h.entry = some st → Completes (.write h data) s (fun u => Keeps [.cat] s u ∧ Answered p 2 st h.seq [] u ∧
          u.dev.cat.acc = s.dev.cat.acc ∧ u.dev.cat.force = s.dev.cat.force)) ∧
        (∀ n : Txn, q.txn = some n → n.entry = h.entry →
          (∀ data l, h.length.toNat = data.length → rowsAt t h.offset.toNat data = some l → Completes (.writeSegment h data) s (fun u => Keeps [.cat] s u ∧ Answered p 4 0 h.seq [] u ∧
            ∃ r, u.dev.cat.requester p = some r ∧ r.txn = some { entry := h.entry, rows := l.foldl (fun m r => kset m r.1 r.2) n.rows, last := s.dev.ref })) ∧
          Completes (.writeAbort h) s (fun u => Keeps [.cat] s u ∧ Answered p 6 0 h.seq [] u ∧ u.dev.cat.acc = s.dev.cat.acc ∧ ∃ r, u.dev.cat.requester p = some r ∧ r.txn = none))) ∧
      Completes (.discover h) s (fun u => Keeps [.cat] s u ∧ Answered p 0x30 0 h.seq x.discovery u) ∧
      (∀ n : Word, Completes (.eventSubscribe h n) s (fun u => Keeps [.cat] s u ∧ Answered p 0x20 0 h.seq [] u ∧
        ∃ r, u.dev.cat.reader p = some r ∧ r.pos = (if n = 0xFFFFFFFF then s.dev.cat.evNext else n.toNat) ∧ r.inFlight = [])) ∧
      (∀ (n : Word) (r : Reader), s.dev.cat.reader p = some r → (n.toNat + 2 ^ 32 - r.acked) % 2 ^ 32 < (r.pos + 2 ^ 32 - r.acked) % 2 ^ 32 →
        Completes (.eventAck h n) s (fun u => Keeps [.cat] s u ∧ Answered p 0x22 0 h.seq [] u ∧ ∃ k, u.dev.cat.reader p = some k ∧ k.acked = n.toNat ∧ k.pos = r.pos ∧
          ∀ e, e ∈ k.inFlight ↔ e ∈ r.inFlight ∧ (n.toNat + 2 ^ 32 - r.acked) % 2 ^ 32 < (e + 2 ^ 32 - r.acked) % 2 ^ 32))) ∧
    (∀ h : PduHead, s.dev.cat.published = true → (s.dev.proc 0).st ≠ 1 → h.port = .anon → h.reservedZero = true → h.version = 1 →
      Completes (.discover h) s (fun u => Keeps [.cat] s u ∧ Answered .anon 0x30 0 h.seq x.discovery u)) ∧
    (∀ (fn : Option VitId) (h m : PduHead) (data : List Byte), m = { h with port := match fn with | some n => .vf n | none => .pf } →
      exec (.catalogue fn 0x01 m []) s = exec (.read m) s ∧ exec (.catalogue fn 0x01 h []) s = exec (.read m) s ∧ exec (.catalogue fn 0x02 h data) s = exec (.write m data) s ∧
      exec (.catalogue fn 0x30 h []) s = exec (.discover m) s ∧ exec (.catalogue fn 0x31 h []) s = exec (.describe m) s ∧
      ∀ q, s.dev.Serves m.port h.seq q → h.reservedZero = true → h.version = 1 → Completes (.catalogue fn 0x30 h []) s (fun u => Keeps [.cat] s u ∧ Answered m.port 0x30 0 h.seq x.discovery u)) ∧
    (∀ (q : Requester) (n : Txn), s.dev.cat.reqs.find? (fun r => r.port == p) = some q → q.txn = some n → n.last + 100000000 ≤ s.dev.ref →
      Completes (.transactionTimeout p) s (fun u => Keeps [.cat] s u ∧ u.dev.cat.requester p = some { q with txn := none })) ∧
    (∀ (r : Reader) (out : List Event) (e : Event) (next : Nat), s.dev.canSend p = true → s.dev.cat.reader p = some r →
      (r.inFlight.length < 4 → s.dev.eventsFor r 45 = (out ++ [e], next) → Completes (.event p) s (fun u => Keeps [.cat] s u ∧ u.dev.cat.evOut = out ++ [e] ∧ u.dev.cat.evTo = p ∧
        ∃ k, u.dev.cat.reader p = some k ∧ k.pos = next ∧ k.acked = r.acked ∧ k.inFlight = r.inFlight ++ [e.seq] ∧ k.sentAt = s.dev.ref)) ∧
      (r.inFlight ≠ [] → r.sentAt + 1000000 ≤ s.dev.ref → s.dev.eventsFor { r with pos := (r.acked + 1) % 2 ^ 32, inFlight := [] } 45 = (out ++ [e], next) →
        Completes (.eventResend p) s (fun u => Keeps [.cat] s u ∧ u.dev.cat.evOut = out ++ [e] ∧ u.dev.cat.evTo = p ∧
          ∃ k, u.dev.cat.reader p = some k ∧ k.pos = next ∧ k.acked = r.acked ∧ k.inFlight = [e.seq]))) ∧
    (∀ (n : Byte) (r : Reader) (out : List Event) (next : Nat), s.dev.cat.published = true → (s.dev.proc 0).st ≠ 1 → n ≠ 0 → s.dev.cat.reader .pf = some r → s.dev.eventsFor r n.toNat = (out, next) →
      Completes (.getEventRecords n) s (fun u => Keeps [.cat] s u ∧ u.dev.cat.evOut = out ∧ u.dev.cat.evTo = .pf ∧ ∃ k, u.dev.cat.reader .pf = some k ∧ k.pos = next))

/-- R305, R310, R393: KEY_EXCHANGE opens a session that is not yet authenticated, FINISH with a chain whose anchor is in force gives it that role, SESSION_END and 600 s without a
PDU end it with its reader; DEVICE_READY written 1 ends provisioning. -/
def Obligations.SessionsOpenAndEnd : Prop :=
  ∀ (s : State) (id : Word),
    (∀ h : PduHead, h.port = .session id → s.dev.cat.published = true → (s.dev.proc 0).st ≠ 1 → (s.dev.proc 1).st ≠ 1 → h.reservedZero = true → h.version = 1 →
      (s.dev.cat.reqs.find? (fun q => q.port == .session id) = none → s.dev.cat.sessions.length < 16 →
        Completes (.session h .keyExchange true) s (fun t => Keeps [.cat, .fw] s t ∧ Answered (.session id) 0x10 0 h.seq [] t ∧
          ∃ q, t.dev.cat.requester (.session id) = some q ∧ q.role = .anonymous ∧ q.auth = false ∧ q.lastSeq = some h.seq ∧ q.lastPdu = s.dev.ref)) ∧
      (∀ (q : Requester) (anchor : Option Role) (r : Role) (n : Word), s.dev.cat.reqs.find? (fun q => q.port == .session id) = some q → q.auth = false → q.lastSeq = some n → h.seq = n + 1 →
        s.dev.anchorRole anchor = some r → Completes (.session h (.finish anchor true) true) s (fun t => Keeps [.cat, .fw] s t ∧ Answered (.session id) 0x10 0 h.seq [] t ∧
          ∃ u, t.dev.cat.requester (.session id) = some u ∧ u.role = r ∧ u.auth = true ∧ u.lastPdu = s.dev.ref)) ∧
      (∀ q : Requester, s.dev.Serves (.session id) h.seq q → Completes (.sessionEnd h) s (fun t => Keeps [.cat] s t ∧ Answered (.session id) 0x11 0 h.seq [] t ∧
        t.dev.cat.requester (.session id) = none ∧ t.dev.cat.reader (.session id) = none))) ∧
    (∀ q : Requester, s.dev.cat.reqs.find? (fun q => q.port == .session id) = some q → q.lastPdu + 60000000000 ≤ s.dev.ref →
      Completes (.sessionIdleTimeout id) s (fun t => Keeps [.cat] s t ∧ t.dev.cat.requester (.session id) = none ∧ t.dev.cat.reader (.session id) = none ∧
        ∀ u ∈ s.dev.cat.reqs, u.port ≠ .session id → u ∈ t.dev.cat.reqs)) ∧
    (∀ (rq : CatReq) (q : Requester), s.dev.Writes rq q 0x1010 1 →
      Completes (.deviceReady rq 1) s (fun t => Keeps [.cat, .fw] s t ∧ Accepted rq 0 s t ∧ t.dev.cat.ready = true ∧ t.dev.fw = { s.dev.fw with start := 5 }) ∧
      ∀ val : Byte, 1 < val.toNat → Completes (.deviceReady rq val) s (Refused rq 2 s))

/-- R87, R169, R232, R248, R255, R257, R263, R289, R330, R332, R419, R420, R423: settings that a served command writes. A value outside its entry's range is refused VALUE_RANGE and changes
nothing; an accepted one is read back and has its entry's effect: a scratchpad resize begins, bits of REG_MISS_STATUS written 1 clear, standby tenancies take over, a link is trained,
drained or taken down, a media engine is disabled, a profile is in force, a ring is enabled or begins to be disabled, a trace starts afresh, a marker goes to every die. -/
def Obligations.SettingsAreWritten : Prop :=
  ∀ (s : State) (rq : CatReq) (q : Requester) (v : VitId),
    (s.dev.Writes rq q (0x3007 + v.toNat * 16) 1 → ∀ (n : Byte) (pv : Nat), pv = max (max (s.dev.vit v).pvSteps ((s.dev.vit v).pvResize.getD 0)) (s.dev.vacc v 5 2) →
      ((s.dev.vit v).resize = none → n.toNat + pv ≤ 18 → s.dev.pinsFit v n.toNat pv = true → Completes (.galleryScratchStepsWrite rq v n) s (fun t => Keeps [.cat, .vits, .gal] s t ∧
        Accepted rq 1 s t ∧ t.dev.vacc v 7 1 = n.toNat ∧ t.dev.vit v = { s.dev.vit v with resize := some n.toNat } ∧ (∀ w, w ≠ v → t.dev.vit w = s.dev.vit w) ∧
        ∀ g, t.dev.slice g = if g ∈ slicesOfVit v then { s.dev.slice g with changing := true } else s.dev.slice g)) ∧
      ((s.dev.vit v).resize ≠ none → Completes (.galleryScratchStepsWrite rq v n) s (Refused rq 3 s)) ∧
      ((s.dev.vit v).resize = none → 18 < n.toNat + pv → Completes (.galleryScratchStepsWrite rq v n) s (Refused rq 2 s)) ∧
      ((s.dev.vit v).resize = none → n.toNat + pv ≤ 18 → s.dev.pinsFit v n.toNat pv = false → Completes (.galleryScratchStepsWrite rq v n) s (Refused rq 9 s))) ∧
    (s.dev.Writes rq q (0x3008 + v.toNat * 16) 5 → ∀ val : Word, Completes (.regMissStatusWrite rq v val) s (fun t => Keeps [.cat] s t ∧ Accepted rq 0 s t ∧
      t.dev.vacc v 8 5 = (BitVec.ofNat 32 (s.dev.vacc v 8 5) &&& ~~~val).toNat)) ∧
    (s.dev.Writes rq q 0x5200 4 → ∀ (mask : Word) (l : VitId), (∃ w ∈ vitsOf mask, (s.dev.vit w).held = true ∧ s.dev.vacc w 9 4 = 2 ∧ (s.dev.vit w).leader = some l) →
      (∀ w ∈ vitsOf mask, (s.dev.vit w).held = true → s.dev.vacc w 9 4 = 2 → (s.dev.vit w).leader = some l) →
      Completes (.takeoverVitrines rq mask) s (fun t => Keeps [.cat, .fab, .vits] s t ∧ Accepted rq 0 s t ∧ (∀ w ∈ s.dev.tenancy l, (t.dev.vit w).ckptLocal = (s.dev.vit w).ckptCommitted ∧
        (t.dev.vit w).pv = [] ∧ t.dev.vacc w 9 4 = 1 ∧ t.dev.epoch w = s.dev.epoch l + 1) ∧ ∀ w, w ∉ s.dev.tenancy l → t.dev.vit w = s.dev.vit w)) ∧
    (s.dev.Writes rq q (0x3009 + v.toNat * 16) 6 → s.dev.vacc v 9 4 ≠ 2 → ∀ val : Word,
      (val = 0 ∨ s.dev.force 0x5000 2 0 ≤ val.toNat ∧ val.toNat ≤ 4000000000 → Completes (.remoteTimeoutOverride rq v val) s (fun t => Keeps [.cat] s t ∧ Accepted rq 0 s t ∧
        t.dev.vacc v 9 6 = val.toNat ∧ t.dev.remoteLimit v = if val = 0 then s.dev.force 0x5000 2 0 else val.toNat)) ∧
      (¬(val = 0 ∨ s.dev.force 0x5000 2 0 ≤ val.toNat ∧ val.toNat ≤ 4000000000) → Completes (.remoteTimeoutOverride rq v val) s (Refused rq 2 s))) ∧
    (s.dev.Writes rq q (0x300B + v.toNat * 16) 1 → s.dev.vacc v 9 4 ≠ 2 → ∀ val : Byte,
      (val = 0 ∨ val = 1 ∧ (s.dev.dpow (dieOfVit v)).worn = false → Completes (.powerClass rq v val) s (fun t => Keeps [.cat] s t ∧ Accepted rq 0 s t ∧ t.dev.vacc v 0xB 1 = val.toNat ∧
        t.dev.vset v 0xB 1 = s.dev.vset v 0xB 1)) ∧
      (1 < val.toNat → Completes (.powerClass rq v val) s (Refused rq 2 s))) ∧
    (s.dev.Writes rq q 0x2000 2 → ∀ val : BitVec 16,
      (val = 0 ∨ (val = 1600 ∨ val = 2200 ∨ val = 2800) ∧ val.toNat ≤ s.dev.force 0x2000 1 0 → Completes (.profileSelect rq val) s (fun t => Keeps [.cat, .pow] s t ∧ Accepted rq 0 s t ∧
        t.dev.pow = { s.dev.pow with profile := if val = 0 then s.dev.force 0x2000 1 0 else val.toNat })) ∧
      (val ≠ 0 → ¬((val = 1600 ∨ val = 2200 ∨ val = 2800) ∧ val.toNat ≤ s.dev.force 0x2000 1 0) → Completes (.profileSelect rq val) s (Refused rq 2 s))) ∧
    (s.dev.Writes rq q 0x5005 1 → ∀ (l : LinkId) (k : Link), k = s.dev.link l.val →
      (k.st = .down → k.out = false → k.refusedAt = none → Completes (.linkAdmin rq l 0) s (fun t => Keeps [.cat, .fab, .cnt] s t ∧ Accepted rq 0 s t ∧
        (t.dev.link l.val).st = .training ∧ (t.dev.link l.val).draining = false)) ∧
      (k.sent ≠ [] ∨ k.wait ≠ [] → Completes (.linkAdmin rq l 1) s (fun t => Keeps [.cat, .fab] s t ∧ Accepted rq 0 s t ∧ t.dev.link l.val = { k with draining := true } ∧
        ∀ m, m ≠ l.val → t.dev.link m = s.dev.link m)) ∧
      (k.st ≠ .down → Completes (.linkAdmin rq l 2) s (fun t => Keeps [.cat, .fab, .cnt] s t ∧ Accepted rq 0 s t ∧ (t.dev.link l.val).st = .down ∧ (t.dev.link l.val).draining = true ∧
        (t.dev.link l.val).sent = [] ∧ (t.dev.link l.val).wait = [])) ∧
      ∀ val : Byte, 2 < val.toNat → Completes (.linkAdmin rq l val) s (Refused rq 2 s)) ∧
    (s.dev.Writes rq q 0xB010 1 → ∀ (e : EngineId) (val : Byte),
      (val.toNat ≤ 1 ∨ val = 2 ∧ s.dev.mediaHeld e.toNat = [] → Completes (.mediaAdmin rq e val) s (fun t => Keeps [.cat, .srv] s t ∧ Accepted rq 0 s t ∧
        t.dev.media e.toNat = { s.dev.media e.toNat with admin := val.toNat } ∧ t.dev.srv.rings = s.dev.srv.rings)) ∧
      (2 < val.toNat → Completes (.mediaAdmin rq e val) s (Refused rq 2 s))) ∧
    (s.dev.Writes rq q (0x3001 + v.toNat * 16) 1 → ∀ (r : RingId) (row : BitVec 128) (new old : Ring) (l : VitId), new = { cfg := row &&& ~~~(BitVec.ofNat 128 (2 ^ 26 - 1)) } →
      old = s.dev.ring v r.toNat → (s.dev.vit v).leader = some l →
      (old.st = .disabled → new.type ≠ 3 → row.getLsbD 30 = true → s.dev.ringOk l new = true → Completes (.ringConfig rq v r row) s (fun t => Keeps [.cat, .srv] s t ∧ Accepted rq 0 s t ∧
        t.dev.ring v r.toNat = { new with st := .enabled })) ∧
      (old.st = .disabled → new.type ≠ 3 → row.getLsbD 30 = false → Completes (.ringConfig rq v r row) s (fun t => Keeps [.cat, .srv] s t ∧ Accepted rq 0 s t ∧
        t.dev.ring v r.toNat = { old with cfg := new.cfg })) ∧
      (old.st = .enabled → (new.cfg &&& ~~~ringFree) = (old.cfg &&& ~~~ringFree) → row.getLsbD 30 = false → row.getLsbD 29 = false →
        Completes (.ringConfig rq v r row) s (fun t => Keeps [.cat, .srv] s t ∧ Accepted rq 0 s t ∧
          (t.dev.ring v r.toNat).st = .disabling ∧ (t.dev.ring v r.toNat).offTail = old.sqTail ∧ (t.dev.ring v r.toNat).offSquash = false ∧
          (t.dev.ring v r.toNat).fetched = old.fetched)) ∧
      (old.st = .disabling ∨ old.st = .enabled ∧ (new.cfg &&& ~~~ringFree) ≠ (old.cfg &&& ~~~ringFree) → Completes (.ringConfig rq v r row) s (Refused rq 3 s)) ∧
      (old.st = .disabled → new.type = 3 ∨ row.getLsbD 30 = true ∧ s.dev.ringOk l new = false → Completes (.ringConfig rq v r row) s (Refused rq 2 s))) ∧
    (s.dev.Writes rq q (0x300D + v.toNat * 16) 4 → ∀ (row : BitVec 3) (val : BitVec 128) (l : VitId) (base limit : Nat), (s.dev.vit v).leader = some l →
      base = fld val.toNat 84 44 → limit = fld val.toNat 40 44 →
      (base ≤ limit → s.dev.valid l base (limit - base + 1) = true → fld val.toNat 30 2 ≠ 3 ∨ s.dev.debugMode v = true → Completes (.watchpoints rq v row val) s (fun t => Keeps [.cat] s t ∧
        Accepted rq 0 s t ∧ t.dev.vacc v 0xD 4 row.toNat = val.toNat / 2 ^ 29 * 2 ^ 29)) ∧
      (limit < base ∨ s.dev.valid l base (limit - base + 1) = false ∨ fld val.toNat 30 2 = 3 ∧ s.dev.debugMode v = false → Completes (.watchpoints rq v row val) s (Refused rq 2 s))) ∧
    (s.dev.Writes rq q (0x300D + v.toNat * 16) 5 → ∀ val : BitVec 64,
      (fld val.toNat 32 2 ≠ 3 → Completes (.traceControl rq v val) s (fun t => Keeps [.cat, .vits] s t ∧ Accepted rq 0 s t ∧
        t.dev.traceCtl v = fld val.toNat 8 40 * 256 + val.toNat % 4 ∧ (val.getLsbD 0 = true → s.dev.traceCtl v % 2 = 0 → (t.dev.vit v).trace = { st := 1 }) ∧
        (val.getLsbD 0 = true → s.dev.traceCtl v % 2 = 1 → (t.dev.vit v).trace = (s.dev.vit v).trace) ∧ (val.getLsbD 0 = false → (t.dev.vit v).trace = { (s.dev.vit v).trace with st := 0 }) ∧
        ∀ w, w ≠ v → t.dev.vit w = s.dev.vit w)) ∧
      (fld val.toNat 32 2 = 3 → Completes (.traceControl rq v val) s (Refused rq 2 s))) ∧
    (s.dev.Writes rq q 0x8102 1 → Completes (.markerCommand rq 1) s (fun t => Keeps [.cat, .dbg] s t ∧ Accepted rq 0 s t ∧ t.dev.dbg.marker = (s.dev.dbg.marker + 1) % 2 ^ 32 ∧
      (∀ i, i < 8 → s.dev.isFenced i = false → s.dev.rel.diesOut.getLsbD i = false → kget [] t.dev.dbg.toMark i = kget [] s.dev.dbg.toMark i ++ [s.dev.dbg.marker])) ∧
      Completes (.markerCommand rq 0) s (fun t => Keeps [.cat] s t ∧ Accepted rq 0 s t) ∧ ∀ val : Byte, 1 < val.toNat → Completes (.markerCommand rq val) s (Refused rq 2 s))

/-- R260-R264, R266, R268, R289, R291: TENANCY_ASSIGN puts its Vitrines under the lowest-numbered one into CLEARING and is refused BUSY before DEVICE_READY or where one is not UNASSIGNED;
a Vitrine cleared reads zero and is ASSIGNED; SQ_TAIL and CQ_HEAD move on or are ignored; a descriptor in sequence is fetched, a repeated one counted; a ring drained is disabled; a
deaccession disables every ring and, once drained and cleared, each Vitrine is UNASSIGNED with its function off. -/
def Obligations.TenanciesAndRingsBeginAndEnd : Prop :=
  ∀ (s : State) (rq : CatReq) (q : Requester),
    (s.dev.Writes rq q 0x3200 1 → ∀ (mask : Word) (l : VitId), (vitsOf mask).head? = some l →
      (s.dev.cat.ready = true → (vitsOf mask).length ∈ [1, 2, 4, 8, 16, 32] → (∀ v ∈ vitsOf mask, (s.dev.vit v).st = .unassigned) → Completes (.tenancyAssign rq mask) s (fun t =>
        Keeps [.cat, .vits, .srv] s t ∧ Accepted rq 1 s t ∧ CmdRow l 1 1 t ∧
        ∀ v, t.dev.vit v = if v ∈ vitsOf mask then { s.dev.vit v with st := .clearing, leader := some l } else s.dev.vit v)) ∧
      (s.dev.cat.ready = false ∨ (vitsOf mask).length ∈ [1, 2, 4, 8, 16, 32] ∧ (∃ v ∈ vitsOf mask, (s.dev.vit v).st ≠ .unassigned) → Completes (.tenancyAssign rq mask) s (Refused rq 3 s)) ∧
      (s.dev.cat.ready = true → (vitsOf mask).length ∉ [1, 2, 4, 8, 16, 32] → Completes (.tenancyAssign rq mask) s (Refused rq 2 s))) ∧
    (∀ v l : VitId, (s.dev.vit v).leader = some l → Memory.wf s.mem = true →
      ((s.dev.vit v).st = .clearing → Completes (.clearingDone v) s (fun t => Keeps [.mem, .cat, .cnt, .vits, .cores, .clus, .gal, .msgs, .srv, .fab] s t ∧
        (t.dev.vit v).st = .assigned ∧ (t.dev.vit v).leader = some l ∧ (t.dev.vit v).padSteps = 0 ∧ (t.dev.vit v).pinned = 0 ∧ (∀ r, r < 2048 → (t.dev.ring v r).st = .disabled) ∧
        (∀ k row, k ∈ [0x8010, 0x8015, 0x801A] → row < 16 → t.dev.counter k row v.toNat = 0) ∧
        (∀ i, i < windowBytes → t.mem.byte .hbm (v.toNat * 2 ^ 36 + i) = 0) ∧ (∀ i, i < 2 ^ 27 → t.mem.byte .pad (padBase + v.toNat * 2 ^ 27 + i) = 0) ∧
        (∀ a, a / 2 ^ 36 ≠ v.toNat → t.mem.byte .hbm a = s.mem.byte .hbm a) ∧ (∀ a, t.mem.byte .host a = s.mem.byte .host a) ∧
        ((∀ w ∈ s.dev.tenancy l, w ≠ v → (s.dev.vit w).st = .assigned) → CmdRow l 1 0 t))) ∧
      ((s.dev.vit v).st = .deaccessioning → s.dev.drained l = true → s.dev.rel.withdrawn.getLsbD v.toNat = false → s.dev.isFenced (dieOfVit v) = false → s.dev.rel.noWindow.getLsbD v.toNat = false →
        Completes (.clearingDone v) s (fun t => Keeps [.mem, .cat, .cnt, .vits, .cores, .clus, .gal, .msgs, .srv, .fab, .host, .rel] s t ∧ (t.dev.vit v).st = .unassigned ∧
          (t.dev.vit v).leader = none ∧ t.dev.host.vfOff = putBit s.dev.host.vfOff v.toNat true ∧ (∀ i, i < windowBytes → t.mem.byte .hbm (v.toNat * 2 ^ 36 + i) = 0) ∧
          (s.dev.tenancy l = [v] → CmdRow l 2 0 t)))) ∧
    (∀ (v : VitId) (r : RingId) (val : Word) (o : Ring), o = s.dev.ring v r.toNat → (s.dev.vit v).held = true →
      (o.st = .enabled → o.type ≠ 2 ∨ o.docentFed = false →
        (diff32 val o.sqHead ≤ o.size → diff32 o.sqTail o.sqHead < diff32 val o.sqHead → Completes (.sqTail v r val) s (fun t => Keeps [.srv] s t ∧
          t.dev.ring v r.toNat = { o with sqTail := val, bells := o.bells ++ [(val, s.dev.srv.bells)] } ∧ t.dev.srv.bells = s.dev.srv.bells + 1)) ∧
        (¬(diff32 val o.sqHead ≤ o.size ∧ diff32 o.sqTail o.sqHead < diff32 val o.sqHead) → (val - o.sqTail).toInt ≤ 0 → Completes (.sqTail v r val) s (fun t => Keeps [.cnt] s t ∧
          t.dev.counter 0x801A 5 v.toNat = (s.dev.counter 0x801A 5 v.toNat + 1) % 2 ^ 64)) ∧
        (¬(diff32 val o.sqHead ≤ o.size ∧ diff32 o.sqTail o.sqHead < diff32 val o.sqHead) → 0 < (val - o.sqTail).toInt → Completes (.sqTail v r val) s (fun t =>
          t.dev.counter 0x801A 6 v.toNat = (s.dev.counter 0x801A 6 v.toNat + 1) % 2 ^ 64 ∧ (t.dev.ring v r.toNat).sqTail = o.sqTail ∧ (t.dev.ring v r.toNat).bells = o.bells))) ∧
      (o.st ≠ .disabled → 1 ≤ diff32 val o.cqHead → diff32 val o.cqHead ≤ diff32 o.cqTail o.cqHead → Completes (.cqHead v r val) s (fun t => Keeps [.srv] s t ∧
        t.dev.ring v r.toNat = { o with cqHead := val }))) ∧
    (∀ (v : VitId) (r : RingId), (s.dev.ring v r.toNat).st = .disabling → (s.dev.ring v r.toNat).sqHead = (s.dev.ring v r.toNat).offTail → (s.dev.ring v r.toNat).fetched = [] →
      Completes (.ringDisableDone v r) s (fun t => Keeps [.srv] s t ∧ t.dev.ring v r.toNat = { s.dev.ring v r.toNat with st := .disabled, bells := [] })) ∧
    (∀ (v l : VitId) (r : RingId) (o : Ring) (x y : X) (n : Nat) (raw : BitVec 512), o = s.dev.ring v r.toNat → x = { dev := s.dev, mem := s.mem, mram := s.mram } → o.st = .enabled →
      o.sqHead ≠ o.sqTail → o.cqFree ≠ 0 → (s.dev.vit v).leader = some l → (s.dev.crate l).freezing = false → (s.dev.vit v).st = .assigned → s.dev.serves v = true → o.type = 0 ∨ o.type = 1 →
      (∀ f ∈ o.fetched, f.done = none) → o.fetched.length < (if o.type = 0 then 1 else 8) → x.readNat (o.sqBase + 64 * (o.sqHead.toNat % o.size)) 64 = (y, n, false) → raw = BitVec.ofNat 512 n →
      (descSeq raw = o.nextSeq → opAllowed o.type (descOp raw) = true → Completes (.descriptorFetch v r) s (fun t => ∃ f : Fetched, (t.dev.ring v r.toNat).fetched = o.fetched ++ [f] ∧
        f.raw = raw ∧ f.seq = descSeq raw ∧ f.done = none ∧ f.started = false ∧ f.at' = s.dev.ref ∧ (t.dev.ring v r.toNat).sqHead = o.sqHead + 1 ∧
        (t.dev.ring v r.toNat).nextSeq = o.nextSeq + 1 ∧ (t.dev.ring v r.toNat).cqTail = o.cqTail)) ∧
      (2 ^ 31 ≤ diff32 (descSeq raw) o.nextSeq → Completes (.descriptorFetch v r) s (fun t => (t.dev.ring v r.toNat).sqHead = o.sqHead + 1 ∧
        (t.dev.ring v r.toNat).nextSeq = o.nextSeq ∧ t.dev.counter 0x801A 4 v.toNat = (s.dev.counter 0x801A 4 v.toNat + 1) % 2 ^ 64 ∧
        (o.fetched = [] → (t.dev.ring v r.toNat).fetched = [] ∧ (t.dev.ring v r.toNat).cqTail = o.cqTail + 1)))) ∧
    (s.dev.Writes rq q 0x3200 2 → ∀ l : VitId,
      (s.dev.leads l = true → (∀ v ∈ s.dev.tenancy l, (s.dev.vit v).st ≠ .clearing ∧ (s.dev.vit v).st ≠ .deaccessioning) → (s.dev.job l).st ≠ 4 → (s.dev.job l).st ≠ 5 →
        Completes (.tenancyDeaccession rq (BitVec.ofNat 8 l.toNat) false) s (fun t => Keeps [.cat, .vits, .srv] s t ∧ Accepted rq 1 s t ∧ CmdRow l 2 1 t ∧
          (∀ v, t.dev.vit v = if v ∈ s.dev.tenancy l then { s.dev.vit v with st := .deaccessioning, tspLocked := false } else s.dev.vit v) ∧
          ∀ v ∈ s.dev.tenancy l, ∀ r, r < 2048 → (t.dev.ring v r).st = if (s.dev.ring v r).st = .enabled then .disabling else (s.dev.ring v r).st)) ∧
      (s.dev.leads l = false → Completes (.tenancyDeaccession rq (BitVec.ofNat 8 l.toNat) false) s (Refused rq 2 s)))

/-- R292-R294: FREEZE_SAFE asks the tenancy's running steps to stop at their safe points, FREEZE_BOUNDARY lets them end; once nothing runs every Vitrine is FROZEN; SAVE writes the crate's
header, directory and sections to the buffer, or tells the length needed; RESTORE of a crate that passes its checks leaves the cleared tenancy FROZEN, a refused one ASSIGNED; THAW lets it run. -/
def Obligations.CratesFreezeSaveAndThaw : Prop :=
  ∀ (s : State) (rq : CatReq) (q : Requester) (l : VitId), s.dev.Writes rq q 0x3200 3 →
    (s.dev.leads l = true → s.dev.allIn l .assigned = true → (s.dev.crate l).freezing = false →
      Completes (.freezeSafe rq l) s (fun t => Keeps [.cat, .srv] s t ∧ Accepted rq 1 s t ∧ CmdRow l 3 1 t ∧ t.dev.crate l = { freezing := true, boundary := false } ∧
        t.dev.srv.steps = s.dev.srv.steps.map (fun u => if u.leader = l ∧ u.st ≠ .saved ∧ u.st ≠ .saving ∧ descPreempt u.raw ≠ 0 then { u with stopAsked := true } else u)) ∧
      Completes (.freezeBoundary rq l) s (fun t => Keeps [.cat, .srv] s t ∧ Accepted rq 1 s t ∧ CmdRow l 3 1 t ∧ t.dev.crate l = { freezing := true, boundary := true } ∧
        t.dev.srv.steps = s.dev.srv.steps)) ∧
    (s.dev.leads l = false → Completes (.freezeSafe rq l) s (Refused rq 2 s) ∧ Completes (.freezeBoundary rq l) s (Refused rq 2 s) ∧ Completes (.thaw rq l) s (Refused rq 2 s)) ∧
    ((∀ v ∈ s.dev.tenancy l, (s.dev.ring v 0).st = .disabled) →
      ((s.dev.crate l).freezing = true → s.dev.allIn l .assigned = true → (∀ u ∈ s.dev.srv.steps, u.leader = l → u.st = .saved ∧ (s.dev.crate l).boundary = false) →
        (∀ v ∈ s.dev.tenancy l, ∀ r ∈ s.dev.ringsOf v, (s.dev.ring v r).type = 0 ∨ ∀ f ∈ (s.dev.ring v r).fetched, f.done ≠ none) →
        Completes (.freezeDone l) s (fun t => Keeps [.cat, .vits, .srv] s t ∧ CmdRow l 3 0 t ∧ (t.dev.crate l).freezing = false ∧
          ∀ v, t.dev.vit v = if v ∈ s.dev.tenancy l then { s.dev.vit v with st := .frozen } else s.dev.vit v)) ∧
      (s.dev.leads l = true → s.dev.allIn l .frozen = true → Completes (.thaw rq l) s (fun t => Keeps [.cat, .vits, .srv] s t ∧ Accepted rq 1 s t ∧ CmdRow l 3 0 t ∧
        ∀ v, t.dev.vit v = if v ∈ s.dev.tenancy l then { s.dev.vit v with st := .assigned } else s.dev.vit v))) ∧
    ((s.dev.proc 1).st ≠ 1 → s.dev.leads l = true →
      (∀ (memory : Bool) (buf : HostBuf) (ss : List CSec) (clear : List Byte), s.dev.allIn l .frozen = true → ss = s.dev.sections l memory s.dev.fresh → Memory.wf s.mem = true →
        clear = leBytes (s.dev.crateHead l memory s.dev.fresh ss) 128 ++ ss.zipIdx.flatMap (dirEntry ss) →
        (secOffset ss ss.length ≤ buf.len.toNat → Completes (.save rq l memory buf) s (fun t => Keeps [.mem, .cat, .srv, .fresh] s t ∧ Accepted rq 1 s t ∧ CmdRow l 3 0 t ∧
          (∀ i, i < clear.length → t.mem.byte .host (buf.addr.toNat + i) = clear[i]?.getD 0) ∧
          (∀ a, a < buf.addr.toNat ∨ buf.addr.toNat + secOffset ss ss.length ≤ a → t.mem.byte .host a = s.mem.byte .host a) ∧ (∀ a, t.mem.byte .hbm a = s.mem.byte .hbm a))) ∧
        (buf.len.toNat < secOffset ss ss.length → Completes (.save rq l memory buf) s (fun t => Keeps [.cat, .srv, .fresh] s t ∧ Accepted rq 1 s t ∧
          kfind t.dev.srv.cmd l.toNat = some { command := 3, status := 7, needed := secOffset ss ss.length }))) ∧
      (∀ (c : CrateInfo) (buf : HostBuf), s.dev.allIn l .assigned = true → s.dev.drained l = true → (s.dev.crate l).freezing = false →
        (s.dev.crateStatus l c = 0 → Completes (.crateRestore rq l c buf) s (fun t => Accepted rq 1 s t ∧ CmdRow l 3 0 t ∧ ∀ v ∈ s.dev.tenancy l, (t.dev.vit v).st = .frozen ∧ (t.dev.vit v).leader = some l)) ∧
        (s.dev.crateStatus l c ≠ 0 → Completes (.crateRestore rq l c buf) s (fun t => Accepted rq 1 s t ∧ CmdRow l 3 (s.dev.crateStatus l c) t ∧
          ∀ v ∈ s.dev.tenancy l, (t.dev.vit v).st = .assigned ∧ (t.dev.vit v).leader = some l))))

/-- R271-R281, R285-R287: a leader's loop starts its one candidate when its Vitrines are free, and completes one with bad fields; a step ends at its time limit; STEP_END completes a step whose
launches have retired, or that was squashed, with its status, or begins its checkpoint copy; a step asked to stop is saved at its safe point, SAVED after T and resumed after its restore;
CKPT_COPY_DONE sets CKPT_LOCAL, and RESTORE copies that checkpoint back or is refused. -/
def Obligations.StepsStartEndSaveAndRestore : Prop :=
  ∀ (s : State) (x : X) (l : VitId), x = { dev := s.dev, mem := s.mem, mram := s.mram } →
    (∀ (c : Cand) (f : Fetched) (o : Ring), s.dev.leads l = true → s.dev.serves l = true → (s.dev.vit l).st = .assigned → (s.dev.crate l).freezing = false → s.dev.candidates l = [c] →
      c.saved = false → o = s.dev.ring c.v c.ring → o.fetched = [f] → f.seq = c.seq → f.raw = c.raw → f.done = none → f.started = false → s.dev.startable (sMask c.raw) = true →
      (∀ w ∈ vitsOf (sMask c.raw), s.dev.stepOn w = none) →
      (∀ (y : X) (n : Nat), s.dev.maskBad l (sMask c.raw) = false → s.dev.stepBad l c.raw = false → sLaunchCount c.raw = 1 → sCkpt c.raw = false → x.readNat (sLaunchTable c.raw) 64 = (y, n, false) →
        n % 2 ^ 302 = 0 → (sMask c.raw).getLsbD (launchOf n).v.toNat = true → (∀ w ∈ vitsOf (sMask c.raw), (s.dev.vit w).st ≠ .withdrawn) →
        Completes (.stepStart l) s (fun t => (∃ u : StepRec, t.dev.srv.steps = s.dev.srv.steps ++ [u] ∧ u.leader = l ∧ u.ringVit = c.v ∧ u.ring = c.ring ∧ u.seq = c.seq ∧ u.raw = c.raw ∧
            u.mask = sMask c.raw ∧ u.st = .running ∧ u.ends = [] ∧ (sTimeLimit c.raw ≠ 0 → u.limit = sTimeLimit c.raw * 1024)) ∧
          (∀ w ∈ vitsOf (sMask c.raw), (t.dev.vit w).disp.launches = if (launchOf n).v = w then [(0, launchOf n)] else []) ∧
          (t.dev.ring c.v c.ring).fetched = [{ f with started := true }])) ∧
      (s.dev.maskBad l (sMask c.raw) = true ∨ s.dev.stepBad l c.raw = true → Completes (.stepStart l) s (fun t => Decided c.v c.ring f 3 0 s t ∧ t.dev.srv.steps = s.dev.srv.steps ∧
        t.dev.counter 0x801A 1 l.toNat = (s.dev.counter 0x801A 1 l.toNat + 1) % 2 ^ 64))) ∧
    (∀ (u : StepRec), s.dev.srv.steps.find? (fun t => t.leader == l && t.seq == u.seq && t.st == .running) = some u → s.dev.srv.steps.find? (fun t => u.same t) = some u →
      (u.ends = [] → (s.dev.vit l).halt ≠ 2 → s.dev.runs (dieOfVit l) = true → u.since + (u.limit - u.used) ≤ s.dev.cyc (dieOfVit l) →
        Completes (.stepTimeLimit l u.seq) s (fun t => Keeps [.srv, .cores, .vits, .fab] s t ∧ { u with ends := [5], saved := [] } ∈ t.dev.srv.steps ∧
          ∀ w ∈ vitsOf u.mask, (t.dev.vit w).disp.launches = [] ∧ (t.dev.vit w).disp.stopped = true ∧ ∀ k ∈ coresOfVit w, (t.dev.core (BitVec.ofNat 9 k)).slots = [])) ∧
      (u.ends ≠ [] ∨ (∀ w ∈ vitsOf u.mask, (s.dev.vit w).disp.finished = true) → s.dev.stepQuiet u = true → (∀ w ∈ vitsOf u.mask, s.dev.runs (dieOfVit w) = true) → u.ckpt = false → u.ckptDone = false →
        u.recs = [] →
        (∀ f : Fetched, f.seq = u.seq → f.done = none → u.ends ≠ [] ∨ sCkpt u.raw = false → (stepStatus u.ends ≠ 0 ∧ stepStatus u.ends ≠ 0xC) ∨ sPreview u.raw = false →
          Completes (.stepEnd l u.seq) s (fun t => Decided u.ringVit u.ring f (stepStatus u.ends) (u.unanswered % 65536 * 65536) s t ∧
            t.dev.srv.steps = delFirst (fun t => u.same t) s.dev.srv.steps ∧ (∀ w ∈ vitsOf u.mask, (t.dev.vit w).disp = {}) ∧
            t.dev.counter 0x801A 1 l.toNat = (s.dev.counter 0x801A 1 l.toNat + 1) % 2 ^ 64)) ∧
        (u.ends = [] → sCkpt u.raw = true → Completes (.stepEnd l u.seq) s (fun t => Keeps [.srv] s t ∧ { u with ckpt := true } ∈ t.dev.srv.steps))) ∧
      (u.stopAsked = true → u.ends = [] → u.ckpt = false → descPreempt u.raw ≠ 0 → (s.dev.vit l).halt = 0 → (∀ w ∈ vitsOf u.mask, s.dev.runs (dieOfVit w) = true ∧
        s.dev.atSafePoint w (descPreempt u.raw) = true) → s.dev.AllSplit → Completes (.stepSafePoint l u.seq) s (fun t => Keeps [.srv] s t ∧
          { u with st := .saving, used := u.used + (s.dev.cyc (dieOfVit l) - u.since), dues := (vitsOf u.mask).map (fun w => (w, s.dev.clocked w + (s.dev.switchTime w).2)) } ∈ t.dev.srv.steps)) ∧
      (∀ (y z : X) (rs : List Region), u.ckpt = true → u.ckptDone = false → u.ends = [] → (∀ w ∈ vitsOf u.mask, s.dev.runs (dieOfVit w) = true) → s.dev.vset l 9 4 ≠ 1 → x.regions u.raw = (y, rs, false) →
        rs.foldl (fun (acc : X × Bool) r => let (p, b) := acc.1.copyDev r.base (acc.1.dev.slotAt r.v ((sCkptNumber u.raw).toNat % 2) + r.off) r.len; (p, acc.2 || b)) (y, false) = (z, false) →
        z.dev.vset l 9 4 = s.dev.vset l 9 4 → z.dev.srv.steps = s.dev.srv.steps →
        Completes (.ckptCopyDone l u.seq) s (fun t => (∀ w ∈ vitsOf u.mask, (t.dev.vit w).ckptLocal = sCkptNumber u.raw) ∧ { u with ckptDone := true } ∈ t.dev.srv.steps))) ∧
    (∀ u : StepRec, s.dev.srv.steps.find? (fun t => u.same t) = some u → (∀ e ∈ u.dues, s.dev.runs (dieOfVit e.1) = true ∧ e.2 ≤ s.dev.clocked e.1) →
      (s.dev.srv.steps.find? (fun t => t.leader == l && t.seq == u.seq && t.st == .saving) = some u → Completes (.stepSaveDone l u.seq) s (fun t => Keeps [.srv, .cores, .clus, .vits, .cnt] s t ∧
        (∃ r ∈ t.dev.srv.steps, r.st = .saved ∧ r.stopAsked = false ∧ r.seq = u.seq ∧ r.saved.map (·.v) = vitsOf u.mask) ∧
        (∀ w ∈ vitsOf u.mask, ∀ k ∈ coresOfVit w, (t.dev.core (BitVec.ofNat 9 k)).slots = []) ∧ t.dev.counter 0x801A 2 l.toNat = (s.dev.counter 0x801A 2 l.toNat + 1) % 2 ^ 64)) ∧
      (∀ (c : SavedVit) (b : SavedBlk), s.dev.srv.steps.find? (fun t => t.leader == l && t.seq == u.seq && t.st == .restoring) = some u → u.saved = [c] → c.blocks = [b] → c.steps = [] → b.core < 512 →
        Completes (.stepRestoreDone l u.seq) s (fun t => { u with st := .running, saved := [], since := s.dev.cyc (dieOfVit l) } ∈ t.dev.srv.steps ∧
          (∃ e, t.dev.blk (BitVec.ofNat 9 b.core) b.slot = some e ∧ e.index = b.blk.index ∧ e.launchIx = b.blk.launchIx ∧ e.seq = b.blk.seq) ∧
          t.dev.counter 0x801A 3 c.v.toNat = (s.dev.counter 0x801A 3 c.v.toNat + c.cycles) % 2 ^ 64))) ∧
    (∀ (v : VitId) (r : RingId) (f : Fetched) (raw : BitVec 512), (s.dev.ring v r.toNat).head = some f → (s.dev.vit v).leader = some l → f.raw = raw → descOp raw = 2 → (s.dev.ring v r.toNat).type = 0 →
      s.dev.serves v = true → (s.dev.crate l).freezing = false → (s.dev.vit v).st = .assigned →
      (s.dev.maskBad l (sMask raw) = true ∨ sLaunchTable raw ≠ 0 ∨ sLaunchCount raw ≠ 0 ∨ sReserved raw ≠ 0 ∨ descPreempt raw = 3 ∨ s.dev.validWin l (sCkptTable raw) (16 * sCkptRegions raw) = false →
        Completes (.restore v r f.seq) s (Decided v r.toNat f 3 0 s)) ∧
      (∀ (y z : X) (rs : List Region), s.dev.maskBad l (sMask raw) = false → sLaunchTable raw = 0 → sLaunchCount raw = 0 → sReserved raw = 0 → descPreempt raw ≠ 3 →
        s.dev.validWin l (sCkptTable raw) (16 * sCkptRegions raw) = true → (∀ w ∈ vitsOf (sMask raw), s.dev.stepOn w = none ∧ s.dev.runs (dieOfVit w) = true ∧ (s.dev.vit w).st ≠ .withdrawn) →
        x.regions raw = (y, rs, false) → y.dev.ckptOk l raw rs = true → y.dev.srv = s.dev.srv → (∀ w, (y.dev.vit w).ckptLocal = (s.dev.vit w).ckptLocal ∧ (y.dev.vit w).st = (s.dev.vit w).st) →
        ((∃ w ∈ vitsOf (sMask raw), (s.dev.vit w).ckptLocal ≠ sCkptNumber raw) → Completes (.restore v r f.seq) s (Decided v r.toNat f 0x0E 0 s)) ∧
        ((∀ w ∈ vitsOf (sMask raw), (s.dev.vit w).ckptLocal = sCkptNumber raw) → y.restoreRegions (sCkptNumber raw) rs = (z, false) → z.dev.srv = s.dev.srv →
          Completes (.restore v r f.seq) s (Decided v r.toNat f 0 0 s))))

/-- R209, R210, R246, R267, R282-R284, R356: a DMA or media descriptor with bad fields completes BAD_DESCRIPTOR; a good one begins. COPY and FILL move their bytes, RPUT and RGET become operations of
up to 256 bytes, GALLERY starts its range operation; once all is performed the descriptor completes with its status and bytes, and consumed poison ends the job. A media request joins
its engine, and each frame boundary advances it until its last frame completes it. -/
def Obligations.TransfersAndMediaRequestsBeginAndEnd : Prop :=
  ∀ (s : State) (v l : VitId) (r : RingId) (seq : Word) (f : Fetched) (raw : BitVec 512), (s.dev.vit v).leader = some l → f.raw = raw → f.seq = seq → f.done = none →
    (∀ (op : Nat) (i : Instr) (bad : Bool), s.dev.dmaReady v r.toNat op seq = some f → (∀ k, dCluster raw = some k → (s.dev.vit (BitVec.ofNat 5 (k / 2))).leader = some l) →
      ((op = 0x10 ∧ i = .copy v r seq ∧ bad = decide (dLen raw = 0)) ∨ (op = 0x11 ∧ i = .fill v r seq ∧ bad = decide (dLen raw % 4 ≠ 0)) ∨
        (op = 0x12 ∧ i = .dmaRput v r seq ∧ bad = remoteBad raw) ∨ (op = 0x13 ∧ i = .dmaRget v r seq ∧ bad = remoteBad raw) ∨
        (op = 0x14 ∧ i = .gallery v r seq ∧ bad = decide (gcOpOf (dGcOp raw) = none ∨ dLen raw = 0 ∨ dLen raw % 128 ≠ 0 ∨ dSrc raw % 128 ≠ 0))) →
      (bad = true → Completes i s (Decided v r.toNat f 3 0 s)) ∧
      (bad = false → (op = 0x11 ∨ op = 0x12 ∨ (dSrcHost raw = true ∧ op ≠ 0x14) ∨ op = 0x13 ∨ s.dev.valid l (dSrc raw) (dLen raw) = true) →
        (op = 0x12 ∨ op = 0x14 ∨ (∃ k, dCluster raw = some k ∧ dDst raw + dLen raw ≤ ((s.dev.clu k).stepBytes).getD 0) ∨ dCluster raw = none ∧ (dDstHost raw = true ∨ s.dev.valid l (dDst raw) (dLen raw) = true)) →
        (op = 0x12 → dDst raw + dLen raw ≤ 2 ^ 44 ∧ (dSrcHost raw = true ∨ s.dev.valid l (dSrc raw) (dLen raw) = true)) → (op = 0x13 → dSrc raw + dLen raw ≤ 2 ^ 44) →
        Completes i s (fun t => ∃ g ∈ (t.dev.ring v r.toNat).fetched, g.seq = seq ∧ g.raw = raw ∧ g.done = none ∧ g.started = true ∧ (∀ e ∈ g.ends, e ∈ f.ends ∨ e = 22) ∧
          (op = 0x10 ∨ op = 0x11 → g.moved = f.moved + dLen raw) ∧ (op = 0x14 → gcOpOf (dGcOp raw) ≠ some .pin → g.moved = f.moved + dLen raw) ∧
          (op = 0x12 ∨ op = 0x13 → g.moved = f.moved ∧ (22 ∈ g.ends ∨ t.dev.fab.ops.countP (fun o => o.src == .dma r.toNat seq && o.v == v) =
            s.dev.fab.ops.countP (fun o => o.src == .dma r.toNat seq && o.v == v) + cdiv (dLen raw) 256))))) ∧
    (∀ k : Nat, s.dev.dmaReady v r.toNat 0x11 seq = some f → dCluster raw = some k → (s.dev.vit (BitVec.ofNat 5 (k / 2))).leader = some l → dLen raw % 4 = 0 → Memory.wf s.mem = true →
      dDst raw + dLen raw ≤ ((s.dev.clu k).stepBytes).getD 0 → dDst raw + dLen raw ≤ 65536 → Completes (.fill v r seq) s (fun t => ∀ i, i < dLen raw →
        t.mem.byte .clus (s.dev.stepAt k (dDst raw + i)) = BitVec.ofNat 8 (dFill raw / 256 ^ (i % 4)))) ∧
    (s.dev.dmaReady v r.toNat 0x10 seq = some f → dCluster raw = none → dSrcHost raw = true → dDstHost raw = true → dLen raw ≠ 0 → Memory.wf s.mem = true →
      dSrc raw + dLen raw ≤ dDst raw ∨ dDst raw + dLen raw ≤ dSrc raw → Completes (.copy v r seq) s (fun t => Keeps [.mem, .srv] s t ∧
        (∀ i, i < dLen raw → t.mem.byte .host (dDst raw + i) = s.mem.byte .host (dSrc raw + i)) ∧
        ∀ a, a < dDst raw ∨ dDst raw + dLen raw ≤ a → t.mem.byte .host a = s.mem.byte .host a)) ∧
    ((s.dev.ring v r.toNat).fetched.find? (fun g => g.seq == seq && g.done.isNone) = some f → s.dev.runs (dieOfVit v) = true →
      ((s.dev.ring v r.toNat).type = 1 → f.started = true → s.dev.performed v r.toNat f = true →
        (22 ∉ f.ends → Completes (.dmaTransferDone v r seq) s (Decided v r.toNat f (dmaStatus f.ends) f.moved s)) ∧
        (22 ∈ f.ends → s.dev.jobRuns l = true → Completes (.dmaTransferDone v r seq) s (fun t => (t.dev.job l).st = 1 ∨ (t.dev.job l).st = 2))) ∧
      ((s.dev.ring v r.toNat).type = 2 → f.started = false → ∀ (op : Nat) (i : Instr) (ok : Bool), descOp raw = op →
        ((op = 0x20 ∧ i = .encodeAv1 v r seq ∧ ok = true) ∨ (op = 0x21 ∧ i = .encodeHevc v r seq ∧ ok = true) ∨ (op = 0x22 ∧ i = .decodeAv1 v r seq ok) ∨ (op = 0x23 ∧ i = .decodeHevc v r seq ok)) →
        (ok = true → mediaBad (decide (op ≤ 0x21)) raw = false → (s.dev.media (engineOf v (s.dev.ring v r.toNat))).cur = none → Completes i s (fun t => Keeps [.srv] s t ∧
          { f with started := true } ∈ (t.dev.ring v r.toNat).fetched)) ∧
        (ok = false ∨ mediaBad (decide (op ≤ 0x21)) raw = true → Completes i s (fun t => Decided v r.toNat f 3 0 s t ∧
          t.dev.counter 0x801A 8 v.toNat = (s.dev.counter 0x801A 8 v.toNat + 1) % 2 ^ 64))) ∧
      (∀ (e : EngineId) (bytes : Word) (x y : X) (dat : List Byte) (src inLen outLen : Nat), x = { dev := s.dev, mem := s.mem, mram := s.mram } → s.dev.runs (e.toNat / 2) = true →
        (s.dev.media e.toNat).cur = some (v, r.toNat, seq) → src = mSrc raw + (if descOp raw ≤ 0x21 then f.frames * frameBytes raw else f.srcPos) →
        inLen = (if descOp raw ≤ 0x21 then frameBytes raw else bytes.toNat) → outLen = (if descOp raw ≤ 0x21 then bytes.toNat else frameBytes raw) → f.moved + outLen ≤ mCap raw →
        s.dev.valid l src inLen = true → s.dev.valid l (mDst raw + f.moved) outLen = true → x.readBytes src inLen (some (.media e.toNat)) = (y, dat, false) → 7 ∉ f.ends →
        (f.frames + 1 < mFrames raw → Completes (.mediaFrameBoundary e bytes false) s (fun t =>
          { f with frames := f.frames + 1, moved := f.moved + outLen, srcPos := f.srcPos + inLen } ∈ (t.dev.ring v r.toNat).fetched ∧
          t.dev.counter 0xB000 2 e.toNat = (s.dev.counter 0xB000 2 e.toNat + mWidth raw * mHeight raw) % 2 ^ 64)) ∧
        (mFrames raw = f.frames + 1 → mDeadline raw = 0 → (s.dev.ring v r.toNat).fetched = [f] → Completes (.mediaFrameBoundary e bytes false) s (fun t => (t.dev.ring v r.toNat).fetched = [] ∧
          (t.dev.ring v r.toNat).cqTail = (s.dev.ring v r.toNat).cqTail + 1 ∧ t.dev.counter 0x801A 8 v.toNat = (s.dev.counter 0x801A 8 v.toNat + 1) % 2 ^ 64))))

/-- R23-R25, R67, R327, R352, R358-R363, R366-R374: a clock loss stops its die, or the device; a fence takes a die's Vitrines out of service; a cleared one rejoins. REPAIR_DONE retires the failed slots and
lets the job restart; a scrub counts what it corrects; a failed way or laser gives its place to the spare. A self-test starts when its target is free, swaps a slot under test, and ends with a report. The pending
record is sealed, and power-on hours count. -/
def Obligations.FaultsAreContainedAndTested : Prop :=
  ∀ (s : State) (d : DieId) (i : Nat), i = d.toNat →
    (∀ k : BitVec 3, s.dev.runs i = true → Completes (.clockLoss (.die d k)) s (fun t => Keeps [.clk, .rel] s t ∧ t.dev.runs i = false ∧ t.dev.rel.clockLost.getLsbD i = true ∧
      ((s.dev.proc (10 + i)).st ≠ 1 → ∃ r ∈ t.dev.rel.log, r.ukind = 10 ∧ r.unit = i * 8 + k.toNat ∧ r.cls = 6 ∧ r.outcome = 3 ∧ r.seq = s.dev.rel.next))) ∧
    (s.dev.runs i = true → Completes (.clockLoss (.rootPll d)) s (fun t => Keeps [.clk, .rel, .fresh] s t ∧ t.dev.runs i = false ∧ t.dev.rel.clockLost.getLsbD i = true)) ∧
    Completes (.clockLoss .reference) s (FatallyReset s) ∧ (∀ k, Completes (.clockLoss (.atrium k)) s (FatallyReset s)) ∧ Completes .deviceFault s (FatallyReset s) ∧
    (∀ cause : FenceCause, s.dev.fw.step = 11 → s.dev.isFenced i = false → s.dev.rel.diesOut.getLsbD i = false → (cause = .clock → s.dev.rel.clockLost.getLsbD i = true) →
      (cause = .trip → (s.dev.dpow i).trip.isSome = true) → (cause = .peerLost → s.dev.peerLostDie i = true) →
      Completes (.dieFence d cause) s (fun t => (∀ v ∈ vitsOfDie i, (t.dev.vit v).st = .outOfService ∨ (t.dev.vit v).st = .withdrawn) ∧
        (s.dev.dbg.stopped = true → (s.dev.bistOf i).running = false → Keeps [.clk, .rel, .cnt, .cat, .dbg, .vits, .fresh] s t ∧ t.dev.runs i = false ∧ kfind t.dev.rel.fenced i = some cause ∧
          t.dev.dbg.halted.getLsbD i = false ∧ t.dev.dbg.captured.getLsbD i = false ∧ t.dev.counter 0x6051 1 i = (s.dev.counter 0x6051 1 i + 1) % 2 ^ 64))) ∧
    (s.dev.isFenced i = true → kget false s.dev.rel.barred i = false → kfind s.dev.rel.rejoining i = none → s.dev.tripCleared i = true → s.dev.dbg.stopped = false →
      Completes (.dieRejoin d) s (fun t => Keeps [.pow, .rel] s t ∧ kfind t.dev.rel.rejoining i = some s.dev.ref ∧ t.dev.rel.clockLost.getLsbD i = false ∧ t.dev.isFenced i = true ∧
        (t.dev.dpow i).trip = none ∧ (t.dev.dpow i).hard = false)) ∧
    (∀ channels : List ChanId, (kfind s.dev.rel.rejoining i).isSome = true → s.dev.dbg.stopped = false →
      Completes (.dieRejoined d ⟨false, channels⟩) s (fun t => Keeps [.rel] s t ∧ kfind t.dev.rel.rejoining i = none ∧ kget false t.dev.rel.barred i = true) ∧
      ((∀ c ∈ channels, dieOfChan c.val ≠ i) → Completes (.dieRejoined d ⟨true, channels⟩) s (fun t => t.dev.isFenced i = false ∧ kfind t.dev.rel.rejoining i = none ∧ t.dev.runs i = true ∧
        ∀ v ∈ vitsOfDie i, (s.dev.vit v).st = .outOfService → s.dev.rel.noWindow.getLsbD v.toNat = false →
          (t.dev.vit v).leader = (s.dev.vit v).leader ∧ (t.dev.vit v).st = if (s.dev.vit v).leader.isSome then .assigned else .unassigned))) ∧
    (∀ (l : VitId) (failed : List CoreId) (bad : List CoreId), (s.dev.job l).st = 2 → s.dev.dbg.stopped = false → (∀ v ∈ s.dev.tenancy l, (s.dev.proc (10 + dieOfVit v)).st ≠ 1 ∧
        kfind s.dev.rel.rejoining (dieOfVit v) = none ∧ (∀ ch ∈ slicesOfVit v, (s.dev.hchan ch).due.any (·.unc) = false) ∧ ∀ k, kget 0 (kget ({} : Slots) s.dev.rel.slots v.toNat).faults k < 2) →
      bad = failed.filter (fun c => (s.dev.tenancy l).contains (vitOfCore c)) →
      (bad = [] → (∀ v ∈ s.dev.tenancy l, (s.dev.vit v).st = .assigned) → (s.dev.job l).lost = false → Completes (.repairDone l failed) s (fun t => (t.dev.job l).st = 3 ∧
        (∀ v ∈ s.dev.tenancy l, (t.dev.vit v).pv = []) ∧ t.dev.rel.slots = s.dev.rel.slots)) ∧
      (bad = [] → (∃ v ∈ s.dev.tenancy l, (s.dev.vit v).st ≠ .assigned) ∨ (s.dev.job l).lost = true → s.dev.vset l 9 4 ≠ 1 →
        Completes (.repairDone l failed) s (fun t => Keeps [.rel] s t ∧ (t.dev.job l).st = 4)) ∧
      (∀ (c : CoreId) (p : Slots) (n : Nat), bad = [c] → p = kget {} s.dev.rel.slots (vitOfCore c).toNat → n = nthD 0 p.slotOf (c.toNat % 16) → p.testing = none → p.retired = 0 → n < 16 →
        (∀ v ∈ s.dev.tenancy l, (s.dev.vit v).st = .assigned) → (s.dev.job l).lost = false → Completes (.repairDone l failed) s (fun t => (t.dev.job l).st = 3 ∧
          kget {} t.dev.rel.slots (vitOfCore c).toNat = { p with retired := putBit 0 n true, slotOf := setNth p.slotOf (c.toNat % 16) 16 } ∧
          t.dev.counter 0x6050 3 (vitOfCore c).toNat = (s.dev.counter 0x6050 3 (vitOfCore c).toNat + 1) % 2 ^ 64))) ∧
    (∀ (store : SramStore) (unit : BitVec 9) (key now : Nat) (v : VitId), s.dev.runs i = true → key = sramCode store * 1024 + unit.toNat →
      ((store = .cluster ∧ unit.toNat / 8 = i ∧ now = (s.dev.die i).root ∧ v = BitVec.ofNat 5 (unit.toNat / 2) ∧ kget 0 s.dev.rel.scrub key + 4 * s.dev.force 0x6000 1 0 ≤ now) ∨
        (store ≠ .cluster ∧ unit.toNat / 64 = i ∧ now = s.dev.cycOf unit ∧ v = vitOfCore unit ∧ kget 0 s.dev.rel.scrub key + s.dev.force 0x6000 1 0 ≤ now)) →
      Completes (.sramScrub d store unit .none) s (fun t => Keeps [.rel] s t ∧ t.dev.rel = { s.dev.rel with scrub := kset s.dev.rel.scrub key now }) ∧
      Completes (.sramScrub d store unit .corrected) s (fun t => Keeps [.rel, .cnt] s t ∧ t.dev.counter 0x6051 2 i = (s.dev.counter 0x6051 2 i + 1) % 2 ^ 64 ∧
        t.dev.counter 0x8010 7 v.toNat = (s.dev.counter 0x8010 7 v.toNat + 1) % 2 ^ 64) ∧
      (∀ l, (s.dev.vit v).leader = some l → s.dev.jobRuns l = true → store ≠ .engine ∨ (s.dev.eng unit).serves = none →
        Completes (.sramScrub d store unit .uncorrectable) s (fun t => (t.dev.job l).st = 1 ∨ (t.dev.job l).st = 2))) ∧
    (∀ (sl : ChanId) (way : BitVec 4) (v : VitId), v = BitVec.ofNat 5 (sl.val / 24) → s.dev.runs (sl.val / 96) = true →
      ((s.dev.slice sl.val).spare = none → (∀ e ∈ (s.dev.slice sl.val).lines, e.2.way ≠ way.toNat) → Completes (.waySubstitute sl way) s (fun t => Keeps [.gal, .cat, .rel] s t ∧
        t.dev.slice sl.val = { s.dev.slice sl.val with spare := some way.toNat } ∧ ∀ k, k ≠ sl.val → t.dev.slice k = s.dev.slice k)) ∧
      (∀ old, (s.dev.slice sl.val).spare = some old → old ≠ way.toNat → (s.dev.vit v).st ≠ .withdrawn → Completes (.waySubstitute sl way) s (fun t => (t.dev.vit v).st = .withdrawn)) ∧
      ((s.dev.slice sl.val).spare = some way.toNat → Completes (.waySubstitute sl way) s (fun t => t = s))) ∧
    (∀ (lg : LaserId) (k region group n : Nat) (q : Laser), k = lg.val → (region, group) = laserPlace k → q = kget {} s.dev.rel.lasers k → s.dev.fw.step = 11 →
      (region < 8 → s.dev.isFenced region = false ∧ s.dev.rel.diesOut.getLsbD region = false) → kget 0 s.dev.rel.scrub (65536 + k) + 1024 ≤ s.dev.ref →
      Completes (.laserCheck lg 0) s (fun t => Keeps [.rel] s t ∧ t.dev.rel = { s.dev.rel with scrub := kset s.dev.rel.scrub (65536 + k) s.dev.ref }) ∧
      (n < 8 → q.failed.getLsbD n = false → q.spareFor = none → q.failed.getLsbD 8 = false → Completes (.laserCheck lg (BitVec.ofNat 9 (2 ^ n))) s (fun t =>
        kget {} t.dev.rel.lasers k = { spareFor := some n, failed := putBit q.failed n true } ∧ (∀ r, laserFeeds region group n = .inl r → (t.dev.bund r).want = true) ∧
        ∀ m, laserFeeds region group n = .inr m → (s.dev.link m).st ≠ .down → (t.dev.link m).st = .training)) ∧
      (∀ m, n < 8 → q.failed.getLsbD n = false → q.spareFor.isSome = true ∨ q.failed.getLsbD 8 = true → laserFeeds region group n = .inr m → Completes (.laserCheck lg (BitVec.ofNat 9 (2 ^ n))) s (fun t =>
        (kget ({} : Laser) t.dev.rel.lasers k).failed = putBit q.failed n true ∧ (t.dev.link m).out = true ∧ (t.dev.link m).st = .down))) ∧
    (∀ (rq : CatReq) (q : Requester) (kind : Nat) (target : BitVec 16) (nonce : BitVec 256) (c : Instr), s.dev.Writes rq q 0x6040 1 →
      ((kind = 1 ∧ c = .bistCore rq target nonce) ∨ (kind = 2 ∧ c = .bistClusterMemory rq target nonce) ∨ (kind = 3 ∧ c = .bistSlice rq target nonce) ∨ (kind = 4 ∧ c = .bistDieLinkLane rq target nonce) ∨
        (kind = 5 ∧ c = .bistSeamLane rq target nonce) ∨ (kind = 6 ∧ c = .bistLaserGroup rq target nonce) ∨ (kind = 7 ∧ c = .bistDieQuick rq target nonce) ∨
        (kind = 8 ∧ c = .bistDeviceQuick rq target nonce) ∨ (kind = 9 ∧ c = .bistDeviceFull rq target nonce)) →
      (bistRow kind target.toNat = none → Completes c s (Refused rq 2 s)) ∧
      (∀ row, bistRow kind target.toNat = some row →
        (s.dev.bistBusy row kind = true ∨ s.dev.bistAllowed kind target.toNat = false ∨ s.dev.dbg.stopped = true ∨ (row < 8 ∧ s.dev.runs row = false) → Completes c s (Refused rq 3 s)) ∧
        (s.dev.bistBusy row kind = false → s.dev.bistAllowed kind target.toNat = true → s.dev.dbg.stopped = false → (row < 8 → s.dev.runs row = true) → Completes c s (fun t => Accepted rq 1 s t ∧
          Keeps [.cat, .rel, .net] s t ∧ t.dev.bistOf row = { running := true, kind := kind, target := target.toNat, nonce := nonce, start := s.dev.ref } ∧
          (kind = 4 → (t.dev.bund (target.toNat / 68)).failed.getLsbD (target.toNat % 68) = true ∧ (t.dev.bund (target.toNat / 68)).want = true) ∧
          (kind = 5 → (t.dev.seam (target.toNat / 27)).failed.getLsbD (target.toNat % 27) = true))))) ∧
    (∀ (v : VitId) (p : Slots) (j : Nat), p = kget {} s.dev.rel.slots v.toNat → s.dev.runs (dieOfVit v) = true → s.dev.stepOn v = none → (∀ k ∈ coresOfVit v, (s.dev.core (BitVec.ofNat 9 k)).ops = []) →
      (s.dev.core (BitVec.ofNat 9 (v.toNat * 16 + j))).l1 = [] → ∀ b : Bist, b = s.dev.bistOf (dieOfVit v) →
      (b.running = true → b.kind = 1 → b.target / 17 = v.toNat → b.target % 17 ≠ 16 → p.testing = none → p.retired = 0 → p.slotOf.findIdx? (fun k => k == b.target % 17) = some j →
        Completes (.bistSlotSwap v) s (fun t => Keeps [.rel, .cat, .cnt] s t ∧ kget {} t.dev.rel.slots v.toNat = { p with testing := some j, slotOf := setNth p.slotOf j 16 } ∧
          t.dev.counter 0x6050 3 v.toNat = (s.dev.counter 0x6050 3 v.toNat + 1) % 2 ^ 64)) ∧
      (b.running = false ∨ b.kind ≠ 1 ∨ b.target / 17 ≠ v.toNat → p.testing = some j → Completes (.bistSlotSwap v) s (fun t => Keeps [.rel, .cat] s t ∧
        kget {} t.dev.rel.slots v.toNat = { p with testing := none, slotOf := setNth p.slotOf j j }))) ∧
    (∀ (row : Fin 9) (entries : List BistEntry) (b : Bist), b = s.dev.bistOf row.val → b.running = true → (s.dev.proc 1).st ≠ 1 →
      (entries.all bistPass = true → s.dev.dbg.stopped = false → (row.val < 8 → s.dev.runs row.val = true) → (∀ v l, bistVit b = some v → (s.dev.vit v).leader = some l → (s.dev.job l).st ≠ 1 ∧ (s.dev.job l).st ≠ 2) →
        Completes (.bistDone row entries false) s (fun t => Keeps [.net, .rel, .cnt, .cat] s t ∧ (t.dev.bistOf row.val).running = false ∧ t.dev.rel.report.result = 0 ∧
          t.dev.rel.report.seq = s.dev.rel.report.seq + 1 ∧ t.dev.rel.report.kind = b.kind ∧ t.dev.rel.report.target = b.target ∧ t.dev.rel.report.nonce = b.nonce ∧ t.dev.rel.report.entries = entries ∧
          (row.val < 8 → t.dev.counter 0x6051 4 row.val = (s.dev.counter 0x6051 4 row.val + 1) % 2 ^ 64))) ∧
      (entries.all bistPass = false → s.dev.dbg.stopped = false → (row.val < 8 → s.dev.runs row.val = true) → (∀ v l, bistVit b = some v → (s.dev.vit v).leader = some l → (s.dev.job l).st ≠ 1 ∧ (s.dev.job l).st ≠ 2) →
        Completes (.bistDone row entries false) s (fun t => t.dev.rel.report.result = 1 ∧ t.dev.rel.report.entries = entries)) ∧
      Completes (.bistDone row entries true) s (fun t => Keeps [.net, .rel, .cnt, .cat] s t ∧ (t.dev.bistOf row.val).running = false ∧ t.dev.rel.report.result = 2)) ∧
    (∀ (rq : CatReq) (q : Requester) (val : Byte), s.dev.Writes rq q 0x6030 2 →
      (1 < val.toNat → Completes (.recordSeal rq val) s (Refused rq 2 s)) ∧ Completes (.recordSeal rq 0) s (fun t => Keeps [.cat] s t ∧ Accepted rq 0 s t) ∧
      (s.dev.rel.sealing.isSome = true ∨ (s.dev.proc 1).st = 1 → Completes (.recordSeal rq 1) s (Refused rq 3 s)) ∧
      (s.dev.rel.sealing = none → (s.dev.proc 1).st ≠ 1 → Completes (.recordSeal rq 1) s (fun t => Keeps [.cat, .rel] s t ∧ Accepted rq 1 s t ∧ t.dev.rel = { s.dev.rel with sealing := some s.dev.ref }))) ∧
    (s.dev.rel.sealing.isSome = true → (s.dev.proc 1).st = 0 → ∀ n, n = (max s.dev.fw.lastSealed s.dev.fw.recSeq + 1) % 2 ^ 32 → Completes .recordSealDone s (fun t => Keeps [.rel, .fw] s t ∧
      t.dev.rel = { s.dev.rel with sealing := none, sealedSeq := n, changes := 0 } ∧ t.dev.fw = { s.dev.fw with lastSealed := n })) ∧
    (s.dev.fw.step = 11 → Completes .powerOnHours s (fun t => Keeps [.rel, .cat] s t ∧ t.dev.rel.hours = (s.dev.rel.hours + 1) % 2 ^ 32 ∧ t.dev.rel.changes = (s.dev.rel.changes + 1) % 2 ^ 32))

/-- R337, R380, R383-R388, R391-R397, R401, R445-R448: a reset by land, rail or function reset loses what the rules say and start-up resumes. The host loads a bundle and a record, the checks refuse or accept
them, and each start-up step leads to the next until the Catalogue is published. Firmware processors restart and run again; bundles are staged and activated over the admin ring; records and logs are fetched. The
Registrar commits the SVN, zeroises, answers SPDM requests and locks a Vitrine. -/
def Obligations.DeviceResetsStartsAndUpdates : Prop :=
  ∀ (s : State),
    (Completes .perstNAssert s (WasReset (min s.dev.fw.step 1) { s.dev.host.lands with perst := true } s) ∧
      (s.dev.host.pwrOk = false → Completes .pwrOkRise s (WasReset 1 { s.dev.host.lands with pwrOk := true } s)) ∧
      (∀ (mv : BitVec 16) (fell : Bool), s.dev.host.pwrOk = true → (fell = true ∨ mv.toNat < 10200 → Completes (.powerFail mv fell) s (WasReset (if fell then 1 else 0)
          { s.dev.host.lands with fatal := true, pwrOk := !fell, vin := mv.toNat } s)) ∧ (fell = false → 10200 ≤ mv.toNat → Completes (.powerFail mv fell) s (fun t => t = s))) ∧
      (∀ straps : Byte, s.dev.host.perst = true → s.dev.host.pwrOk = true → Completes (.perstNRise straps) s (fun t => Keeps [.host, .fw] s t ∧
        t.dev.host = { s.dev.host with perst := false, straps := straps } ∧ t.dev.fw = { s.dev.fw with step := if s.dev.fw.step = 0 then 0 else 2 })) ∧
      (s.dev.fw.step = 0 → s.dev.host.pwrOk = true → Completes .plinth12vRecovery s (fun t => Keeps [.fw, .ref] s t ∧ t.dev.fw = { s.dev.fw with step := if s.dev.host.perst then 1 else 2 } ∧
        t.dev.ref = s.dev.ref + 1000000)) ∧
      (s.dev.cat.published = true → Completes .pfFlr s (fun t => t.dev.host.vfEnabled = false ∧ (∀ l, s.dev.leads l = true → (∀ v ∈ s.dev.tenancy l, (s.dev.vit v).st = .assigned ∨ (s.dev.vit v).st = .frozen) →
          ∀ v ∈ s.dev.tenancy l, (t.dev.vit v).st = .deaccessioning) ∧ ((∀ l, s.dev.leads l = false) → Keeps [.host] s t)) ∧
        ∀ v, Completes (.vfFlr v) s (fun t => t.dev.host.vfOff = putBit s.dev.host.vfOff v.toNat true ∧ (s.dev.ringsOf v = [] → Keeps [.host] s t)))) ∧
    ((∀ (target : BitVec 1) (offset : BitVec 64) (data : List Byte) (base size : Nat), base = (if target = 0 then stageBundle else stageRecord) → size = (if target = 0 then stageSecond else 8 * 2 ^ 20) →
        s.dev.fw.reloads = true → offset.toNat + data.length ≤ size → Memory.wf s.mem = true → Completes (.loadSegment target offset data) s (fun t => Keeps [.mem, .fw] s t ∧
          t.dev.fw = { s.dev.fw with start := 0, reason := 0 } ∧ t.Reads .stage (base + offset.toNat) data.length (fun i => data.getD i 0) ∧
          (∀ a, a < base + offset.toNat ∨ base + offset.toNat + data.length ≤ a → t.mem.byte .stage a = s.mem.byte .stage a) ∧ ∀ a, t.mem.byte .host a = s.mem.byte .host a)) ∧
      (∀ (di : BitVec 16) (bl rl : BitVec 64), s.dev.fw.step = 4 → s.dev.fw.start = 0 → Completes (.loadEnd di bl rl) s (fun t => Keeps [.fw] s t ∧
        t.dev.fw = { s.dev.fw with start := 1, step := 5, bundleLen := bl.toNat, recordLen := rl.toNat, driverIf := di.toNat })) ∧
      (4 ≤ s.dev.fw.step ∨ s.dev.fw.start = 2 → Completes .startStatus s (fun t => Keeps [.host] s t ∧ t.dev.host.mbox = leBytes s.dev.fw.start 1 ++ leBytes s.dev.fw.reason 1 ++
        leBytes s.dev.fw.version 4 ++ leBytes (Config.selfTestResult (!s.dev.fw.error)).toNat 4)) ∧
      (∀ (b : BundleInfo) (r : RecordInfo) (n : Nat), s.dev.fw.step = 5 → s.dev.fw.start = 1 → n = s.dev.startCheck s.mram b r →
        (n ≠ 0 → Completes (.startVerifyDone b r) s (fun t => Keeps [.mem, .fw] s t ∧ t.dev.fw = { s.dev.fw with start := 2, reason := n, step := 4 } ∧
          t.Reads .stage stageBundle stageSecond (fun _ => 0) ∧ t.Reads .stage stageRecord (8 * 2 ^ 20) (fun _ => 0))) ∧
        (n = 0 → Completes (.startVerifyDone b r) s (fun t => Keeps [.mram, .cat, .rel, .gal, .net, .fab, .pow, .hbm, .vits, .fw] s t ∧ t.dev.fw.start = 3 ∧ t.dev.fw.reason = 0 ∧ t.dev.fw.step = 7 ∧
          t.dev.fw.version = b.version.toNat ∧ t.dev.fw.svn = b.svn.toNat ∧ t.dev.fw.recSeq = r.seq.toNat ∧ t.dev.fw.lastSealed = r.seq.toNat ∧ t.dev.rel.hours = r.hours.toNat ∧
          t.mram.recordSeqFloor = max s.mram.recordSeqFloor r.seq.toNat ∧ s.mram.NoOlder t.mram)))) ∧
    (∀ (res : StepResult), s.dev.fw.start ≠ 2 →
      (s.dev.fw.step = 2 → (res.ok = true → Completes (.startupStepDone res) s (fun t => Keeps [.fw] s t ∧ t.dev.fw = { s.dev.fw with step := 3 })) ∧
        (res.ok = false → Completes (.startupStepDone res) s (fun t => Keeps [.fw, .host] s t ∧ t.dev.fw = { s.dev.fw with start := 2, reason := 0x0E } ∧ t.dev.host.fatal = true))) ∧
      (s.dev.fw.step = 3 → (res.ok = true → s.mram.checkOk = true → Completes (.startupStepDone res) s (fun t => Keeps [.fw, .host] s t ∧ t.dev.fw.step = 4 ∧ t.dev.fw.start = 0 ∧ t.dev.fw.reason = 0 ∧
          t.dev.host = { s.dev.host with fatal := false } ∧ (t.dev.proc 1).st = 0)) ∧
        (res.ok = false ∨ s.mram.checkOk = false → Completes (.startupStepDone res) s (fun t => Keeps [.fw] s t ∧ t.dev.fw = { s.dev.fw with start := 2, reason := 0x0C, error := true }))) ∧
      (s.dev.fw.step = 7 → Completes (.startupStepDone res) s (fun t => t.dev.fw.step = 8 ∧ (∀ i, i < 8 → t.dev.rel.diesOut.getLsbD i = false → t.dev.runs i = true) ∧
        ∀ i ∈ res.diesFailed, t.dev.rel.diesOut.getLsbD i.toNat = true)) ∧
      (s.dev.fw.step = 8 → Completes (.startupStepDone res) s (fun t => Keeps [.fw, .rel, .hbm, .vits] s t ∧ t.dev.fw.step = 9 ∧ (t.dev.bistOf 8).running = true ∧ (t.dev.bistOf 8).kind = 8 ∧
        ∀ c ∈ res.channelsFailed, c < 768 → t.dev.rel.noWindow.getLsbD (c / 24) = true)) ∧
      (s.dev.fw.step = 9 → (res.ok = true → Completes (.startupStepDone res) s (fun t => t.dev.fw.step = 10 ∧ t.dev.rel.report.kind = 8 ∧ t.dev.rel.report.entries = res.entries ∧
          t.dev.rel.report.result = if res.entries.all bistPass then 0 else 1)) ∧
        (res.ok = false → Completes (.startupStepDone res) s (fun t => Keeps [.fw] s t ∧ t.dev.fw = { s.dev.fw with start := 2, reason := 0x0F }))) ∧
      (s.dev.fw.step = 10 → Completes (.startupStepDone res) s (fun t => t.dev.cat.published = true ∧ t.dev.fw.step = 11 ∧ t.dev.fw.start = 4 ∧ (t.dev.proc 0).st = 0 ∧
        t.dev.pow.profile = s.dev.force 0x2000 1 0 ∧ ∀ l, l < 96 → s.dev.rel.diesOut.getLsbD (l / 12) = false → (s.dev.link l).out = false → (t.dev.link l).st = .training))) ∧
    (∀ (p : ProcId) (i : Nat) (cause : BitVec 2), i = p.val → (2 ≤ i → s.dev.runs (procDie i) = true) →
      (s.dev.fw.step = 11 → (s.dev.proc i).st = 0 → (cause.toNat ≤ 1 ∨ (cause = 2 ∧ s.dev.activates i = true)) →
        Completes (.firmwareRestarted p cause false) s (FatallyReset s) ∧
        (i < 2 → 3 ≤ (s.dev.proc i).restarts → Completes (.firmwareRestarted p cause true) s (FatallyReset s)) ∧
        ((s.dev.proc i).restarts < 3 → (i < 2 ∨ 10 ≤ i ∨ ∀ v ∈ vitsOfDie (procDie i), (s.dev.vit v).leader = none) → Completes (.firmwareRestarted p cause true) s (fun t => Keeps [.rel, .fw, .cat] s t ∧
          (t.dev.proc i).st = 1 ∧ (t.dev.proc i).restarts = (s.dev.proc i).restarts + 1 ∧ (i ≤ 1 → ∀ q ∈ t.dev.cat.reqs, CatPort.isSession q.port = false))) ∧
        (cause.toNat ≤ 1 → (s.dev.proc i).restarts < 3 → 2 ≤ i → i < 10 → ∀ v ∈ vitsOfDie (procDie i), ∀ l, (s.dev.vit v).leader = some l → s.dev.jobRuns l = true →
          Completes (.firmwareRestarted p cause true) s (fun t => (t.dev.job l).st = 1 ∨ (t.dev.job l).st = 2))) ∧
      ((s.dev.proc i).st = 1 → s.dev.fw.act ≠ 2 → (i = 0 → s.dev.cat.waiting = []) → Completes (.processorRestartComplete p) s (fun t => Keeps [.fw, .cat, .rel] s t ∧ (t.dev.proc i).st = 0 ∧
        (i = 1 → t.dev.fw.error = false) ∧ (10 ≤ i → ∀ h ∈ t.dev.rel.heldRecs, h.1 ≠ i - 10) ∧ (i < 10 → t.dev.rel = s.dev.rel)))) ∧
    (∀ tag : BitVec 16, s.dev.adminServes = true →
      (∀ (src len : BitVec 64) (b : BundleInfo) (n : Nat), s.dev.fw.act < 2 → (s.dev.proc 1).st = 0 →
        n = (if bundleCheck s.mram len.toNat b = 0 ∧ driverOk s.dev.fw.driverIf b = false then 11 else bundleCheck s.mram len.toNat b) → Completes (.fwStage tag src len b) s (fun t =>
          Keeps [.mem, .fw, .cat, .srv] s t ∧ (n = 0 → t.dev.fw.staged = some b ∧ t.dev.fw.act = 1 ∧ AdminDone tag.toNat 0 0x40 0 s t) ∧
          (n ≠ 0 → t.dev.fw.staged = none ∧ t.dev.fw.act = 0 ∧ AdminDone tag.toNat n 0x40 0x10 s t) ∧
          (Memory.wf s.mem = true → len.toNat ≤ stageSecond → t.Reads .stage stageSecond len.toNat (fun i => s.mem.byte .host (src.toNat + i))))) ∧
      (s.dev.fw.act < 2 →
        (s.dev.fw.staged = none → Completes (.fwActivate tag) s (fun t => Keeps [.fw, .srv] s t ∧ AdminDone tag.toNat 0 0x41 3 s t)) ∧
        (∀ b, s.dev.fw.staged = some b → (b.registrarDigest ≠ s.dev.fw.registrarDigest → Completes (.fwActivate tag) s (fun t => Keeps [.fw, .cat, .srv] s t ∧ AdminDone tag.toNat 0x0D 0x41 0x10 s t)) ∧
          (b.registrarDigest = s.dev.fw.registrarDigest → (s.dev.emergency = 0 → Completes (.fwActivate tag) s (fun t => Keeps [.fw] s t ∧ t.dev.fw.act = 2 ∧ t.dev.fw.consLeft = s.dev.dieMask ∧
              t.dev.fw.curLeft = true ∧ t.dev.fw.docents = s.dev.dieMask)) ∧
            (s.dev.emergency ≠ 0 → Completes (.fwActivate tag) s (fun t => t.dev.fw.act = 3 ∧ AdminDone tag.toNat 0 0x41 0x11 s t))))) ∧
      (s.dev.fw.act ≠ 2 → Memory.wf s.mem = true → ∀ dst : BitVec 64,
        Completes (.recordFetch tag dst) s (fun t => Keeps [.mem, .fw, .srv] s t ∧ AdminDone tag.toNat 0 0x42 0 s t ∧
          (s.dev.rel.sealedSeq = 0 → t.Reads .host dst.toNat s.dev.fw.recordLen (fun i => s.mem.byte .stage (stageRecord + i))) ∧
          (s.dev.rel.sealedSeq ≠ 0 → t.Reads .host dst.toNat (Config.recordLen s.dev.rel.sealedSeq) (fun i => Config.recordByte s.dev.rel.sealedSeq i))) ∧
        Completes (.logFetch tag dst) s (fun t => Keeps [.mem, .fw, .srv, .fresh] s t ∧ AdminDone tag.toNat 0 0x43 0 s t ∧
          t.Reads .host dst.toNat (min (Config.logLen s.dev.fresh) (2 ^ 24)) (fun i => Config.fileByte s.dev.fresh i)))) ∧
    (s.dev.fw.act = 3 → s.dev.emergency = 0 → s.dev.dbg.stopped = false → s.dev.pow.calmAt + 10000000 ≤ s.dev.ref → Completes .fwActivationResumed s (fun t => Keeps [.fw, .cat] s t ∧
      t.dev.fw = { s.dev.fw with act := 2, consLeft := s.dev.dieMask, curLeft := true, docents := s.dev.dieMask })) ∧
    (∀ (d : DieId) (i : Nat), i = d.toNat → s.dev.fw.act = 2 → s.dev.fw.consLeft = 0 → s.dev.fw.curLeft = false → (s.dev.proc 0).st = 0 → s.dev.fw.docents.getLsbD i = true →
      (∀ u ∈ s.dev.srv.steps, ∀ v ∈ vitsOfDie i, u.mask.getLsbD v.toNat = false) → s.dev.runs i = true → (s.dev.proc (2 + i)).st = 0 → s.dev.dbg.stopped = false →
      Completes (.docentActivationRestart d) s (fun t => Keeps [.fw, .cat] s t ∧ (t.dev.proc (2 + i)).st = 1 ∧ t.dev.fw.docents = putBit s.dev.fw.docents i false)) ∧
    (∀ (rq : CatReq) (q : Requester) (val : Byte),
      (s.dev.Writes rq q 0x7000 4 → (1 < val.toNat → Completes (.svnCommit rq val) s (Refused rq 2 s)) ∧ (s.dev.cat.ready = false → Completes (.svnCommit rq 1) s (Refused rq 3 s)) ∧
        (s.dev.cat.ready = true → Completes (.svnCommit rq 1) s (fun t => Keeps [.cat, .mram] s t ∧ Accepted rq 0 s t ∧ t.mram = { s.mram with svnFloor := max s.mram.svnFloor s.dev.fw.svn }))) ∧
      (s.dev.Writes rq q 0x7000 9 → (1 < val.toNat → Completes (.zeroize rq val) s (Refused rq 2 s)) ∧ (1 < s.dev.fw.step → Completes (.zeroize rq 1) s (FatallyReset s)))) ∧
    (∀ test : Byte, s.dev.fw.step = 11 → ((s.dev.proc 1).st = 0 → (s.dev.proc 1).restarts < 3 → Completes (.selfTestFailed test false) s (fun t => Keeps [.fw, .cat] s t ∧ t.dev.fw.error = true ∧
        t.dev.fw.approved = false ∧ (t.dev.proc 1).st = 1)) ∧ ((s.dev.proc 1).st = 1 → Completes (.selfTestFailed test true) s (FatallyReset s))) ∧
    ((s.dev.proc 1).st = 0 →
      (∀ (port : SpdmPort) (rq : SpdmReq) (k : Nat) (l : List (Nat × BitVec 256)), 4 ≤ s.dev.fw.step →
        ((∃ sl : BitVec 1, rq = .getCertificate sl ∧ k = 1 + sl.toNat ∧ l = []) ∨ (rq = .challenge ∧ k = 3 ∧ l = []) ∨ (rq = .keyExchange ∧ k = 5 ∧ l = []) ∨ (∃ a, rq = .finish a true ∧ k = 6 ∧ l = []) ∨
          (rq = .endSession ∧ k = 7 ∧ l = []) ∨ (rq = .getMeasurements 255 ∧ k = 4 ∧ l = (measureIndices port).map (fun m => (m, s.dev.measure m))) ∨
          ∃ m : Byte, m ≠ 255 ∧ m.toNat ∈ measureIndices port ∧ rq = .getMeasurements m ∧ k = 4 ∧ l = [(m.toNat, s.dev.measure m.toNat)]) →
        Completes (.spdmMessage port rq) s (fun t => Keeps [.fw, .host] s t ∧ t.dev.fw = { s.dev.fw with spdmOut := some (port, k, l) } ∧
          t.dev.host.ibi = s.dev.host.ibi + if port = .mctp then 1 else 0)) ∧
      (∀ v, (s.dev.vit v).held = true → (s.dev.vit v).tspLocked = false → Completes (.tspLock v) s (fun t => Keeps [.vits, .cat] s t ∧
        t.dev.vit v = { s.dev.vit v with tspLocked := true, tspDigest := Config.digest (s.dev.vitRw v) } ∧ ∀ w, w ≠ v → t.dev.vit w = s.dev.vit w)))

/-- R408-R420, R423, R439: STOP_COMMAND or the land starts a stop; each die halts on STOP and the last one makes the device STOPPED; STOP_MARK closes a capture; RESUME restarts the dies. A scan-out command begins,
asks for a larger buffer or is refused, and its end writes header and directory or reports a failure. VITRINE_HALT quiesces a tenancy, which is halted once quiet and resumed by 0. A filled trace buffer
freezes with its action. MARK goes to every die in service, at the interval too, and each die notes it. -/
def Obligations.DeviceStopsScansAndTraces : Prop :=
  ∀ (s : State),
    (∀ (rq : CatReq) (q : Requester), s.dev.Writes rq q 0x8100 1 →
      (s.dev.dbg.st = 0 → Completes (.stop rq) s (fun t => Keeps [.cat, .dbg] s t ∧ Accepted rq 0 s t ∧ t.dev.dbg.seq = (s.dev.dbg.seq + 1) % 2 ^ 32 ∧ t.dev.dbg.cause = 1 ∧ t.dev.dbg.halted = 0 ∧
        t.dev.dbg.st = if (List.range 8).any s.dev.runs then 1 else 2)) ∧
      (s.dev.dbg.st = 1 ∨ s.dev.dbg.st = 2 → Completes (.stop rq) s (fun t => Keeps [.cat] s t ∧ Accepted rq 0 s t)) ∧ (s.dev.dbg.st = 3 → Completes (.stop rq) s (Refused rq 3 s)) ∧
      (s.dev.dbg.st = 2 → s.dev.dbg.scan = none → s.dev.dbg.fences = [] → (s.dev.dbg.halted ≠ 0 ∨ s.dev.host.held = []) → Completes (.resume rq) s (fun t => Keeps [.cat, .dbg] s t ∧ Accepted rq 0 s t ∧
        t.dev.dbg = { s.dev.dbg with st := if s.dev.dbg.halted = 0 then 0 else 3 })) ∧
      (s.dev.dbg.st = 1 ∨ (s.dev.dbg.st = 2 ∧ s.dev.dbg.scan.isSome = true) → Completes (.resume rq) s (Refused rq 3 s)) ∧
      (s.dev.dbg.st = 0 ∨ s.dev.dbg.st = 3 → Completes (.resume rq) s (fun t => Keeps [.cat] s t ∧ Accepted rq 0 s t))) ∧
    (s.dev.cat.published = true → s.dev.force 0x8100 5 0 = 1 → s.dev.dbg.st = 0 → Completes .stopLand s (fun t => Keeps [.cat, .dbg] s t ∧ t.dev.dbg.seq = (s.dev.dbg.seq + 1) % 2 ^ 32 ∧ t.dev.dbg.cause = 2 ∧
      t.dev.dbg.halted = 0 ∧ t.dev.dbg.st = if (List.range 8).any s.dev.runs then 1 else 2)) ∧
    (∀ (d : DieId) (i : Nat), i = d.toNat →
      (s.dev.dbg.st = 1 → s.dev.runs i = true → Completes (.stopArrival d) s (fun t => Keeps [.clk, .cat, .dbg] s t ∧ t.dev.runs i = false ∧ (∀ j, j ≠ i → t.dev.die j = s.dev.die j) ∧
        t.dev.die i = { s.dev.die i with running := false } ∧ t.dev.dbg.halted = putBit s.dev.dbg.halted i true ∧ t.dev.dbg.captured = putBit s.dev.dbg.captured i true ∧
        kget 0 t.dev.dbg.cycle i = s.dev.cyc i ∧ t.dev.dbg.st = if (List.range 8).any (fun j => j != i && s.dev.runs j) then 1 else 2)) ∧
      (s.dev.dbg.st = 3 → s.dev.dbg.halted.getLsbD i = true → (∀ r, r < 144 → (dirEnds r).2.1 = i → (s.dev.bund r).captured = []) → (putBit s.dev.dbg.halted i false ≠ 0 ∨ s.dev.host.held = []) →
        Completes (.resumeArrival d) s (fun t => Keeps [.clk, .net, .cat, .dbg] s t ∧ t.dev.dbg = { s.dev.dbg with halted := putBit s.dev.dbg.halted i false, st := if putBit s.dev.dbg.halted i false = 0 then 0 else 3 } ∧
          t.dev.runs i = (!s.dev.isFenced i && (s.dev.dpow i).trip.isNone && !s.dev.rel.clockLost.getLsbD i) ∧ (∀ r, r < 144 → (dirEnds r).2.1 = i → (t.dev.bund r).marked = false))) ∧
      (∀ (n : Nat) (rest : List Nat), kget [] s.dev.dbg.toMark i = n :: rest → s.dev.runs i = true → Completes (.mark d) s (fun t => Keeps [.vits, .cnt, .dbg] s t ∧ kget [] t.dev.dbg.toMark i = rest ∧
        (∀ j, j ≠ i → kget [] t.dev.dbg.toMark j = kget [] s.dev.dbg.toMark j) ∧ t.dev.dbg.log = s.dev.dbg.log.map (fun e => if e.1 = n then (e.1, kset e.2 i (s.dev.cyc i)) else e) ∧
        ∀ v, dieOfVit v ≠ i → t.dev.vit v = s.dev.vit v))) ∧
    (∀ (dir : DirId) (a b c : Nat), (a, b, c) = dirEnds dir.val → b ≠ 8 → s.dev.dbg.halted.getLsbD b = true → a = 8 ∨ s.dev.dbg.halted.getLsbD a = true →
      Completes (.stopMark dir) s (fun t => Keeps [.net] s t ∧ t.dev.bund dir.val = { s.dev.bund dir.val with marked := true } ∧ ∀ r, r ≠ dir.val → t.dev.bund r = s.dev.bund r)) ∧
    (∀ (rq : CatReq) (q : Requester) (buf : HostBuf) (r : ScanRec) (i : Instr) (free : Prop), r.buf = buf →
      ((∃ (sec : BitVec 16) (dies : Byte), s.dev.Writes rq q 0x8101 1 ∧ i = .scanoutCommand rq sec dies buf ∧ r = { leader := none, sections := sec, dies := dies, buf := buf } ∧ (free ↔ s.dev.dbg.st = 2)) ∨
        (∃ (v l : VitId) (sec : BitVec 16), s.dev.Writes rq q (blockIx v 0xD) 9 ∧ (s.dev.vit v).leader = some l ∧ i = .scanCommand rq v sec buf ∧
          r = { leader := some l, sections := sec, dies := 0, buf := buf } ∧ (free ↔ ∀ w ∈ s.dev.tenancy l, (s.dev.vit w).halt = 2))) →
      (¬ free ∨ s.dev.dbg.scan.isSome = true → Completes i s (Refused rq 3 s)) ∧
      (free → s.dev.dbg.scan = none → (buf.len.toNat < scanSize (s.dev.scanSecs r) → Completes i s (fun t => Keeps [.cat, .dbg] s t ∧ Answered rq.port 2 2 rq.seq [] t ∧
          t.dev.dbg = { s.dev.dbg with status := 3, bytes := scanSize (s.dev.scanSecs r) })) ∧
        (scanSize (s.dev.scanSecs r) ≤ buf.len.toNat → Completes i s (fun t => Keeps [.cat, .dbg] s t ∧ Accepted rq 1 s t ∧ t.dev.dbg = { s.dev.dbg with status := 1, bytes := 0, scan := some r })))) ∧
    (∀ (r : ScanRec) (ss : List SSec), s.dev.dbg.scan = some r → ss = s.dev.scanSecs r →
      Completes (.scanoutDone false) s (fun t => Keeps [.cat, .dbg] s t ∧ t.dev.dbg = { s.dev.dbg with scan := none, status := 4, bytes := 0 }) ∧
      Completes (.scanoutDone true) s (fun t => Keeps [.mem, .cat, .dbg, .fresh] s t ∧ t.dev.dbg = { s.dev.dbg with scan := none, status := 2, bytes := scanSize ss } ∧
        (Memory.wf s.mem = true → t.Reads .host r.buf.addr.toNat (128 + 32 * ss.length)
          (fun i => (leBytes (s.dev.scanHead r s.dev.fresh ss.length) 128 ++ ss.zipIdx.flatMap (scanRow ss)).getD i 0)))) ∧
    (∀ (rq : CatReq) (q : Requester) (v l : VitId), s.dev.Writes rq q (blockIx v 0xD) 3 → (s.dev.vit v).leader = some l →
      Completes (.vitrineHalt rq v) s (fun t => Keeps [.cat, .vits] s t ∧ Accepted rq 0 s t ∧ ∀ w, t.dev.vit w = if (s.dev.vit w).leader = some l ∧ (s.dev.vit w).halt = 0 then
        { s.dev.vit w with halt := 1, haltCause := 1 } else s.dev.vit w) ∧
      ((s.dev.vit v).halt = 0 → Completes (.vitrineResumed rq v) s (fun t => Keeps [.cat] s t ∧ Accepted rq 0 s t)) ∧
      ((s.dev.vit v).halt ≠ 0 → Completes (.vitrineResumed rq v) s (fun t => Keeps [.cat, .vits, .cores, .srv] s t ∧ Accepted rq 0 s t ∧
        ∀ w ∈ s.dev.tenancy l, (t.dev.vit w).halt = 0 ∧ (t.dev.vit w).haltCause = 0))) ∧
    (∀ l : VitId, s.dev.tenancy l ≠ [] → s.dev.AllSplit → (∀ v ∈ s.dev.tenancy l, (s.dev.vit v).halt = 1 ∧ s.dev.runs (dieOfVit v) = true ∧ ∀ k ∈ coresOfVit v, (s.dev.core (BitVec.ofNat 9 k)).quiesced = true) →
      Completes (.vitrineHalted l) s (fun t => Keeps [.cores, .vits, .cnt, .cat, .srv] s t ∧ ∀ v ∈ s.dev.tenancy l, (t.dev.vit v).halt = 2 ∧ (t.dev.vit v).haltCause = (s.dev.vit v).haltCause ∧
        t.dev.counter 0x8110 6 v.toNat = (s.dev.counter 0x8110 6 v.toNat + 1) % 2 ^ 64)) ∧
    (∀ v : VitId, (s.dev.vit v).trace.st = 2 → (s.dev.vit v).trace.post = 0 →
      (fld (s.dev.traceCtl v) 32 2 ≠ 2 ∨ s.dev.debugMode v = false → Completes (.traceTriggered v) s (fun t => Keeps [.vits, .cat] s t ∧
        t.dev.vit v = { s.dev.vit v with trace := { (s.dev.vit v).trace with st := 3 } } ∧ ∀ w, w ≠ v → t.dev.vit w = s.dev.vit w)) ∧
      (∀ l, fld (s.dev.traceCtl v) 32 2 = 2 → s.dev.debugMode v = true → (s.dev.vit v).leader = some l → Completes (.traceTriggered v) s (fun t => Keeps [.vits] s t ∧ (t.dev.vit v).trace.st = 3 ∧
        ∀ w ∈ s.dev.tenancy l, (s.dev.vit w).halt = 0 → (t.dev.vit w).halt = 1 ∧ (t.dev.vit w).haltCause = 4))) ∧
    (s.dev.acc 0x8102 2 0 ≠ 0 → s.dev.cat.published = true → s.dev.dbg.markedAt + s.dev.acc 0x8102 2 0 ≤ s.dev.ref → Completes .markerIntervalTick s (fun t => Keeps [.dbg] s t ∧
      t.dev.dbg.marker = (s.dev.dbg.marker + 1) % 2 ^ 32 ∧ t.dev.dbg.markedAt = s.dev.ref ∧ t.dev.dbg.log.getLast? = some (s.dev.dbg.marker, []) ∧
      ∀ i, i < 8 → kget [] t.dev.dbg.toMark i = kget [] s.dev.dbg.toMark i ++ (if s.dev.isFenced i = false ∧ s.dev.rel.diesOut.getLsbD i = false then [s.dev.dbg.marker] else [])))
end

