-- ==== Sys2Proof/Laws/KMap.lean ====
section
/-! SUPPORT. The laws of finite maps: a key reads back what was set, and no other key changes. -/

namespace Sys2Proof.Machine

@[simp] theorem kget_nil {α : Type} (d : α) (k : Nat) : kget d [] k = d := rfl
@[simp] theorem kfind_nil {α : Type} (k : Nat) : kfind ([] : KMap α) k = none := rfl

@[simp] theorem kget_kset {α : Type} (d : α) (m : KMap α) (k : Nat) (v : α) : kget d (kset m k v) k = v := by
  induction m with
  | nil => simp [kset, kget]
  | cons e m ih =>
    obtain ⟨j, w⟩ := e
    simp only [kset]; split
    · simp [kget]
    · split
      · simp [kget]
      · rename_i h _; simp only [kget, if_neg h]; exact ih

theorem kget_kset_ne {α : Type} (d : α) (m : KMap α) (k l : Nat) (v : α) (h : l ≠ k) : kget d (kset m k v) l = kget d m l := by
  induction m with
  | nil => simp [kset, kget, Ne.symm h]
  | cons e m ih =>
    obtain ⟨j, w⟩ := e
    simp only [kset]; split
    · rename_i hj; subst hj; simp [kget, Ne.symm h]
    · split
      · simp [kget, Ne.symm h]
      · simp only [kget]; split
        · rfl
        · exact ih

@[simp] theorem kfind_kset {α : Type} (m : KMap α) (k : Nat) (v : α) : kfind (kset m k v) k = some v := by
  induction m with
  | nil => simp [kset, kfind]
  | cons e m ih =>
    obtain ⟨j, w⟩ := e
    simp only [kset]; split
    · simp [kfind]
    · split
      · simp [kfind]
      · rename_i h _; simp only [kfind, if_neg h]; exact ih

theorem kfind_kset_ne {α : Type} (m : KMap α) (k l : Nat) (v : α) (h : l ≠ k) : kfind (kset m k v) l = kfind m l := by
  induction m with
  | nil => simp [kset, kfind, Ne.symm h]
  | cons e m ih =>
    obtain ⟨j, w⟩ := e
    simp only [kset]; split
    · rename_i hj; subst hj; simp [kfind, Ne.symm h]
    · split
      · simp [kfind, Ne.symm h]
      · simp only [kfind]; split
        · rfl
        · exact ih

@[simp] theorem kget_kupd {α : Type} (d : α) (m : KMap α) (k : Nat) (f : α → α) : kget d (kupd d m k f) k = f (kget d m k) := by
  simp [kupd]

theorem kget_kupd_ne {α : Type} (d : α) (m : KMap α) (k l : Nat) (f : α → α) (h : l ≠ k) :
    kget d (kupd d m k f) l = kget d m l := by simp [kupd, kget_kset_ne, h]

/-- A rising set keeps its members when one is inserted, and gains that one. -/
theorem mem_sins (m : List Nat) (k j : Nat) : j ∈ sins m k ↔ j = k ∨ j ∈ m := by
  induction m with
  | nil => simp [sins]
  | cons a m ih =>
    simp only [sins]; split
    · rename_i h; subst h; simp
    · split
      · simp
      · simp only [List.mem_cons, ih]; tauto

/-- A key deleted is gone. -/
theorem kfind_kdel {α : Type} (m : KMap α) (k : Nat) : kfind (kdel m k) k = none := by
  induction m with
  | nil => rfl
  | cons e m ih =>
    obtain ⟨j, w⟩ := e
    by_cases h : j = k
    · simp only [kdel, if_pos h, ih]
    · simp only [kdel, kfind, if_neg h, ih]

end Sys2Proof.Machine
end

