-- ==== Sys2Proof/Laws/State.lean ====
section
/-! SUPPORT. What each named update of the machine leaves as it was, field by field, and what it reads back. -/

namespace Sys2Proof.Machine

/-! ### The two forms of a meaning -/

@[simp] theorem runDev_eq (s : State) (f : Mems → Mram → Dev → Dev) :
    runDev s f = .next { s with dev := f s.mem s.mram s.dev } := rfl

/-- A meaning answers a next state whose queue stands, and memory and the MRAM are the ones its listed changes make. -/
theorem run_eq (s : State) (f : X → X) : run s f =
    .next { s with dev := (f { dev := s.dev, mem := s.mem, mram := s.mram }).dev,
                   mem := applyAll s.mem (f { dev := s.dev, mem := s.mem, mram := s.mram }).ops.reverse,
                   mram := (f { dev := s.dev, mem := s.mem, mram := s.mram }).mops.reverse.foldl applyMram s.mram } := rfl

@[simp] theorem X.on_dev (x : X) (f : Dev → Dev) : (x.on f).dev = f x.dev := rfl
@[simp] theorem X.on_mem (x : X) (f : Dev → Dev) : (x.on f).mem = x.mem := rfl
@[simp] theorem X.on_mram (x : X) (f : Dev → Dev) : (x.on f).mram = x.mram := rfl
@[simp] theorem X.on_ops (x : X) (f : Dev → Dev) : (x.on f).ops = x.ops := rfl
@[simp] theorem X.on_mops (x : X) (f : Dev → Dev) : (x.on f).mops = x.mops := rfl
@[simp] theorem X.op_dev (x : X) (o : MemOp) : (x.op o).dev = x.dev := rfl
@[simp] theorem X.op_mem (x : X) (o : MemOp) : (x.op o).mem = applyOp x.mem o := rfl
@[simp] theorem X.op_mram (x : X) (o : MemOp) : (x.op o).mram = x.mram := rfl
@[simp] theorem X.op_ops (x : X) (o : MemOp) : (x.op o).ops = o :: x.ops := rfl
@[simp] theorem X.op_mops (x : X) (o : MemOp) : (x.op o).mops = x.mops := rfl
@[simp] theorem X.mop_dev (x : X) (o : MramOp) : (x.mop o).dev = x.dev := rfl
@[simp] theorem X.mop_mem (x : X) (o : MramOp) : (x.mop o).mem = x.mem := rfl
@[simp] theorem X.mop_mram (x : X) (o : MramOp) : (x.mop o).mram = applyMram x.mram o := rfl
@[simp] theorem X.mop_ops (x : X) (o : MramOp) : (x.mop o).ops = x.ops := rfl
@[simp] theorem X.mop_mops (x : X) (o : MramOp) : (x.mop o).mops = o :: x.mops := rfl

/-! ### What each update leaves -/

@[simp] theorem Dev.setVit_ref (d : Dev) (v : VitId) (f : Vit → Vit) : (d.setVit v f).ref = d.ref := rfl
@[simp] theorem Dev.setVit_clk (d : Dev) (v : VitId) (f : Vit → Vit) : (d.setVit v f).clk = d.clk := rfl
@[simp] theorem Dev.setVit_cat (d : Dev) (v : VitId) (f : Vit → Vit) : (d.setVit v f).cat = d.cat := rfl
@[simp] theorem Dev.setVit_cnt (d : Dev) (v : VitId) (f : Vit → Vit) : (d.setVit v f).cnt = d.cnt := rfl
@[simp] theorem Dev.setVit_cores (d : Dev) (v : VitId) (f : Vit → Vit) : (d.setVit v f).cores = d.cores := rfl
@[simp] theorem Dev.setVit_clus (d : Dev) (v : VitId) (f : Vit → Vit) : (d.setVit v f).clus = d.clus := rfl
@[simp] theorem Dev.setVit_gal (d : Dev) (v : VitId) (f : Vit → Vit) : (d.setVit v f).gal = d.gal := rfl
@[simp] theorem Dev.setVit_msgs (d : Dev) (v : VitId) (f : Vit → Vit) : (d.setVit v f).msgs = d.msgs := rfl
@[simp] theorem Dev.setVit_mesh (d : Dev) (v : VitId) (f : Vit → Vit) : (d.setVit v f).mesh = d.mesh := rfl
@[simp] theorem Dev.setVit_srv (d : Dev) (v : VitId) (f : Vit → Vit) : (d.setVit v f).srv = d.srv := rfl
@[simp] theorem Dev.setVit_fab (d : Dev) (v : VitId) (f : Vit → Vit) : (d.setVit v f).fab = d.fab := rfl
@[simp] theorem Dev.setVit_hbm (d : Dev) (v : VitId) (f : Vit → Vit) : (d.setVit v f).hbm = d.hbm := rfl
@[simp] theorem Dev.setVit_net (d : Dev) (v : VitId) (f : Vit → Vit) : (d.setVit v f).net = d.net := rfl
@[simp] theorem Dev.setVit_host (d : Dev) (v : VitId) (f : Vit → Vit) : (d.setVit v f).host = d.host := rfl
@[simp] theorem Dev.setVit_rel (d : Dev) (v : VitId) (f : Vit → Vit) : (d.setVit v f).rel = d.rel := rfl
@[simp] theorem Dev.setVit_fw (d : Dev) (v : VitId) (f : Vit → Vit) : (d.setVit v f).fw = d.fw := rfl
@[simp] theorem Dev.setVit_pow (d : Dev) (v : VitId) (f : Vit → Vit) : (d.setVit v f).pow = d.pow := rfl
@[simp] theorem Dev.setVit_dbg (d : Dev) (v : VitId) (f : Vit → Vit) : (d.setVit v f).dbg = d.dbg := rfl
@[simp] theorem Dev.setVit_fresh (d : Dev) (v : VitId) (f : Vit → Vit) : (d.setVit v f).fresh = d.fresh := rfl

@[simp] theorem Dev.setCore_ref (d : Dev) (c : CoreId) (f : Core → Core) : (d.setCore c f).ref = d.ref := rfl
@[simp] theorem Dev.setCore_clk (d : Dev) (c : CoreId) (f : Core → Core) : (d.setCore c f).clk = d.clk := rfl
@[simp] theorem Dev.setCore_cat (d : Dev) (c : CoreId) (f : Core → Core) : (d.setCore c f).cat = d.cat := rfl
@[simp] theorem Dev.setCore_cnt (d : Dev) (c : CoreId) (f : Core → Core) : (d.setCore c f).cnt = d.cnt := rfl
@[simp] theorem Dev.setCore_vits (d : Dev) (c : CoreId) (f : Core → Core) : (d.setCore c f).vits = d.vits := rfl
@[simp] theorem Dev.setCore_clus (d : Dev) (c : CoreId) (f : Core → Core) : (d.setCore c f).clus = d.clus := rfl
@[simp] theorem Dev.setCore_gal (d : Dev) (c : CoreId) (f : Core → Core) : (d.setCore c f).gal = d.gal := rfl
@[simp] theorem Dev.setCore_msgs (d : Dev) (c : CoreId) (f : Core → Core) : (d.setCore c f).msgs = d.msgs := rfl
@[simp] theorem Dev.setCore_mesh (d : Dev) (c : CoreId) (f : Core → Core) : (d.setCore c f).mesh = d.mesh := rfl
@[simp] theorem Dev.setCore_srv (d : Dev) (c : CoreId) (f : Core → Core) : (d.setCore c f).srv = d.srv := rfl
@[simp] theorem Dev.setCore_fab (d : Dev) (c : CoreId) (f : Core → Core) : (d.setCore c f).fab = d.fab := rfl
@[simp] theorem Dev.setCore_hbm (d : Dev) (c : CoreId) (f : Core → Core) : (d.setCore c f).hbm = d.hbm := rfl
@[simp] theorem Dev.setCore_net (d : Dev) (c : CoreId) (f : Core → Core) : (d.setCore c f).net = d.net := rfl
@[simp] theorem Dev.setCore_host (d : Dev) (c : CoreId) (f : Core → Core) : (d.setCore c f).host = d.host := rfl
@[simp] theorem Dev.setCore_rel (d : Dev) (c : CoreId) (f : Core → Core) : (d.setCore c f).rel = d.rel := rfl
@[simp] theorem Dev.setCore_fw (d : Dev) (c : CoreId) (f : Core → Core) : (d.setCore c f).fw = d.fw := rfl
@[simp] theorem Dev.setCore_pow (d : Dev) (c : CoreId) (f : Core → Core) : (d.setCore c f).pow = d.pow := rfl
@[simp] theorem Dev.setCore_dbg (d : Dev) (c : CoreId) (f : Core → Core) : (d.setCore c f).dbg = d.dbg := rfl
@[simp] theorem Dev.setCore_fresh (d : Dev) (c : CoreId) (f : Core → Core) : (d.setCore c f).fresh = d.fresh := rfl

@[simp] theorem Dev.setClu_ref (d : Dev) (k : Nat) (f : Clus → Clus) : (d.setClu k f).ref = d.ref := rfl
@[simp] theorem Dev.setClu_clk (d : Dev) (k : Nat) (f : Clus → Clus) : (d.setClu k f).clk = d.clk := rfl
@[simp] theorem Dev.setClu_cat (d : Dev) (k : Nat) (f : Clus → Clus) : (d.setClu k f).cat = d.cat := rfl
@[simp] theorem Dev.setClu_cnt (d : Dev) (k : Nat) (f : Clus → Clus) : (d.setClu k f).cnt = d.cnt := rfl
@[simp] theorem Dev.setClu_vits (d : Dev) (k : Nat) (f : Clus → Clus) : (d.setClu k f).vits = d.vits := rfl
@[simp] theorem Dev.setClu_cores (d : Dev) (k : Nat) (f : Clus → Clus) : (d.setClu k f).cores = d.cores := rfl
@[simp] theorem Dev.setClu_gal (d : Dev) (k : Nat) (f : Clus → Clus) : (d.setClu k f).gal = d.gal := rfl
@[simp] theorem Dev.setClu_msgs (d : Dev) (k : Nat) (f : Clus → Clus) : (d.setClu k f).msgs = d.msgs := rfl
@[simp] theorem Dev.setClu_mesh (d : Dev) (k : Nat) (f : Clus → Clus) : (d.setClu k f).mesh = d.mesh := rfl
@[simp] theorem Dev.setClu_srv (d : Dev) (k : Nat) (f : Clus → Clus) : (d.setClu k f).srv = d.srv := rfl
@[simp] theorem Dev.setClu_fab (d : Dev) (k : Nat) (f : Clus → Clus) : (d.setClu k f).fab = d.fab := rfl
@[simp] theorem Dev.setClu_hbm (d : Dev) (k : Nat) (f : Clus → Clus) : (d.setClu k f).hbm = d.hbm := rfl
@[simp] theorem Dev.setClu_net (d : Dev) (k : Nat) (f : Clus → Clus) : (d.setClu k f).net = d.net := rfl
@[simp] theorem Dev.setClu_host (d : Dev) (k : Nat) (f : Clus → Clus) : (d.setClu k f).host = d.host := rfl
@[simp] theorem Dev.setClu_rel (d : Dev) (k : Nat) (f : Clus → Clus) : (d.setClu k f).rel = d.rel := rfl
@[simp] theorem Dev.setClu_fw (d : Dev) (k : Nat) (f : Clus → Clus) : (d.setClu k f).fw = d.fw := rfl
@[simp] theorem Dev.setClu_pow (d : Dev) (k : Nat) (f : Clus → Clus) : (d.setClu k f).pow = d.pow := rfl
@[simp] theorem Dev.setClu_dbg (d : Dev) (k : Nat) (f : Clus → Clus) : (d.setClu k f).dbg = d.dbg := rfl
@[simp] theorem Dev.setClu_fresh (d : Dev) (k : Nat) (f : Clus → Clus) : (d.setClu k f).fresh = d.fresh := rfl

@[simp] theorem Dev.setSlice_ref (d : Dev) (g : Nat) (f : Slice → Slice) : (d.setSlice g f).ref = d.ref := rfl
@[simp] theorem Dev.setSlice_clk (d : Dev) (g : Nat) (f : Slice → Slice) : (d.setSlice g f).clk = d.clk := rfl
@[simp] theorem Dev.setSlice_cat (d : Dev) (g : Nat) (f : Slice → Slice) : (d.setSlice g f).cat = d.cat := rfl
@[simp] theorem Dev.setSlice_cnt (d : Dev) (g : Nat) (f : Slice → Slice) : (d.setSlice g f).cnt = d.cnt := rfl
@[simp] theorem Dev.setSlice_vits (d : Dev) (g : Nat) (f : Slice → Slice) : (d.setSlice g f).vits = d.vits := rfl
@[simp] theorem Dev.setSlice_cores (d : Dev) (g : Nat) (f : Slice → Slice) : (d.setSlice g f).cores = d.cores := rfl
@[simp] theorem Dev.setSlice_clus (d : Dev) (g : Nat) (f : Slice → Slice) : (d.setSlice g f).clus = d.clus := rfl
@[simp] theorem Dev.setSlice_msgs (d : Dev) (g : Nat) (f : Slice → Slice) : (d.setSlice g f).msgs = d.msgs := rfl
@[simp] theorem Dev.setSlice_mesh (d : Dev) (g : Nat) (f : Slice → Slice) : (d.setSlice g f).mesh = d.mesh := rfl
@[simp] theorem Dev.setSlice_srv (d : Dev) (g : Nat) (f : Slice → Slice) : (d.setSlice g f).srv = d.srv := rfl
@[simp] theorem Dev.setSlice_fab (d : Dev) (g : Nat) (f : Slice → Slice) : (d.setSlice g f).fab = d.fab := rfl
@[simp] theorem Dev.setSlice_hbm (d : Dev) (g : Nat) (f : Slice → Slice) : (d.setSlice g f).hbm = d.hbm := rfl
@[simp] theorem Dev.setSlice_net (d : Dev) (g : Nat) (f : Slice → Slice) : (d.setSlice g f).net = d.net := rfl
@[simp] theorem Dev.setSlice_host (d : Dev) (g : Nat) (f : Slice → Slice) : (d.setSlice g f).host = d.host := rfl
@[simp] theorem Dev.setSlice_rel (d : Dev) (g : Nat) (f : Slice → Slice) : (d.setSlice g f).rel = d.rel := rfl
@[simp] theorem Dev.setSlice_fw (d : Dev) (g : Nat) (f : Slice → Slice) : (d.setSlice g f).fw = d.fw := rfl
@[simp] theorem Dev.setSlice_pow (d : Dev) (g : Nat) (f : Slice → Slice) : (d.setSlice g f).pow = d.pow := rfl
@[simp] theorem Dev.setSlice_dbg (d : Dev) (g : Nat) (f : Slice → Slice) : (d.setSlice g f).dbg = d.dbg := rfl
@[simp] theorem Dev.setSlice_fresh (d : Dev) (g : Nat) (f : Slice → Slice) : (d.setSlice g f).fresh = d.fresh := rfl

@[simp] theorem Dev.setRing_ref (d : Dev) (v : VitId) (r : Nat) (f : Ring → Ring) : (d.setRing v r f).ref = d.ref := rfl
@[simp] theorem Dev.setRing_clk (d : Dev) (v : VitId) (r : Nat) (f : Ring → Ring) : (d.setRing v r f).clk = d.clk := rfl
@[simp] theorem Dev.setRing_cat (d : Dev) (v : VitId) (r : Nat) (f : Ring → Ring) : (d.setRing v r f).cat = d.cat := rfl
@[simp] theorem Dev.setRing_cnt (d : Dev) (v : VitId) (r : Nat) (f : Ring → Ring) : (d.setRing v r f).cnt = d.cnt := rfl
@[simp] theorem Dev.setRing_vits (d : Dev) (v : VitId) (r : Nat) (f : Ring → Ring) : (d.setRing v r f).vits = d.vits := rfl
@[simp] theorem Dev.setRing_cores (d : Dev) (v : VitId) (r : Nat) (f : Ring → Ring) : (d.setRing v r f).cores = d.cores := rfl
@[simp] theorem Dev.setRing_clus (d : Dev) (v : VitId) (r : Nat) (f : Ring → Ring) : (d.setRing v r f).clus = d.clus := rfl
@[simp] theorem Dev.setRing_gal (d : Dev) (v : VitId) (r : Nat) (f : Ring → Ring) : (d.setRing v r f).gal = d.gal := rfl
@[simp] theorem Dev.setRing_msgs (d : Dev) (v : VitId) (r : Nat) (f : Ring → Ring) : (d.setRing v r f).msgs = d.msgs := rfl
@[simp] theorem Dev.setRing_mesh (d : Dev) (v : VitId) (r : Nat) (f : Ring → Ring) : (d.setRing v r f).mesh = d.mesh := rfl
@[simp] theorem Dev.setRing_fab (d : Dev) (v : VitId) (r : Nat) (f : Ring → Ring) : (d.setRing v r f).fab = d.fab := rfl
@[simp] theorem Dev.setRing_hbm (d : Dev) (v : VitId) (r : Nat) (f : Ring → Ring) : (d.setRing v r f).hbm = d.hbm := rfl
@[simp] theorem Dev.setRing_net (d : Dev) (v : VitId) (r : Nat) (f : Ring → Ring) : (d.setRing v r f).net = d.net := rfl
@[simp] theorem Dev.setRing_host (d : Dev) (v : VitId) (r : Nat) (f : Ring → Ring) : (d.setRing v r f).host = d.host := rfl
@[simp] theorem Dev.setRing_rel (d : Dev) (v : VitId) (r : Nat) (f : Ring → Ring) : (d.setRing v r f).rel = d.rel := rfl
@[simp] theorem Dev.setRing_fw (d : Dev) (v : VitId) (r : Nat) (f : Ring → Ring) : (d.setRing v r f).fw = d.fw := rfl
@[simp] theorem Dev.setRing_pow (d : Dev) (v : VitId) (r : Nat) (f : Ring → Ring) : (d.setRing v r f).pow = d.pow := rfl
@[simp] theorem Dev.setRing_dbg (d : Dev) (v : VitId) (r : Nat) (f : Ring → Ring) : (d.setRing v r f).dbg = d.dbg := rfl
@[simp] theorem Dev.setRing_fresh (d : Dev) (v : VitId) (r : Nat) (f : Ring → Ring) : (d.setRing v r f).fresh = d.fresh := rfl

@[simp] theorem Dev.setDie_ref (d : Dev) (i : Nat) (f : DieClk → DieClk) : (d.setDie i f).ref = d.ref := rfl
@[simp] theorem Dev.setDie_cat (d : Dev) (i : Nat) (f : DieClk → DieClk) : (d.setDie i f).cat = d.cat := rfl
@[simp] theorem Dev.setDie_cnt (d : Dev) (i : Nat) (f : DieClk → DieClk) : (d.setDie i f).cnt = d.cnt := rfl
@[simp] theorem Dev.setDie_vits (d : Dev) (i : Nat) (f : DieClk → DieClk) : (d.setDie i f).vits = d.vits := rfl
@[simp] theorem Dev.setDie_cores (d : Dev) (i : Nat) (f : DieClk → DieClk) : (d.setDie i f).cores = d.cores := rfl
@[simp] theorem Dev.setDie_clus (d : Dev) (i : Nat) (f : DieClk → DieClk) : (d.setDie i f).clus = d.clus := rfl
@[simp] theorem Dev.setDie_gal (d : Dev) (i : Nat) (f : DieClk → DieClk) : (d.setDie i f).gal = d.gal := rfl
@[simp] theorem Dev.setDie_msgs (d : Dev) (i : Nat) (f : DieClk → DieClk) : (d.setDie i f).msgs = d.msgs := rfl
@[simp] theorem Dev.setDie_mesh (d : Dev) (i : Nat) (f : DieClk → DieClk) : (d.setDie i f).mesh = d.mesh := rfl
@[simp] theorem Dev.setDie_srv (d : Dev) (i : Nat) (f : DieClk → DieClk) : (d.setDie i f).srv = d.srv := rfl
@[simp] theorem Dev.setDie_fab (d : Dev) (i : Nat) (f : DieClk → DieClk) : (d.setDie i f).fab = d.fab := rfl
@[simp] theorem Dev.setDie_hbm (d : Dev) (i : Nat) (f : DieClk → DieClk) : (d.setDie i f).hbm = d.hbm := rfl
@[simp] theorem Dev.setDie_net (d : Dev) (i : Nat) (f : DieClk → DieClk) : (d.setDie i f).net = d.net := rfl
@[simp] theorem Dev.setDie_host (d : Dev) (i : Nat) (f : DieClk → DieClk) : (d.setDie i f).host = d.host := rfl
@[simp] theorem Dev.setDie_rel (d : Dev) (i : Nat) (f : DieClk → DieClk) : (d.setDie i f).rel = d.rel := rfl
@[simp] theorem Dev.setDie_fw (d : Dev) (i : Nat) (f : DieClk → DieClk) : (d.setDie i f).fw = d.fw := rfl
@[simp] theorem Dev.setDie_pow (d : Dev) (i : Nat) (f : DieClk → DieClk) : (d.setDie i f).pow = d.pow := rfl
@[simp] theorem Dev.setDie_dbg (d : Dev) (i : Nat) (f : DieClk → DieClk) : (d.setDie i f).dbg = d.dbg := rfl
@[simp] theorem Dev.setDie_fresh (d : Dev) (i : Nat) (f : DieClk → DieClk) : (d.setDie i f).fresh = d.fresh := rfl

@[simp] theorem Dev.onCat_ref (d : Dev) (f : Cat → Cat) : (d.onCat f).ref = d.ref := rfl
@[simp] theorem Dev.onCat_clk (d : Dev) (f : Cat → Cat) : (d.onCat f).clk = d.clk := rfl
@[simp] theorem Dev.onCat_cnt (d : Dev) (f : Cat → Cat) : (d.onCat f).cnt = d.cnt := rfl
@[simp] theorem Dev.onCat_vits (d : Dev) (f : Cat → Cat) : (d.onCat f).vits = d.vits := rfl
@[simp] theorem Dev.onCat_cores (d : Dev) (f : Cat → Cat) : (d.onCat f).cores = d.cores := rfl
@[simp] theorem Dev.onCat_clus (d : Dev) (f : Cat → Cat) : (d.onCat f).clus = d.clus := rfl
@[simp] theorem Dev.onCat_gal (d : Dev) (f : Cat → Cat) : (d.onCat f).gal = d.gal := rfl
@[simp] theorem Dev.onCat_msgs (d : Dev) (f : Cat → Cat) : (d.onCat f).msgs = d.msgs := rfl
@[simp] theorem Dev.onCat_mesh (d : Dev) (f : Cat → Cat) : (d.onCat f).mesh = d.mesh := rfl
@[simp] theorem Dev.onCat_srv (d : Dev) (f : Cat → Cat) : (d.onCat f).srv = d.srv := rfl
@[simp] theorem Dev.onCat_fab (d : Dev) (f : Cat → Cat) : (d.onCat f).fab = d.fab := rfl
@[simp] theorem Dev.onCat_hbm (d : Dev) (f : Cat → Cat) : (d.onCat f).hbm = d.hbm := rfl
@[simp] theorem Dev.onCat_net (d : Dev) (f : Cat → Cat) : (d.onCat f).net = d.net := rfl
@[simp] theorem Dev.onCat_host (d : Dev) (f : Cat → Cat) : (d.onCat f).host = d.host := rfl
@[simp] theorem Dev.onCat_rel (d : Dev) (f : Cat → Cat) : (d.onCat f).rel = d.rel := rfl
@[simp] theorem Dev.onCat_fw (d : Dev) (f : Cat → Cat) : (d.onCat f).fw = d.fw := rfl
@[simp] theorem Dev.onCat_pow (d : Dev) (f : Cat → Cat) : (d.onCat f).pow = d.pow := rfl
@[simp] theorem Dev.onCat_dbg (d : Dev) (f : Cat → Cat) : (d.onCat f).dbg = d.dbg := rfl
@[simp] theorem Dev.onCat_fresh (d : Dev) (f : Cat → Cat) : (d.onCat f).fresh = d.fresh := rfl

@[simp] theorem Dev.onSrv_ref (d : Dev) (f : Srv → Srv) : (d.onSrv f).ref = d.ref := rfl
@[simp] theorem Dev.onSrv_clk (d : Dev) (f : Srv → Srv) : (d.onSrv f).clk = d.clk := rfl
@[simp] theorem Dev.onSrv_cat (d : Dev) (f : Srv → Srv) : (d.onSrv f).cat = d.cat := rfl
@[simp] theorem Dev.onSrv_cnt (d : Dev) (f : Srv → Srv) : (d.onSrv f).cnt = d.cnt := rfl
@[simp] theorem Dev.onSrv_vits (d : Dev) (f : Srv → Srv) : (d.onSrv f).vits = d.vits := rfl
@[simp] theorem Dev.onSrv_cores (d : Dev) (f : Srv → Srv) : (d.onSrv f).cores = d.cores := rfl
@[simp] theorem Dev.onSrv_clus (d : Dev) (f : Srv → Srv) : (d.onSrv f).clus = d.clus := rfl
@[simp] theorem Dev.onSrv_gal (d : Dev) (f : Srv → Srv) : (d.onSrv f).gal = d.gal := rfl
@[simp] theorem Dev.onSrv_msgs (d : Dev) (f : Srv → Srv) : (d.onSrv f).msgs = d.msgs := rfl
@[simp] theorem Dev.onSrv_mesh (d : Dev) (f : Srv → Srv) : (d.onSrv f).mesh = d.mesh := rfl
@[simp] theorem Dev.onSrv_fab (d : Dev) (f : Srv → Srv) : (d.onSrv f).fab = d.fab := rfl
@[simp] theorem Dev.onSrv_hbm (d : Dev) (f : Srv → Srv) : (d.onSrv f).hbm = d.hbm := rfl
@[simp] theorem Dev.onSrv_net (d : Dev) (f : Srv → Srv) : (d.onSrv f).net = d.net := rfl
@[simp] theorem Dev.onSrv_host (d : Dev) (f : Srv → Srv) : (d.onSrv f).host = d.host := rfl
@[simp] theorem Dev.onSrv_rel (d : Dev) (f : Srv → Srv) : (d.onSrv f).rel = d.rel := rfl
@[simp] theorem Dev.onSrv_fw (d : Dev) (f : Srv → Srv) : (d.onSrv f).fw = d.fw := rfl
@[simp] theorem Dev.onSrv_pow (d : Dev) (f : Srv → Srv) : (d.onSrv f).pow = d.pow := rfl
@[simp] theorem Dev.onSrv_dbg (d : Dev) (f : Srv → Srv) : (d.onSrv f).dbg = d.dbg := rfl
@[simp] theorem Dev.onSrv_fresh (d : Dev) (f : Srv → Srv) : (d.onSrv f).fresh = d.fresh := rfl

@[simp] theorem Dev.onRel_ref (d : Dev) (f : Rel → Rel) : (d.onRel f).ref = d.ref := rfl
@[simp] theorem Dev.onRel_clk (d : Dev) (f : Rel → Rel) : (d.onRel f).clk = d.clk := rfl
@[simp] theorem Dev.onRel_cat (d : Dev) (f : Rel → Rel) : (d.onRel f).cat = d.cat := rfl
@[simp] theorem Dev.onRel_cnt (d : Dev) (f : Rel → Rel) : (d.onRel f).cnt = d.cnt := rfl
@[simp] theorem Dev.onRel_vits (d : Dev) (f : Rel → Rel) : (d.onRel f).vits = d.vits := rfl
@[simp] theorem Dev.onRel_cores (d : Dev) (f : Rel → Rel) : (d.onRel f).cores = d.cores := rfl
@[simp] theorem Dev.onRel_clus (d : Dev) (f : Rel → Rel) : (d.onRel f).clus = d.clus := rfl
@[simp] theorem Dev.onRel_gal (d : Dev) (f : Rel → Rel) : (d.onRel f).gal = d.gal := rfl
@[simp] theorem Dev.onRel_msgs (d : Dev) (f : Rel → Rel) : (d.onRel f).msgs = d.msgs := rfl
@[simp] theorem Dev.onRel_mesh (d : Dev) (f : Rel → Rel) : (d.onRel f).mesh = d.mesh := rfl
@[simp] theorem Dev.onRel_srv (d : Dev) (f : Rel → Rel) : (d.onRel f).srv = d.srv := rfl
@[simp] theorem Dev.onRel_fab (d : Dev) (f : Rel → Rel) : (d.onRel f).fab = d.fab := rfl
@[simp] theorem Dev.onRel_hbm (d : Dev) (f : Rel → Rel) : (d.onRel f).hbm = d.hbm := rfl
@[simp] theorem Dev.onRel_net (d : Dev) (f : Rel → Rel) : (d.onRel f).net = d.net := rfl
@[simp] theorem Dev.onRel_host (d : Dev) (f : Rel → Rel) : (d.onRel f).host = d.host := rfl
@[simp] theorem Dev.onRel_fw (d : Dev) (f : Rel → Rel) : (d.onRel f).fw = d.fw := rfl
@[simp] theorem Dev.onRel_pow (d : Dev) (f : Rel → Rel) : (d.onRel f).pow = d.pow := rfl
@[simp] theorem Dev.onRel_dbg (d : Dev) (f : Rel → Rel) : (d.onRel f).dbg = d.dbg := rfl
@[simp] theorem Dev.onRel_fresh (d : Dev) (f : Rel → Rel) : (d.onRel f).fresh = d.fresh := rfl

@[simp] theorem Dev.setProc_ref (d : Dev) (p : Nat) (f : Proc → Proc) : (d.setProc p f).ref = d.ref := rfl
@[simp] theorem Dev.setProc_clk (d : Dev) (p : Nat) (f : Proc → Proc) : (d.setProc p f).clk = d.clk := rfl
@[simp] theorem Dev.setProc_cat (d : Dev) (p : Nat) (f : Proc → Proc) : (d.setProc p f).cat = d.cat := rfl
@[simp] theorem Dev.setProc_cnt (d : Dev) (p : Nat) (f : Proc → Proc) : (d.setProc p f).cnt = d.cnt := rfl
@[simp] theorem Dev.setProc_vits (d : Dev) (p : Nat) (f : Proc → Proc) : (d.setProc p f).vits = d.vits := rfl
@[simp] theorem Dev.setProc_cores (d : Dev) (p : Nat) (f : Proc → Proc) : (d.setProc p f).cores = d.cores := rfl
@[simp] theorem Dev.setProc_clus (d : Dev) (p : Nat) (f : Proc → Proc) : (d.setProc p f).clus = d.clus := rfl
@[simp] theorem Dev.setProc_gal (d : Dev) (p : Nat) (f : Proc → Proc) : (d.setProc p f).gal = d.gal := rfl
@[simp] theorem Dev.setProc_msgs (d : Dev) (p : Nat) (f : Proc → Proc) : (d.setProc p f).msgs = d.msgs := rfl
@[simp] theorem Dev.setProc_mesh (d : Dev) (p : Nat) (f : Proc → Proc) : (d.setProc p f).mesh = d.mesh := rfl
@[simp] theorem Dev.setProc_srv (d : Dev) (p : Nat) (f : Proc → Proc) : (d.setProc p f).srv = d.srv := rfl
@[simp] theorem Dev.setProc_fab (d : Dev) (p : Nat) (f : Proc → Proc) : (d.setProc p f).fab = d.fab := rfl
@[simp] theorem Dev.setProc_hbm (d : Dev) (p : Nat) (f : Proc → Proc) : (d.setProc p f).hbm = d.hbm := rfl
@[simp] theorem Dev.setProc_net (d : Dev) (p : Nat) (f : Proc → Proc) : (d.setProc p f).net = d.net := rfl
@[simp] theorem Dev.setProc_host (d : Dev) (p : Nat) (f : Proc → Proc) : (d.setProc p f).host = d.host := rfl
@[simp] theorem Dev.setProc_rel (d : Dev) (p : Nat) (f : Proc → Proc) : (d.setProc p f).rel = d.rel := rfl
@[simp] theorem Dev.setProc_pow (d : Dev) (p : Nat) (f : Proc → Proc) : (d.setProc p f).pow = d.pow := rfl
@[simp] theorem Dev.setProc_dbg (d : Dev) (p : Nat) (f : Proc → Proc) : (d.setProc p f).dbg = d.dbg := rfl
@[simp] theorem Dev.setProc_fresh (d : Dev) (p : Nat) (f : Proc → Proc) : (d.setProc p f).fresh = d.fresh := rfl

@[simp] theorem Dev.count_ref (d : Dev) (i s r n : Nat) : (d.count i s r n).ref = d.ref := rfl
@[simp] theorem Dev.count_clk (d : Dev) (i s r n : Nat) : (d.count i s r n).clk = d.clk := rfl
@[simp] theorem Dev.count_cat (d : Dev) (i s r n : Nat) : (d.count i s r n).cat = d.cat := rfl
@[simp] theorem Dev.count_vits (d : Dev) (i s r n : Nat) : (d.count i s r n).vits = d.vits := rfl
@[simp] theorem Dev.count_cores (d : Dev) (i s r n : Nat) : (d.count i s r n).cores = d.cores := rfl
@[simp] theorem Dev.count_clus (d : Dev) (i s r n : Nat) : (d.count i s r n).clus = d.clus := rfl
@[simp] theorem Dev.count_gal (d : Dev) (i s r n : Nat) : (d.count i s r n).gal = d.gal := rfl
@[simp] theorem Dev.count_msgs (d : Dev) (i s r n : Nat) : (d.count i s r n).msgs = d.msgs := rfl
@[simp] theorem Dev.count_mesh (d : Dev) (i s r n : Nat) : (d.count i s r n).mesh = d.mesh := rfl
@[simp] theorem Dev.count_srv (d : Dev) (i s r n : Nat) : (d.count i s r n).srv = d.srv := rfl
@[simp] theorem Dev.count_fab (d : Dev) (i s r n : Nat) : (d.count i s r n).fab = d.fab := rfl
@[simp] theorem Dev.count_hbm (d : Dev) (i s r n : Nat) : (d.count i s r n).hbm = d.hbm := rfl
@[simp] theorem Dev.count_net (d : Dev) (i s r n : Nat) : (d.count i s r n).net = d.net := rfl
@[simp] theorem Dev.count_host (d : Dev) (i s r n : Nat) : (d.count i s r n).host = d.host := rfl
@[simp] theorem Dev.count_rel (d : Dev) (i s r n : Nat) : (d.count i s r n).rel = d.rel := rfl
@[simp] theorem Dev.count_fw (d : Dev) (i s r n : Nat) : (d.count i s r n).fw = d.fw := rfl
@[simp] theorem Dev.count_pow (d : Dev) (i s r n : Nat) : (d.count i s r n).pow = d.pow := rfl
@[simp] theorem Dev.count_dbg (d : Dev) (i s r n : Nat) : (d.count i s r n).dbg = d.dbg := rfl
@[simp] theorem Dev.count_fresh (d : Dev) (i s r n : Nat) : (d.count i s r n).fresh = d.fresh := rfl

@[simp] theorem Dev.setAcc_ref (d : Dev) (i s r n : Nat) : (d.setAcc i s r n).ref = d.ref := rfl
@[simp] theorem Dev.setAcc_clk (d : Dev) (i s r n : Nat) : (d.setAcc i s r n).clk = d.clk := rfl
@[simp] theorem Dev.setAcc_cnt (d : Dev) (i s r n : Nat) : (d.setAcc i s r n).cnt = d.cnt := rfl
@[simp] theorem Dev.setAcc_vits (d : Dev) (i s r n : Nat) : (d.setAcc i s r n).vits = d.vits := rfl
@[simp] theorem Dev.setAcc_cores (d : Dev) (i s r n : Nat) : (d.setAcc i s r n).cores = d.cores := rfl
@[simp] theorem Dev.setAcc_clus (d : Dev) (i s r n : Nat) : (d.setAcc i s r n).clus = d.clus := rfl
@[simp] theorem Dev.setAcc_gal (d : Dev) (i s r n : Nat) : (d.setAcc i s r n).gal = d.gal := rfl
@[simp] theorem Dev.setAcc_msgs (d : Dev) (i s r n : Nat) : (d.setAcc i s r n).msgs = d.msgs := rfl
@[simp] theorem Dev.setAcc_mesh (d : Dev) (i s r n : Nat) : (d.setAcc i s r n).mesh = d.mesh := rfl
@[simp] theorem Dev.setAcc_srv (d : Dev) (i s r n : Nat) : (d.setAcc i s r n).srv = d.srv := rfl
@[simp] theorem Dev.setAcc_fab (d : Dev) (i s r n : Nat) : (d.setAcc i s r n).fab = d.fab := rfl
@[simp] theorem Dev.setAcc_hbm (d : Dev) (i s r n : Nat) : (d.setAcc i s r n).hbm = d.hbm := rfl
@[simp] theorem Dev.setAcc_net (d : Dev) (i s r n : Nat) : (d.setAcc i s r n).net = d.net := rfl
@[simp] theorem Dev.setAcc_host (d : Dev) (i s r n : Nat) : (d.setAcc i s r n).host = d.host := rfl
@[simp] theorem Dev.setAcc_rel (d : Dev) (i s r n : Nat) : (d.setAcc i s r n).rel = d.rel := rfl
@[simp] theorem Dev.setAcc_fw (d : Dev) (i s r n : Nat) : (d.setAcc i s r n).fw = d.fw := rfl
@[simp] theorem Dev.setAcc_pow (d : Dev) (i s r n : Nat) : (d.setAcc i s r n).pow = d.pow := rfl
@[simp] theorem Dev.setAcc_dbg (d : Dev) (i s r n : Nat) : (d.setAcc i s r n).dbg = d.dbg := rfl
@[simp] theorem Dev.setAcc_fresh (d : Dev) (i s r n : Nat) : (d.setAcc i s r n).fresh = d.fresh := rfl

@[simp] theorem Dev.enforce_ref (d : Dev) (v : VitId) : (d.enforce v).ref = d.ref := rfl
@[simp] theorem Dev.enforce_clk (d : Dev) (v : VitId) : (d.enforce v).clk = d.clk := rfl
@[simp] theorem Dev.enforce_cnt (d : Dev) (v : VitId) : (d.enforce v).cnt = d.cnt := rfl
@[simp] theorem Dev.enforce_vits (d : Dev) (v : VitId) : (d.enforce v).vits = d.vits := rfl
@[simp] theorem Dev.enforce_cores (d : Dev) (v : VitId) : (d.enforce v).cores = d.cores := rfl
@[simp] theorem Dev.enforce_clus (d : Dev) (v : VitId) : (d.enforce v).clus = d.clus := rfl
@[simp] theorem Dev.enforce_gal (d : Dev) (v : VitId) : (d.enforce v).gal = d.gal := rfl
@[simp] theorem Dev.enforce_msgs (d : Dev) (v : VitId) : (d.enforce v).msgs = d.msgs := rfl
@[simp] theorem Dev.enforce_mesh (d : Dev) (v : VitId) : (d.enforce v).mesh = d.mesh := rfl
@[simp] theorem Dev.enforce_srv (d : Dev) (v : VitId) : (d.enforce v).srv = d.srv := rfl
@[simp] theorem Dev.enforce_fab (d : Dev) (v : VitId) : (d.enforce v).fab = d.fab := rfl
@[simp] theorem Dev.enforce_hbm (d : Dev) (v : VitId) : (d.enforce v).hbm = d.hbm := rfl
@[simp] theorem Dev.enforce_net (d : Dev) (v : VitId) : (d.enforce v).net = d.net := rfl
@[simp] theorem Dev.enforce_host (d : Dev) (v : VitId) : (d.enforce v).host = d.host := rfl
@[simp] theorem Dev.enforce_rel (d : Dev) (v : VitId) : (d.enforce v).rel = d.rel := rfl
@[simp] theorem Dev.enforce_fw (d : Dev) (v : VitId) : (d.enforce v).fw = d.fw := rfl
@[simp] theorem Dev.enforce_pow (d : Dev) (v : VitId) : (d.enforce v).pow = d.pow := rfl
@[simp] theorem Dev.enforce_dbg (d : Dev) (v : VitId) : (d.enforce v).dbg = d.dbg := rfl
@[simp] theorem Dev.enforce_fresh (d : Dev) (v : VitId) : (d.enforce v).fresh = d.fresh := rfl

@[simp] theorem Dev.vitDefaults_ref (d : Dev) (v : VitId) : (d.vitDefaults v).ref = d.ref := rfl
@[simp] theorem Dev.vitDefaults_clk (d : Dev) (v : VitId) : (d.vitDefaults v).clk = d.clk := rfl
@[simp] theorem Dev.vitDefaults_cnt (d : Dev) (v : VitId) : (d.vitDefaults v).cnt = d.cnt := rfl
@[simp] theorem Dev.vitDefaults_vits (d : Dev) (v : VitId) : (d.vitDefaults v).vits = d.vits := rfl
@[simp] theorem Dev.vitDefaults_cores (d : Dev) (v : VitId) : (d.vitDefaults v).cores = d.cores := rfl
@[simp] theorem Dev.vitDefaults_clus (d : Dev) (v : VitId) : (d.vitDefaults v).clus = d.clus := rfl
@[simp] theorem Dev.vitDefaults_gal (d : Dev) (v : VitId) : (d.vitDefaults v).gal = d.gal := rfl
@[simp] theorem Dev.vitDefaults_msgs (d : Dev) (v : VitId) : (d.vitDefaults v).msgs = d.msgs := rfl
@[simp] theorem Dev.vitDefaults_mesh (d : Dev) (v : VitId) : (d.vitDefaults v).mesh = d.mesh := rfl
@[simp] theorem Dev.vitDefaults_srv (d : Dev) (v : VitId) : (d.vitDefaults v).srv = d.srv := rfl
@[simp] theorem Dev.vitDefaults_fab (d : Dev) (v : VitId) : (d.vitDefaults v).fab = d.fab := rfl
@[simp] theorem Dev.vitDefaults_hbm (d : Dev) (v : VitId) : (d.vitDefaults v).hbm = d.hbm := rfl
@[simp] theorem Dev.vitDefaults_net (d : Dev) (v : VitId) : (d.vitDefaults v).net = d.net := rfl
@[simp] theorem Dev.vitDefaults_host (d : Dev) (v : VitId) : (d.vitDefaults v).host = d.host := rfl
@[simp] theorem Dev.vitDefaults_rel (d : Dev) (v : VitId) : (d.vitDefaults v).rel = d.rel := rfl
@[simp] theorem Dev.vitDefaults_fw (d : Dev) (v : VitId) : (d.vitDefaults v).fw = d.fw := rfl
@[simp] theorem Dev.vitDefaults_pow (d : Dev) (v : VitId) : (d.vitDefaults v).pow = d.pow := rfl
@[simp] theorem Dev.vitDefaults_dbg (d : Dev) (v : VitId) : (d.vitDefaults v).dbg = d.dbg := rfl
@[simp] theorem Dev.vitDefaults_fresh (d : Dev) (v : VitId) : (d.vitDefaults v).fresh = d.fresh := rfl

@[simp] theorem Dev.clearCounters_ref (d : Dev) (v : VitId) : (d.clearCounters v).ref = d.ref := rfl
@[simp] theorem Dev.clearCounters_clk (d : Dev) (v : VitId) : (d.clearCounters v).clk = d.clk := rfl
@[simp] theorem Dev.clearCounters_cat (d : Dev) (v : VitId) : (d.clearCounters v).cat = d.cat := rfl
@[simp] theorem Dev.clearCounters_vits (d : Dev) (v : VitId) : (d.clearCounters v).vits = d.vits := rfl
@[simp] theorem Dev.clearCounters_cores (d : Dev) (v : VitId) : (d.clearCounters v).cores = d.cores := rfl
@[simp] theorem Dev.clearCounters_clus (d : Dev) (v : VitId) : (d.clearCounters v).clus = d.clus := rfl
@[simp] theorem Dev.clearCounters_gal (d : Dev) (v : VitId) : (d.clearCounters v).gal = d.gal := rfl
@[simp] theorem Dev.clearCounters_msgs (d : Dev) (v : VitId) : (d.clearCounters v).msgs = d.msgs := rfl
@[simp] theorem Dev.clearCounters_mesh (d : Dev) (v : VitId) : (d.clearCounters v).mesh = d.mesh := rfl
@[simp] theorem Dev.clearCounters_srv (d : Dev) (v : VitId) : (d.clearCounters v).srv = d.srv := rfl
@[simp] theorem Dev.clearCounters_fab (d : Dev) (v : VitId) : (d.clearCounters v).fab = d.fab := rfl
@[simp] theorem Dev.clearCounters_hbm (d : Dev) (v : VitId) : (d.clearCounters v).hbm = d.hbm := rfl
@[simp] theorem Dev.clearCounters_net (d : Dev) (v : VitId) : (d.clearCounters v).net = d.net := rfl
@[simp] theorem Dev.clearCounters_host (d : Dev) (v : VitId) : (d.clearCounters v).host = d.host := rfl
@[simp] theorem Dev.clearCounters_rel (d : Dev) (v : VitId) : (d.clearCounters v).rel = d.rel := rfl
@[simp] theorem Dev.clearCounters_fw (d : Dev) (v : VitId) : (d.clearCounters v).fw = d.fw := rfl
@[simp] theorem Dev.clearCounters_pow (d : Dev) (v : VitId) : (d.clearCounters v).pow = d.pow := rfl
@[simp] theorem Dev.clearCounters_dbg (d : Dev) (v : VitId) : (d.clearCounters v).dbg = d.dbg := rfl
@[simp] theorem Dev.clearCounters_fresh (d : Dev) (v : VitId) : (d.clearCounters v).fresh = d.fresh := rfl

@[simp] theorem Dev.post_ref (d : Dev) (c k i a b e : Nat) : (d.post c k i a b e).ref = d.ref := Dev.onCat_ref d _
@[simp] theorem Dev.post_clk (d : Dev) (c k i a b e : Nat) : (d.post c k i a b e).clk = d.clk := Dev.onCat_clk d _
@[simp] theorem Dev.post_cnt (d : Dev) (c k i a b e : Nat) : (d.post c k i a b e).cnt = d.cnt := Dev.onCat_cnt d _
@[simp] theorem Dev.post_vits (d : Dev) (c k i a b e : Nat) : (d.post c k i a b e).vits = d.vits := Dev.onCat_vits d _
@[simp] theorem Dev.post_cores (d : Dev) (c k i a b e : Nat) : (d.post c k i a b e).cores = d.cores := Dev.onCat_cores d _
@[simp] theorem Dev.post_clus (d : Dev) (c k i a b e : Nat) : (d.post c k i a b e).clus = d.clus := Dev.onCat_clus d _
@[simp] theorem Dev.post_gal (d : Dev) (c k i a b e : Nat) : (d.post c k i a b e).gal = d.gal := Dev.onCat_gal d _
@[simp] theorem Dev.post_msgs (d : Dev) (c k i a b e : Nat) : (d.post c k i a b e).msgs = d.msgs := Dev.onCat_msgs d _
@[simp] theorem Dev.post_mesh (d : Dev) (c k i a b e : Nat) : (d.post c k i a b e).mesh = d.mesh := Dev.onCat_mesh d _
@[simp] theorem Dev.post_srv (d : Dev) (c k i a b e : Nat) : (d.post c k i a b e).srv = d.srv := Dev.onCat_srv d _
@[simp] theorem Dev.post_fab (d : Dev) (c k i a b e : Nat) : (d.post c k i a b e).fab = d.fab := Dev.onCat_fab d _
@[simp] theorem Dev.post_hbm (d : Dev) (c k i a b e : Nat) : (d.post c k i a b e).hbm = d.hbm := Dev.onCat_hbm d _
@[simp] theorem Dev.post_net (d : Dev) (c k i a b e : Nat) : (d.post c k i a b e).net = d.net := Dev.onCat_net d _
@[simp] theorem Dev.post_host (d : Dev) (c k i a b e : Nat) : (d.post c k i a b e).host = d.host := Dev.onCat_host d _
@[simp] theorem Dev.post_rel (d : Dev) (c k i a b e : Nat) : (d.post c k i a b e).rel = d.rel := Dev.onCat_rel d _
@[simp] theorem Dev.post_fw (d : Dev) (c k i a b e : Nat) : (d.post c k i a b e).fw = d.fw := Dev.onCat_fw d _
@[simp] theorem Dev.post_pow (d : Dev) (c k i a b e : Nat) : (d.post c k i a b e).pow = d.pow := Dev.onCat_pow d _
@[simp] theorem Dev.post_dbg (d : Dev) (c k i a b e : Nat) : (d.post c k i a b e).dbg = d.dbg := Dev.onCat_dbg d _
@[simp] theorem Dev.post_fresh (d : Dev) (c k i a b e : Nat) : (d.post c k i a b e).fresh = d.fresh := Dev.onCat_fresh d _

@[simp] theorem Dev.postVit_ref (d : Dev) (c : Nat) (v : VitId) (a b : Nat) : (d.postVit c v a b).ref = d.ref := by simp only [Dev.postVit, Dev.post_ref]
@[simp] theorem Dev.postVit_clk (d : Dev) (c : Nat) (v : VitId) (a b : Nat) : (d.postVit c v a b).clk = d.clk := by simp only [Dev.postVit, Dev.post_clk]
@[simp] theorem Dev.postVit_cnt (d : Dev) (c : Nat) (v : VitId) (a b : Nat) : (d.postVit c v a b).cnt = d.cnt := by simp only [Dev.postVit, Dev.post_cnt]
@[simp] theorem Dev.postVit_vits (d : Dev) (c : Nat) (v : VitId) (a b : Nat) : (d.postVit c v a b).vits = d.vits := by simp only [Dev.postVit, Dev.post_vits]
@[simp] theorem Dev.postVit_cores (d : Dev) (c : Nat) (v : VitId) (a b : Nat) : (d.postVit c v a b).cores = d.cores := by simp only [Dev.postVit, Dev.post_cores]
@[simp] theorem Dev.postVit_clus (d : Dev) (c : Nat) (v : VitId) (a b : Nat) : (d.postVit c v a b).clus = d.clus := by simp only [Dev.postVit, Dev.post_clus]
@[simp] theorem Dev.postVit_gal (d : Dev) (c : Nat) (v : VitId) (a b : Nat) : (d.postVit c v a b).gal = d.gal := by simp only [Dev.postVit, Dev.post_gal]
@[simp] theorem Dev.postVit_msgs (d : Dev) (c : Nat) (v : VitId) (a b : Nat) : (d.postVit c v a b).msgs = d.msgs := by simp only [Dev.postVit, Dev.post_msgs]
@[simp] theorem Dev.postVit_mesh (d : Dev) (c : Nat) (v : VitId) (a b : Nat) : (d.postVit c v a b).mesh = d.mesh := by simp only [Dev.postVit, Dev.post_mesh]
@[simp] theorem Dev.postVit_srv (d : Dev) (c : Nat) (v : VitId) (a b : Nat) : (d.postVit c v a b).srv = d.srv := by simp only [Dev.postVit, Dev.post_srv]
@[simp] theorem Dev.postVit_fab (d : Dev) (c : Nat) (v : VitId) (a b : Nat) : (d.postVit c v a b).fab = d.fab := by simp only [Dev.postVit, Dev.post_fab]
@[simp] theorem Dev.postVit_hbm (d : Dev) (c : Nat) (v : VitId) (a b : Nat) : (d.postVit c v a b).hbm = d.hbm := by simp only [Dev.postVit, Dev.post_hbm]
@[simp] theorem Dev.postVit_net (d : Dev) (c : Nat) (v : VitId) (a b : Nat) : (d.postVit c v a b).net = d.net := by simp only [Dev.postVit, Dev.post_net]
@[simp] theorem Dev.postVit_host (d : Dev) (c : Nat) (v : VitId) (a b : Nat) : (d.postVit c v a b).host = d.host := by simp only [Dev.postVit, Dev.post_host]
@[simp] theorem Dev.postVit_rel (d : Dev) (c : Nat) (v : VitId) (a b : Nat) : (d.postVit c v a b).rel = d.rel := by simp only [Dev.postVit, Dev.post_rel]
@[simp] theorem Dev.postVit_fw (d : Dev) (c : Nat) (v : VitId) (a b : Nat) : (d.postVit c v a b).fw = d.fw := by simp only [Dev.postVit, Dev.post_fw]
@[simp] theorem Dev.postVit_pow (d : Dev) (c : Nat) (v : VitId) (a b : Nat) : (d.postVit c v a b).pow = d.pow := by simp only [Dev.postVit, Dev.post_pow]
@[simp] theorem Dev.postVit_dbg (d : Dev) (c : Nat) (v : VitId) (a b : Nat) : (d.postVit c v a b).dbg = d.dbg := by simp only [Dev.postVit, Dev.post_dbg]
@[simp] theorem Dev.postVit_fresh (d : Dev) (c : Nat) (v : VitId) (a b : Nat) : (d.postVit c v a b).fresh = d.fresh := by simp only [Dev.postVit, Dev.post_fresh]

@[simp] theorem Dev.vitState_ref (d : Dev) (v : VitId) (st : VitSt) : (d.vitState v st).ref = d.ref := by simp only [Dev.vitState, Dev.postVit_ref, Dev.setVit_ref]
@[simp] theorem Dev.vitState_clk (d : Dev) (v : VitId) (st : VitSt) : (d.vitState v st).clk = d.clk := by simp only [Dev.vitState, Dev.postVit_clk, Dev.setVit_clk]
@[simp] theorem Dev.vitState_cnt (d : Dev) (v : VitId) (st : VitSt) : (d.vitState v st).cnt = d.cnt := by simp only [Dev.vitState, Dev.postVit_cnt, Dev.setVit_cnt]
@[simp] theorem Dev.vitState_cores (d : Dev) (v : VitId) (st : VitSt) : (d.vitState v st).cores = d.cores := by simp only [Dev.vitState, Dev.postVit_cores, Dev.setVit_cores]
@[simp] theorem Dev.vitState_clus (d : Dev) (v : VitId) (st : VitSt) : (d.vitState v st).clus = d.clus := by simp only [Dev.vitState, Dev.postVit_clus, Dev.setVit_clus]
@[simp] theorem Dev.vitState_gal (d : Dev) (v : VitId) (st : VitSt) : (d.vitState v st).gal = d.gal := by simp only [Dev.vitState, Dev.postVit_gal, Dev.setVit_gal]
@[simp] theorem Dev.vitState_msgs (d : Dev) (v : VitId) (st : VitSt) : (d.vitState v st).msgs = d.msgs := by simp only [Dev.vitState, Dev.postVit_msgs, Dev.setVit_msgs]
@[simp] theorem Dev.vitState_mesh (d : Dev) (v : VitId) (st : VitSt) : (d.vitState v st).mesh = d.mesh := by simp only [Dev.vitState, Dev.postVit_mesh, Dev.setVit_mesh]
@[simp] theorem Dev.vitState_srv (d : Dev) (v : VitId) (st : VitSt) : (d.vitState v st).srv = d.srv := by simp only [Dev.vitState, Dev.postVit_srv, Dev.setVit_srv]
@[simp] theorem Dev.vitState_fab (d : Dev) (v : VitId) (st : VitSt) : (d.vitState v st).fab = d.fab := by simp only [Dev.vitState, Dev.postVit_fab, Dev.setVit_fab]
@[simp] theorem Dev.vitState_hbm (d : Dev) (v : VitId) (st : VitSt) : (d.vitState v st).hbm = d.hbm := by simp only [Dev.vitState, Dev.postVit_hbm, Dev.setVit_hbm]
@[simp] theorem Dev.vitState_net (d : Dev) (v : VitId) (st : VitSt) : (d.vitState v st).net = d.net := by simp only [Dev.vitState, Dev.postVit_net, Dev.setVit_net]
@[simp] theorem Dev.vitState_host (d : Dev) (v : VitId) (st : VitSt) : (d.vitState v st).host = d.host := by simp only [Dev.vitState, Dev.postVit_host, Dev.setVit_host]
@[simp] theorem Dev.vitState_rel (d : Dev) (v : VitId) (st : VitSt) : (d.vitState v st).rel = d.rel := by simp only [Dev.vitState, Dev.postVit_rel, Dev.setVit_rel]
@[simp] theorem Dev.vitState_fw (d : Dev) (v : VitId) (st : VitSt) : (d.vitState v st).fw = d.fw := by simp only [Dev.vitState, Dev.postVit_fw, Dev.setVit_fw]
@[simp] theorem Dev.vitState_pow (d : Dev) (v : VitId) (st : VitSt) : (d.vitState v st).pow = d.pow := by simp only [Dev.vitState, Dev.postVit_pow, Dev.setVit_pow]
@[simp] theorem Dev.vitState_dbg (d : Dev) (v : VitId) (st : VitSt) : (d.vitState v st).dbg = d.dbg := by simp only [Dev.vitState, Dev.postVit_dbg, Dev.setVit_dbg]
@[simp] theorem Dev.vitState_fresh (d : Dev) (v : VitId) (st : VitSt) : (d.vitState v st).fresh = d.fresh := by simp only [Dev.vitState, Dev.postVit_fresh, Dev.setVit_fresh]

@[simp] theorem Dev.identChanged_ref (d : Dev) (i : Option Nat) (e n : Nat) : (d.identChanged i e n).ref = d.ref := by simp only [Dev.identChanged, Dev.post_ref]
@[simp] theorem Dev.identChanged_clk (d : Dev) (i : Option Nat) (e n : Nat) : (d.identChanged i e n).clk = d.clk := by simp only [Dev.identChanged, Dev.post_clk]
@[simp] theorem Dev.identChanged_cnt (d : Dev) (i : Option Nat) (e n : Nat) : (d.identChanged i e n).cnt = d.cnt := by simp only [Dev.identChanged, Dev.post_cnt]
@[simp] theorem Dev.identChanged_vits (d : Dev) (i : Option Nat) (e n : Nat) : (d.identChanged i e n).vits = d.vits := by simp only [Dev.identChanged, Dev.post_vits]
@[simp] theorem Dev.identChanged_cores (d : Dev) (i : Option Nat) (e n : Nat) : (d.identChanged i e n).cores = d.cores := by simp only [Dev.identChanged, Dev.post_cores]
@[simp] theorem Dev.identChanged_clus (d : Dev) (i : Option Nat) (e n : Nat) : (d.identChanged i e n).clus = d.clus := by simp only [Dev.identChanged, Dev.post_clus]
@[simp] theorem Dev.identChanged_gal (d : Dev) (i : Option Nat) (e n : Nat) : (d.identChanged i e n).gal = d.gal := by simp only [Dev.identChanged, Dev.post_gal]
@[simp] theorem Dev.identChanged_msgs (d : Dev) (i : Option Nat) (e n : Nat) : (d.identChanged i e n).msgs = d.msgs := by simp only [Dev.identChanged, Dev.post_msgs]
@[simp] theorem Dev.identChanged_mesh (d : Dev) (i : Option Nat) (e n : Nat) : (d.identChanged i e n).mesh = d.mesh := by simp only [Dev.identChanged, Dev.post_mesh]
@[simp] theorem Dev.identChanged_srv (d : Dev) (i : Option Nat) (e n : Nat) : (d.identChanged i e n).srv = d.srv := by simp only [Dev.identChanged, Dev.post_srv]
@[simp] theorem Dev.identChanged_fab (d : Dev) (i : Option Nat) (e n : Nat) : (d.identChanged i e n).fab = d.fab := by simp only [Dev.identChanged, Dev.post_fab]
@[simp] theorem Dev.identChanged_hbm (d : Dev) (i : Option Nat) (e n : Nat) : (d.identChanged i e n).hbm = d.hbm := by simp only [Dev.identChanged, Dev.post_hbm]
@[simp] theorem Dev.identChanged_net (d : Dev) (i : Option Nat) (e n : Nat) : (d.identChanged i e n).net = d.net := by simp only [Dev.identChanged, Dev.post_net]
@[simp] theorem Dev.identChanged_host (d : Dev) (i : Option Nat) (e n : Nat) : (d.identChanged i e n).host = d.host := by simp only [Dev.identChanged, Dev.post_host]
@[simp] theorem Dev.identChanged_rel (d : Dev) (i : Option Nat) (e n : Nat) : (d.identChanged i e n).rel = d.rel := by simp only [Dev.identChanged, Dev.post_rel]
@[simp] theorem Dev.identChanged_fw (d : Dev) (i : Option Nat) (e n : Nat) : (d.identChanged i e n).fw = d.fw := by simp only [Dev.identChanged, Dev.post_fw]
@[simp] theorem Dev.identChanged_pow (d : Dev) (i : Option Nat) (e n : Nat) : (d.identChanged i e n).pow = d.pow := by simp only [Dev.identChanged, Dev.post_pow]
@[simp] theorem Dev.identChanged_dbg (d : Dev) (i : Option Nat) (e n : Nat) : (d.identChanged i e n).dbg = d.dbg := by simp only [Dev.identChanged, Dev.post_dbg]
@[simp] theorem Dev.identChanged_fresh (d : Dev) (i : Option Nat) (e n : Nat) : (d.identChanged i e n).fresh = d.fresh := by simp only [Dev.identChanged, Dev.post_fresh]

@[simp] theorem Dev.coreMapChanged_ref (d : Dev) (v : VitId) : (d.coreMapChanged v).ref = d.ref := by simp only [Dev.coreMapChanged, Dev.identChanged_ref]
@[simp] theorem Dev.coreMapChanged_clk (d : Dev) (v : VitId) : (d.coreMapChanged v).clk = d.clk := by simp only [Dev.coreMapChanged, Dev.identChanged_clk]
@[simp] theorem Dev.coreMapChanged_cnt (d : Dev) (v : VitId) : (d.coreMapChanged v).cnt = d.cnt := by simp only [Dev.coreMapChanged, Dev.identChanged_cnt]
@[simp] theorem Dev.coreMapChanged_vits (d : Dev) (v : VitId) : (d.coreMapChanged v).vits = d.vits := by simp only [Dev.coreMapChanged, Dev.identChanged_vits]
@[simp] theorem Dev.coreMapChanged_cores (d : Dev) (v : VitId) : (d.coreMapChanged v).cores = d.cores := by simp only [Dev.coreMapChanged, Dev.identChanged_cores]
@[simp] theorem Dev.coreMapChanged_clus (d : Dev) (v : VitId) : (d.coreMapChanged v).clus = d.clus := by simp only [Dev.coreMapChanged, Dev.identChanged_clus]
@[simp] theorem Dev.coreMapChanged_gal (d : Dev) (v : VitId) : (d.coreMapChanged v).gal = d.gal := by simp only [Dev.coreMapChanged, Dev.identChanged_gal]
@[simp] theorem Dev.coreMapChanged_msgs (d : Dev) (v : VitId) : (d.coreMapChanged v).msgs = d.msgs := by simp only [Dev.coreMapChanged, Dev.identChanged_msgs]
@[simp] theorem Dev.coreMapChanged_mesh (d : Dev) (v : VitId) : (d.coreMapChanged v).mesh = d.mesh := by simp only [Dev.coreMapChanged, Dev.identChanged_mesh]
@[simp] theorem Dev.coreMapChanged_srv (d : Dev) (v : VitId) : (d.coreMapChanged v).srv = d.srv := by simp only [Dev.coreMapChanged, Dev.identChanged_srv]
@[simp] theorem Dev.coreMapChanged_fab (d : Dev) (v : VitId) : (d.coreMapChanged v).fab = d.fab := by simp only [Dev.coreMapChanged, Dev.identChanged_fab]
@[simp] theorem Dev.coreMapChanged_hbm (d : Dev) (v : VitId) : (d.coreMapChanged v).hbm = d.hbm := by simp only [Dev.coreMapChanged, Dev.identChanged_hbm]
@[simp] theorem Dev.coreMapChanged_net (d : Dev) (v : VitId) : (d.coreMapChanged v).net = d.net := by simp only [Dev.coreMapChanged, Dev.identChanged_net]
@[simp] theorem Dev.coreMapChanged_host (d : Dev) (v : VitId) : (d.coreMapChanged v).host = d.host := by simp only [Dev.coreMapChanged, Dev.identChanged_host]
@[simp] theorem Dev.coreMapChanged_rel (d : Dev) (v : VitId) : (d.coreMapChanged v).rel = d.rel := by simp only [Dev.coreMapChanged, Dev.identChanged_rel]
@[simp] theorem Dev.coreMapChanged_fw (d : Dev) (v : VitId) : (d.coreMapChanged v).fw = d.fw := by simp only [Dev.coreMapChanged, Dev.identChanged_fw]
@[simp] theorem Dev.coreMapChanged_pow (d : Dev) (v : VitId) : (d.coreMapChanged v).pow = d.pow := by simp only [Dev.coreMapChanged, Dev.identChanged_pow]
@[simp] theorem Dev.coreMapChanged_dbg (d : Dev) (v : VitId) : (d.coreMapChanged v).dbg = d.dbg := by simp only [Dev.coreMapChanged, Dev.identChanged_dbg]
@[simp] theorem Dev.coreMapChanged_fresh (d : Dev) (v : VitId) : (d.coreMapChanged v).fresh = d.fresh := by simp only [Dev.coreMapChanged, Dev.identChanged_fresh]

@[simp] theorem Dev.changed_ref (d : Dev) (a : Nat) : (d.changed a).ref = d.ref := by simp only [Dev.changed, Dev.post_ref, Dev.onRel_ref]
@[simp] theorem Dev.changed_clk (d : Dev) (a : Nat) : (d.changed a).clk = d.clk := by simp only [Dev.changed, Dev.post_clk, Dev.onRel_clk]
@[simp] theorem Dev.changed_cnt (d : Dev) (a : Nat) : (d.changed a).cnt = d.cnt := by simp only [Dev.changed, Dev.post_cnt, Dev.onRel_cnt]
@[simp] theorem Dev.changed_vits (d : Dev) (a : Nat) : (d.changed a).vits = d.vits := by simp only [Dev.changed, Dev.post_vits, Dev.onRel_vits]
@[simp] theorem Dev.changed_cores (d : Dev) (a : Nat) : (d.changed a).cores = d.cores := by simp only [Dev.changed, Dev.post_cores, Dev.onRel_cores]
@[simp] theorem Dev.changed_clus (d : Dev) (a : Nat) : (d.changed a).clus = d.clus := by simp only [Dev.changed, Dev.post_clus, Dev.onRel_clus]
@[simp] theorem Dev.changed_gal (d : Dev) (a : Nat) : (d.changed a).gal = d.gal := by simp only [Dev.changed, Dev.post_gal, Dev.onRel_gal]
@[simp] theorem Dev.changed_msgs (d : Dev) (a : Nat) : (d.changed a).msgs = d.msgs := by simp only [Dev.changed, Dev.post_msgs, Dev.onRel_msgs]
@[simp] theorem Dev.changed_mesh (d : Dev) (a : Nat) : (d.changed a).mesh = d.mesh := by simp only [Dev.changed, Dev.post_mesh, Dev.onRel_mesh]
@[simp] theorem Dev.changed_srv (d : Dev) (a : Nat) : (d.changed a).srv = d.srv := by simp only [Dev.changed, Dev.post_srv, Dev.onRel_srv]
@[simp] theorem Dev.changed_fab (d : Dev) (a : Nat) : (d.changed a).fab = d.fab := by simp only [Dev.changed, Dev.post_fab, Dev.onRel_fab]
@[simp] theorem Dev.changed_hbm (d : Dev) (a : Nat) : (d.changed a).hbm = d.hbm := by simp only [Dev.changed, Dev.post_hbm, Dev.onRel_hbm]
@[simp] theorem Dev.changed_net (d : Dev) (a : Nat) : (d.changed a).net = d.net := by simp only [Dev.changed, Dev.post_net, Dev.onRel_net]
@[simp] theorem Dev.changed_host (d : Dev) (a : Nat) : (d.changed a).host = d.host := by simp only [Dev.changed, Dev.post_host, Dev.onRel_host]
@[simp] theorem Dev.changed_fw (d : Dev) (a : Nat) : (d.changed a).fw = d.fw := by simp only [Dev.changed, Dev.post_fw, Dev.onRel_fw]
@[simp] theorem Dev.changed_pow (d : Dev) (a : Nat) : (d.changed a).pow = d.pow := by simp only [Dev.changed, Dev.post_pow, Dev.onRel_pow]
@[simp] theorem Dev.changed_dbg (d : Dev) (a : Nat) : (d.changed a).dbg = d.dbg := by simp only [Dev.changed, Dev.post_dbg, Dev.onRel_dbg]
@[simp] theorem Dev.changed_fresh (d : Dev) (a : Nat) : (d.changed a).fresh = d.fresh := by simp only [Dev.changed, Dev.post_fresh, Dev.onRel_fresh]

@[simp] theorem Dev.slotFault_ref (d : Dev) (c : CoreId) : (d.slotFault c).ref = d.ref := rfl
@[simp] theorem Dev.slotFault_clk (d : Dev) (c : CoreId) : (d.slotFault c).clk = d.clk := rfl
@[simp] theorem Dev.slotFault_cat (d : Dev) (c : CoreId) : (d.slotFault c).cat = d.cat := rfl
@[simp] theorem Dev.slotFault_cnt (d : Dev) (c : CoreId) : (d.slotFault c).cnt = d.cnt := rfl
@[simp] theorem Dev.slotFault_vits (d : Dev) (c : CoreId) : (d.slotFault c).vits = d.vits := rfl
@[simp] theorem Dev.slotFault_cores (d : Dev) (c : CoreId) : (d.slotFault c).cores = d.cores := rfl
@[simp] theorem Dev.slotFault_clus (d : Dev) (c : CoreId) : (d.slotFault c).clus = d.clus := rfl
@[simp] theorem Dev.slotFault_gal (d : Dev) (c : CoreId) : (d.slotFault c).gal = d.gal := rfl
@[simp] theorem Dev.slotFault_msgs (d : Dev) (c : CoreId) : (d.slotFault c).msgs = d.msgs := rfl
@[simp] theorem Dev.slotFault_mesh (d : Dev) (c : CoreId) : (d.slotFault c).mesh = d.mesh := rfl
@[simp] theorem Dev.slotFault_srv (d : Dev) (c : CoreId) : (d.slotFault c).srv = d.srv := rfl
@[simp] theorem Dev.slotFault_fab (d : Dev) (c : CoreId) : (d.slotFault c).fab = d.fab := rfl
@[simp] theorem Dev.slotFault_hbm (d : Dev) (c : CoreId) : (d.slotFault c).hbm = d.hbm := rfl
@[simp] theorem Dev.slotFault_net (d : Dev) (c : CoreId) : (d.slotFault c).net = d.net := rfl
@[simp] theorem Dev.slotFault_host (d : Dev) (c : CoreId) : (d.slotFault c).host = d.host := rfl
@[simp] theorem Dev.slotFault_fw (d : Dev) (c : CoreId) : (d.slotFault c).fw = d.fw := rfl
@[simp] theorem Dev.slotFault_pow (d : Dev) (c : CoreId) : (d.slotFault c).pow = d.pow := rfl
@[simp] theorem Dev.slotFault_dbg (d : Dev) (c : CoreId) : (d.slotFault c).dbg = d.dbg := rfl
@[simp] theorem Dev.slotFault_fresh (d : Dev) (c : CoreId) : (d.slotFault c).fresh = d.fresh := rfl

/-! ### What each update reads back -/

@[simp] theorem Dev.vit_setVit (d : Dev) (v : VitId) (f : Vit → Vit) : (d.setVit v f).vit v = f (d.vit v) := by
  simp [Dev.vit, Dev.setVit]
theorem Dev.vit_setVit_ne (d : Dev) (v w : VitId) (f : Vit → Vit) (h : w ≠ v) : (d.setVit v f).vit w = d.vit w := by
  simp only [Dev.vit, Dev.setVit, kupd]; exact kget_kset_ne _ _ _ _ _ (fun e => h (BitVec.eq_of_toNat_eq e))
@[simp] theorem Dev.core_setCore (d : Dev) (c : CoreId) (f : Core → Core) : (d.setCore c f).core c = f (d.core c) := by
  simp [Dev.core, Dev.setCore]
theorem Dev.core_setCore_ne (d : Dev) (c b : CoreId) (f : Core → Core) (h : b ≠ c) : (d.setCore c f).core b = d.core b := by
  simp only [Dev.core, Dev.setCore, kupd]; exact kget_kset_ne _ _ _ _ _ (fun e => h (BitVec.eq_of_toNat_eq e))
@[simp] theorem Dev.clu_setClu (d : Dev) (k : Nat) (f : Clus → Clus) : (d.setClu k f).clu k = f (d.clu k) := by
  simp [Dev.clu, Dev.setClu]
@[simp] theorem Dev.slice_setSlice (d : Dev) (g : Nat) (f : Slice → Slice) : (d.setSlice g f).slice g = f (d.slice g) := by
  simp [Dev.slice, Dev.setSlice]
theorem Dev.slice_setSlice_ne (d : Dev) (g j : Nat) (f : Slice → Slice) (h : j ≠ g) : (d.setSlice g f).slice j = d.slice j := by
  simp only [Dev.slice, Dev.setSlice, kupd]; exact kget_kset_ne _ _ _ _ _ h
@[simp] theorem Dev.ring_setRing (d : Dev) (v : VitId) (r : Nat) (f : Ring → Ring) : (d.setRing v r f).ring v r = f (d.ring v r) := by
  simp [Dev.ring, Dev.setRing]
@[simp] theorem Dev.die_setDie (d : Dev) (i : Nat) (f : DieClk → DieClk) : (d.setDie i f).die i = f (d.die i) := by
  simp [Dev.die, Dev.setDie]
theorem Dev.die_setDie_ne (d : Dev) (i j : Nat) (f : DieClk → DieClk) (h : j ≠ i) : (d.setDie i f).die j = d.die j := by
  simp only [Dev.die, Dev.setDie, kupd]; exact kget_kset_ne _ _ _ _ _ h
@[simp] theorem Dev.proc_setProc (d : Dev) (p : Nat) (f : Proc → Proc) : (d.setProc p f).proc p = f (d.proc p) := by
  simp [Dev.proc, Dev.setProc]
@[simp] theorem Dev.onCat_cat (d : Dev) (f : Cat → Cat) : (d.onCat f).cat = f d.cat := rfl
@[simp] theorem Dev.onSrv_srv (d : Dev) (f : Srv → Srv) : (d.onSrv f).srv = f d.srv := rfl
@[simp] theorem Dev.onRel_rel (d : Dev) (f : Rel → Rel) : (d.onRel f).rel = f d.rel := rfl
/-- A counter row counts, modulo 2^64 (R66). -/
@[simp] theorem Dev.counter_count (d : Dev) (i s r n : Nat) :
    (d.count i s r n).counter i s r = (d.counter i s r + n) % 2 ^ 64 := by simp [Dev.counter, Dev.count]
theorem Dev.counter_count_ne (d : Dev) (i s r n j t q : Nat) (h : ckey j t q ≠ ckey i s r) :
    (d.count i s r n).counter j t q = d.counter j t q := by
  simp only [Dev.counter, Dev.count, kupd]; exact kget_kset_ne _ _ _ _ _ h
/-- A row reads as last accepted (R298). -/
@[simp] theorem Dev.acc_setAcc (d : Dev) (i s r n : Nat) : (d.setAcc i s r n).acc i s r = n := by
  simp [Dev.acc, Dev.setAcc]

/-! ### A die's clocks move on -/

/-- A fold whose step keeps a reading keeps it. -/
theorem foldl_keeps {α β γ : Type} (p : α → γ) (g : α → β → α) (h : ∀ a b, p (g a b) = p a) (l : List β) (a : α) :
    p (l.foldl g a) = p a := by
  induction l generalizing a with
  | nil => rfl
  | cons b l ih => rw [List.foldl_cons, ih, h]

@[simp] theorem Dev.advance_ref (d : Dev) (i c r : Nat) : (d.advance i c r).ref = d.ref := by
  simp only [Dev.advance]; rw [foldl_keeps Dev.ref]
  · rfl
  · intro e j; split <;> split <;> rfl
@[simp] theorem Dev.reach_ref (d : Dev) (i n : Nat) : (d.reach i n).ref = d.ref := by
  simp only [Dev.reach]; split <;> simp
@[simp] theorem Dev.reachRoot_ref (d : Dev) (i n : Nat) : (d.reachRoot i n).ref = d.ref := by
  simp only [Dev.reachRoot]; split <;> simp
@[simp] theorem Dev.reachVit_ref (d : Dev) (v : VitId) (n : Nat) : (d.reachVit v n).ref = d.ref := by
  simp only [Dev.reachVit]; split <;> simp
@[simp] theorem Dev.reachOf_ref (d : Dev) (c : CoreId) (n : Nat) : (d.reachOf c n).ref = d.ref := by simp [Dev.reachOf]
@[simp] theorem Dev.advance_cat (d : Dev) (i c r : Nat) : (d.advance i c r).cat = d.cat := by
  simp only [Dev.advance]; rw [foldl_keeps Dev.cat]
  · rfl
  · intro e j; split <;> split <;> rfl
@[simp] theorem Dev.reach_cat (d : Dev) (i n : Nat) : (d.reach i n).cat = d.cat := by
  simp only [Dev.reach]; split <;> simp
@[simp] theorem Dev.reachRoot_cat (d : Dev) (i n : Nat) : (d.reachRoot i n).cat = d.cat := by
  simp only [Dev.reachRoot]; split <;> simp
@[simp] theorem Dev.reachVit_cat (d : Dev) (v : VitId) (n : Nat) : (d.reachVit v n).cat = d.cat := by
  simp only [Dev.reachVit]; split <;> simp
@[simp] theorem Dev.reachOf_cat (d : Dev) (c : CoreId) (n : Nat) : (d.reachOf c n).cat = d.cat := by simp [Dev.reachOf]
@[simp] theorem Dev.advance_vits (d : Dev) (i c r : Nat) : (d.advance i c r).vits = d.vits := by
  simp only [Dev.advance]; rw [foldl_keeps Dev.vits]
  · rfl
  · intro e j; split <;> split <;> rfl
@[simp] theorem Dev.reach_vits (d : Dev) (i n : Nat) : (d.reach i n).vits = d.vits := by
  simp only [Dev.reach]; split <;> simp
@[simp] theorem Dev.reachRoot_vits (d : Dev) (i n : Nat) : (d.reachRoot i n).vits = d.vits := by
  simp only [Dev.reachRoot]; split <;> simp
@[simp] theorem Dev.reachVit_vits (d : Dev) (v : VitId) (n : Nat) : (d.reachVit v n).vits = d.vits := by
  simp only [Dev.reachVit]; split <;> simp
@[simp] theorem Dev.reachOf_vits (d : Dev) (c : CoreId) (n : Nat) : (d.reachOf c n).vits = d.vits := by simp [Dev.reachOf]
@[simp] theorem Dev.advance_cores (d : Dev) (i c r : Nat) : (d.advance i c r).cores = d.cores := by
  simp only [Dev.advance]; rw [foldl_keeps Dev.cores]
  · rfl
  · intro e j; split <;> split <;> rfl
@[simp] theorem Dev.reach_cores (d : Dev) (i n : Nat) : (d.reach i n).cores = d.cores := by
  simp only [Dev.reach]; split <;> simp
@[simp] theorem Dev.reachRoot_cores (d : Dev) (i n : Nat) : (d.reachRoot i n).cores = d.cores := by
  simp only [Dev.reachRoot]; split <;> simp
@[simp] theorem Dev.reachVit_cores (d : Dev) (v : VitId) (n : Nat) : (d.reachVit v n).cores = d.cores := by
  simp only [Dev.reachVit]; split <;> simp
@[simp] theorem Dev.reachOf_cores (d : Dev) (c : CoreId) (n : Nat) : (d.reachOf c n).cores = d.cores := by simp [Dev.reachOf]
@[simp] theorem Dev.advance_clus (d : Dev) (i c r : Nat) : (d.advance i c r).clus = d.clus := by
  simp only [Dev.advance]; rw [foldl_keeps Dev.clus]
  · rfl
  · intro e j; split <;> split <;> rfl
@[simp] theorem Dev.reach_clus (d : Dev) (i n : Nat) : (d.reach i n).clus = d.clus := by
  simp only [Dev.reach]; split <;> simp
@[simp] theorem Dev.reachRoot_clus (d : Dev) (i n : Nat) : (d.reachRoot i n).clus = d.clus := by
  simp only [Dev.reachRoot]; split <;> simp
@[simp] theorem Dev.reachVit_clus (d : Dev) (v : VitId) (n : Nat) : (d.reachVit v n).clus = d.clus := by
  simp only [Dev.reachVit]; split <;> simp
@[simp] theorem Dev.reachOf_clus (d : Dev) (c : CoreId) (n : Nat) : (d.reachOf c n).clus = d.clus := by simp [Dev.reachOf]
@[simp] theorem Dev.advance_gal (d : Dev) (i c r : Nat) : (d.advance i c r).gal = d.gal := by
  simp only [Dev.advance]; rw [foldl_keeps Dev.gal]
  · rfl
  · intro e j; split <;> split <;> rfl
@[simp] theorem Dev.reach_gal (d : Dev) (i n : Nat) : (d.reach i n).gal = d.gal := by
  simp only [Dev.reach]; split <;> simp
@[simp] theorem Dev.reachRoot_gal (d : Dev) (i n : Nat) : (d.reachRoot i n).gal = d.gal := by
  simp only [Dev.reachRoot]; split <;> simp
@[simp] theorem Dev.reachVit_gal (d : Dev) (v : VitId) (n : Nat) : (d.reachVit v n).gal = d.gal := by
  simp only [Dev.reachVit]; split <;> simp
@[simp] theorem Dev.reachOf_gal (d : Dev) (c : CoreId) (n : Nat) : (d.reachOf c n).gal = d.gal := by simp [Dev.reachOf]
@[simp] theorem Dev.advance_msgs (d : Dev) (i c r : Nat) : (d.advance i c r).msgs = d.msgs := by
  simp only [Dev.advance]; rw [foldl_keeps Dev.msgs]
  · rfl
  · intro e j; split <;> split <;> rfl
@[simp] theorem Dev.advance_mesh (d : Dev) (i c r : Nat) : (d.advance i c r).mesh = d.mesh := by
  simp only [Dev.advance]; rw [foldl_keeps Dev.mesh]
  · rfl
  · intro e j; split <;> split <;> rfl
@[simp] theorem Dev.reach_msgs (d : Dev) (i n : Nat) : (d.reach i n).msgs = d.msgs := by
  simp only [Dev.reach]; split <;> simp
@[simp] theorem Dev.reach_mesh (d : Dev) (i n : Nat) : (d.reach i n).mesh = d.mesh := by
  simp only [Dev.reach]; split <;> simp
@[simp] theorem Dev.reachRoot_msgs (d : Dev) (i n : Nat) : (d.reachRoot i n).msgs = d.msgs := by
  simp only [Dev.reachRoot]; split <;> simp
@[simp] theorem Dev.reachRoot_mesh (d : Dev) (i n : Nat) : (d.reachRoot i n).mesh = d.mesh := by
  simp only [Dev.reachRoot]; split <;> simp
@[simp] theorem Dev.reachVit_msgs (d : Dev) (v : VitId) (n : Nat) : (d.reachVit v n).msgs = d.msgs := by
  simp only [Dev.reachVit]; split <;> simp
@[simp] theorem Dev.reachVit_mesh (d : Dev) (v : VitId) (n : Nat) : (d.reachVit v n).mesh = d.mesh := by
  simp only [Dev.reachVit]; split <;> simp
@[simp] theorem Dev.reachOf_msgs (d : Dev) (c : CoreId) (n : Nat) : (d.reachOf c n).msgs = d.msgs := by simp [Dev.reachOf]
@[simp] theorem Dev.reachOf_mesh (d : Dev) (c : CoreId) (n : Nat) : (d.reachOf c n).mesh = d.mesh := by simp [Dev.reachOf]
@[simp] theorem Dev.advance_srv (d : Dev) (i c r : Nat) : (d.advance i c r).srv = d.srv := by
  simp only [Dev.advance]; rw [foldl_keeps Dev.srv]
  · rfl
  · intro e j; split <;> split <;> rfl
@[simp] theorem Dev.reach_srv (d : Dev) (i n : Nat) : (d.reach i n).srv = d.srv := by
  simp only [Dev.reach]; split <;> simp
@[simp] theorem Dev.reachRoot_srv (d : Dev) (i n : Nat) : (d.reachRoot i n).srv = d.srv := by
  simp only [Dev.reachRoot]; split <;> simp
@[simp] theorem Dev.reachVit_srv (d : Dev) (v : VitId) (n : Nat) : (d.reachVit v n).srv = d.srv := by
  simp only [Dev.reachVit]; split <;> simp
@[simp] theorem Dev.reachOf_srv (d : Dev) (c : CoreId) (n : Nat) : (d.reachOf c n).srv = d.srv := by simp [Dev.reachOf]
@[simp] theorem Dev.advance_fab (d : Dev) (i c r : Nat) : (d.advance i c r).fab = d.fab := by
  simp only [Dev.advance]; rw [foldl_keeps Dev.fab]
  · rfl
  · intro e j; split <;> split <;> rfl
@[simp] theorem Dev.reach_fab (d : Dev) (i n : Nat) : (d.reach i n).fab = d.fab := by
  simp only [Dev.reach]; split <;> simp
@[simp] theorem Dev.reachRoot_fab (d : Dev) (i n : Nat) : (d.reachRoot i n).fab = d.fab := by
  simp only [Dev.reachRoot]; split <;> simp
@[simp] theorem Dev.reachVit_fab (d : Dev) (v : VitId) (n : Nat) : (d.reachVit v n).fab = d.fab := by
  simp only [Dev.reachVit]; split <;> simp
@[simp] theorem Dev.reachOf_fab (d : Dev) (c : CoreId) (n : Nat) : (d.reachOf c n).fab = d.fab := by simp [Dev.reachOf]
@[simp] theorem Dev.advance_hbm (d : Dev) (i c r : Nat) : (d.advance i c r).hbm = d.hbm := by
  simp only [Dev.advance]; rw [foldl_keeps Dev.hbm]
  · rfl
  · intro e j; split <;> split <;> rfl
@[simp] theorem Dev.reach_hbm (d : Dev) (i n : Nat) : (d.reach i n).hbm = d.hbm := by
  simp only [Dev.reach]; split <;> simp
@[simp] theorem Dev.reachRoot_hbm (d : Dev) (i n : Nat) : (d.reachRoot i n).hbm = d.hbm := by
  simp only [Dev.reachRoot]; split <;> simp
@[simp] theorem Dev.reachVit_hbm (d : Dev) (v : VitId) (n : Nat) : (d.reachVit v n).hbm = d.hbm := by
  simp only [Dev.reachVit]; split <;> simp
@[simp] theorem Dev.reachOf_hbm (d : Dev) (c : CoreId) (n : Nat) : (d.reachOf c n).hbm = d.hbm := by simp [Dev.reachOf]
@[simp] theorem Dev.advance_net (d : Dev) (i c r : Nat) : (d.advance i c r).net = d.net := by
  simp only [Dev.advance]; rw [foldl_keeps Dev.net]
  · rfl
  · intro e j; split <;> split <;> rfl
@[simp] theorem Dev.reach_net (d : Dev) (i n : Nat) : (d.reach i n).net = d.net := by
  simp only [Dev.reach]; split <;> simp
@[simp] theorem Dev.reachRoot_net (d : Dev) (i n : Nat) : (d.reachRoot i n).net = d.net := by
  simp only [Dev.reachRoot]; split <;> simp
@[simp] theorem Dev.reachVit_net (d : Dev) (v : VitId) (n : Nat) : (d.reachVit v n).net = d.net := by
  simp only [Dev.reachVit]; split <;> simp
@[simp] theorem Dev.reachOf_net (d : Dev) (c : CoreId) (n : Nat) : (d.reachOf c n).net = d.net := by simp [Dev.reachOf]
@[simp] theorem Dev.advance_host (d : Dev) (i c r : Nat) : (d.advance i c r).host = d.host := by
  simp only [Dev.advance]; rw [foldl_keeps Dev.host]
  · rfl
  · intro e j; split <;> split <;> rfl
@[simp] theorem Dev.reach_host (d : Dev) (i n : Nat) : (d.reach i n).host = d.host := by
  simp only [Dev.reach]; split <;> simp
@[simp] theorem Dev.reachRoot_host (d : Dev) (i n : Nat) : (d.reachRoot i n).host = d.host := by
  simp only [Dev.reachRoot]; split <;> simp
@[simp] theorem Dev.reachVit_host (d : Dev) (v : VitId) (n : Nat) : (d.reachVit v n).host = d.host := by
  simp only [Dev.reachVit]; split <;> simp
@[simp] theorem Dev.reachOf_host (d : Dev) (c : CoreId) (n : Nat) : (d.reachOf c n).host = d.host := by simp [Dev.reachOf]
@[simp] theorem Dev.advance_rel (d : Dev) (i c r : Nat) : (d.advance i c r).rel = d.rel := by
  simp only [Dev.advance]; rw [foldl_keeps Dev.rel]
  · rfl
  · intro e j; split <;> split <;> rfl
@[simp] theorem Dev.reach_rel (d : Dev) (i n : Nat) : (d.reach i n).rel = d.rel := by
  simp only [Dev.reach]; split <;> simp
@[simp] theorem Dev.reachRoot_rel (d : Dev) (i n : Nat) : (d.reachRoot i n).rel = d.rel := by
  simp only [Dev.reachRoot]; split <;> simp
@[simp] theorem Dev.reachVit_rel (d : Dev) (v : VitId) (n : Nat) : (d.reachVit v n).rel = d.rel := by
  simp only [Dev.reachVit]; split <;> simp
@[simp] theorem Dev.reachOf_rel (d : Dev) (c : CoreId) (n : Nat) : (d.reachOf c n).rel = d.rel := by simp [Dev.reachOf]
@[simp] theorem Dev.advance_fw (d : Dev) (i c r : Nat) : (d.advance i c r).fw = d.fw := by
  simp only [Dev.advance]; rw [foldl_keeps Dev.fw]
  · rfl
  · intro e j; split <;> split <;> rfl
@[simp] theorem Dev.reach_fw (d : Dev) (i n : Nat) : (d.reach i n).fw = d.fw := by
  simp only [Dev.reach]; split <;> simp
@[simp] theorem Dev.reachRoot_fw (d : Dev) (i n : Nat) : (d.reachRoot i n).fw = d.fw := by
  simp only [Dev.reachRoot]; split <;> simp
@[simp] theorem Dev.reachVit_fw (d : Dev) (v : VitId) (n : Nat) : (d.reachVit v n).fw = d.fw := by
  simp only [Dev.reachVit]; split <;> simp
@[simp] theorem Dev.reachOf_fw (d : Dev) (c : CoreId) (n : Nat) : (d.reachOf c n).fw = d.fw := by simp [Dev.reachOf]
@[simp] theorem Dev.advance_pow (d : Dev) (i c r : Nat) : (d.advance i c r).pow = d.pow := by
  simp only [Dev.advance]; rw [foldl_keeps Dev.pow]
  · rfl
  · intro e j; split <;> split <;> rfl
@[simp] theorem Dev.reach_pow (d : Dev) (i n : Nat) : (d.reach i n).pow = d.pow := by
  simp only [Dev.reach]; split <;> simp
@[simp] theorem Dev.reachRoot_pow (d : Dev) (i n : Nat) : (d.reachRoot i n).pow = d.pow := by
  simp only [Dev.reachRoot]; split <;> simp
@[simp] theorem Dev.reachVit_pow (d : Dev) (v : VitId) (n : Nat) : (d.reachVit v n).pow = d.pow := by
  simp only [Dev.reachVit]; split <;> simp
@[simp] theorem Dev.reachOf_pow (d : Dev) (c : CoreId) (n : Nat) : (d.reachOf c n).pow = d.pow := by simp [Dev.reachOf]
@[simp] theorem Dev.advance_dbg (d : Dev) (i c r : Nat) : (d.advance i c r).dbg = d.dbg := by
  simp only [Dev.advance]; rw [foldl_keeps Dev.dbg]
  · rfl
  · intro e j; split <;> split <;> rfl
@[simp] theorem Dev.reach_dbg (d : Dev) (i n : Nat) : (d.reach i n).dbg = d.dbg := by
  simp only [Dev.reach]; split <;> simp
@[simp] theorem Dev.reachRoot_dbg (d : Dev) (i n : Nat) : (d.reachRoot i n).dbg = d.dbg := by
  simp only [Dev.reachRoot]; split <;> simp
@[simp] theorem Dev.reachVit_dbg (d : Dev) (v : VitId) (n : Nat) : (d.reachVit v n).dbg = d.dbg := by
  simp only [Dev.reachVit]; split <;> simp
@[simp] theorem Dev.reachOf_dbg (d : Dev) (c : CoreId) (n : Nat) : (d.reachOf c n).dbg = d.dbg := by simp [Dev.reachOf]
@[simp] theorem Dev.advance_fresh (d : Dev) (i c r : Nat) : (d.advance i c r).fresh = d.fresh := by
  simp only [Dev.advance]; rw [foldl_keeps Dev.fresh]
  · rfl
  · intro e j; split <;> split <;> rfl
@[simp] theorem Dev.reach_fresh (d : Dev) (i n : Nat) : (d.reach i n).fresh = d.fresh := by
  simp only [Dev.reach]; split <;> simp
@[simp] theorem Dev.reachRoot_fresh (d : Dev) (i n : Nat) : (d.reachRoot i n).fresh = d.fresh := by
  simp only [Dev.reachRoot]; split <;> simp
@[simp] theorem Dev.reachVit_fresh (d : Dev) (v : VitId) (n : Nat) : (d.reachVit v n).fresh = d.fresh := by
  simp only [Dev.reachVit]; split <;> simp
@[simp] theorem Dev.reachOf_fresh (d : Dev) (c : CoreId) (n : Nat) : (d.reachOf c n).fresh = d.fresh := by simp [Dev.reachOf]
@[simp] theorem Dev.reachRef_clk (d : Dev) (n : Nat) : (d.reachRef n).clk = d.clk := by
  simp only [Dev.reachRef]; split
  · rfl
  · simp only [Dev.advanceRef]; rw [foldl_keeps Dev.clk]
    intro e l; split <;> rfl
@[simp] theorem Dev.reachRef_cat (d : Dev) (n : Nat) : (d.reachRef n).cat = d.cat := by
  simp only [Dev.reachRef]; split
  · rfl
  · simp only [Dev.advanceRef]; rw [foldl_keeps Dev.cat]
    intro e l; split <;> rfl
@[simp] theorem Dev.reachRef_vits (d : Dev) (n : Nat) : (d.reachRef n).vits = d.vits := by
  simp only [Dev.reachRef]; split
  · rfl
  · simp only [Dev.advanceRef]; rw [foldl_keeps Dev.vits]
    intro e l; split <;> rfl
@[simp] theorem Dev.reachRef_cores (d : Dev) (n : Nat) : (d.reachRef n).cores = d.cores := by
  simp only [Dev.reachRef]; split
  · rfl
  · simp only [Dev.advanceRef]; rw [foldl_keeps Dev.cores]
    intro e l; split <;> rfl
@[simp] theorem Dev.reachRef_clus (d : Dev) (n : Nat) : (d.reachRef n).clus = d.clus := by
  simp only [Dev.reachRef]; split
  · rfl
  · simp only [Dev.advanceRef]; rw [foldl_keeps Dev.clus]
    intro e l; split <;> rfl
@[simp] theorem Dev.reachRef_gal (d : Dev) (n : Nat) : (d.reachRef n).gal = d.gal := by
  simp only [Dev.reachRef]; split
  · rfl
  · simp only [Dev.advanceRef]; rw [foldl_keeps Dev.gal]
    intro e l; split <;> rfl
@[simp] theorem Dev.reachRef_msgs (d : Dev) (n : Nat) : (d.reachRef n).msgs = d.msgs := by
  simp only [Dev.reachRef]; split
  · rfl
  · simp only [Dev.advanceRef]; rw [foldl_keeps Dev.msgs]
    intro e l; split <;> rfl
@[simp] theorem Dev.reachRef_mesh (d : Dev) (n : Nat) : (d.reachRef n).mesh = d.mesh := by
  simp only [Dev.reachRef]; split
  · rfl
  · simp only [Dev.advanceRef]; rw [foldl_keeps Dev.mesh]
    intro e l; split <;> rfl
@[simp] theorem Dev.reachRef_srv (d : Dev) (n : Nat) : (d.reachRef n).srv = d.srv := by
  simp only [Dev.reachRef]; split
  · rfl
  · simp only [Dev.advanceRef]; rw [foldl_keeps Dev.srv]
    intro e l; split <;> rfl
@[simp] theorem Dev.reachRef_fab (d : Dev) (n : Nat) : (d.reachRef n).fab = d.fab := by
  simp only [Dev.reachRef]; split
  · rfl
  · simp only [Dev.advanceRef]; rw [foldl_keeps Dev.fab]
    intro e l; split <;> rfl
@[simp] theorem Dev.reachRef_hbm (d : Dev) (n : Nat) : (d.reachRef n).hbm = d.hbm := by
  simp only [Dev.reachRef]; split
  · rfl
  · simp only [Dev.advanceRef]; rw [foldl_keeps Dev.hbm]
    intro e l; split <;> rfl
@[simp] theorem Dev.reachRef_net (d : Dev) (n : Nat) : (d.reachRef n).net = d.net := by
  simp only [Dev.reachRef]; split
  · rfl
  · simp only [Dev.advanceRef]; rw [foldl_keeps Dev.net]
    intro e l; split <;> rfl
@[simp] theorem Dev.reachRef_host (d : Dev) (n : Nat) : (d.reachRef n).host = d.host := by
  simp only [Dev.reachRef]; split
  · rfl
  · simp only [Dev.advanceRef]; rw [foldl_keeps Dev.host]
    intro e l; split <;> rfl
@[simp] theorem Dev.reachRef_rel (d : Dev) (n : Nat) : (d.reachRef n).rel = d.rel := by
  simp only [Dev.reachRef]; split
  · rfl
  · simp only [Dev.advanceRef]; rw [foldl_keeps Dev.rel]
    intro e l; split <;> rfl
@[simp] theorem Dev.reachRef_fw (d : Dev) (n : Nat) : (d.reachRef n).fw = d.fw := by
  simp only [Dev.reachRef]; split
  · rfl
  · simp only [Dev.advanceRef]; rw [foldl_keeps Dev.fw]
    intro e l; split <;> rfl
@[simp] theorem Dev.reachRef_pow (d : Dev) (n : Nat) : (d.reachRef n).pow = d.pow := by
  simp only [Dev.reachRef]; split
  · rfl
  · simp only [Dev.advanceRef]; rw [foldl_keeps Dev.pow]
    intro e l; split <;> rfl
@[simp] theorem Dev.reachRef_dbg (d : Dev) (n : Nat) : (d.reachRef n).dbg = d.dbg := by
  simp only [Dev.reachRef]; split
  · rfl
  · simp only [Dev.advanceRef]; rw [foldl_keeps Dev.dbg]
    intro e l; split <;> rfl
@[simp] theorem Dev.reachRef_fresh (d : Dev) (n : Nat) : (d.reachRef n).fresh = d.fresh := by
  simp only [Dev.reachRef]; split
  · rfl
  · simp only [Dev.advanceRef]; rw [foldl_keeps Dev.fresh]
    intro e l; split <;> rfl

/-! ### Error records -/

@[simp] theorem Dev.logErr_ref (d : Dev) (r : ErrRec) : (d.logErr r).ref = d.ref := by
  simp only [Dev.logErr]; split
  · split <;> exact Dev.onRel_ref d _
  · exact Dev.onRel_ref d _
@[simp] theorem Dev.logErr_clk (d : Dev) (r : ErrRec) : (d.logErr r).clk = d.clk := by
  simp only [Dev.logErr]; split
  · split <;> exact Dev.onRel_clk d _
  · exact Dev.onRel_clk d _
@[simp] theorem Dev.logErr_cat (d : Dev) (r : ErrRec) : (d.logErr r).cat = d.cat := by
  simp only [Dev.logErr]; split
  · split <;> exact Dev.onRel_cat d _
  · exact Dev.onRel_cat d _
@[simp] theorem Dev.logErr_cnt (d : Dev) (r : ErrRec) : (d.logErr r).cnt = d.cnt := by
  simp only [Dev.logErr]; split
  · split <;> exact Dev.onRel_cnt d _
  · exact Dev.onRel_cnt d _
@[simp] theorem Dev.logErr_vits (d : Dev) (r : ErrRec) : (d.logErr r).vits = d.vits := by
  simp only [Dev.logErr]; split
  · split <;> exact Dev.onRel_vits d _
  · exact Dev.onRel_vits d _
@[simp] theorem Dev.logErr_cores (d : Dev) (r : ErrRec) : (d.logErr r).cores = d.cores := by
  simp only [Dev.logErr]; split
  · split <;> exact Dev.onRel_cores d _
  · exact Dev.onRel_cores d _
@[simp] theorem Dev.logErr_clus (d : Dev) (r : ErrRec) : (d.logErr r).clus = d.clus := by
  simp only [Dev.logErr]; split
  · split <;> exact Dev.onRel_clus d _
  · exact Dev.onRel_clus d _
@[simp] theorem Dev.logErr_gal (d : Dev) (r : ErrRec) : (d.logErr r).gal = d.gal := by
  simp only [Dev.logErr]; split
  · split <;> exact Dev.onRel_gal d _
  · exact Dev.onRel_gal d _
@[simp] theorem Dev.logErr_msgs (d : Dev) (r : ErrRec) : (d.logErr r).msgs = d.msgs := by
  simp only [Dev.logErr]; split
  · split <;> exact Dev.onRel_msgs d _
  · exact Dev.onRel_msgs d _
@[simp] theorem Dev.logErr_mesh (d : Dev) (r : ErrRec) : (d.logErr r).mesh = d.mesh := by
  simp only [Dev.logErr]; split
  · split <;> exact Dev.onRel_mesh d _
  · exact Dev.onRel_mesh d _
@[simp] theorem Dev.logErr_srv (d : Dev) (r : ErrRec) : (d.logErr r).srv = d.srv := by
  simp only [Dev.logErr]; split
  · split <;> exact Dev.onRel_srv d _
  · exact Dev.onRel_srv d _
@[simp] theorem Dev.logErr_fab (d : Dev) (r : ErrRec) : (d.logErr r).fab = d.fab := by
  simp only [Dev.logErr]; split
  · split <;> exact Dev.onRel_fab d _
  · exact Dev.onRel_fab d _
@[simp] theorem Dev.logErr_hbm (d : Dev) (r : ErrRec) : (d.logErr r).hbm = d.hbm := by
  simp only [Dev.logErr]; split
  · split <;> exact Dev.onRel_hbm d _
  · exact Dev.onRel_hbm d _
@[simp] theorem Dev.logErr_net (d : Dev) (r : ErrRec) : (d.logErr r).net = d.net := by
  simp only [Dev.logErr]; split
  · split <;> exact Dev.onRel_net d _
  · exact Dev.onRel_net d _
@[simp] theorem Dev.logErr_host (d : Dev) (r : ErrRec) : (d.logErr r).host = d.host := by
  simp only [Dev.logErr]; split
  · split <;> exact Dev.onRel_host d _
  · exact Dev.onRel_host d _
@[simp] theorem Dev.logErr_fw (d : Dev) (r : ErrRec) : (d.logErr r).fw = d.fw := by
  simp only [Dev.logErr]; split
  · split <;> exact Dev.onRel_fw d _
  · exact Dev.onRel_fw d _
@[simp] theorem Dev.logErr_pow (d : Dev) (r : ErrRec) : (d.logErr r).pow = d.pow := by
  simp only [Dev.logErr]; split
  · split <;> exact Dev.onRel_pow d _
  · exact Dev.onRel_pow d _
@[simp] theorem Dev.logErr_dbg (d : Dev) (r : ErrRec) : (d.logErr r).dbg = d.dbg := by
  simp only [Dev.logErr]; split
  · split <;> exact Dev.onRel_dbg d _
  · exact Dev.onRel_dbg d _
@[simp] theorem Dev.logErr_fresh (d : Dev) (r : ErrRec) : (d.logErr r).fresh = d.fresh := by
  simp only [Dev.logErr]; split
  · split <;> exact Dev.onRel_fresh d _
  · exact Dev.onRel_fresh d _

end Sys2Proof.Machine
end

