-- ==== Sys2Proof/Laws/Memory.lean ====
section
/-! SUPPORT. The laws of memory: a byte reads back what was written, no other byte changes, and every change of memory keeps
its canonical form. -/

namespace Sys2Proof.Machine

/-! ### Reading after writing -/

@[simp] theorem cellGet_nil (a : Nat) : cellGet [] a = 0 := rfl

/-- Reading below every listed address reads 0. -/
theorem cellGet_below (m : List Host.Cell) (j a : Nat) (b : Byte) (h : cellsWf ((j, b) :: m) = true) (ha : a ≤ j) :
    cellGet m a = 0 := by
  induction m generalizing j b with
  | nil => rfl
  | cons e m ih =>
    obtain ⟨k, c⟩ := e
    simp only [cellsWf, Bool.and_eq_true, decide_eq_true_eq] at h
    simp only [cellGet]; rw [if_neg (by omega)]
    exact ih k c h.2 (by omega)

/-- The rest of a canonical list is canonical. -/
theorem cellsWf_tail (e : Host.Cell) (m : List Host.Cell) (h : cellsWf (e :: m) = true) : cellsWf m = true := by
  obtain ⟨j, b⟩ := e
  cases m with
  | nil => rfl
  | cons f m => obtain ⟨k, c⟩ := f; simp only [cellsWf, Bool.and_eq_true] at h; exact h.2

/-- A byte reads back what was written. -/
theorem cellGet_cellSet (m : List Host.Cell) (a : Nat) (b : Byte) (h : cellsWf m = true) : cellGet (cellSet m a b) a = b := by
  induction m with
  | nil => simp only [cellSet]; split <;> simp_all [cellGet]
  | cons e m ih =>
    obtain ⟨j, c⟩ := e
    simp only [cellSet]; split
    · rename_i hj; subst hj; split
      · rename_i hb; rw [hb]; exact cellGet_below m j j c h (Nat.le_refl _)
      · simp [cellGet]
    · rename_i hj; split
      · rename_i hl; split
        · rename_i hb; rw [hb]; simp only [cellGet]; rw [if_neg hj]; exact cellGet_below m j a c h (by omega)
        · simp [cellGet]
      · simp only [cellGet]; rw [if_neg hj]; exact ih (cellsWf_tail _ _ h)

/-- A write leaves every other byte as it was. -/
theorem cellGet_cellSet_ne (m : List Host.Cell) (a k : Nat) (b : Byte) (hk : k ≠ a) : cellGet (cellSet m a b) k = cellGet m k := by
  induction m with
  | nil => simp only [cellSet]; split <;> simp [cellGet, Ne.symm hk]
  | cons e m ih =>
    obtain ⟨j, c⟩ := e
    simp only [cellSet]; split
    · rename_i hj; subst hj; split <;> simp [cellGet, Ne.symm hk]
    · split
      · split <;> simp [cellGet, Ne.symm hk]
      · simp only [cellGet, ih]

/-! ### The canonical form -/

/-- Every address of a list stands above a bound. -/
def Above (a : Nat) (m : List Host.Cell) : Prop := ∀ e ∈ m, a < e.1

theorem cellsWf_cons (e : Host.Cell) (m : List Host.Cell) :
    cellsWf (e :: m) = true ↔ e.2 ≠ 0 ∧ Above e.1 m ∧ cellsWf m = true := by
  induction m generalizing e with
  | nil => simp [cellsWf, Above]
  | cons f m ih =>
    obtain ⟨j, b⟩ := e; obtain ⟨k, c⟩ := f
    have := ih (k, c)
    simp only [cellsWf, Bool.and_eq_true, bne_iff_ne, decide_eq_true_eq, Above, List.mem_cons, forall_eq_or_imp] at *
    constructor
    · rintro ⟨⟨hb, hjk⟩, hm⟩
      exact ⟨hb, ⟨hjk, fun e he => lt_trans hjk ((this.1 hm).2.1 e he)⟩, hm⟩
    · rintro ⟨hb, ⟨hjk, _⟩, hm⟩; exact ⟨⟨hb, hjk⟩, hm⟩

theorem above_cellSet (m : List Host.Cell) (a k : Nat) (b : Byte) (h : Above k m) (ha : k < a) : Above k (cellSet m a b) := by
  induction m with
  | nil => simp only [cellSet]; split <;> simp [Above, ha]
  | cons e m ih =>
    obtain ⟨j, c⟩ := e
    simp only [Above, List.mem_cons, forall_eq_or_imp] at h ih
    simp only [cellSet]; split
    · split
      · exact h.2
      · simp only [Above, List.mem_cons, forall_eq_or_imp]; exact ⟨ha, h.2⟩
    · split
      · split
        · simp only [Above, List.mem_cons, forall_eq_or_imp]; exact h
        · simp only [Above, List.mem_cons, forall_eq_or_imp]; exact ⟨ha, h⟩
      · simp only [Above, List.mem_cons, forall_eq_or_imp]; exact ⟨h.1, ih h.2⟩

/-- A write keeps the canonical form. -/
theorem cellsWf_cellSet (m : List Host.Cell) (a : Nat) (b : Byte) (h : cellsWf m = true) : cellsWf (cellSet m a b) = true := by
  induction m with
  | nil => simp only [cellSet]; split <;> simp_all [cellsWf]
  | cons e m ih =>
    obtain ⟨j, c⟩ := e
    obtain ⟨hc, hm, hw⟩ := (cellsWf_cons _ _).1 h
    simp only [cellSet]; split
    · rename_i hj; subst hj; split
      · exact hw
      · exact (cellsWf_cons _ _).2 ⟨by assumption, hm, hw⟩
    · split
      · split
        · exact h
        · rename_i hl hb
          exact (cellsWf_cons _ _).2 ⟨hb, fun e he => by
            rcases List.mem_cons.1 he with rfl | he
            · exact hl
            · exact lt_trans hl (hm e he), h⟩
      · exact (cellsWf_cons _ _).2 ⟨hc, above_cellSet m a j b hm (by omega), ih hw⟩

theorem cellsWf_filter (m : List Host.Cell) (p : Host.Cell → Bool) (h : cellsWf m = true) : cellsWf (m.filter p) = true := by
  induction m with
  | nil => rfl
  | cons e m ih =>
    obtain ⟨hc, hm, hw⟩ := (cellsWf_cons _ _).1 h
    simp only [List.filter]; split
    · exact (cellsWf_cons _ _).2 ⟨hc, fun f hf => hm f (List.mem_of_mem_filter hf), ih hw⟩
    · exact ih hw

/-- Zeroing keeps the canonical form. -/
theorem cellsWf_cellZero (m : List Host.Cell) (a n : Nat) (h : cellsWf m = true) : cellsWf (cellZero m a n) = true :=
  cellsWf_filter m _ h

theorem setWf_cons (j : Nat) (m : List Nat) : setWf (j :: m) = true ↔ (∀ k ∈ m, j < k) ∧ setWf m = true := by
  induction m generalizing j with
  | nil => simp [setWf]
  | cons k m ih =>
    have := ih k
    simp only [setWf, Bool.and_eq_true, decide_eq_true_eq, List.mem_cons, forall_eq_or_imp] at *
    constructor
    · rintro ⟨hjk, hm⟩; exact ⟨⟨hjk, fun i hi => lt_trans hjk ((this.1 hm).1 i hi)⟩, hm⟩
    · rintro ⟨⟨hjk, _⟩, hm⟩; exact ⟨hjk, hm⟩

theorem setWf_sins (m : List Nat) (k : Nat) (h : setWf m = true) : setWf (sins m k) = true := by
  induction m with
  | nil => rfl
  | cons j m ih =>
    obtain ⟨hm, hw⟩ := (setWf_cons _ _).1 h
    simp only [sins]; split
    · exact h
    · split
      · rename_i hl
        exact (setWf_cons _ _).2 ⟨fun i hi => by
          rcases List.mem_cons.1 hi with rfl | hi
          · exact hl
          · exact lt_trans hl (hm i hi), h⟩
      · exact (setWf_cons _ _).2 ⟨fun i hi => by
          rcases (mem_sins m k i).1 hi with rfl | hi
          · omega
          · exact hm i hi, ih hw⟩

theorem setWf_filter (m : List Nat) (p : Nat → Bool) (h : setWf m = true) : setWf (m.filter p) = true := by
  induction m with
  | nil => rfl
  | cons j m ih =>
    obtain ⟨hm, hw⟩ := (setWf_cons _ _).1 h
    simp only [List.filter]; split
    · exact (setWf_cons _ _).2 ⟨fun i hi => hm i (List.mem_of_mem_filter hi), ih hw⟩
    · exact ih hw

/-- Replacing the bytes of one store by canonical ones keeps the canonical form of memory. -/
theorem Memory.wf_put (m : Mems) (sp : MemSp) (c : List Host.Cell) (h : Memory.wf m = true) (hc : cellsWf c = true) :
    Memory.wf (m.put sp c) = true := by
  simp only [Memory.wf, Bool.and_eq_true] at *
  cases sp <;> simp_all [Mems.put]

theorem Memory.wf_sel (m : Mems) (sp : MemSp) (h : Memory.wf m = true) : cellsWf (m.sel sp) = true := by
  simp only [Memory.wf, Bool.and_eq_true] at h
  cases sp <;> simp_all [Mems.sel]

/-- One change of memory keeps its canonical form. -/
theorem Memory.wf_applyOp (m : Mems) (o : MemOp) (h : Memory.wf m = true) : Memory.wf (applyOp m o) = true := by
  cases o with
  | set sp a b => exact Memory.wf_put m sp _ h (cellsWf_cellSet _ a b (Memory.wf_sel m sp h))
  | zero sp a n => exact Memory.wf_put m sp _ h (cellsWf_cellZero _ a n (Memory.wf_sel m sp h))
  | mark p g on =>
    simp only [Memory.wf, Bool.and_eq_true] at *
    simp only [applyOp]; split <;> split <;> simp_all [setWf_sins, sdel, setWf_filter]
  | clean p g n =>
    simp only [Memory.wf, Bool.and_eq_true] at *
    simp only [applyOp]; split <;> simp_all [sclean, setWf_filter]

/-- Changes of memory keep its canonical form. -/
theorem Memory.wf_applyAll (m : Mems) (l : List MemOp) (h : Memory.wf m = true) : Memory.wf (applyAll m l) = true := by
  induction l generalizing m with
  | nil => exact h
  | cons o l ih => exact ih _ (Memory.wf_applyOp m o h)

/-- The memory of the machine after reset is in its canonical form. -/
theorem Memory.wf_reset : Memory.wf State.reset.mem = true := by decide

/-! ### One change of memory, byte by byte -/

@[simp] theorem Mems.sel_put (m : Mems) (sp : MemSp) (c : List Host.Cell) : (m.put sp c).sel sp = c := by cases sp <;> rfl
theorem Mems.sel_put_ne (m : Mems) (sp tp : MemSp) (c : List Host.Cell) (h : tp ≠ sp) : (m.put sp c).sel tp = m.sel tp := by
  cases sp <;> cases tp <;> first | rfl | exact absurd rfl h

/-- A byte set reads back. -/
theorem Mems.byte_set (m : Mems) (sp : MemSp) (a : Nat) (b : Byte) (h : Memory.wf m = true) : (applyOp m (.set sp a b)).byte sp a = b := by
  simp only [applyOp, Mems.byte, Mems.sel_put]; exact cellGet_cellSet _ a b (Memory.wf_sel m sp h)

/-- A byte set leaves every other byte of every store. -/
theorem Mems.byte_set_ne (m : Mems) (sp tp : MemSp) (a k : Nat) (b : Byte) (h : tp ≠ sp ∨ k ≠ a) :
    (applyOp m (.set sp a b)).byte tp k = m.byte tp k := by
  by_cases e : tp = sp
  · subst e
    simp only [applyOp, Mems.byte, Mems.sel_put]
    exact cellGet_cellSet_ne _ a k b (by rcases h with h | h; exact absurd rfl h; exact h)
  · simp only [applyOp, Mems.byte, Mems.sel_put_ne m sp tp _ e]

end Sys2Proof.Machine
end

