-- ==== Sys2Proof/Laws/Frame.lean ====
section
/-! SUPPORT. The laws of frames: a state keeps all of itself, frames chain, and what the passing of time leaves. -/

namespace Sys2Proof.Machine

theorem Part.Same.refl (p : Part) (s : State) : p.Same s s := by cases p <;> rfl

theorem Part.Same.trans {p : Part} {s t u : State} (h : p.Same s t) (k : p.Same t u) : p.Same s u := by
  cases p <;> exact Eq.trans k h

theorem Keeps.refl (l : List Part) (s : State) : Keeps l s s := ⟨rfl, fun p _ => Part.Same.refl p s⟩

theorem Keeps.trans {l : List Part} {s t u : State} (h : Keeps l s t) (k : Keeps l t u) : Keeps l s u :=
  ⟨k.1.trans h.1, fun p hp => (h.2 p hp).trans (k.2 p hp)⟩

theorem Keeps.mono {l m : List Part} {s t : State} (h : Keeps l s t) (hm : ∀ p ∈ l, p ∈ m) : Keeps m s t :=
  ⟨h.1, fun p hp => h.2 p (fun e => hp (hm p e))⟩

/-- What a fold of changes of the machine keeps, when each change keeps it. -/
theorem keeps_foldl {β : Type} (l : List Part) (s : State) (f : Dev → β → Dev)
    (h : ∀ (d : Dev) (b : β), Keeps l { s with dev := d } { s with dev := f d b }) (bs : List β) (d : Dev) :
    Keeps l { s with dev := d } { s with dev := bs.foldl f d } := by
  induction bs generalizing d with
  | nil => exact Keeps.refl _ _
  | cons b bs ih => exact (h d b).trans (ih (f d b))

/-- A command whose effect on a state is a change of the machine alone completes with it. -/
theorem completes_on {i : Instr} {s : State} {P : State → Prop} {f : X → X} (F : Dev → Dev) (h : exec i s = run s f)
    (hf : f { dev := s.dev, mem := s.mem, mram := s.mram } = X.on { dev := s.dev, mem := s.mem, mram := s.mram } F)
    (hp : P { s with dev := F s.dev }) : Completes i s P :=
  ⟨_, h, by simp only [hf]; exact hp⟩

/-- A command that changes neither memory nor the MRAM completes with its machine. -/
theorem completes_dev {i : Instr} {s : State} {P : State → Prop} {f : Mems → Mram → Dev → Dev} (e : Dev) (h : exec i s = runDev s f)
    (hf : f s.mem s.mram s.dev = e) (hp : P { s with dev := e }) : Completes i s P :=
  ⟨_, h, by rw [hf]; exact hp⟩

/-- A command completes with the view its effect leaves. -/
theorem completes_run {i : Instr} {s : State} {P : State → Prop} {f : X → X} (y : X) (h : exec i s = run s f)
    (hf : f { dev := s.dev, mem := s.mem, mram := s.mram } = y)
    (hp : P { s with dev := y.dev, mem := applyAll s.mem y.ops.reverse, mram := y.mops.reverse.foldl applyMram s.mram }) : Completes i s P :=
  ⟨_, h, by rw [hf]; exact hp⟩

/-! ### Time -/

theorem Dev.die_advance (d : Dev) (j c r i : Nat) :
    (d.advance j c r).die i = if i = j then { d.die j with core := c, root := r } else d.die i := by
  have : (d.advance j c r).die i = (d.setDie j (fun k => { k with core := c, root := r })).die i := by
    simp only [Dev.advance]
    rw [foldl_keeps (fun e : Dev => e.die i)]
    intro e n; split <;> split <;> rfl
  rw [this]; split
  · rename_i h; subst h; simp
  · rename_i h; rw [Dev.die_setDie_ne _ _ _ _ h]

theorem keeps_advance (s : State) (d : Dev) (i c r : Nat) : Keeps [.clk, .cnt] { s with dev := d } { s with dev := d.advance i c r } := by
  refine ⟨rfl, fun p hp => ?_⟩
  cases p <;> simp at hp <;> simp [Part.Same]

theorem keeps_setDie (s : State) (d : Dev) (i : Nat) (f : DieClk → DieClk) : Keeps [.clk, .cnt] { s with dev := d } { s with dev := d.setDie i f } := by
  refine ⟨rfl, fun p hp => ?_⟩
  cases p <;> first | rfl | simp at hp

theorem keeps_tickDie (s : State) (d : Dev) (i : Nat) : Keeps [.clk, .cnt] { s with dev := d } { s with dev := d.tickDie i } := by
  simp only [Dev.tickDie]; split
  · exact Keeps.refl _ _
  · exact Keeps.trans (keeps_advance s d i _ _) (keeps_setDie s _ i _)

theorem keeps_advanceRef (s : State) (d : Dev) (n : Nat) : Keeps [.ref, .cnt] { s with dev := d } { s with dev := d.advanceRef n } := by
  simp only [Dev.advanceRef]
  refine Keeps.trans (t := { s with dev := { d with ref := n } }) ⟨rfl, fun p hp => ?_⟩ (keeps_foldl _ _ _ (fun e l => ?_) _ _)
  · cases p <;> first | rfl | simp at hp
  · split
    · exact Keeps.refl _ _
    · refine ⟨rfl, fun p hp => ?_⟩
      cases p <;> first | rfl | simp at hp

/-- One reference cycle touches the clocks and counters alone. -/
theorem keeps_tick (s : State) (d : Dev) : Keeps [.ref, .clk, .cnt] { s with dev := d } { s with dev := d.tick } :=
  Keeps.trans ((keeps_advanceRef s d _).mono (by simp)) (keeps_foldl _ s _ (fun e i => (keeps_tickDie s e i).mono (by simp)) _ _)

end Sys2Proof.Machine
end

