-- ==== Sys2Proof/Laws/Change.lean ====
section
/-! SUPPORT. Which parts of the machine an operation can change, one law per operation; they chain through folds and choices. -/

namespace Sys2Proof.Machine

/-- Between two machines only the parts listed have changed. -/
def Only (l : List Part) (d e : Dev) : Prop := ∀ (s : State) (p : Part), p ∉ l → p.Same { s with dev := d } { s with dev := e }

theorem Only.refl (l : List Part) (d : Dev) : Only l d d := fun _ p _ => Part.Same.refl p _

theorem Only.trans {l : List Part} {d e f : Dev} (h : Only l d e) (k : Only l e f) : Only l d f := fun s p hp => (h s p hp).trans (k s p hp)

theorem Only.mono {l m : List Part} {d e : Dev} (h : Only l d e) (hm : ∀ p ∈ l, p ∈ m) : Only m d e := fun s p hp => h s p (fun k => hp (hm p k))

/-- The frame of a command whose effect is a change of the machine alone. -/
theorem Only.keeps {l : List Part} {s : State} {e : Dev} (h : Only l s.dev e) : Keeps l s { s with dev := e } := ⟨rfl, fun p hp => h s p hp⟩

theorem Only.foldl {β : Type} {l : List Part} {d e : Dev} (f : Dev → β → Dev) (bs : List β) (h : Only l d e) (k : ∀ e b, Only l e (f e b)) :
    Only l d (bs.foldl f e) := by
  induction bs generalizing e with
  | nil => exact h
  | cons b bs ih => exact ih (h.trans (k e b))

theorem Only.ite {l : List Part} {d e f : Dev} {c : Prop} [Decidable c] (h : Only l d e) (k : Only l d f) : Only l d (if c then e else f) := by
  split <;> assumption

theorem Only.setVit {l : List Part} {d e : Dev} (v : VitId) (f : Vit → Vit) (h : Only l d e) (h0 : Part.vits ∈ l) : Only l d (e.setVit v f) :=
  fun s p hp => (h s p hp).trans (by cases p <;> first | (exact absurd ‹_› hp) | simp [Part.Same])
theorem Only.setCore {l : List Part} {d e : Dev} (c : CoreId) (f : Core → Core) (h : Only l d e) (h0 : Part.cores ∈ l) : Only l d (e.setCore c f) :=
  fun s p hp => (h s p hp).trans (by cases p <;> first | (exact absurd ‹_› hp) | simp [Part.Same])
theorem Only.setClu {l : List Part} {d e : Dev} (k : Nat) (f : Clus → Clus) (h : Only l d e) (h0 : Part.clus ∈ l) : Only l d (e.setClu k f) :=
  fun s p hp => (h s p hp).trans (by cases p <;> first | (exact absurd ‹_› hp) | simp [Part.Same])
theorem Only.setSlice {l : List Part} {d e : Dev} (g : Nat) (f : Slice → Slice) (h : Only l d e) (h0 : Part.gal ∈ l) : Only l d (e.setSlice g f) :=
  fun s p hp => (h s p hp).trans (by cases p <;> first | (exact absurd ‹_› hp) | simp [Part.Same])
theorem Only.setRing {l : List Part} {d e : Dev} (v : VitId) (r : Nat) (f : Ring → Ring) (h : Only l d e) (h0 : Part.srv ∈ l) : Only l d (e.setRing v r f) :=
  fun s p hp => (h s p hp).trans (by cases p <;> first | (exact absurd ‹_› hp) | simp [Part.Same])
theorem Only.setDie {l : List Part} {d e : Dev} (i : Nat) (f : DieClk → DieClk) (h : Only l d e) (h0 : Part.clk ∈ l) : Only l d (e.setDie i f) :=
  fun s p hp => (h s p hp).trans (by cases p <;> first | (exact absurd ‹_› hp) | simp [Part.Same])
theorem Only.onCat {l : List Part} {d e : Dev} (f : Cat → Cat) (h : Only l d e) (h0 : Part.cat ∈ l) : Only l d (e.onCat f) :=
  fun s p hp => (h s p hp).trans (by cases p <;> first | (exact absurd ‹_› hp) | simp [Part.Same])
theorem Only.onSrv {l : List Part} {d e : Dev} (f : Srv → Srv) (h : Only l d e) (h0 : Part.srv ∈ l) : Only l d (e.onSrv f) :=
  fun s p hp => (h s p hp).trans (by cases p <;> first | (exact absurd ‹_› hp) | simp [Part.Same])
theorem Only.onRel {l : List Part} {d e : Dev} (f : Rel → Rel) (h : Only l d e) (h0 : Part.rel ∈ l) : Only l d (e.onRel f) :=
  fun s p hp => (h s p hp).trans (by cases p <;> first | (exact absurd ‹_› hp) | simp [Part.Same])
theorem Only.setProc {l : List Part} {d e : Dev} (i : Nat) (f : Proc → Proc) (h : Only l d e) (h0 : Part.fw ∈ l) : Only l d (e.setProc i f) :=
  fun s p hp => (h s p hp).trans (by cases p <;> first | (exact absurd ‹_› hp) | simp [Part.Same])
theorem Only.count {l : List Part} {d e : Dev} (i b r n : Nat) (h : Only l d e) (h0 : Part.cnt ∈ l) : Only l d (e.count i b r n) :=
  fun s p hp => (h s p hp).trans (by cases p <;> first | (exact absurd ‹_› hp) | simp [Part.Same])
theorem Only.post {l : List Part} {d e : Dev} (c k i a b m : Nat) (h : Only l d e) (h0 : Part.cat ∈ l) : Only l d (e.post c k i a b m) :=
  fun s p hp => (h s p hp).trans (by cases p <;> first | (exact absurd ‹_› hp) | simp [Part.Same])
theorem Only.postVit {l : List Part} {d e : Dev} (c : Nat) (v : VitId) (a b : Nat) (h : Only l d e) (h0 : Part.cat ∈ l) : Only l d (e.postVit c v a b) :=
  fun s p hp => (h s p hp).trans (by cases p <;> first | (exact absurd ‹_› hp) | simp [Part.Same])
theorem Only.setAcc {l : List Part} {d e : Dev} (i b r n : Nat) (h : Only l d e) (h0 : Part.cat ∈ l) : Only l d (e.setAcc i b r n) :=
  fun s p hp => (h s p hp).trans (by cases p <;> first | (exact absurd ‹_› hp) | simp [Part.Same])
theorem Only.logErr {l : List Part} {d e : Dev} (r : ErrRec) (h : Only l d e) (h0 : Part.rel ∈ l) : Only l d (e.logErr r) :=
  fun s p hp => (h s p hp).trans (by cases p <;> first | (exact absurd ‹_› hp) | simp [Part.Same])
theorem Only.reach {l : List Part} {d e : Dev} (i n : Nat) (h : Only l d e) (h0 : Part.clk ∈ l) (h1 : Part.cnt ∈ l) : Only l d (e.reach i n) :=
  fun s p hp => (h s p hp).trans (by cases p <;> first | (exact absurd ‹_› hp) | simp [Part.Same])
theorem Only.reachRoot {l : List Part} {d e : Dev} (i n : Nat) (h : Only l d e) (h0 : Part.clk ∈ l) (h1 : Part.cnt ∈ l) : Only l d (e.reachRoot i n) :=
  fun s p hp => (h s p hp).trans (by cases p <;> first | (exact absurd ‹_› hp) | simp [Part.Same])
theorem Only.reachVit {l : List Part} {d e : Dev} (v : VitId) (n : Nat) (h : Only l d e) (h0 : Part.clk ∈ l) (h1 : Part.cnt ∈ l) : Only l d (e.reachVit v n) :=
  fun s p hp => (h s p hp).trans (by cases p <;> first | (exact absurd ‹_› hp) | simp [Part.Same])
theorem Only.reachRef {l : List Part} {d e : Dev} (n : Nat) (h : Only l d e) (h0 : Part.ref ∈ l) (h1 : Part.cnt ∈ l) : Only l d (e.reachRef n) :=
  fun s p hp => (h s p hp).trans (by cases p <;> first | (exact absurd ‹_› hp) | simp [Part.Same])
theorem Only.with_ref {l : List Part} {d e : Dev} (v : Nat) (h : Only l d e) (h0 : Part.ref ∈ l) : Only l d { e with ref := v } :=
  fun s p hp => (h s p hp).trans (by cases p <;> first | (exact absurd ‹_› hp) | rfl)
theorem Only.with_clk {l : List Part} {d e : Dev} (v : KMap DieClk) (h : Only l d e) (h0 : Part.clk ∈ l) : Only l d { e with clk := v } :=
  fun s p hp => (h s p hp).trans (by cases p <;> first | (exact absurd ‹_› hp) | rfl)
theorem Only.with_cat {l : List Part} {d e : Dev} (v : Cat) (h : Only l d e) (h0 : Part.cat ∈ l) : Only l d { e with cat := v } :=
  fun s p hp => (h s p hp).trans (by cases p <;> first | (exact absurd ‹_› hp) | rfl)
theorem Only.with_cnt {l : List Part} {d e : Dev} (v : KMap Nat) (h : Only l d e) (h0 : Part.cnt ∈ l) : Only l d { e with cnt := v } :=
  fun s p hp => (h s p hp).trans (by cases p <;> first | (exact absurd ‹_› hp) | rfl)
theorem Only.with_vits {l : List Part} {d e : Dev} (v : KMap Vit) (h : Only l d e) (h0 : Part.vits ∈ l) : Only l d { e with vits := v } :=
  fun s p hp => (h s p hp).trans (by cases p <;> first | (exact absurd ‹_› hp) | rfl)
theorem Only.with_cores {l : List Part} {d e : Dev} (v : KMap Core) (h : Only l d e) (h0 : Part.cores ∈ l) : Only l d { e with cores := v } :=
  fun s p hp => (h s p hp).trans (by cases p <;> first | (exact absurd ‹_› hp) | rfl)
theorem Only.with_clus {l : List Part} {d e : Dev} (v : KMap Clus) (h : Only l d e) (h0 : Part.clus ∈ l) : Only l d { e with clus := v } :=
  fun s p hp => (h s p hp).trans (by cases p <;> first | (exact absurd ‹_› hp) | rfl)
theorem Only.with_gal {l : List Part} {d e : Dev} (v : KMap Slice) (h : Only l d e) (h0 : Part.gal ∈ l) : Only l d { e with gal := v } :=
  fun s p hp => (h s p hp).trans (by cases p <;> first | (exact absurd ‹_› hp) | rfl)
theorem Only.with_msgs {l : List Part} {d e : Dev} (v : List Msg) (h : Only l d e) (h0 : Part.msgs ∈ l) : Only l d { e with msgs := v } :=
  fun s p hp => (h s p hp).trans (by cases p <;> first | (exact absurd ‹_› hp) | rfl)
theorem Only.with_mesh {l : List Part} {d e : Dev} (v : Mesh) (h : Only l d e) (h0 : Part.mesh ∈ l) : Only l d { e with mesh := v } :=
  fun s p hp => (h s p hp).trans (by cases p <;> first | (exact absurd ‹_› hp) | rfl)
theorem Only.with_srv {l : List Part} {d e : Dev} (v : Srv) (h : Only l d e) (h0 : Part.srv ∈ l) : Only l d { e with srv := v } :=
  fun s p hp => (h s p hp).trans (by cases p <;> first | (exact absurd ‹_› hp) | rfl)
theorem Only.with_fab {l : List Part} {d e : Dev} (v : Fab) (h : Only l d e) (h0 : Part.fab ∈ l) : Only l d { e with fab := v } :=
  fun s p hp => (h s p hp).trans (by cases p <;> first | (exact absurd ‹_› hp) | rfl)
theorem Only.with_hbm {l : List Part} {d e : Dev} (v : Hbm) (h : Only l d e) (h0 : Part.hbm ∈ l) : Only l d { e with hbm := v } :=
  fun s p hp => (h s p hp).trans (by cases p <;> first | (exact absurd ‹_› hp) | rfl)
theorem Only.with_net {l : List Part} {d e : Dev} (v : Net) (h : Only l d e) (h0 : Part.net ∈ l) : Only l d { e with net := v } :=
  fun s p hp => (h s p hp).trans (by cases p <;> first | (exact absurd ‹_› hp) | rfl)
theorem Only.with_host {l : List Part} {d e : Dev} (v : HostP) (h : Only l d e) (h0 : Part.host ∈ l) : Only l d { e with host := v } :=
  fun s p hp => (h s p hp).trans (by cases p <;> first | (exact absurd ‹_› hp) | rfl)
theorem Only.with_rel {l : List Part} {d e : Dev} (v : Rel) (h : Only l d e) (h0 : Part.rel ∈ l) : Only l d { e with rel := v } :=
  fun s p hp => (h s p hp).trans (by cases p <;> first | (exact absurd ‹_› hp) | rfl)
theorem Only.with_fw {l : List Part} {d e : Dev} (v : Fw) (h : Only l d e) (h0 : Part.fw ∈ l) : Only l d { e with fw := v } :=
  fun s p hp => (h s p hp).trans (by cases p <;> first | (exact absurd ‹_› hp) | rfl)
theorem Only.with_pow {l : List Part} {d e : Dev} (v : Power) (h : Only l d e) (h0 : Part.pow ∈ l) : Only l d { e with pow := v } :=
  fun s p hp => (h s p hp).trans (by cases p <;> first | (exact absurd ‹_› hp) | rfl)
theorem Only.with_dbg {l : List Part} {d e : Dev} (v : Dbg) (h : Only l d e) (h0 : Part.dbg ∈ l) : Only l d { e with dbg := v } :=
  fun s p hp => (h s p hp).trans (by cases p <;> first | (exact absurd ‹_› hp) | rfl)
theorem Only.with_fresh {l : List Part} {d e : Dev} (v : Nat) (h : Only l d e) (h0 : Part.fresh ∈ l) : Only l d { e with fresh := v } :=
  fun s p hp => (h s p hp).trans (by cases p <;> first | (exact absurd ‹_› hp) | rfl)
theorem Only.ref {l : List Part} {d e : Dev} (h : Only l d e) (hl : Part.ref ∉ l) : e.ref = d.ref := h State.reset .ref hl
theorem Only.clk {l : List Part} {d e : Dev} (h : Only l d e) (hl : Part.clk ∉ l) : e.clk = d.clk := h State.reset .clk hl
theorem Only.cat {l : List Part} {d e : Dev} (h : Only l d e) (hl : Part.cat ∉ l) : e.cat = d.cat := h State.reset .cat hl
theorem Only.cnt {l : List Part} {d e : Dev} (h : Only l d e) (hl : Part.cnt ∉ l) : e.cnt = d.cnt := h State.reset .cnt hl
theorem Only.vits {l : List Part} {d e : Dev} (h : Only l d e) (hl : Part.vits ∉ l) : e.vits = d.vits := h State.reset .vits hl
theorem Only.cores {l : List Part} {d e : Dev} (h : Only l d e) (hl : Part.cores ∉ l) : e.cores = d.cores := h State.reset .cores hl
theorem Only.clus {l : List Part} {d e : Dev} (h : Only l d e) (hl : Part.clus ∉ l) : e.clus = d.clus := h State.reset .clus hl
theorem Only.gal {l : List Part} {d e : Dev} (h : Only l d e) (hl : Part.gal ∉ l) : e.gal = d.gal := h State.reset .gal hl
theorem Only.msgs {l : List Part} {d e : Dev} (h : Only l d e) (hl : Part.msgs ∉ l) : e.msgs = d.msgs := h State.reset .msgs hl
theorem Only.mesh {l : List Part} {d e : Dev} (h : Only l d e) (hl : Part.mesh ∉ l) : e.mesh = d.mesh := h State.reset .mesh hl
theorem Only.srv {l : List Part} {d e : Dev} (h : Only l d e) (hl : Part.srv ∉ l) : e.srv = d.srv := h State.reset .srv hl
theorem Only.fab {l : List Part} {d e : Dev} (h : Only l d e) (hl : Part.fab ∉ l) : e.fab = d.fab := h State.reset .fab hl
theorem Only.hbm {l : List Part} {d e : Dev} (h : Only l d e) (hl : Part.hbm ∉ l) : e.hbm = d.hbm := h State.reset .hbm hl
theorem Only.net {l : List Part} {d e : Dev} (h : Only l d e) (hl : Part.net ∉ l) : e.net = d.net := h State.reset .net hl
theorem Only.host {l : List Part} {d e : Dev} (h : Only l d e) (hl : Part.host ∉ l) : e.host = d.host := h State.reset .host hl
theorem Only.rel {l : List Part} {d e : Dev} (h : Only l d e) (hl : Part.rel ∉ l) : e.rel = d.rel := h State.reset .rel hl
theorem Only.fw {l : List Part} {d e : Dev} (h : Only l d e) (hl : Part.fw ∉ l) : e.fw = d.fw := h State.reset .fw hl
theorem Only.pow {l : List Part} {d e : Dev} (h : Only l d e) (hl : Part.pow ∉ l) : e.pow = d.pow := h State.reset .pow hl
theorem Only.dbg {l : List Part} {d e : Dev} (h : Only l d e) (hl : Part.dbg ∉ l) : e.dbg = d.dbg := h State.reset .dbg hl
theorem Only.fresh {l : List Part} {d e : Dev} (h : Only l d e) (hl : Part.fresh ∉ l) : e.fresh = d.fresh := h State.reset .fresh hl

theorem Only.setDpow {l : List Part} {d e : Dev} (i : Nat) (f : DiePow → DiePow) (h : Only l d e) (h0 : Part.pow ∈ l) : Only l d (e.setDpow i f) :=
  h.with_pow _ h0
theorem Only.onPow {l : List Part} {d e : Dev} (f : Power → Power) (h : Only l d e) (h0 : Part.pow ∈ l) : Only l d (e.onPow f) := h.with_pow _ h0
theorem Only.onHbm {l : List Part} {d e : Dev} (f : Hbm → Hbm) (h : Only l d e) (h0 : Part.hbm ∈ l) : Only l d (e.onHbm f) := h.with_hbm _ h0
theorem Only.onFab {l : List Part} {d e : Dev} (f : Fab → Fab) (h : Only l d e) (h0 : Part.fab ∈ l) : Only l d (e.onFab f) := h.with_fab _ h0
theorem Only.setLink {l : List Part} {d e : Dev} (i : Nat) (f : Link → Link) (h : Only l d e) (h0 : Part.fab ∈ l) : Only l d (e.setLink i f) :=
  h.with_fab _ h0
theorem Only.setEng {l : List Part} {d e : Dev} (c : CoreId) (f : Engine → Engine) (h : Only l d e) (h0 : Part.cores ∈ l) : Only l d (e.setEng c f) :=
  h.setCore _ _ h0
theorem Only.rebase {l : List Part} {d e : Dev} (v : VitId) (h : Only l d e) (h0 : Part.vits ∈ l) : Only l d (e.rebase v) := h.setVit _ _ h0
theorem Only.reachOf {l : List Part} {d e : Dev} (c : CoreId) (n : Nat) (h : Only l d e) (h0 : Part.clk ∈ l) (h1 : Part.cnt ∈ l) :
    Only l d (e.reachOf c n) := h.reachVit _ _ h0 h1
theorem Only.vitState {l : List Part} {d e : Dev} (v : VitId) (k : VitSt) (h : Only l d e) (h0 : Part.vits ∈ l) (h1 : Part.cat ∈ l) :
    Only l d (e.vitState v k) := (h.setVit _ _ h0).postVit _ _ _ _ h1
theorem Only.identChanged {l : List Part} {d e : Dev} (i : Option Nat) (a b : Nat) (h : Only l d e) (h1 : Part.cat ∈ l) :
    Only l d (e.identChanged i a b) := h.post _ _ _ _ _ _ h1
theorem Only.coreMapChanged {l : List Part} {d e : Dev} (v : VitId) (h : Only l d e) (h1 : Part.cat ∈ l) :
    Only l d (e.coreMapChanged v) := h.identChanged _ _ _ h1
theorem Only.changed {l : List Part} {d e : Dev} (a : Nat) (h : Only l d e) (h0 : Part.rel ∈ l) (h1 : Part.cat ∈ l) : Only l d (e.changed a) :=
  (h.onRel _ h0).post _ _ _ _ _ _ h1

theorem Only.trace {l : List Part} {d e : Dev} (v : VitId) (k c n : Nat) (h : Only l d e) (h0 : Part.vits ∈ l) (h1 : Part.cnt ∈ l) :
    Only l d (e.trace v k c n) := by
  simp only [Dev.trace]; split
  · exact h
  · split
    · exact (h.setVit _ _ h0).count _ _ _ _ h1
    · exact h.setVit _ _ h0

theorem Only.profile {l : List Part} {d e : Dev} (v : VitId) (k n : Nat) (h : Only l d e) (h0 : Part.cnt ∈ l) : Only l d (e.profile v k n) := by
  simp only [Dev.profile]
  exact h.foldl _ _ (fun e b => ((Only.refl l e).count _ _ _ _ h0).ite (Only.refl l e))

end Sys2Proof.Machine
end

