-- ==== Sys2Proof/Laws/Job.lean ====
section
/-! SUPPORT. What the changes of a block, a group, a step, a trace, a halt and an exception leave as they were, field by field. -/

namespace Sys2Proof.Machine

@[simp] theorem Dev.setBlk_ref (d : Dev) (c : CoreId) (k : Nat) (b : Block) : (d.setBlk c k b).ref = d.ref := rfl
@[simp] theorem Dev.setBlk_clk (d : Dev) (c : CoreId) (k : Nat) (b : Block) : (d.setBlk c k b).clk = d.clk := rfl
@[simp] theorem Dev.setBlk_cat (d : Dev) (c : CoreId) (k : Nat) (b : Block) : (d.setBlk c k b).cat = d.cat := rfl
@[simp] theorem Dev.setBlk_cnt (d : Dev) (c : CoreId) (k : Nat) (b : Block) : (d.setBlk c k b).cnt = d.cnt := rfl
@[simp] theorem Dev.setBlk_vits (d : Dev) (c : CoreId) (k : Nat) (b : Block) : (d.setBlk c k b).vits = d.vits := rfl
@[simp] theorem Dev.setBlk_clus (d : Dev) (c : CoreId) (k : Nat) (b : Block) : (d.setBlk c k b).clus = d.clus := rfl
@[simp] theorem Dev.setBlk_gal (d : Dev) (c : CoreId) (k : Nat) (b : Block) : (d.setBlk c k b).gal = d.gal := rfl
@[simp] theorem Dev.setBlk_msgs (d : Dev) (c : CoreId) (k : Nat) (b : Block) : (d.setBlk c k b).msgs = d.msgs := rfl
@[simp] theorem Dev.setBlk_mesh (d : Dev) (c : CoreId) (k : Nat) (b : Block) : (d.setBlk c k b).mesh = d.mesh := rfl
@[simp] theorem Dev.setBlk_srv (d : Dev) (c : CoreId) (k : Nat) (b : Block) : (d.setBlk c k b).srv = d.srv := rfl
@[simp] theorem Dev.setBlk_fab (d : Dev) (c : CoreId) (k : Nat) (b : Block) : (d.setBlk c k b).fab = d.fab := rfl
@[simp] theorem Dev.setBlk_hbm (d : Dev) (c : CoreId) (k : Nat) (b : Block) : (d.setBlk c k b).hbm = d.hbm := rfl
@[simp] theorem Dev.setBlk_net (d : Dev) (c : CoreId) (k : Nat) (b : Block) : (d.setBlk c k b).net = d.net := rfl
@[simp] theorem Dev.setBlk_host (d : Dev) (c : CoreId) (k : Nat) (b : Block) : (d.setBlk c k b).host = d.host := rfl
@[simp] theorem Dev.setBlk_rel (d : Dev) (c : CoreId) (k : Nat) (b : Block) : (d.setBlk c k b).rel = d.rel := rfl
@[simp] theorem Dev.setBlk_fw (d : Dev) (c : CoreId) (k : Nat) (b : Block) : (d.setBlk c k b).fw = d.fw := rfl
@[simp] theorem Dev.setBlk_pow (d : Dev) (c : CoreId) (k : Nat) (b : Block) : (d.setBlk c k b).pow = d.pow := rfl
@[simp] theorem Dev.setBlk_dbg (d : Dev) (c : CoreId) (k : Nat) (b : Block) : (d.setBlk c k b).dbg = d.dbg := rfl
@[simp] theorem Dev.setBlk_fresh (d : Dev) (c : CoreId) (k : Nat) (b : Block) : (d.setBlk c k b).fresh = d.fresh := rfl

@[simp] theorem Dev.delBlk_ref (d : Dev) (c : CoreId) (k : Nat) : (d.delBlk c k).ref = d.ref := rfl
@[simp] theorem Dev.delBlk_clk (d : Dev) (c : CoreId) (k : Nat) : (d.delBlk c k).clk = d.clk := rfl
@[simp] theorem Dev.delBlk_cat (d : Dev) (c : CoreId) (k : Nat) : (d.delBlk c k).cat = d.cat := rfl
@[simp] theorem Dev.delBlk_cnt (d : Dev) (c : CoreId) (k : Nat) : (d.delBlk c k).cnt = d.cnt := rfl
@[simp] theorem Dev.delBlk_vits (d : Dev) (c : CoreId) (k : Nat) : (d.delBlk c k).vits = d.vits := rfl
@[simp] theorem Dev.delBlk_clus (d : Dev) (c : CoreId) (k : Nat) : (d.delBlk c k).clus = d.clus := rfl
@[simp] theorem Dev.delBlk_gal (d : Dev) (c : CoreId) (k : Nat) : (d.delBlk c k).gal = d.gal := rfl
@[simp] theorem Dev.delBlk_msgs (d : Dev) (c : CoreId) (k : Nat) : (d.delBlk c k).msgs = d.msgs := rfl
@[simp] theorem Dev.delBlk_mesh (d : Dev) (c : CoreId) (k : Nat) : (d.delBlk c k).mesh = d.mesh := rfl
@[simp] theorem Dev.delBlk_srv (d : Dev) (c : CoreId) (k : Nat) : (d.delBlk c k).srv = d.srv := rfl
@[simp] theorem Dev.delBlk_fab (d : Dev) (c : CoreId) (k : Nat) : (d.delBlk c k).fab = d.fab := rfl
@[simp] theorem Dev.delBlk_hbm (d : Dev) (c : CoreId) (k : Nat) : (d.delBlk c k).hbm = d.hbm := rfl
@[simp] theorem Dev.delBlk_net (d : Dev) (c : CoreId) (k : Nat) : (d.delBlk c k).net = d.net := rfl
@[simp] theorem Dev.delBlk_host (d : Dev) (c : CoreId) (k : Nat) : (d.delBlk c k).host = d.host := rfl
@[simp] theorem Dev.delBlk_rel (d : Dev) (c : CoreId) (k : Nat) : (d.delBlk c k).rel = d.rel := rfl
@[simp] theorem Dev.delBlk_fw (d : Dev) (c : CoreId) (k : Nat) : (d.delBlk c k).fw = d.fw := rfl
@[simp] theorem Dev.delBlk_pow (d : Dev) (c : CoreId) (k : Nat) : (d.delBlk c k).pow = d.pow := rfl
@[simp] theorem Dev.delBlk_dbg (d : Dev) (c : CoreId) (k : Nat) : (d.delBlk c k).dbg = d.dbg := rfl
@[simp] theorem Dev.delBlk_fresh (d : Dev) (c : CoreId) (k : Nat) : (d.delBlk c k).fresh = d.fresh := rfl

@[simp] theorem Dev.updBlk_ref (d : Dev) (c : CoreId) (k : Nat) (u : Block → Block) : (d.updBlk c k u).ref = d.ref := by simp only [Dev.updBlk]; split <;> rfl
@[simp] theorem Dev.updBlk_clk (d : Dev) (c : CoreId) (k : Nat) (u : Block → Block) : (d.updBlk c k u).clk = d.clk := by simp only [Dev.updBlk]; split <;> rfl
@[simp] theorem Dev.updBlk_cat (d : Dev) (c : CoreId) (k : Nat) (u : Block → Block) : (d.updBlk c k u).cat = d.cat := by simp only [Dev.updBlk]; split <;> rfl
@[simp] theorem Dev.updBlk_cnt (d : Dev) (c : CoreId) (k : Nat) (u : Block → Block) : (d.updBlk c k u).cnt = d.cnt := by simp only [Dev.updBlk]; split <;> rfl
@[simp] theorem Dev.updBlk_vits (d : Dev) (c : CoreId) (k : Nat) (u : Block → Block) : (d.updBlk c k u).vits = d.vits := by simp only [Dev.updBlk]; split <;> rfl
@[simp] theorem Dev.updBlk_clus (d : Dev) (c : CoreId) (k : Nat) (u : Block → Block) : (d.updBlk c k u).clus = d.clus := by simp only [Dev.updBlk]; split <;> rfl
@[simp] theorem Dev.updBlk_gal (d : Dev) (c : CoreId) (k : Nat) (u : Block → Block) : (d.updBlk c k u).gal = d.gal := by simp only [Dev.updBlk]; split <;> rfl
@[simp] theorem Dev.updBlk_msgs (d : Dev) (c : CoreId) (k : Nat) (u : Block → Block) : (d.updBlk c k u).msgs = d.msgs := by simp only [Dev.updBlk]; split <;> rfl
@[simp] theorem Dev.updBlk_mesh (d : Dev) (c : CoreId) (k : Nat) (u : Block → Block) : (d.updBlk c k u).mesh = d.mesh := by simp only [Dev.updBlk]; split <;> rfl
@[simp] theorem Dev.updBlk_srv (d : Dev) (c : CoreId) (k : Nat) (u : Block → Block) : (d.updBlk c k u).srv = d.srv := by simp only [Dev.updBlk]; split <;> rfl
@[simp] theorem Dev.updBlk_fab (d : Dev) (c : CoreId) (k : Nat) (u : Block → Block) : (d.updBlk c k u).fab = d.fab := by simp only [Dev.updBlk]; split <;> rfl
@[simp] theorem Dev.updBlk_hbm (d : Dev) (c : CoreId) (k : Nat) (u : Block → Block) : (d.updBlk c k u).hbm = d.hbm := by simp only [Dev.updBlk]; split <;> rfl
@[simp] theorem Dev.updBlk_net (d : Dev) (c : CoreId) (k : Nat) (u : Block → Block) : (d.updBlk c k u).net = d.net := by simp only [Dev.updBlk]; split <;> rfl
@[simp] theorem Dev.updBlk_host (d : Dev) (c : CoreId) (k : Nat) (u : Block → Block) : (d.updBlk c k u).host = d.host := by simp only [Dev.updBlk]; split <;> rfl
@[simp] theorem Dev.updBlk_rel (d : Dev) (c : CoreId) (k : Nat) (u : Block → Block) : (d.updBlk c k u).rel = d.rel := by simp only [Dev.updBlk]; split <;> rfl
@[simp] theorem Dev.updBlk_fw (d : Dev) (c : CoreId) (k : Nat) (u : Block → Block) : (d.updBlk c k u).fw = d.fw := by simp only [Dev.updBlk]; split <;> rfl
@[simp] theorem Dev.updBlk_pow (d : Dev) (c : CoreId) (k : Nat) (u : Block → Block) : (d.updBlk c k u).pow = d.pow := by simp only [Dev.updBlk]; split <;> rfl
@[simp] theorem Dev.updBlk_dbg (d : Dev) (c : CoreId) (k : Nat) (u : Block → Block) : (d.updBlk c k u).dbg = d.dbg := by simp only [Dev.updBlk]; split <;> rfl
@[simp] theorem Dev.updBlk_fresh (d : Dev) (c : CoreId) (k : Nat) (u : Block → Block) : (d.updBlk c k u).fresh = d.fresh := by simp only [Dev.updBlk]; split <;> rfl

@[simp] theorem Dev.updGrp_ref (d : Dev) (g : GRef) (u : Group → Group) : (d.updGrp g u).ref = d.ref := by simp only [Dev.updGrp, Dev.updBlk_ref]
@[simp] theorem Dev.updGrp_clk (d : Dev) (g : GRef) (u : Group → Group) : (d.updGrp g u).clk = d.clk := by simp only [Dev.updGrp, Dev.updBlk_clk]
@[simp] theorem Dev.updGrp_cat (d : Dev) (g : GRef) (u : Group → Group) : (d.updGrp g u).cat = d.cat := by simp only [Dev.updGrp, Dev.updBlk_cat]
@[simp] theorem Dev.updGrp_cnt (d : Dev) (g : GRef) (u : Group → Group) : (d.updGrp g u).cnt = d.cnt := by simp only [Dev.updGrp, Dev.updBlk_cnt]
@[simp] theorem Dev.updGrp_vits (d : Dev) (g : GRef) (u : Group → Group) : (d.updGrp g u).vits = d.vits := by simp only [Dev.updGrp, Dev.updBlk_vits]
@[simp] theorem Dev.updGrp_clus (d : Dev) (g : GRef) (u : Group → Group) : (d.updGrp g u).clus = d.clus := by simp only [Dev.updGrp, Dev.updBlk_clus]
@[simp] theorem Dev.updGrp_gal (d : Dev) (g : GRef) (u : Group → Group) : (d.updGrp g u).gal = d.gal := by simp only [Dev.updGrp, Dev.updBlk_gal]
@[simp] theorem Dev.updGrp_msgs (d : Dev) (g : GRef) (u : Group → Group) : (d.updGrp g u).msgs = d.msgs := by simp only [Dev.updGrp, Dev.updBlk_msgs]
@[simp] theorem Dev.updGrp_mesh (d : Dev) (g : GRef) (u : Group → Group) : (d.updGrp g u).mesh = d.mesh := by simp only [Dev.updGrp, Dev.updBlk_mesh]
@[simp] theorem Dev.updGrp_srv (d : Dev) (g : GRef) (u : Group → Group) : (d.updGrp g u).srv = d.srv := by simp only [Dev.updGrp, Dev.updBlk_srv]
@[simp] theorem Dev.updGrp_fab (d : Dev) (g : GRef) (u : Group → Group) : (d.updGrp g u).fab = d.fab := by simp only [Dev.updGrp, Dev.updBlk_fab]
@[simp] theorem Dev.updGrp_hbm (d : Dev) (g : GRef) (u : Group → Group) : (d.updGrp g u).hbm = d.hbm := by simp only [Dev.updGrp, Dev.updBlk_hbm]
@[simp] theorem Dev.updGrp_net (d : Dev) (g : GRef) (u : Group → Group) : (d.updGrp g u).net = d.net := by simp only [Dev.updGrp, Dev.updBlk_net]
@[simp] theorem Dev.updGrp_host (d : Dev) (g : GRef) (u : Group → Group) : (d.updGrp g u).host = d.host := by simp only [Dev.updGrp, Dev.updBlk_host]
@[simp] theorem Dev.updGrp_rel (d : Dev) (g : GRef) (u : Group → Group) : (d.updGrp g u).rel = d.rel := by simp only [Dev.updGrp, Dev.updBlk_rel]
@[simp] theorem Dev.updGrp_fw (d : Dev) (g : GRef) (u : Group → Group) : (d.updGrp g u).fw = d.fw := by simp only [Dev.updGrp, Dev.updBlk_fw]
@[simp] theorem Dev.updGrp_pow (d : Dev) (g : GRef) (u : Group → Group) : (d.updGrp g u).pow = d.pow := by simp only [Dev.updGrp, Dev.updBlk_pow]
@[simp] theorem Dev.updGrp_dbg (d : Dev) (g : GRef) (u : Group → Group) : (d.updGrp g u).dbg = d.dbg := by simp only [Dev.updGrp, Dev.updBlk_dbg]
@[simp] theorem Dev.updGrp_fresh (d : Dev) (g : GRef) (u : Group → Group) : (d.updGrp g u).fresh = d.fresh := by simp only [Dev.updGrp, Dev.updBlk_fresh]

@[simp] theorem Dev.eachGrp_ref (d : Dev) (l : List (GRef × (Group → Group))) : (d.eachGrp l).ref = d.ref := by
  simp only [Dev.eachGrp]; rw [foldl_keeps Dev.ref]; intro e p; exact Dev.updGrp_ref e _ _
@[simp] theorem Dev.eachGrp_clk (d : Dev) (l : List (GRef × (Group → Group))) : (d.eachGrp l).clk = d.clk := by
  simp only [Dev.eachGrp]; rw [foldl_keeps Dev.clk]; intro e p; exact Dev.updGrp_clk e _ _
@[simp] theorem Dev.eachGrp_cat (d : Dev) (l : List (GRef × (Group → Group))) : (d.eachGrp l).cat = d.cat := by
  simp only [Dev.eachGrp]; rw [foldl_keeps Dev.cat]; intro e p; exact Dev.updGrp_cat e _ _
@[simp] theorem Dev.eachGrp_cnt (d : Dev) (l : List (GRef × (Group → Group))) : (d.eachGrp l).cnt = d.cnt := by
  simp only [Dev.eachGrp]; rw [foldl_keeps Dev.cnt]; intro e p; exact Dev.updGrp_cnt e _ _
@[simp] theorem Dev.eachGrp_vits (d : Dev) (l : List (GRef × (Group → Group))) : (d.eachGrp l).vits = d.vits := by
  simp only [Dev.eachGrp]; rw [foldl_keeps Dev.vits]; intro e p; exact Dev.updGrp_vits e _ _
@[simp] theorem Dev.eachGrp_clus (d : Dev) (l : List (GRef × (Group → Group))) : (d.eachGrp l).clus = d.clus := by
  simp only [Dev.eachGrp]; rw [foldl_keeps Dev.clus]; intro e p; exact Dev.updGrp_clus e _ _
@[simp] theorem Dev.eachGrp_gal (d : Dev) (l : List (GRef × (Group → Group))) : (d.eachGrp l).gal = d.gal := by
  simp only [Dev.eachGrp]; rw [foldl_keeps Dev.gal]; intro e p; exact Dev.updGrp_gal e _ _
@[simp] theorem Dev.eachGrp_msgs (d : Dev) (l : List (GRef × (Group → Group))) : (d.eachGrp l).msgs = d.msgs := by
  simp only [Dev.eachGrp]; rw [foldl_keeps Dev.msgs]; intro e p; exact Dev.updGrp_msgs e _ _
@[simp] theorem Dev.eachGrp_mesh (d : Dev) (l : List (GRef × (Group → Group))) : (d.eachGrp l).mesh = d.mesh := by
  simp only [Dev.eachGrp]; rw [foldl_keeps Dev.mesh]; intro e p; exact Dev.updGrp_mesh e _ _
@[simp] theorem Dev.eachGrp_srv (d : Dev) (l : List (GRef × (Group → Group))) : (d.eachGrp l).srv = d.srv := by
  simp only [Dev.eachGrp]; rw [foldl_keeps Dev.srv]; intro e p; exact Dev.updGrp_srv e _ _
@[simp] theorem Dev.eachGrp_fab (d : Dev) (l : List (GRef × (Group → Group))) : (d.eachGrp l).fab = d.fab := by
  simp only [Dev.eachGrp]; rw [foldl_keeps Dev.fab]; intro e p; exact Dev.updGrp_fab e _ _
@[simp] theorem Dev.eachGrp_hbm (d : Dev) (l : List (GRef × (Group → Group))) : (d.eachGrp l).hbm = d.hbm := by
  simp only [Dev.eachGrp]; rw [foldl_keeps Dev.hbm]; intro e p; exact Dev.updGrp_hbm e _ _
@[simp] theorem Dev.eachGrp_net (d : Dev) (l : List (GRef × (Group → Group))) : (d.eachGrp l).net = d.net := by
  simp only [Dev.eachGrp]; rw [foldl_keeps Dev.net]; intro e p; exact Dev.updGrp_net e _ _
@[simp] theorem Dev.eachGrp_host (d : Dev) (l : List (GRef × (Group → Group))) : (d.eachGrp l).host = d.host := by
  simp only [Dev.eachGrp]; rw [foldl_keeps Dev.host]; intro e p; exact Dev.updGrp_host e _ _
@[simp] theorem Dev.eachGrp_rel (d : Dev) (l : List (GRef × (Group → Group))) : (d.eachGrp l).rel = d.rel := by
  simp only [Dev.eachGrp]; rw [foldl_keeps Dev.rel]; intro e p; exact Dev.updGrp_rel e _ _
@[simp] theorem Dev.eachGrp_fw (d : Dev) (l : List (GRef × (Group → Group))) : (d.eachGrp l).fw = d.fw := by
  simp only [Dev.eachGrp]; rw [foldl_keeps Dev.fw]; intro e p; exact Dev.updGrp_fw e _ _
@[simp] theorem Dev.eachGrp_pow (d : Dev) (l : List (GRef × (Group → Group))) : (d.eachGrp l).pow = d.pow := by
  simp only [Dev.eachGrp]; rw [foldl_keeps Dev.pow]; intro e p; exact Dev.updGrp_pow e _ _
@[simp] theorem Dev.eachGrp_dbg (d : Dev) (l : List (GRef × (Group → Group))) : (d.eachGrp l).dbg = d.dbg := by
  simp only [Dev.eachGrp]; rw [foldl_keeps Dev.dbg]; intro e p; exact Dev.updGrp_dbg e _ _
@[simp] theorem Dev.eachGrp_fresh (d : Dev) (l : List (GRef × (Group → Group))) : (d.eachGrp l).fresh = d.fresh := by
  simp only [Dev.eachGrp]; rw [foldl_keeps Dev.fresh]; intro e p; exact Dev.updGrp_fresh e _ _

@[simp] theorem Dev.stepGrp_ref (d : Dev) (g : GRef) (u : Group → Group) : (d.stepGrp g u).ref = d.ref := by simp only [Dev.stepGrp, Dev.updBlk_ref, Dev.updGrp_ref]
@[simp] theorem Dev.stepGrp_clk (d : Dev) (g : GRef) (u : Group → Group) : (d.stepGrp g u).clk = d.clk := by simp only [Dev.stepGrp, Dev.updBlk_clk, Dev.updGrp_clk]
@[simp] theorem Dev.stepGrp_cat (d : Dev) (g : GRef) (u : Group → Group) : (d.stepGrp g u).cat = d.cat := by simp only [Dev.stepGrp, Dev.updBlk_cat, Dev.updGrp_cat]
@[simp] theorem Dev.stepGrp_cnt (d : Dev) (g : GRef) (u : Group → Group) : (d.stepGrp g u).cnt = d.cnt := by simp only [Dev.stepGrp, Dev.updBlk_cnt, Dev.updGrp_cnt]
@[simp] theorem Dev.stepGrp_vits (d : Dev) (g : GRef) (u : Group → Group) : (d.stepGrp g u).vits = d.vits := by simp only [Dev.stepGrp, Dev.updBlk_vits, Dev.updGrp_vits]
@[simp] theorem Dev.stepGrp_clus (d : Dev) (g : GRef) (u : Group → Group) : (d.stepGrp g u).clus = d.clus := by simp only [Dev.stepGrp, Dev.updBlk_clus, Dev.updGrp_clus]
@[simp] theorem Dev.stepGrp_gal (d : Dev) (g : GRef) (u : Group → Group) : (d.stepGrp g u).gal = d.gal := by simp only [Dev.stepGrp, Dev.updBlk_gal, Dev.updGrp_gal]
@[simp] theorem Dev.stepGrp_msgs (d : Dev) (g : GRef) (u : Group → Group) : (d.stepGrp g u).msgs = d.msgs := by simp only [Dev.stepGrp, Dev.updBlk_msgs, Dev.updGrp_msgs]
@[simp] theorem Dev.stepGrp_mesh (d : Dev) (g : GRef) (u : Group → Group) : (d.stepGrp g u).mesh = d.mesh := by simp only [Dev.stepGrp, Dev.updBlk_mesh, Dev.updGrp_mesh]
@[simp] theorem Dev.stepGrp_srv (d : Dev) (g : GRef) (u : Group → Group) : (d.stepGrp g u).srv = d.srv := by simp only [Dev.stepGrp, Dev.updBlk_srv, Dev.updGrp_srv]
@[simp] theorem Dev.stepGrp_fab (d : Dev) (g : GRef) (u : Group → Group) : (d.stepGrp g u).fab = d.fab := by simp only [Dev.stepGrp, Dev.updBlk_fab, Dev.updGrp_fab]
@[simp] theorem Dev.stepGrp_hbm (d : Dev) (g : GRef) (u : Group → Group) : (d.stepGrp g u).hbm = d.hbm := by simp only [Dev.stepGrp, Dev.updBlk_hbm, Dev.updGrp_hbm]
@[simp] theorem Dev.stepGrp_net (d : Dev) (g : GRef) (u : Group → Group) : (d.stepGrp g u).net = d.net := by simp only [Dev.stepGrp, Dev.updBlk_net, Dev.updGrp_net]
@[simp] theorem Dev.stepGrp_host (d : Dev) (g : GRef) (u : Group → Group) : (d.stepGrp g u).host = d.host := by simp only [Dev.stepGrp, Dev.updBlk_host, Dev.updGrp_host]
@[simp] theorem Dev.stepGrp_rel (d : Dev) (g : GRef) (u : Group → Group) : (d.stepGrp g u).rel = d.rel := by simp only [Dev.stepGrp, Dev.updBlk_rel, Dev.updGrp_rel]
@[simp] theorem Dev.stepGrp_fw (d : Dev) (g : GRef) (u : Group → Group) : (d.stepGrp g u).fw = d.fw := by simp only [Dev.stepGrp, Dev.updBlk_fw, Dev.updGrp_fw]
@[simp] theorem Dev.stepGrp_pow (d : Dev) (g : GRef) (u : Group → Group) : (d.stepGrp g u).pow = d.pow := by simp only [Dev.stepGrp, Dev.updBlk_pow, Dev.updGrp_pow]
@[simp] theorem Dev.stepGrp_dbg (d : Dev) (g : GRef) (u : Group → Group) : (d.stepGrp g u).dbg = d.dbg := by simp only [Dev.stepGrp, Dev.updBlk_dbg, Dev.updGrp_dbg]
@[simp] theorem Dev.stepGrp_fresh (d : Dev) (g : GRef) (u : Group → Group) : (d.stepGrp g u).fresh = d.fresh := by simp only [Dev.stepGrp, Dev.updBlk_fresh, Dev.updGrp_fresh]

@[simp] theorem Dev.trace_ref (d : Dev) (v : VitId) (k i n : Nat) : (d.trace v k i n).ref = d.ref := by
  simp only [Dev.trace]; split
  · rfl
  · split <;> rfl
@[simp] theorem Dev.trace_clk (d : Dev) (v : VitId) (k i n : Nat) : (d.trace v k i n).clk = d.clk := by
  simp only [Dev.trace]; split
  · rfl
  · split <;> rfl
@[simp] theorem Dev.trace_cat (d : Dev) (v : VitId) (k i n : Nat) : (d.trace v k i n).cat = d.cat := by
  simp only [Dev.trace]; split
  · rfl
  · split <;> rfl
@[simp] theorem Dev.trace_cores (d : Dev) (v : VitId) (k i n : Nat) : (d.trace v k i n).cores = d.cores := by
  simp only [Dev.trace]; split
  · rfl
  · split <;> rfl
@[simp] theorem Dev.trace_clus (d : Dev) (v : VitId) (k i n : Nat) : (d.trace v k i n).clus = d.clus := by
  simp only [Dev.trace]; split
  · rfl
  · split <;> rfl
@[simp] theorem Dev.trace_gal (d : Dev) (v : VitId) (k i n : Nat) : (d.trace v k i n).gal = d.gal := by
  simp only [Dev.trace]; split
  · rfl
  · split <;> rfl
@[simp] theorem Dev.trace_msgs (d : Dev) (v : VitId) (k i n : Nat) : (d.trace v k i n).msgs = d.msgs := by
  simp only [Dev.trace]; split
  · rfl
  · split <;> rfl
@[simp] theorem Dev.trace_mesh (d : Dev) (v : VitId) (k i n : Nat) : (d.trace v k i n).mesh = d.mesh := by
  simp only [Dev.trace]; split
  · rfl
  · split <;> rfl
@[simp] theorem Dev.trace_srv (d : Dev) (v : VitId) (k i n : Nat) : (d.trace v k i n).srv = d.srv := by
  simp only [Dev.trace]; split
  · rfl
  · split <;> rfl
@[simp] theorem Dev.trace_fab (d : Dev) (v : VitId) (k i n : Nat) : (d.trace v k i n).fab = d.fab := by
  simp only [Dev.trace]; split
  · rfl
  · split <;> rfl
@[simp] theorem Dev.trace_hbm (d : Dev) (v : VitId) (k i n : Nat) : (d.trace v k i n).hbm = d.hbm := by
  simp only [Dev.trace]; split
  · rfl
  · split <;> rfl
@[simp] theorem Dev.trace_net (d : Dev) (v : VitId) (k i n : Nat) : (d.trace v k i n).net = d.net := by
  simp only [Dev.trace]; split
  · rfl
  · split <;> rfl
@[simp] theorem Dev.trace_host (d : Dev) (v : VitId) (k i n : Nat) : (d.trace v k i n).host = d.host := by
  simp only [Dev.trace]; split
  · rfl
  · split <;> rfl
@[simp] theorem Dev.trace_rel (d : Dev) (v : VitId) (k i n : Nat) : (d.trace v k i n).rel = d.rel := by
  simp only [Dev.trace]; split
  · rfl
  · split <;> rfl
@[simp] theorem Dev.trace_fw (d : Dev) (v : VitId) (k i n : Nat) : (d.trace v k i n).fw = d.fw := by
  simp only [Dev.trace]; split
  · rfl
  · split <;> rfl
@[simp] theorem Dev.trace_pow (d : Dev) (v : VitId) (k i n : Nat) : (d.trace v k i n).pow = d.pow := by
  simp only [Dev.trace]; split
  · rfl
  · split <;> rfl
@[simp] theorem Dev.trace_dbg (d : Dev) (v : VitId) (k i n : Nat) : (d.trace v k i n).dbg = d.dbg := by
  simp only [Dev.trace]; split
  · rfl
  · split <;> rfl
@[simp] theorem Dev.trace_fresh (d : Dev) (v : VitId) (k i n : Nat) : (d.trace v k i n).fresh = d.fresh := by
  simp only [Dev.trace]; split
  · rfl
  · split <;> rfl

@[simp] theorem Dev.profile_ref (d : Dev) (v : VitId) (k n : Nat) : (d.profile v k n).ref = d.ref := by
  simp only [Dev.profile]; rw [foldl_keeps Dev.ref]; intro e j; split <;> simp only [Dev.count_ref]
@[simp] theorem Dev.profile_clk (d : Dev) (v : VitId) (k n : Nat) : (d.profile v k n).clk = d.clk := by
  simp only [Dev.profile]; rw [foldl_keeps Dev.clk]; intro e j; split <;> simp only [Dev.count_clk]
@[simp] theorem Dev.profile_cat (d : Dev) (v : VitId) (k n : Nat) : (d.profile v k n).cat = d.cat := by
  simp only [Dev.profile]; rw [foldl_keeps Dev.cat]; intro e j; split <;> simp only [Dev.count_cat]
@[simp] theorem Dev.profile_vits (d : Dev) (v : VitId) (k n : Nat) : (d.profile v k n).vits = d.vits := by
  simp only [Dev.profile]; rw [foldl_keeps Dev.vits]; intro e j; split <;> simp only [Dev.count_vits]
@[simp] theorem Dev.profile_cores (d : Dev) (v : VitId) (k n : Nat) : (d.profile v k n).cores = d.cores := by
  simp only [Dev.profile]; rw [foldl_keeps Dev.cores]; intro e j; split <;> simp only [Dev.count_cores]
@[simp] theorem Dev.profile_clus (d : Dev) (v : VitId) (k n : Nat) : (d.profile v k n).clus = d.clus := by
  simp only [Dev.profile]; rw [foldl_keeps Dev.clus]; intro e j; split <;> simp only [Dev.count_clus]
@[simp] theorem Dev.profile_gal (d : Dev) (v : VitId) (k n : Nat) : (d.profile v k n).gal = d.gal := by
  simp only [Dev.profile]; rw [foldl_keeps Dev.gal]; intro e j; split <;> simp only [Dev.count_gal]
@[simp] theorem Dev.profile_msgs (d : Dev) (v : VitId) (k n : Nat) : (d.profile v k n).msgs = d.msgs := by
  simp only [Dev.profile]; rw [foldl_keeps Dev.msgs]; intro e j; split <;> simp only [Dev.count_msgs]
@[simp] theorem Dev.profile_mesh (d : Dev) (v : VitId) (k n : Nat) : (d.profile v k n).mesh = d.mesh := by
  simp only [Dev.profile]; rw [foldl_keeps Dev.mesh]; intro e j; split <;> simp only [Dev.count_mesh]
@[simp] theorem Dev.profile_srv (d : Dev) (v : VitId) (k n : Nat) : (d.profile v k n).srv = d.srv := by
  simp only [Dev.profile]; rw [foldl_keeps Dev.srv]; intro e j; split <;> simp only [Dev.count_srv]
@[simp] theorem Dev.profile_fab (d : Dev) (v : VitId) (k n : Nat) : (d.profile v k n).fab = d.fab := by
  simp only [Dev.profile]; rw [foldl_keeps Dev.fab]; intro e j; split <;> simp only [Dev.count_fab]
@[simp] theorem Dev.profile_hbm (d : Dev) (v : VitId) (k n : Nat) : (d.profile v k n).hbm = d.hbm := by
  simp only [Dev.profile]; rw [foldl_keeps Dev.hbm]; intro e j; split <;> simp only [Dev.count_hbm]
@[simp] theorem Dev.profile_net (d : Dev) (v : VitId) (k n : Nat) : (d.profile v k n).net = d.net := by
  simp only [Dev.profile]; rw [foldl_keeps Dev.net]; intro e j; split <;> simp only [Dev.count_net]
@[simp] theorem Dev.profile_host (d : Dev) (v : VitId) (k n : Nat) : (d.profile v k n).host = d.host := by
  simp only [Dev.profile]; rw [foldl_keeps Dev.host]; intro e j; split <;> simp only [Dev.count_host]
@[simp] theorem Dev.profile_rel (d : Dev) (v : VitId) (k n : Nat) : (d.profile v k n).rel = d.rel := by
  simp only [Dev.profile]; rw [foldl_keeps Dev.rel]; intro e j; split <;> simp only [Dev.count_rel]
@[simp] theorem Dev.profile_fw (d : Dev) (v : VitId) (k n : Nat) : (d.profile v k n).fw = d.fw := by
  simp only [Dev.profile]; rw [foldl_keeps Dev.fw]; intro e j; split <;> simp only [Dev.count_fw]
@[simp] theorem Dev.profile_pow (d : Dev) (v : VitId) (k n : Nat) : (d.profile v k n).pow = d.pow := by
  simp only [Dev.profile]; rw [foldl_keeps Dev.pow]; intro e j; split <;> simp only [Dev.count_pow]
@[simp] theorem Dev.profile_dbg (d : Dev) (v : VitId) (k n : Nat) : (d.profile v k n).dbg = d.dbg := by
  simp only [Dev.profile]; rw [foldl_keeps Dev.dbg]; intro e j; split <;> simp only [Dev.count_dbg]
@[simp] theorem Dev.profile_fresh (d : Dev) (v : VitId) (k n : Nat) : (d.profile v k n).fresh = d.fresh := by
  simp only [Dev.profile]; rw [foldl_keeps Dev.fresh]; intro e j; split <;> simp only [Dev.count_fresh]

@[simp] theorem Dev.haltTenancy_ref (d : Dev) (v : VitId) (k : Nat) : (d.haltTenancy v k).ref = d.ref := by
  simp only [Dev.haltTenancy]; rw [foldl_keeps Dev.ref]; intro e j; exact Dev.setVit_ref e j _
@[simp] theorem Dev.haltTenancy_clk (d : Dev) (v : VitId) (k : Nat) : (d.haltTenancy v k).clk = d.clk := by
  simp only [Dev.haltTenancy]; rw [foldl_keeps Dev.clk]; intro e j; exact Dev.setVit_clk e j _
@[simp] theorem Dev.haltTenancy_cat (d : Dev) (v : VitId) (k : Nat) : (d.haltTenancy v k).cat = d.cat := by
  simp only [Dev.haltTenancy]; rw [foldl_keeps Dev.cat]; intro e j; exact Dev.setVit_cat e j _
@[simp] theorem Dev.haltTenancy_cnt (d : Dev) (v : VitId) (k : Nat) : (d.haltTenancy v k).cnt = d.cnt := by
  simp only [Dev.haltTenancy]; rw [foldl_keeps Dev.cnt]; intro e j; exact Dev.setVit_cnt e j _
@[simp] theorem Dev.haltTenancy_cores (d : Dev) (v : VitId) (k : Nat) : (d.haltTenancy v k).cores = d.cores := by
  simp only [Dev.haltTenancy]; rw [foldl_keeps Dev.cores]; intro e j; exact Dev.setVit_cores e j _
@[simp] theorem Dev.haltTenancy_clus (d : Dev) (v : VitId) (k : Nat) : (d.haltTenancy v k).clus = d.clus := by
  simp only [Dev.haltTenancy]; rw [foldl_keeps Dev.clus]; intro e j; exact Dev.setVit_clus e j _
@[simp] theorem Dev.haltTenancy_gal (d : Dev) (v : VitId) (k : Nat) : (d.haltTenancy v k).gal = d.gal := by
  simp only [Dev.haltTenancy]; rw [foldl_keeps Dev.gal]; intro e j; exact Dev.setVit_gal e j _
@[simp] theorem Dev.haltTenancy_msgs (d : Dev) (v : VitId) (k : Nat) : (d.haltTenancy v k).msgs = d.msgs := by
  simp only [Dev.haltTenancy]; rw [foldl_keeps Dev.msgs]; intro e j; exact Dev.setVit_msgs e j _
@[simp] theorem Dev.haltTenancy_mesh (d : Dev) (v : VitId) (k : Nat) : (d.haltTenancy v k).mesh = d.mesh := by
  simp only [Dev.haltTenancy]; rw [foldl_keeps Dev.mesh]; intro e j; exact Dev.setVit_mesh e j _
@[simp] theorem Dev.haltTenancy_srv (d : Dev) (v : VitId) (k : Nat) : (d.haltTenancy v k).srv = d.srv := by
  simp only [Dev.haltTenancy]; rw [foldl_keeps Dev.srv]; intro e j; exact Dev.setVit_srv e j _
@[simp] theorem Dev.haltTenancy_fab (d : Dev) (v : VitId) (k : Nat) : (d.haltTenancy v k).fab = d.fab := by
  simp only [Dev.haltTenancy]; rw [foldl_keeps Dev.fab]; intro e j; exact Dev.setVit_fab e j _
@[simp] theorem Dev.haltTenancy_hbm (d : Dev) (v : VitId) (k : Nat) : (d.haltTenancy v k).hbm = d.hbm := by
  simp only [Dev.haltTenancy]; rw [foldl_keeps Dev.hbm]; intro e j; exact Dev.setVit_hbm e j _
@[simp] theorem Dev.haltTenancy_net (d : Dev) (v : VitId) (k : Nat) : (d.haltTenancy v k).net = d.net := by
  simp only [Dev.haltTenancy]; rw [foldl_keeps Dev.net]; intro e j; exact Dev.setVit_net e j _
@[simp] theorem Dev.haltTenancy_host (d : Dev) (v : VitId) (k : Nat) : (d.haltTenancy v k).host = d.host := by
  simp only [Dev.haltTenancy]; rw [foldl_keeps Dev.host]; intro e j; exact Dev.setVit_host e j _
@[simp] theorem Dev.haltTenancy_rel (d : Dev) (v : VitId) (k : Nat) : (d.haltTenancy v k).rel = d.rel := by
  simp only [Dev.haltTenancy]; rw [foldl_keeps Dev.rel]; intro e j; exact Dev.setVit_rel e j _
@[simp] theorem Dev.haltTenancy_fw (d : Dev) (v : VitId) (k : Nat) : (d.haltTenancy v k).fw = d.fw := by
  simp only [Dev.haltTenancy]; rw [foldl_keeps Dev.fw]; intro e j; exact Dev.setVit_fw e j _
@[simp] theorem Dev.haltTenancy_pow (d : Dev) (v : VitId) (k : Nat) : (d.haltTenancy v k).pow = d.pow := by
  simp only [Dev.haltTenancy]; rw [foldl_keeps Dev.pow]; intro e j; exact Dev.setVit_pow e j _
@[simp] theorem Dev.haltTenancy_dbg (d : Dev) (v : VitId) (k : Nat) : (d.haltTenancy v k).dbg = d.dbg := by
  simp only [Dev.haltTenancy]; rw [foldl_keeps Dev.dbg]; intro e j; exact Dev.setVit_dbg e j _
@[simp] theorem Dev.haltTenancy_fresh (d : Dev) (v : VitId) (k : Nat) : (d.haltTenancy v k).fresh = d.fresh := by
  simp only [Dev.haltTenancy]; rw [foldl_keeps Dev.fresh]; intro e j; exact Dev.setVit_fresh e j _

@[simp] theorem Dev.setStep_ref (d : Dev) (s : StepRec) (u : StepRec → StepRec) : (d.setStep s u).ref = d.ref := rfl
@[simp] theorem Dev.setStep_clk (d : Dev) (s : StepRec) (u : StepRec → StepRec) : (d.setStep s u).clk = d.clk := rfl
@[simp] theorem Dev.setStep_cat (d : Dev) (s : StepRec) (u : StepRec → StepRec) : (d.setStep s u).cat = d.cat := rfl
@[simp] theorem Dev.setStep_cnt (d : Dev) (s : StepRec) (u : StepRec → StepRec) : (d.setStep s u).cnt = d.cnt := rfl
@[simp] theorem Dev.setStep_vits (d : Dev) (s : StepRec) (u : StepRec → StepRec) : (d.setStep s u).vits = d.vits := rfl
@[simp] theorem Dev.setStep_cores (d : Dev) (s : StepRec) (u : StepRec → StepRec) : (d.setStep s u).cores = d.cores := rfl
@[simp] theorem Dev.setStep_clus (d : Dev) (s : StepRec) (u : StepRec → StepRec) : (d.setStep s u).clus = d.clus := rfl
@[simp] theorem Dev.setStep_gal (d : Dev) (s : StepRec) (u : StepRec → StepRec) : (d.setStep s u).gal = d.gal := rfl
@[simp] theorem Dev.setStep_msgs (d : Dev) (s : StepRec) (u : StepRec → StepRec) : (d.setStep s u).msgs = d.msgs := rfl
@[simp] theorem Dev.setStep_mesh (d : Dev) (s : StepRec) (u : StepRec → StepRec) : (d.setStep s u).mesh = d.mesh := rfl
@[simp] theorem Dev.setStep_fab (d : Dev) (s : StepRec) (u : StepRec → StepRec) : (d.setStep s u).fab = d.fab := rfl
@[simp] theorem Dev.setStep_hbm (d : Dev) (s : StepRec) (u : StepRec → StepRec) : (d.setStep s u).hbm = d.hbm := rfl
@[simp] theorem Dev.setStep_net (d : Dev) (s : StepRec) (u : StepRec → StepRec) : (d.setStep s u).net = d.net := rfl
@[simp] theorem Dev.setStep_host (d : Dev) (s : StepRec) (u : StepRec → StepRec) : (d.setStep s u).host = d.host := rfl
@[simp] theorem Dev.setStep_rel (d : Dev) (s : StepRec) (u : StepRec → StepRec) : (d.setStep s u).rel = d.rel := rfl
@[simp] theorem Dev.setStep_fw (d : Dev) (s : StepRec) (u : StepRec → StepRec) : (d.setStep s u).fw = d.fw := rfl
@[simp] theorem Dev.setStep_pow (d : Dev) (s : StepRec) (u : StepRec → StepRec) : (d.setStep s u).pow = d.pow := rfl
@[simp] theorem Dev.setStep_dbg (d : Dev) (s : StepRec) (u : StepRec → StepRec) : (d.setStep s u).dbg = d.dbg := rfl
@[simp] theorem Dev.setStep_fresh (d : Dev) (s : StepRec) (u : StepRec → StepRec) : (d.setStep s u).fresh = d.fresh := rfl

@[simp] theorem Dev.setJob_ref (d : Dev) (v : VitId) (u : Job → Job) : (d.setJob v u).ref = d.ref := rfl
@[simp] theorem Dev.setJob_clk (d : Dev) (v : VitId) (u : Job → Job) : (d.setJob v u).clk = d.clk := rfl
@[simp] theorem Dev.setJob_cat (d : Dev) (v : VitId) (u : Job → Job) : (d.setJob v u).cat = d.cat := rfl
@[simp] theorem Dev.setJob_cnt (d : Dev) (v : VitId) (u : Job → Job) : (d.setJob v u).cnt = d.cnt := rfl
@[simp] theorem Dev.setJob_vits (d : Dev) (v : VitId) (u : Job → Job) : (d.setJob v u).vits = d.vits := rfl
@[simp] theorem Dev.setJob_cores (d : Dev) (v : VitId) (u : Job → Job) : (d.setJob v u).cores = d.cores := rfl
@[simp] theorem Dev.setJob_clus (d : Dev) (v : VitId) (u : Job → Job) : (d.setJob v u).clus = d.clus := rfl
@[simp] theorem Dev.setJob_gal (d : Dev) (v : VitId) (u : Job → Job) : (d.setJob v u).gal = d.gal := rfl
@[simp] theorem Dev.setJob_msgs (d : Dev) (v : VitId) (u : Job → Job) : (d.setJob v u).msgs = d.msgs := rfl
@[simp] theorem Dev.setJob_mesh (d : Dev) (v : VitId) (u : Job → Job) : (d.setJob v u).mesh = d.mesh := rfl
@[simp] theorem Dev.setJob_srv (d : Dev) (v : VitId) (u : Job → Job) : (d.setJob v u).srv = d.srv := rfl
@[simp] theorem Dev.setJob_fab (d : Dev) (v : VitId) (u : Job → Job) : (d.setJob v u).fab = d.fab := rfl
@[simp] theorem Dev.setJob_hbm (d : Dev) (v : VitId) (u : Job → Job) : (d.setJob v u).hbm = d.hbm := rfl
@[simp] theorem Dev.setJob_net (d : Dev) (v : VitId) (u : Job → Job) : (d.setJob v u).net = d.net := rfl
@[simp] theorem Dev.setJob_host (d : Dev) (v : VitId) (u : Job → Job) : (d.setJob v u).host = d.host := rfl
@[simp] theorem Dev.setJob_fw (d : Dev) (v : VitId) (u : Job → Job) : (d.setJob v u).fw = d.fw := rfl
@[simp] theorem Dev.setJob_pow (d : Dev) (v : VitId) (u : Job → Job) : (d.setJob v u).pow = d.pow := rfl
@[simp] theorem Dev.setJob_dbg (d : Dev) (v : VitId) (u : Job → Job) : (d.setJob v u).dbg = d.dbg := rfl
@[simp] theorem Dev.setJob_fresh (d : Dev) (v : VitId) (u : Job → Job) : (d.setJob v u).fresh = d.fresh := rfl

@[simp] theorem Dev.squashVit_ref (d : Dev) (v : VitId) : (d.squashVit v).ref = d.ref := by
  simp only [Dev.squashVit, Dev.setVit_ref]; rw [foldl_keeps Dev.ref]; intro e c; exact Dev.setCore_ref e _ _
@[simp] theorem Dev.squashVit_clk (d : Dev) (v : VitId) : (d.squashVit v).clk = d.clk := by
  simp only [Dev.squashVit, Dev.setVit_clk]; rw [foldl_keeps Dev.clk]; intro e c; exact Dev.setCore_clk e _ _
@[simp] theorem Dev.squashVit_cat (d : Dev) (v : VitId) : (d.squashVit v).cat = d.cat := by
  simp only [Dev.squashVit, Dev.setVit_cat]; rw [foldl_keeps Dev.cat]; intro e c; exact Dev.setCore_cat e _ _
@[simp] theorem Dev.squashVit_cnt (d : Dev) (v : VitId) : (d.squashVit v).cnt = d.cnt := by
  simp only [Dev.squashVit, Dev.setVit_cnt]; rw [foldl_keeps Dev.cnt]; intro e c; exact Dev.setCore_cnt e _ _
@[simp] theorem Dev.squashVit_clus (d : Dev) (v : VitId) : (d.squashVit v).clus = d.clus := by
  simp only [Dev.squashVit, Dev.setVit_clus]; rw [foldl_keeps Dev.clus]; intro e c; exact Dev.setCore_clus e _ _
@[simp] theorem Dev.squashVit_gal (d : Dev) (v : VitId) : (d.squashVit v).gal = d.gal := by
  simp only [Dev.squashVit, Dev.setVit_gal]; rw [foldl_keeps Dev.gal]; intro e c; exact Dev.setCore_gal e _ _
@[simp] theorem Dev.squashVit_msgs (d : Dev) (v : VitId) : (d.squashVit v).msgs = d.msgs := by
  simp only [Dev.squashVit, Dev.setVit_msgs]; rw [foldl_keeps Dev.msgs]; intro e c; exact Dev.setCore_msgs e _ _
@[simp] theorem Dev.squashVit_mesh (d : Dev) (v : VitId) : (d.squashVit v).mesh = d.mesh := by
  simp only [Dev.squashVit, Dev.setVit_mesh]; rw [foldl_keeps Dev.mesh]; intro e c; exact Dev.setCore_mesh e _ _
@[simp] theorem Dev.squashVit_srv (d : Dev) (v : VitId) : (d.squashVit v).srv = d.srv := by
  simp only [Dev.squashVit, Dev.setVit_srv]; rw [foldl_keeps Dev.srv]; intro e c; exact Dev.setCore_srv e _ _
@[simp] theorem Dev.squashVit_hbm (d : Dev) (v : VitId) : (d.squashVit v).hbm = d.hbm := by
  simp only [Dev.squashVit, Dev.setVit_hbm]; rw [foldl_keeps Dev.hbm]; intro e c; exact Dev.setCore_hbm e _ _
@[simp] theorem Dev.squashVit_net (d : Dev) (v : VitId) : (d.squashVit v).net = d.net := by
  simp only [Dev.squashVit, Dev.setVit_net]; rw [foldl_keeps Dev.net]; intro e c; exact Dev.setCore_net e _ _
@[simp] theorem Dev.squashVit_host (d : Dev) (v : VitId) : (d.squashVit v).host = d.host := by
  simp only [Dev.squashVit, Dev.setVit_host]; rw [foldl_keeps Dev.host]; intro e c; exact Dev.setCore_host e _ _
@[simp] theorem Dev.squashVit_rel (d : Dev) (v : VitId) : (d.squashVit v).rel = d.rel := by
  simp only [Dev.squashVit, Dev.setVit_rel]; rw [foldl_keeps Dev.rel]; intro e c; exact Dev.setCore_rel e _ _
@[simp] theorem Dev.squashVit_fw (d : Dev) (v : VitId) : (d.squashVit v).fw = d.fw := by
  simp only [Dev.squashVit, Dev.setVit_fw]; rw [foldl_keeps Dev.fw]; intro e c; exact Dev.setCore_fw e _ _
@[simp] theorem Dev.squashVit_pow (d : Dev) (v : VitId) : (d.squashVit v).pow = d.pow := by
  simp only [Dev.squashVit, Dev.setVit_pow]; rw [foldl_keeps Dev.pow]; intro e c; exact Dev.setCore_pow e _ _
@[simp] theorem Dev.squashVit_dbg (d : Dev) (v : VitId) : (d.squashVit v).dbg = d.dbg := by
  simp only [Dev.squashVit, Dev.setVit_dbg]; rw [foldl_keeps Dev.dbg]; intro e c; exact Dev.setCore_dbg e _ _
@[simp] theorem Dev.squashVit_fresh (d : Dev) (v : VitId) : (d.squashVit v).fresh = d.fresh := by
  simp only [Dev.squashVit, Dev.setVit_fresh]; rw [foldl_keeps Dev.fresh]; intro e c; exact Dev.setCore_fresh e _ _

@[simp] theorem Dev.squashStep_ref (d : Dev) (s : StepRec) (n : Nat) : (d.squashStep s n).ref = d.ref := by
  simp only [Dev.squashStep]; rw [foldl_keeps Dev.ref _ (fun e v => Dev.squashVit_ref e v), Dev.setStep_ref]
@[simp] theorem Dev.squashStep_clk (d : Dev) (s : StepRec) (n : Nat) : (d.squashStep s n).clk = d.clk := by
  simp only [Dev.squashStep]; rw [foldl_keeps Dev.clk _ (fun e v => Dev.squashVit_clk e v), Dev.setStep_clk]
@[simp] theorem Dev.squashStep_cat (d : Dev) (s : StepRec) (n : Nat) : (d.squashStep s n).cat = d.cat := by
  simp only [Dev.squashStep]; rw [foldl_keeps Dev.cat _ (fun e v => Dev.squashVit_cat e v), Dev.setStep_cat]
@[simp] theorem Dev.squashStep_cnt (d : Dev) (s : StepRec) (n : Nat) : (d.squashStep s n).cnt = d.cnt := by
  simp only [Dev.squashStep]; rw [foldl_keeps Dev.cnt _ (fun e v => Dev.squashVit_cnt e v), Dev.setStep_cnt]
@[simp] theorem Dev.squashStep_clus (d : Dev) (s : StepRec) (n : Nat) : (d.squashStep s n).clus = d.clus := by
  simp only [Dev.squashStep]; rw [foldl_keeps Dev.clus _ (fun e v => Dev.squashVit_clus e v), Dev.setStep_clus]
@[simp] theorem Dev.squashStep_gal (d : Dev) (s : StepRec) (n : Nat) : (d.squashStep s n).gal = d.gal := by
  simp only [Dev.squashStep]; rw [foldl_keeps Dev.gal _ (fun e v => Dev.squashVit_gal e v), Dev.setStep_gal]
@[simp] theorem Dev.squashStep_msgs (d : Dev) (s : StepRec) (n : Nat) : (d.squashStep s n).msgs = d.msgs := by
  simp only [Dev.squashStep]; rw [foldl_keeps Dev.msgs _ (fun e v => Dev.squashVit_msgs e v), Dev.setStep_msgs]
@[simp] theorem Dev.squashStep_mesh (d : Dev) (s : StepRec) (n : Nat) : (d.squashStep s n).mesh = d.mesh := by
  simp only [Dev.squashStep]; rw [foldl_keeps Dev.mesh _ (fun e v => Dev.squashVit_mesh e v), Dev.setStep_mesh]
@[simp] theorem Dev.squashStep_hbm (d : Dev) (s : StepRec) (n : Nat) : (d.squashStep s n).hbm = d.hbm := by
  simp only [Dev.squashStep]; rw [foldl_keeps Dev.hbm _ (fun e v => Dev.squashVit_hbm e v), Dev.setStep_hbm]
@[simp] theorem Dev.squashStep_net (d : Dev) (s : StepRec) (n : Nat) : (d.squashStep s n).net = d.net := by
  simp only [Dev.squashStep]; rw [foldl_keeps Dev.net _ (fun e v => Dev.squashVit_net e v), Dev.setStep_net]
@[simp] theorem Dev.squashStep_host (d : Dev) (s : StepRec) (n : Nat) : (d.squashStep s n).host = d.host := by
  simp only [Dev.squashStep]; rw [foldl_keeps Dev.host _ (fun e v => Dev.squashVit_host e v), Dev.setStep_host]
@[simp] theorem Dev.squashStep_rel (d : Dev) (s : StepRec) (n : Nat) : (d.squashStep s n).rel = d.rel := by
  simp only [Dev.squashStep]; rw [foldl_keeps Dev.rel _ (fun e v => Dev.squashVit_rel e v), Dev.setStep_rel]
@[simp] theorem Dev.squashStep_fw (d : Dev) (s : StepRec) (n : Nat) : (d.squashStep s n).fw = d.fw := by
  simp only [Dev.squashStep]; rw [foldl_keeps Dev.fw _ (fun e v => Dev.squashVit_fw e v), Dev.setStep_fw]
@[simp] theorem Dev.squashStep_pow (d : Dev) (s : StepRec) (n : Nat) : (d.squashStep s n).pow = d.pow := by
  simp only [Dev.squashStep]; rw [foldl_keeps Dev.pow _ (fun e v => Dev.squashVit_pow e v), Dev.setStep_pow]
@[simp] theorem Dev.squashStep_dbg (d : Dev) (s : StepRec) (n : Nat) : (d.squashStep s n).dbg = d.dbg := by
  simp only [Dev.squashStep]; rw [foldl_keeps Dev.dbg _ (fun e v => Dev.squashVit_dbg e v), Dev.setStep_dbg]
@[simp] theorem Dev.squashStep_fresh (d : Dev) (s : StepRec) (n : Nat) : (d.squashStep s n).fresh = d.fresh := by
  simp only [Dev.squashStep]; rw [foldl_keeps Dev.fresh _ (fun e v => Dev.squashVit_fresh e v), Dev.setStep_fresh]

theorem Dev.disp_trace (d : Dev) (v w : VitId) (k i n : Nat) : ((d.trace v k i n).vit w).disp = (d.vit w).disp := by
  simp only [Dev.trace]; split
  · rfl
  · rename_i t r _
    have h : ((d.setVit v (fun u => { u with trace := t })).vit w).disp = (d.vit w).disp := by
      by_cases e : w = v
      · subst e; rw [Dev.vit_setVit]
      · rw [Dev.vit_setVit_ne _ _ _ _ e]
    cases r
    · exact h
    · exact h

/-! ### The exception of a step outlives its squash (R65) -/

theorem Dev.core_setVit (d : Dev) (v : VitId) (f : Vit → Vit) (c : CoreId) : (d.setVit v f).core c = d.core c := rfl
theorem Dev.core_count (d : Dev) (i s r n : Nat) (c : CoreId) : (d.count i s r n).core c = d.core c := rfl
theorem Dev.core_trace (d : Dev) (v : VitId) (k i n : Nat) (c : CoreId) : (d.trace v k i n).core c = d.core c := by
  simp only [Dev.core, Dev.trace_cores]

theorem Dev.exc_setCore_squash (d : Dev) (c e : CoreId) : ((d.setCore c Core.squash).core e).exc = (d.core e).exc := by
  by_cases h : e = c
  · subst h; rw [Dev.core_setCore]; rfl
  · rw [Dev.core_setCore_ne _ _ _ _ h]

theorem Dev.exc_squashVit (d : Dev) (v : VitId) (c : CoreId) : ((d.squashVit v).core c).exc = (d.core c).exc := by
  simp only [Dev.squashVit, Dev.core_setVit]
  exact foldl_keeps (fun e : Dev => (e.core c).exc) _ (fun e k => Dev.exc_setCore_squash e _ c) _ _

theorem Dev.exc_squashStep (d : Dev) (s : StepRec) (n : Nat) (c : CoreId) : ((d.squashStep s n).core c).exc = (d.core c).exc := by
  simp only [Dev.squashStep]
  rw [foldl_keeps (fun e : Dev => (e.core c).exc) _ (fun e v => Dev.exc_squashVit e v c)]; rfl

end Sys2Proof.Machine
end

