-- ==== Sys2Proof/Laws/Group.lean ====
section
/-! SUPPORT. What a change of one thread group leaves and gives back, and what a group instruction answers while its group may issue. -/

namespace Sys2Proof.Machine

/-! ### Lists -/

theorem getElem?_setNth {α : Type} (l : List α) (i j : Nat) (v : α) :
    (setNth l i v)[j]? = if i = j then (l[j]?).map (fun _ => v) else l[j]? := by
  induction l generalizing i j with
  | nil => simp [setNth]
  | cons x l ih =>
    cases i with
    | zero => cases j with
      | zero => simp [setNth]
      | succ j => simp [setNth]
    | succ i => cases j with
      | zero => simp [setNth]
      | succ j => simp [setNth, ih]

/-! ### Blocks -/

theorem Dev.blk_setBlk (d : Dev) (c : CoreId) (sl : Nat) (b : Block) : (d.setBlk c sl b).blk c sl = some b := by
  simp [Dev.blk, Dev.setBlk]

theorem Dev.blk_setBlk_ne (d : Dev) (c e : CoreId) (sl k : Nat) (b : Block) (h : e ≠ c ∨ k ≠ sl) :
    (d.setBlk c sl b).blk e k = d.blk e k := by
  by_cases hc : e = c
  · subst hc
    simp only [Dev.blk, Dev.setBlk, Dev.core_setCore]
    exact kfind_kset_ne _ _ _ _ (by rcases h with h | h; exact absurd rfl h; exact h)
  · simp only [Dev.blk, Dev.setBlk, Dev.core_setCore_ne _ _ _ _ hc]

theorem Dev.blk_updBlk (d : Dev) (c : CoreId) (sl : Nat) (f : Block → Block) : (d.updBlk c sl f).blk c sl = (d.blk c sl).map f := by
  simp only [Dev.updBlk]; split
  · rename_i b h; rw [Dev.blk_setBlk, h]; rfl
  · rename_i h; rw [h]; rfl

theorem Dev.blk_updBlk_ne (d : Dev) (c e : CoreId) (sl k : Nat) (f : Block → Block) (h : e ≠ c ∨ k ≠ sl) :
    (d.updBlk c sl f).blk e k = d.blk e k := by
  simp only [Dev.updBlk]; split
  · exact Dev.blk_setBlk_ne d c e sl k _ h
  · rfl

/-- A change of one block touches the cores alone, and of them its own. -/
theorem Dev.updBlk_eq (d : Dev) (c : CoreId) (sl : Nat) (f : Block → Block) :
    d.updBlk c sl f = { d with cores := (d.updBlk c sl f).cores } := by
  simp only [Dev.updBlk]; split <;> rfl

theorem Dev.core_updBlk_ne (d : Dev) (c e : CoreId) (sl : Nat) (f : Block → Block) (h : e ≠ c) : (d.updBlk c sl f).core e = d.core e := by
  simp only [Dev.updBlk]; split
  · simp only [Dev.setBlk]; exact Dev.core_setCore_ne d c e _ h
  · rfl

/-! ### Groups -/

theorem Dev.updGrp_eq (d : Dev) (g : GRef) (f : Group → Group) : d.updGrp g f = { d with cores := (d.updGrp g f).cores } :=
  Dev.updBlk_eq d _ _ _

theorem Dev.stepGrp_eq (d : Dev) (g : GRef) (f : Group → Group) : d.stepGrp g f = { d with cores := (d.stepGrp g f).cores } := by
  simp only [Dev.stepGrp]; rw [Dev.updBlk_eq, Dev.updGrp_eq]

theorem Dev.core_stepGrp_ne (d : Dev) (g : GRef) (e : CoreId) (f : Group → Group) (h : e ≠ g.core) : (d.stepGrp g f).core e = d.core e := by
  simp only [Dev.stepGrp, Dev.updGrp]; rw [Dev.core_updBlk_ne _ _ _ _ _ h, Dev.core_updBlk_ne _ _ _ _ _ h]

theorem Dev.grp_iff (d : Dev) (g : GRef) (b : Block) (q : Group) :
    d.grp g = some (b, q) ↔ d.blk g.core g.slot.toNat = some b ∧ b.groups[g.grp.toNat]? = some q := by
  simp only [Dev.grp]; split
  · rename_i b' h; rw [h]
    constructor
    · intro e
      obtain ⟨q', hq, he⟩ := Option.map_eq_some_iff.1 e
      cases he; exact ⟨rfl, hq⟩
    · rintro ⟨he, hq⟩; cases he; rw [hq]; rfl
  · rename_i h; simp [h]

/-- A changed group reads back as changed. -/
theorem Dev.groupOf_updGrp (d : Dev) (g : GRef) (f : Group → Group) (b : Block) (q : Group) (h : d.grp g = some (b, q)) :
    (d.updGrp g f).groupOf g = f q := by
  obtain ⟨hb, hq⟩ := (Dev.grp_iff d g b q).1 h
  have : (d.updGrp g f).grp g = some ({ b with groups := setNth b.groups g.grp.toNat (f q) }, f q) := by
    rw [Dev.grp_iff, Dev.updGrp, Dev.blk_updBlk, hb]
    simp only [Option.map_some, hq, true_and]
    rw [getElem?_setNth]; simp [hq]
  simp [Dev.groupOf, this]

/-- A group that a step changed reads back as changed; it leaves the active set when it has no running path. -/
theorem Dev.groupOf_stepGrp (d : Dev) (g : GRef) (f : Group → Group) (b : Block) (q : Group) (h : d.grp g = some (b, q)) :
    (d.stepGrp g f).groupOf g = (f q).settled := by
  obtain ⟨hb, hq⟩ := (Dev.grp_iff d g b q).1 h
  have : ∃ b', (d.stepGrp g f).grp g = some (b', (f q).settled) := by
    refine ⟨Block.refresh { b with groups := setNth b.groups g.grp.toNat (f q) } (d.cycOf g.core), (Dev.grp_iff _ _ _ _).2 ⟨?_, ?_⟩⟩
    · rw [Dev.stepGrp, Dev.blk_updBlk, Dev.updGrp, Dev.blk_updBlk, hb]
      simp only [Option.map_some, hq]
    · simp only [Block.refresh, List.getElem?_map, getElem?_setNth, hq]; simp [Group.settled]
  obtain ⟨b', h'⟩ := this
  simp [Dev.groupOf, h']

/-! ### Group instructions -/

/-- An instruction's use of its issue slot touches its core's slots and units alone. -/
theorem Dev.issue_eq (d : Dev) (g : GRef) (cls : IClass) : d.issue g cls = { d with cores := (d.issue g cls).cores } := rfl

theorem Dev.core_issue (d : Dev) (g : GRef) (cls : IClass) (c : CoreId) :
    (d.issue g cls).core c = { d.core c with issued := ((d.issue g cls).core c).issued, busy := ((d.issue g cls).core c).busy } := by
  simp only [Dev.issue, Dev.occupy]
  by_cases h : c = g.core
  · subst h; simp
  · rw [Dev.core_setCore_ne _ _ _ _ h, Dev.core_setCore_ne _ _ _ _ h]

@[simp] theorem Dev.blk_issue (d : Dev) (g : GRef) (cls : IClass) (c : CoreId) (k : Nat) : (d.issue g cls).blk c k = d.blk c k := by
  simp only [Dev.blk]; rw [Dev.core_issue]
@[simp] theorem Dev.grp_issue (d : Dev) (g : GRef) (cls : IClass) (h : GRef) : (d.issue g cls).grp h = d.grp h := by
  simp only [Dev.grp, Dev.blk_issue]

@[simp] theorem Dev.issue_ref (d : Dev) (g : GRef) (cls : IClass) : (d.issue g cls).ref = d.ref := rfl
@[simp] theorem Dev.issue_clk (d : Dev) (g : GRef) (cls : IClass) : (d.issue g cls).clk = d.clk := rfl
@[simp] theorem Dev.issue_cat (d : Dev) (g : GRef) (cls : IClass) : (d.issue g cls).cat = d.cat := rfl
@[simp] theorem Dev.issue_cnt (d : Dev) (g : GRef) (cls : IClass) : (d.issue g cls).cnt = d.cnt := rfl
@[simp] theorem Dev.issue_vits (d : Dev) (g : GRef) (cls : IClass) : (d.issue g cls).vits = d.vits := rfl
@[simp] theorem Dev.issue_clus (d : Dev) (g : GRef) (cls : IClass) : (d.issue g cls).clus = d.clus := rfl
@[simp] theorem Dev.issue_gal (d : Dev) (g : GRef) (cls : IClass) : (d.issue g cls).gal = d.gal := rfl
@[simp] theorem Dev.issue_msgs (d : Dev) (g : GRef) (cls : IClass) : (d.issue g cls).msgs = d.msgs := rfl
@[simp] theorem Dev.issue_mesh (d : Dev) (g : GRef) (cls : IClass) : (d.issue g cls).mesh = d.mesh := rfl
@[simp] theorem Dev.issue_srv (d : Dev) (g : GRef) (cls : IClass) : (d.issue g cls).srv = d.srv := rfl
@[simp] theorem Dev.issue_fab (d : Dev) (g : GRef) (cls : IClass) : (d.issue g cls).fab = d.fab := rfl
@[simp] theorem Dev.issue_hbm (d : Dev) (g : GRef) (cls : IClass) : (d.issue g cls).hbm = d.hbm := rfl
@[simp] theorem Dev.issue_net (d : Dev) (g : GRef) (cls : IClass) : (d.issue g cls).net = d.net := rfl
@[simp] theorem Dev.issue_host (d : Dev) (g : GRef) (cls : IClass) : (d.issue g cls).host = d.host := rfl
@[simp] theorem Dev.issue_rel (d : Dev) (g : GRef) (cls : IClass) : (d.issue g cls).rel = d.rel := rfl
@[simp] theorem Dev.issue_fw (d : Dev) (g : GRef) (cls : IClass) : (d.issue g cls).fw = d.fw := rfl
@[simp] theorem Dev.issue_pow (d : Dev) (g : GRef) (cls : IClass) : (d.issue g cls).pow = d.pow := rfl
@[simp] theorem Dev.issue_dbg (d : Dev) (g : GRef) (cls : IClass) : (d.issue g cls).dbg = d.dbg := rfl
@[simp] theorem Dev.issue_fresh (d : Dev) (g : GRef) (cls : IClass) : (d.issue g cls).fresh = d.fresh := rfl

@[simp] theorem Dev.cyc_issue (d : Dev) (g : GRef) (cls : IClass) (i : Nat) : (d.issue g cls).cyc i = d.cyc i := rfl
@[simp] theorem Dev.vit_issue (d : Dev) (g : GRef) (cls : IClass) (v : VitId) : (d.issue g cls).vit v = d.vit v := rfl
@[simp] theorem Dev.vset_issue (d : Dev) (g : GRef) (cls : IClass) (v : VitId) (i s : Nat) : (d.issue g cls).vset v i s = d.vset v i s := rfl
@[simp] theorem Dev.runs_issue (d : Dev) (g : GRef) (cls : IClass) (i : Nat) : (d.issue g cls).runs i = d.runs i := rfl
@[simp] theorem Dev.cycOf_issue (d : Dev) (g : GRef) (cls : IClass) (c : CoreId) : (d.issue g cls).cycOf c = d.cycOf c := rfl
@[simp] theorem Dev.place_issue (d : Dev) (g : GRef) (cls : IClass) (a : Nat) : (d.issue g cls).place a = d.place a := rfl
@[simp] theorem Dev.gline_issue (d : Dev) (g : GRef) (cls : IClass) (l : Nat) : (d.issue g cls).gline l = d.gline l := rfl
@[simp] theorem Dev.stepOn_issue (d : Dev) (g : GRef) (cls : IClass) (v : VitId) : (d.issue g cls).stepOn v = d.stepOn v := rfl
@[simp] theorem Dev.exc_issue (d : Dev) (g : GRef) (cls : IClass) (c : CoreId) : ((d.issue g cls).core c).exc = (d.core c).exc := by rw [Dev.core_issue]
theorem Dev.core_issue_ne (d : Dev) (g : GRef) (cls : IClass) (c : CoreId) (h : c ≠ g.core) : (d.issue g cls).core c = d.core c := by
  simp only [Dev.issue, Dev.occupy]; rw [Dev.core_setCore_ne _ _ _ _ h, Dev.core_setCore_ne _ _ _ _ h]

/-- The frame of what follows the use of an issue slot is the instruction's frame. -/
theorem Keeps.of_issue {l : List Part} {s t : State} {g : GRef} {cls : IClass} (h : Keeps l { s with dev := s.dev.issue g cls } t) (hc : Part.cores ∈ l) :
    Keeps l s t :=
  ⟨h.1, fun p hp => Part.Same.trans (t := { s with dev := s.dev.issue g cls }) (by cases p <;> first | rfl | exact absurd hc hp) (h.2 p hp)⟩

/-- A group instruction whose group may issue answers the next state of its effect, once it has used its issue slot. -/
theorem onGroup_issues (s : State) (g : GRef) (cls : IClass) (f : Block → Group → RPath → X → X) (b : Block) (q : Group) (p : RPath)
    (h : s.dev.Issues g cls b q p) : onGroup s g cls f = run { s with dev := s.dev.issue g cls } (f b q p) := by
  obtain ⟨hi, hg, hp, hu⟩ := h
  obtain ⟨l, hl⟩ : ∃ l, q.paths = p :: l := by
    cases hq : q.paths with
    | nil => rw [hq] at hp; simp at hp
    | cons a l => rw [hq] at hp; simp at hp; exact ⟨l, by rw [hp]⟩
  obtain ⟨i, hs, hui⟩ : ∃ i, s.dev.slotOf g = some i ∧ i.upset = .none := by
    cases hs : s.dev.slotOf g with
    | none => rw [hs] at hu; simp at hu
    | some i => rw [hs] at hu; exact ⟨i, rfl, by simpa using hu⟩
  simp only [onGroup, run, if_pos hi, hg, hs, hl, hui, X.on]

/-- Registers below the block's r that await nothing let the instruction go on. -/
theorem X.withRegs_ready (x : X) (g : GRef) (b : Block) (q : Group) (p : RPath) (l : List Nat) (f : X → X)
    (hq : b.groups[g.grp.toNat]? = some q) (h : Ready b q l) : x.withRegs g b p l f = f x := by
  obtain ⟨hr, hb⟩ := h
  have h1 : b.badReg l = none := by
    simp only [Block.badReg, List.find?_eq_none, decide_eq_true_eq, Nat.not_le]; exact hr
  simp only [X.withRegs, h1, hq]
  rw [if_neg]
  simp only [List.any_eq_true, not_exists, not_and, Bool.not_eq_true, List.contains_eq_mem, decide_eq_false_iff_not]
  exact fun r hr hm => hb r hr hm

/-- A group instruction over ready registers answers the next state of its effect. -/
theorem run_withRegs (s : State) (g : GRef) (b : Block) (q : Group) (p : RPath) (l : List Nat) (f : X → X)
    (h : s.dev.grp g = some (b, q)) (hl : Ready b q l) : run s (fun x => x.withRegs g b p l f) = run s f := by
  have hq := ((Dev.grp_iff _ _ _ _).1 h).2
  simp only [run, X.withRegs_ready _ g b q p l f hq hl]

/-- Effects that agree on the state answer alike. -/
theorem run_congr (s : State) (f f' : X → X)
    (h : f { dev := s.dev, mem := s.mem, mram := s.mram } = f' { dev := s.dev, mem := s.mem, mram := s.mram }) : run s f = run s f' := by
  simp only [run, h]

/-- What a change of the machine alone answers: memory and the MRAM stand. -/
theorem run_on (s : State) (f : Dev → Dev) : run s (fun x => x.on f) = .next { s with dev := f s.dev } := rfl

/-- A result that passes the check of R61 is written. -/
@[simp] theorem X.vecCheck_true (x : X) (g : GRef) (p : RPath) (f : X → X) : x.vecCheck g p true f = f x := rfl

theorem Dev.grp_cvtEvents (d : Dev) (v : VitId) (l : List Cvt) (g : GRef) : (d.cvtEvents v l).grp g = d.grp g := rfl

/-- What a change of one group's state alone answers. -/
theorem run_on_stepGrp (s : State) (g : GRef) (f : Group → Group) :
    run s (fun x => x.on (fun d => d.stepGrp g f)) = .next { s with dev := s.dev.stepGrp g f } := rfl

/-- When every active lane's address resolves, the instruction goes on with the lanes' targets. -/
theorem X.resolveAll_ok (x : X) (g : GRef) (b : Block) (p : RPath) (sp : Space) (n : Nat) (addr : Nat → Nat) (f : List (Nat × Nat) → X → X)
    (ts : List (Nat × Nat)) (h : (bits p.mask).map (fun l => (l, x.dev.resolve g.core b sp (addr l) n)) = ts.map (fun e => (e.1, Target'.ok e.2))) :
    x.resolveAll g b p sp n addr f = f ts x := by
  have hrs : (bits p.mask).map (fun l => (l, addr l, x.dev.resolve g.core b sp (addr l) n)) = ts.map (fun e => (e.1, addr e.1, Target'.ok e.2)) := by
    have := congrArg (List.map (fun e : Nat × Target' => (e.1, addr e.1, e.2))) h
    simpa [Function.comp_def] using this
  simp only [X.resolveAll, hrs]
  have h1 : ∀ (P : Nat × Nat × Target' → Bool), (∀ a b t, P (a, b, .ok t) = false) → (ts.map (fun e => (e.1, addr e.1, Target'.ok e.2))).find? P = none := by
    intro P hP
    rw [List.find?_eq_none]
    intro r hr
    obtain ⟨e, _, rfl⟩ := List.mem_map.1 hr
    simp [hP]
  have h2 : ∀ (P : Nat × Nat × Target' → Option (Nat × Nat)), (∀ a b t, P (a, b, .ok t) = some (a, t)) →
      (ts.map (fun e => (e.1, addr e.1, Target'.ok e.2))).filterMap P = ts := by
    intro P hP
    clear h hrs h1
    induction ts with
    | nil => rfl
    | cons e l ih => simp only [List.map_cons, List.filterMap_cons, hP, ih]
  rw [h1]
  · show f _ x = f ts x
    congr 1
    exact h2 _ (fun _ _ _ => rfl)
  · intro a b t; rfl

end Sys2Proof.Machine
end

