-- ==== Sys2Proof/Laws/Vector.lean ====
section
/-! SUPPORT. What a vector instruction writes, lane by lane, and what a group instruction's exception leaves. -/

namespace Sys2Proof.Machine

theorem mem_bits {w : Nat} (m : BitVec w) (i : Nat) : i ∈ bits m ↔ m.getLsbD i = true := by
  simp only [bits, List.mem_filter, List.mem_range]
  exact ⟨fun h => h.2, fun h => ⟨BitVec.lt_of_getLsbD h, h⟩⟩

theorem bits_lt {w : Nat} (m : BitVec w) (i : Nat) (h : i ∈ bits m) : i < w := by
  simp only [bits, List.mem_filter, List.mem_range] at h; exact h.1

/-- A bit put at a place reads back there and leaves the others. -/
theorem getLsbD_putBit {w : Nat} (m : BitVec w) (i j : Nat) (b : Bool) (hi : i < w) :
    (putBit m i b).getLsbD j = if j = i then b else m.getLsbD j := by
  have h2 : (BitVec.ofNat w (2 ^ i)).getLsbD j = decide (j < w ∧ i = j) := by
    simp only [BitVec.getLsbD_ofNat, Nat.testBit_two_pow]
    by_cases h : i = j <;> simp [h]
  simp only [putBit, bit1]; split
  · rename_i hb; subst hb
    simp only [BitVec.getLsbD_or, h2]
    by_cases h : j = i
    · subst h; simp [hi]
    · simp [h, Ne.symm h]
  · rename_i hb
    simp only [BitVec.getLsbD_and, BitVec.getLsbD_not, h2]
    by_cases h : j = i
    · subst h; simp [hi]; simpa using hb
    · simp only [h, if_false, Ne.symm h, and_false, decide_false, Bool.not_false, Bool.and_true]
      by_cases hj : j < w
      · simp [hj]
      · simp [hj, BitVec.getLsbD_of_ge m j (by omega)]

/-- Registers after a run of lanes is written. -/
theorem kget_lanes (L : List Nat) (m : KMap Word) (dst r l : Nat) (w : Nat → Word) (hL : ∀ x ∈ L, x < 32) (hl : l < 32) :
    kget 0 (L.foldl (fun s l => kset s (dst * 32 + l) (w l)) m) (r * 32 + l) = if r = dst ∧ l ∈ L then w l else kget 0 m (r * 32 + l) := by
  induction L generalizing m with
  | nil => simp
  | cons x L ih =>
    have hx := hL x (List.mem_cons_self)
    rw [List.foldl_cons, ih _ (fun y hy => hL y (List.mem_cons_of_mem _ hy))]
    by_cases h1 : r = dst
    · subst h1
      by_cases h2 : l ∈ L
      · simp [h2]
      · by_cases h3 : l = x
        · subst h3; simp [h2]
        · simp only [h2, h3, List.mem_cons, or_self, and_false, if_false]
          exact kget_kset_ne _ _ _ _ _ (by omega)
    · simp only [h1, false_and, if_false]
      exact kget_kset_ne _ _ _ _ _ (by omega)

/-- Writing words lane by lane changes the registers and the flags alone. -/
theorem foldl_words (L : List Nat) (q : Group) (dst : Nat) (w : Nat → Word) (fl : Nat → Flags) :
    L.foldl (fun (h : Group) l => { h.setReg dst l (w l) with flags := h.flags ||| fl l }) q =
      { q with regs := L.foldl (fun s l => kset s (dst * 32 + l) (w l)) q.regs, flags := L.foldl (fun f l => f ||| fl l) q.flags } := by
  induction L generalizing q with
  | nil => rfl
  | cons x L ih => rw [List.foldl_cons, ih]; rfl

/-- Writing predicate bits lane by lane changes that predicate and the flags alone. -/
theorem foldl_preds (L : List Nat) (q : Group) (dst : Nat) (v : Nat → Bool) (fl : Nat → Flags) :
    L.foldl (fun (h : Group) l => { h.setPred dst l (v l) with flags := h.flags ||| fl l }) q =
      { q with preds := L.foldl (fun s l => kset s dst (putBit (kget 0 s dst) l (v l))) q.preds, flags := L.foldl (fun f l => f ||| fl l) q.flags } := by
  induction L generalizing q with
  | nil => rfl
  | cons x L ih => rw [List.foldl_cons, ih]; rfl

/-- The predicate bits after a run of lanes is written. -/
theorem kget_preds (L : List Nat) (m : KMap Mask) (dst l : Nat) (v : Nat → Bool) (hL : ∀ x ∈ L, x < 32) :
    (kget 0 (L.foldl (fun s l => kset s dst (putBit (kget 0 s dst) l (v l))) m) dst).getLsbD l = if l ∈ L then v l else (kget 0 m dst).getLsbD l := by
  induction L generalizing m with
  | nil => simp
  | cons x L ih =>
    rw [List.foldl_cons, ih _ (fun y hy => hL y (List.mem_cons_of_mem _ hy)), kget_kset, getLsbD_putBit _ _ _ _ (hL x List.mem_cons_self)]
    by_cases h2 : l ∈ L
    · simp [h2]
    · by_cases h3 : l = x
      · subst h3; simp [h2]
      · simp [h2, h3]

/-- No other predicate changes. -/
theorem kget_preds_ne (L : List Nat) (m : KMap Mask) (dst k : Nat) (v : Nat → Bool) (h : k ≠ dst) :
    kget 0 (L.foldl (fun s l => kset s dst (putBit (kget 0 s dst) l (v l))) m) k = kget 0 m k :=
  foldl_keeps (fun s => kget (0 : Mask) s k) _ (fun _ _ => kget_kset_ne _ _ _ _ _ h) L m

theorem Group.next_eq (q : Group) (p : RPath) (l : List RPath) (h : q.paths = p :: l) :
    q.next = { q with paths := { p with pc := Config.pcNext p.pc } :: l } := by
  simp only [Group.next, h]

theorem Group.settled_eq (q : Group) : q.settled = { q with active := q.settled.active } := by
  simp only [Group.settled]; split <;> rfl

theorem paths_of_head {q : Group} {p : RPath} (h : q.paths.head? = some p) : q.paths = p :: q.paths.tail := by
  cases hq : q.paths with
  | nil => rw [hq] at h; simp at h
  | cons a l => rw [hq] at h; simp at h; simp [h]

/-- A vector write of words, read back after the group has settled. -/
theorem wrote_vwrite (q : Group) (p : RPath) (dst : Nat) (w : Nat → Word) (fl : Nat → Flags) (h : q.paths.head? = some p) :
    Wrote q (q.vwrite dst p.mask (fun l => .word (w l) (fl l))).settled p dst w fl := by
  have hp := paths_of_head h
  have e : q.vwrite dst p.mask (fun l => .word (w l) (fl l)) =
      { q with regs := (bits p.mask).foldl (fun s l => kset s (dst * 32 + l) (w l)) q.regs,
               flags := (bits p.mask).foldl (fun f l => f ||| fl l) q.flags,
               paths := { p with pc := Config.pcNext p.pc } :: q.paths.tail } := by
    simp only [Group.vwrite]
    rw [foldl_words]; exact Group.next_eq _ p q.paths.tail hp
  rw [Group.settled_eq, e]
  refine ⟨fun r l hl => ?_, rfl, rfl⟩
  simp only [Group.reg]
  rw [kget_lanes _ _ _ _ _ _ (fun x hx => bits_lt _ _ hx) hl]
  simp only [mem_bits]

/-- One value per lane written by an instruction without flags, read back after the group has settled. -/
theorem wrote_setLanes (q : Group) (p : RPath) (dst : Nat) (w : Nat → Word) (h : q.paths.head? = some p) :
    Wrote q ((q.setLanes dst p.mask w).next).settled p dst w (fun _ => 0) := by
  have hp := paths_of_head h
  rw [Group.next_eq (q.setLanes dst p.mask w) p q.paths.tail hp, Group.settled_eq]
  refine ⟨fun r l hl => ?_, ?_, rfl⟩
  · simp only [Group.reg, Group.setLanes]
    rw [kget_lanes _ _ _ _ _ _ (fun x hx => bits_lt _ _ hx) hl]
    simp only [mem_bits]
  · simp only [Group.setLanes]
    exact (foldl_keeps (fun f : Flags => f) (fun f _ => f ||| 0) (fun a _ => by simp) _ _).symm

/-- Changing a group's state alone. -/
theorem onlyGroup_stepGrp (s : State) (g : GRef) (f : Group → Group) : OnlyGroup g s { s with dev := s.dev.stepGrp g f } := by
  refine ⟨⟨rfl, fun p hp => ?_⟩, fun c hc => Dev.core_stepGrp_ne _ _ _ _ hc, fun k hk => ?_⟩
  · cases p <;> simp at hp <;> simp [Part.Same]
  · show (s.dev.stepGrp g f).blk g.core k = _
    simp only [Dev.stepGrp, Dev.updGrp]
    rw [Dev.blk_updBlk_ne _ _ _ _ _ _ (Or.inr hk), Dev.blk_updBlk_ne _ _ _ _ _ _ (Or.inr hk)]

/-- An instruction that changes its group alone changes no more of the machine than its core's issue slots and units beside. -/
theorem onlyGroup_issue (s : State) (g : GRef) (cls : IClass) (f : Group → Group) : OnlyGroup g s { s with dev := (s.dev.issue g cls).stepGrp g f } := by
  have h := onlyGroup_stepGrp { s with dev := s.dev.issue g cls } g f
  refine ⟨⟨rfl, fun p hp => ?_⟩, fun c hc => ?_, fun k hk => ?_⟩
  · exact Part.Same.trans (t := { s with dev := s.dev.issue g cls }) (by cases p <;> first | rfl | simp at hp) (h.1.2 p hp)
  · rw [h.2.1 c hc]; simp only [Dev.issue, Dev.occupy]; rw [Dev.core_setCore_ne _ _ _ _ hc, Dev.core_setCore_ne _ _ _ _ hc]
  · rw [h.2.2 k hk]; exact Dev.blk_issue _ _ _ _ _

/-! ### Exceptions -/

theorem updFirst_mem {α : Type} (P : α → Bool) (f : α → α) (l : List α) (a : α) (ha : a ∈ l) (hp : P a = true) :
    ∃ b ∈ updFirst P f l, ∃ c ∈ l, P c = true ∧ b = f c := by
  induction l with
  | nil => simp at ha
  | cons x l ih =>
    simp only [updFirst]
    by_cases h : P x = true
    · exact ⟨f x, by simp [h], x, by simp, h, rfl⟩
    · rcases List.mem_cons.1 ha with rfl | ha
      · exact absurd hp h
      · obtain ⟨b, hb, c, hc, hpc, e⟩ := ih ha
        exact ⟨b, by simp [h, hb], c, List.mem_cons_of_mem _ hc, hpc, e⟩

theorem vitOfCore_mem (c : CoreId) : c.toNat ∈ coresOfVit (vitOfCore c) := by
  have := c.isLt
  simp only [coresOfVit, List.mem_map, List.mem_range, vitOfCore, BitVec.toNat_ofNat]
  exact ⟨c.toNat % 16, by omega, by omega⟩

/-- The cores after a squash of a Vitrine's work. -/
theorem core_squashVit (d : Dev) (v : VitId) (c : CoreId) :
    (d.squashVit v).core c = ((coresOfVit v).foldl (fun (e : Dev) n => e.setCore (BitVec.ofNat 9 n) Core.squash) d).core c := by
  simp only [Dev.squashVit, Dev.core_setVit]; rfl

theorem slots_squashVit_self (d : Dev) (c : CoreId) : ((d.squashVit (vitOfCore c)).core c).slots = [] := by
  have key : ∀ (l : List Nat) (e : Dev), c.toNat ∈ l ∨ (e.core c).slots = [] →
      ((l.foldl (fun e n => e.setCore (BitVec.ofNat 9 n) Core.squash) e).core c).slots = [] := by
    intro l
    induction l with
    | nil => intro e h; simpa using h
    | cons n l ih =>
      intro e h
      rw [List.foldl_cons]; apply ih
      by_cases hn : (BitVec.ofNat 9 n : CoreId) = c
      · right; rw [hn, Dev.core_setCore]; rfl
      · rw [Dev.core_setCore_ne _ _ _ _ (Ne.symm hn)]
        rcases h with h | h
        · rcases List.mem_cons.1 h with rfl | h
          · exact absurd (by simp) hn
          · exact Or.inl h
        · exact Or.inr h
  rw [core_squashVit]; exact key _ _ (Or.inl (vitOfCore_mem c))

theorem slots_squashVit (d : Dev) (v : VitId) (c : CoreId) (h : (d.core c).slots = []) : ((d.squashVit v).core c).slots = [] := by
  have key : ∀ (l : List Nat) (e : Dev), (e.core c).slots = [] → ((l.foldl (fun e n => e.setCore (BitVec.ofNat 9 n) Core.squash) e).core c).slots = [] := by
    intro l
    induction l with
    | nil => intro e h; exact h
    | cons n l ih =>
      intro e h
      rw [List.foldl_cons]; apply ih
      by_cases hn : (BitVec.ofNat 9 n : CoreId) = c
      · rw [hn, Dev.core_setCore]; rfl
      · rw [Dev.core_setCore_ne _ _ _ _ (Ne.symm hn)]; exact h
  rw [core_squashVit]; exact key _ _ h

theorem slots_squashStep (d : Dev) (st : StepRec) (n : Nat) (c : CoreId) (h : st.mask.getLsbD (vitOfCore c).toNat = true) :
    ((d.squashStep st n).core c).slots = [] := by
  have key : ∀ (l : List VitId) (e : Dev), vitOfCore c ∈ l ∨ (e.core c).slots = [] → ((l.foldl (fun e v => e.squashVit v) e).core c).slots = [] := by
    intro l
    induction l with
    | nil => intro e h; simpa using h
    | cons n l ih =>
      intro e h
      rw [List.foldl_cons]; apply ih
      rcases h with h | h
      · rcases List.mem_cons.1 h with rfl | h
        · exact Or.inr (slots_squashVit_self _ _)
        · exact Or.inl h
      · exact Or.inr (slots_squashVit _ _ _ h)
  simp only [Dev.squashStep]
  refine key _ _ (Or.inl ?_)
  simp only [vitsOf, List.mem_map, mem_bits]
  exact ⟨_, h, by simp⟩

/-- The first exception of a step, in class P: its record stands at the core, the step has met EXCEPTION and its blocks are gone (R63, R65). -/
theorem raise_first (x : X) (g : GRef) (e : ExcInfo) (b : Block) (q : Group) (st : StepRec) (hg : x.dev.grp g = some (b, q))
    (hx : (x.dev.core g.core).exc = none) (hs : x.dev.stepOn (vitOfCore g.core) = some st) (hm : st.mask.getLsbD (vitOfCore g.core).toNat = true)
    (hc : e.code < 0x40) :
    ∃ d, x.raise g e = { x with dev := d } ∧
      (d.core g.core).exc = some ⟨BitVec.ofNat 44 e.addr, BitVec.ofNat 4 e.space, e.lanes, e.pc, BitVec.ofNat 32 b.index, q.gslot, g.core,
        BitVec.ofNat 8 e.code, b.seq, BitVec.ofNat 16 b.launchIx, BitVec.ofNat 16 e.detail⟩ ∧
      (d.core g.core).slots = [] ∧
      (∀ s : State, s.dev = x.dev → Keeps [.cores, .vits, .srv, .fab, .cnt] s { s with dev := d }) ∧
      (st ∈ x.dev.srv.steps → ∃ u ∈ d.srv.steps, u.same st = true ∧ 4 ∈ u.ends) := by
  have hF : isClassF e.code = false := by simp [isClassF]; omega
  have h45 : (e.code == 0x45) = false := by simp; omega
  simp only [X.raise, X.raiseFor, Dev.recordExc, ExcInfo.rec', hg, hx, hF, h45, Option.isNone_none, if_true, X.on]
  have hv : ∀ (d : Dev) (k i n : Nat), (d.trace (vitOfCore g.core) k i n).stepOn (vitOfCore g.core) = d.stepOn (vitOfCore g.core) := by
    intro d k i n; simp only [Dev.stepOn, Dev.trace_srv]
  set rec' : ExcRec := ⟨BitVec.ofNat 44 e.addr, BitVec.ofNat 4 e.space, e.lanes, e.pc, BitVec.ofNat 32 b.index, q.gslot, g.core,
        BitVec.ofNat 8 e.code, b.seq, BitVec.ofNat 16 b.launchIx, BitVec.ofNat 16 e.detail⟩
  set d1 : Dev := ((x.dev.setCore g.core (fun k => { k with exc := some rec' })).setStep st (fun t => { t with recs := kset t.recs g.core.toNat rec' })).trace
    (vitOfCore g.core) 5 g.core.toNat (e.code + e.pc.toNat * 256) with hd1
  have hs1 : d1.stepOn (vitOfCore g.core) = ((x.dev.setCore g.core (fun k => { k with exc := some rec' })).setStep st
      (fun t => { t with recs := kset t.recs g.core.toNat rec' })).stepOn (vitOfCore g.core) := by
    rw [hd1]; exact hv _ _ _ _
  have hfind : ∃ u, d1.stepOn (vitOfCore g.core) = some u ∧ u.mask.getLsbD (vitOfCore g.core).toNat = true ∧ u.same st = true ∧ (st ∈ x.dev.srv.steps → u ∈ d1.srv.steps) := by
    have gen : ∀ (l : List StepRec) (P : StepRec → Bool) (f : StepRec → StepRec), (∀ t, P (f t) = P t) → (∀ t, (f t).mask = t.mask) →
        (∀ t, (f t).same st = t.same st) → l.find? P = some st →
        ∃ u, (updFirst (fun t => st.same t) f l).find? P = some u ∧ u.mask = st.mask ∧ u.same st = true ∧ u ∈ updFirst (fun t => st.same t) f l := by
      intro l P f hP hmk hsame
      induction l with
      | nil => intro h; simp at h
      | cons a l ih =>
        intro h
        simp only [updFirst]
        by_cases ha : P a = true
        · simp only [List.find?_cons, ha] at h; cases h
          have : st.same st = true := by simp [StepRec.same]
          simp only [this, if_true, List.find?_cons, hP, ha]
          exact ⟨f st, rfl, hmk st, by rw [hsame, this], by simp⟩
        · simp only [List.find?_cons, ha] at h
          split
          · rename_i hsm
            simp only [List.find?_cons, hP, ha]
            refine ⟨st, h, rfl, by simp [StepRec.same], List.mem_cons_of_mem _ (List.mem_of_find?_eq_some h)⟩
          · simp only [List.find?_cons, ha]
            obtain ⟨u, h1, h2, h3, h4⟩ := ih h
            exact ⟨u, h1, h2, h3, List.mem_cons_of_mem _ h4⟩
    obtain ⟨u, h1, h2, h3, h4⟩ := gen x.dev.srv.steps (fun s => s.mask.getLsbD (vitOfCore g.core).toNat && s.st != .saved)
      (fun t => { t with recs := kset t.recs g.core.toNat rec' }) (fun t => rfl) (fun t => rfl) (fun t => rfl) hs
    exact ⟨u, by rw [hs1]; exact h1, by rw [h2]; exact hm, h3, fun _ => by rw [hd1, Dev.trace_srv]; exact h4⟩
  obtain ⟨u, hu, hum, hus, humem⟩ := hfind
  refine ⟨d1.squashStep u 4, ?_, ?_, ?_, ?_, ?_⟩
  · have hs0 : (x.dev.setCore g.core (fun k => { k with exc := some rec' })).stepOn (vitOfCore g.core) = some st := hs
    simp only [hs0, ← hd1, hu, Bool.false_eq_true, if_false]
  · rw [Dev.exc_squashStep, hd1, Dev.core_trace]
    have : ((x.dev.setCore g.core (fun k => { k with exc := some rec' })).setStep st (fun t => { t with recs := kset t.recs g.core.toNat rec' })).core g.core
        = (x.dev.setCore g.core (fun k => { k with exc := some rec' })).core g.core := rfl
    rw [this, Dev.core_setCore]
  · exact slots_squashStep _ _ _ _ hum
  · intro s hsx
    refine ⟨rfl, fun p hp => ?_⟩
    cases p <;> simp at hp <;> simp [Part.Same, hsx, hd1]
  · intro hmem
    have hmem' := humem hmem
    have hk : ∀ (l : List VitId) (e : Dev), (l.foldl (fun e v => e.squashVit v) e).srv = e.srv := fun l e => foldl_keeps Dev.srv _ (fun e v => Dev.squashVit_srv e v) l e
    obtain ⟨w, hw, c, hc', hcp, he⟩ := updFirst_mem (fun t => u.same t) (fun t => { t with ends := if t.ends.contains 4 then t.ends else t.ends ++ [4], st := .running, saved := [] })
      d1.srv.steps u hmem' (by simp [StepRec.same])
    refine ⟨w, ?_, ?_, ?_⟩
    · simp only [Dev.squashStep]; rw [hk]; exact hw
    · subst he
      simp only [StepRec.same, Bool.and_eq_true, beq_iff_eq] at hcp hus ⊢
      obtain ⟨⟨a1, a2⟩, a3⟩ := hcp; obtain ⟨⟨b1, b2⟩, b3⟩ := hus
      exact ⟨⟨a1.symm.trans b1, a2.symm.trans b2⟩, a3.symm.trans b3⟩
    · subst he; simp only; split
      · rename_i h; simpa using h
      · simp

end Sys2Proof.Machine
end

