-- ==== Sys2Proof/Laws/Gal.lean ====
section
/-! SUPPORT. Everything a cacheless access of device memory can change: lines of the Gallery and of the L1s, messages, the rows open in HBM, the
counters and marks of lookups, error records, and bytes and poison of HBM and the scratchpad; nothing else of the machine. -/

namespace Sys2Proof.Machine

/-- What the traffic of lines may change between two machines. -/
structure Moves (d e : Dev) : Prop where
  dev : e = { d with vits := e.vits, cores := e.cores, gal := e.gal, cnt := e.cnt, msgs := e.msgs, mesh := e.mesh, fresh := e.fresh, hbm := e.hbm,
                     rel := e.rel }
  vit : ∀ v, e.vit v = { d.vit v with thrash := (e.vit v).thrash, pinned := (e.vit v).pinned }
  core : ∀ c, e.core c = { d.core c with l1 := (e.core c).l1 }
  hbm : e.hbm = { d.hbm with pcs := e.hbm.pcs }
  rel : e.rel = { d.rel with log := e.rel.log, next := e.rel.next, lost := e.rel.lost, heldRecs := e.rel.heldRecs }

namespace Moves

theorem refl (d : Dev) : Moves d d := ⟨rfl, fun _ => rfl, fun _ => rfl, rfl, rfl⟩

theorem trans {d e f : Dev} (h : Moves d e) (k : Moves e f) : Moves d f :=
  ⟨by rw [k.dev, h.dev], fun v => by rw [k.vit, h.vit], fun c => by rw [k.core, h.core], by rw [k.hbm, h.hbm], by rw [k.rel, h.rel]⟩

theorem foldl {β : Type} (f : Dev → β → Dev) (h : ∀ d b, Moves d (f d b)) (l : List β) (d : Dev) : Moves d (l.foldl f d) := by
  induction l generalizing d with
  | nil => exact refl d
  | cons b l ih => exact (h d b).trans (ih _)

theorem ite {d e f : Dev} {c : Prop} [Decidable c] (h : Moves d e) (k : Moves d f) : Moves d (if c then e else f) := by
  split <;> assumption

/-! #### Named updates -/

theorem with_msgs {d e : Dev} (h : Moves d e) (m : List Msg) : Moves d { e with msgs := m } :=
  h.trans ⟨rfl, fun _ => rfl, fun _ => rfl, rfl, rfl⟩
theorem with_net {d e : Dev} (h : Moves d e) (m : List Msg) (n : Mesh) : Moves d { e with msgs := m, mesh := n } :=
  h.trans ⟨rfl, fun _ => rfl, fun _ => rfl, rfl, rfl⟩
theorem with_fresh {d e : Dev} (h : Moves d e) (n : Nat) : Moves d { e with fresh := n } :=
  h.trans ⟨rfl, fun _ => rfl, fun _ => rfl, rfl, rfl⟩
theorem setSlice {d e : Dev} (h : Moves d e) (g : Nat) (f : Slice → Slice) : Moves d (e.setSlice g f) :=
  h.trans ⟨rfl, fun _ => rfl, fun _ => rfl, rfl, rfl⟩
theorem count {d e : Dev} (h : Moves d e) (i s r n : Nat) : Moves d (e.count i s r n) :=
  h.trans ⟨rfl, fun _ => rfl, fun _ => rfl, rfl, rfl⟩
theorem setGline {d e : Dev} (h : Moves d e) (line : Nat) (g : GLine) : Moves d (e.setGline line g) := h.setSlice _ _
theorem delGline {d e : Dev} (h : Moves d e) (line : Nat) : Moves d (e.delGline line) := h.setSlice _ _
theorem setHpc {d e : Dev} (h : Moves d e) (c p : Nat) (f : HPc → HPc) : Moves d (e.setHpc c p f) :=
  h.trans ⟨rfl, fun _ => rfl, fun _ => rfl, rfl, rfl⟩

theorem updGline {d e : Dev} (h : Moves d e) (line : Nat) (f : GLine → GLine) : Moves d (e.updGline line f) := by
  simp only [Dev.updGline]; split
  · exact h.setGline _ _
  · exact h

/-- A change of the error log alone. -/
theorem on_log {d e : Dev} (h : Moves d e) (f : Rel → Rel)
    (hf : ∀ q, f q = { q with log := (f q).log, next := (f q).next, lost := (f q).lost, heldRecs := (f q).heldRecs }) : Moves d (e.onRel f) :=
  h.trans ⟨rfl, fun _ => rfl, fun _ => rfl, rfl, hf _⟩

theorem logErr {d e : Dev} (h : Moves d e) (r : ErrRec) : Moves d (e.logErr r) := by
  unfold Dev.logErr
  extract_lets r' held
  split
  · split
    · exact h.on_log _ (fun _ => rfl)
    · exact h.on_log _ (fun _ => rfl)
  · exact h.on_log _ (fun q => by dsimp only)

/-- A change of one core's lines. -/
theorem on_l1 {d e : Dev} (h : Moves d e) (c : CoreId) (f : Core → Core) (hf : ∀ k, f k = { k with l1 := (f k).l1 }) : Moves d (e.setCore c f) := by
  refine h.trans ⟨rfl, fun _ => rfl, fun b => ?_, rfl, rfl⟩
  by_cases hb : b = c
  · subst hb; rw [Dev.core_setCore]; exact hf _
  · rw [Dev.core_setCore_ne _ _ _ _ hb]

theorem setL1 {d e : Dev} (h : Moves d e) (c : CoreId) (line : Nat) (l : L1Line) : Moves d (e.setL1 c line l) := h.on_l1 c _ (fun _ => rfl)
theorem delL1 {d e : Dev} (h : Moves d e) (c : CoreId) (line : Nat) : Moves d (e.delL1 c line) := h.on_l1 c _ (fun _ => rfl)

/-- A change of one Vitrine's lookup marks. -/
theorem on_vit {d e : Dev} (h : Moves d e) (v : VitId) (f : Vit → Vit) (hf : ∀ t, f t = { t with thrash := (f t).thrash, pinned := (f t).pinned }) :
    Moves d (e.setVit v f) := by
  refine h.trans ⟨rfl, fun w => ?_, fun _ => rfl, rfl, rfl⟩
  by_cases hw : w = v
  · subst hw; rw [Dev.vit_setVit]; exact hf _
  · rw [Dev.vit_setVit_ne _ _ _ _ hw]

/-- A change of the lines of every core alike, and of the messages. -/
theorem each_l1 {d e : Dev} (h : Moves d e) (m : List Msg) (f : KMap L1Line → KMap L1Line) (hf : f [] = []) :
    Moves d { e with msgs := m, cores := e.cores.map (fun c => (c.1, { c.2 with l1 := f c.2.l1 })) } := by
  refine h.trans ⟨rfl, fun _ => rfl, fun b => ?_, rfl, rfl⟩
  simp only [Dev.core]
  have key : ∀ m : List (Nat × Core), kget ({} : Core) (m.map (fun (c : Nat × Core) => (c.1, { c.2 with l1 := f c.2.l1 }))) b.toNat =
      { kget ({} : Core) m b.toNat with l1 := f (kget ({} : Core) m b.toNat).l1 } := by
    intro m
    induction m with
    | nil => simp [kget, hf]
    | cons a m ih =>
      obtain ⟨j, c⟩ := a
      simp only [List.map_cons, kget]
      split
      · rfl
      · exact ih
  rw [key e.cores]

/-! #### Operations on lines -/

theorem send {d e : Dev} (h : Moves d e) (m : Msg) : Moves d (e.send m) := by
  simp only [Dev.send]; exact h.with_net _ _

theorem taken {d e : Dev} (h : Moves d e) (m : Msg) : Moves d (e.taken m) := by
  simp only [Dev.taken]; exact h.with_net _ _

theorem take {d e : Dev} (h : Moves d e) (k : MsgKind) (line : Nat) (c : Option CoreId) : Moves d (e.take k line c) := by
  simp only [Dev.take]; split
  · exact h.taken _
  · exact h

theorem stall {d e : Dev} (h : Moves d e) (k : MsgKind) (line : Nat) (c : Option CoreId) : Moves d (e.stall k line c) := by
  simp only [Dev.stall]; split
  · exact h.with_msgs _
  · exact h

theorem turn {d e : Dev} (h : Moves d e) (k k' : MsgKind) (line : Nat) (c : CoreId) : Moves d (e.turn k k' line c) := h.with_msgs _

theorem dropL1 {d e : Dev} (h : Moves d e) (c : CoreId) (line : Nat) : Moves d (e.dropL1 c line) := by
  simp only [Dev.dropL1]; split
  · split
    · exact h.setL1 _ _ _
    · exact h
    · exact h
    · exact h.delL1 _ _
  · exact h

theorem fencedRec {d e : Dev} (h : Moves d e) (line : Nat) : Moves d (e.fencedRec line) := h.logErr _

theorem recent {d e : Dev} (h : Moves d e) (line : Nat) : Moves d (e.recent line) := h.updGline _ _

theorem finishOps {d e : Dev} (h : Moves d e) (line : Nat) : Moves d (e.finishOps line) := by
  simp only [Dev.finishOps]; split
  · split
    · exact h
    · exact (h.setSlice _ _).setGline _ _
  · exact h

theorem mergeAll {d e : Dev} (h : Moves d e) (line : Nat) (new : Line) (mask : BitVec 128) (bad : BitVec 2) : Moves d (e.mergeAll line new mask bad) := by
  simp only [Dev.mergeAll]
  refine updGline ?_ _ _
  exact h.each_l1 _ (fun l => l.map (fun (e : Nat × L1Line) =>
    if e.1 == line then (e.1, { e.2 with data := mergeLine e.2.data new mask, poison := mergePoison e.2.poison mask ||| bad }) else e)) rfl

theorem recallNow {d e : Dev} (h : Moves d e) (line : Nat) (g : GLine) (c : CoreId) (w : Bool) : Moves d (e.recallNow line g c w) := by
  simp only [Dev.recallNow]; split
  · exact ((h.turn _ _ _ _).turn _ _ _ _).setGline _ _
  · exact (h.turn _ _ _ _).setGline _ _
  · exact h
  · exact h
  · exact h.setGline _ _
  · refine setGline ?_ _ _
    split
    · exact h.delL1 _ _
    · split
      · exact h.setL1 _ _ _
      · exact h

theorem invNow {d e : Dev} (h : Moves d e) (line : Nat) (g : GLine) : Moves d (e.invNow line g) := by
  simp only [Dev.invNow]
  have h1 : Moves d (g.sh.list.foldl (fun (e : Dev) c => ((e.dropL1 c line).turn .dataS .dataU line c).count 0x8015 0xC (vitOfAddr (line * 128)).toNat) e) :=
    h.trans (foldl _ (fun d c => (((refl d).dropL1 c line).turn _ _ _ _).count _ _ _ _) _ _)
  split
  · exact ((h1.setGline _ _).send _).count _ _ _ _
  · exact h1.setGline _ _

theorem hostGives {d e : Dev} (h : Moves d e) (g : GLine) : Moves d (e.hostGives g).1 := by
  simp only [Dev.hostGives, Dev.draw]
  split <;> exact h.with_fresh _

theorem activate {d e : Dev} (h : Moves d e) (ch a : Nat) : Moves d (e.activate ch a) := by
  simp only [Dev.activate]; split
  · exact h
  · exact (h.setHpc _ _ _).count _ _ _ _

theorem bursts {d e : Dev} (h : Moves d e) (line rd wr rmw : Nat) : Moves d (e.bursts line rd wr rmw) := by
  simp only [Dev.bursts, Dev.openRow]
  have key : ∀ {e : Dev} (_ : Moves d e) (s n v : Nat), Moves d (if (n == 0) = true then e else e.count 0x8014 s v n) :=
    fun k s n v => ite k (k.count _ _ _ _)
  exact key (key (key (h.activate _ _) _ _ _) _ _ _) _ _ _

theorem dropRet {d e : Dev} (h : Moves d e) (line : Nat) (hs : List Nat) : Moves d (e.dropRet line hs) := by
  simp only [Dev.dropRet]; split
  · exact h.setHpc _ _ _
  · exact h

theorem lookup {d e : Dev} (h : Moves d e) (line : Nat) : Moves d (e.lookup line) := by
  simp only [Dev.lookup]; split
  · split
    · exact (h.count _ _ _ _).count _ _ _ _
    · exact ((((h.count _ _ _ _).count _ _ _ _).count _ _ _ _).count _ _ _ _).on_vit _ _ (fun _ => rfl)
  · exact ((h.count _ _ _ _).count _ _ _ _).on_vit _ _ (fun _ => rfl)

theorem pieceStream {d e : Dev} (h : Moves d e) (line : Nat) (p : Option MPort) : Moves d (e.pieceStream line p).1 := by
  simp only [Dev.pieceStream]; split
  · exact h
  · split
    · exact h
    · exact h.setSlice _ _

end Moves

/-- What an access of device memory may change between two views. -/
structure Access (x y : X) : Prop where
  dev : Moves x.dev y.dev
  mram : y.mram = x.mram
  mops : y.mops = x.mops
  scr : y.mem.scr = x.mem.scr
  clus : y.mem.clus = x.mem.clus
  host : y.mem.host = x.mem.host
  stage : y.mem.stage = x.mem.stage

namespace Access

theorem refl (x : X) : Access x x := ⟨Moves.refl _, rfl, rfl, rfl, rfl, rfl, rfl⟩

theorem trans {x y z : X} (h : Access x y) (k : Access y z) : Access x z :=
  ⟨h.dev.trans k.dev, k.mram.trans h.mram, k.mops.trans h.mops, k.scr.trans h.scr, k.clus.trans h.clus, k.host.trans h.host, k.stage.trans h.stage⟩

theorem foldl {β : Type} (f : X → β → X) (h : ∀ x b, Access x (f x b)) (l : List β) (x : X) : Access x (l.foldl f x) := by
  induction l generalizing x with
  | nil => exact refl x
  | cons b l ih => exact (h x b).trans (ih _)

theorem foldl_fst {α β : Type} (f : X × α → β → X × α) (h : ∀ acc b, Access acc.1 (f acc b).1) (l : List β) (acc : X × α) :
    Access acc.1 (l.foldl f acc).1 := by
  induction l generalizing acc with
  | nil => exact refl _
  | cons b l ih => exact (h acc b).trans (ih _)

theorem ite {x y z : X} {c : Prop} [Decidable c] (h : Access x y) (k : Access x z) : Access x (if c then y else z) := by
  split <;> assumption

/-- A change of the machine alone. -/
theorem on {x y : X} (h : Access x y) (f : Dev → Dev) (hf : Moves y.dev (f y.dev)) : Access x (y.on f) :=
  h.trans ⟨hf, rfl, rfl, rfl, rfl, rfl, rfl⟩

/-- A change of the machine alone, whatever the form of the new view. -/
theorem moved {x y z : X} (h : Access x y) (hd : Moves y.dev z.dev) (hm : z.mem = y.mem) (hr : z.mram = y.mram) (ho : z.mops = y.mops) : Access x z :=
  h.trans ⟨hd, hr, ho, by rw [hm], by rw [hm], by rw [hm], by rw [hm]⟩

/-- A view whose machine is replaced. -/
theorem with_dev {x : X} {e : Dev} (h : Moves x.dev e) : Access x { x with dev := e } := ⟨h, rfl, rfl, rfl, rfl, rfl, rfl⟩

/-- A change of bytes of HBM or the scratchpad, or of poison. -/
theorem op (x : X) (o : MemOp) (h : (match o with | .set sp _ _ => sp = .hbm ∨ sp = .pad | .zero sp _ _ => sp = .hbm ∨ sp = .pad | _ => True)) :
    Access x (x.op o) := by
  refine ⟨Moves.refl _, rfl, rfl, ?_, ?_, ?_, ?_⟩ <;>
  · cases o with
    | set sp a b => rcases h with rfl | rfl <;> rfl
    | zero sp a n => rcases h with rfl | rfl <;> rfl
    | mark p g on => simp only [X.op_mem, applyOp]; split <;> rfl
    | clean p g n => simp only [X.op_mem, applyOp]; split <;> rfl

theorem putBytes (x : X) (sp : MemSp) (a : Nat) (l : List Byte) (h : sp = .hbm ∨ sp = .pad) : Access x (x.putBytes sp a l) := by
  simp only [X.putBytes]; exact foldl _ (fun x e => op x _ h) _ _

theorem wbLine (x : X) (line : Nat) (data : Line) (p : BitVec 2) : Access x (x.wbLine line data p) := by
  simp only [X.wbLine]
  exact ((((refl x).on _ (((Moves.refl _).bursts _ _ _ _).dropRet _ _)).trans (putBytes _ .hbm _ _ (Or.inl rfl))).trans (op _ _ trivial)).trans (op _ _ trivial)

theorem wbMasked (x : X) (line : Nat) (data : Line) (m : BitVec 128) (bad : BitVec 2) : Access x (x.wbMasked line data m bad) := by
  simp only [X.wbMasked]
  exact ((((refl x).on _ (((Moves.refl _).bursts _ _ _ _).dropRet _ _)).trans (putBytes _ .hbm _ _ (Or.inl rfl))).trans (op _ _ trivial)).trans (op _ _ trivial)

theorem rdLine (x : X) (line : Nat) : Access x (x.rdLine line).1 := by
  simp only [X.rdLine]; exact (refl x).on _ ((Moves.refl _).bursts _ _ _ _)

theorem rmwLine (x : X) (line : Nat) (ops : List ElemOp) : Access x (x.rmwLine line ops).1 := by
  simp only [X.rmwLine]; split
  · exact refl x
  · exact ((refl x).on _ ((Moves.refl _).bursts _ _ _ _)).trans (putBytes _ .hbm _ _ (Or.inl rfl))

theorem finishPad (x : X) (line : Nat) : Access x (x.finishPad line) := by
  simp only [X.finishPad]; split
  · exact ((refl x).on _ ((Moves.refl _).setSlice _ _)).trans (putBytes _ .pad _ _ (Or.inr rfl))
  · exact refl x

theorem finishPads (x : X) (a n : Nat) : Access x (x.finishPads a n) := by
  simp only [X.finishPads]; split
  · exact refl x
  · exact foldl _ (fun _ _ => finishPad _ _) _ _

theorem settle (x : X) (line : Nat) (w : Bool) : Access x (x.settle line w) := by
  have h0 : Access x (x.on (fun d => d.finishOps line)) := (refl x).on _ ((Moves.refl _).finishOps _)
  have hg : ∀ (y : X) (g : GLine), Access y (y.on (fun d => let (d, g) := d.hostGives g; d.setGline line g)) := fun y g => by
    refine ⟨?_, rfl, rfl, rfl, rfl, rfl, rfl⟩
    simp only [X.on_dev]
    exact ((Moves.refl y.dev).hostGives g).setGline _ _
  simp only [X.settle]
  split
  · exact h0
  · rename_i g _
    split
    · split
      · exact h0.on _ ((Moves.refl _).recallNow _ _ _ _)
      · exact h0
    · exact ite (h0.on _ ((Moves.refl _).invNow _ _)) h0
    · split
      · exact h0.on _ ((((Moves.refl _).setGline _ _).send _).count _ _ _ _)
      · refine h0.trans ⟨?_, rfl, rfl, rfl, rfl, rfl, rfl⟩
        simp only [X.on_dev]
        exact (((Moves.refl _).hostGives g).setGline _ _).count _ _ _ _
    · exact ite h0 (h0.trans (hg _ g))
    · exact h0

theorem writeNow (x : X) (line : Nat) (new : Line) (mask : BitVec 128) (bad : BitVec 2) : Access x (x.writeNow line new mask bad) := by
  have h0 := settle x line true
  simp only [X.writeNow]; split
  · exact ite (h0.trans (wbMasked _ _ _ _ _)) (h0.on _ ((Moves.refl _).mergeAll _ _ _ _))
  · exact h0

theorem freeLine (x : X) (line : Nat) (g : GLine) (wb : Bool) : Access x (x.freeLine line g wb) := by
  have h0 : Access x (if (g.dirty && wb) = true then x.wbLine line g.data g.poison else x) := ite (wbLine _ _ _ _) (refl _)
  have h1 : Access x (if g.pinned = true then
      (if (g.dirty && wb) = true then x.wbLine line g.data g.poison else x).on
        (fun d => d.setVit (vitOfAddr (line * 128)) (fun v => { v with pinned := v.pinned - 128 }))
    else (if (g.dirty && wb) = true then x.wbLine line g.data g.poison else x)) :=
    ite (h0.on _ ((Moves.refl _).on_vit _ _ (fun _ => rfl))) h0
  simp only [X.freeLine]
  exact h1.on _ ((Moves.refl _).delGline _)

theorem dropLine (x : X) (line : Nat) (wb : Bool) : Access x (x.dropLine line wb) := by
  have h0 := settle x line true
  simp only [X.dropLine]; split
  · exact h0
  · split
    · exact ite (h0.trans (freeLine _ _ _ _)) (h0.on _ ((Moves.refl _).setGline _ _))
    · exact h0.on _ (((Moves.refl _).setGline _ _).send _)
    · exact h0.on _ ((Moves.refl _).setGline _ _)

theorem allocNow (x : X) (line : Nat) (low : Bool) : Access x (x.allocNow line low).1 := by
  have fill : ∀ (y : X) (g : GLine), Access y (y.on (fun d => d.setGline line g)) := fun y g => (refl y).on _ ((Moves.refl _).setGline line g)
  have wait : ∀ (y : X) (g : GLine) (m : Msg), Access y (y.on (fun d => (d.setGline line g).send m)) :=
    fun y g m => (refl y).on (fun d => (d.setGline line g).send m) (((Moves.refl _).setGline line g).send m)
  simp only [X.allocNow]; split
  · exact (rdLine x line).trans (fill _ _)
  · split
    · exact refl x
    · rename_i k vg _
      split
      · exact ((dropLine x k true).trans (rdLine _ line)).trans (fill _ _)
      · exact (dropLine x k true).trans (wait _ _ _)

theorem readWay (x : X) (line : Nat) (past : Bool) : Access x (x.readWay line past).1 := by
  simp only [X.readWay]; split
  · exact (settle x line false).moved ((Moves.refl _).recent line) rfl rfl rfl
  · split
    · exact (refl x).moved ((Moves.refl _).count _ _ _ _) rfl rfl rfl
    · exact allocNow x line false

theorem readEnd (x : X) (line : Nat) (ok : Bool) : Access x (x.readEnd line ok).1 := by
  have h : Access x (if ok = true then x else x.on (fun d => d.count 0x8015 6 (vitOfAddr (line * 128)).toNat)) :=
    ite (refl x) ((refl x).on _ ((Moves.refl _).count _ _ _ _))
  simp only [X.readEnd]; split
  · exact h
  · exact h.trans (rdLine _ line)

theorem readLine (x : X) (line : Nat) (port : Option MPort) : Access x (x.readLine line port).1 := by
  simp only [X.readLine]; split
  · exact (refl x).moved ((Moves.refl _).fencedRec line) rfl rfl rfl
  · exact ((with_dev (((Moves.refl _).pieceStream line port).lookup line)).trans (readWay _ line _)).trans (readEnd _ line _)

theorem writeWay (x : X) (line : Nat) (bypass past low : Bool) : Access x (x.writeWay line bypass past low).1 := by
  simp only [X.writeWay]; split
  · exact (refl x).moved ((Moves.refl _).recent line) rfl rfl rfl
  · split
    · exact refl x
    · exact allocNow x line low

theorem writeLine (x : X) (line : Nat) (data : Line) (mask : BitVec 128) (hint : Nat) (bad : BitVec 2) (port : Option MPort) :
    Access x (x.writeLine line data mask hint bad port) := by
  have hp : Moves x.dev (if (hint == 1 || hint == 2) = true then (x.dev, false) else x.dev.pieceStream line port).1 := by
    split
    · exact Moves.refl _
    · exact (Moves.refl _).pieceStream line port
  simp only [X.writeLine]; split
  · exact (refl x).moved ((Moves.refl _).fencedRec line) rfl rfl rfl
  · have hw := (with_dev (hp.lookup line)).trans (writeWay _ line
      (hint == 3 || ((if (hint == 1 || hint == 2) = true then (x.dev, false) else x.dev.pieceStream line port).2 && hint == 0 &&
        mask == BitVec.allOnes 128))
      ((if (hint == 1 || hint == 2) = true then (x.dev, false) else x.dev.pieceStream line port).2 && hint == 0 && mask == BitVec.allOnes 128)
      (hint == 2))
    split
    · exact hw.trans (writeNow _ _ _ _ _)
    · exact (hw.trans (ite (refl _) ((refl _).on _ ((Moves.refl _).count _ _ _ _)))).trans (wbMasked _ _ _ _ _)

theorem atomAt (x : X) (line : Nat) (ops : List ElemOp) (port : Option MPort) : Access x (x.atomAt line ops port).1 := by
  simp only [X.atomAt]; split
  · exact (refl x).moved ((Moves.refl _).fencedRec line) rfl rfl rfl
  · have h1 := (with_dev (((Moves.refl _).pieceStream line port).lookup line)).trans (writeWay { x with dev := _ } line false false false)
    have h2 := ite (c := (({ x with dev := (x.dev.pieceStream line port).1.lookup line } : X).writeWay line false false false).2 = true)
      (h1.trans (settle _ line true)) h1
    generalize (if (({ x with dev := (x.dev.pieceStream line port).1.lookup line } : X).writeWay line false false false).2 = true then
      (({ x with dev := (x.dev.pieceStream line port).1.lookup line } : X).writeWay line false false false).1.settle line true
      else (({ x with dev := (x.dev.pieceStream line port).1.lookup line } : X).writeWay line false false false).1) = y at h2 ⊢
    split
    · split
      · exact h2
      · exact h2.trans (writeNow _ _ _ _ _)
    · exact (h2.on (fun d => (d.count _ _ _ _).count _ _ _ _) (((Moves.refl _).count _ _ _ _).count _ _ _ _)).trans (rmwLine _ _ _)

/-- Reading bytes of device memory. -/
theorem readBytes (x : X) (a n : Nat) (port : Option MPort) : Access x (x.readBytes a n port).1 := by
  simp only [X.readBytes]
  split
  · split
    · exact (refl x).moved ((Moves.refl _).fencedRec _) rfl rfl rfl
    · exact finishPads x a n
  · refine foldl_fst _ ?_ _ (x, [], false)
    intro acc p
    generalize hr : acc.1.readLine p.1 port = r
    have h := readLine acc.1 p.1 port
    rw [hr] at h; exact h

/-- Writing bytes of device memory. -/
theorem writeBytes (x : X) (a : Nat) (l : List Byte) (hint : Nat) (bad : Nat → Bool) (port : Option MPort) :
    Access x (x.writeBytes a l hint bad port) := by
  simp only [X.writeBytes]
  split
  · split
    · exact (refl x).moved ((Moves.refl _).fencedRec _) rfl rfl rfl
    · refine ((finishPads x a l.length).trans (putBytes _ .pad a l (Or.inr rfl))).trans (foldl _ (fun y i => ?_) _ _)
      exact ite (op _ _ trivial) (ite (op _ _ trivial) (refl _))
  · exact foldl _ (fun y p => writeLine _ _ _ _ _ _ _) _ _
  · exact refl x

end Access

end Sys2Proof.Machine
end

