-- ==== Sys2Proof/Laws/Episode.lean ====
section
/-! SUPPORT. Everything a completion, an error record, a squash and a fault episode can change; the exception of each core and the state and
tenancy of each Vitrine stand. -/

namespace Sys2Proof.Machine

/-- An event changes the event channel alone. -/
theorem Dev.post_eq (d : Dev) (c k i a b e : Nat) : d.post c k i a b e = { d with cat := (d.post c k i a b e).cat } := by
  unfold Dev.post; rfl

/-- What the aftermath of a fault, or the end of a request, may change between two views. -/
structure Aftermath (x y : X) : Prop where
  dev : y.dev = { x.dev with vits := y.dev.vits, cores := y.dev.cores, gal := y.dev.gal, cnt := y.dev.cnt, srv := y.dev.srv, rel := y.dev.rel,
                             cat := y.dev.cat, fab := y.dev.fab, msgs := y.dev.msgs, mesh := y.dev.mesh, fresh := y.dev.fresh, hbm := y.dev.hbm }
  mram : y.mram = x.mram
  mops : y.mops = x.mops
  vit : ∀ v, (y.dev.vit v).st = (x.dev.vit v).st ∧ (y.dev.vit v).leader = (x.dev.vit v).leader
  exc : ∀ c, (y.dev.core c).exc = (x.dev.core c).exc
  scr : y.mem.scr = x.mem.scr
  clus : y.mem.clus = x.mem.clus
  host : y.mem.host = x.mem.host
  stage : y.mem.stage = x.mem.stage

theorem Access.aftermath {x y : X} (h : Access x y) : Aftermath x y :=
  ⟨by rw [h.dev.dev], h.mram, h.mops, fun v => by rw [h.dev.vit]; exact ⟨rfl, rfl⟩, fun c => by rw [h.dev.core], h.scr, h.clus, h.host, h.stage⟩

namespace Aftermath

theorem refl (x : X) : Aftermath x x := (Access.refl x).aftermath

theorem trans {x y z : X} (h : Aftermath x y) (k : Aftermath y z) : Aftermath x z :=
  ⟨by rw [k.dev, h.dev], k.mram.trans h.mram, k.mops.trans h.mops, fun v => ⟨(k.vit v).1.trans (h.vit v).1, (k.vit v).2.trans (h.vit v).2⟩,
   fun c => (k.exc c).trans (h.exc c), k.scr.trans h.scr, k.clus.trans h.clus, k.host.trans h.host, k.stage.trans h.stage⟩

theorem foldl {β : Type} (f : X → β → X) (h : ∀ x b, Aftermath x (f x b)) (l : List β) (x : X) : Aftermath x (l.foldl f x) := by
  induction l generalizing x with
  | nil => exact refl x
  | cons b l ih => exact (h x b).trans (ih _)

theorem ite {x y z : X} {c : Prop} [Decidable c] (h : Aftermath x y) (k : Aftermath x z) : Aftermath x (if c then y else z) := by
  split <;> assumption

/-- A change of the machine alone that keeps the cores and the Vitrines. -/
theorem on_keep (x : X) (f : Dev → Dev) (h : f x.dev =
      { x.dev with gal := (f x.dev).gal, cnt := (f x.dev).cnt, srv := (f x.dev).srv, rel := (f x.dev).rel, cat := (f x.dev).cat, fab := (f x.dev).fab }) :
    Aftermath x (x.on f) :=
  ⟨by simp only [X.on_dev]; rw [h], rfl, rfl, fun v => by simp only [X.on_dev, Dev.vit]; rw [h]; exact ⟨rfl, rfl⟩,
   fun c => by simp only [X.on_dev, Dev.core]; rw [h], rfl, rfl, rfl, rfl⟩

theorem setRing (x : X) (v : VitId) (r : Nat) (f : Ring → Ring) : Aftermath x (x.on (fun d => d.setRing v r f)) := on_keep x _ rfl
theorem onSrv (x : X) (f : Srv → Srv) : Aftermath x (x.on (fun d => d.onSrv f)) := on_keep x _ rfl
theorem onRel (x : X) (f : Rel → Rel) : Aftermath x (x.on (fun d => d.onRel f)) := on_keep x _ rfl
theorem onCat (x : X) (f : Cat → Cat) : Aftermath x (x.on (fun d => d.onCat f)) := on_keep x _ rfl
theorem count (x : X) (i s r n : Nat) : Aftermath x (x.on (fun d => d.count i s r n)) := on_keep x _ rfl
theorem post (x : X) (c k i a b e : Nat) : Aftermath x (x.on (fun d => d.post c k i a b e)) := by
  refine on_keep x _ ?_
  simp only [Dev.post_gal, Dev.post_cnt, Dev.post_srv, Dev.post_rel, Dev.post_fab]; exact Dev.post_eq _ _ _ _ _ _ _
theorem postVit (x : X) (c : Nat) (v : VitId) (a b : Nat) : Aftermath x (x.on (fun d => d.postVit c v a b)) := post x _ _ _ _ _ _
theorem setJob (x : X) (v : VitId) (f : Job → Job) : Aftermath x (x.on (fun d => d.setJob v f)) := onRel x _
theorem setStep (x : X) (s : StepRec) (f : StepRec → StepRec) : Aftermath x (x.on (fun d => d.setStep s f)) := onSrv x _

theorem logErr (x : X) (r : ErrRec) : Aftermath x (x.on (fun d => d.logErr r)) := by
  have h : x.on (fun d => d.logErr r) = x.on (fun _ => x.dev.logErr r) := rfl
  rw [h]; simp only [Dev.logErr]
  split
  · split
    · exact onRel x _
    · exact onRel x _
  · exact onRel x _

/-- A change of one Vitrine that keeps its state and tenancy. -/
theorem setVit (x : X) (v : VitId) (f : Vit → Vit) (h : ∀ t, (f t).st = t.st ∧ (f t).leader = t.leader) :
    Aftermath x (x.on (fun d => d.setVit v f)) := by
  refine ⟨rfl, rfl, rfl, fun e => ?_, fun _ => rfl, rfl, rfl, rfl, rfl⟩
  simp only [X.on_dev]
  by_cases he : e = v
  · subst he; rw [Dev.vit_setVit]; exact h _
  · rw [Dev.vit_setVit_ne _ _ _ _ he]; exact ⟨rfl, rfl⟩

/-- A change of one core that keeps its exception. -/
theorem setCore (x : X) (c : CoreId) (f : Core → Core) (h : ∀ k, (f k).exc = k.exc) : Aftermath x (x.on (fun d => d.setCore c f)) := by
  refine ⟨rfl, rfl, rfl, fun _ => ⟨rfl, rfl⟩, fun e => ?_, rfl, rfl, rfl, rfl⟩
  simp only [X.on_dev]
  by_cases he : e = c
  · subst he; rw [Dev.core_setCore]; exact h _
  · rw [Dev.core_setCore_ne _ _ _ _ he]

/-- A fold of changes of the machine. -/
theorem on_foldl {β : Type} (f : Dev → β → Dev) (h : ∀ (x : X) b, Aftermath x (x.on (fun d => f d b))) (l : List β) (x : X) :
    Aftermath x (x.on (fun d => l.foldl f d)) := by
  induction l generalizing x with
  | nil => exact refl x
  | cons b l ih => exact (h x b).trans (ih _)

theorem postCq (x : X) (v : VitId) (r : Nat) (seq detail tag opcode status : Nat) (intr : Bool) :
    Aftermath x (x.postCq v r seq detail tag opcode status intr) := by
  simp only [X.postCq]
  refine trans ?_ (ite (onSrv _ _) (refl _))
  exact trans (Access.writeBytes x _ _ _ _ _).aftermath (setRing _ _ _ _)

theorem flushRing (x : X) (v : VitId) (r : Nat) : Aftermath x (x.flushRing v r) := by
  simp only [X.flushRing]
  refine foldl _ (fun y _ => ?_) _ _
  split
  · split
    · exact (setRing y _ _ _).trans (postCq _ _ _ _ _ _ _ _ _)
    · exact refl y
  · exact refl y

theorem complete (x : X) (v : VitId) (r : Nat) (seq : Word) (status detail : Nat) : Aftermath x (x.complete v r seq status detail) := by
  simp only [X.complete]
  exact (setRing x _ _ _).trans (flushRing _ _ _)

theorem ringEvent (x : X) (l : VitId) (status detail : Nat) : Aftermath x (x.ringEvent l status detail) := by
  simp only [X.ringEvent]
  refine foldl _ (fun y v => ?_) _ _
  split
  · split
    · exact postCq _ _ _ _ _ _ _ _ _
    · exact count y _ _ _ _
  · exact refl y

theorem squashVit (x : X) (v : VitId) : Aftermath x (x.on (fun d => d.squashVit v)) := by
  have e : x.on (fun d => d.squashVit v) = ((x.on (fun d => (coresOfVit v).foldl (fun (d : Dev) (c : Nat) => d.setCore (BitVec.ofNat 9 c) Core.squash) d)).on
      (fun d => { d with fab := { d.fab with ops := d.fab.ops.map (fun o =>
        match o.src with
        | .ins _ => if o.v == v && o.first.isSome then { o with dead := true } else o
        | _ => o) } })).on (fun d => d.setVit v (fun t => { t with disp := { t.disp with launches := [], cur := none, swapped := [], stopped := true } })) := by
    simp only [X.on, Dev.squashVit] <;> rfl
  rw [e]
  have h1 := on_foldl (fun (d : Dev) (c : Nat) => d.setCore (BitVec.ofNat 9 c) Core.squash) (fun x c => setCore x _ _ (fun _ => rfl)) (coresOfVit v) x
  generalize x.on (fun d => (coresOfVit v).foldl (fun (d : Dev) (c : Nat) => d.setCore (BitVec.ofNat 9 c) Core.squash) d) = y at h1 ⊢
  exact h1.trans (trans (on_keep y _ rfl) (setVit _ _ _ (fun _ => ⟨rfl, rfl⟩)))

theorem squashStep (x : X) (s : StepRec) (n : Nat) : Aftermath x (x.on (fun d => d.squashStep s n)) := by
  have e : x.on (fun d => d.squashStep s n) = (x.on (fun d => d.setStep s (fun t => { t with ends := if t.ends.contains n then t.ends else t.ends ++ [n], st := .running, saved := [] }))).on
      (fun d => (vitsOf s.mask).foldl (fun e v => e.squashVit v) d) := by
    simp only [X.on, Dev.squashStep]
  rw [e]
  exact trans (setStep x _ _) (on_foldl _ (fun x v => squashVit x v) _ _)

/-- The squash of the step that occupies a Vitrine, or of the Vitrine's work. -/
theorem squashOn (x : X) (v : VitId) (n : Nat) : Aftermath x (x.on (fun d => match d.stepOn v with
    | some s => d.squashStep s n
    | none => d.squashVit v)) := by
  have e : x.on (fun d => match d.stepOn v with
      | some s => d.squashStep s n
      | none => d.squashVit v) = (match x.dev.stepOn v with
      | some s => x.on (fun d => d.squashStep s n)
      | none => x.on (fun d => d.squashVit v)) := by
    simp only [X.on]; split <;> rfl
  rw [e]; split
  · exact squashStep x _ n
  · exact squashVit x v

theorem trace (x : X) (v : VitId) (k i n : Nat) : Aftermath x (x.on (fun d => d.trace v k i n)) := by
  have e : x.on (fun d => d.trace v k i n) = x.on (fun _ => x.dev.trace v k i n) := rfl
  rw [e]; simp only [Dev.trace]
  split
  · exact refl x
  · rename_i t r _
    have h := setVit x v (fun u => { u with trace := t }) (fun _ => ⟨rfl, rfl⟩)
    cases r
    · exact h
    · exact h.trans (count _ _ _ _ _)

theorem haltTenancy (x : X) (v : VitId) (n : Nat) : Aftermath x (x.on (fun d => d.haltTenancy v n)) := by
  have e : x.on (fun d => d.haltTenancy v n) = x.on (fun d => (x.dev.tenancy v).foldl (fun (e : Dev) v =>
      e.setVit v (fun t => if t.halt == 0 then { t with halt := 1, haltCause := n } else t)) d) := by simp only [X.on, Dev.haltTenancy]
  rw [e]
  exact on_foldl _ (fun x v => setVit x v _ (fun t => by split <;> exact ⟨rfl, rfl⟩)) _ _

theorem endRequests (x : X) (l : VitId) (st : Nat) : Aftermath x (x.endRequests l st) := by
  simp only [X.endRequests]
  refine foldl _ (fun y v => foldl _ (fun z r => ?_) _ _) _ _
  split
  · exact refl z
  · have h1 : Aftermath z (z.on (fun d => d.squashOps v r)) := on_keep z _ rfl
    exact (h1.trans (setRing _ v r _)).trans (flushRing _ _ _)

theorem countRecs (x : X) (recs : KMap ExcRec) : Aftermath x (x.on (fun d => d.countRecs recs)) := by
  simp only [Dev.countRecs]
  exact on_foldl (fun (e : Dev) (p : (Nat × ExcRec) × Nat) => e.count 0x8010 (if p.2 < 16 then 4 else 5) (p.1.1 / 16)) (fun x _ => count x _ _ _ _) _ x

/-- Opening or joining an episode. -/
theorem episode (x : X) (l : VitId) (r c : Nat) : Aftermath x (x.episode l r c) := by
  simp only [X.episode]
  split
  · exact refl x
  · have h1 : Aftermath x (x.on (fun d => ((d.setJob l (fun _ => { st := 1, rec' := r, cls := c })).count 0x6050 1 l.toNat).postVit 0x0201 l l.toNat r)) :=
      trans (setJob x l _) (trans (count _ _ _ _ _) (postVit _ _ _ _ _))
    generalize x.on (fun d => ((d.setJob l (fun _ => { st := 1, rec' := r, cls := c })).count 0x6050 1 l.toNat).postVit 0x0201 l l.toNat r) = y at h1 ⊢
    generalize y.dev.srv.steps.filter (fun s => (y.dev.tenancy l).contains s.leader) = mine
    have h2 := h1.trans (foldl (fun (y : X) (s : StepRec) =>
      if s.st == .saved then
        ((y.on (fun d => d.onSrv (fun q => { q with steps := delFirst (fun t => s.same t) q.steps }))).on (fun d => (d.countRecs s.recs).count 0x801A 1 s.leader.toNat)).complete s.ringVit s.ring s.seq 6 s.recs.length
      else y.on (fun d => d.squashStep s 6)) (fun y s => by
        split
        · exact trans (onSrv y _) (trans (trans (countRecs _ s.recs) (count _ _ _ _ _)) (complete _ _ _ _ _ _))
        · exact squashStep y s 6) mine y)
    generalize List.foldl (fun (y : X) (s : StepRec) =>
      if s.st == .saved then
        ((y.on (fun d => d.onSrv (fun q => { q with steps := delFirst (fun t => s.same t) q.steps }))).on (fun d => (d.countRecs s.recs).count 0x801A 1 s.leader.toNat)).complete s.ringVit s.ring s.seq 6 s.recs.length
      else y.on (fun d => d.squashStep s 6)) y mine = z at h2 ⊢
    have h3 := h2.trans (endRequests z l 6)
    generalize z.endRequests l 6 = w at h3 ⊢
    have e : (w.on fun d => (d.tenancy l).foldl (fun (e : Dev) v => e.setVit v (fun t => { t with halt := 0, haltCause := 0 })) d) =
        w.on (fun d => (w.dev.tenancy l).foldl (fun (e : Dev) v => e.setVit v (fun t => { t with halt := 0, haltCause := 0 })) d) := rfl
    have h4 := h3.trans (e ▸ on_foldl (fun (e : Dev) v => e.setVit v (fun t => { t with halt := 0, haltCause := 0 })) (fun x v => setVit x v _ (fun t => ⟨rfl, rfl⟩)) (w.dev.tenancy l) w)
    exact ite h4 (h4.trans (setJob _ _ _))

/-- A detected fault that is not corrected. -/
theorem uncorrected (x : X) (r : ErrRec) : Aftermath x (x.uncorrected r) := by
  simp only [X.uncorrected]
  have h1 := logErr x r
  split
  · have h2 := fun n k => h1.trans (postVit _ 0x0200 n k r.cls)
    split
    · exact (h2 _ _).trans (episode _ _ _ _)
    · exact h2 _ _
  · exact h1.trans (post _ _ _ _ _ _ _)

end Aftermath

/-- The record of an exception: at the core and at the step, or counted as dropped. -/
theorem Dev.recordExc_eq (d : Dev) (c : CoreId) (r : ExcRec) : d.recordExc c r =
    { d with cores := (d.recordExc c r).cores, cnt := (d.recordExc c r).cnt, srv := (d.recordExc c r).srv } := by
  unfold Dev.recordExc
  dsimp only
  split <;> split <;> rfl

/-- An exception that is the core's first of the step stands recorded at the core, whatever its class (R65); and an exception changes no more of the
machine than an aftermath does. -/
theorem raiseFor_records (x : X) (c : CoreId) (b : Block) (q : Group) (e : ExcInfo) (hx : (x.dev.core c).exc = none) :
    ((x.raiseFor c b q e).dev.core c).exc = some (e.rec' c b q) ∧
    (x.raiseFor c b q e).dev = { x.dev with vits := (x.raiseFor c b q e).dev.vits, cores := (x.raiseFor c b q e).dev.cores, gal := (x.raiseFor c b q e).dev.gal, cnt := (x.raiseFor c b q e).dev.cnt, srv := (x.raiseFor c b q e).dev.srv, rel := (x.raiseFor c b q e).dev.rel, cat := (x.raiseFor c b q e).dev.cat, fab := (x.raiseFor c b q e).dev.fab, msgs := (x.raiseFor c b q e).dev.msgs, mesh := (x.raiseFor c b q e).dev.mesh, fresh := (x.raiseFor c b q e).dev.fresh, hbm := (x.raiseFor c b q e).dev.hbm } ∧
    (x.raiseFor c b q e).mram = x.mram ∧ (x.raiseFor c b q e).mops = x.mops := by
  have h0 : ∃ y : X, Aftermath y (x.raiseFor c b q e) ∧ (y.dev.core c).exc = some (e.rec' c b q) ∧ y.dev = { x.dev with cores := y.dev.cores, srv := y.dev.srv } ∧ y.mram = x.mram ∧ y.mops = x.mops := by
    refine ⟨x.on (fun d => d.recordExc c (e.rec' c b q)), ?_, ?_, ?_, rfl, rfl⟩
    · simp only [X.raiseFor]
      generalize x.on (fun d => d.recordExc c (e.rec' c b q)) = y
      have h2 := ((Aftermath.refl y).trans (Aftermath.trace _ (vitOfCore c) 5 c.toNat (e.code + e.pc.toNat * 256))).trans
        (Aftermath.ite (c := (e.code == 0x45) = true) (Aftermath.count _ 0x6050 2 (vitOfCore c).toNat 1) (Aftermath.refl _))
      split
      · refine (h2.trans (Aftermath.squashOn _ _ 6)).trans (Aftermath.trans (Aftermath.ite ?_ (Aftermath.refl _)) (Aftermath.uncorrected _ _))
        exact Aftermath.on_keep _ _ rfl
      · exact h2.trans (Aftermath.squashOn _ _ 4)
    · simp only [X.on_dev, Dev.recordExc, hx, Option.isNone_none, if_true]
      split
      · rename_i s _
        rw [show ∀ (d : Dev) (f : StepRec → StepRec), (d.setStep s f).core c = d.core c from fun _ _ => rfl, Dev.core_setCore]
      · rw [Dev.core_setCore]
    · have hr : ∀ d : Dev, d = { x.dev with cores := d.cores } → ∀ f : StepRec → StepRec, (match d.stepOn (vitOfCore c) with
          | some s => d.setStep s f
          | none => d) = { x.dev with
              cores := (match d.stepOn (vitOfCore c) with
                | some s => d.setStep s f
                | none => d).cores
              srv := (match d.stepOn (vitOfCore c) with
                | some s => d.setStep s f
                | none => d).srv } := by
        intro d hd f
        have hs : d.srv = x.dev.srv := by rw [hd]
        split
        · simp only [Dev.setStep, Dev.onSrv]; rw [hd]
        · rw [hs]; exact hd
      simp only [X.on_dev, Dev.recordExc, hx, Option.isNone_none, if_true]
      exact hr _ rfl _
  obtain ⟨y, ha, he, hd, hm, ho⟩ := h0
  refine ⟨(ha.exc c).trans he, ?_, ha.mram.trans hm, ha.mops.trans ho⟩
  have := ha.dev; rw [this, hd]

/-- The exception of a group that its core holds. -/
theorem raise_eq (x : X) (g : GRef) (e : ExcInfo) (b : Block) (q : Group) (hg : x.dev.grp g = some (b, q)) : x.raise g e = x.raiseFor g.core b q e := by
  simp only [X.raise, hg]

end Sys2Proof.Machine
end

