-- ==== Sys2Proof/Laws/Traffic.lean ====
section
/-! SUPPORT. Everything the traffic of cores, L1 caches and homes can change while no remote instruction waits to be split: lines and
messages, the operations of cores, counters and records, and bytes of memory; no group, no exception, no setting. -/

namespace Sys2Proof.Machine

/-- What the traffic of accesses may change between two machines. -/
structure Flow (d e : Dev) : Prop where
  dev : e = { d with vits := e.vits, cores := e.cores, gal := e.gal, cnt := e.cnt, msgs := e.msgs, mesh := e.mesh, fresh := e.fresh, hbm := e.hbm,
                     rel := e.rel }
  vit : ∀ v, e.vit v = { d.vit v with thrash := (e.vit v).thrash, pinned := (e.vit v).pinned }
  core : ∀ c, e.core c = { d.core c with l1 := (e.core c).l1, ops := (e.core c).ops, tick := (e.core c).tick }
  hbm : e.hbm = { d.hbm with pcs := e.hbm.pcs }
  rel : e.rel = { d.rel with log := e.rel.log, next := e.rel.next, lost := e.rel.lost, heldRecs := e.rel.heldRecs }

theorem Moves.flow {d e : Dev} (h : Moves d e) : Flow d e := ⟨h.dev, h.vit, fun c => by rw [h.core], h.hbm, h.rel⟩

namespace Flow

theorem refl (d : Dev) : Flow d d := (Moves.refl d).flow

theorem trans {d e f : Dev} (h : Flow d e) (k : Flow e f) : Flow d f :=
  ⟨by rw [k.dev, h.dev], fun v => by rw [k.vit, h.vit], fun c => by rw [k.core, h.core], by rw [k.hbm, h.hbm], by rw [k.rel, h.rel]⟩

theorem ite {d e f : Dev} {c : Prop} [Decidable c] (h : Flow d e) (k : Flow d f) : Flow d (if c then e else f) := by
  split <;> assumption

/-- A change of one core's lines and operations. -/
theorem setCore {d e : Dev} (h : Flow d e) (c : CoreId) (f : Core → Core)
    (hf : ∀ k, f k = { k with l1 := (f k).l1, ops := (f k).ops, tick := (f k).tick }) : Flow d (e.setCore c f) := by
  refine h.trans ⟨rfl, fun _ => rfl, fun b => ?_, rfl, rfl⟩
  by_cases hb : b = c
  · subst hb; rw [Dev.core_setCore]; exact hf _
  · rw [Dev.core_setCore_ne _ _ _ _ hb]

theorem setOp {d e : Dev} (h : Flow d e) (c : CoreId) (n : Nat) (f : OutOp → OutOp) : Flow d (e.setOp c n f) := h.setCore c _ (fun _ => rfl)
theorem reap {d e : Dev} (h : Flow d e) (c : CoreId) : Flow d (e.reap c) := h.setCore c _ (fun _ => rfl)
theorem setL1 {d e : Dev} (h : Flow d e) (c : CoreId) (n : Nat) (l : L1Line) : Flow d (e.setL1 c n l) := h.setCore c _ (fun _ => rfl)
theorem delL1 {d e : Dev} (h : Flow d e) (c : CoreId) (n : Nat) : Flow d (e.delL1 c n) := h.setCore c _ (fun _ => rfl)
theorem touchL1 {d e : Dev} (h : Flow d e) (c : CoreId) (n : Nat) : Flow d (e.touchL1 c n) := h.setCore c _ (fun k => by split <;> rfl)
theorem fillLoads {d e : Dev} (h : Flow d e) (c : CoreId) (n : Nat) (a : Line) (p : BitVec 2) : Flow d (e.fillLoads c n a p) := h.setCore c _ (fun _ => rfl)
theorem send {d e : Dev} (h : Flow d e) (m : Msg) : Flow d (e.send m) := h.trans ((Moves.refl e).send m).flow
theorem take {d e : Dev} (h : Flow d e) (k : MsgKind) (l : Nat) (c : Option CoreId) : Flow d (e.take k l c) := h.trans ((Moves.refl e).take k l c).flow
theorem stall {d e : Dev} (h : Flow d e) (k : MsgKind) (l : Nat) (c : Option CoreId) : Flow d (e.stall k l c) := h.trans ((Moves.refl e).stall k l c).flow
theorem count {d e : Dev} (h : Flow d e) (i s r n : Nat) : Flow d (e.count i s r n) := h.trans ((Moves.refl e).count i s r n).flow
theorem setSlice {d e : Dev} (h : Flow d e) (n : Nat) (f : Slice → Slice) : Flow d (e.setSlice n f) := h.trans ((Moves.refl e).setSlice n f).flow
theorem setGline {d e : Dev} (h : Flow d e) (n : Nat) (g : GLine) : Flow d (e.setGline n g) := h.trans ((Moves.refl e).setGline n g).flow
theorem updGline {d e : Dev} (h : Flow d e) (n : Nat) (f : GLine → GLine) : Flow d (e.updGline n f) := h.trans ((Moves.refl e).updGline n f).flow
theorem logErr {d e : Dev} (h : Flow d e) (r : ErrRec) : Flow d (e.logErr r) := h.trans ((Moves.refl e).logErr r).flow
theorem fencedRec {d e : Dev} (h : Flow d e) (l : Nat) : Flow d (e.fencedRec l) := h.logErr _
theorem poisonRec {d e : Dev} (h : Flow d e) (l : Nat) : Flow d (e.poisonRec l) := h.logErr _
theorem toCore {d e : Dev} (h : Flow d e) (k : MsgKind) (l : Nat) (c : CoreId) (a : Line) (p : BitVec 2) : Flow d (e.toCore k l c a p) := h.send _
theorem toPort {d e : Dev} (h : Flow d e) (p : MPort) (l : Nat) (a : Line) (b : BitVec 2) (m : Option Meta) : Flow d (e.toPort p l a b m) := h.send _
theorem await {d e : Dev} (h : Flow d e) (l : Nat) (r : HomeReq) (st : DirSt) (n : Nat) (b : Bool) : Flow d (e.await l r st n b) := h.updGline l _

theorem l1Room {d e : Dev} (h : Flow d e) (c : CoreId) (l : Nat) : Flow d (e.l1Room c l).1 := by
  simp only [Dev.l1Room]
  split
  · exact h
  · split
    · exact h
    · split
      · exact h
      · split
        · exact (h.setL1 c _ _).send _
        · exact (h.setL1 c _ _).send _
        · exact h.delL1 c _

theorem l1Miss {d e : Dev} (h : Flow d e) (c : CoreId) (l : Nat) (own : Bool) : Flow d (e.l1Miss c l own) := by
  simp only [Dev.l1Miss]
  exact ite ((((h.l1Room c l).setL1 c _ _).touchL1 c _).send _) (h.l1Room c l)

theorem wruDone {d e : Dev} (h : Flow d e) (c : CoreId) (l : Nat) : Flow d (e.wruDone c l) := by
  simp only [Dev.wruDone]; split
  · exact h.setOp c _ _
  · exact h

theorem atomDone {d e : Dev} (h : Flow d e) (c : CoreId) (l : Nat) (old : List (Nat × Nat)) (bad : Bool) : Flow d (e.atomDone c l old bad) := by
  simp only [Dev.atomDone]; split
  · exact (h.setOp c _ _).reap c
  · exact h

theorem invalidate {d e : Dev} (h : Flow d e) (l : Nat) (sh : Sharers) (x : Option CoreId) (bi : Bool) : Flow d (e.invalidate l sh x bi).1 := by
  simp only [Dev.invalidate]
  have key : ∀ (L : List CoreId) (e : Dev), Flow d e →
      Flow d (L.foldl (fun e c => (e.send { kind := .inv, line := l, core := some c }).count 0x8015 0xC (vitOfAddr (l * 128)).toNat) e) := by
    intro L
    induction L with
    | nil => intro e h; exact h
    | cons c L ih => intro e h; exact ih _ ((h.send _).count _ _ _ _)
  have h0 := key (sh.list.filter (fun c => some c != x)) e h
  split
  · exact (h0.send _).count _ _ _ _
  · exact h0

theorem lookup {d e : Dev} (h : Flow d e) (l : Nat) : Flow d (e.lookup l) := h.trans ((Moves.refl e).lookup l).flow

theorem stream {d e : Dev} (h : Flow d e) (l : Nat) (p : MPort) : Flow d (e.stream l p).1 := by
  simp only [Dev.stream]; exact h.setSlice _ _

end Flow

/-- What the traffic of accesses may change between two views. -/
structure Traffic (x y : X) : Prop where
  flow : Flow x.dev y.dev
  mram : y.mram = x.mram
  mops : y.mops = x.mops
  host : y.mem.host = x.mem.host
  stage : y.mem.stage = x.mem.stage

/-- Every remote instruction has been split into its operations. -/
def X.AllSplit (x : X) : Prop := ∀ i ∈ x.dev.fab.ins, i.split = true

theorem Access.traffic {x y : X} (h : Access x y) : Traffic x y := ⟨h.dev.flow, h.mram, h.mops, h.host, h.stage⟩

theorem Traffic.allSplit {x y : X} (h : Traffic x y) (k : x.AllSplit) : y.AllSplit := by
  have : y.dev.fab = x.dev.fab := by rw [h.flow.dev]
  simpa only [X.AllSplit, this] using k

namespace Traffic

theorem refl (x : X) : Traffic x x := (Access.refl x).traffic

theorem trans {x y z : X} (h : Traffic x y) (k : Traffic y z) : Traffic x z :=
  ⟨h.flow.trans k.flow, k.mram.trans h.mram, k.mops.trans h.mops, k.host.trans h.host, k.stage.trans h.stage⟩

/-- A change of the machine alone. -/
theorem dev {x y : X} {e : Dev} (h : Traffic x y) (k : Flow y.dev e) : Traffic x { y with dev := e } := h.trans ⟨k, rfl, rfl, rfl, rfl⟩

/-- A fold of traffic, where each part may rely on the instructions having been split. -/
theorem foldl {β : Type} (f : X → β → X) (h : ∀ x b, x.AllSplit → Traffic x (f x b)) (l : List β) (x : X) (hs : x.AllSplit) : Traffic x (l.foldl f x) := by
  induction l generalizing x with
  | nil => exact refl x
  | cons b l ih => exact (h x b hs).trans (ih _ ((h x b hs).allSplit hs))

/-- A fold of traffic. -/
theorem foldl' {β : Type} (f : X → β → X) (h : ∀ x b, Traffic x (f x b)) (l : List β) (x : X) : Traffic x (l.foldl f x) := by
  induction l generalizing x with
  | nil => exact refl x
  | cons b l ih => exact (h x b).trans (ih _)

theorem ite {x y z : X} {c : Prop} [Decidable c] (h : Traffic x y) (k : Traffic x z) : Traffic x (if c then y else z) := by
  split <;> assumption

theorem op (x : X) (o : MemOp) (h : match o with | .set sp _ _ => sp ≠ .host ∧ sp ≠ .stage | .zero sp _ _ => sp ≠ .host ∧ sp ≠ .stage | _ => True) :
    Traffic x (x.op o) := by
  refine ⟨Flow.refl _, rfl, rfl, ?_, ?_⟩ <;>
  · cases o with
    | set sp a b => cases sp <;> simp at h <;> rfl
    | zero sp a n => cases sp <;> simp at h <;> rfl
    | mark p g on => simp only [X.op_mem, applyOp]; split <;> rfl
    | clean p g n => simp only [X.op_mem, applyOp]; split <;> rfl

theorem putBytes (x : X) (sp : MemSp) (a : Nat) (l : List Byte) (h : sp ≠ .host ∧ sp ≠ .stage) : Traffic x (x.putBytes sp a l) := by
  simp only [X.putBytes]; exact foldl' _ (fun x e => op x _ h) _ _

theorem localSp (sp : Space) : Machine.localSp sp ≠ .host ∧ Machine.localSp sp ≠ .stage := by
  unfold Machine.localSp; split <;> simp

/-! ### A core's side -/

theorem loadLine (x : X) (c : CoreId) (o : OutOp) (l : Nat) : Traffic x (x.loadLine c o l) := by
  simp only [X.loadLine]
  split
  · exact (refl x).dev ((Flow.refl _).setOp c _ _)
  · split
    · exact (refl x).dev (((Flow.refl _).fencedRec l).setOp c _ _)
    · split
      · exact (Access.finishPad x l).traffic.dev ((Flow.refl _).setOp c _ _)
      · split
        · split
          all_goals first | exact refl x | exact (refl x).dev (((Flow.refl _).touchL1 c _).setOp c _ _)
        · exact (refl x).dev ((Flow.refl _).l1Miss c l _)

theorem storeLine (x : X) (c : CoreId) (o : OutOp) (l : Nat) : Traffic x (x.storeLine c o l) := by
  simp only [X.storeLine]
  split
  · exact (foldl' _ (fun y b => putBytes y _ _ _ (localSp _)) _ x).dev ((Flow.refl _).setOp c _ _)
  · split
    · exact (refl x).dev (((Flow.refl _).fencedRec l).setOp c _ _)
    · split
      · refine (((((Access.finishPad x l).traffic.trans (foldl' _ (fun y b => putBytes y _ _ _ (by simp)) _ _)).trans
          (ite (op _ _ trivial) (refl _))).trans (ite (op _ _ trivial) (refl _)))).dev ((Flow.refl _).setOp c _ _)
      · split
        · split
          · exact (refl x).dev ((((Flow.refl _).setL1 c _ _).touchL1 c _).setOp c _ _)
          · exact (refl x).dev ((((Flow.refl _).setL1 c _ _).touchL1 c _).setOp c _ _)
          · exact (refl x).dev (((Flow.refl _).setL1 c _ _).send _)
          · exact refl x
        · exact (refl x).dev ((Flow.refl _).l1Miss c l _)

theorem localAtom (x : X) (c : CoreId) (o : OutOp) (l : Nat) : Traffic x (x.localAtom c o l) := by
  simp only [X.localAtom]
  refine trans ?_ (foldl' _ (fun y b => (putBytes y _ _ _ (localSp _)).dev ((Flow.refl _).setOp c _ _)) _ _)
  exact (refl x).dev ((Flow.refl _).setOp c _ _)

theorem atomLine (x : X) (c : CoreId) (o : OutOp) (l : Nat) : Traffic x (x.atomLine c o l) := by
  simp only [X.atomLine]
  have h : Traffic x (if (o.kind == .atom true) = true then x.on (fun d => d.count 0x8010 3 (vitOfCore c).toNat) else x) :=
    ite ((refl x).dev ((Flow.refl _).count _ _ _ _)) (refl x)
  generalize (if (o.kind == .atom true) = true then x.on (fun d => d.count 0x8010 3 (vitOfCore c).toNat) else x) = y at h ⊢
  split
  · exact h.trans (localAtom y c o l)
  · split
    · exact h.dev (((Flow.refl _).fencedRec l).setOp c _ _)
    · exact h.dev (((Flow.refl _).setOp c _ _).send _)

theorem pumpOp (c : CoreId) (x : X) (n : Nat) : Traffic x (X.pumpOp c x n) := by
  simp only [X.pumpOp]
  split
  · exact refl x
  · refine foldl' _ (fun y l => ?_) _ x
    split
    · exact refl y
    · split
      · exact refl y
      · split
        · exact loadLine y c _ l
        · exact storeLine y c _ l
        · exact atomLine y c _ l

theorem remotePump (x : X) (c : CoreId) (hs : x.AllSplit) : x.remotePump c = x := by
  simp only [X.remotePump]
  rw [List.filter_eq_nil_iff.2]
  · rfl
  · intro i hi; simp [hs i hi]

theorem pump (x : X) (c : CoreId) (hs : x.AllSplit) : Traffic x (x.pump c) := by
  simp only [X.pump]
  have h := foldl' _ (fun y n => pumpOp c y n) ((x.dev.core c).ops.map (·.id)) x
  rw [remotePump _ _ (h.allSplit hs)]
  exact h.dev ((Flow.refl _).reap c)

/-! ### The home's side -/

theorem wrote (x : X) (p : MPort) (l : Nat) (hs : x.AllSplit) : Traffic x (x.wrote p l) := by
  simp only [X.wrote]
  split
  · rename_i c
    have h : Traffic x (x.on (fun d => d.wruDone c l)) := (refl x).dev ((Flow.refl _).wruDone c l)
    exact h.trans (pump _ c (h.allSplit hs))
  · exact (refl x).dev ((Flow.refl _).send _)

theorem atomBack (x : X) (c : Option CoreId) (l : Nat) (old : List (Nat × Nat)) (bad : Bool) (hs : x.AllSplit) : Traffic x (x.atomBack c l old bad) := by
  simp only [X.atomBack]
  split
  · rename_i k
    have h : Traffic x (x.on (fun d => d.atomDone k l old bad)) := (refl x).dev ((Flow.refl _).atomDone k l old bad)
    exact h.trans (pump _ k (h.allSplit hs))
  · exact refl x

theorem opsAtHbm (x : X) (l : Nat) (ops : List ElemOp) (c : Option CoreId) (hs : x.AllSplit) : Traffic x (x.opsAtHbm l ops c) := by
  unfold X.opsAtHbm
  have h : Traffic x (x.on (fun d => d.count 0x8015 8 (vitOfAddr (l * 128)).toNat)) := (refl x).dev ((Flow.refl _).count _ _ _ _)
  generalize x.on (fun d => d.count 0x8015 8 (vitOfAddr (l * 128)).toNat) = y at h ⊢
  have h1 := h.trans (Access.rmwLine y l ops).traffic
  generalize y.rmwLine l ops = r at h1 ⊢
  obtain ⟨z, old⟩ := r
  cases old with
  | some o => exact h1.trans (atomBack z c l o false (h1.allSplit hs))
  | none =>
    have h2 : Traffic x (z.on (fun d => d.poisonRec l)) := h1.dev ((Flow.refl _).poisonRec l)
    exact h2.trans (atomBack _ c l [] true (h2.allSplit hs))

theorem bypass (x : X) (l : Nat) (r : HomeReq) (hs : x.AllSplit) : Traffic x (x.bypass l r) := by
  obtain ⟨kind, port⟩ := r
  unfold X.bypass
  have wr : ∀ (q : MPort) (m : BitVec 128) (a : Line), Traffic x ((x.wbMasked l a m).wrote q l) := fun q m a =>
    (Access.wbMasked x l a m 0).traffic.trans (wrote _ q l ((Access.wbMasked x l a m 0).traffic.allSplit hs))
  have hr := (Access.rdLine x l).traffic
  generalize x.rdLine l = r at hr ⊢
  obtain ⟨y, data, p⟩ := r
  cases kind with
  | getS => cases port <;> first | exact hr.dev ((Flow.refl _).toCore _ _ _ _ _) | exact refl x
  | getM => cases port <;> first | exact (refl x).dev ((Flow.refl _).toCore _ _ _ _ _) | exact refl x
  | rdU => exact hr.dev ((Flow.refl _).toPort _ _ _ _ _)
  | memRd m => exact hr.dev ((Flow.refl _).toPort _ _ _ _ _)
  | wrU m a h => exact wr _ _ _
  | memWr m a h => exact wr _ _ _
  | atom o b => cases port <;> exact opsAtHbm x l _ _ hs
  | evict wb => exact refl x
  | flush => exact refl x

theorem noAlloc (x : X) (l : Nat) (r : HomeReq) (k : Bool) (hs : x.AllSplit) : Traffic x (x.noAlloc l r k) := by
  unfold X.noAlloc
  cases k with
  | false => exact bypass x l r hs
  | true =>
    have h : Traffic x (x.on (fun d => d.count 0x8015 6 (vitOfAddr (l * 128)).toNat)) := (refl x).dev ((Flow.refl _).count _ _ _ _)
    exact h.trans (bypass _ l r (h.allSplit hs))

theorem setGline (x : X) (l : Nat) (g : GLine) : Traffic x (x.on (fun d => d.setGline l g)) := (refl x).dev ((Flow.refl _).setGline l g)

theorem act (x : X) (l : Nat) (r : HomeReq) (hs : x.AllSplit) : Traffic x (x.act l r) := by
  obtain ⟨kind, port⟩ := r
  unfold X.act
  generalize x.dev.gline l = o
  cases o with
  | none => exact refl x
  | some g =>
    have wr : ∀ (q : MPort) (p : GLine), Traffic x ((x.on (fun d => d.setGline l p)).wrote q l) := fun q p =>
      (setGline x l p).trans (wrote _ q l ((setGline x l p).allSplit hs))
    have h1 : ∀ (p : GLine) (q : MPort) (a : Line) (b : BitVec 2) (m : Option Meta), Traffic x (x.on (fun d => (d.setGline l p).toPort q l a b m)) :=
      fun p q a b m => (refl x).dev (((Flow.refl _).setGline l p).toPort q l a b m)
    have h2 : ∀ (p : GLine) (k : MsgKind) (c : CoreId) (a : Line) (b : BitVec 2), Traffic x (x.on (fun d => (d.setGline l p).toCore k l c a b)) :=
      fun p k c a b => (refl x).dev (((Flow.refl _).setGline l p).toCore k l c a b)
    have h3 : ∀ (p : GLine) (f : Slice → Slice), Traffic x (x.on (fun d => (d.setGline l p).setSlice (sliceOf l) f)) :=
      fun p f => (refl x).dev (((Flow.refl _).setGline l p).setSlice _ f)
    cases kind with
    | getS => cases port <;> first | exact refl x | exact h2 _ _ _ _ _
    | getM => cases port <;> first | exact refl x | exact h2 _ _ _ _ _
    | rdU => exact (refl x).dev ((Flow.refl _).toPort _ _ _ _ _)
    | wrU mask new h => exact wr _ _
    | memWr mask new h => exact wr _ _
    | atom ops ret => exact h3 _ _
    | memRd m => cases m <;> exact h1 _ _ _ _ _
    | evict wb => exact (Access.freeLine x l g wb).traffic
    | flush => exact (ite (Access.wbLine x l g.data g.poison).traffic (refl x)).trans (setGline _ l _)

theorem serve (x : X) (l : Nat) (r : HomeReq) (hs : x.AllSplit) : Traffic x (x.serve l r) := by
  unfold X.serve
  generalize x.dev.gline l = o
  cases o with
  | none => exact refl x
  | some g =>
    have ha := act x l r hs
    have inval : ∀ (exc : Option CoreId) (bi : Bool) (sh : Sharers), Traffic x
        (if ((x.dev.invalidate l g.sh exc bi).2.1 == 0 && !(x.dev.invalidate l g.sh exc bi).2.2) = true then
          ({ x with dev := (x.dev.invalidate l g.sh exc bi).1.updGline l (fun t => { t with sh := sh }) } : X).act l r
        else ({ x with dev := (x.dev.invalidate l g.sh exc bi).1.updGline l (fun t => { t with sh := sh }) } : X).on (fun d => d.await l r .sInv (x.dev.invalidate l g.sh exc bi).2.1 (x.dev.invalidate l g.sh exc bi).2.2)) := by
      intro exc bi sh
      have h : Traffic x { x with dev := (x.dev.invalidate l g.sh exc bi).1.updGline l (fun t => { t with sh := sh }) } :=
        (refl x).dev (((Flow.refl _).invalidate l g.sh exc bi).updGline l _)
      generalize (x.dev.invalidate l g.sh exc bi).1.updGline l (fun t => { t with sh := sh }) = d at h ⊢
      exact ite (h.trans (act _ l r (h.allSplit hs))) (h.dev ((Flow.refl _).await l r _ _ _))
    have h1 : ∀ (p : GLine) (q : MPort) (a : Line) (b : BitVec 2) (m : Option Meta), Traffic x (x.on (fun d => (d.setGline l p).toPort q l a b m)) :=
      fun p q a b m => (refl x).dev (((Flow.refl _).setGline l p).toPort q l a b m)
    have h2 : ∀ (p : GLine) (k : MsgKind) (c : CoreId) (a : Line) (b : BitVec 2), Traffic x (x.on (fun d => (d.setGline l p).toCore k l c a b)) :=
      fun p k c a b => (refl x).dev (((Flow.refl _).setGline l p).toCore k l c a b)
    have h3 : ∀ (st : DirSt) (b : Bool) (m : Msg), Traffic x (x.on (fun d => (d.await l r st 0 b).send m)) :=
      fun st b m => (refl x).dev (((Flow.refl _).await l r st 0 b).send m)
    have h4 : ∀ (m : Msg), Traffic x (x.on (fun d => ((d.await l r .hBi 0 true).send m).count 0x8015 0xD (vitOfAddr (l * 128)).toNat)) :=
      fun m => (refl x).dev ((((Flow.refl _).await l r .hBi 0 true).send m).count _ _ _ _)
    obtain ⟨kind, port⟩ := r
    dsimp only
    generalize hst : g.st = st
    cases st
    case i => cases kind <;> cases port <;> first | exact ha | exact h2 _ _ _ _ _
    case s =>
      cases kind with
      | getS => exact ha
      | getM => cases port with
        | core c => exact ite (h2 _ _ _ _ _) (inval (some c) true _)
        | _ => exact ha
      | rdU => exact ha
      | wrU mask new h => exact inval none true {}
      | memWr mask new h => exact inval none false {}
      | atom ops ret => exact inval none true {}
      | memRd m => cases m <;> first | exact ha | exact inval none false {}
      | evict wb => exact inval none true {}
      | flush => exact ha
    case ol =>
      generalize g.owner = w
      cases w with
      | none => exact refl x
      | some c => exact ite (h3 _ _ _) (h3 _ _ _)
    case oh =>
      cases kind with
      | memRd m => cases m <;> first | exact h1 _ _ _ _ _ | exact (refl x).dev ((Flow.refl _).toPort _ _ _ _ _)
      | memWr mask new h => exact ha
      | _ => exact h4 _
    all_goals exact refl x

theorem allocate (x : X) (l : Nat) (r : HomeReq) (low : Bool) (hs : x.AllSplit) : Traffic x (x.allocate l r low).1 := by
  simp only [X.allocate]
  have h : ∀ (y : X) (g : GLine) (m : Msg), Traffic y (y.on (fun d => (d.setGline l g).send m)) :=
    fun y g m => (refl y).dev (((Flow.refl _).setGline l g).send m)
  split
  · exact h x _ _
  · split
    · exact refl x
    · rename_i k vg _
      exact (serve x k { kind := .evict true, port := .dma 0 } hs).trans (h _ _ _)

theorem absent (x : X) (l : Nat) (r : HomeReq) (b : Bool) (hs : x.AllSplit) : Traffic x (x.absent l r b) := by
  unfold X.absent
  have h : Traffic x (x.on (fun d => d.count 0x8015 5 (vitOfAddr (l * 128)).toNat)) := (refl x).dev ((Flow.refl _).count _ _ _ _)
  refine ite (h.trans (noAlloc _ l r true (h.allSplit hs))) (ite (noAlloc x l r false hs) (ite (noAlloc x l r true hs) ?_))
  exact ite (c := (x.allocate l r (r.kind.hint == 2)).2 = true) (allocate x l r _ hs) (noAlloc x l r true hs)

theorem requeue (x : X) (l : Nat) (q : List HomeReq) (hs : x.AllSplit) : Traffic x (x.requeue l q) := by
  unfold X.requeue
  refine foldl _ (fun y r hy => ?_) _ x hs
  generalize y.dev.gline l = o
  cases o with
  | none => exact ite (absent y l r false hy) (refl y)
  | some g => exact ite (serve y l r hy) (setGline y l _)

theorem drain (x : X) (l : Nat) (hs : x.AllSplit) : Traffic x (x.drain l) := by
  simp only [X.drain]
  split
  · exact refl x
  · exact (setGline x l _).trans (requeue _ l _ ((setGline x l _).allSplit hs))

theorem resolve (x : X) (l : Nat) (st : DirSt) (sh : Sharers) (hs : x.AllSplit) : Traffic x (x.resolve l st sh) := by
  simp only [X.resolve]
  split
  · exact refl x
  · split
    · exact (setGline x l _).trans (drain _ l ((setGline x l _).allSplit hs))
    · rename_i g _ _ r _
      have h := (setGline x l (if (g.st == .sInv) = true then { g with cur := none, acks := 0, bi := false, queue := [] }
        else { g with st := st, sh := sh, owner := none, cur := none, acks := 0, bi := false, wr := 0, queue := [] }))
      have h1 := h.trans (act _ l r (h.allSplit hs))
      have h2 := h1.dev ((Flow.refl _).updGline l (fun t => if (t.st == .sInv) = true then { t with st := .i } else t))
      exact h2.trans (requeue _ l _ (h2.allSplit hs))

theorem arriveFenced (x : X) (l : Nat) (r : HomeReq) (hs : x.AllSplit) : Traffic x (x.arriveFenced l r) := by
  obtain ⟨kind, port⟩ := r
  unfold X.arriveFenced
  have h : Traffic x (x.on (fun d => d.fencedRec l)) := (refl x).dev ((Flow.refl _).fencedRec l)
  generalize x.on (fun d => d.fencedRec l) = y at h ⊢
  have hy := h.allSplit hs
  cases kind <;> cases port <;>
  first
  | exact h
  | exact h.dev ((Flow.refl _).toCore _ _ _ _ _)
  | exact h.trans (atomBack y _ _ _ _ hy)
  | exact h.trans (wrote y _ _ hy)
  | exact h.dev ((Flow.refl _).toPort _ _ _ _ _)

theorem queueUp (x : X) (l : Nat) (r : HomeReq) (g : GLine) : Traffic x (x.queueUp l r g) := by
  unfold X.queueUp
  refine trans ?_ (setGline _ l _)
  split
  · split
    · exact (refl x).dev ((Flow.refl _).count _ _ _ _)
    · exact refl x
  · exact refl x

theorem present (x : X) (l : Nat) (r : HomeReq) (g : GLine) (hs : x.AllSplit) : Traffic x (x.present l r g) := by
  have h1 : ∀ (p : GLine) (q : MPort), Traffic x ((x.on (fun d => d.setGline l p)).wrote q l) := fun p q =>
    (setGline x l p).trans (wrote _ q l ((setGline x l p).allSplit hs))
  have h0 : ∀ p : GLine, Traffic x (if r.kind.looksUp = true then x.on (fun d => d.setGline l p) else x) := fun p => ite (setGline x l p) (refl x)
  have h3 : ∀ p : GLine, Traffic x (if g.open' r = true then (if r.kind.looksUp = true then x.on (fun d => d.setGline l p) else x).serve l r
      else x.queueUp l r g) := fun p => ite ((h0 p).trans (serve _ l r ((h0 p).allSplit hs))) (queueUp x l r g)
  unfold X.present
  generalize g.st = st
  cases st with
  | hBi =>
    obtain ⟨kind, port⟩ := r
    cases kind with
    | memWr m a h => exact h1 _ _
    | _ => exact h3 _
  | _ => exact h3 _

theorem arrive (x : X) (l : Nat) (r : HomeReq) (hs : x.AllSplit) : Traffic x (x.arrive l r) := by
  unfold X.arrive
  split
  · exact arriveFenced x l r hs
  · have h0 : Traffic x { x with dev := (if r.kind.streams = true then x.dev.stream l r.port else (x.dev, false)).1 } := by
      split
      · exact (refl x).dev ((Flow.refl _).stream l r.port)
      · exact refl x
    generalize (if r.kind.streams = true then x.dev.stream l r.port else (x.dev, false)) = st at h0 ⊢
    have tail : ∀ y : X, Traffic x y → Traffic x (match y.dev.gline l with
      | some g => y.present l r g
      | none => if r.kind.looksUp = true then y.absent l r st.2 else y) := by
      intro y h1
      generalize y.dev.gline l = o
      cases o with
      | some g => exact h1.trans (present y l r _ (h1.allSplit hs))
      | none => exact ite (h1.trans (absent y l r _ (h1.allSplit hs))) h1
    refine tail _ ?_
    generalize r.kind.looksUp = b
    cases b with
    | true => exact h0.dev ((Flow.refl _).lookup l)
    | false => exact h0

end Traffic

end Sys2Proof.Machine
end

