-- ==== Sys2Proof/Laws/Home.lean ====
section
/-! SUPPORT. The directory entry of a line under the operations that touch it, and a request that finds its line present and free. -/

namespace Sys2Proof.Machine

@[simp] theorem Dev.gline_setGline (d : Dev) (l : Nat) (g : GLine) : (d.setGline l g).gline l = some g := by
  simp only [Dev.gline, Dev.setGline, Dev.slice_setSlice, kfind_kset]

theorem Dev.gline_setGline_ne (d : Dev) (l m : Nat) (g : GLine) (h : m ≠ l) : (d.setGline l g).gline m = d.gline m := by
  simp only [Dev.gline, Dev.setGline]
  by_cases e : sliceOf m = sliceOf l
  · rw [e, Dev.slice_setSlice]; exact kfind_kset_ne _ _ _ _ h
  · rw [Dev.slice_setSlice_ne _ _ _ _ e]

/-- A line's entry depends on the Gallery alone. -/
theorem Dev.gline_of_gal (d e : Dev) (l : Nat) (h : d.gal = e.gal) : d.gline l = e.gline l := by simp only [Dev.gline, Dev.slice, h]

/-- A change of a slice that keeps its lines keeps every entry. -/
theorem Dev.gline_setSlice (d : Dev) (n l : Nat) (f : Slice → Slice) (h : ∀ t, (f t).lines = t.lines) : (d.setSlice n f).gline l = d.gline l := by
  simp only [Dev.gline]
  by_cases e : sliceOf l = n
  · rw [e, Dev.slice_setSlice, h]
  · rw [Dev.slice_setSlice_ne _ _ _ _ e]

/-- A view in which a request has been seen: its stream entry and its lookup are counted, and nothing that a line or a message holds has changed. -/
structure Looked (x y : X) : Prop where
  dev : y.dev = { x.dev with gal := y.dev.gal, cnt := y.dev.cnt, vits := y.dev.vits }
  lines : ∀ n, (y.dev.slice n).lines = (x.dev.slice n).lines
  ops : ∀ n, (y.dev.slice n).ops = (x.dev.slice n).ops
  mem : y.mem = x.mem
  memOps : y.ops = x.ops
  mops : y.mops = x.mops

theorem Looked.gline {x y : X} (h : Looked x y) (l : Nat) : y.dev.gline l = x.dev.gline l := by simp only [Dev.gline, h.lines]

theorem Looked.refl (x : X) : Looked x x := ⟨rfl, fun _ => rfl, fun _ => rfl, rfl, rfl, rfl⟩
theorem Looked.trans {x y z : X} (h : Looked x y) (k : Looked y z) : Looked x z :=
  ⟨by rw [k.dev, h.dev], fun n => (k.lines n).trans (h.lines n), fun n => (k.ops n).trans (h.ops n), k.mem.trans h.mem, k.memOps.trans h.memOps, k.mops.trans h.mops⟩

theorem Looked.stream (x : X) (l : Nat) (p : MPort) : Looked x { x with dev := (x.dev.stream l p).1 } := by
  simp only [Dev.stream]
  refine ⟨rfl, fun n => ?_, fun n => ?_, rfl, rfl, rfl⟩ <;>
  · by_cases e : n = sliceOf l
    · subst e; rw [Dev.slice_setSlice]; rfl
    · rw [Dev.slice_setSlice_ne _ _ _ _ e]

theorem Looked.lookup (x : X) (l : Nat) : Looked x (x.on (fun d => d.lookup l)) := by
  have h : ∀ d : Dev, d = { x.dev with cnt := d.cnt, vits := d.vits } → Looked x { x with dev := d } := fun d e =>
    ⟨by rw [e], fun m => by rw [e]; rfl, fun n => by rw [e]; rfl, rfl, rfl, rfl⟩
  refine h _ ?_
  simp only [Dev.lookup]
  split
  · split <;> rfl
  · rfl

/-- A request that finds its line present and free is served, its line the most recent of its set. -/
theorem X.arrive_free (x : X) (l : Nat) (r : HomeReq) (g : GLine) (hf : x.dev.isFenced (dieOfVit (vitOfAddr (l * 128))) = false) (hg : x.dev.gline l = some g)
    (ho : g.open' r = true) : ∃ (y : X) (u : Int), Looked x y ∧
    x.arrive l r = (if r.kind.looksUp = true then y.on (fun d => d.setGline l { g with used := u }) else y).serve l r := by
  have h0 : Looked x { x with dev := (if r.kind.streams = true then x.dev.stream l r.port else (x.dev, false)).1 } := by
    split
    · exact Looked.stream x l r.port
    · exact Looked.refl x
  unfold X.arrive
  simp only [hf, Bool.false_eq_true, if_false]
  generalize (if r.kind.streams = true then x.dev.stream l r.port else (x.dev, false)) = st at h0 ⊢
  have tail : ∀ y : X, Looked x y → ∃ (z : X) (u : Int), Looked x z ∧ (match y.dev.gline l with
      | some g => y.present l r g
      | none => if r.kind.looksUp = true then y.absent l r st.2 else y) =
        (if r.kind.looksUp = true then z.on (fun d => d.setGline l { g with used := u }) else z).serve l r := by
    intro y h
    have hy : y.dev.gline l = some g := (h.gline l).trans hg
    rw [hy]
    refine ⟨y, mruPos (y.dev.inSet (sliceOf l) (setOf l)), h, ?_⟩
    have hst : g.st ≠ .hBi := by
      intro e; simp [GLine.open', e, DirSt.transient] at ho
    show y.present l r g = _
    unfold X.present
    split
    · rename_i e _; exact absurd e hst
    · rw [if_pos ho]
  refine tail _ ?_
  split
  · exact h0.trans (Looked.lookup { x with dev := st.1 } l)
  · exact h0

end Sys2Proof.Machine
end

