-- ==== Sys2Proof/WellFormed.lean ====
section
/-! DEFINITION. Well-formed commands: the bounds that the formats of the spec put on a command's operands. -/

namespace Sys2Proof

/-- A payload of a Catalogue PDU: at most 1,440 bytes, as LENGTH says (R301). -/
def payloadOk (h : PduHead) (data : List Byte) : Bool := data.length ≤ 1440 && h.length.toNat == data.length

/-- An operation of the fabric: DATA_SLOTS 0-4, whose slots carry its data of at most 256 bytes (R247). -/
def ROp.wf (o : ROp) : Bool := o.dataSlots.toNat ≤ 4 && o.data.length ≤ 64 * o.dataSlots.toNat

/-- A fabric frame: its operations and their data fit its 38 slots (R238). -/
def FabFrame.wf (f : FabFrame) : Bool := f.ops.all ROp.wf && (f.ops.map (fun o => 1 + o.dataSlots.toNat)).sum ≤ 38

/-- Readings of a die: its four Vitrines (R328). -/
def DieReading.wf (r : DieReading) : Bool := r.arrayPower.length == 4 && r.attrPower.length == 4

/-- The issue stage's view of a core: its 64 groups at most (R36). -/
def viewsOk (l : List IssueView) : Bool := l.length ≤ 64

/-- A Condition Record's tables: a row of cores per Vitrine, a trim per die (R374). -/
def RecordInfo.wf (r : RecordInfo) : Bool :=
  r.retiredSlots.length ≤ 32 && r.trim.length ≤ 8 && r.trimHistory.length ≤ 8 && r.failedWays.all (fun e => e.1 < 768) &&
  r.failedLanes.all (fun e => e.1 < 144) && r.failedSeam.all (fun e => e.1 < 16) && r.lasers.all (fun e => e.1 < 120)

/-- What a start-up step found: rows of BUNDLE_STATE, channels and stacks (R448). -/
def StepResult.wf (r : StepResult) : Bool :=
  r.badLanes.all (fun e => e.1 < 144) && r.channelsFailed.all (· < 768) && r.stacksFailed.all (· < 24)

/-- A command whose operands keep the bounds of their formats. -/
def Instr.wf : Instr → Bool
  | .issueCycle _ views => viewsOk views
  | .hbmRmw _ _ _ _ ops _ => ops.length ≤ 32
  | .atomred _ _ ops _ => ops.length ≤ 32
  | .fabricFrameReceive _ f => f.wf
  | .remoteOpArrival _ o => o.wf
  | .remoteAck _ o => o.wf
  | .transitForward _ o => o.wf
  | .paceReceive o => o.wf
  | .commit o => o.wf
  | .takeover o => o.wf
  | .write h data => payloadOk h data
  | .writeSegment h data => payloadOk h data
  | .catalogue _ _ h data => payloadOk h data
  | .powerControlInterval _ rd => rd.wf
  | .powerBudgetTick ext _ => ext.length == 8
  | .loadSegment _ _ data => data.length ≤ 2 ^ 20
  | .startVerifyDone _ record => record.wf
  | .startupStepDone res => res.wf
  | _ => true

end Sys2Proof
end

