-- ==== Sys2Proof/Tests/Slice0.lean ====
section
/-! SUPPORT. Tests: an ill-formed command for each check of WellFormed, states that meet the statements' hypotheses, and a few steps whose results
the spec gives. -/

namespace Sys2Proof.Tests

open Sys2Proof Sys2Proof.Machine

set_option Elab.async false

/-! ### Ill-formed commands -/

/-- An operation whose fields are all zero. -/
def op0 : ROp :=
  { dest := 0, src := 0, group := 0, epoch := 0, tag := 0, srcVit := 0, type := .put, op := 0, dataSlots := 0, hops := 0, address := 0, length := 0,
    status := 0, attempt := 0, operand0 := 0, operand1 := 0, crcOk := true, data := [] }
/-- An operation with a byte of data that no slot carries. -/
def opBad : ROp := { op0 with data := [0] }
/-- A frame with no operations. -/
def frame0 : FabFrame :=
  { frameSeq := 0, ackSeq := 0, nak := false, stopped := false, mgmtOnly := false, dataCredits := 0, transitCredits := 0, mgmtCredits := 0, corrected := 0,
    decodes := true, crcOk := true, authOk := true, ops := [] }
/-- A header whose LENGTH is 0. -/
def pdu0 : PduHead := { port := .pf, seq := 0, entry := { index := 0, sub := 0 }, offset := 0, length := 0, reservedZero := true, version := 1 }
/-- A Condition Record with empty tables. -/
def rec0 : RecordInfo :=
  { pufOk := true, signatureOk := true, serial := 0, seq := 0, retirements := [], retiredSlots := [], failedWays := [], failedLanes := [], failedSeam := [],
    withdrawn := 0, lasers := [], trim := [], trimHistory := [], hours := 0, provisioned := [] }
/-- A bundle. -/
def bundle0 : BundleInfo :=
  { formatOk := true, keyIndex := 0, signatureOk := true, digestOk := true, svn := 0, steppings := [], ifMin := 0, ifMax := 0, version := 0,
    registrarVersion := 0, registrarDigest := 0 }
/-- A result of a start-up step that found nothing. -/
def found0 : StepResult := { ok := true, badLanes := [], channelsFailed := [], stacksFailed := [], diesFailed := [], entries := [] }
/-- An element operation. -/
def elem0 : ElemOp := { off := 0, op := .add, wide := false, val := 0, cmp := 0, lane := 0 }
/-- A view of a group. -/
def view0 : IssueView := { slot := 0, grp := 0, cls := .v, ready := true, missed := false, second := none }

theorem test_wf_issueCycle : (Instr.issueCycle 0 (List.replicate 65 view0)).wf = false := by decide
theorem test_wf_hbmRmw : (Instr.hbmRmw 0 0 0 0 (List.replicate 33 elem0) .none).wf = false := by decide
theorem test_wf_atomred : (Instr.atomred 0 0 (List.replicate 33 elem0) true).wf = false := by decide
theorem test_wf_fabricFrameReceive : (Instr.fabricFrameReceive 0 { frame0 with ops := [opBad] }).wf = false := by decide
theorem test_wf_fabricFrameSlots : (Instr.fabricFrameReceive 0 { frame0 with ops := List.replicate 39 op0 }).wf = false := by decide
theorem test_wf_remoteOpArrival : (Instr.remoteOpArrival 0 { op0 with dataSlots := 5 }).wf = false := by decide
theorem test_wf_remoteAck : (Instr.remoteAck 0 opBad).wf = false := by decide
theorem test_wf_transitForward : (Instr.transitForward 0 opBad).wf = false := by decide
theorem test_wf_paceReceive : (Instr.paceReceive opBad).wf = false := by decide
theorem test_wf_commit : (Instr.commit opBad).wf = false := by decide
theorem test_wf_takeover : (Instr.takeover opBad).wf = false := by decide
theorem test_wf_write : (Instr.write pdu0 [0]).wf = false := by decide
theorem test_wf_writeSegment : (Instr.writeSegment pdu0 [0]).wf = false := by decide
theorem test_wf_catalogue : (Instr.catalogue none 0 pdu0 [0]).wf = false := by decide
theorem test_wf_powerControlInterval : (Instr.powerControlInterval 0 { temp := 0, arrayPower := [], attrPower := [] }).wf = false := by decide
theorem test_wf_powerBudgetTick : (Instr.powerBudgetTick [] 0).wf = false := by decide
theorem test_wf_loadSegment (l : List Byte) (h : 2 ^ 20 < l.length) : (Instr.loadSegment 0 0 l).wf = false := by
  simp only [Instr.wf, decide_eq_false_iff_not]; omega
theorem test_wf_startVerifyDone : (Instr.startVerifyDone bundle0 { rec0 with trim := List.replicate 9 0 }).wf = false := by decide
theorem test_wf_startupStepDone : (Instr.startupStepDone { found0 with stacksFailed := [24] }).wf = false := by decide

/-! ### States that meet hypotheses -/

/-- The state after reset with another machine. -/
def withDev (d : Dev) : State := { State.reset with dev := d }
/-- A step of V0 alone. -/
def step0 : StepRec := { leader := 0, ringVit := 0, ring := 0, seq := 0, raw := 0, mask := 1 }
/-- A group of one path with all 32 threads. -/
def grp0 : Group := { paths := [{ pc := 0, mask := BitVec.allOnes 32 }], active := true }
/-- A block of one group with 16 registers. -/
def blk0 : Block := { launch := { blocks := 2, g := 1, r := 16, s := 2048, c := 65536 }, groups := [grp0], scrGran := [0], clusGran := [0] }
/-- The group of that block. -/
def g0 : GRef := { core := 0, slot := 0, grp := 0 }
/-- Its path. -/
def path0 : RPath := { pc := 0, mask := BitVec.allOnes 32 }
/-- A core that holds a block, with an issue slot of a class taken for its first group. -/
def core0 (cls : IClass) (b : Block) : Core := { slots := [(0, b)], issued := [{ slot := 0, grp := 0, cls := cls }] }
/-- Die 0 runs a step on V0, whose core 0 is `k`. -/
def devK (k : Core) : Dev :=
  { clk := [(0, { running := true })], vits := [(0, { st := .assigned, leader := some 0 })], cores := [(0, k)], srv := { steps := [step0] } }
def dev0 (cls : IClass) : Dev := devK (core0 cls blk0)

theorem witness_issues (cls : IClass) : (dev0 cls).Issues g0 cls blk0 grp0 path0 := by cases cls <;> exact ⟨by decide, by decide, by decide⟩
theorem witness_ready : Ready blk0 grp0 [0, 1, 2, 15] := ⟨by decide, by decide⟩
/-- A step from the state after reset with an empty queue completes. -/
theorem witness_step : ∃ t, step State.reset = .next t ∧ State.reset.pending = [] := ⟨_, rfl, rfl⟩
theorem witness_canonical : State.reset.Canonical := by show Memory.wf _ = true; decide
theorem witness_places : vitOfCore (BitVec.ofNat 9 (7 * 64 + 1 * 32 + 3 * 8 + 7)) = 31 := by decide
theorem witness_slots : (withDev {}).dev.vset 0 0 4 ≤ 16 := by decide

/-! ### Threads and blocks -/

/-- VECTOR_ARITHMETIC: a move of register 0. -/
theorem witness_vectorArithmetic : ∃ (w : Nat → Word) (fl : Nat → Flags), vopPred .mov = false ∧ Ready blk0 grp0 ([0].take (vopReads .mov) ++ [15]) ∧
    ∀ l, vop .mov .rne (grp0.reg 0 l) (grp0.reg 0 l) (grp0.reg 0 l) = .word (w l) (fl l) := ⟨_, _, rfl, ⟨by decide, by decide⟩, fun _ => rfl⟩
/-- A comparison into the last predicate. -/
theorem witness_comparison : ∃ (r : Nat → Bool) (fl : Nat → Flags), vopPred (.icmp .eq) = true ∧ Ready blk0 grp0 ([0, 1, 2].take (vopReads (.icmp .eq))) ∧
    ∀ l, vop (.icmp .eq) .rne (grp0.reg 0 l) (grp0.reg 1 l) (grp0.reg 2 l) = .bit (r l) (fl l) := ⟨_, _, rfl, ⟨by decide, by decide⟩, fun _ => rfl⟩
theorem witness_rowmax : rowWidth (2 : BitVec 6).toNat = true ∧ rowWidth (32 : BitVec 6).toNat = true := by decide +kernel
theorem witness_cvtb : Fmt.scaled .e4m3 = true := by decide +kernel
/-- Register 16 is at the block's r. -/
theorem witness_illegalRegister : (16 : Byte).toNat ≥ blk0.launch.r ∧ ((dev0 .v).core 0).exc = none ∧ (dev0 .v).stepOn (vitOfCore 0) = some step0 ∧
    step0.mask.getLsbD (vitOfCore 0).toNat = true ∧ step0 ∈ (dev0 .v).srv.steps := by decide +kernel
/-- TRAP without a debugger, and with one. -/
theorem witness_trap : (dev0 .b).vset ((((dev0 .b).vit (vitOfCore 0)).leader).getD 0) 0xD 1 = 0 := by decide +kernel
theorem witness_trapDebug : ({ dev0 .b with cat := { force := [(ckey 0x300D 1 0, 1)] } } : Dev).vset 0 0xD 1 = 1 := by decide +kernel
/-- BRX: no thread, every thread and lane 0 alone takes the branch. -/
theorem witness_brx : path0.mask &&& 0 = 0 ∧ path0.mask &&& BitVec.allOnes 32 = path0.mask ∧ path0.mask &&& 1 ≠ 0 ∧ path0.mask &&& 1 ≠ path0.mask := by decide +kernel
theorem witness_bri : Ready blk0 grp0 [0, 0 + 1] ∧ grp0.stack.length < 32 := ⟨⟨by decide, by decide⟩, by decide⟩
/-- JOIN: an entry of all threads, of which lane 0 alone arrives. -/
theorem witness_join : (1 : Mask) &&& BitVec.allOnes 32 = 1 ∧ (((0 : Mask) ||| 1 ||| 0) &&& BitVec.allOnes 32) ≠ BitVec.allOnes 32 := by decide +kernel
theorem witness_barrier : (dev0 .b).mayArrive g0 grp0 = true := by decide +kernel
/-- A group parked at a barrier of the group since cycle 0. -/
def grpBar : Group := { grp0 with paths := [], parked := [(0, { why := .barG, at' := 0, pc := 4 })], barG := some 0 }
theorem witness_barrierWatchdog : (devK (core0 .b { blk0 with groups := [grpBar] })).grp g0 = some ({ blk0 with groups := [grpBar] }, grpBar) ∧
    watchedBar { blk0 with groups := [grpBar] } grpBar none = some (0, grpBar.parked) ∧ (dev0 .b).runs (dieOfCore 0) = true ∧ ((dev0 .b).vit (vitOfCore 0)).halt ≠ 2 := by decide +kernel
/-- WAIT of lane 0 on the first word of the window. -/
def path1 : RPath := { pc := 0, mask := 1 }
def grp1 : Group := { grp0 with paths := [path1] }
def blk1 : Block := { blk0 with groups := [grp1] }
def dev1 (cls : IClass) : Dev := devK (core0 cls blk1)
theorem witness_issues1 (cls : IClass) : (dev1 cls).Issues g0 cls blk1 grp1 path1 := by cases cls <;> exact ⟨by decide, by decide, by decide⟩
theorem witness_wait : (bits path1.mask).map (fun l => (l, (dev1 .b).resolve 0 blk1 .global (laneAddr grp1 .global 0 0 l) 4)) = [(0, Target'.ok 0)] ∧ grp1.fence = none ∧
    [(0, 0)].any (fun e => (dev1 .b).ownAccess g0 .global e.1 e.2) = false ∧ Ready blk1 grp1 (addrRegs .global 0 ++ [2, 3]) :=
  ⟨by decide, by decide, by decide, ⟨by decide, by decide⟩⟩
/-- A thread parked by WAIT for a word of 0 to equal 0, and one for it to equal 1. -/
def wait0 (v : Word) : WaitRec := { space := .global, addr := 0, value := v, cond := .eq, start := 0, limit := 100, tested := 0 }
def grpWait (v : Word) : Group := { grp0 with paths := [], parked := [(0, { why := .wait (wait0 v), at' := 0, pc := 4 })] }
def devWait (v : Word) : Dev := devK (core0 .b { blk0 with groups := [grpWait v] })
theorem witness_waitRetest : ∀ v, (v = 0 ∨ v = 1) → ((devWait v).grp g0).map (·.2) = some (grpWait v) ∧ (grpWait v).waitOf 0 = some (wait0 v) ∧ (devWait v).groupLives g0 = true ∧
    condHolds .eq (({ dev := devWait v, mem := State.reset.mem, mram := State.reset.mram } : X).waitWord .global 0) v = decide (v = 0) := by
  rintro v (rfl | rfl) <;> decide +kernel
/-- A launch of two blocks that fits, waiting, in progress with one block still to place, and with every resident block blocked. -/
def devDisp (p : Disp) (slots : KMap Block) : Dev :=
  { clk := [(0, { running := true })], vits := [(0, { st := .assigned, leader := some 0, disp := p })], cores := [(0, { slots := slots })], srv := { steps := [step0] } }
theorem witness_launchDispatch : (devDisp { launches := [(0, blk0.launch)] } []).dispatches 0 = true ∧ Disp.idle { launches := [(0, blk0.launch)] } = true ∧ step0.holds = false ∧
    (devDisp { launches := [(0, blk0.launch)] } []).stepOn 0 = some step0 ∧ (devDisp { launches := [(0, blk0.launch)] } []).launchOk blk0.launch = true := by decide +kernel
theorem witness_blockDispatch : ((List.range 16).map (fun k => (0 + k) % 16)).find? (fun k => (devDisp { cur := some (0, blk0.launch) } []).fits (BitVec.ofNat 9 (0 * 16 + k)) blk0.launch) = some 0 ∧
    0 < blk0.launch.blocks := by decide +kernel
theorem witness_blockRetire : (devDisp {} [(0, { blk0 with groups := [{ grp0 with paths := [], exited := BitVec.allOnes 32 }] })]).quiet 0 0 = true ∧
    ([({ grp0 with paths := [], exited := BitVec.allOnes 32 } : Group)]).all Group.done = true := by decide +kernel
/-- A view of the group of core 0, which has stood in the active set for two cycles. -/
theorem witness_issueCycle : (devK (core0 .v blk0)).runs (dieOfCore 0) = true ∧ (devK (core0 .v blk0)).isClocked (vitOfCore 0) = true ∧
    ({ devK (core0 .v blk0) with clk := [(0, { running := true, core := 2 })] } : Dev).mayRun 0 view0 = true ∧
    ({ devK (core0 .v blk0) with clk := [(0, { running := true, core := 2 })] } : Dev).inActive 0 view0 = true ∧
    ({ devK (core0 .v blk0) with clk := [(0, { running := true, core := 2 })] } : Dev).unitFree 0 .v = true ∧
    ({ devK (core0 .v blk0) with clk := [(0, { running := true, core := 2 })] } : Dev).cycOf 0 = 2 := by decide +kernel
/-- Every resident block blocked since cycle 0, and one of 16 groups of 256 registers whose launch has a second block. -/
def blkBig : Block := { launch := { blocks := 2, g := 8, r := 256, s := 2048, c := 65536 }, groups := List.replicate 8 { grp0 with paths := [], parked := [(0, { why := .barG, at' := 0, pc := 4 })] },
                        scrGran := [0], clusGran := [0], blockedAt := some 0, admitted := 0 }
def devSwap : Dev := { devDisp { cur := some (0, blkBig.launch), next := 1 } [(0, blkBig)] with clk := [(0, { running := true, core := 5000, root := 20000 })] }
theorem witness_blockSwap : devSwap.dispatches (vitOfCore 0) = true ∧ (devSwap.core 0).swap = none ∧ devSwap.resident 0 ≠ [] ∧
    (devSwap.resident 0).all (fun b => b.blockedAt.isSome && !b.restoring) = true ∧
    (({ dev := devSwap, mem := State.reset.mem, mram := State.reset.mram } : X).makeRoom 0 blkBig.launch).isSome = true := by decide +kernel
theorem witness_swapComplete : ({ slots := [(0, blk0)], swap := some { start := 0, cycles := 400, slot := 0 } } : Core).swap = some { start := 0, cycles := 400, slot := 0 } := by decide +kernel

/-! ### Accesses and the home -/

/-- LOAD of a word into registers 4 to 7 by lane 0, from the window and from scratch; a STORE and a RED. -/
theorem witness_load : lsuSize 2 = some 4 ∧ (∀ sp : Space, (dev1 .m).Reaches g0 blk1 path1 sp 0 4 (fun l => laneAddr grp1 sp 0 0 l)
    [(0, (match sp with | .global => 0 | .cluster => 0 | .scratch => 0 | .step => 0))] ∨ sp = .step) := by
  refine ⟨by decide +kernel, fun sp => ?_⟩
  cases sp <;> first | exact .inr rfl | exact .inl ⟨by decide +kernel, fun h => by first | (cases h; rfl) | exact rfl⟩
theorem witness_loadRegs : Ready blk1 grp1 (addrRegs .global 0 ++ lsuRegs 4 4) ∧ (dev1 .m).AllSplit ∧ ((dev1 .m).core 0).ops = [] ∧ Memory.wf State.reset.mem = true :=
  ⟨⟨by decide, by decide⟩, by intro i h; exact absurd h List.not_mem_nil, by decide +kernel, by decide +kernel⟩
theorem witness_store : (dev1 .m).Reaches g0 blk1 path1 .scratch 1 4 (fun l => laneAddr grp1 .scratch 0 0 l) [(0, 0)] := ⟨by decide +kernel, fun h => by cases h⟩
theorem witness_red : (dev1 .m).Reaches g0 blk1 path1 .global 1 4 (fun l => laneAddr grp1 .global 0 0 l) [(0, 0)] := ⟨by decide +kernel, fun _ => rfl⟩
theorem witness_atomic : (false && !atomWide .add) = false := by decide
/-- A load whose lane 0 has its value. -/
def opDone : OutOp := { id := 7, owner := { slot := 0, grp := 0, launchIx := 0, block := 0, seq := 0 }, kind := .load, space := .global, dst := 4, size := 4, accs := [],
                        vals := [(0, 9)], poisoned := false, pc := 0 }
def devOp : Dev := devK { core0 .m blk0 with ops := [opDone] }
theorem witness_loadDataReturn : devOp.grp g0 = some (blk0, grp0) ∧ devOp.op? 0 7 = some opDone ∧ opDone.reads = true ∧ opDone.ofGroup g0 blk0 = true ∧ opDone.poisoned = false ∧
    (opDone.vals.map (·.1)).Nodup ∧ (∀ e ∈ opDone.vals, e.1 < 32) := by decide +kernel
/-- A fence that covers nothing outstanding. -/
def fence0 : FenceRec := { kind := .d, at' := 0, ops := [], tiles := [], remote := [], ranges := [] }
theorem witness_fenceComplete : (devK (core0 .m { blk0 with groups := [{ grp0 with fence := some fence0 }] })).fenceDone 0 fence0 = true ∧
    (devK (core0 .m { blk0 with groups := [{ grp0 with fence := some fence0 }] })).groupLives g0 = true := by decide +kernel

/-- The first line of the window at its home, with messages in flight. -/
def devL (g : GLine) (ms : List Msg := []) : Dev :=
  { clk := [(0, { running := true })], vits := [(0, { st := .assigned, leader := some 0 })], gal := [(sliceOf 0, { lines := [(0, g)] })], msgs := ms }
theorem witness_home : (devL { way := 0 }).AtHome 0 ∧ (devL { way := 0 }).gline 0 = some { way := 0 } := ⟨⟨by decide, by decide +kernel, by decide +kernel⟩, by decide +kernel⟩
theorem witness_requests : (devL { way := 0 }).Admits .getS 0 { kind := .getS, port := .core 0 } ∧ (devL { way := 0 }).Admits .getM 0 { kind := .getM, port := .core 511 } ∧
    (devL { way := 0 }).Admits .rdU 0 { kind := .rdU, port := .dma 0 } ∧ (devL { way := 0 }).Admits .wrU 0 { kind := .wrU 1 0 0, port := .dma 0 } ∧
    (devL { way := 0 }).Admits .atomRed 0 { kind := .atom [elem0] false, port := .core 0 } :=
  ⟨⟨by decide +kernel, by decide +kernel⟩, ⟨by decide +kernel, by decide +kernel⟩, ⟨by decide +kernel, by decide +kernel⟩, ⟨by decide +kernel, by decide +kernel⟩,
   ⟨by decide +kernel, by decide +kernel⟩⟩
theorem witness_transient : (DirSt.fill).transient = true ∧ (devL { way := 0, st := .fill }).arrives .getS 0 (some 0) = true := by decide +kernel
/-- Answers that may arrive: of the owner, of a recalled one and of sharers. -/
theorem witness_answers : (∀ k ∈ [MsgKind.putE, .putM, .rspData, .rspNoData, .invAck], (devL { way := 0, st := .ol, owner := some 3 }).arrives k 0 (some 3) = true) := by decide +kernel
/-- A message in flight arrives in its turn. -/
theorem witness_inFlight : (devL { way := 0, st := .ol, owner := some 3 } [{ kind := .putM, line := 0, core := some 3 }]).arrives .putM 0 (some 3) = true := by decide +kernel
theorem witness_hbmFillData : ((devL { way := 0, st := .fill }).inSet (sliceOf 0) (setOf 0)).any (fun e => e.1 != 0 && e.2.way == 0) = false := by decide +kernel
/-- A slice with two element operations left on its line. -/
def sliceOps : Slice := { lines := [(0, { way := 0, ops := 1 })], ops := [{ line := 0, todo := [elem0, elem0], old := [], core := none, returns := false }] }
theorem witness_sliceOpApply : (devL { way := 0 }).runs (sliceOf 0 / 96) = true ∧ sliceOps.ops = [{ line := 0, todo := [elem0, elem0], old := [], core := none, returns := false }] ∧
    (∀ k ∈ [elem0, elem0], ({ way := 0, ops := 1 } : GLine).poison.getLsbD (k.off.toNat / 64) = false) := by decide +kernel
theorem witness_streamEntryExpiry : ((({ streams := [(.dma 0, [{ next := 1, advances := 0, moved := 0, live := true }])] } : Slice)).port (.dma 0))[0]? =
    some { next := 1, advances := 0, moved := 0, live := true } := by decide +kernel

/-! ### Power -/

/-- Die 0 runs; its power record is `q`, `ref` reference cycles have passed. -/
def devPow (q : DiePow) (ref : Nat := 0) : Dev :=
  { ref := ref, clk := [(0, { running := true, core := 65536, root := 2 ^ 40 })], vits := [(0, { st := .assigned, leader := some 0 })], srv := { steps := [step0] }, pow := { dies := [(0, q)] } }
theorem witness_powerControlInterval : (devPow {}).runs 0 = true ∧ ((devPow {}).dpow 0).at' + 65536 ≤ (devPow {}).cyc 0 ∧ (devPow {}).runsStep 0 = true ∧ (devPow {}).vset 0 9 3 = 0 ∧
    ((devPow {}).vit 0).cls = 0 ∧ ((devPow {}).vit 0).duty0 = 64 := by decide +kernel
theorem witness_pstateChange : (2 : Fin 3).val = (devPow { p := 2 }).wantP 0 ∨ (1 : Fin 3).val = (devPow { p := 2 }).wantP 0 ∨ (0 : Fin 3).val = (devPow { p := 2 }).wantP 0 := by decide +kernel
theorem witness_pstateLower : (devPow { p := 0, low2 := 5 }).dpow 0 = { p := 0, low2 := 5 } ∧ ¬ (2 : Fin 3).val < 0 := by decide +kernel
theorem witness_pstateSwitchDone : 0 + 2 * ((devPow { goal := some 1 } 1000).vfMv 1 - (devPow { goal := some 1 } 1000).vfMv 2) ≤ (devPow { goal := some 1 } 1000).ref := by decide +kernel
theorem witness_powerBudgetTick : (devPow {} 100000).pow.budgetAt + 100000 ≤ (devPow {} 100000).ref := by decide +kernel
theorem witness_stackTempRead : 8 * ((kget ({} : HStack) (devPow {}).hbm.stk 0).readAt + 2 ^ 20) ≤ ((devPow {}).die 0).root ∧ 106 ≤ (106 : BitVec 8).toInt := by decide +kernel
theorem witness_regulatorStatusPoll : kfind (({ causes := [(5, none)] } : DiePow)).causes 5 = some none ∧ [(0 : BitVec 16)].all (fun w => w == 0) = true := by decide
theorem witness_hardLimitExit : ∀ e ∈ (({ hard := true, causes := [(0, some 0)] } : DiePow)).causes, ∃ n, e.2 = some n ∧ n + 100000 ≤ (devPow {} 100000).ref := by
  intro e h; simp at h; subst h; exact ⟨0, rfl, by decide +kernel⟩
theorem witness_railOvervoltage : 900 ≤ (900 : BitVec 16).toNat ∧ (({} : DiePow)).trip = none := by decide
theorem witness_arrayCurrentLimit : 3000 < (3001 : BitVec 16).toNat ∧ (({} : Engine)).ivalAt = none := by decide
theorem witness_marginCheck : ({} : DiePow).marginAt + 2 ^ 36 ≤ (devPow {} (2 ^ 36)).ref ∧ ({} : DiePow).trim < (devPow {} (2 ^ 36)).force 0x2000 8 0 := by decide +kernel

/-! ### PACE, stated rules and HBM -/

/-- V0 leads its tenancy in a fabric group with device 7, at reference cycle 1,000, with a notice unsent. -/
def devPace (q : PaceSt) (ref : Nat := 1000) : Dev :=
  { ref := ref, cat := { acc := [(ckey 0x5000 1 0, 3)], force := [(ckey 0x3009 1 0, 9), (ckey 0x300A 1 0, 128)] },
    vits := [(0, { st := .assigned, leader := some 0, pace := q })] }
theorem witness_paceSend : ((devPace { unsent := true }).vit 0).pace = { unsent := true } ∧ ((devPace {}).members 0 = [7]) := by decide +kernel
theorem witness_paceLatest : ∃ n, ({ unsent := true, sentAt := some 0 } : PaceSt).sentAt = some n ∧ n + 1000 ≤ (devPace {}).ref := ⟨0, by decide⟩
/-- A notice of device 7, its fifth. -/
def opPace : ROp := { op0 with dest := 3, src := 7, group := 9, type := .pace, operand1 := 5 * 2 ^ 12 }
theorem witness_paceReceive : opPace.dest = (devPace {}).devId ∧ ((devPace {}).vit 0).leader = some 0 ∧ ((devPace {}).vit 0).held = true ∧ opPace.group = (devPace {}).group 0 ∧ opPace.group ≠ 0 ∧
    ((devPace {}).epoch 0).toNat ≤ opPace.epoch.toNat ∧ opPace.src ∈ (devPace {}).members 0 := by decide +kernel

/-- Conversions at the ends of the range, and ties. -/
theorem witness_convert : val32 0x7FC00000 = .nan ∧ val32 0xFF800000 = .inf true ∧ val32 0x7F800000 = .inf false ∧ RoundsTo .rne 5 2 2 ∧ RoundsTo .rz (-5) 2 (-2) ∧
    RoundsTo .rm (-5) 2 (-3) ∧ RoundsTo .rp 5 2 3 := by
  refine ⟨by decide +kernel, by decide +kernel, by decide +kernel, ?_, ?_, ?_, ?_⟩ <;> simp only [RoundsTo] <;> decide +kernel
theorem witness_shift : Ready blk0 grp0 [(0 : Byte).toNat, (1 : Byte).toNat, (15 : Byte).toNat] := ⟨by decide, by decide⟩

/-- Die 0 runs at HBM cycle 2^41; pseudo-channel 0 of channel 0 and its channel are given. -/
def devHbm (q : HPc) (h : HChan := {}) : Dev :=
  { clk := [(0, { running := true, root := 2 ^ 44 })], hbm := { pcs := [(0, q)], chans := [(0, h)] } }
/-- A read of the first burst. -/
def rd0 : HReq := { a := 0, high := false, at' := 0 }
theorem witness_hbm : (devHbm {}).hpc (0 : ChanId).val (pcOf 0) = {} ∧ (devHbm {}).runs (dieOfChan 0) = true ∧ hbmKey 0 (({} : HPc).home 0) / 64 = 0 := by decide +kernel
/-- The waiting read opens its row, hits it, and finds refreshes postponed. -/
theorem witness_hbmSchedule : (∀ q ∈ [({ reads := [rd0] } : HPc), { reads := [rd0], rows := [(0, 0)], postponed := 3 }], q.reads = [rd0] ∧ q.writes = [] ∧
      (q.hits (q.place rd0.a) = true ∨ q.postponed = 0)) ∧
    (({ reads := [rd0], postponed := 3 } : HPc).hits (({ reads := [rd0], postponed := 3 } : HPc).place 0) = false) := by decide +kernel
theorem witness_hbmBurstRead : ({ flight := [rd0] } : HPc).flight.find? (fun r => r.a / 64 == 0 / 64) = some rd0 := by decide +kernel
theorem witness_hbmRefresh : 8 * (({} : HPc).refAt + (devHbm {}).refInterval (stackOfChan 0)) ≤ ((devHbm {}).die 0).root := by decide +kernel
theorem witness_hbmCalibration : 8 * (({} : HPc).calAt + (devHbm {}).force 0x4000 3 0) ≤ ((devHbm {}).die 0).root ∧ (∀ e ∈ (devHbm {}).hbm.pcs, e.2.calEnd ≤ (devHbm {}).hbmCycle 0) := by
  decide +kernel
theorem witness_ondieCountRead : 8 * (kget 0 (devHbm {}).hbm.ondieAt 0 + 2 ^ 30) ≤ ((devHbm {}).die 0).root := by decide +kernel
theorem witness_hbmScrub : 8 * max (({} : HChan).scrubAt + (devHbm {}).force 0x4000 2 0) (({} : HPc).calEnd) ≤ ((devHbm {}).die 0).root ∧ ((devHbm {}).vit 0).leader = none ∧
    ({} : HPc).writing 0 = false := by decide +kernel
/-- Row 5 of bank 0 awaits retirement. -/
def row5 : HRow := { pc := 0, bank := 0, row := 5, unc := true }
theorem witness_rowRetire : bankNum ⟨0, 0, 0⟩ * 16384 + 5 = 5 ∧ ({ due := [row5] } : HChan).due.find? (fun r => r.pc == 0 && r.bank == 0 && r.row == 5) = some row5 ∧
    (devHbm {} { due := [row5] }).mayRepair 0 true = true ∧ ({} : HPc).spare 0 = some 15360 := by decide +kernel
/-- A pseudo-channel whose bank 0 has used its 128 spares, and one whose pool has 256 rows as well. -/
def hpcFull (n : Nat) : HPc := { remap := (List.range 128).map (fun i => (100 + i, 15360 + i)), pool := (List.range n).map (fun i => (300 + i, 31872 + i)) }
theorem witness_rowOffline : (hpcFull 0).spare 0 = none ∧ (hpcFull 0).poolFor 0 = some 31872 := by decide +kernel
theorem witness_rowOfflineFull : (hpcFull 256).spare 0 = none ∧ 256 ≤ (hpcFull 256).pool.length := by decide +kernel
theorem witness_bankRedirect : 64 ≤ (hpcFull 0).gone 0 ∧ kfind (hpcFull 0).redirected 0 = none ∧ (devHbm (hpcFull 0)).mayRepair 0 true = true := by decide +kernel

/-! ### Matrix engines, walkers and Provenance -/

/-- One dimension: extent, role and no coupling, stride 0. -/
def dimBits (extent role : Nat) : Nat := extent * 2 ^ 80 + extent * 2 ^ 64 + 7 * 2 ^ 29 + role * 2 ^ 27
/-- A descriptor of format `f` in scratch: 64 positions, 64 lanes; `bits` sets further header bits. -/
def desc0 (f : Nat) (more : Nat := 0) (lanes : Nat := 64) : BitVec 1024 :=
  BitVec.ofNat 1024 (4 * 2 ^ 976 + f * 2 ^ 972 + 4 * 2 ^ 924 + 4 * 2 ^ 876 + more + dimBits 64 0 + dimBits lanes 1 * 2 ^ 128 +
    (dimBits 1 0 * 2 ^ 256 + dimBits 1 0 * 2 ^ 384 + dimBits 1 0 * 2 ^ 512 + dimBits 1 0 * 2 ^ 640))
/-- ctrl of a BF16 pair of one k-block, and sctrl for BF16 and for FP32. -/
def ctrlB : BitVec 64 := BitVec.ofNat 64 (11 * 2 ^ 40 + 11 * 2 ^ 36 + 2 ^ 16)
def sctrlB : Word := BitVec.ofNat 32 (11 * 2 ^ 28)
theorem witness_ctrl : ctrlPair ctrlB = some (.bf16, .bf16) ∧ ctrlK ctrlB = 1 ∧ sctrlOut sctrlB = some (.bf16, .rne) ∧ dFmt (desc0 11) = some .bf16 := by decide +kernel
/-- A block whose three contexts stream BF16, with bank `a` open. -/
def blkX (a : Bool) : Block :=
  { blk0 with ctxA := some { desc := desc0 11 }, ctxB := some { desc := desc0 11 }, ctxO := some { desc := desc0 11 }, bank0 := { isOpen := a },
              groups := [{ grp0 with regs := [(3 * 32, ctrlB.setWidth 32), (4 * 32, BitVec.ofNat 32 (ctrlB.toNat / 2 ^ 32)), (5 * 32, sctrlB), (6 * 32, 1)] }] }
def grpX : Group := { grp0 with regs := [(3 * 32, ctrlB.setWidth 32), (4 * 32, BitVec.ofNat 32 (ctrlB.toNat / 2 ^ 32)), (5 * 32, sctrlB), (6 * 32, 1)] }
def devX (a : Bool) : Dev := devK (core0 .x (blkX a))
theorem witness_issuesX (a : Bool) : (devX a).Issues g0 .x (blkX a) grpX path0 := by cases a <;> exact ⟨by decide +kernel, by decide +kernel, by decide +kernel, by decide +kernel⟩
theorem witness_mx : ((devX true).eng 0).queue.length < 16 ∧ ((blkX false).bank false).isOpen = false ∧ ((blkX true).bank false).isOpen = true ∧
    BitVec.ofNat 64 (grpX.reg64 3 (lowLane path0.mask)) = ctrlB ∧ grpX.reg 5 (lowLane path0.mask) = sctrlB ∧ 32 * ctrlK ctrlB ≤ ({ desc := desc0 11 } : WkCtx).left := by decide +kernel
theorem witness_mxRdacc : ({ devX true with cat := { force := [(ckey 0x300D 1 0, 1)] } } : Dev).vset 0 0xD 1 = 1 ∧ ((devX true).eng 0).load 0 = 0 := by decide +kernel
/-- The descriptor's bytes at the start of the scratch of core 0. -/
def memX : Mems := { scr := (List.range 128).filterMap (fun i => if (desc0 11).toNat / 2 ^ (8 * i) % 256 = 0 then none else some ⟨i, BitVec.ofNat 8 ((desc0 11).toNat / 2 ^ (8 * i))⟩) }
theorem witness_wkArm : ∃ bs, ({ dev := (devX true).issue g0 .x, mem := memX, mram := State.reset.mram } : X).readSpace 0 [0] [0] 4 0 128 =
      ({ dev := (devX true).issue g0 .x, mem := memX, mram := State.reset.mram }, bs, false) ∧
    ((devX true).issue g0 .x).descBad 0 (blkX true) .a (BitVec.ofNat 1024 (leNat bs)) = none :=
  ⟨(({ dev := (devX true).issue g0 .x, mem := memX, mram := State.reset.mram } : X).readSpace 0 [0] [0] 4 0 128).2.1, rfl, by decide +kernel⟩
theorem witness_wkMark : (blkX true).ctx .b = some { desc := desc0 11 } ∧ blk0.ctx .b = none := by decide +kernel
theorem witness_wkSign : dActivation (desc0 11 (2 ^ 843 + 2 ^ 842)) = true ∧ dStable (desc0 11 (2 ^ 843 + 2 ^ 842)) = true ∧
    32 * 1 ≤ ({ desc := desc0 11 (2 ^ 843 + 2 ^ 842) } : WkCtx).left := by decide +kernel

/-- A queued instruction of the block in slot 0 of core 0, over contexts of BF16. -/
def ei (op : EOp) : EInstr :=
  { id := 7, op := op, owner := { slot := 0, grp := 0, launchIx := 0, block := 0, seq := 0 }, leader := 0, pc := 0, lanes := 1, at' := 0,
    ra := { desc := desc0 11 }, rb := { desc := desc0 11 } }
/-- Core 0 with that engine, at core cycle 2^40. -/
def devE (e : Engine) : Dev :=
  { clk := [(0, { running := true, core := 2 ^ 40 })], vits := [(0, { st := .assigned, leader := some 0, pvSteps := 1 })],
    cores := [(0, { core0 .x (blkX true) with eng := e })], srv := { steps := [step0] }, cat := { force := [(ckey 0x3005 1 0, 1)] } }
theorem witness_engine : (devE {}).engGo 0 = true ∧ ((devE {}).core 0).exc = none ∧ ((devE {}).grp ((ei (.mma false ctrlB)).gref 0)).isSome = true ∧
    max (max 0 (0 + 4)) 0 ≤ (devE {}).cycOf 0 := by decide +kernel
/-- A run on the array with its first k-block present in both walkers. -/
def run0 (p : RunPhase) : Run := { ins := ei (.mma false ctrlB), phase := p, start := 0, next := 0 }
def seg0 : Seg := { id := 7, kb := 0, n := 1, elems := [], scales := [], at' := 0 }
def engRun : Engine := { runs := [run0 .array], wa := { segs := [seg0] }, wb := { segs := [seg0] }, stage := 1 }
theorem witness_interval : (engRun.ivalAt.map (·.r)) = some (run0 .array) ∧ 0 < min engRun.stage engRun.ceil := by decide +kernel
theorem witness_bankUpdate : (run0 .update).ins.bank = some 0 ∧ (devE {}).blk 0 (0 / 2) = some (blkX true) ∧ max 0 (0 + 8) ≤ (devE {}).cycOf 0 ∧ 0 + 22 ≤ (devE {}).cycOf 0 := by
  decide +kernel
theorem witness_transfer : (∀ i ∈ [ei (.store false sctrlB), ei (.ldacc false .bf16)], i.bank = some 0 ∧ ({ queue := [i] } : Engine).bankHeld 0 = false ∧
    ({ queue := [i] } : Engine).rerunning = false) ∧ max (max 0 (0 + 4)) (max (0 + 1) 0) ≤ (devE {}).cycOf 0 ∧ 0 + 128 ≤ (devE {}).cycOf 0 := by decide +kernel
theorem witness_ramp : (devE {}).runs (0 : DieId).toNat = true ∧ 0 < ((devE { stage := 1 }).eng 0).stage := by decide +kernel
/-- A fetch of one granule of scratch, one complete, and ones that met a bad address and poison. -/
def job0 (todo : List (Nat × Nat)) (bad : Option (Bool × Nat) := none) : FetchJob := { id := 7, kb := 0, n := 1, todo := todo, got := [], bad := bad }
theorem witness_walkerFetch : ({ queue := [ei (.mma false ctrlB)] } : Engine).find 7 = some (ei (.mma false ctrlB)) ∧ ({} : Engine).find 7 = none ∧
    (∀ gr ∈ (job0 [(4, 0)]).todo, gr.1 ≠ 1) ∧ dFmt ((ei (.mma false ctrlB)).ctxOf .b).desc = some .bf16 := by decide +kernel
theorem witness_walkerFault : (job0 [] (some (true, 0))).bad = some (true, (0 : Addr).toNat) ∧ (job0 [] (some (false, 5))).bad = some (false, (5 : Addr).toNat) := by decide +kernel
/-- A tile of BF16 in scratch, with its flag and without. -/
def tile0 (flag wrote : Bool) : Tile :=
  { ins := { ei (.store false sctrlB) with ra := { desc := desc0 11 (if flag then 2 ^ 817 else 0) 1 } }, codes := [], scales := [], stats := [], scrGran := [0], clusGran := [0], wrote := wrote }
theorem witness_tile : dFlagEn (tile0 false false).ins.ra.desc = false ∧ dFlagEn (tile0 true false).ins.ra.desc = true ∧ dAuxSpace (tile0 true true).ins.ra.desc ≠ 1 ∧
    dSpace (tile0 true true).ins.ra.desc ≠ 1 := by decide +kernel
theorem witness_tileWrites : ∀ w ∈ tileWrites (tile0 false false), w.1 ≠ 1 := by
  intro w hw
  have h1 : dFmt (tile0 false false).ins.ra.desc = some .bf16 := by decide +kernel
  have h2 : dRowStat (tile0 false false).ins.ra.desc = false := by decide +kernel
  have h3 : dSpace (tile0 false false).ins.ra.desc = 4 := by decide +kernel
  simp only [tileWrites, h1, h2, h3, Fmt.scaled, Bool.false_eq_true, if_false, List.append_nil, List.mem_flatMap, List.mem_filterMap, Option.map_eq_some_iff] at hw
  obtain ⟨_, _, _, _, _, _, rfl⟩ := hw
  exact fun h => by cases h
theorem witness_pvLookup : ({ run0 .lookup with ins := { ei (.mma false ctrlB) with sig := some 9 } } : Run).ins.sig = some 9 ∧
    [({ key := (run0 .lookup).ins.pvKey, sig := 9, vals := [] } : PvEntry)].find? (fun p => p.key == (run0 .lookup).ins.pvKey && p.sig == 9) =
      some { key := (run0 .lookup).ins.pvKey, sig := 9, vals := [] } ∧ (devE {}).vset 0 5 3 = 0 :=
  ⟨rfl, by simp, by decide +kernel⟩
theorem witness_pvVerify : ({ run0 .verify with stored := some [] } : Run).stored = some [] ∧ (∀ k ∈ (run0 .verify).values, kget 0 [] k.1 = k.2) := by
  refine ⟨rfl, fun k hk => ?_⟩
  simp only [Run.values, List.mem_map] at hk
  obtain ⟨n, _, rfl⟩ := hk
  simp [run0, kget]
theorem witness_pvInsert : 0 < (devE {}).pvRoom 0 ∧ (devE {}).vset 0 5 1 = 1 := by decide +kernel

/-! ### L1 lines, the host port, the Gallery -/

/-- Core 0 with one L1 line of number 0 in state `st` (none for I), one access waiting and messages in flight. -/
def devL1 (st : L1St) (ops : List OutOp) (ms : List Msg := []) : Dev :=
  { devK { core0 .m blk0 with l1 := if st = .i then [] else [(0, { st := st, data := 5, poison := 0, used := 0 })], ops := ops } with msgs := ms }
/-- A load, and a store, of the first word of the window. -/
def opWait (k : OpKind) : OutOp := { opDone with kind := k, accs := [{ lane := 0, addr := 0, size := 4, val := 9 }], vals := [] }
theorem witness_l1Load : (devL1 .isD [opWait .load]).l1St 0 0 = .isD ∧ (devL1 .isD [opWait .load]).Delivers .dataS 0 0 7 0 ∧ (∀ b ∈ (opWait .load).accs, b.line = 0) :=
  ⟨by decide +kernel, ⟨by decide +kernel, fun m h => by
    rw [show (devL1 .isD [opWait .load]).flying .dataS 0 (some 0) = none from by decide +kernel] at h; cases h⟩, by decide +kernel⟩
/-- A message in flight is delivered with its data. -/
theorem witness_l1InFlight : (devL1 .isD [opWait .load] [{ kind := .dataE, line := 0, core := some 0, data := 7 }]).Delivers .dataE 0 0 7 0 := by
  refine ⟨by decide +kernel, fun m h => ?_⟩
  have : some m = some { kind := .dataE, line := 0, core := some 0, data := 7 } := by rw [← h]; decide +kernel
  cases this; exact ⟨rfl, rfl⟩
theorem witness_l1Store : (∀ st ∈ [L1St.imD, .smD], (devL1 st [opWait .store]).l1St 0 0 = st) ∧ (∀ b ∈ (opWait .store).accs, b.sent = false) ∧
    (devL1 .imD [opWait .store]).arrives .noAlloc 0 (some 0) = true ∧ (devL1 .smD [opWait .store]).arrives .grantM 0 (some 0) = true := by decide +kernel
theorem witness_l1Recall : (∀ k ∈ [MsgKind.inv, .recallS, .recallI, .putAck], (devL1 .m []).arrives k 0 (some 0) = true) ∧ (devL1 .i []).l1St 0 0 = .i ∧
    ((devL1 .xiA []).l1 0 0).map (·.st) = some .xiA ∧ ((devL1 .xiA []).core 0).ops = [] := by decide +kernel

/-- A host request of the window's first line, which no core holds, and of a window of no tenancy. -/
def hostDev (d : Dev) : Dev := { d with host := { hdm := [(0, { base := 0, size := 0xB40000000, committed := true })] } }
theorem witness_host : (hostDev (devL { way := 0 })).hdmMaps 0 = true ∧ ((hostDev (devL { way := 0 })).vit 0).held = true ∧ ((hostDev (devL { way := 0 })).vit 0).tspLocked = false ∧
    (hostDev (devL { way := 0 })).watch 0 6 0 128 0x3FF = (hostDev (devL { way := 0 }), false) := by
  refine ⟨by decide +kernel, by decide +kernel, by decide +kernel, rfl⟩
theorem witness_hostRefused : ({ devL { way := 0 } with vits := [] }.vit 0).held = false := by decide +kernel
theorem witness_hostHeld : ({ devL { way := 0 } with clk := [] }).runs 0 = false ∧ ({ devL { way := 0 } with clk := [] }).isFenced 0 = false := by decide +kernel
theorem witness_hdm : (0xB40000000 : BitVec 64).toNat % 2 ^ 28 = 0 ∧ 0 < (0xB40000000 : BitVec 64).toNat ∧ (31 * 2 ^ 36 : BitVec 64).toNat < 2 ^ 41 ∧
    (31 * 2 ^ 36 : BitVec 64).toNat % 2 ^ 36 + (0xB40000000 : BitVec 64).toNat ≤ windowBytes ∧ ¬(0x10000001 : BitVec 64).toNat % 2 ^ 28 = 0 := by decide +kernel

/-- A group with a range of one line of the window, or of the scratchpad of 256 MiB, in registers 0 to 2. -/
def grpGc (base : Nat) : Group := { grp0 with regs := [(0, BitVec.ofNat 32 base), (32, BitVec.ofNat 32 (base / 2 ^ 32)), (64, 128)] }
def blkGc (base : Nat) : Block := { blk0 with groups := [grpGc base] }
def devGc (base : Nat) (g : GLine := { way := 0 }) (pins : Nat := 24) : Dev :=
  { devK (core0 .m (blkGc base)) with gal := [(sliceOf 0, { lines := [(0, g)] })], vits := [(0, { st := .assigned, leader := some 0, padSteps := 1 })],
                                      cat := { force := [(ckey 0x3007 1 0, pins)] } }
theorem witness_issuesGc : (devGc 0).Issues g0 .m (blkGc 0) (grpGc 0) path0 ∧ Ready (blkGc 0) (grpGc 0) [3, 0, 1, 2] :=
  ⟨⟨by decide +kernel, by decide +kernel, by decide +kernel, by decide +kernel⟩, ⟨by decide, by decide⟩⟩
theorem witness_gcRange : ∀ base ∈ [0, padBase], (grpGc base).addr 0 (lowLane path0.mask) = base ∧ ((grpGc base).reg 2 (lowLane path0.mask)).toNat = 128 ∧
    (devGc base).coreValid 0 base 128 = true ∧ (devGc base).place base ≠ .hole := by decide +kernel
/-- A range above the share's cap, and lines that would fill more than half the ways of one set. -/
theorem witness_gcPinRefused : (devGc 0).pinCap 0 < 0 * 128 + 35651712 - ([] : List Nat).countP (fun l => 0 ≤ l * 128 && l * 128 < 0 + 35651712) * 128 ∧
    (devGc 0).pinStatus 0 [0, 36899, 73886, 110873, 147764, 184663, 221650, 258541, 295528, 332427] ≠ 0 ∧ (devGc 0).pinStatus 0 [0] = 0 := by decide +kernel
/-- A range operation of V0 on its first line, and one whose line is still cached. -/
def range0 (op : GcOp) (begun : Bool) : RangeOp := { id := 1, op := op, v := 0, base := 0, len := 128, core := none, owner := none, ring := none, begun := begun }
theorem witness_gcRangeDone : [range0 .unpin false].find? (fun r => r.id == (1 : Word).toNat) = some (range0 .unpin false) ∧
    (devGc 0 { way := 0, pinned := true }).rangeLines 0 128 = [(0, { way := 0, pinned := true })] ∧ (devGc 0 { way := 0, dirty := true }).rangeLines 0 256 ≠ [] ∧
    (devGc 0).rangeLines (2 ^ 30) 128 = [] := by decide +kernel
theorem witness_gcRangeDue : ({ way := 0, dirty := true, queue := [{ kind := .flush, port := .core 0 }] } : GLine).rangeDue = true ∨ ({ way := 0, dirty := true } : GLine).rangeDue = true := by
  decide +kernel
/-- V0's scratchpad shrinks from 1 to 0; its first slice has no line left. -/
def devShrink : Dev :=
  { clk := [(0, { running := true, root := 2 ^ 30 })], vits := [(0, { padSteps := 1, resize := some 0 })], gal := [(0, { changing := true })] }
theorem witness_sliceChangePoint : (devShrink.vit (BitVec.ofNat 5 (0 / 24))).resize = some 0 ∧ (devShrink.slice 0).changing = true ∧ (devShrink.slice 0).lines = [] ∧
    devShrink.corePending 0 (0 * stepBytes) (1 * stepBytes) = false := by decide +kernel
theorem witness_thrash : ({ devShrink with cat := { force := [(ckey 0x3007 6 0, 0)] } } : Dev).vset 0 7 6 = 0 ∧ ({ devShrink with cat := { force := [(ckey 0x3007 6 0, 128)] } } : Dev).vset 0 7 6 = 128 ∧
    ({} : Thrash).at' + 262144 ≤ (devShrink.die 0).root := by decide +kernel
theorem witness_galleryScrub : (devShrink.slice 0).scrubAt + 4 * devShrink.force 0x4010 1 0 ≤ (devShrink.die 0).root ∧
    ((devL { way := 0 }).inSet (sliceOf 0) (setOf 0)).find? (fun e => e.2.way == 0) = some (0, { way := 0 }) := by decide +kernel

/-! ### Networks -/

/-- A frame of one flit, whose FLIT_CRC is good or not. -/
def dl0 (q : BitVec 16) (ok : Bool) : DlFrame :=
  { frameSeq := q, flits := [{ valid := true, vc := 1, bits := 7 }], crcBad := if ok then 0 else 1, laneErrors := [], stopMark := false, msg0 := none, msg1 := none }
/-- Direction 0 with that bundle state; die 0 runs at core cycle 2^40. -/
def devNet (b : Bund) : Dev := { clk := [(0, { running := true, core := 2 ^ 40 }), (1, { running := true, core := 2 ^ 40 })], net := { bunds := [(0, b)] } }
theorem witness_dieLinkFrame : ∃ c, ({} : Bund).nextFrame (dl0 0 true) = some (dl0 0 true, c) ∧ (0 : BitVec 16) = ({} : Bund).txSeq + 1 ∧ frameOk (dl0 0 true) = true ∧ frameOk (dl0 0 false) = false ∧
    (dl0 0 true).frameSeq = ({} : Bund).rxSeq + 1 ∧ 64 ≤ ({} : Bund).lanes.length ∧ ((dirEnds 0).2.1 = 8 ∨ (devNet {}).runs (dirEnds 0).2.1 = true) := ⟨_, rfl, by decide +kernel⟩
theorem witness_dieLinkCapture : ∃ r : Fin 36, (dirEnds r.val).2.1 ≠ 8 ∧ ({} : Dev).runs (dirEnds r.val).2.1 = false ∧ ({} : Dev).isFenced (dirEnds r.val).2.1 = false := by decide +kernel
theorem witness_dieLinkRetrain : ((devNet { want := true }).bund 0).want = true ∧ ((devNet { st := 1 }).bund (dirOther 0)).backlog = [] ∧
    ((devNet { st := 1 }).bund (dirOther 0)).acked ((devNet { st := 1 }).bund (dirOther 0)).rxSeq = [] ∧ 64 ≤ ({ failed := 0xF } : Bund).lanes.length := by decide +kernel
theorem witness_dieLinkPeerLost : 0 + 256 ≤ (devNet {}).cyc (dirDie 0) := by decide +kernel
theorem witness_flitCrcReplay : ((devNet {}).seam 0).active.contains 5 = true ∧ ((devNet {}).seam 0).active.contains 26 = false := by decide +kernel
/-- Lane 5 of a seam has had 16 of its last 1,024 flits replayed; lane 6 none. -/
def seamBad : Seam := { replays := [(5, List.range 16)] }
theorem witness_seamLaneSubstitute : seamBad.failing 5 = true ∧ seamBad.failing 6 = false ∧ seamBad.active.contains 5 = true ∧ seamBad.failed.getLsbD 5 = false := by decide +kernel
theorem witness_controlMessage : ({ cls := .power, toAtrium := true, die := 0, body := 0 } : CtlMsg) ∈ [({ cls := .power, toAtrium := true, die := 0, body := 0 } : CtlMsg)] := by
  decide +kernel
theorem witness_portIssue : (devNet {}).mayIssue 0 {} (.core 0) = true ∧ (devNet {}).mayIssue 0 { out := [(.core 0, 4096)] } (.core 0) = false ∧
    0 < ({ out := [(.core 0, 1)] } : Reg).held' (.core 0) := by decide +kernel
theorem witness_regWindowEnd : ((devNet {}).vit 0).missAt + 2 ^ (devNet {}).vset 0 8 3 ≤ (devNet {}).cyc (dieOfVit 0) := by decide +kernel
theorem witness_mediaResponse : (0x8000 : BitVec 16).msb = true ∧ (1 : BitVec 16).msb = false := by decide

/-! ### The fabric -/

/-- Link 0 in that state, in a group of device 7, at reference cycle 2^60; device 3 is this one. -/
def devFab (k : Link) (f : Fab := {}) : Dev :=
  { ref := 2 ^ 60, cat := { published := true, acc := [(ckey 0x5000 1 0, 3)], force := [(ckey 0x3009 1 0, 9)] },
    vits := [(0, { st := .assigned, leader := some 0, padSteps := 1 })], fab := { f with links := [(0, k)] } }
theorem witness_fabricFrame : frame0.frameSeq = ({ st := .active } : Link).rxSeq + 1 ∧ (frame0.decodes && frame0.crcOk) = true ∧
    ({ frame0 with crcOk := false }.decodes && { frame0 with crcOk := false }.crcOk) = false ∧ 16 ≤ ({ st := .active, authFails := 15 } : Link).authFails + 1 := by decide +kernel
theorem witness_linkTimes : ({ st := .active } : Link).heard + 1000 ≤ (devFab {}).ref ∧ 0 + 1 * 2 ^ 32 * 5 ≤ (devFab {}).ref ∧ 0 + 100000000 ≤ (devFab {}).ref := by decide +kernel
theorem witness_digest : (devFab { st := .mgmt }).devId ≠ 0xFFFF ∧ ((devFab {}).vit (vitOfLink 0)).held = true ∧ (devFab {}).group (vitOfLink 0) ≠ 0 ∧
    ¬((devFab {}).fab.pendant = 5 ∧ fld ((devFab {}).force 0x5200 2 0) 0 1 = 1) := by decide +kernel
/-- The digest of this device's own inputs agrees with itself; whether another value does is open. -/
theorem witness_digestAgrees (v : VitId) : ∃ p : PeerDigest, Config.cfgDigest ((devFab {}).digestInputs (devFab {}).fw.version v) = p.digest ∧
    ∃ q : PeerDigest, Config.cfgDigest ((devFab {}).digestInputs (devFab {}).fw.version v) ≠ q.digest :=
  ⟨⟨0, 0, 0, Config.cfgDigest ((devFab {}).digestInputs (devFab {}).fw.version v)⟩, rfl,
   ⟨0, 0, 0, Config.cfgDigest ((devFab {}).digestInputs (devFab {}).fw.version v) + 1⟩, by simp⟩
/-- A group whose register 0 names device 7, its pair 1 and 2 a remote address, 3 a length of 64 and 4 a local address. -/
def grpR : Group := { grp0 with regs := [(0, 7), (3 * 32, 64)] }
def devR : Dev := devK (core0 .m { blk0 with groups := [grpR] })
theorem witness_issuesR : devR.Issues g0 .m { blk0 with groups := [grpR] } grpR path0 ∧ Ready { blk0 with groups := [grpR] } grpR ([0, 1, 2, 3] ++ addrRegs .scratch 4) :=
  ⟨⟨by decide +kernel, by decide +kernel, by decide +kernel, by decide +kernel⟩, ⟨by decide, by decide⟩⟩
theorem witness_remote : grpR.addr 1 0 % 64 = 0 ∧ (grpR.reg 3 0).toNat = 64 ∧ laneAddr grpR .scratch 4 0 0 + 64 ≤ blk0.launch.s ∧ laneAddr grpR .cluster 4 0 0 + 64 ≤ blk0.launch.c ∧
    devR.valid 0 (laneAddr grpR .global 4 0 0) 64 = true ∧ (devR.core 0).ops = [] ∧ (devR.eng 0).tiles = [] ∧ devR.fab.ins.length < 64 := by decide +kernel
/-- An earlier store of the group. -/
theorem witness_rputWaits : (opWait .store).ofGroup g0 blk0 = true ∧ (opWait .store).writes = true ∧ (opWait .store).accs ≠ [] := by decide +kernel
/-- A put of 64 bytes to the scratchpad of V0 from device 7 over link 0. -/
def put0 : ROp := { op0 with dest := 3, src := 7, group := 9, type := .put, address := BitVec.ofNat 44 padBase, length := 64, dataSlots := 1, data := List.replicate 64 0 }
def devPut : Dev := devFab { st := .active, peer := 7 } { srcs := [(srcKey put0, { epoch := 0 })] }
theorem witness_put : put0.dest = devPut.devId ∧ devPut.heldIn put0 = false ∧ devPut.cameBy 0 0 put0 = true ∧ slotVit put0.address.toNat = some 0 ∧ devPut.group 0 = put0.group ∧
    devPut.epoch 0 = put0.epoch ∧ kfind devPut.fab.srcs (srcKey put0) = some { epoch := 0 } ∧ devPut.valid 0 put0.address.toNat 64 = true ∧ devPut.place put0.address.toNat = .pad 0 0 ∧
    put0.data.length = 64 ∧ vitOfAddr put0.address.toNat = 0 := by decide +kernel
theorem witness_putEarly : 0 < ((5 : Word) - ({ epoch := 0 } : SrcEnt).next).toInt := by decide
/-- An outstanding operation of V0 to device 7, of the one instruction in progress. -/
def rins (t : RType) : RIns := { id := 4, core := 0, owner := { slot := 0, grp := 0, launchIx := 0, block := 0, seq := 0 }, pc := 0, lanes := 1, type := t, dest := 7, raddr := 0, space := 4, split := true }
def rop (t : RType) : RemOp := { src := .ins 4, v := 0, op := { op0 with dest := 7, type := t, tag := 1 }, first := some 0, sentAt := 0, space := 4 }
def devOut (t : RType) : Dev := { devR with ref := 2 ^ 60, fab := { ins := [rins t], ops := [rop t] } }
theorem witness_remoteAnswers : (∀ t ∈ [RType.get, .put, .atomic, .reduce], (devOut t).opOf 0 7 1 = some (rop t) ∧ (devOut t).insOf (rop t) = some (rins t)) ∧
    (devOut .get).insSaved (rins .get) = false ∧ (devOut .atomic).insGroup (rins .atomic) = some g0 ∧ ((devOut .atomic).grp g0).isSome = true ∧ ((devOut .atomic).core 0).exc = none ∧
    0 + (devOut .put).force 0x5000 3 0 ≤ (devOut .put).ref ∧ 0 + (devOut .put).remoteLimit 0 + 0 ≤ (devOut .put).ref ∧ kfind (devOut .put).fab.halted 7 = none := by decide +kernel
theorem witness_checkpointTimeout : ((devOut .put).vit 0).leader = some 0 ∧ (devOut .put).jobRuns 0 = true := by decide +kernel
/-- A route to device 9 over link 3 of V1, for an operation that came by link 0. -/
def opTr : ROp := { op0 with dest := 9, group := 9, hops := 3 }
def devRoute : Dev :=
  { ref := 2 ^ 60, cat := { published := true, acc := [(ckey 0x5000 1 0, 3), (ckey 0x5001 1 9, 2 ^ 31 + 4), (ckey 0x5002 1 4, 8)], force := [(ckey 0x3019 1 0, 9)] },
    vits := [(1, { st := .assigned, leader := some 1 })], fab := { links := [(3, { st := .active })] } }
theorem witness_transitForward : pickLink (devRoute.eligible opTr.dest (fun w => (devRoute.vit w).held && devRoute.group w == opTr.group)) opTr.tag = some 3 ∧
    opTr.dest ≠ devRoute.devId ∧ opTr.hops.toNat = 2 + 1 ∧ (devRoute.link 3).wait = [] ∧ 1 + opTr.dataSlots.toNat ≤ (devRoute.link 3).creditTransit := by decide +kernel
theorem witness_transitDiscard : 0 + 2 ^ 20 ≤ devRoute.ref := by decide +kernel

/-! ### Pendant, Catalogue and sessions -/

/-- A device that serves requests at reference cycle 2^60: every die runs, V0 is a tenancy of its own, V1 is unassigned. -/
def devW (f : List (Nat × Nat) := []) (ready : Bool := true) (reqs : List Requester := []) : Dev :=
  { ref := 2 ^ 60, clk := (List.range 8).map (fun i => (i, { running := true, core := 2 ^ 60, root := 2 ^ 61 })), vits := [(0, { st := .assigned, leader := some 0 })],
    cat := { published := true, ready := ready, force := f, acc := f, reqs := reqs }, fw := { step := 11, proc := (List.range 18).map (fun i => (i, { st := 0 })) } }
def pf1 : CatReq := { port := .pf, seq := 1 }
def pfQ : Requester := { port := .pf, role := .driver }
/-- A session of the PROVISIONER, whose last SEQ is 0. -/
def proQ : Requester := { port := .session 1, role := .provisioner, lastSeq := some 0 }
def pro1 : CatReq := { port := .session 1, seq := 1 }
theorem witness_serves : (devW).Serves .pf 1 pfQ ∧ (devW [] true [proQ]).Serves (.session 1) 1 proQ :=
  ⟨⟨rfl, by decide, by decide, by decide +kernel, rfl, fun n h => by cases h⟩, ⟨rfl, by decide, by decide, by decide +kernel, rfl, fun n h => by cases h; rfl⟩⟩
/-- A write is admitted when its entry stands and nothing refuses it. -/
theorem writes_of (d : Dev) (rq : CatReq) (q : Requester) (i s : Nat) (h : d.Serves rq.port rq.seq q)
    (c : (match entryAt i s with | some t => d.writeRefusal rq.port q.role t { index := BitVec.ofNat 16 i, sub := BitVec.ofNat 8 s } | none => some 0) = none) : d.Writes rq q i s := by
  refine ⟨h, ?_⟩
  cases e : entryAt i s with
  | none => rw [e] at c; cases c
  | some t => rw [e] at c; exact ⟨t, rfl, c⟩
/-- Every entry that a statement's command writes may be written by the physical function, or by the PROVISIONER. -/
theorem witness_writes : ∀ e ∈ [(0x3007, 1), (0x3008, 5), (0x5200, 4), (0x3009, 6), (0x300B, 1), (0x5005, 1), (0xB010, 1), (0x3001, 1), (0x300D, 4), (0x300D, 5), (0x8102, 1), (0x3200, 1),
    (0x3200, 2), (0x3200, 3), (0x6040, 1), (0x6030, 2), (0x7000, 4), (0x8100, 1), (0x8101, 1), (0x300D, 9), (0x300D, 3)], (devW).Writes pf1 pfQ e.1 e.2 := by
  intro e h
  refine writes_of _ _ _ _ _ witness_serves.1 ?_
  revert e
  decide +kernel
theorem witness_provisionerWrites : ∀ e ∈ [(0x1010, 1), (0x2000, 2), (0x7000, 9)], (devW [] false [proQ]).Writes pro1 proQ e.1 e.2 ∨ (devW [] false).Writes pf1 pfQ e.1 e.2 := by
  intro e h
  have hs : (devW [] false [proQ]).Serves (.session 1) 1 proQ := ⟨rfl, by decide, by decide, by decide +kernel, rfl, fun n h => by cases h; rfl⟩
  have hp : (devW [] false).Serves .pf 1 pfQ := ⟨rfl, by decide, by decide, by decide +kernel, rfl, fun n h => by cases h⟩
  simp only [List.mem_cons, List.not_mem_nil, or_false] at h
  rcases h with rfl | rfl | rfl
  · exact .inr (writes_of _ _ _ _ _ hp (by decide +kernel))
  · exact .inr (writes_of _ _ _ _ _ hp (by decide +kernel))
  · exact .inl (writes_of _ _ _ _ _ hs (by decide +kernel))

theorem witness_pair : (7 : DevId).toNat = (devW [(ckey 0x5200 1 0, 7), (ckey 0x5200 2 0, 15)]).force 0x5200 1 0 ∧ (15 : BitVec 96).toNat = (devW [(ckey 0x5200 1 0, 7), (ckey 0x5200 2 0, 15)]).force 0x5200 2 0 ∧
    4 ≤ min ({ devW [(ckey 0x5200 1 0, 7), (ckey 0x5200 2 0, 15)] with fab := { links := (List.range 4).map (fun l => (l, { st := .mgmt, peer := 7, peerLink := l })) } }.pairTrained) (bits (15 : BitVec 96)).length := by
  decide +kernel
/-- V0 stands by for V0 of device 7, of group 9. -/
def devSb : Dev := { devW [(ckey 0x5000 1 0, 3), (ckey 0x3009 1 0, 9), (ckey 0x3009 4 0, 2)] with fab := { srcs := [(srcKey { put0 with type := .commit }, { epoch := 0 })] } }
theorem witness_commit : devSb.devId = 3 ∧ (devSb.vit 0).held = true ∧ devSb.group 0 = 9 ∧ devSb.epoch 0 = 0 ∧ kfind devSb.fab.srcs (srcKey { put0 with type := .commit }) = some { epoch := 0 } := by decide +kernel
theorem witness_takeover : devSb.standbyFor { put0 with type := .takeover, operand1 := 7 * 2 ^ 48 + 3 * 2 ^ 32 } = some 0 ∧ BitVec.ofNat 16 (fld (7 * 2 ^ 48 + 3 * 2 ^ 32) 48 16) = (7 : DevId) ∧
    devSb.fab.aliases.length < 16 := by decide +kernel
theorem witness_traps : ∀ w ∈ [(0 : BitVec 6), 3, 64], w.toNat ∉ [2, 4, 8, 16, 32] := by decide
/-- An uncorrectable upset in the read of the group that issues. -/
theorem witness_upset : let d := devK { core0 .v blk0 with issued := [{ slot := 0, grp := 0, cls := .v, upset := .uncorrectable, lane := 3 }] }
    d.canIssue g0 .v = true ∧ d.slotOf g0 = some { slot := 0, grp := 0, cls := .v, upset := .uncorrectable, lane := 3 } := by decide +kernel
/-- Reads of a plain entry and of a table's first bytes; plain writes; a write of READ-only status. -/
theorem witness_catalogue : (entryAt 0x300B 1).any (fun t => t.ty != 12 && t.access == 1 && t.rowBytes == 1 && (devW).inReach .driver t 0x300B) = true ∧
    (entryAt 0x9000 1).any (fun t => t.ty == 12 && t.access != 4 && (rowsAt t 16 (List.replicate t.rowBytes 0)).isSome) = true := by decide +kernel
theorem witness_refusal : ((entryAt 0x8014 5).map (fun t => (devW).writeRefusal .pf .driver t { index := 0x8014, sub := 5 })) = some (some stAccess) := by decide +kernel
/-- A session that has subscribed and has one event to read. -/
def evQ : Requester := { port := .session 1, role := .operator, lastSeq := some 0 }
def ev0 : Event := { code := 1, kind := 0, index := 0, seq := 0 }
def devEv : Dev := { devW with cat := { published := true, reqs := [evQ], events := [ev0], evNext := 1, readers := [{ port := .session 1, pos := 0, acked := 0xFFFFFFFF }, { port := .pf, pos := 0, acked := 0xFFFFFFFF }] } }
theorem witness_event : devEv.canSend (.session 1) = true ∧ (devEv.cat.reader (.session 1)).isSome = true ∧ devEv.eventsFor { port := .session 1, pos := 0, acked := 0xFFFFFFFF } 45 = ([] ++ [ev0], 1) ∧
    devEv.eventsFor { port := .pf, pos := 0, acked := 0xFFFFFFFF } (3 : Byte).toNat = ([ev0], 1) ∧ 0 + 1000000 ≤ devEv.ref := by decide +kernel
theorem witness_eventAck : ((0 : Word).toNat + 2 ^ 32 - 0xFFFFFFFF) % 2 ^ 32 < (2 + 2 ^ 32 - 0xFFFFFFFF) % 2 ^ 32 := by decide
theorem witness_transaction : ({ proQ with txn := some { entry := { index := 0x9000, sub := 1 }, rows := [(0, 5)], last := 0 } } : Requester).txn = some { entry := { index := 0x9000, sub := 1 }, rows := [(0, 5)], last := 0 } ∧
    ([(0, 5)].map (·.1)).Nodup ∧ 0 + 100000000 ≤ (devW).ref ∧ 0 + 60000000000 ≤ (devW).ref := by decide +kernel
theorem witness_session : (devW).cat.reqs.find? (fun q => q.port == .session 2) = none ∧ (devW).cat.sessions.length < 16 ∧ (devW).anchorRole none = some .provisioner ∧
    (devW [(ckey 0x7100 1 0, 2)]).anchorRole (some .operator) = some .operator := by decide +kernel

/-! ### Settings, tenancies and rings -/

theorem witness_scratchSteps : ((devW).vit 0).resize = none ∧ (18 : Byte).toNat + 0 ≤ 18 ∧ (devW).pinsFit 0 18 0 = true ∧ 18 < (19 : Byte).toNat + 0 := by decide +kernel
theorem witness_scratchStepsBusy : ((devShrink).vit 0).resize ≠ none := by decide +kernel
/-- Pins of a whole share leave no room for a scratchpad step. -/
theorem witness_pinsFit : ({ (devW [(ckey 0x3007 1 0, 0)]) with gal := (List.range 24).map (fun g => (g, { lines := (List.range 40).map (fun k => ((k * 1024 * 24 + g), { way := k % 16, pinned := true })) })) }).pinsFit 0 18 0 =
    false ∧ (devW).pinsFit 0 0 0 = true := by decide +kernel
theorem witness_standbys : (∃ w ∈ vitsOf (1 : Word), (devSb.vit w).held = true ∧ devSb.vacc w 9 4 = 2 ∧ (devSb.vit w).leader = some 0) ∧
    (∀ w ∈ vitsOf (1 : Word), (devSb.vit w).leader = some 0) := by decide +kernel
theorem witness_remoteTimeoutOverride : (devW).vacc 0 9 4 ≠ 2 ∧ (devW).force 0x5000 2 0 ≤ (4000000000 : Word).toNat ∧ ¬((1 : Word) = 0 ∨ (devW).force 0x5000 2 0 ≤ (1 : Word).toNat) := by decide +kernel
theorem witness_powerClass : ((devW).dpow (dieOfVit 0)).worn = false ∧ (1600 : BitVec 16).toNat ≤ (devW).force 0x2000 1 0 := by decide +kernel
theorem witness_linkAdmin : ({} : Link).st = .down ∧ ({} : Link).out = false ∧ ({ st := .active, sent := [(0, op0)] } : Link).sent ≠ [] := by decide
theorem witness_mediaAdmin : (devW).mediaHeld 0 = [] := by decide +kernel
/-- A ring of V0: STEP of 16 entries, enabled, SQ at 0 and CQ at 4,096. -/
def cfgRing : BitVec 128 := BitVec.ofNat 128 (4096 * 2 ^ 40 + 4 * 2 ^ 35 + 2 ^ 30)
theorem witness_ringOk : (devW).ringOk 0 { cfg := cfgRing } = true ∧ (devW).ringOk 0 { cfg := 0 } = false := by decide +kernel
theorem witness_watchpoints : (devW).valid 0 0 (127 - 0 + 1) = true ∧ (devW).debugMode 0 = false := by decide +kernel
theorem witness_assign : (vitsOf (2 : Word)).head? = some 1 ∧ (vitsOf (2 : Word)).length ∈ [1, 2, 4, 8, 16, 32] ∧ (∀ v ∈ vitsOf (2 : Word), ((devW).vit v).st = .unassigned) ∧
    (vitsOf (7 : Word)).length ∉ [1, 2, 4, 8, 16, 32] ∧ (∃ v ∈ vitsOf (3 : Word), ((devW).vit v).st ≠ .unassigned) := by decide +kernel
theorem witness_clearingDone : ({ devW with vits := [(0, { st := .deaccessioning, leader := some 0 })] }.drained 0) = true ∧ (devW).isFenced (dieOfVit 0) = false := by decide +kernel
/-- Ring 0 of V0 with one entry to fetch, and one that is being disabled. -/
def ring0 (st : RingSt) : Ring := { cfg := cfgRing, st := st, sqTail := 1, cqHead := 0 }
def devRing (o : Ring) : Dev := { devW with srv := { rings := [(0, o)] } }
theorem witness_ring : (ring0 .enabled).type = 0 ∧ (ring0 .enabled).sqHead ≠ (ring0 .enabled).sqTail ∧ (ring0 .enabled).cqFree ≠ 0 ∧ (devRing (ring0 .enabled)).serves 0 = true ∧
    ((devRing (ring0 .enabled)).crate 0).freezing = false ∧ opAllowed 0 1 = true := by decide +kernel
theorem witness_sqTail : diff32 2 (ring0 .enabled).sqHead ≤ (ring0 .enabled).size ∧ diff32 (ring0 .enabled).sqTail (ring0 .enabled).sqHead < diff32 2 (ring0 .enabled).sqHead ∧
    ((1 : Word) - (ring0 .enabled).sqTail).toInt ≤ 0 ∧ 0 < ((100 : Word) - (ring0 .enabled).sqTail).toInt := by decide +kernel
theorem witness_deaccession : (devW).leads 0 = true ∧ (devW).leads 1 = false ∧ ((devW).job 0).st ≠ 4 ∧ ((devW).job 0).st ≠ 5 := by decide +kernel
theorem witness_crate : (devW).allIn 0 .assigned = true ∧ (devW).drained 0 = true ∧ { devW with vits := [(0, { st := .frozen, leader := some 0 })] }.allIn 0 .frozen = true ∧
    (∀ v ∈ (devW).tenancy 0, ((devW).ring v 0).st = .disabled) := by decide +kernel

/-! ### Steps, transfers and media -/

/-- A STEP descriptor of V0 with one launch whose record stands at 0x40, and flags as given; SEQ 0. -/
def rawStep (more : Nat := 0) : BitVec 512 := BitVec.ofNat 512 (64 * 2 ^ 468 + 2 ^ 456 + 2 ^ 424 + 2 ^ 24 + more)
/-- Ring 0 of V0 holds that descriptor, fetched and not yet begun. -/
def fetched (raw : BitVec 512) (started : Bool := false) : Fetched := { seq := 0, raw := raw, at' := 0, started := started }
def ringOf (cfg : Nat) (f : Fetched) : Ring := { cfg := cfgRing ||| BitVec.ofNat 128 cfg, st := .enabled, sqHead := 1, sqTail := 1, nextSeq := 1, fetched := [f] }
def devJob (cfg : Nat) (f : Fetched) (steps : List StepRec := []) : Dev := { devW with srv := { rings := [(0, ringOf cfg f)], steps := steps } }
theorem witness_stepStart : ((devJob 0 (fetched (rawStep))).candidates 0).map (fun c => (c.v, c.ring, c.seq, c.raw, c.saved)) = [(0, 0, 0, rawStep, false)] ∧
    (devJob 0 (fetched (rawStep))).startable (sMask (rawStep)) = true ∧ (devJob 0 (fetched (rawStep))).maskBad 0 (sMask (rawStep)) = false ∧ (devJob 0 (fetched (rawStep))).stepBad 0 (rawStep) = false ∧
    sLaunchCount (rawStep) = 1 ∧ sCkpt (rawStep) = false ∧ (devJob 0 (fetched (rawStep))).serves 0 = true := by decide +kernel
/-- A launch record of one block of one group with 16 registers on V0; a descriptor with no launch. -/
theorem witness_launch : (launchOf (2 ^ 392 + 2 ^ 386 + 16 * 2 ^ 377)).v = 0 ∧ (2 ^ 392 + 2 ^ 386 + 16 * 2 ^ 377) % 2 ^ 302 = 0 ∧ (devW).stepBad 0 (BitVec.ofNat 512 (64 * 2 ^ 468 + 2 ^ 424 + 2 ^ 24)) = true := by
  decide +kernel
/-- A step of that descriptor: running with its launches retired, at its limit, asked to stop, copying its checkpoint, saving and restoring. -/
def stepJ (raw : BitVec 512) : StepRec := { leader := 0, ringVit := 0, ring := 0, seq := 0, raw := raw, mask := 1, limit := 100 }
theorem witness_stepEnd : (devJob 0 (fetched (rawStep)) [stepJ (rawStep)]).stepQuiet (stepJ (rawStep)) = true ∧ (∀ w ∈ vitsOf (1 : Word), ((devW).vit w).disp.finished = true) ∧
    [stepJ (rawStep)].find? (fun t => t.leader == 0 && t.seq == (stepJ (rawStep)).seq && t.st == .running) = some (stepJ (rawStep)) ∧
    [stepJ (rawStep)].find? (fun t => (stepJ (rawStep)).same t) = some (stepJ (rawStep)) ∧ 0 + (100 - 0) ≤ (devW).cyc (dieOfVit 0) := by decide +kernel
theorem witness_stepCheckpoint : sCkpt (rawStep (2 ^ 21)) = true ∧ ((stepStatus [5] ≠ 0 ∧ stepStatus [5] ≠ 0xC) ∨ sPreview (rawStep) = false) := by decide +kernel
theorem witness_stepSafePoint : descPreempt (rawStep (2 * 2 ^ 22)) ≠ 0 ∧ (devJob 0 (fetched (rawStep (2 * 2 ^ 22))) [{ stepJ (rawStep (2 * 2 ^ 22)) with stopAsked := true }]).atSafePoint 0 (descPreempt (rawStep (2 * 2 ^ 22))) = true := by
  decide +kernel
/-- A checkpoint of no regions is copied and restored at once. -/
theorem witness_ckptCopy (x : X) : x.regions (rawStep (2 ^ 21)) = (x, [], false) ∧ (devW).vset 0 9 4 ≠ 1 := by
  refine ⟨?_, by decide +kernel⟩
  unfold X.regions
  rw [show sCkptRegions (rawStep (2 ^ 21)) = 0 from by decide +kernel]
  rfl
theorem witness_stepSaveDone : ∀ e ∈ [((0 : VitId), 5)], (devW).runs (dieOfVit e.1) = true ∧ e.2 ≤ (devW).clocked e.1 := by decide +kernel
theorem witness_stepRestoreDone : ({ stepJ (rawStep) with st := .restoring, saved := [{ v := 0, disp := {}, blocks := [{ core := 3, slot := 0, blk := blk0, scr := [], clus := [] }], steps := [], bytes := 0, remote := 0, cycles := 7 }] } : StepRec).saved.map
    (fun c => (c.steps, c.blocks.map (·.core))) = [([], [3])] := by decide +kernel
/-- RESTORE of a checkpoint of one region of 64 bytes at 4,096, whose table stands at 0, and one with a launch count. -/
def rawRestore (more : Nat := 0) : BitVec 512 := BitVec.ofNat 512 (2 ^ 340 + 2 ^ 424 + 2 * 2 ^ 24 + more)
def devRst : Dev := { devW [(ckey 0x3000 4 0, 1)] with vits := [(0, { st := .assigned, leader := some 0, ckptLocal := 0 })] }
def xRst : X := { dev := devRst, mem := { hbm := [⟨1, 16⟩, ⟨8, 64⟩] }, mram := State.reset.mram }
theorem witness_restore : (ringOf 0 (fetched (rawRestore))).head = some (fetched (rawRestore)) ∧ descOp (rawRestore) = 2 ∧ (ringOf 0 (fetched (rawRestore))).type = 0 ∧ sLaunchTable (rawRestore) = 0 ∧
    sLaunchCount (rawRestore) = 0 ∧ sReserved (rawRestore) = 0 ∧ devRst.validWin 0 (sCkptTable (rawRestore)) (16 * sCkptRegions (rawRestore)) = true ∧
    (devRst.vit 0).ckptLocal = sCkptNumber (rawRestore) ∧ ((devW).vit 0).ckptLocal ≠ sCkptNumber (rawRestore) ∧ sLaunchCount (rawRestore (2 ^ 456)) ≠ 0 := by decide +kernel
theorem witness_restoreRegions : (xRst.regions (rawRestore)).2 = ([{ v := 0, base := 4096, len := 64, off := 0 }], false) ∧ (xRst.regions (rawRestore)).1.dev.srv = devRst.srv ∧
    (∀ w : VitId, ((xRst.regions (rawRestore)).1.dev.vit w).ckptLocal = (devRst.vit w).ckptLocal ∧ ((xRst.regions (rawRestore)).1.dev.vit w).st = (devRst.vit w).st) ∧ (xRst.regions (rawRestore)).1.dev.ckptOk 0 (rawRestore) [{ v := 0, base := 4096, len := 64, off := 0 }] = true ∧
    ((xRst.regions (rawRestore)).1.restoreRegions 0 [{ v := 0, base := 4096, len := 64, off := 0 }]).2 = false := by decide +kernel

/-- A DMA descriptor: opcode, source, destination, length and further bits. -/
def rawDma (op src dst len : Nat) (more : Nat := 0) : BitVec 512 := BitVec.ofNat 512 (src * 2 ^ 460 + dst * 2 ^ 408 + len * 2 ^ 376 + op * 2 ^ 24 + more)
theorem witness_dma : ∀ op ∈ [0x10, 0x11, 0x12, 0x13, 0x14], (devJob (2 ^ 33) (fetched (rawDma op 0 4096 256))).dmaReady 0 0 op 0 = some (fetched (rawDma op 0 4096 256)) ∧ dCluster (rawDma op 0 4096 256) = none ∧
    (devW).valid 0 0 256 = true ∧ (devW).valid 0 4096 256 = true ∧ remoteBad (rawDma op 0 4096 256) = false ∧ remoteBad (rawDma op 1 4096 255) = true := by decide +kernel
theorem witness_dmaGallery : (∀ k ∈ [0, 1, 2, 3, 4], (gcOpOf (dGcOp (rawDma 0x14 0 0 128 (k * 2 ^ 352)))).isSome = true) ∧ gcOpOf (dGcOp (rawDma 0x14 0 0 128 (15 * 2 ^ 352))) = none := by decide +kernel
theorem witness_fill : dCluster (rawDma 0x11 0 0 64 (2 ^ 351)) = some 0 ∧ ({ devW with clus := [(0, { stepGran := [0], stepBytes := some 65536 })] } : Dev).clu 0 = { stepGran := [0], stepBytes := some 65536 } ∧
    ((devW).vit (BitVec.ofNat 5 (0 / 2))).leader = some 0 := by decide +kernel
theorem witness_copy : dSrcHost (rawDma 0x10 0 4096 256 (3 * 2 ^ 358)) = true ∧ dDstHost (rawDma 0x10 0 4096 256 (3 * 2 ^ 358)) = true ∧ 0 + 256 ≤ 4096 := by decide +kernel
theorem witness_dmaTransferDone : (devJob (2 ^ 33) (fetched (rawDma 0x10 0 4096 256) true)).performed 0 0 (fetched (rawDma 0x10 0 4096 256) true) = true ∧ (devW).jobRuns 0 = true := by decide +kernel
/-- A media descriptor of V0's decoder: ENCODE_AV1 of two frames of 64 by 64, and its engine free. -/
theorem witness_media : (devJob (2 * 2 ^ 33) (fetched (rawDma 0x20 0 0 0))).media (engineOf 0 (ringOf (2 * 2 ^ 33) (fetched (rawDma 0x20 0 0 0)))) = {} ∧ (ringOf (2 * 2 ^ 33) (fetched (rawDma 0x20 0 0 0))).type = 2 ∧
    mediaBad true (rawDma 0x20 0 0 0) = true := by decide +kernel

theorem witness_mediaStart : mediaBad true (rawDma 0x20 0 0 0 (64 * 2 ^ 376 + 64 * 2 ^ 360 + 2 * 2 ^ 344)) = false ∧ mFrames (rawDma 0x20 0 0 0 (64 * 2 ^ 376 + 64 * 2 ^ 360 + 2 * 2 ^ 344)) = 1 + 1 ∧
    mDeadline (rawDma 0x20 0 0 0 (64 * 2 ^ 376 + 64 * 2 ^ 360 + 2 * 2 ^ 344)) = 0 := by decide +kernel

/-! ### Faults and tests -/

theorem witness_clockLoss : (devW).runs 0 = true ∧ ((devW).proc (10 + 0)).st ≠ 1 := by decide +kernel
theorem witness_dieFence : (devW).isFenced 0 = false ∧ (devW).rel.diesOut.getLsbD 0 = false ∧ ({ devW with rel := { clockLost := 1 } }).rel.clockLost.getLsbD 0 = true ∧
    ({ devW with pow := { dies := [(0, { trip := some 0 })] } }.dpow 0).trip.isSome = true := by decide +kernel
/-- Die 0 stands fenced, may rejoin, and is rejoining. -/
def devFen (rejoining : Bool) : Dev := { devW with rel := { fenced := [(0, .clock)], rejoining := if rejoining then [(0, 5)] else [] }, vits := [(0, { st := .outOfService, leader := some 0 })] }
theorem witness_dieRejoin : (devFen false).isFenced 0 = true ∧ kget false (devFen false).rel.barred 0 = false ∧ kfind (devFen false).rel.rejoining 0 = none ∧ (devFen false).tripCleared 0 = true ∧
    (kfind (devFen true).rel.rejoining 0).isSome = true := by decide +kernel
/-- V0's job is in repair. -/
def devRep : Dev := { devW with rel := { jobs := [(0, { st := 2 })] } }
theorem witness_repairDone : (devRep.job 0).st = 2 ∧ (∀ v ∈ devRep.tenancy 0, (devRep.proc (10 + dieOfVit v)).st ≠ 1 ∧ kfind devRep.rel.rejoining (dieOfVit v) = none ∧ (∀ ch ∈ slicesOfVit v, (devRep.hchan ch).due.any (·.unc) = false)) ∧
    [(5 : CoreId)] = [(5 : CoreId)].filter (fun c => (devRep.tenancy 0).contains (vitOfCore c)) ∧ [] = [(500 : CoreId)].filter (fun c => (devRep.tenancy 0).contains (vitOfCore c)) ∧
    nthD 0 ({} : Slots).slotOf ((5 : CoreId).toNat % 16) < 16 ∧ (devRep).vset 0 9 4 ≠ 1 := by decide +kernel
theorem witness_sramScrub : kget 0 (devW).rel.scrub (sramCode .cluster * 1024 + 3) + 4 * (devW).force 0x6000 1 0 ≤ ((devW).die 0).root ∧
    kget 0 (devW).rel.scrub (sramCode .engine * 1024 + 3) + (devW).force 0x6000 1 0 ≤ (devW).cycOf 3 ∧ ((devW).eng 3).serves = none := by decide +kernel
theorem witness_waySubstitute : ((devW).slice 0).spare = none ∧ ({ devW with gal := [(0, { spare := some 3 })] }.slice 0).spare = some 3 ∧ ((devW).vit 0).st ≠ .withdrawn := by decide +kernel
theorem witness_laserCheck : ((∀ k ∈ [0, 5, 112], (laserPlace k).1 < 8 → (devW).isFenced (laserPlace k).1 = false) ∧ kget 0 (devW).rel.scrub 65536 + 1024 ≤ (devW).ref) ∧
    (∃ r, laserFeeds (laserPlace 0).1 (laserPlace 0).2 0 = .inl r) ∨ ∃ m, laserFeeds (laserPlace 0).1 (laserPlace 0).2 0 = .inr m := by
  cases laserFeeds (laserPlace 0).1 (laserPlace 0).2 0 with
  | inl r => exact .inl ⟨by decide +kernel, r, rfl⟩
  | inr m => exact .inr ⟨m, rfl⟩
theorem witness_bist : (∀ k ∈ [1, 2, 3, 4, 5, 6, 7, 8, 9], (bistRow k 4).isSome = true) ∧ bistRow 1 544 = none ∧ (devW).bistBusy 0 1 = false ∧ (devW).bistAllowed 1 4 = true ∧
    ({ devW with rel := { bist := [(0, { running := true })] } }.bistBusy 0 1) = true := by decide +kernel
theorem witness_bistSlotSwap : ({} : Slots).slotOf.findIdx? (fun k => k == (5 : Nat) % 17) = some 5 ∧ ({ running := true, kind := 1, target := 5 } : Bist).target / 17 = (0 : VitId).toNat ∧ (devW).stepOn 0 = none := by decide +kernel
theorem witness_bistDone : ([] : List BistEntry).all bistPass = true ∧ ((devW).proc 1).st ≠ 1 := by decide +kernel
theorem witness_recordSeal : (devW).rel.sealing = none ∧ ({ devW with rel := { sealing := some 0 } }).rel.sealing.isSome = true ∧ ((devW).proc 1).st = 0 := by decide +kernel

/-! ### Start-up, firmware and debug -/

theorem witness_reset : State.reset.dev.fw.step = 1 := by decide
theorem witness_land : ({} : HostP).perst = true ∧ ({} : HostP).pwrOk = true := by decide
/-- A device whose start-up stands at a step. -/
def devUp (step start : Nat) : Dev := { fw := { step := step, start := start } }
theorem witness_loadSegment : (devUp 4 0).fw.reloads = true ∧ (0 : BitVec 64).toNat + 1 ≤ stageSecond := by decide +kernel
/-- A bundle that every stepping of this package accepts, and a record of this package. -/
def bundle1 : BundleInfo := { bundle0 with steppings := [Config.plinthStepping, Config.atriumStepping] ++ (List.range 8).map Config.dieStepping }
def rec1 : RecordInfo := { rec0 with serial := Config.packageSerial }
theorem witness_startVerifyPasses : (devUp 5 1).startCheck State.reset.mram bundle1 rec1 = 0 := by
  have h : steppingsOk bundle1.steppings = true := by
    simp [steppingsOk, bundle1]
    exact fun x h => .inr (.inr ⟨x, h, rfl⟩)
  have hb : bundleCheck State.reset.mram 0 bundle1 = 0 := by
    unfold bundleCheck
    rw [h]
    decide +kernel
  unfold Dev.startCheck
  rw [show (devUp 5 1).fw.bundleLen = 0 from rfl, hb]
  simp [rec1, rec0]
  decide +kernel
theorem witness_startVerify : (devUp 5 1).startCheck State.reset.mram bundle0 rec0 ≠ 0 := by decide +kernel
theorem witness_firmware : (devW).fw.step = 11 ∧ ((devW).proc 12).st = 0 ∧ ((devW).proc 12).restarts < 3 ∧ (2 ≤ 12 → (devW).runs (procDie 12) = true) := by decide +kernel
theorem witness_admin : (devW).adminServes = true := by decide +kernel
theorem witness_activation : (devW).emergency = 0 ∧ (devW).pow.calmAt + 10000000 ≤ (devW).ref ∧ ({ devW with fw := { act := 2, docents := 1 } } : Dev).fw.docents.getLsbD 0 = true := by decide +kernel
theorem witness_spdm : (1 : Byte).toNat ∈ measureIndices .mctp ∧ (1 : Byte) ≠ 255 := by decide +kernel
theorem witness_tsp : ((devW).vit 0).held = true ∧ ((devW).vit 0).tspLocked = false := by decide +kernel

theorem witness_stop : (devW).dbg.st = 0 ∧ (devW [(ckey 0x8100 5 0, 1)]).force 0x8100 5 0 = 1 := by decide +kernel
theorem witness_stopMark : ∃ r : Fin 144, (dirEnds r.val).2.1 ≠ 8 ∧ (255 : BitVec 8).getLsbD (dirEnds r.val).2.1 = true ∧ ((dirEnds r.val).1 = 8 ∨ (255 : BitVec 8).getLsbD (dirEnds r.val).1 = true) := by decide +kernel
theorem witness_resumeArrival : (255 : BitVec 8).getLsbD 0 = true ∧ ∀ r : Fin 144, ((devW).bund r.val).captured = [] := by decide +kernel
theorem witness_mark : kget [] ({ toMark := [(0, [4, 5])] } : Dbg).toMark 0 = 4 :: [5] := by decide
theorem witness_scanout : (devW).dbg.scan = none ∧ scanSize ((devW).scanSecs { leader := some 0, sections := 0, dies := 0, buf := { addr := 0, len := 0 } }) ≤ (0xFFFFFFFF : BitVec 64).toNat ∧
    (0 : BitVec 64).toNat < scanSize ((devW).scanSecs { leader := some 0, sections := 0, dies := 0, buf := { addr := 0, len := 0 } }) := by decide +kernel
theorem witness_vitrineHalt : ((devW).vit 0).halt = 0 ∧ (devW).tenancy 0 ≠ [] ∧ (∀ k ∈ coresOfVit 0, ((devW).core (BitVec.ofNat 9 k)).quiesced = true) := by decide +kernel
theorem witness_trace : fld ((devW).traceCtl 0) 32 2 ≠ 2 ∧ (devW).debugMode 0 = false := by decide +kernel
theorem witness_traceHalt : fld ((devW [(ckey 0x300D 5 0, 2 * 2 ^ 32), (ckey 0x300D 1 0, 1)]).traceCtl 0) 32 2 = 2 ∧ (devW [(ckey 0x300D 5 0, 2 * 2 ^ 32), (ckey 0x300D 1 0, 1)]).debugMode 0 = true := by decide +kernel
theorem witness_markerInterval : (devW [(ckey 0x8102 2 0, 1000000)]).acc 0x8102 2 0 ≠ 0 ∧ 0 + (devW [(ckey 0x8102 2 0, 1000000)]).acc 0x8102 2 0 ≤ (devW).ref := by decide +kernel

end Sys2Proof.Tests
end

namespace Sys2Proof.Machine

/-! ### The place of a Vitrine (O28) -/

/-- The Vitrine of a core, on the indices of the 512 cores and 32 Vitrines: 16 cores in a row share one. -/
theorem vitOfCore_ofNat_eq_iff {core vit : Nat} (hcore : core < 512) (hvit : vit < 32) :
    vitOfCore (BitVec.ofNat 9 core) = BitVec.ofNat 5 vit ↔ core / 16 = vit := by
  rw [vitOfCore, BitVec.toNat_ofNat, Nat.mod_eq_of_lt (by omega), ← BitVec.toNat_inj, BitVec.toNat_ofNat, BitVec.toNat_ofNat,
    Nat.mod_eq_of_lt (by omega), Nat.mod_eq_of_lt (by omega)]

/-- Settles O28: the Vitrine of a core fixes the half of its Wing, cluster / 2, that its cluster lies in. -/
theorem vitrinesHoldTheirClusters : Obligations.VitrinesHoldTheirClusters := by
  intro die wing cluster core pair hdie hwing hcluster hcore hpair
  rw [vitOfCore_ofNat_eq_iff (by omega) (by omega)]
  have pairOfCluster : (die * 64 + wing * 32 + cluster * 8 + core) / 16 = die * 4 + wing * 2 + cluster / 2 := by omega
  rw [pairOfCluster]
  omega

/-! ### Every command is answered (O49) -/

/-- A command that changes the machine alone is a command that lists no change of memory or of the MRAM. -/
theorem runDev_eq_run (s : State) (f : Mems → Mram → Dev → Dev) : runDev s f = run s (fun x => x.on (f x.mem x.mram)) := rfl

theorem onL1_eq_run (s : State) (k : MsgKind) (c : CoreId) (a : Addr) (data : Line) (poison : BitVec 2) (f : Nat → L1St → Line → BitVec 2 → X → X) :
    ∃ h, onL1 s k c a data poison f = run s h := ⟨_, rfl⟩

theorem hostReq_eq_run (s : State) (a : Addr) (inStream : Bool) (kind : HomeKind) : ∃ f, hostReq s a inStream kind = run s f := ⟨_, rfl⟩

theorem execDma_eq_run (v : VitId) (r : RingId) (op : Nat) (seq : Word) (s : State) (bad : BitVec 512 → Bool) (go : VitId → Fetched → X → Moved) :
    ∃ f, execDma v r op seq s bad go = run s f := ⟨_, rfl⟩

theorem execMedia_eq_run (v : VitId) (r : RingId) (op : Nat) (seq : Word) (profileOk : Bool) (s : State) :
    ∃ f, execMedia v r op seq profileOk s = run s f := ⟨_, rfl⟩

/-- Every command's meaning is the run of one change of the machine. The first case names the commands that change the machine alone; the next
four share the operation of an L1's messages, of the host's requests, of the DMA rings and of the media rings; every other command may list changes
of memory and of the MRAM. -/
theorem exec_eq_run (i : Instr) (s : State) : ∃ f, exec i s = run s f := by
  cases i with
  | blockRetire | swapComplete | fenceComplete | escalatedRunStart | storeTransferStart | rampWave | rampIdleExpiry | arrayCurrentLimit
  | arrayCeilingRelease | segmentPresent | pvInsert | pvVerify | hbmSchedule | hbmRefresh | stackTempRead | hbmCalibration | ondieCountRead
  | rowOffline | h2dSnoop | streamEntryExpiry | thrashEvaluation | flitCrcReplay | seamLaneSubstitute | dieLinkFrame | dieLinkRetrain
  | dieLinkRetrainDone | dieLinkPeerLost | controlMessage | portIssue | tokenReturn | regWindowEnd | mediaResponse | fabricFrameReceive
  | fabricPeerLost | linkTrainingDone | digestExchange | remoteRetryExpiry | transitForward | transitDiscard | paceSend | paceReceive | pair
  | takeover | cqHead | ringDisableDone | stepTimeLimit | transactionTimeout | sessionIdleTimeout | event | eventResend | getEventRecords
  | powerControlInterval | pstateChange | pstateSwitchDone | powerBudgetTick | dieBudget | dieReport | dieTempLimit | railOvervoltage
  | inputUndervoltage | regulatorAlert | regulatorStatusPoll | regulatorSilent | hardLimitExit | fwActivationResumed | marginCheck | dieRejoin
  | laserCheck | recordSealDone | loadEnd | startStatus | docentActivationRestart | spdmMessage | tspLock | linkKeyRatchet
  | linkAuthRetry | stopLand | stopArrival | stopMark | traceTriggered | markerIntervalTick | mark | perstNRise | hdmDecoderCommit
  | plinth12vRecovery | paceLatestStateSend | frameLockLoss | powerOnHours =>
    dsimp only [exec]; exact ⟨_, runDev_eq_run s _⟩
  | datas | datae | datau | datam | grantm | noalloc | inv | recalls | recalli | putack => dsimp only [exec]; exact onL1_eq_run ..
  | hostMemrd | hostMemwr => dsimp only [exec]; exact hostReq_eq_run ..
  | copy | fill | dmaRput | dmaRget | gallery => dsimp only [exec]; exact execDma_eq_run ..
  | encodeAv1 | encodeHevc | decodeAv1 | decodeHevc => dsimp only [exec]; exact execMedia_eq_run ..
  | _ => dsimp only [exec]; exact ⟨_, rfl⟩

/-- Settles O49: every command is a run (`exec_eq_run`), and a run answers a next state and leaves the queue as it was (`run_eq`). -/
theorem everyCommandCompletes : Obligations.EveryCommandCompletes := by
  intro i s
  obtain ⟨f, hf⟩ := exec_eq_run i s
  exact ⟨_, hf.trans (run_eq s f), rfl⟩

end Sys2Proof.Machine

namespace Sys2Proof.Machine

/-! ### Resets, as the memory sees them (O58) -/

/-- A filter that drops the addresses from `a` to `a + n` reads 0 there, and nothing else changes. -/
theorem cellGet_cellZero (m : List Host.Cell) (a n k : Nat) :
    cellGet (cellZero m a n) k = if a ≤ k ∧ k < a + n then 0 else cellGet m k := by
  induction m with
  | nil => simp [cellZero]
  | cons e m ih =>
    obtain ⟨j, b⟩ := e
    simp only [cellZero, List.filter_cons] at ih ⊢
    by_cases hj : a ≤ j ∧ j < a + n
    · simp only [hj, decide_true, Bool.and_self, Bool.not_true, Bool.false_eq_true, if_false, ih, cellGet]
      split
      · rfl
      · rw [if_neg (by omega)]
    · have hkept : (!(decide (a ≤ j) && decide (j < a + n))) = true := by simp; omega
      simp only [hkept, if_true, cellGet, ih]
      split
      · subst j; rw [if_neg hj]
      · rfl

theorem Mems.byte_zero (m : Mems) (sp : MemSp) (a n k : Nat) :
    (applyOp m (.zero sp a n)).byte sp k = if a ≤ k ∧ k < a + n then 0 else m.byte sp k := by
  simp only [applyOp, Mems.byte, Mems.sel_put, cellGet_cellZero]

theorem Mems.byte_zero_ne (m : Mems) (sp tp : MemSp) (a n k : Nat) (h : tp ≠ sp) : (applyOp m (.zero sp a n)).byte tp k = m.byte tp k := by
  simp only [applyOp, Mems.byte, Mems.sel_put_ne m sp tp _ h]

@[simp] theorem Mems.byte_clean (m : Mems) (p : Bool) (g n : Nat) (sp : MemSp) (k : Nat) : (applyOp m (.clean p g n)).byte sp k = m.byte sp k := by
  simp only [applyOp]; cases p <;> cases sp <;> rfl

/-- A fatal reset answers with the state that R445 and R363 give. -/
theorem fatalReset_fatallyReset (s : State) : ∃ t, run s X.fatalReset = .next t ∧ FatallyReset s t := by
  refine ⟨_, run_eq s _, fun hstep => ?_, fun hstep => ⟨rfl, ?_, ?_, fun a => ?_, fun sp hsp a ha => ?_⟩⟩
  · simp only [X.fatalReset, if_pos hstep, List.reverse_nil, applyAll, List.foldl_nil]
  all_goals simp only [X.fatalReset, if_neg (Nat.not_le.2 hstep)]
  · rfl
  · rfl
  · simp [X.reset, applyAll, Mems.byte_zero_ne]
  · simp only [X.reset, applyAll, List.foldl_cons, List.foldl_nil, X.op_ops, List.reverse_cons, List.reverse_nil, List.nil_append,
      List.cons_append, Mems.byte_clean]
    simp only [List.mem_cons, List.not_mem_nil, or_false] at hsp
    have hin : 0 ≤ a ∧ a < 0 + 2 ^ 64 := ⟨Nat.zero_le a, by omega⟩
    rcases hsp with rfl | rfl | rfl | rfl | rfl <;> simp only [Mems.byte_zero, Mems.byte_zero_ne, ne_eq, reduceCtorEq, not_false_eq_true, if_pos hin]

end Sys2Proof.Machine

namespace Sys2Proof.Machine

/-! ### What an error record and a noted change leave of the reliability part (O58) -/

/-- An error record changes the log, its numbers and the records held, and nothing else of the reliability part (R353). -/
theorem Dev.logErr_rel_eq (d : Dev) (r : ErrRec) : (d.logErr r).rel =
    { d.rel with log := (d.logErr r).rel.log, next := (d.logErr r).rel.next, lost := (d.logErr r).rel.lost, heldRecs := (d.logErr r).rel.heldRecs } :=
  ((Moves.refl d).logErr r).rel

@[simp] theorem Dev.logErr_jobs (d : Dev) (r : ErrRec) : (d.logErr r).rel.jobs = d.rel.jobs := by rw [Dev.logErr_rel_eq]
@[simp] theorem Dev.logErr_clockLost (d : Dev) (r : ErrRec) : (d.logErr r).rel.clockLost = d.rel.clockLost := by rw [Dev.logErr_rel_eq]
@[simp] theorem Dev.logErr_slots (d : Dev) (r : ErrRec) : (d.logErr r).rel.slots = d.rel.slots := by rw [Dev.logErr_rel_eq]
@[simp] theorem Dev.logErr_lasers (d : Dev) (r : ErrRec) : (d.logErr r).rel.lasers = d.rel.lasers := by rw [Dev.logErr_rel_eq]
@[simp] theorem Dev.logErr_bist (d : Dev) (r : ErrRec) : (d.logErr r).rel.bist = d.rel.bist := by rw [Dev.logErr_rel_eq]

/-- A record stands last in the log with the next RECORD_SEQ, unless the die's Conservator restarts (R353). -/
theorem Dev.logErr_logs (d : Dev) (r : ErrRec) (h : r.atrium = true ∨ (d.proc (10 + r.die)).st ≠ 1) :
    ∃ c, { r with seq := d.rel.next, cycle := c } ∈ (d.logErr r).rel.log := by
  have hnot : ¬ (!r.atrium && (d.proc (10 + r.die)).st == 1) = true := by
    rcases h with h | h <;> simp [h]
  refine ⟨(if r.atrium then d.curCycle else d.cyc r.die) % 2 ^ 48, ?_⟩
  simp only [Dev.logErr]
  rw [if_neg hnot]
  simp only [Dev.onRel_rel, List.length_append, List.length_cons, List.length_nil]
  rw [List.drop_append_of_le_length (by omega)]
  exact List.mem_append_right _ (List.mem_singleton.2 rfl)

theorem Dev.changed_rel (d : Dev) (a : Nat) : (d.changed a).rel = { d.rel with changes := (d.rel.changes + 1) % 2 ^ 32 } := by
  simp [Dev.changed]

/-! ### Which parts the networks' and links' updates can change -/

theorem Only.setBund {l : List Part} {d e : Dev} (r : Nat) (f : Bund → Bund) (h : Only l d e) (h0 : Part.net ∈ l) : Only l d (e.setBund r f) := h.with_net _ h0
theorem Only.setSeam {l : List Part} {d e : Dev} (k : Nat) (f : Seam → Seam) (h : Only l d e) (h0 : Part.net ∈ l) : Only l d (e.setSeam k f) := h.with_net _ h0
theorem Only.setJob {l : List Part} {d e : Dev} (v : VitId) (f : Job → Job) (h : Only l d e) (h0 : Part.rel ∈ l) : Only l d (e.setJob v f) := h.onRel _ h0

/-! ### What sending operations and moving a link leave (O58) -/

@[simp] theorem Dev.link_setLink (d : Dev) (l : Nat) (f : Link → Link) : (d.setLink l f).link l = f (d.link l) := by
  simp [Dev.link, Dev.setLink, Dev.onFab]
theorem Dev.link_setLink_ne (d : Dev) (l k : Nat) (f : Link → Link) (h : k ≠ l) : (d.setLink l f).link k = d.link k := by
  simp only [Dev.link, Dev.setLink, Dev.onFab, kupd]; exact kget_kset_ne _ _ _ _ _ h

/-- Sending what waits on a link moves its operations and credits only (R239, R240). -/
theorem Link.flush_st_out (k : Link) : k.flush.st = k.st ∧ k.flush.out = k.out := by
  have huse : ∀ (k : Link) (c n : Nat), (k.useCredit c n).st = k.st ∧ (k.useCredit c n).out = k.out := by
    intro k c n; unfold Link.useCredit; split <;> exact ⟨rfl, rfl⟩
  have hsent : ∀ (ws : List (Nat × ROp)) (f : Link × List (Nat × ROp) → Nat × ROp → Link × List (Nat × ROp)) (a : Link × List (Nat × ROp)),
      (∀ a w, ((f a w).1.st, (f a w).1.out) = (a.1.st, a.1.out)) → ((ws.foldl f a).1.st, (ws.foldl f a).1.out) = (a.1.st, a.1.out) :=
    fun ws f a hf => foldl_keeps (fun a : Link × List (Nat × ROp) => (a.1.st, a.1.out)) f hf ws a
  refine Prod.mk.inj (hsent k.wait _ (k, []) (fun a w => ?_))
  dsimp only
  split
  · obtain ⟨hst, hout⟩ := huse a.1 w.1 (1 + w.2.dataSlots.toNat); simp only [hst, hout]
  · rfl

/-- Sending operations changes the fabric and counters; every link stays in its state, in service or out of it. -/
structure Dev.Sends (d e : Dev) : Prop where
  only : Only [.fab, .cnt] d e
  link : ∀ l, (e.link l).st = (d.link l).st ∧ (e.link l).out = (d.link l).out

namespace Dev.Sends

theorem refl (d : Dev) : Dev.Sends d d := ⟨Only.refl _ d, fun _ => ⟨rfl, rfl⟩⟩

theorem trans {d e f : Dev} (h : Dev.Sends d e) (k : Dev.Sends e f) : Dev.Sends d f :=
  ⟨h.only.trans k.only, fun l => ⟨(k.link l).1.trans (h.link l).1, (k.link l).2.trans (h.link l).2⟩⟩

theorem foldl {β : Type} (f : Dev → β → Dev) (hf : ∀ e b, Dev.Sends e (f e b)) (bs : List β) {d e : Dev} (h : Dev.Sends d e) : Dev.Sends d (bs.foldl f e) := by
  induction bs generalizing e with
  | nil => exact h
  | cons b bs ih => exact ih (h.trans (hf e b))

/-- A change of the fabric that leaves the links. -/
theorem onFab {d e : Dev} (h : Dev.Sends d e) (f : Fab → Fab) (hf : (f e.fab).links = e.fab.links) : Dev.Sends d (e.onFab f) :=
  h.trans ⟨(Only.refl _ e).onFab f (by simp), fun l => by simp only [Dev.link, Dev.onFab, hf, and_self]⟩

theorem count {d e : Dev} (h : Dev.Sends d e) (i s r n : Nat) : Dev.Sends d (e.count i s r n) :=
  h.trans ⟨(Only.refl _ e).count i s r n (by simp), fun _ => ⟨rfl, rfl⟩⟩

theorem setLink {d e : Dev} (h : Dev.Sends d e) (l : Nat) (f : Link → Link) (hf : ∀ k, (f k).st = k.st ∧ (f k).out = k.out) : Dev.Sends d (e.setLink l f) := by
  refine h.trans ⟨(Only.refl _ e).setLink l f (by simp), fun k => ?_⟩
  by_cases hk : k = l
  · subst hk; rw [Dev.link_setLink]; exact hf _
  · rw [Dev.link_setLink_ne _ _ _ _ hk]; exact ⟨rfl, rfl⟩

theorem sendOp (e : Dev) (o : RemOp) : Dev.Sends e (e.sendOp o).1 := by
  simp only [Dev.sendOp]; split
  · exact (refl e).onFab (fun b => { b with loop := b.loop ++ [o.op] }) rfl
  · split
    · exact (refl e).setLink _ _ (fun k => Link.flush_st_out _)
    · exact refl e

theorem kickFab {d e : Dev} (h : Dev.Sends d e) : Dev.Sends d e.kickFab := by
  simp only [Dev.kickFab]
  refine foldl _ (fun e o => ?_) _ (h.onFab _ rfl)
  refine onFab ?_ _ rfl
  split
  · exact refl e
  · split
    · split
      · exact sendOp e o
      · exact refl e
    · split
      · exact (sendOp e _).count _ _ _ _
      · exact refl e

theorem pairCheck {d e : Dev} (h : Dev.Sends d e) : Dev.Sends d e.pairCheck := by
  simp only [Dev.pairCheck]; split
  · exact h.onFab _ rfl
  · exact h

theorem loseLink {d e : Dev} (h : Dev.Sends d e) (l : Nat) : Dev.Sends d (e.loseLink l) := (h.onFab _ rfl).kickFab

end Dev.Sends

/-- A link's new state, its cleared buffers, its counters and its event: what `Dev.linkTo` does before operations are sent again. -/
def Dev.linkMoved (d : Dev) (l : Nat) (st : LinkSt) (reason : Nat) : Dev :=
  let old := (d.link l).st
  let d := d.setLink l (fun k => { k with st := st, reason := reason })
  let d := if st == .down || st == .training then d.setLink l (fun k => { k with sent := [], wait := [], ingress := [], nak := false }) else d
  let d := if st == .training && old != .training then d.count 0x8019 3 l else d
  let d := if st == .quarantine && old != .quarantine then d.count 0x8019 4 l else d
  d.post 0x0012 3 l st.code reason

theorem Dev.linkTo_eq (d : Dev) (l : Nat) (st : LinkSt) (n : Nat) : d.linkTo l st n =
    if ((d.link l).st == .active && st != .active) = true then (d.linkMoved l st n).pairCheck.loseLink l
    else if (st == .active) = true then (d.linkMoved l st n).pairCheck.kickFab else (d.linkMoved l st n).pairCheck := rfl

theorem Dev.linkTo_sends (d : Dev) (l : Nat) (st : LinkSt) (n : Nat) : Dev.Sends (d.linkMoved l st n) (d.linkTo l st n) := by
  have h := (Dev.Sends.refl (d.linkMoved l st n)).pairCheck
  rw [Dev.linkTo_eq]; split
  · exact h.loseLink l
  · split
    · exact h.kickFab
    · exact h

theorem Dev.linkMoved_only (d : Dev) (l : Nat) (st : LinkSt) (n : Nat) : Only [.fab, .cnt, .cat] d (d.linkMoved l st n) := by
  have hst := (Only.refl [.fab, .cnt, .cat] d).setLink l (fun k => { k with st := st, reason := n }) (by simp)
  have hclear := hst.setLink l (fun k => { k with sent := [], wait := [], ingress := [], nak := false }) (by simp)
  have hcount : ∀ {f : Dev} (c : Bool) (m : Nat), Only [.fab, .cnt, .cat] d f → Only [.fab, .cnt, .cat] d (if c = true then f.count 0x8019 m l else f) :=
    fun c m hf => (hf.count _ _ _ _ (by simp)).ite hf
  exact (hcount _ 4 (hcount _ 3 (hclear.ite hst))).post _ _ _ _ _ _ (by simp)

/-- A link's change of state is one of the fabric, the counters and the event channel. -/
theorem Only.linkTo {l : List Part} {d e : Dev} (k : Nat) (st : LinkSt) (n : Nat) (h : Only l d e) (hl : ∀ p ∈ [Part.fab, .cnt, .cat], p ∈ l) :
    Only l d (e.linkTo k st n) :=
  h.trans (((e.linkMoved_only k st n).trans ((e.linkTo_sends k st n).only.mono (by simp))).mono hl)

theorem Dev.linkMoved_link (d : Dev) (l : Nat) (st : LinkSt) (n : Nat) :
    ((d.linkMoved l st n).link l).st = st ∧ ((d.linkMoved l st n).link l).out = (d.link l).out := by
  have hcount : ∀ (e : Dev) (c : Bool) (m : Nat), (if c = true then e.count 0x8019 m l else e).link l = e.link l := by
    intro e c m; split <;> rfl
  have hpost : ∀ (e : Dev) (c k i a b m : Nat), (e.post c k i a b m).link l = e.link l := fun e c k i a b m => by simp only [Dev.link, Dev.post_fab]
  simp only [Dev.linkMoved, hpost, hcount]
  split
  · simp only [Dev.link_setLink, and_self]
  · simp only [Dev.link_setLink, and_self]

/-- A link moved to a state stands there, in service or out of it as it was (R242). -/
theorem Dev.linkTo_link (d : Dev) (l : Nat) (st : LinkSt) (n : Nat) :
    ((d.linkTo l st n).link l).st = st ∧ ((d.linkTo l st n).link l).out = (d.link l).out :=
  ⟨((d.linkTo_sends l st n).link l).1.trans (d.linkMoved_link l st n).1, ((d.linkTo_sends l st n).link l).2.trans (d.linkMoved_link l st n).2⟩

end Sys2Proof.Machine

namespace Sys2Proof.Machine

/-! ### Clock losses and fences (O58) -/

theorem putBit_getLsbD_same {w : Nat} (m : BitVec w) (i : Nat) (b : Bool) (h : i < w) : (putBit m i b).getLsbD i = b := by
  have hbit : (bit1 w i).getLsbD i = true := by simp only [bit1, BitVec.getLsbD_ofNat, h, decide_true, Nat.testBit_two_pow_self, Bool.and_self]
  cases b
  · simp only [putBit, Bool.false_eq_true, if_false, BitVec.getLsbD_and, BitVec.getLsbD_not, hbit, Bool.not_true, Bool.and_false]
  · simp only [putBit, if_true, BitVec.getLsbD_or, hbit, Bool.or_true]

@[simp] theorem Dev.runs_logErr (d : Dev) (r : ErrRec) (i : Nat) : (d.logErr r).runs i = d.runs i := by simp only [Dev.runs, Dev.die, Dev.logErr_clk]
@[simp] theorem Dev.runs_onRel (d : Dev) (f : Rel → Rel) (i : Nat) : (d.onRel f).runs i = d.runs i := rfl

/-- The loss of a die's clock (R327): the die stands still, the loss is noted and recorded. -/
def Dev.clockLose (d : Dev) (i unit : Nat) : Dev :=
  ((d.setDie i (fun k => { k with running := false })).onRel (fun r => { r with clockLost := putBit r.clockLost i true })).logErr
    { ukind := 10, unit, cls := 6, outcome := 3, die := i }

theorem Dev.clockLose_only (d : Dev) (i unit : Nat) : Only [.clk, .rel] d (d.clockLose i unit) :=
  (((Only.refl _ d).setDie _ _ (by simp)).onRel _ (by simp)).logErr _ (by simp)

theorem Dev.clockLose_runs (d : Dev) (i unit : Nat) : (d.clockLose i unit).runs i = false := by
  simp only [Dev.clockLose, Dev.runs_logErr, Dev.runs_onRel]
  simp only [Dev.runs, Dev.die_setDie]

theorem Dev.clockLose_clockLost (d : Dev) (i unit : Nat) (h : i < 8) : (d.clockLose i unit).rel.clockLost.getLsbD i = true := by
  simp only [Dev.clockLose, Dev.logErr_clockLost, Dev.onRel_rel, putBit_getLsbD_same _ _ _ h]

theorem Dev.clockLose_logs (d : Dev) (i unit : Nat) (h : (d.proc (10 + i)).st ≠ 1) :
    ∃ r ∈ (d.clockLose i unit).rel.log, r.ukind = 10 ∧ r.unit = unit ∧ r.cls = 6 ∧ r.outcome = 3 ∧ r.seq = d.rel.next := by
  obtain ⟨c, hc⟩ := Dev.logErr_logs ((d.setDie i (fun k => { k with running := false })).onRel (fun r => { r with clockLost := putBit r.clockLost i true }))
    { ukind := 10, unit := unit, cls := 6, outcome := 3, die := i } (.inr h)
  exact ⟨_, hc, rfl, rfl, rfl, rfl, rfl⟩

theorem clockLoss_die (s : State) (d : DieId) (k : BitVec 3) (h : s.dev.runs d.toNat = true) :
    exec (.clockLoss (.die d k)) s = .next { s with dev := s.dev.clockLose d.toNat (d.toNat * 8 + k.toNat) } := by
  show execClockLoss (.die d k) s = _
  simp only [execClockLoss, run, h, Bool.not_true, Bool.false_eq_true, if_false]
  rfl

theorem clockLoss_rootPll (s : State) (d : DieId) (h : s.dev.runs d.toNat = true) : exec (.clockLoss (.rootPll d)) s =
    .next { s with dev := { s.dev with fresh := s.dev.fresh + 1 }.clockLose d.toNat (d.toNat * 8 + (Config.pllDomain s.dev.fresh).toNat) } := by
  have hruns : Dev.runs { s.dev with fresh := s.dev.fresh + 1 } d.toNat = true := h
  show execClockLoss (.rootPll d) s = _
  simp only [execClockLoss, run, Dev.draw, hruns, Bool.not_true, Bool.false_eq_true, if_false]
  rfl

theorem X.on_on (x : X) (f g : Dev → Dev) : (x.on f).on g = x.on (fun d => g (f d)) := rfl

section Fence
variable (d : Dev) (i : Nat) (cause : FenceCause)

/-- A die stays fenced until the next start when its faults have reached the limit (R362). -/
def Dev.barAtLimit : Dev := d.onRel (fun r => if d.force 0x6000 2 0 ≤ kget 0 r.dieFaults i then { r with barred := kset r.barred i true } else r)

theorem Dev.barAtLimit_rel : (d.barAtLimit i).rel = { d.rel with barred := (d.barAtLimit i).rel.barred } := by
  simp only [Dev.barAtLimit, Dev.onRel_rel]; split <;> rfl

/-- The marks of a fence on the machine: the die stands still and counts among the fenced, barred at its limit of faults (R360). -/
def Dev.fenceMark : Dev :=
  let d := (d.setDie i (fun k => { k with running := false })).onRel (fun r => { r with fenced := kset r.fenced i cause, dieFaults := kupd 0 r.dieFaults i (· + 1) })
  ((d.barAtLimit i).count 0x6051 1 i).post 0x0203 1 i i (fenceCode cause)

/-- A fenced die leaves the cut of a stop (R411). -/
def Dev.fenceHalt : Dev := { d with dbg := { d.dbg with halted := putBit d.dbg.halted i false, captured := putBit d.dbg.captured i false } }

/-- The rest of a fence is noted for the resume (R411). -/
def Dev.fenceLater (n cls : Nat) : Dev := { d with dbg := { d.dbg with fences := d.dbg.fences ++ [(i, n, cls)] } }

@[simp] theorem Dev.fenceHalt_cnt : (d.fenceHalt i).cnt = d.cnt := rfl
@[simp] theorem Dev.fenceLater_cnt (n cls : Nat) : (d.fenceLater i n cls).cnt = d.cnt := rfl

/-- A Vitrine of a fenced die goes out of service, unless it is withdrawn. -/
def Dev.vitFenced (v : VitId) : Dev := if (d.vit v).st == .withdrawn then d else d.vitState v .outOfService

/-- The Vitrines of a fenced die go out of service, and the identity entries show it. -/
def Dev.fenceVits : Dev :=
  let d := (vitsOfDie i).foldl Dev.vitFenced d
  (d.identChanged none 0x100007 d.diesIn).identChanged none 0x100008 d.vitsIn

/-- What a fence does once the die is marked: its self-test ends, it leaves the cut of a stop, the rest of the device follows at once or on the resume, and
its Vitrines go out of service. -/
def X.fenceTail (x : X) (i n cls : Nat) : X :=
  let x := if (x.dev.bistOf i).running then x.bistEnd i [] 2 else x
  let x := x.on (fun d => d.fenceHalt i)
  let x := if x.dev.dbg.stopped then x.on (fun d => d.fenceLater i n cls) else x.fenceRest i n cls
  x.on (fun d => d.fenceVits i)

/-- Whether a fence of the die has an effect: the device is in service with it, and it is not fenced. -/
def Dev.mayFence : Prop := d.fw.step = 11 ∧ d.isFenced i = false ∧ d.rel.diesOut.getLsbD i = false

theorem X.fence_eq_tail (x : X) (h : x.dev.mayFence i) : ∃ n cls,
    x.fence i cause = ((x.on (fun d => d.fenceRec i cause)).on (fun d => d.fenceMark i cause)).fenceTail i n cls := by
  obtain ⟨hstep, hfenced, hout⟩ := h
  have hnot : ¬ (x.dev.isFenced i || x.dev.fw.step != 11 || x.dev.rel.diesOut.getLsbD i) = true := by simp [hstep, hfenced, hout]
  unfold X.fence
  rw [if_neg hnot]
  exact ⟨_, _, rfl⟩

theorem Only.fenceRec {l : List Part} {d e : Dev} (h : Only l d e) (h0 : Part.rel ∈ l) (h1 : Part.fresh ∈ l) : Only l d (e.fenceRec i cause) := by
  cases cause with
  | clock => exact h
  | peerLost => exact h.logErr _ h0
  | trip | command => exact (h.with_fresh _ h1).logErr _ h0

@[simp] theorem Dev.fenceRec_bist : (d.fenceRec i cause).rel.bist = d.rel.bist := by
  cases cause <;> simp [Dev.fenceRec, Dev.draw]

theorem Dev.fenceMark_only : Only [.clk, .rel, .cnt, .cat] d (d.fenceMark i cause) :=
  (((((Only.refl _ d).setDie _ _ (by simp)).onRel _ (by simp)).onRel _ (by simp)).count _ _ _ _ (by simp)).post _ _ _ _ _ _ (by simp)

@[simp] theorem Dev.fenceMark_bist : (d.fenceMark i cause).rel.bist = d.rel.bist := by
  simp only [Dev.fenceMark, Dev.post_rel, Dev.count_rel]; rw [Dev.barAtLimit_rel]; rfl

theorem Dev.fenceMark_runs : (d.fenceMark i cause).runs i = false := by
  simp only [Dev.fenceMark, Dev.runs, Dev.die, Dev.post_clk, Dev.count_clk, Dev.barAtLimit, Dev.onRel_clk]
  exact congrArg DieClk.running (Dev.die_setDie d i _)

theorem Dev.fenceMark_fenced : kfind (d.fenceMark i cause).rel.fenced i = some cause := by
  simp only [Dev.fenceMark, Dev.post_rel, Dev.count_rel]; rw [Dev.barAtLimit_rel]; exact kfind_kset _ _ _

theorem Dev.fenceMark_counter : (d.fenceMark i cause).counter 0x6051 1 i = (d.counter 0x6051 1 i + 1) % 2 ^ 64 := by
  simp only [Dev.fenceMark, Dev.counter, Dev.post_cnt]
  exact Dev.counter_count _ 0x6051 1 i 1

theorem Only.vitFenced {l : List Part} {d e : Dev} (v : VitId) (h : Only l d e) (h0 : Part.vits ∈ l) (h1 : Part.cat ∈ l) : Only l d (e.vitFenced v) :=
  h.ite (h.vitState v _ h0 h1)

theorem Dev.fenceVits_only : Only [.vits, .cat] d (d.fenceVits i) :=
  (((Only.refl _ d).foldl _ _ (fun e v => (Only.refl _ e).vitFenced v (by simp) (by simp))).identChanged _ _ _ (by simp)).identChanged _ _ _ (by simp)

/-- Along a fold that keeps `I`: what each step sets for its member and every step keeps, holds of each member after the fold. -/
theorem foldl_attains {α β : Type} (f : α → β → α) (I : α → Prop) (P : β → α → Prop) (hI : ∀ a b, I a → I (f a b)) (hset : ∀ a b, I a → P b (f a b))
    (hkeep : ∀ a b c, I a → P c a → P c (f a b)) (l : List β) (a : α) (ha : I a) : ∀ b ∈ l, P b (l.foldl f a) := by
  have hfold : ∀ (l : List β) (a : α) (c : β), I a → P c a → P c (l.foldl f a) := by
    intro l
    induction l with
    | nil => exact fun _ _ _ h => h
    | cons b l ih => exact fun a c ha h => ih _ c (hI a b ha) (hkeep a b c ha h)
  induction l generalizing a with
  | nil => simp
  | cons b l ih =>
    intro c hc
    rcases List.mem_cons.1 hc with rfl | hc
    · exact hfold l _ c (hI a c ha) (hset a c ha)
    · exact ih _ (hI a b ha) c hc

theorem Dev.vit_vitState (v : VitId) (st : VitSt) : (d.vitState v st).vit v = { d.vit v with st := st } := by
  simp only [Dev.vitState, Dev.vit, Dev.postVit_vits]; exact Dev.vit_setVit d v _
theorem Dev.vit_vitState_ne (v w : VitId) (st : VitSt) (h : w ≠ v) : (d.vitState v st).vit w = d.vit w := by
  simp only [Dev.vitState, Dev.vit, Dev.postVit_vits]; exact Dev.vit_setVit_ne d v w _ h

/-- A fenced die's Vitrines are out of service or withdrawn (R360). -/
theorem Dev.fenceVits_st : ∀ v ∈ vitsOfDie i, ((d.fenceVits i).vit v).st = .outOfService ∨ ((d.fenceVits i).vit v).st = .withdrawn := by
  have hvit : ∀ v, (d.fenceVits i).vit v = ((vitsOfDie i).foldl Dev.vitFenced d).vit v := fun v => by
    simp only [Dev.fenceVits, Dev.vit, Dev.identChanged_vits]
  simp only [hvit]
  refine foldl_attains Dev.vitFenced (fun _ => True) (fun v e => (e.vit v).st = .outOfService ∨ (e.vit v).st = .withdrawn) (fun _ _ _ => trivial)
    (fun e v _ => ?_) (fun e v w _ hw => ?_) _ _ trivial
  · simp only [Dev.vitFenced]; split
    · rename_i h; exact .inr (by simpa using h)
    · rw [Dev.vit_vitState]; exact .inl rfl
  · by_cases hv : w = v
    · subst hv
      simp only [Dev.vitFenced]; split
      · exact hw
      · rw [Dev.vit_vitState]; exact .inl rfl
    · simp only [Dev.vitFenced]; split
      · exact hw
      · rwa [Dev.vit_vitState_ne _ _ _ _ hv]

/-- The machine after a fence during a stop (R411): the rest waits for the resume. -/
def Dev.fenceStopped (n cls : Nat) : Dev :=
  (((((d.fenceRec i cause).fenceMark i cause).fenceHalt i).fenceLater i n cls).fenceVits i)

theorem X.fenceTail_stopped (x : X) (n cls : Nat) (hstop : x.dev.dbg.stopped = true) (hbist : (x.dev.bistOf i).running = false) :
    x.fenceTail i n cls = ((x.on (fun d => d.fenceHalt i)).on (fun d => d.fenceLater i n cls)).on
      (fun d => d.fenceVits i) := by
  have hcut : (x.on (fun d => d.fenceHalt i)).dev.dbg.stopped = true := hstop
  unfold X.fenceTail
  dsimp only
  rw [if_neg (Bool.eq_false_iff.1 hbist), if_pos hcut]

/-- During a stop the rest of a fence waits for the resume (R411). -/
theorem X.fence_stopped (x : X) (h : x.dev.mayFence i) (hstop : x.dev.dbg.stopped = true) (hbist : (x.dev.bistOf i).running = false) :
    ∃ n cls, x.fence i cause = x.on (fun d => d.fenceStopped i cause n cls) := by
  obtain ⟨n, cls, hfence⟩ := X.fence_eq_tail i cause x h
  have hdbg : ((x.dev.fenceRec i cause).fenceMark i cause).dbg = x.dev.dbg :=
    ((Dev.fenceMark_only _ i cause).dbg (by simp)).trans (((Only.refl [.rel, .fresh] x.dev).fenceRec i cause (by simp) (by simp)).dbg (by simp))
  refine ⟨n, cls, ?_⟩
  rw [hfence, X.fenceTail_stopped]
  · rw [X.on_on, X.on_on, X.on_on, X.on_on]; rfl
  · simpa only [X.on_dev, hdbg] using hstop
  · simpa only [X.on_dev, Dev.bistOf, Dev.fenceMark_bist, Dev.fenceRec_bist] using hbist

/-- A fence during a stop changes the clocks, the reliability part, the counters and events, the stop's marks, the Vitrines and the free values. -/
theorem Dev.fenceStopped_only (n cls : Nat) : Only [.clk, .rel, .cnt, .cat, .dbg, .vits, .fresh] d (d.fenceStopped i cause n cls) := by
  have hmark := ((Only.refl [.clk, .rel, .cnt, .cat, .dbg, .vits, .fresh] d).fenceRec i cause (by simp) (by simp)).trans
    ((Dev.fenceMark_only _ i cause).mono (by simp))
  exact (hmark.trans (Only.with_dbg (Dev.fenceLater (Dev.fenceHalt _ i) i n cls).dbg (Only.refl _ _) (by simp))).trans ((Dev.fenceVits_only _ i).mono (by simp))

theorem Dev.fenceStopped_runs (n cls : Nat) : (d.fenceStopped i cause n cls).runs i = false := by
  simp only [Dev.runs, Dev.die]
  rw [Dev.fenceStopped, (Dev.fenceVits_only _ i).clk (by simp)]
  exact Dev.fenceMark_runs _ i cause

theorem Dev.fenceStopped_fenced (n cls : Nat) : kfind (d.fenceStopped i cause n cls).rel.fenced i = some cause := by
  rw [Dev.fenceStopped, (Dev.fenceVits_only _ i).rel (by simp)]
  exact Dev.fenceMark_fenced _ i cause

theorem Dev.fenceStopped_cut (n cls : Nat) (h : i < 8) :
    (d.fenceStopped i cause n cls).dbg.halted.getLsbD i = false ∧ (d.fenceStopped i cause n cls).dbg.captured.getLsbD i = false := by
  rw [Dev.fenceStopped, (Dev.fenceVits_only _ i).dbg (by simp)]
  exact ⟨putBit_getLsbD_same _ _ _ h, putBit_getLsbD_same _ _ _ h⟩

theorem Dev.fenceStopped_counter (n cls : Nat) : (d.fenceStopped i cause n cls).counter 0x6051 1 i = (d.counter 0x6051 1 i + 1) % 2 ^ 64 := by
  have hrec := ((Only.refl [.rel, .fresh] d).fenceRec i cause (by simp) (by simp)).cnt (by simp)
  have hmark := Dev.fenceMark_counter (d.fenceRec i cause) i cause
  simp only [Dev.counter, hrec] at hmark ⊢
  rw [Dev.fenceStopped, (Dev.fenceVits_only _ i).cnt (by simp), Dev.fenceLater_cnt, Dev.fenceHalt_cnt, hmark]

end Fence

/-- The condition of a fence by cause (R360): a lost clock, a trip, the host's command or a lost peer. -/
def Dev.fenceCause (d : Dev) (i : Nat) : FenceCause → Prop
  | .clock => d.rel.clockLost.getLsbD i = true
  | .trip => (d.dpow i).trip.isSome = true
  | .command => True
  | .peerLost => d.peerLostDie i = true

/-- DIE_FENCE fences the die when the cause given holds. -/
theorem dieFence_exec (s : State) (d : DieId) (cause : FenceCause) (h : s.dev.fenceCause d.toNat cause) :
    exec (.dieFence d cause) s = run s (fun x => x.fence d.toNat cause) := by
  show execDieFence d cause s = _
  cases cause <;> simp only [Dev.fenceCause] at h <;> simp only [execDieFence, run, h, if_true]

theorem dieFence_completes (s : State) (d : DieId) (cause : FenceCause) (hmay : s.dev.mayFence d.toNat) (hcause : s.dev.fenceCause d.toNat cause) :
    Completes (.dieFence d cause) s (fun t => (∀ v ∈ vitsOfDie d.toNat, (t.dev.vit v).st = .outOfService ∨ (t.dev.vit v).st = .withdrawn) ∧
      (s.dev.dbg.stopped = true → (s.dev.bistOf d.toNat).running = false → Keeps [.clk, .rel, .cnt, .cat, .dbg, .vits, .fresh] s t ∧
        t.dev.runs d.toNat = false ∧ kfind t.dev.rel.fenced d.toNat = some cause ∧ t.dev.dbg.halted.getLsbD d.toNat = false ∧
        t.dev.dbg.captured.getLsbD d.toNat = false ∧ t.dev.counter 0x6051 1 d.toNat = (s.dev.counter 0x6051 1 d.toNat + 1) % 2 ^ 64)) := by
  by_cases hwait : s.dev.dbg.stopped = true ∧ (s.dev.bistOf d.toNat).running = false
  · obtain ⟨hstop, hbist⟩ := hwait
    obtain ⟨n, cls, hcut⟩ := X.fence_stopped d.toNat cause { dev := s.dev, mem := s.mem, mram := s.mram } hmay hstop hbist
    refine completes_on (fun e => e.fenceStopped d.toNat cause n cls) (dieFence_exec s d cause hcause) hcut ?_
    obtain ⟨hhalted, hcaptured⟩ := s.dev.fenceStopped_cut d.toNat cause n cls d.isLt
    exact ⟨Dev.fenceVits_st _ _, fun _ _ => ⟨(s.dev.fenceStopped_only d.toNat cause n cls).keeps, s.dev.fenceStopped_runs d.toNat cause n cls,
      s.dev.fenceStopped_fenced d.toNat cause n cls, hhalted, hcaptured, s.dev.fenceStopped_counter d.toNat cause n cls⟩⟩
  · obtain ⟨n, cls, hfence⟩ := X.fence_eq_tail d.toNat cause { dev := s.dev, mem := s.mem, mram := s.mram } hmay
    exact completes_run _ (dieFence_exec s d cause hcause) hfence ⟨Dev.fenceVits_st _ _, fun hstop hbist => absurd ⟨hstop, hbist⟩ hwait⟩

end Sys2Proof.Machine

namespace Sys2Proof.Machine

/-! ### Rejoin (O58) -/

/-- Every Vitrine stands in the state and the tenancy that it stood in. -/
def Dev.SameTenure (d e : Dev) : Prop := ∀ v, (e.vit v).st = (d.vit v).st ∧ (e.vit v).leader = (d.vit v).leader

namespace Dev.SameTenure

theorem refl (d : Dev) : Dev.SameTenure d d := fun _ => ⟨rfl, rfl⟩

theorem trans {d e f : Dev} (h : Dev.SameTenure d e) (k : Dev.SameTenure e f) : Dev.SameTenure d f :=
  fun v => ⟨(k v).1.trans (h v).1, (k v).2.trans (h v).2⟩

theorem of_vits {d e f : Dev} (h : Dev.SameTenure d e) (k : f.vits = e.vits) : Dev.SameTenure d f :=
  h.trans (fun v => by simp only [Dev.vit, k, and_self])

theorem setVit {d e : Dev} (h : Dev.SameTenure d e) (v : VitId) (f : Vit → Vit) (hf : ∀ t, (f t).st = t.st ∧ (f t).leader = t.leader) :
    Dev.SameTenure d (e.setVit v f) := by
  refine h.trans (fun w => ?_)
  by_cases hw : w = v
  · subst hw; rw [Dev.vit_setVit]; exact hf _
  · rw [Dev.vit_setVit_ne _ _ _ _ hw]; exact ⟨rfl, rfl⟩

theorem foldl {β : Type} (f : Dev → β → Dev) (hf : ∀ e b, Dev.SameTenure e (f e b)) (bs : List β) {d e : Dev} (h : Dev.SameTenure d e) :
    Dev.SameTenure d (bs.foldl f e) := by
  induction bs generalizing e with
  | nil => exact h
  | cons b bs ih => exact ih (h.trans (hf e b))

end Dev.SameTenure

/-- A fenced die that may begin its reset (R362): its cause has cleared and no stop is under way. -/
def Dev.mayRejoin (d : Dev) (i : Nat) : Prop :=
  d.isFenced i = true ∧ kget false d.rel.barred i = false ∧ kfind d.rel.rejoining i = none ∧ d.tripCleared i = true ∧ d.dbg.stopped = false

/-- The machine as a die begins its reset (R362): its power control starts anew but for its trim, and its rejoin counts from now. -/
def Dev.rejoinStart (d : Dev) (i : Nat) : Dev :=
  ((d.setDpow i (fun p => { trim := p.trim, hist := p.hist, worn := p.worn, capMw := p.capMw, temp := p.temp, marginAt := p.marginAt, at' := p.at' })).onRel
    (fun r => { r with rejoining := kset r.rejoining i d.ref, clockLost := putBit r.clockLost i false })).calm d.emergency

theorem dieRejoin_exec (s : State) (d : DieId) (h : s.dev.mayRejoin d.toNat) : exec (.dieRejoin d) s = .next { s with dev := s.dev.rejoinStart d.toNat } := by
  obtain ⟨hfenced, hbarred, hrejoining, hclear, hstop⟩ := h
  show execDieRejoin d s = _
  simp only [execDieRejoin, runDev, hfenced, hbarred, hrejoining, hclear, hstop, Option.isSome_none, Bool.not_true, Bool.or_self, Bool.false_eq_true, if_false]
  rfl

theorem Only.calm {l : List Part} {d e : Dev} (n : Nat) (h : Only l d e) (h0 : Part.pow ∈ l) : Only l d (e.calm n) := (h.onPow _ h0).ite h

@[simp] theorem Dev.dpow_setDpow (d : Dev) (i : Nat) (f : DiePow → DiePow) : (d.setDpow i f).dpow i = f (d.dpow i) := by
  simp [Dev.dpow, Dev.setDpow, Dev.onPow]
@[simp] theorem Dev.dpow_calm (d : Dev) (n i : Nat) : (d.calm n).dpow i = d.dpow i := by
  simp only [Dev.calm]; split <;> rfl

theorem Dev.rejoinStart_only (d : Dev) (i : Nat) : Only [.pow, .rel] d (d.rejoinStart i) :=
  (((Only.refl _ d).setDpow _ _ (by simp)).onRel _ (by simp)).calm _ (by simp)

theorem Dev.rejoinStart_rel (d : Dev) (i : Nat) :
    (d.rejoinStart i).rel = { d.rel with rejoining := kset d.rel.rejoining i d.ref, clockLost := putBit d.rel.clockLost i false } :=
  ((Only.refl [.pow] _).calm d.emergency (by simp)).rel (by simp)

theorem Dev.rejoinStart_dpow (d : Dev) (i : Nat) : ((d.rejoinStart i).dpow i).trip = none ∧ ((d.rejoinStart i).dpow i).hard = false := by
  have hpow : (d.rejoinStart i).dpow i = _ := (Dev.dpow_calm _ _ _).trans (Dev.dpow_setDpow d i _)
  rw [hpow]; exact ⟨rfl, rfl⟩

theorem dieRejoin_completes (s : State) (d : DieId) (h : s.dev.mayRejoin d.toNat) : Completes (.dieRejoin d) s (fun t => Keeps [.pow, .rel] s t ∧
    kfind t.dev.rel.rejoining d.toNat = some s.dev.ref ∧ t.dev.rel.clockLost.getLsbD d.toNat = false ∧ t.dev.isFenced d.toNat = true ∧
    (t.dev.dpow d.toNat).trip = none ∧ (t.dev.dpow d.toNat).hard = false) := by
  refine ⟨_, dieRejoin_exec s d h, (s.dev.rejoinStart_only d.toNat).keeps, ?_, ?_, ?_, s.dev.rejoinStart_dpow d.toNat⟩
  · simp only [Dev.rejoinStart_rel, kfind_kset]
  · simp only [Dev.rejoinStart_rel, putBit_getLsbD_same _ _ _ d.isLt]
  · simpa only [Dev.isFenced, Dev.rejoinStart_rel] using h.1

/-! #### The end of a rejoin -/

/-- The reliability part stands, and every Vitrine stands in its state and tenancy. -/
structure Dev.Stands (d e : Dev) : Prop where
  rel : e.rel = d.rel
  tenure : Dev.SameTenure d e

namespace Dev.Stands

theorem refl (d : Dev) : Dev.Stands d d := ⟨rfl, .refl d⟩

theorem trans {d e f : Dev} (h : Dev.Stands d e) (k : Dev.Stands e f) : Dev.Stands d f := ⟨k.rel.trans h.rel, h.tenure.trans k.tenure⟩

theorem only {l : List Part} {d e f : Dev} (h : Dev.Stands d e) (k : Only l e f) (hr : Part.rel ∉ l) (hv : Part.vits ∉ l) : Dev.Stands d f :=
  h.trans ⟨k.rel hr, .of_vits (.refl e) (k.vits hv)⟩

theorem setVit {d e : Dev} (h : Dev.Stands d e) (v : VitId) (f : Vit → Vit) (hf : ∀ t, (f t).st = t.st ∧ (f t).leader = t.leader) :
    Dev.Stands d (e.setVit v f) := h.trans ⟨rfl, (Dev.SameTenure.refl e).setVit v f hf⟩

end Dev.Stands

theorem X.foldl_op_dev {β : Type} (o : β → MemOp) (l : List β) (x : X) : (l.foldl (fun (y : X) b => y.op (o b)) x).dev = x.dev :=
  foldl_keeps X.dev (fun (y : X) b => y.op (o b)) (fun _ _ => rfl) l x

theorem Only.freeAlias {l : List Part} {d e : Dev} (h : Only l d e) (h0 : Part.fab ∈ l) : Only l d e.freeAlias := h.onFab _ h0
theorem Only.vitDefaults {l : List Part} {d e : Dev} (v : VitId) (h : Only l d e) (h0 : Part.cat ∈ l) : Only l d (e.vitDefaults v) := h.onCat _ h0

/-- A cleared Vitrine keeps its state and tenancy, as do the others, and the reliability part stands. -/
theorem X.clearVit_stands (x : X) (v : VitId) : Dev.Stands x.dev (x.clearVit v).dev := by
  unfold X.clearVit
  extract_lets x1 x2 x3 p x4
  have h2 : x2.dev = x.dev := (X.foldl_op_dev (fun k => .zero .clus (k * 2 ^ 24) (2 ^ 24)) _ _).trans (X.foldl_op_dev (fun c => .zero .scr (c * 2 ^ 19) (2 ^ 19)) _ _)
  have h4 : x4.dev = x2.dev := (X.op_dev _ _).trans ((X.op_dev _ _).trans ((X.op_dev _ _).trans (X.op_dev _ _)))
  rw [X.on_dev, h4, h2]
  extract_lets d1 d2 d3 d4 d5 d6 d7
  have h1 : Only [.gal, .cores, .clus, .cat, .cnt] x.dev d1 := (Only.refl _ _).foldl _ _ (fun e g => (Only.refl _ e).setSlice g _ (by simp))
  have h2 : Only [.gal, .cores, .clus, .cat, .cnt] x.dev d2 := h1.foldl _ _ (fun e c => (Only.refl _ e).setCore (BitVec.ofNat 9 c) _ (by simp))
  have h3 : Only [.gal, .cores, .clus, .cat, .cnt] x.dev d3 := h2.foldl _ _ (fun e k => (Only.refl _ e).setClu k _ (by simp))
  have h4 : Only [.gal, .cores, .clus, .cat, .cnt] x.dev d4 := (h3.vitDefaults v (by simp)).count _ _ _ _ (by simp)
  have h5 : Dev.Stands x.dev d5 := ((Dev.Stands.refl x.dev).only h4 (by simp) (by simp)).setVit v _ (fun _ => ⟨rfl, rfl⟩)
  have h7 : Only [.srv, .fab, .msgs] d5 d7 := ((Only.refl _ d5).onSrv _ (by simp)).onFab _ (by simp)
  exact h5.only ((h7.with_msgs _ (by simp)).freeAlias (by simp)) (by simp) (by simp)

/-- A Vitrine of a rejoining die keeps its state and tenancy (R362). -/
theorem X.rejoinVit_stands (x : X) (v : VitId) : Dev.Stands x.dev (x.rejoinVit v).dev := by
  have hclear := x.clearVit_stands v
  unfold X.rejoinVit
  generalize x.clearVit v = y at hclear ⊢
  have hback : ∀ (c : Cat) (b : Fab), Dev.Stands x.dev { y.dev with cat := c, fab := b } := fun c b =>
    hclear.only (((Only.refl [.cat, .fab] y.dev).with_cat c (by simp)).with_fab b (by simp)) (by simp) (by simp)
  exact (hback _ _).setVit v _ (fun _ => ⟨rfl, rfl⟩)

theorem X.rejoinVits_stands (vs : List VitId) (x : X) : Dev.Stands x.dev (vs.foldl X.rejoinVit x).dev := by
  induction vs generalizing x with
  | nil => exact .refl _
  | cons v vs ih => rw [List.foldl_cons]; exact (x.rejoinVit_stands v).trans (ih (x.rejoinVit v))

/-- No channel of the die has failed: none goes out of service. -/
theorem Dev.channelsOut_nil (d : Dev) : Only [.hbm] d (d.channelsOut []) := by
  simp only [Dev.channelsOut, List.foldl_nil]; exact (Only.refl _ d).onHbm _ (by simp)

/-- The clocks of a rejoining die run; of the reliability part only the patrol scrub's times start anew. -/
theorem Dev.clocksAnew_stands (d : Dev) (i : Nat) : (d.clocksAnew i).runs i = true ∧ (d.clocksAnew i).rel = { d.rel with scrub := (d.clocksAnew i).rel.scrub } ∧
    Dev.SameTenure d (d.clocksAnew i) := by
  unfold Dev.clocksAnew
  extract_lets d1 d2 d3 d4
  have h1 : d1.runs i = true := congrArg DieClk.running (Dev.die_setDie d i (fun _ => { running := true }))
  have h2 : Only [.vits] d1 d2 := (Only.refl _ _).foldl _ _ (fun e v => (Only.refl _ e).setVit v _ (by simp))
  have h3 : d3.rel = { d2.rel with scrub := d3.rel.scrub } := rfl
  have h4 : Only [.rel, .hbm, .net] d2 d4 := ((Only.refl _ _).onRel _ (by simp)).onHbm _ (by simp)
  have htenure : Dev.SameTenure d d2 := by
    refine .foldl _ (fun e v => ?_) _ (.of_vits (.refl d) rfl)
    exact (Dev.SameTenure.refl e).setVit v _ (fun _ => ⟨rfl, rfl⟩)
  refine ⟨?_, h3.trans (by rw [h2.rel (by simp)]; rfl), htenure.of_vits (h4.vits (by simp))⟩
  have hclk : d4.clk = d1.clk := (h4.clk (by simp)).trans (h2.clk (by simp))
  simp only [Dev.runs, Dev.die] at h1 ⊢
  rw [← h1, ← hclk]
  rfl

/-- The state to which a Vitrine of a rejoined die returns: its tenancy's, if it has one (R362). -/
def Dev.backSt (d : Dev) (v : VitId) : VitSt := if (d.vit v).leader.isSome then .assigned else .unassigned

/-- A Vitrine whose windows are populated returns from out of service (R362). -/
def Dev.vitReturn (d : Dev) (v : VitId) : Dev :=
  if (d.vit v).st != .outOfService || d.rel.noWindow.getLsbD v.toNat then d else d.vitState v (d.backSt v)

theorem Dev.vitReturn_eq_self (d : Dev) (v : VitId) (h : (d.vit v).st ≠ .outOfService) : d.vitReturn v = d := by simp [Dev.vitReturn, h]

theorem Dev.vitReturn_rel (d : Dev) (v : VitId) : (d.vitReturn v).rel = d.rel := by
  unfold Dev.vitReturn; split
  · rfl
  · exact Dev.vitState_rel _ _ _

theorem Dev.vit_vitReturn_ne (d : Dev) (v w : VitId) (h : w ≠ v) : (d.vitReturn v).vit w = d.vit w := by
  unfold Dev.vitReturn; split
  · rfl
  · exact Dev.vit_vitState_ne d v w _ h

theorem Dev.leader_vitReturn (d : Dev) (v w : VitId) : ((d.vitReturn v).vit w).leader = (d.vit w).leader := by
  by_cases hw : w = v
  · subst hw; unfold Dev.vitReturn; split
    · rfl
    · rw [Dev.vit_vitState]
  · rw [Dev.vit_vitReturn_ne _ _ _ hw]

theorem Dev.st_vitReturn (d : Dev) (v : VitId) (h : (d.vit v).st = .outOfService) (hw : d.rel.noWindow.getLsbD v.toNat = false) :
    ((d.vitReturn v).vit v).st = d.backSt v := by
  simp only [Dev.vitReturn, h, hw, bne_self_eq_false, Bool.or_self, Bool.false_eq_true, if_false, Dev.vit_vitState]

theorem Dev.backSt_ne (d : Dev) (v : VitId) : d.backSt v ≠ .outOfService := by unfold Dev.backSt; split <;> decide

/-- What a return of Vitrines keeps: tenancies, the reliability part, and of a Vitrine out of service the state or the one it returns to. -/
def Dev.Returning (d e : Dev) : Prop :=
  e.rel = d.rel ∧ (∀ v, (e.vit v).leader = (d.vit v).leader) ∧ ∀ v, (d.vit v).st = .outOfService → (e.vit v).st = .outOfService ∨ (e.vit v).st = d.backSt v

theorem Dev.Returning.vitReturn {d e : Dev} (h : Dev.Returning d e) (v : VitId) (w : VitId) (hw : (d.vit w).st = .outOfService)
    (hst : w ≠ v → (e.vit w).st = d.backSt w) (hwin : d.rel.noWindow.getLsbD w.toNat = false) : ((e.vitReturn v).vit w).st = d.backSt w := by
  obtain ⟨hrel, hlead, hstate⟩ := h
  by_cases hv : w = v
  · subst hv
    rcases hstate w hw with hout | hback
    · rw [Dev.st_vitReturn e w hout (by rw [hrel, hwin])]
      simp only [Dev.backSt, hlead]
    · rw [Dev.vitReturn_eq_self e w (hback ▸ d.backSt_ne w), hback]
  · rw [Dev.vit_vitReturn_ne _ _ _ hv, hst hv]

theorem Dev.Returning.step {d e : Dev} (h : Dev.Returning d e) (v : VitId) : Dev.Returning d (e.vitReturn v) := by
  obtain ⟨hrel, hlead, hstate⟩ := h
  refine ⟨(e.vitReturn_rel v).trans hrel, fun w => (e.leader_vitReturn v w).trans (hlead w), fun w hw => ?_⟩
  by_cases hv : w = v
  · subst hv
    by_cases hwin : e.rel.noWindow.getLsbD w.toNat = true
    · have hstay : e.vitReturn w = e := by simp [Dev.vitReturn, hwin]
      rw [hstay]; exact hstate w hw
    · exact .inr (Dev.Returning.vitReturn ⟨hrel, hlead, hstate⟩ w w hw (absurd rfl) (by simpa [← hrel] using hwin))
  · rw [Dev.vit_vitReturn_ne _ _ _ hv]; exact hstate w hw

/-- Every Vitrine that was out of service with its windows populated has returned to its tenancy, or is unassigned. -/
theorem Dev.vitsReturn (vs : List VitId) (d : Dev) : ∀ v ∈ vs, (d.vit v).st = .outOfService → d.rel.noWindow.getLsbD v.toNat = false →
    ((vs.foldl Dev.vitReturn d).vit v).st = d.backSt v := by
  refine foldl_attains Dev.vitReturn (Dev.Returning d) (fun v e => (d.vit v).st = .outOfService → d.rel.noWindow.getLsbD v.toNat = false → (e.vit v).st = d.backSt v)
    (fun e v h => h.step v) (fun e v h hst hwin => h.vitReturn v v hst (absurd rfl) hwin) (fun e v w h hw hst hwin => h.vitReturn v w hst (fun _ => hw hst hwin) hwin)
    vs d ⟨rfl, fun _ => rfl, fun v hv => .inl hv⟩

theorem Dev.leader_vitsReturn (vs : List VitId) (d : Dev) (v : VitId) : ((vs.foldl Dev.vitReturn d).vit v).leader = (d.vit v).leader :=
  foldl_keeps (fun e : Dev => (e.vit v).leader) Dev.vitReturn (fun e w => e.leader_vitReturn w v) vs d

/-- A die has rejoined (R362): it is in service and runs, and its Vitrines that were out of service with their windows populated have returned. -/
def Dev.Rejoined (d : Dev) (i : Nat) (e : Dev) : Prop :=
  e.isFenced i = false ∧ kfind e.rel.rejoining i = none ∧ e.runs i = true ∧
    ∀ v ∈ vitsOfDie i, (d.vit v).st = .outOfService → d.rel.noWindow.getLsbD v.toNat = false →
      (e.vit v).leader = (d.vit v).leader ∧ (e.vit v).st = if (d.vit v).leader.isSome then .assigned else .unassigned

/-- A command whose statement speaks of the machine alone completes with the machine its effect leaves. -/
theorem completes_run_dev {i : Instr} {s : State} {Q : Dev → Prop} {f : X → X} (y : X) (h : exec i s = run s f)
    (hf : f { dev := s.dev, mem := s.mem, mram := s.mram } = y) (hq : Q y.dev) : Completes i s (fun t => Q t.dev) :=
  completes_run y h hf hq

/-- The rejoin of a die whose reset counts, while no stop is under way, ends now. -/
theorem Dev.rejoin_goes {d : Dev} {i : Nat} (h : (kfind d.rel.rejoining i).isSome = true) (hstop : d.dbg.stopped = false) :
    ¬ ((kfind d.rel.rejoining i).isNone || d.dbg.stopped) = true := by
  rw [Option.isNone_eq_false_iff.2 h, hstop]; exact Bool.false_ne_true

theorem dieRejoined_fails (s : State) (d : DieId) (channels : List ChanId) (h : (kfind s.dev.rel.rejoining d.toNat).isSome = true) (hstop : s.dev.dbg.stopped = false) :
    Completes (.dieRejoined d ⟨false, channels⟩) s (fun t => Keeps [.rel] s t ∧ kfind t.dev.rel.rejoining d.toNat = none ∧ kget false t.dev.rel.barred d.toNat = true) := by
  have hgo := Dev.rejoin_goes h hstop
  have hexec : exec (.dieRejoined d ⟨false, channels⟩) s = execDieRejoined d ⟨false, channels⟩ s := rfl
  rw [execDieRejoined] at hexec
  refine completes_on (fun e => e.onRel (fun r => { r with rejoining := kdel r.rejoining d.toNat, barred := kset r.barred d.toNat true })) hexec
    ((if_neg hgo).trans (if_pos (Bool.not_false))) ⟨((Only.refl _ _).onRel _ (by simp)).keeps, ?_, ?_⟩
  · exact kfind_kdel _ _
  · exact kget_kset _ _ _ _

theorem Dev.Returning.vits_only (vs : List VitId) (d : Dev) : Only [.vits, .cat] d (vs.foldl Dev.vitReturn d) :=
  (Only.refl _ d).foldl _ _ (fun e v => (Only.refl _ e).ite ((Only.refl _ e).vitState v _ (by simp) (by simp)))

/-- A machine in which die i runs and is not fenced, and whose Vitrines stand in their state and tenancy, has rejoined once its Vitrines return. -/
theorem Dev.rejoined_of_return {d m e : Dev} {i : Nat} (hten : Dev.SameTenure d m) (hfence : m.isFenced i = false) (hre : kfind m.rel.rejoining i = none)
    (hruns : m.runs i = true) (hwin : m.rel.noWindow = d.rel.noWindow) (he : Only [.cat] ((vitsOfDie i).foldl Dev.vitReturn m) e) : Dev.Rejoined d i e := by
  have hback : Only [.vits, .cat] m e := (Dev.Returning.vits_only (vitsOfDie i) m).trans (he.mono (by simp))
  have hrel : e.rel = m.rel := hback.rel (by simp)
  have hclk : e.clk = m.clk := hback.clk (by simp)
  have hvit : ∀ v, e.vit v = ((vitsOfDie i).foldl Dev.vitReturn m).vit v := fun v => by simp only [Dev.vit, he.vits (by simp)]
  refine ⟨by simpa only [Dev.isFenced, hrel] using hfence, by rw [hrel, hre], by simpa only [Dev.runs, Dev.die, hclk] using hruns, fun v hv hst hno => ?_⟩
  obtain ⟨hst', hlead⟩ := hten v
  rw [hvit, Dev.leader_vitsReturn, hlead, Dev.vitsReturn (vitsOfDie i) m v hv (hst'.trans hst) (by rw [hwin, hno]), Dev.backSt, hlead]
  exact ⟨rfl, rfl⟩

/-- A die that passes its quick test rejoins: its memories and clocks start anew (m1 to m3), then its processors, bundles and links (m4 to m7), and its Vitrines
return (m8). None of them but the fold over the Vitrines changes a Vitrine's state or tenancy. -/
theorem dieRejoined_passes (s : State) (d : DieId) (channels : List ChanId) (h : (kfind s.dev.rel.rejoining d.toNat).isSome = true) (hstop : s.dev.dbg.stopped = false)
    (hch : ∀ c ∈ channels, dieOfChan c.val ≠ d.toNat) : Completes (.dieRejoined d ⟨true, channels⟩) s (fun t => s.dev.Rejoined d.toNat t.dev) := by
  have hgo := Dev.rejoin_goes h hstop
  have hnone : (channels.map (·.val)).filter (fun c => dieOfChan c == d.toNat) = [] := by simpa [List.filter_eq_nil_iff] using hch
  have hclear := X.rejoinVits_stands (vitsOfDie d.toNat) { dev := s.dev, mem := s.mem, mram := s.mram }
  have hexec : exec (.dieRejoined d ⟨true, channels⟩) s = execDieRejoined d ⟨true, channels⟩ s := rfl
  rw [execDieRejoined] at hexec
  refine completes_run_dev _ hexec rfl ?_
  extract_lets i x1 x2
  have hok : ¬ (!(⟨true, channels⟩ : RejoinFind).quickOk) = true := by simp
  rw [if_neg hgo, if_neg hok]
  have hx : Dev.Stands s.dev x2.dev := (congrArg (Dev.Stands s.dev) (x1.op_dev _)).mpr hclear
  clear_value x2
  rw [X.on_dev]
  extract_lets m1 m2 m3 m4 again fw4 m5 m6 m7 m8
  have h1 : Dev.Stands s.dev m1 := by
    have hm1 : m1 = x2.dev.channelsOut [] := congrArg x2.dev.channelsOut hnone
    rw [hm1]; exact hx.only x2.dev.channelsOut_nil (by simp) (by simp)
  have h3 : m3.runs d.toNat = true ∧ m3.rel = { m2.rel with scrub := m3.rel.scrub } ∧ Dev.SameTenure m2 m3 := m2.clocksAnew_stands d.toNat
  clear_value m3
  have h4 : Only [.fw, .net, .fab, .cnt, .cat] m3 m4 := ((Only.refl _ m3).setProc _ _ (by simp)).setProc _ _ (by simp)
  have h5 : Only [.fw, .net, .fab, .cnt, .cat] m3 m5 := h4.with_fw _ (by simp)
  clear_value m5
  have h6 : Only [.fw, .net, .fab, .cnt, .cat] m3 m6 := h5.foldl _ _ (fun e r => by
    generalize dirEnds r = ends
    exact ((Only.refl _ e).setBund r _ (by simp)).ite (Only.refl _ e))
  clear_value m6
  have h7 : Only [.fw, .net, .fab, .cnt, .cat] m3 m7 := h6.foldl _ _ (fun e k => (Only.refl _ e).ite ((Only.refl _ e).linkTo _ _ _ (by simp)))
  clear_value m7
  have hm2 : m2.rel = { s.dev.rel with rejoining := kdel s.dev.rel.rejoining d.toNat, fenced := kdel s.dev.rel.fenced d.toNat } :=
    congrArg (fun r : Rel => { r with rejoining := kdel r.rejoining d.toNat, fenced := kdel r.fenced d.toNat }) h1.rel
  have hten2 : Dev.SameTenure s.dev m2 := h1.tenure.of_vits rfl
  obtain ⟨hruns3, hrel3, hten3⟩ := h3
  have hrel7 : m7.rel = { m2.rel with scrub := m3.rel.scrub } := (h7.rel (by simp)).trans hrel3
  have hend : Only [.cat] m8 (((m8.post 0x0204 1 d.toNat d.toNat (m8.counter 0x6051 1 d.toNat)).identChanged none 0x100007 m8.diesIn).identChanged none 0x100008 m8.vitsIn) :=
    (((Only.refl _ m8).post _ _ _ _ _ _ (by simp)).identChanged _ _ _ (by simp)).identChanged _ _ _ (by simp)
  refine Dev.rejoined_of_return (m := m7) ((hten2.trans hten3).of_vits (h7.vits (by simp))) ?_ ?_ ?_ ?_ hend
  · rw [Dev.isFenced, hrel7, hm2]; exact congrArg Option.isSome (kfind_kdel _ _)
  · rw [hrel7, hm2]; exact kfind_kdel _ _
  · simpa only [Dev.runs, Dev.die, h7.clk (by simp)] using hruns3
  · rw [hrel7, hm2]

end Sys2Proof.Machine

namespace Sys2Proof.Machine

/-! ### Repair (O58) -/

theorem Slots.untest_eq_self (p : Slots) (h : p.testing = none) : p.untest = p := by simp [Slots.untest, h]

theorem Dev.job_setJob (d : Dev) (l : VitId) (f : Job → Job) : (d.setJob l f).job l = f (d.job l) := by
  simp [Dev.job, Dev.setJob]

@[simp] theorem Dev.changed_jobs (d : Dev) (a : Nat) : (d.changed a).rel.jobs = d.rel.jobs := by rw [Dev.changed_rel]
@[simp] theorem Dev.changed_slots (d : Dev) (a : Nat) : (d.changed a).rel.slots = d.rel.slots := by rw [Dev.changed_rel]

/-- Slot 16 has taken the name of a slot of a Vitrine (R366): the map of its slots is the one given, and the substitution counts. -/
structure Dev.SlotGiven (d e : Dev) (v : VitId) (p : Slots) : Prop where
  only : Only [.rel, .fresh, .cnt, .cat] d e
  jobs : e.rel.jobs = d.rel.jobs
  slots : kget {} e.rel.slots v.toNat = p
  counter : e.counter 0x6050 3 v.toNat = (d.counter 0x6050 3 v.toNat + 1) % 2 ^ 64

/-- The report of a substitution (R366): its record, its event, its count, the new map and a change of the pending record. -/
theorem Dev.SlotGiven.report {d e : Dev} {v : VitId} {p : Slots} (r : ErrRec) (phys c : Nat) (honly : Only [.rel, .fresh] d e) (hjobs : e.rel.jobs = d.rel.jobs)
    (hslots : kget {} e.rel.slots v.toNat = p) :
    Dev.SlotGiven d (((((e.logErr r).post 0x0205 2 v.toNat phys c).count 0x6050 3 v.toNat).coreMapChanged v).changed 4) v p where
  only := ((((((honly.mono (by simp)).logErr r (by simp)).post _ _ _ _ _ _ (by simp)).count _ _ _ _ (by simp)).coreMapChanged _ (by simp)).changed _ (by simp) (by simp))
  jobs := by rw [Dev.changed_jobs, Dev.coreMapChanged_rel, Dev.count_rel, Dev.post_rel, Dev.logErr_jobs, hjobs]
  slots := by rw [Dev.changed_slots, Dev.coreMapChanged_rel, Dev.count_rel, Dev.post_rel, Dev.logErr_slots, hslots]
  counter := by
    have hcount := Dev.counter_count ((e.logErr r).post 0x0205 2 v.toNat phys c) 0x6050 3 v.toNat 1
    simp only [Dev.counter, Dev.changed_cnt, Dev.coreMapChanged_cnt, Dev.post_cnt, Dev.logErr_cnt, honly.cnt (by simp)] at hcount ⊢
    exact hcount

theorem X.retireSlot_gives (x : X) (c : CoreId) (p : Slots) (n : Nat) (hp : p = kget {} x.dev.rel.slots (vitOfCore c).toNat)
    (hn : n = nthD 0 p.slotOf (c.toNat % 16)) (htest : p.testing = none) (hretired : p.retired = 0) (h16 : n < 16) :
    Dev.SlotGiven x.dev (x.retireSlot c).dev (vitOfCore c) { p with retired := putBit 0 n true, slotOf := setNth p.slotOf (c.toNat % 16) 16 } := by
  have hunt : (kget {} x.dev.rel.slots (vitOfCore c).toNat : Slots).untest = p := by rw [← hp, p.untest_eq_self htest]
  have hslot : ¬ (p.retired.getLsbD n) = true := by simp [hretired]
  have hagain : (p.retired != 0 || n == 16) = false := by simp [hretired, Nat.ne_of_lt h16]
  unfold X.retireSlot
  simp only [hunt, ← hn, if_neg hslot, hagain, Bool.false_eq_true, if_false, X.on_dev]
  refine Dev.SlotGiven.report _ _ _ ((((Only.refl _ x.dev).onRel _ (by simp)).with_fresh _ (by simp)).onRel _ (by simp)) rfl ?_
  rw [Dev.onRel_rel, kget_kset, hretired]

/-! #### The cores repaired -/

/-- The cores of a list of Vitrines, Vitrine by Vitrine. -/
def coresOfVits (vs : List VitId) : List CoreId := vs.flatMap (fun v => (coresOfVit v).map (BitVec.ofNat 9))

theorem mem_coresOf_iff (v : VitId) (c : CoreId) : c ∈ (coresOfVit v).map (BitVec.ofNat 9) ↔ vitOfCore c = v := by
  constructor
  · intro h
    obtain ⟨k, hk, rfl⟩ := List.mem_map.1 h
    obtain ⟨i, hi, rfl⟩ := List.mem_map.1 hk
    rw [List.mem_range] at hi
    apply BitVec.eq_of_toNat_eq
    have hv := v.isLt
    simp only [vitOfCore, BitVec.toNat_ofNat]
    omega
  · rintro rfl
    exact List.mem_map.2 ⟨c.toNat, vitOfCore_mem c, BitVec.eq_of_toNat_eq (by simp)⟩

theorem mem_coresOfVits_iff (vs : List VitId) (c : CoreId) : c ∈ coresOfVits vs ↔ vitOfCore c ∈ vs := by
  simp only [coresOfVits, List.mem_flatMap, mem_coresOf_iff, exists_eq_right']

theorem nodup_coresOf (v : VitId) : ((coresOfVit v).map (BitVec.ofNat 9)).Nodup := by
  have hv := v.isLt
  refine List.Nodup.map_on (fun a ha b hb hab => ?_) ((List.nodup_range).map (fun a b hab => by simpa using hab))
  obtain ⟨i, hi, rfl⟩ := List.mem_map.1 ha
  obtain ⟨j, hj, rfl⟩ := List.mem_map.1 hb
  rw [List.mem_range] at hi hj
  have hnat := congrArg BitVec.toNat hab
  simp only [BitVec.toNat_ofNat] at hnat
  omega

theorem nodup_coresOfVits (vs : List VitId) (h : vs.Nodup) : (coresOfVits vs).Nodup := by
  refine List.nodup_flatMap.2 ⟨fun v _ => nodup_coresOf v, h.imp (fun {v w} hne c hv hw => hne ?_)⟩
  exact ((mem_coresOf_iff v c).1 hv).symm.trans ((mem_coresOf_iff w c).1 hw)

theorem Dev.nodup_tenancy (d : Dev) (l : VitId) : (d.tenancy l).Nodup :=
  List.Nodup.filter _ (show (vitsOf (BitVec.allOnes 32)).Nodup by decide)

/-- The tenancy's cores among a list are, in the order of the tenancy, those of the list that stand in the tenancy: none, if there is none. -/
theorem coresOfVits_filter_nil (vs : List VitId) (failed : List CoreId) (h : failed.filter (fun c => vs.contains (vitOfCore c)) = []) :
    (coresOfVits vs).filter (fun c => failed.contains c) = [] := by
  refine List.filter_eq_nil_iff.2 (fun c hc hin => List.filter_eq_nil_iff.1 h c (List.contains_iff_mem.1 hin) ?_)
  exact List.contains_iff_mem.2 ((mem_coresOfVits_iff vs c).1 hc)

theorem coresOfVits_filter_single (vs : List VitId) (hvs : vs.Nodup) (failed : List CoreId) (c : CoreId)
    (h : failed.filter (fun c => vs.contains (vitOfCore c)) = [c]) : (coresOfVits vs).filter (fun c => failed.contains c) = [c] := by
  have hmem : ∀ k, (k ∈ failed ∧ vitOfCore k ∈ vs) ↔ k = c := by
    intro k; rw [← List.mem_singleton, ← h, List.mem_filter, List.contains_iff_mem]
  have heq : (coresOfVits vs).filter (fun k => failed.contains k) = (coresOfVits vs).filter (fun k => k == c) := by
    refine List.filter_congr (fun k hk => Bool.eq_iff_iff.2 ?_)
    have hvit := (mem_coresOfVits_iff vs k).1 hk
    rw [List.contains_iff_mem, beq_iff_eq, ← hmem k]
    exact ⟨fun hin => ⟨hin, hvit⟩, And.left⟩
  rw [heq, List.filter_beq, List.count_eq_one_of_mem (nodup_coresOfVits vs hvs) ((mem_coresOfVits_iff vs c).2 ((hmem c).2 rfl).2)]
  rfl

/-! #### The job restarts, or cannot -/

theorem Only.pvDrop {l : List Part} {d e : Dev} (v : VitId) (p : PvEntry → Bool) (h : Only l d e) (h0 : Part.vits ∈ l) (h1 : Part.cores ∈ l) :
    Only l d (e.pvDrop v p) := (h.setVit v _ h0).foldl _ _ (fun e _ => (Only.refl _ e).setEng _ _ h1)

theorem Dev.pvDrop_vit (d : Dev) (v w : VitId) : ((d.pvDrop v (fun _ => true)).vit w).pv = if w = v then [] else (d.vit w).pv := by
  have honly : Only [.cores] (d.setVit v (fun t => { t with pv := t.pv.filter (fun _ => false) })) (d.pvDrop v (fun _ => true)) :=
    (Only.refl _ _).foldl _ _ (fun e _ => (Only.refl _ e).setEng _ _ (by simp))
  have hvit : (d.pvDrop v (fun _ => true)).vit w = (d.setVit v (fun t => { t with pv := t.pv.filter (fun _ => false) })).vit w := by
    simp only [Dev.vit, honly.vits (by simp)]
  rw [hvit]
  split
  case isTrue h => rw [h, Dev.vit_setVit]; exact List.filter_false _
  case isFalse h => rw [Dev.vit_setVit_ne _ _ _ _ h]

/-- The job of a tenancy restarts with an empty Provenance store (R135, R358). -/
def Dev.jobRestart (d : Dev) (l : VitId) (vs : List VitId) : Dev :=
  (vs.foldl (fun (e : Dev) v => e.pvDrop v (fun _ => true)) (d.setJob l (fun j => { j with st := 3 }))).postVit 0x0202 l l.toNat

/-- The job of a tenancy cannot restart: it waits, or asks the standby to take it over. -/
def Dev.jobStays (d : Dev) (l : VitId) : Dev :=
  let d := d.setJob l (fun j => { j with st := 4 })
  if d.vset l 9 4 == 1 && (d.vit l).ckptCommitted != 0xFFFFFFFF then d.askTakeover l else d

/-- The end of a repair, once the failed slots are retired (R358, R359). -/
def X.repairEnd (x : X) (l : VitId) (vs : List VitId) : X :=
  if (x.dev.job l).st != 2 then x
  else if vs.all (fun v => (x.dev.vit v).st == .assigned) && !(x.dev.job l).lost then x.on (fun d => d.jobRestart l vs)
  else x.on (fun d => d.jobStays l)

theorem Dev.jobRestart_only (d : Dev) (l : VitId) (vs : List VitId) : Only [.vits, .cores, .cat] (d.setJob l (fun j => { j with st := 3 })) (d.jobRestart l vs) :=
  ((Only.refl _ _).foldl _ _ (fun e v => (Only.refl _ e).pvDrop v _ (by simp) (by simp))).postVit _ _ _ _ (by simp)

theorem Dev.jobRestart_st (d : Dev) (l : VitId) (vs : List VitId) : ((d.jobRestart l vs).job l).st = 3 := by
  have hjob := d.job_setJob l (fun j => { j with st := 3 })
  simp only [Dev.job] at hjob ⊢
  rw [(d.jobRestart_only l vs).rel (by simp), hjob]

theorem Dev.jobRestart_pv (d : Dev) (l : VitId) (vs : List VitId) : ∀ v ∈ vs, ((d.jobRestart l vs).vit v).pv = [] := by
  have hvit : ∀ (e : Dev) (v : VitId), (e.postVit 0x0202 l l.toNat).vit v = e.vit v := fun e v => by simp only [Dev.vit, Dev.postVit_vits]
  simp only [Dev.jobRestart, hvit]
  refine foldl_attains (fun (e : Dev) v => e.pvDrop v (fun _ => true)) (fun _ => True) (fun v e => (e.vit v).pv = []) (fun _ _ _ => trivial)
    (fun e v _ => by rw [Dev.pvDrop_vit, if_pos rfl]) (fun e v w _ h => ?_) vs _ trivial
  rw [Dev.pvDrop_vit, h, ite_self]

/-- A repaired tenancy of which every Vitrine is assigned and no checkpoint is lost restarts. -/
theorem X.repairEnd_restarts (x : X) (l : VitId) (vs : List VitId) (hst : (x.dev.job l).st = 2) (hall : ∀ v ∈ vs, (x.dev.vit v).st = .assigned)
    (hlost : (x.dev.job l).lost = false) : x.repairEnd l vs = x.on (fun d => d.jobRestart l vs) := by
  have hnot : ¬ ((x.dev.job l).st != 2) = true := by simp [hst]
  have hgo : (vs.all (fun v => (x.dev.vit v).st == .assigned) && !(x.dev.job l).lost) = true := by simpa [hlost] using hall
  rw [X.repairEnd, if_neg hnot, if_pos hgo]

theorem X.repairEnd_stays (x : X) (l : VitId) (vs : List VitId) (hst : (x.dev.job l).st = 2)
    (hbad : (∃ v ∈ vs, (x.dev.vit v).st ≠ .assigned) ∨ (x.dev.job l).lost = true) : x.repairEnd l vs = x.on (fun d => d.jobStays l) := by
  have hnot : ¬ ((x.dev.job l).st != 2) = true := by simp [hst]
  have hgo : ¬ (vs.all (fun v => (x.dev.vit v).st == .assigned) && !(x.dev.job l).lost) = true := by
    rcases hbad with ⟨v, hv, hne⟩ | hlost
    · simp only [Bool.and_eq_true, List.all_eq_true, beq_iff_eq, not_and]
      exact fun hall => absurd (hall v hv) hne
    · simp [hlost]
  rw [X.repairEnd, if_neg hnot, if_neg hgo]

theorem Dev.jobStays_eq (d : Dev) (l : VitId) (h : d.vset l 9 4 ≠ 1) : d.jobStays l = d.setJob l (fun j => { j with st := 4 }) := by
  have hnot : ¬ ((d.setJob l (fun j => { j with st := 4 })).vset l 9 4 == 1 && ((d.setJob l (fun j => { j with st := 4 })).vit l).ckptCommitted != 0xFFFFFFFF) = true := by
    have hv : (d.setJob l (fun j => { j with st := 4 })).vset l 9 4 = d.vset l 9 4 := rfl
    simp [hv, h]
  exact if_neg hnot

/-! #### REPAIR_DONE -/

/-- A tenancy whose repair may end: its job waits for it, no stop is under way, no Conservator of it restarts, no die of it rejoins, no row waits for
retirement, and no slot has worn out. -/
def Dev.mayEndRepair (d : Dev) (l : VitId) : Prop :=
  (d.job l).st = 2 ∧ d.dbg.stopped = false ∧ ∀ v ∈ d.tenancy l, (d.proc (10 + dieOfVit v)).st ≠ 1 ∧ kfind d.rel.rejoining (dieOfVit v) = none ∧
    (∀ ch ∈ slicesOfVit v, (d.hchan ch).due.any (·.unc) = false) ∧ ∀ k, kget 0 (kget ({} : Slots) d.rel.slots v.toNat).faults k < 2

theorem Dev.mayEndRepair.waits {d : Dev} {l : VitId} (h : d.mayEndRepair l) : ((d.tenancy l).any (fun v => (d.proc (10 + dieOfVit v)).st == 1 ||
    (kfind d.rel.rejoining (dieOfVit v)).isSome || (d.runs (dieOfVit v) && (slicesOfVit v).any (fun ch => (d.hchan ch).due.any (·.unc))))) = false := by
  obtain ⟨_, _, hvits⟩ := h
  refine List.any_eq_false.2 (fun v hv => ?_)
  obtain ⟨hproc, hrejoin, hrows, _⟩ := hvits v hv
  have hdue : (slicesOfVit v).any (fun ch => (d.hchan ch).due.any (·.unc)) = false := List.any_eq_false.2 (fun ch hch => by rw [hrows ch hch]; exact Bool.false_ne_true)
  simp [hproc, hrejoin, hdue]

/-- No slot has worn out: the cores repaired are the tenancy's among the failed ones. -/
theorem Dev.mayEndRepair.bad {d : Dev} {l : VitId} (h : d.mayEndRepair l) (failed : List CoreId) :
    (coresOfVits (d.tenancy l)).filter (fun c => failed.contains c ||
      decide (2 ≤ kget 0 (kget {} d.rel.slots (vitOfCore c).toNat : Slots).faults (nthD 0 (kget {} d.rel.slots (vitOfCore c).toNat : Slots).slotOf (c.toNat % 16)))) =
    (coresOfVits (d.tenancy l)).filter (fun c => failed.contains c) := by
  obtain ⟨_, _, hvits⟩ := h
  refine List.filter_congr (fun c hc => ?_)
  obtain ⟨_, _, _, hfaults⟩ := hvits _ ((mem_coresOfVits_iff _ c).1 hc)
  rw [decide_eq_false (Nat.not_le.2 (hfaults _)), Bool.or_false]

theorem repairDone_exec {s : State} {l : VitId} {failed bad : List CoreId} (P : State → Prop) (h : s.dev.mayEndRepair l)
    (hbad : (coresOfVits (s.dev.tenancy l)).filter (fun c => failed.contains c) = bad) (y : X)
    (hy : (bad.foldl X.retireSlot { dev := s.dev, mem := s.mem, mram := s.mram }).repairEnd l (s.dev.tenancy l) = y)
    (hp : P { s with dev := y.dev, mem := applyAll s.mem y.ops.reverse, mram := y.mops.reverse.foldl applyMram s.mram }) :
    Completes (.repairDone l failed) s P := by
  have hexec : exec (.repairDone l failed) s = execRepairDone l failed s := rfl
  rw [execRepairDone] at hexec
  have hwait := h.waits
  have hcores := h.bad failed
  obtain ⟨hst, hstop, _⟩ := h
  refine completes_run y hexec ?_ hp
  extract_lets l' vs wait worn found x
  have hgo : ¬ ((s.dev.job l).st != 2 || wait || s.dev.dbg.stopped) = true := by
    have hw : wait = false := hwait
    simp [hst, hstop, hw]
  have hx : x = bad.foldl X.retireSlot { dev := s.dev, mem := s.mem, mram := s.mram } :=
    congrArg (List.foldl X.retireSlot { dev := s.dev, mem := s.mem, mram := s.mram }) (hcores.trans hbad)
  clear_value x
  rw [if_neg hgo, hx]
  exact hy

theorem repairDone_restarts {s : State} {l : VitId} (failed : List CoreId) (h : s.dev.mayEndRepair l)
    (hbad : failed.filter (fun c => (s.dev.tenancy l).contains (vitOfCore c)) = []) (hall : ∀ v ∈ s.dev.tenancy l, (s.dev.vit v).st = .assigned)
    (hlost : (s.dev.job l).lost = false) : Completes (.repairDone l failed) s (fun t => (t.dev.job l).st = 3 ∧
      (∀ v ∈ s.dev.tenancy l, (t.dev.vit v).pv = []) ∧ t.dev.rel.slots = s.dev.rel.slots) := by
  refine repairDone_exec _ h (coresOfVits_filter_nil _ _ hbad) _ (X.repairEnd_restarts _ l _ h.1 hall hlost)
    ⟨s.dev.jobRestart_st l _, s.dev.jobRestart_pv l _, ?_⟩
  show (s.dev.jobRestart l (s.dev.tenancy l)).rel.slots = s.dev.rel.slots
  rw [(s.dev.jobRestart_only l _).rel (by simp)]; rfl

theorem repairDone_stays {s : State} {l : VitId} (failed : List CoreId) (h : s.dev.mayEndRepair l)
    (hbad : failed.filter (fun c => (s.dev.tenancy l).contains (vitOfCore c)) = [])
    (hstay : (∃ v ∈ s.dev.tenancy l, (s.dev.vit v).st ≠ .assigned) ∨ (s.dev.job l).lost = true) (hset : s.dev.vset l 9 4 ≠ 1) :
    Completes (.repairDone l failed) s (fun t => Keeps [.rel] s t ∧ (t.dev.job l).st = 4) := by
  refine repairDone_exec _ h (coresOfVits_filter_nil _ _ hbad) (X.on { dev := s.dev, mem := s.mem, mram := s.mram } (fun d => d.setJob l (fun j => { j with st := 4 })))
    ?_ ⟨((Only.refl _ s.dev).setJob l _ (by simp)).keeps, congrArg Job.st (s.dev.job_setJob l _)⟩
  exact (X.repairEnd_stays _ l _ h.1 hstay).trans (congrArg (fun e => ({ dev := e, mem := s.mem, mram := s.mram } : X)) (s.dev.jobStays_eq l hset))

theorem repairDone_retires {s : State} {l : VitId} (failed : List CoreId) (c : CoreId) (p : Slots) (n : Nat) (h : s.dev.mayEndRepair l)
    (hbad : failed.filter (fun c => (s.dev.tenancy l).contains (vitOfCore c)) = [c]) (hp : p = kget {} s.dev.rel.slots (vitOfCore c).toNat)
    (hn : n = nthD 0 p.slotOf (c.toNat % 16)) (htest : p.testing = none) (hretired : p.retired = 0) (h16 : n < 16)
    (hall : ∀ v ∈ s.dev.tenancy l, (s.dev.vit v).st = .assigned) (hlost : (s.dev.job l).lost = false) :
    Completes (.repairDone l failed) s (fun t => (t.dev.job l).st = 3 ∧
      kget {} t.dev.rel.slots (vitOfCore c).toNat = { p with retired := putBit 0 n true, slotOf := setNth p.slotOf (c.toNat % 16) 16 } ∧
      t.dev.counter 0x6050 3 (vitOfCore c).toNat = (s.dev.counter 0x6050 3 (vitOfCore c).toNat + 1) % 2 ^ 64) := by
  have hgives := X.retireSlot_gives { dev := s.dev, mem := s.mem, mram := s.mram } c p n hp hn htest hretired h16
  have hfold : [c].foldl X.retireSlot { dev := s.dev, mem := s.mem, mram := s.mram } = X.retireSlot { dev := s.dev, mem := s.mem, mram := s.mram } c := rfl
  generalize hx : X.retireSlot { dev := s.dev, mem := s.mem, mram := s.mram } c = x at hgives hfold
  obtain ⟨honly, hjobs, hslots, hcounter⟩ := hgives
  have hjob : x.dev.job l = s.dev.job l := by simp only [Dev.job, hjobs]
  have hvit : ∀ v, x.dev.vit v = s.dev.vit v := fun v => by simp only [Dev.vit, honly.vits (by simp)]
  have hend := X.repairEnd_restarts x l (s.dev.tenancy l) (by rw [hjob]; exact h.1) (fun v hv => by rw [hvit]; exact hall v hv) (by rw [hjob, hlost])
  have hrestart := x.dev.jobRestart_only l (s.dev.tenancy l)
  refine repairDone_exec _ h (coresOfVits_filter_single _ (s.dev.nodup_tenancy l) _ c hbad) _ ((congrArg (fun y => y.repairEnd l (s.dev.tenancy l)) hfold).trans hend)
    ⟨x.dev.jobRestart_st l _, ?_, ?_⟩
  · rw [X.on_dev, hrestart.rel (by simp)]; exact hslots
  · rw [X.on_dev, Dev.counter, hrestart.cnt (by simp)]; exact hcounter

end Sys2Proof.Machine

namespace Sys2Proof.Machine

/-! ### Jobs through a fault's aftermath (O58) -/

/-- The jobs of the tenancies. -/
def X.jobs (x : X) : KMap Job := x.dev.rel.jobs

theorem X.jobs_on (x : X) (f : Dev → Dev) (h : (f x.dev).rel = x.dev.rel) : (x.on f).jobs = x.jobs := congrArg Rel.jobs h

theorem X.jobs_of_access {x y : X} (h : Access x y) : y.jobs = x.jobs := by
  have hrel := congrArg Rel.jobs h.dev.rel
  exact hrel

theorem X.jobs_postCq (x : X) (v : VitId) (r seq detail tag opcode status : Nat) (intr : Bool) :
    (x.postCq v r seq detail tag opcode status intr).jobs = x.jobs := by
  have hbytes := fun a l => X.jobs_of_access (Access.writeBytes x a l (hint := 0) (bad := fun _ => false) (port := none))
  simp only [X.postCq]
  split
  · exact hbytes _ _
  · exact hbytes _ _

theorem X.jobs_flushRing (x : X) (v : VitId) (r : Nat) : (x.flushRing v r).jobs = x.jobs := by
  refine foldl_keeps X.jobs _ (fun y _ => ?_) _ _
  split
  · split
    · exact X.jobs_postCq _ _ _ _ _ _ _ _ _
    · rfl
  · rfl

theorem X.jobs_complete (x : X) (v : VitId) (r : Nat) (seq : Word) (status detail : Nat) : (x.complete v r seq status detail).jobs = x.jobs :=
  X.jobs_flushRing _ v r

theorem X.jobs_endRequests (x : X) (l : VitId) (status : Nat) : (x.endRequests l status).jobs = x.jobs := by
  refine foldl_keeps X.jobs _ (fun y v => foldl_keeps X.jobs _ (fun z r => ?_) _ y) _ x
  split
  · rfl
  · exact X.jobs_flushRing _ v r

theorem X.jobs_countRecs (x : X) (recs : KMap ExcRec) (i s r n : Nat) : (x.on (fun d => (d.countRecs recs).count i s r n)).jobs = x.jobs :=
  X.jobs_on x _ ((((Only.refl [.cnt] x.dev).foldl _ _ (fun e _ => (Only.refl _ e).count _ _ _ _ (by simp))).count i s r n (by simp)).rel (by simp))

/-- The end of a tenancy's step in an episode keeps the jobs. -/
theorem X.jobs_endStep (y : X) (s : StepRec) :
    (if s.st == .saved then
      ((y.on (fun d => d.onSrv (fun q => { q with steps := delFirst (fun t => s.same t) q.steps }))).on (fun d => (d.countRecs s.recs).count 0x801A 1 s.leader.toNat)).complete s.ringVit s.ring s.seq 6 s.recs.length
    else y.on (fun d => d.squashStep s 6)).jobs = y.jobs := by
  split
  · rw [X.jobs_complete, X.jobs_countRecs]; rfl
  · exact X.jobs_on y _ (Dev.squashStep_rel _ s 6)

/-- A job that runs waits for its steps to end, or is under repair, once an episode of its tenancy opens (R358). -/
theorem X.job_episode (x : X) (l : VitId) (r c : Nat) (h : x.dev.jobRuns l = true) : ((x.episode l r c).dev.job l).st = 1 ∨ ((x.episode l r c).dev.job l).st = 2 := by
  have hopen : ¬ ((x.dev.job l).st == 1 || (x.dev.job l).st == 2 || (x.dev.job l).st == 4 || (x.dev.job l).st == 5) = true := by
    simp only [Dev.jobRuns, Bool.or_eq_true, beq_iff_eq] at h ⊢
    omega
  have hjob : ((x.on (fun d => ((d.setJob l (fun _ => { st := 1, rec' := r, cls := c })).count 0x6050 1 l.toNat).postVit 0x0201 l l.toNat r)).dev.job l).st = 1 := by
    have hset := congrArg Job.st (x.dev.job_setJob l (fun _ => { st := 1, rec' := r, cls := c }))
    simp only [Dev.job, X.on_dev, Dev.postVit_rel, Dev.count_rel] at hset ⊢
    exact hset
  simp only [X.episode, if_neg hopen]
  generalize x.on (fun d => ((d.setJob l (fun _ => { st := 1, rec' := r, cls := c })).count 0x6050 1 l.toNat).postVit 0x0201 l l.toNat r) = y at hjob ⊢
  generalize y.dev.srv.steps.filter (fun s => (y.dev.tenancy l).contains s.leader) = mine
  have hsteps := foldl_keeps X.jobs _ X.jobs_endStep mine y
  generalize List.foldl _ y mine = z at hsteps ⊢
  have hends := (X.jobs_endRequests z l 6).trans hsteps
  generalize z.endRequests l 6 = w at hends ⊢
  have hhalts : (w.on (fun d => (d.tenancy l).foldl (fun (e : Dev) v => e.setVit v (fun t => { t with halt := 0, haltCause := 0 })) d)).jobs = y.jobs :=
    (X.jobs_on w _ (((Only.refl [.vits] w.dev).foldl _ _ (fun e v => (Only.refl _ e).setVit v _ (by simp))).rel (by simp))).trans hends
  generalize w.on (fun d => (d.tenancy l).foldl (fun (e : Dev) v => e.setVit v (fun t => { t with halt := 0, haltCause := 0 })) d) = u at hhalts ⊢
  split
  · have hjobs : u.dev.rel.jobs = y.dev.rel.jobs := hhalts
    exact .inl (by simpa only [Dev.job, hjobs] using hjob)
  · exact .inr (congrArg Job.st (u.dev.job_setJob l _))

/-- An uncorrected fault of a Vitrine opens the episode of the tenancy that holds it. -/
theorem X.job_uncorrected (x : X) (r : ErrRec) (v l : VitId) (hv : r.vit = some v) (hl : (x.dev.vit v).leader = some l) (h : x.dev.jobRuns l = true) :
    ((x.uncorrected r).dev.job l).st = 1 ∨ ((x.uncorrected r).dev.job l).st = 2 := by
  have hlead : ∀ n k, (((x.on (fun d => d.logErr r)).on (fun d => d.postVit 0x0200 v n k)).dev.vit v).leader = some l := fun n k => by
    simp only [X.on_dev, Dev.vit, Dev.postVit_vits, Dev.logErr_vits]; exact hl
  have hruns : ∀ n k, ((x.on (fun d => d.logErr r)).on (fun d => d.postVit 0x0200 v n k)).dev.jobRuns l = true := fun n k => by
    simp only [Dev.jobRuns, Dev.job, X.on_dev, Dev.postVit_rel, Dev.logErr_jobs] at h ⊢; exact h
  simp only [X.uncorrected, hv, hlead]
  exact X.job_episode _ l _ _ (hruns _ _)

end Sys2Proof.Machine

namespace Sys2Proof.Machine

/-! ### The patrol scrub of the core-domain stores (O58) -/

/-- A word of a store has been scrubbed at a time. -/
def Dev.scrubAt (d : Dev) (key now : Nat) : Dev := d.onRel (fun r => { r with scrub := kset r.scrub key now })

theorem Only.scrubAt {l : List Part} {d e : Dev} (key now : Nat) (h : Only l d e) (h0 : Part.rel ∈ l) : Only l d (e.scrubAt key now) := h.onRel _ h0

/-- The scrub of a word of a store is due at or before a time: the interval since its last scrub has passed (R352). -/
def Dev.scrubDue (d : Dev) (i : Nat) (store : SramStore) (unit : BitVec 9) (key now : Nat) (v : VitId) : Prop :=
  (store = .cluster ∧ unit.toNat / 8 = i ∧ now = (d.die i).root ∧ v = BitVec.ofNat 5 (unit.toNat / 2) ∧ kget 0 d.rel.scrub key + 4 * d.force 0x6000 1 0 ≤ now) ∨
    (store ≠ .cluster ∧ unit.toNat / 64 = i ∧ now = d.cycOf unit ∧ v = vitOfCore unit ∧ kget 0 d.rel.scrub key + d.force 0x6000 1 0 ≤ now)

/-- What a scrub does with the word it found (R352, R67). -/
def X.sramFound (x : X) (i : Nat) (store : SramStore) (unit : BitVec 9) (v : VitId) (upset : Upset) : X :=
  match upset with
  | .none => x
  | .corrected => x.on (fun m => (m.count 0x6051 2 i).count 0x8010 7 v.toNat)
  | .uncorrectable =>
    match if store == .engine then (x.dev.eng unit).serves else none with
    | some e => x.engRead unit e .uncorrectable id
    | none => (if store == .cluster then x else x.on (fun m => m.slotFault unit)).uncorrected
        { ukind := if store == .cluster then 2 else 1, unit := if store == .cluster then unit.toNat
            else (if store == .cluster then x else x.on (fun m => m.slotFault unit)).dev.physSlot unit,
          cls := 2, outcome := 2, vit := some v, die := i }

theorem Dev.reachRoot_of_le (d : Dev) (i due : Nat) (h : due ≤ (d.die i).root) : d.reachRoot i due = d := if_pos h
theorem Dev.reachOf_of_le (d : Dev) (c : CoreId) (due : Nat) (h : due ≤ d.cycOf c) : d.reachOf c due = d := if_pos h

theorem X.on_eq_self (x : X) (f : Dev → Dev) (h : f x.dev = x.dev) : x.on f = x := by rw [X.on, h]

theorem sramScrub_completes {s : State} {d : DieId} {store : SramStore} {unit : BitVec 9} {key now : Nat} {v : VitId} {upset : Upset} {P : State → Prop}
    (hruns : s.dev.runs d.toNat = true) (hkey : key = sramCode store * 1024 + unit.toNat) (hdue : s.dev.scrubDue d.toNat store unit key now v) (y : X)
    (hy : X.sramFound { dev := s.dev.scrubAt key now, mem := s.mem, mram := s.mram } d.toNat store unit v upset = y)
    (hp : P { s with dev := y.dev, mem := applyAll s.mem y.ops.reverse, mram := y.mops.reverse.foldl applyMram s.mram }) :
    Completes (.sramScrub d store unit upset) s P := by
  have hexec : exec (.sramScrub d store unit upset) s = execSramScrub d store unit upset s := rfl
  rw [execSramScrub] at hexec
  refine completes_run y hexec ?_ hp
  subst hkey
  rcases hdue with ⟨rfl, hunit, rfl, rfl, hle⟩ | ⟨hstore, hunit, rfl, rfl, hle⟩
  · have hgo : ¬ (!s.dev.runs d.toNat || unit.toNat / 8 != d.toNat) = true := by simp [hruns, hunit]
    have hreach := X.on_eq_self { dev := s.dev, mem := s.mem, mram := s.mram } (fun m => m.reachRoot d.toNat _) (s.dev.reachRoot_of_le d.toNat _ hle)
    simp only [beq_self_eq_true, if_true, if_neg hgo, hreach]
    cases upset <;> exact hy
  · have hcode : (store == .cluster) = false := beq_eq_false_iff_ne.2 hstore
    have hgo : ¬ (!s.dev.runs d.toNat || unit.toNat / 64 != d.toNat) = true := by simp [hruns, hunit]
    have hreach := X.on_eq_self { dev := s.dev, mem := s.mem, mram := s.mram } (fun m => m.reachOf unit _) (s.dev.reachOf_of_le unit _ hle)
    simp only [X.sramFound, hcode, Bool.false_eq_true, if_false] at hy
    simp only [hcode, Bool.false_eq_true, if_false, if_neg hgo, hreach]
    cases upset <;> exact hy

section Scrub
variable {s : State} {d : DieId} {store : SramStore} {unit : BitVec 9} {key now : Nat} {v : VitId}

theorem sramScrub_clean (hruns : s.dev.runs d.toNat = true) (hkey : key = sramCode store * 1024 + unit.toNat) (hdue : s.dev.scrubDue d.toNat store unit key now v) :
    Completes (.sramScrub d store unit .none) s (fun t => Keeps [.rel] s t ∧ t.dev.rel = { s.dev.rel with scrub := kset s.dev.rel.scrub key now }) :=
  sramScrub_completes hruns hkey hdue _ rfl ⟨((Only.refl _ s.dev).scrubAt key now (by simp)).keeps, rfl⟩

theorem sramScrub_corrects (hruns : s.dev.runs d.toNat = true) (hkey : key = sramCode store * 1024 + unit.toNat) (hdue : s.dev.scrubDue d.toNat store unit key now v) :
    Completes (.sramScrub d store unit .corrected) s (fun t => Keeps [.rel, .cnt] s t ∧ t.dev.counter 0x6051 2 d.toNat = (s.dev.counter 0x6051 2 d.toNat + 1) % 2 ^ 64 ∧
      t.dev.counter 0x8010 7 v.toNat = (s.dev.counter 0x8010 7 v.toNat + 1) % 2 ^ 64) := by
  have honly : Only [.rel, .cnt] s.dev (((s.dev.scrubAt key now).count 0x6051 2 d.toNat).count 0x8010 7 v.toNat) :=
    (((Only.refl _ s.dev).scrubAt key now (by simp)).count _ _ _ _ (by simp)).count _ _ _ _ (by simp)
  have hne : ckey 0x6051 2 d.toNat ≠ ckey 0x8010 7 v.toNat := by
    have hd := d.isLt
    have hv := v.isLt
    simp only [ckey]; omega
  have hcnt : ∀ i n r, (s.dev.scrubAt key now).counter i n r = s.dev.counter i n r := fun _ _ _ => rfl
  refine sramScrub_completes hruns hkey hdue _ rfl ⟨honly.keeps, ?_, ?_⟩
  · exact (Dev.counter_count_ne _ _ _ _ _ _ _ _ hne).trans ((Dev.counter_count _ _ _ _ _).trans (by rw [hcnt]))
  · exact (Dev.counter_count _ _ _ _ _).trans (by rw [Dev.counter_count_ne _ _ _ _ _ _ _ _ hne.symm, hcnt])

theorem sramScrub_fails (hruns : s.dev.runs d.toNat = true) (hkey : key = sramCode store * 1024 + unit.toNat) (hdue : s.dev.scrubDue d.toNat store unit key now v) (l : VitId)
    (hl : (s.dev.vit v).leader = some l) (hjob : s.dev.jobRuns l = true) (hserves : store ≠ .engine ∨ (s.dev.eng unit).serves = none) :
    Completes (.sramScrub d store unit .uncorrectable) s (fun t => (t.dev.job l).st = 1 ∨ (t.dev.job l).st = 2) := by
  have hnone : (if store == .engine then ((s.dev.scrubAt key now).eng unit).serves else none) = none := by
    have heng : ((s.dev.scrubAt key now).eng unit).serves = (s.dev.eng unit).serves := rfl
    rcases hserves with hstore | hserves
    · simp [hstore]
    · simp [heng, hserves]
  have hfound : ∀ (x : X) (r : ErrRec), x.dev.vits = s.dev.vits → x.jobs = s.dev.rel.jobs → r.vit = some v →
      ((x.uncorrected r).dev.job l).st = 1 ∨ ((x.uncorrected r).dev.job l).st = 2 := fun x r hvits hjobs hv => by
    refine x.job_uncorrected r v l hv ?_ ?_
    · simp only [Dev.vit, hvits] at hl ⊢; exact hl
    · have hrel : x.dev.rel.jobs = s.dev.rel.jobs := hjobs
      simp only [Dev.jobRuns, Dev.job, hrel] at hjob ⊢; exact hjob
  refine sramScrub_completes hruns hkey hdue _ (by simp only [X.sramFound, hnone]; rfl) (hfound _ _ ?_ ?_ rfl)
  · split <;> rfl
  · split <;> rfl

end Scrub

end Sys2Proof.Machine

namespace Sys2Proof.Machine

/-! ### Gallery ways (O58) -/

/-- The machine as the spare takes the place of a failed way without lines (R367): its event, its record, and the counts that it changes. -/
def Dev.spareFor (d : Dev) (sl way : Nat) (r : ErrRec) : Dev :=
  ((((d.setSlice sl (fun t => { t with spare := some way })).post 0x0206 2 (BitVec.ofNat 5 (sl / 24)).toNat sl way).logErr r).changed 5).spareWays (sl / 96)

theorem Dev.spareFor_only (d : Dev) (sl way : Nat) (r : ErrRec) : Only [.cat, .rel] (d.setSlice sl (fun t => { t with spare := some way })) (d.spareFor sl way r) :=
  ((((Only.refl _ _).post _ _ _ _ _ _ (by simp)).logErr r (by simp)).changed 5 (by simp) (by simp)).identChanged _ _ _ (by simp)

theorem Dev.spareFor_slice (d : Dev) (sl way : Nat) (r : ErrRec) (k : Nat) :
    (d.spareFor sl way r).slice k = (d.setSlice sl (fun t => { t with spare := some way })).slice k := by
  simp only [Dev.slice, (d.spareFor_only sl way r).gal (by simp)]

/-- A way without lines fails and the spare stands in its place (R367). -/
theorem X.wayFailed_spares (x : X) (sl way : Nat) (hspare : (x.dev.slice sl).spare = none) (hlines : ∀ e ∈ (x.dev.slice sl).lines, e.2.way ≠ way) :
    ∃ r, x.wayFailed sl way = x.on (fun d => d.spareFor sl way r) := by
  have hmine : (x.dev.slice sl).lines.filter (fun e => e.2.way == way) = [] := List.filter_eq_nil_iff.2 (fun e he => by simpa using hlines e he)
  refine ⟨{ ukind := 3, unit := sl, cls := 3, outcome := 5, action := 5, addr := way, akind := 3, vit := some (BitVec.ofNat 5 (sl / 24)), die := sl / 96 }, ?_⟩
  simp only [X.wayFailed, hspare, hmine, List.filter_nil, List.foldl_nil]
  rfl

/-- The spare stands in the place of a way already: nothing changes. -/
theorem X.wayFailed_again (x : X) (sl way : Nat) (hspare : (x.dev.slice sl).spare = some way) : x.wayFailed sl way = x := by
  simp only [X.wayFailed, hspare, beq_self_eq_true, if_true]

theorem X.withdraw_st (x : X) (v : VitId) : ((x.withdraw v).dev.vit v).st = .withdrawn := by
  have hst : ((((x.on (fun d => d.onRel (fun r => { r with withdrawn := putBit r.withdrawn v.toNat true }))).on (fun d => (d.vitState v .withdrawn).changed 8)).on
      (fun d => d.identChanged none 0x100008 d.vitsIn)).dev.vit v).st = .withdrawn := by
    simp only [X.on_dev, Dev.vit, Dev.identChanged_vits, Dev.changed_vits]
    exact congrArg Vit.st (Dev.vit_vitState _ v .withdrawn)
  simp only [X.withdraw]
  generalize X.on (X.on (X.on x _) _) _ = y at hst ⊢
  split
  · split
    · exact (((Aftermath.squashStep y _ 0x0D).trans (Aftermath.ringEvent _ _ _ _)).trans (Aftermath.setJob _ _ _)).vit v |>.1.trans hst
    · exact ((Aftermath.ringEvent y _ _ _).trans (Aftermath.setJob _ _ _)).vit v |>.1.trans hst
  · exact hst

theorem X.withdrawn_st (x : X) (v : VitId) : ((if (x.dev.vit v).st == .withdrawn then x else x.withdraw v).dev.vit v).st = .withdrawn := by
  split
  case isTrue h => exact beq_iff_eq.1 h
  case isFalse => exact x.withdraw_st v

/-- With the spare in use the Vitrine is withdrawn (R367). -/
theorem X.wayFailed_withdraws (x : X) (sl way old : Nat) (hspare : (x.dev.slice sl).spare = some old) (hne : old ≠ way) :
    ((x.wayFailed sl way).dev.vit (BitVec.ofNat 5 (sl / 24))).st = .withdrawn := by
  have hold : ¬ (old == way) = true := by simpa using hne
  simp only [X.wayFailed, hspare, if_neg hold]
  exact X.withdrawn_st _ _

/-! #### WAY_SUBSTITUTE -/

section WaySubstitute
variable {s : State} {sl : ChanId} {way : BitVec 4}

theorem waySubstitute_exec (hruns : s.dev.runs (sl.val / 96) = true) : exec (.waySubstitute sl way) s = run s (fun x => x.wayFailed sl.val way.toNat) := by
  show execWaySubstitute sl way s = _
  simp only [execWaySubstitute, run, hruns, if_true]

theorem waySubstitute_spares (hruns : s.dev.runs (sl.val / 96) = true) (hspare : (s.dev.slice sl.val).spare = none)
    (hlines : ∀ e ∈ (s.dev.slice sl.val).lines, e.2.way ≠ way.toNat) : Completes (.waySubstitute sl way) s (fun t => Keeps [.gal, .cat, .rel] s t ∧
      t.dev.slice sl.val = { s.dev.slice sl.val with spare := some way.toNat } ∧ ∀ k, k ≠ sl.val → t.dev.slice k = s.dev.slice k) := by
  obtain ⟨r, hway⟩ := X.wayFailed_spares { dev := s.dev, mem := s.mem, mram := s.mram } sl.val way.toNat hspare hlines
  refine completes_on _ (waySubstitute_exec hruns) hway ⟨?_, ?_, fun k hk => ?_⟩
  · exact (((Only.refl _ s.dev).setSlice sl.val _ (by simp)).trans ((s.dev.spareFor_only sl.val way.toNat r).mono (by simp))).keeps
  · exact (s.dev.spareFor_slice _ _ r _).trans (s.dev.slice_setSlice _ _)
  · exact (s.dev.spareFor_slice _ _ r k).trans (s.dev.slice_setSlice_ne _ k _ hk)

theorem waySubstitute_withdraws (hruns : s.dev.runs (sl.val / 96) = true) {old : Nat} (hspare : (s.dev.slice sl.val).spare = some old) (hne : old ≠ way.toNat) :
    Completes (.waySubstitute sl way) s (fun t => (t.dev.vit (BitVec.ofNat 5 (sl.val / 24))).st = .withdrawn) :=
  completes_run _ (waySubstitute_exec hruns) rfl (X.wayFailed_withdraws { dev := s.dev, mem := s.mem, mram := s.mram } _ _ old hspare hne)

theorem waySubstitute_again (hruns : s.dev.runs (sl.val / 96) = true) (hspare : (s.dev.slice sl.val).spare = some way.toNat) :
    Completes (.waySubstitute sl way) s (fun t => t = s) :=
  completes_run _ (waySubstitute_exec hruns) (X.wayFailed_again { dev := s.dev, mem := s.mem, mram := s.mram } sl.val way.toNat hspare) rfl

end WaySubstitute

end Sys2Proof.Machine

namespace Sys2Proof.Machine

/-! ### Lasers (O58) -/

/-- The failure of a laser on record (R368): its group's failed lasers and the one its spare replaces, its event, its counts and its record. -/
def Dev.laserNoted (d : Dev) (k laser : Nat) (q : Laser) : Dev :=
  let region := (laserPlace k).1
  let group := (laserPlace k).2
  let d := d.onRel (fun r => { r with lasers := kset r.lasers k q })
  let d := d.post 0x0207 (if region < 8 then 1 else 0) (if region < 8 then region else 0) (region * 16 + group) laser
  let d := if region < 8 then d.count 0x6051 3 region else d
  let d := (d.logErr { ukind := 8, unit := region * 16 + group, cls := 8, outcome := 5, action := 7, detail := laser, die := region % 8, atrium := region == 8 }).changed 7
  let row := (match (kget {} d.rel.lasers k : Laser).spareFor with | some n => n | none => 0xFF) + q.failed.toNat * 256
  if region < 8 then d.identChanged (some region) ((0x1001 + region) * 256 + 4) row else d.identChanged none 0x100904 row

/-- What an active laser of a group feeds retrains when the spare takes its place, and goes out of service when it does not. -/
def Dev.laserFeed (d : Dev) (region group laser : Nat) (use : Bool) : Dev :=
  match laserFeeds region group laser with
  | .inl r => if use then d.setBund r (fun b => { b with want := true }) else d.bundleOut r
  | .inr l =>
    if use then (if (d.link l).st == .down then d else d.linkTo l .training 0)
    else
      let d := d.setLink l (fun k => { k with out := true })
      if (d.link l).st == .down then d else d.linkTo l .down 0

section LaserFailed
variable (d : Dev) (k n : Nat) (q : Laser)

/-- The failure of an active laser: it is noted, and the spare takes its place if it is free and sound. -/
theorem Dev.laserFailed_active (hq : q = kget {} d.rel.lasers k) (hn : n < 8) (hnot : q.failed.getLsbD n = false) (use : Bool)
    (huse : (q.spareFor.isNone && !q.failed.getLsbD 8) = use) :
    d.laserFailed k n = (d.laserNoted k n { spareFor := if use then some n else q.spareFor, failed := putBit q.failed n true }).laserFeed (laserPlace k).1 (laserPlace k).2 n use := by
  have h8 : (n == 8) = false := beq_eq_false_iff_ne.2 (Nat.ne_of_lt hn)
  have hfail : ¬ q.failed.getLsbD n = true := by simp [hnot]
  simp only [Dev.laserFailed, ← hq, if_neg hfail, bne, h8, huse, Bool.not_false, Bool.true_and, Bool.false_eq_true, if_false]
  rfl

theorem Dev.laserNoted_only : Only [.rel, .cat, .cnt] d (d.laserNoted k n q) := by
  have hnote := ((Only.refl [.rel, .cat, .cnt] d).onRel (fun r => { r with lasers := kset r.lasers k q }) (by simp)).post 0x0207
    (if (laserPlace k).1 < 8 then 1 else 0) (if (laserPlace k).1 < 8 then (laserPlace k).1 else 0) ((laserPlace k).1 * 16 + (laserPlace k).2) n 0 (by simp)
  have hcount : Only [.rel, .cat, .cnt] d (if (laserPlace k).1 < 8 then _ else _) := (hnote.count 0x6051 3 (laserPlace k).1 1 (by simp)).ite hnote
  have hlog := (hcount.logErr { ukind := 8, unit := (laserPlace k).1 * 16 + (laserPlace k).2, cls := 8, outcome := 5, action := 7, detail := n, die := (laserPlace k).1 % 8, atrium := (laserPlace k).1 == 8 } (by simp)).changed 7 (by simp) (by simp)
  exact (hlog.identChanged _ _ _ (by simp)).ite (hlog.identChanged _ _ _ (by simp))

theorem Dev.laserNoted_laser : kget {} (d.laserNoted k n q).rel.lasers k = q := by
  have hident : ∀ (e : Dev) (c : Prop) [Decidable c] (i : Option Nat) (a b : Nat), (if c then e.identChanged i a b else e.identChanged none 0x100904 b).rel = e.rel := by
    intro e c _ i a b; split <;> exact Dev.identChanged_rel _ _ _ _
  have hlog : ∀ (e : Dev) (r : ErrRec), ((e.logErr r).changed 7).rel.lasers = e.rel.lasers := fun e r => by rw [Dev.changed_rel]; exact e.logErr_lasers r
  have hcount : ∀ (e : Dev) (c : Prop) [Decidable c] (m : Nat), (if c then e.count 0x6051 3 m else e).rel = e.rel := by
    intro e c _ m; split <;> rfl
  rw [Dev.laserNoted, hident, hlog, hcount, Dev.post_rel, Dev.onRel_rel]
  exact kget_kset _ _ _ _

end LaserFailed

/-! #### What the laser feeds -/

theorem Dev.laserFeed_only (d : Dev) (region group n : Nat) (h : ∀ r, laserFeeds region group n ≠ .inl r) (use : Bool) :
    Only [.fab, .cnt, .cat] d (d.laserFeed region group n use) := by
  unfold Dev.laserFeed
  split
  case h_1 r heq => exact absurd heq (h r)
  case h_2 l _ =>
    have hout := (Only.refl [.fab, .cnt, .cat] d).setLink l (fun k => { k with out := true }) (by simp)
    exact ((Only.refl _ d).ite ((Only.refl _ d).linkTo _ _ _ (by simp))).ite (hout.ite (hout.linkTo _ _ _ (by simp)))

theorem Dev.laserFeed_bund (d : Dev) (region group n r : Nat) (h : laserFeeds region group n = .inl r) :
    d.laserFeed region group n true = d.setBund r (fun b => { b with want := true }) := by
  simp only [Dev.laserFeed, h, if_true]

/-- A link whose laser the spare replaces retrains, unless it is down. -/
theorem Dev.laserFeed_trains (d : Dev) (region group n l : Nat) (h : laserFeeds region group n = .inr l) (hst : (d.link l).st ≠ .down) :
    ((d.laserFeed region group n true).link l).st = .training := by
  have hdown : ¬ ((d.link l).st == .down) = true := by simpa using hst
  simp only [Dev.laserFeed, h, if_true, if_neg hdown]
  exact (d.linkTo_link l .training 0).1

/-- A link that loses its laser without a spare goes out of service and down. -/
theorem Dev.laserFeed_out (d : Dev) (region group n l : Nat) (h : laserFeeds region group n = .inr l) :
    ((d.laserFeed region group n false).link l).out = true ∧ ((d.laserFeed region group n false).link l).st = .down := by
  have hout : ((d.setLink l (fun k => { k with out := true })).link l).out = true := congrArg Link.out (d.link_setLink l _)
  simp only [Dev.laserFeed, h, Bool.false_eq_true, if_false]
  generalize d.setLink l (fun k => { k with out := true }) = e at hout ⊢
  split
  case isTrue hdown => exact ⟨hout, beq_iff_eq.1 hdown⟩
  case isFalse => exact ⟨(e.linkTo_link l .down 0).2.trans hout, (e.linkTo_link l .down 0).1⟩

theorem Dev.laserFeed_rel (d : Dev) (region group n : Nat) {use : Bool} (h : (∃ l, laserFeeds region group n = .inr l) ∨ use = true) :
    (d.laserFeed region group n use).rel = d.rel := by
  by_cases hin : ∃ r, laserFeeds region group n = .inl r
  · obtain ⟨r, hr⟩ := hin
    rcases h with ⟨l, hl⟩ | rfl
    · exact absurd (hr.symm.trans hl) (by simp)
    · rw [d.laserFeed_bund _ _ _ r hr]; rfl
  · exact (d.laserFeed_only _ _ _ (fun r hr => hin ⟨r, hr⟩) use).rel (by simp)

/-! #### LASER_CHECK -/

/-- A laser group of an active device whose region is in service, and whose check is due (R368). -/
def Dev.laserDue (d : Dev) (k : Nat) : Prop :=
  d.fw.step = 11 ∧ ((laserPlace k).1 < 8 → d.isFenced (laserPlace k).1 = false ∧ d.rel.diesOut.getLsbD (laserPlace k).1 = false) ∧
    kget 0 d.rel.scrub (65536 + k) + 1024 ≤ d.ref

theorem laserCheck_exec {s : State} {lg : LaserId} (h : s.dev.laserDue lg.val) (failed : BitVec 9) :
    exec (.laserCheck lg failed) s = .next { s with dev := (bits failed).foldl (fun (e : Dev) n => e.laserFailed lg.val n) (s.dev.scrubAt (65536 + lg.val) s.dev.ref) } := by
  obtain ⟨hstep, hregion, hdue⟩ := h
  have hgo : ¬ (s.dev.fw.step != 11 || (decide ((laserPlace lg.val).1 < 8) && (s.dev.isFenced (laserPlace lg.val).1 || s.dev.rel.diesOut.getLsbD (laserPlace lg.val).1))) = true := by
    by_cases hr : (laserPlace lg.val).1 < 8
    · obtain ⟨hfence, hout⟩ := hregion hr; simp [hstep, hfence, hout]
    · simp [hstep, hr]
  have hreach : s.dev.reachRef (kget 0 s.dev.rel.scrub (65536 + lg.val) + 1024) = s.dev := if_pos hdue
  show execLaserCheck lg failed s = _
  simp only [execLaserCheck, runDev, if_neg hgo, hreach]
  rfl

theorem laserCheck_clean {s : State} {lg : LaserId} (h : s.dev.laserDue lg.val) :
    Completes (.laserCheck lg 0) s (fun t => Keeps [.rel] s t ∧ t.dev.rel = { s.dev.rel with scrub := kset s.dev.rel.scrub (65536 + lg.val) s.dev.ref }) :=
  ⟨_, laserCheck_exec h 0, ((Only.refl _ s.dev).scrubAt _ _ (by simp)).keeps, rfl⟩

theorem bits_two_pow (n : Nat) (h : n < 8) : bits (BitVec.ofNat 9 (2 ^ n)) = [n] := by
  interval_cases n <;> decide

section LaserCheck
variable {s : State} {lg : LaserId} {n : Nat} {q : Laser}

/-- The check of a group of which one more active laser has failed. -/
theorem laserCheck_fails (P : State → Prop) (h : s.dev.laserDue lg.val) (hq : q = kget {} s.dev.rel.lasers lg.val) (hn : n < 8) (hnot : q.failed.getLsbD n = false)
    (use : Bool) (huse : (q.spareFor.isNone && !q.failed.getLsbD 8) = use)
    (hp : ∀ e : Dev, e.fab = s.dev.fab → kget {} e.rel.lasers lg.val = { spareFor := if use then some n else q.spareFor, failed := putBit q.failed n true : Laser } →
      P { s with dev := e.laserFeed (laserPlace lg.val).1 (laserPlace lg.val).2 n use }) :
    Completes (.laserCheck lg (BitVec.ofNat 9 (2 ^ n))) s P := by
  have hnoted := (s.dev.scrubAt (65536 + lg.val) s.dev.ref).laserNoted_only lg.val n { spareFor := if use then some n else q.spareFor, failed := putBit q.failed n true }
  refine ⟨_, laserCheck_exec h _, ?_⟩
  rw [bits_two_pow n hn, List.foldl_cons, List.foldl_nil, Dev.laserFailed_active (s.dev.scrubAt (65536 + lg.val) s.dev.ref) _ _ q hq hn hnot use huse]
  exact hp _ (hnoted.fab (by simp)) (Dev.laserNoted_laser _ _ _ _)

/-- The spare takes the place of a failed laser, and what the laser feeds retrains (R23, R368). -/
theorem laserCheck_spares (h : s.dev.laserDue lg.val) (hq : q = kget {} s.dev.rel.lasers lg.val) (hn : n < 8) (hnot : q.failed.getLsbD n = false)
    (hspare : q.spareFor = none) (hsound : q.failed.getLsbD 8 = false) : Completes (.laserCheck lg (BitVec.ofNat 9 (2 ^ n))) s (fun t =>
      kget {} t.dev.rel.lasers lg.val = { spareFor := some n, failed := putBit q.failed n true : Laser } ∧
      (∀ r, laserFeeds (laserPlace lg.val).1 (laserPlace lg.val).2 n = .inl r → (t.dev.bund r).want = true) ∧
      ∀ m, laserFeeds (laserPlace lg.val).1 (laserPlace lg.val).2 n = .inr m → (s.dev.link m).st ≠ .down → (t.dev.link m).st = .training) := by
  refine laserCheck_fails _ h hq hn hnot true (by rw [hspare, hsound]; rfl) (fun e hfab hlaser => ⟨?_, fun r hr => ?_, fun m hm hst => ?_⟩)
  · rw [e.laserFeed_rel _ _ _ (.inr rfl), hlaser, if_pos rfl]
  · simp only [e.laserFeed_bund _ _ _ r hr, Dev.bund, Dev.setBund, Dev.onNet, kget_kupd]
  · exact e.laserFeed_trains _ _ _ m hm (by simpa only [Dev.link, hfab] using hst)

/-- A link whose failed laser has no spare goes out of service. -/
theorem laserCheck_linkOut (h : s.dev.laserDue lg.val) (hq : q = kget {} s.dev.rel.lasers lg.val) (hn : n < 8) (hnot : q.failed.getLsbD n = false)
    (hused : q.spareFor.isSome = true ∨ q.failed.getLsbD 8 = true) {m : Nat} (hm : laserFeeds (laserPlace lg.val).1 (laserPlace lg.val).2 n = .inr m) :
    Completes (.laserCheck lg (BitVec.ofNat 9 (2 ^ n))) s (fun t =>
      (kget ({} : Laser) t.dev.rel.lasers lg.val).failed = putBit q.failed n true ∧ (t.dev.link m).out = true ∧ (t.dev.link m).st = .down) := by
  have huse : (q.spareFor.isNone && !q.failed.getLsbD 8) = false := by
    rcases hused with hsome | hfailed
    · rw [Option.isNone_eq_false_iff.2 hsome, Bool.false_and]
    · rw [hfailed, Bool.not_true, Bool.and_false]
  refine laserCheck_fails _ h hq hn hnot false huse (fun e _ hlaser => ⟨?_, e.laserFeed_out _ _ _ m hm⟩)
  rw [e.laserFeed_rel _ _ _ (.inl ⟨m, hm⟩), hlaser]

end LaserCheck

end Sys2Proof.Machine

namespace Sys2Proof.Machine

/-! ### The slot under test (O58) -/

theorem X.flushL1_nil (x : X) (c : CoreId) (h : (x.dev.core c).l1 = []) : x.flushL1 c = x := by rw [X.flushL1, h, List.foldl_nil]

section SlotSwap
variable {s : State} {v : VitId} {p : Slots} {j : Nat} {b : Bist}

/-- Slot 16 may take or give back a name on a Vitrine: its die runs, no step occupies it and its cores have no operations outstanding. -/
def Dev.swapQuiet (d : Dev) (v : VitId) : Prop :=
  d.runs (dieOfVit v) = true ∧ d.stepOn v = none ∧ ∀ k ∈ coresOfVit v, (d.core (BitVec.ofNat 9 k)).ops = []

theorem Dev.swapQuiet.not_waits {d : Dev} (h : d.swapQuiet v) :
    ¬ (!d.runs (dieOfVit v) || (d.stepOn v).isSome || !((coresOfVit v).all (fun k => (d.core (BitVec.ofNat 9 k)).ops.isEmpty))) = true := by
  obtain ⟨hruns, hstep, hops⟩ := h
  have hquiet : (coresOfVit v).all (fun k => (d.core (BitVec.ofNat 9 k)).ops.isEmpty) = true := List.all_eq_true.2 (fun k hk => by rw [hops k hk]; rfl)
  simp [hruns, hstep, hquiet]

/-- Slot 16 takes the name of the slot under test (R370). -/
theorem bistSlotSwap_takes (hp : p = kget {} s.dev.rel.slots v.toNat) (hquiet : s.dev.swapQuiet v) (hl1 : (s.dev.core (BitVec.ofNat 9 (v.toNat * 16 + j))).l1 = [])
    (hb : b = s.dev.bistOf (dieOfVit v)) (hrun : b.running = true) (hkind : b.kind = 1) (hunit : b.target / 17 = v.toNat) (hslot : b.target % 17 ≠ 16)
    (htest : p.testing = none) (hretired : p.retired = 0) (hj : p.slotOf.findIdx? (fun k => k == b.target % 17) = some j) :
    Completes (.bistSlotSwap v) s (fun t => Keeps [.rel, .cat, .cnt] s t ∧ kget {} t.dev.rel.slots v.toNat = { p with testing := some j, slotOf := setNth p.slotOf j 16 } ∧
      t.dev.counter 0x6050 3 v.toNat = (s.dev.counter 0x6050 3 v.toNat + 1) % 2 ^ 64) := by
  have hmine : ((b.running && b.kind == 1 && b.target / 17 == v.toNat) && p.retired == 0 && b.target % 17 != 16) = true := by simp [hrun, hkind, hunit, hslot, hretired]
  have hexec : exec (.bistSlotSwap v) s = execBistSlotSwap v s := rfl
  rw [execBistSlotSwap] at hexec
  refine completes_on (fun e => ((((e.onRel (fun r => { r with slots := kset r.slots v.toNat { p with testing := some j, slotOf := setNth p.slotOf j 16 } })).post 0x0205 2 v.toNat
    b.target (v.toNat * 16 + j)).count 0x6050 3 v.toNat).coreMapChanged v)) hexec ?_ ⟨?_, ?_, ?_⟩
  · extract_lets i p' b' mine quiet
    have hp' : p' = p := hp.symm
    have hb' : b' = b := hb.symm
    clear_value p' b'
    subst hp' hb'
    rw [if_neg hquiet.not_waits]
    simp only [htest, hj]
    rw [if_pos hmine, X.flushL1_nil _ _ hl1]
  · exact (((((Only.refl _ s.dev).onRel _ (by simp)).post _ _ _ _ _ _ (by simp)).count _ _ _ _ (by simp)).coreMapChanged _ (by simp)).keeps
  · simp only [Dev.coreMapChanged_rel, Dev.count_rel, Dev.post_rel, Dev.onRel_rel, kget_kset]
  · have hcount := Dev.counter_count ((s.dev.onRel (fun r => { r with slots := kset r.slots v.toNat { p with testing := some j, slotOf := setNth p.slotOf j 16 } })).post 0x0205 2 v.toNat
      b.target (v.toNat * 16 + j)) 0x6050 3 v.toNat 1
    simp only [Dev.counter, Dev.coreMapChanged_cnt, Dev.post_cnt, Dev.onRel_cnt] at hcount ⊢
    exact hcount

/-- Slot 16 gives the name back once the test of its slot has ended (R370). -/
theorem bistSlotSwap_returns (hp : p = kget {} s.dev.rel.slots v.toNat) (hquiet : s.dev.swapQuiet v) (hl1 : (s.dev.core (BitVec.ofNat 9 (v.toNat * 16 + j))).l1 = [])
    (hb : b = s.dev.bistOf (dieOfVit v)) (hend : b.running = false ∨ b.kind ≠ 1 ∨ b.target / 17 ≠ v.toNat) (htest : p.testing = some j) :
    Completes (.bistSlotSwap v) s (fun t => Keeps [.rel, .cat] s t ∧ kget {} t.dev.rel.slots v.toNat = { p with testing := none, slotOf := setNth p.slotOf j j }) := by
  have hmine : ¬ (b.running && b.kind == 1 && b.target / 17 == v.toNat) = true := by
    rcases hend with hrun | hkind | hunit
    · simp [hrun]
    · simp [hkind]
    · simp [hunit]
  have hunt : p.untest = { p with testing := none, slotOf := setNth p.slotOf j j } := by simp only [Slots.untest, htest]
  have hexec : exec (.bistSlotSwap v) s = execBistSlotSwap v s := rfl
  rw [execBistSlotSwap] at hexec
  refine completes_on (fun e => (e.onRel (fun r => { r with slots := kset r.slots v.toNat p.untest })).coreMapChanged v) hexec ?_ ⟨?_, ?_⟩
  · extract_lets i p' b' mine quiet
    have hp' : p' = p := hp.symm
    have hb' : b' = b := hb.symm
    clear_value p' b'
    subst hp' hb'
    rw [if_neg hquiet.not_waits]
    simp only [htest]
    rw [if_neg hmine, X.flushL1_nil _ _ hl1]
  · exact (((Only.refl _ s.dev).onRel _ (by simp)).coreMapChanged _ (by simp)).keeps
  · simp only [Dev.coreMapChanged_rel, Dev.onRel_rel, kget_kset, hunt]

end SlotSwap

/-! ### The end of a self-test (O58) -/

/-- The report of a run (R371): its row is idle, and the runs of its die count. -/
def Dev.bistReported (d : Dev) (b : Bist) (row : Nat) (entries : List BistEntry) (result : Nat) : Dev :=
  let seq := d.rel.report.seq + 1
  let d := d.onRel (fun r => { r with
    report := { seq, kind := b.kind, target := b.target, result, nonce := b.nonce, duration := d.ref - b.start, entries, recSeq := d.fw.recSeq, fw := d.fw.version,
                signature := Config.signature [b.kind, b.target, result, b.nonce.toNat, seq, entries.length] },
    bist := kset r.bist row {} })
  let d := (if row < 8 then [row] else List.range 8).foldl (fun (e : Dev) i => e.count 0x6051 4 i) d
  d.post 0x0208 (if row < 8 then 1 else 0) (if row < 8 then row else 0) seq result

theorem X.bistEnd_eq (x : X) (row : Nat) (entries : List BistEntry) (result : Nat) :
    x.bistEnd row entries result = x.on (fun d => d.bistReported (x.dev.bistOf row) row entries result) := rfl

section Report
variable (d : Dev) (b : Bist) (row : Nat) (entries : List BistEntry) (result : Nat)

theorem Dev.bistReported_only : Only [.rel, .cnt, .cat] d (d.bistReported b row entries result) :=
  (((Only.refl _ d).onRel _ (by simp)).foldl _ _ (fun e i => (Only.refl _ e).count _ _ _ _ (by simp))).post _ _ _ _ _ _ (by simp)

theorem Dev.bistReported_rel : (d.bistReported b row entries result).rel = { d.rel with
    report := { seq := d.rel.report.seq + 1, kind := b.kind, target := b.target, result, nonce := b.nonce, duration := d.ref - b.start, entries, recSeq := d.fw.recSeq,
                fw := d.fw.version, signature := Config.signature [b.kind, b.target, result, b.nonce.toNat, d.rel.report.seq + 1, entries.length] },
    bist := kset d.rel.bist row {} } := by
  rw [Dev.bistReported, Dev.post_rel]
  exact ((Only.refl [.cnt] _).foldl _ _ (fun e i => (Only.refl _ e).count _ _ _ _ (by simp))).rel (by simp)

theorem Dev.bistReported_running : ((d.bistReported b row entries result).bistOf row).running = false := by
  simp only [Dev.bistOf, Dev.bistReported_rel, kget_kset]

theorem Dev.bistReported_counter (h : row < 8) : (d.bistReported b row entries result).counter 0x6051 4 row = (d.counter 0x6051 4 row + 1) % 2 ^ 64 := by
  have hcount := fun e : Dev => Dev.counter_count e 0x6051 4 row 1
  simp only [Dev.counter] at hcount ⊢
  rw [Dev.bistReported, Dev.post_cnt, if_pos h, List.foldl_cons, List.foldl_nil, hcount]
  rfl

end Report

theorem Dev.returnLane_only (d : Dev) (b : Bist) : Only [.net] d (d.returnLane b) := by
  unfold Dev.returnLane
  split
  · exact (Only.refl _ d).setBund _ _ (by simp)
  · exact (Only.refl _ d).setSeam _ _ (by simp)
  · exact Only.refl _ d

section BistDone
variable {s : State} {row : Fin 9} {entries : List BistEntry} {b : Bist}

/-- A run that ends neither by a stop nor by a fault of the tenancy that holds its resource. -/
def Dev.bistEnds (d : Dev) (row : Nat) (b : Bist) : Prop :=
  d.dbg.stopped = false ∧ (row < 8 → d.runs row = true) ∧ ∀ v l, bistVit b = some v → (d.vit v).leader = some l → (d.job l).st ≠ 1 ∧ (d.job l).st ≠ 2

/-- The repairs of the entries that failed, the lane under test put back. -/
def X.bistRepairs (x : X) (b : Bist) (entries : List BistEntry) : X := (entries.filter (fun e => !bistPass e)).foldl X.testRepair (x.on (fun d => d.returnLane b))

/-- Whether the run is cut short: aborted by a stop, a fault or a fence (R371). -/
def Dev.bistStops (d : Dev) (row : Nat) (b : Bist) (aborted : Bool) : Bool :=
  aborted || d.dbg.stopped || (match (bistVit b).bind (fun v => (d.vit v).leader) with
    | some l => (d.job l).st == 1 || (d.job l).st == 2
    | none => false) || (decide (row < 8) && !d.runs row)

theorem Dev.bistEnds.not_stops {d : Dev} {r : Nat} (h : d.bistEnds r b) : d.bistStops r b false = false := by
  obtain ⟨hstop, hruns, hjob⟩ := h
  have hdie : (decide (r < 8) && !d.runs r) = false := by
    by_cases hr : r < 8
    · simp [hruns hr]
    · simp [hr]
  have hfault : (match (bistVit b).bind (fun v => (d.vit v).leader) with
      | some l => (d.job l).st == 1 || (d.job l).st == 2
      | none => false) = false := by
    split
    next l hl =>
      obtain ⟨v, hv, hlead⟩ := Option.bind_eq_some_iff.1 hl
      obtain ⟨h1, h2⟩ := hjob v l hv hlead
      simp [h1, h2]
    next => rfl
  rw [Dev.bistStops, hstop, hfault, hdie]
  rfl

theorem bistDone_exec {P : State → Prop} (hb : b = s.dev.bistOf row.val) (hrun : b.running = true) (hproc : (s.dev.proc 1).st ≠ 1) (aborted stop : Bool) (y : X)
    (hstop : s.dev.bistStops row.val b aborted = stop)
    (hy : (if stop then X.on { dev := s.dev, mem := s.mem, mram := s.mram } (fun d => d.returnLane b) else X.bistRepairs { dev := s.dev, mem := s.mem, mram := s.mram } b entries).bistEnd
      row.val entries (if stop then 2 else if entries.all bistPass then 0 else 1) = y)
    (hp : P { s with dev := y.dev, mem := applyAll s.mem y.ops.reverse, mram := y.mops.reverse.foldl applyMram s.mram }) : Completes (.bistDone row entries aborted) s P := by
  have hgo : ¬ (!b.running || (s.dev.proc 1).st == 1) = true := by simp [hrun, hproc]
  have hexec : exec (.bistDone row entries aborted) s = execBistDone row entries aborted s := rfl
  rw [execBistDone] at hexec
  subst hb
  refine completes_run y hexec ?_ hp
  rw [← hy, ← hstop]
  exact if_neg hgo

theorem Dev.bistOf_returnLane (d : Dev) (b : Bist) (r : Nat) : (d.returnLane b).bistOf r = d.bistOf r := by
  simp only [Dev.bistOf, (d.returnLane_only b).rel (by simp)]

/-- The machine after a run that needs no repair: its lane is put back and its report stands. -/
def Dev.bistEnded (d : Dev) (b : Bist) (row : Nat) (entries : List BistEntry) (result : Nat) : Dev := (d.returnLane b).bistReported b row entries result

theorem Dev.bistEnded_only (d : Dev) (r result : Nat) : Only [.net, .rel, .cnt, .cat] d (d.bistEnded b r entries result) :=
  ((d.returnLane_only b).mono (by simp)).trans (((d.returnLane b).bistReported_only b r entries result).mono (by simp))

theorem X.returnLane_bistEnd (x : X) (r result : Nat) (hb : b = x.dev.bistOf r) :
    (x.on (fun d => d.returnLane b)).bistEnd r entries result = x.on (fun d => d.bistEnded b r entries result) := by
  have hbist : (x.on (fun d => d.returnLane b)).dev.bistOf r = b := (x.dev.bistOf_returnLane b r).trans hb.symm
  rw [X.bistEnd_eq, hbist, X.on_on]
  rfl

/-- A run of which every entry passes ends with a report of its command, and its row is idle (R371). -/
theorem bistDone_passes (hb : b = s.dev.bistOf row.val) (hrun : b.running = true) (hproc : (s.dev.proc 1).st ≠ 1) (hpass : entries.all bistPass = true)
    (hends : s.dev.bistEnds row.val b) : Completes (.bistDone row entries false) s (fun t => Keeps [.net, .rel, .cnt, .cat] s t ∧ (t.dev.bistOf row.val).running = false ∧
      t.dev.rel.report.result = 0 ∧ t.dev.rel.report.seq = s.dev.rel.report.seq + 1 ∧ t.dev.rel.report.kind = b.kind ∧ t.dev.rel.report.target = b.target ∧
      t.dev.rel.report.nonce = b.nonce ∧ t.dev.rel.report.entries = entries ∧
      (row.val < 8 → t.dev.counter 0x6051 4 row.val = (s.dev.counter 0x6051 4 row.val + 1) % 2 ^ 64)) := by
  have hrepairs : X.bistRepairs { dev := s.dev, mem := s.mem, mram := s.mram } b entries = X.on { dev := s.dev, mem := s.mem, mram := s.mram } (fun d => d.returnLane b) := by
    rw [X.bistRepairs, List.filter_eq_nil_iff.2 (fun e he => by simp [List.all_eq_true.1 hpass e he]), List.foldl_nil]
  refine bistDone_exec hb hrun hproc false false (X.on { dev := s.dev, mem := s.mem, mram := s.mram } (fun d => d.bistEnded b row.val entries 0)) hends.not_stops ?_
    ⟨(s.dev.bistEnded_only row.val 0).keeps, Dev.bistReported_running _ _ _ _ _, ?_⟩
  · rw [if_neg Bool.false_ne_true, if_neg Bool.false_ne_true, if_pos hpass, hrepairs, X.returnLane_bistEnd _ _ _ hb]
  · have hrel : (s.dev.bistEnded b row.val entries 0).rel = _ := Dev.bistReported_rel _ _ _ _ _
    have hseq : (s.dev.returnLane b).rel = s.dev.rel := (s.dev.returnLane_only b).rel (by simp)
    simp only [X.on_dev, hrel, hseq, true_and]
    intro hrow
    exact (Dev.bistReported_counter _ _ _ _ _ hrow).trans (by simp only [Dev.counter, (s.dev.returnLane_only b).cnt (by simp)])

/-- A run with an entry that fails ends with a report that says so. -/
theorem bistDone_fails (hb : b = s.dev.bistOf row.val) (hrun : b.running = true) (hproc : (s.dev.proc 1).st ≠ 1) (hfail : entries.all bistPass = false)
    (hends : s.dev.bistEnds row.val b) : Completes (.bistDone row entries false) s (fun t => t.dev.rel.report.result = 1 ∧ t.dev.rel.report.entries = entries) := by
  have hnot : ¬ entries.all bistPass = true := by simp [hfail]
  refine bistDone_exec hb hrun hproc false false _ hends.not_stops (by rw [if_neg Bool.false_ne_true, if_neg Bool.false_ne_true, if_neg hnot, X.bistEnd_eq]) ?_
  simp only [X.on_dev, Dev.bistReported_rel, and_self]

/-- A run that is cut short ends with a report that says so, and no repair. -/
theorem bistDone_aborts (hb : b = s.dev.bistOf row.val) (hrun : b.running = true) (hproc : (s.dev.proc 1).st ≠ 1) :
    Completes (.bistDone row entries true) s (fun t => Keeps [.net, .rel, .cnt, .cat] s t ∧ (t.dev.bistOf row.val).running = false ∧ t.dev.rel.report.result = 2) := by
  have hstops : s.dev.bistStops row.val b true = true := by simp only [Dev.bistStops, Bool.true_or]
  refine bistDone_exec hb hrun hproc true true (X.on { dev := s.dev, mem := s.mem, mram := s.mram } (fun d => d.bistEnded b row.val entries 2)) hstops ?_
    ⟨(s.dev.bistEnded_only row.val 2).keeps, Dev.bistReported_running _ _ _ _ _, ?_⟩
  · rw [if_pos rfl, if_pos rfl, X.returnLane_bistEnd _ _ _ hb]
  · have hrel : (s.dev.bistEnded b row.val entries 2).rel = _ := Dev.bistReported_rel _ _ _ _ _
    simp only [X.on_dev, hrel]

end BistDone

/-! ### The pending Condition Record (O58) -/

theorem recordSealDone_completes {s : State} {n : Nat} (hsealing : s.dev.rel.sealing.isSome = true) (hproc : (s.dev.proc 1).st = 0)
    (hn : n = (max s.dev.fw.lastSealed s.dev.fw.recSeq + 1) % 2 ^ 32) : Completes .recordSealDone s (fun t => Keeps [.rel, .fw] s t ∧
      t.dev.rel = { s.dev.rel with sealing := none, sealedSeq := n, changes := 0 } ∧ t.dev.fw = { s.dev.fw with lastSealed := n }) := by
  have hgo : ¬ (s.dev.rel.sealing.isNone || (s.dev.proc 1).st != 0) = true := by
    rw [Option.isNone_eq_false_iff.2 hsealing, hproc]; decide
  have hexec : exec .recordSealDone s = execRecordSealDone s := rfl
  rw [execRecordSealDone] at hexec
  subst hn
  exact completes_dev _ hexec (if_neg hgo) ⟨(((Only.refl _ s.dev).onRel _ (by simp)).with_fw _ (by simp)).keeps, rfl, rfl⟩

theorem powerOnHours_completes {s : State} (h : s.dev.fw.step = 11) : Completes .powerOnHours s (fun t => Keeps [.rel, .cat] s t ∧
    t.dev.rel.hours = (s.dev.rel.hours + 1) % 2 ^ 32 ∧ t.dev.rel.changes = (s.dev.rel.changes + 1) % 2 ^ 32) := by
  have hgo : ¬ (s.dev.fw.step != 11) = true := by simp [h]
  have hexec : exec .powerOnHours s = execPowerOnHours s := rfl
  rw [execPowerOnHours] at hexec
  refine completes_dev _ hexec (if_neg hgo) ⟨(((Only.refl _ s.dev).onRel _ (by simp)).changed 0 (by simp) (by simp)).keeps, ?_, ?_⟩
  · rw [Dev.changed_rel]; rfl
  · rw [Dev.changed_rel]; rfl

end Sys2Proof.Machine

namespace Sys2Proof.Machine

/-! ### Writes of entries whose value is a command (O58) -/

theorem length_leBytes (v n : Nat) : (leBytes v n).length = n := by
  induction n generalizing v with
  | zero => rfl
  | succ n ih => rw [leBytes, List.length_cons, ih]

/-- Little-endian bytes spell the natural that they are of, as far as they reach (R9). -/
theorem leNat_leBytes (v n : Nat) : leNat (leBytes v n) = v % 256 ^ n := by
  induction n generalizing v with
  | zero => rw [Nat.pow_zero, Nat.mod_one]; rfl
  | succ n ih =>
    have hpow : 256 ^ (n + 1) = 256 * 256 ^ n := Nat.pow_succ'
    rw [leBytes, leNat, ih, BitVec.toNat_ofNat, hpow, Nat.mod_mul]

/-- The value of a BIST_COMMAND (R375): KIND, TARGET and NONCE. -/
def bistValue (kind : Nat) (target : BitVec 16) (nonce : BitVec 256) : Nat := kind + 65536 * target.toNat + 18446744073709551616 * nonce.toNat

theorem packRow_bist (kind : Nat) (h : kind < 256) (target : BitVec 16) (nonce : BitVec 256) :
    packRow [(kind, 1), (0, 1), (target.toNat, 2), (0, 4), (nonce.toNat, 32)] = bistValue kind target nonce := by
  have ht : target.toNat % 256 ^ 2 = target.toNat := Nat.mod_eq_of_lt target.isLt
  have hn : nonce.toNat % 256 ^ 32 = nonce.toNat := Nat.mod_eq_of_lt nonce.isLt
  simp only [packRow, bistValue, ht, hn, Nat.mod_eq_of_lt h, Nat.pow_one, Nat.zero_mod]
  omega

theorem bistValue_lt (kind : Nat) (h : kind < 256) (target : BitVec 16) (nonce : BitVec 256) : bistValue kind target nonce < 256 ^ 40 := by
  have ht := target.isLt
  have hn := nonce.isLt
  simp only [bistValue]
  omega

theorem bistValue_fields (kind : Nat) (h : kind < 256) (target : BitVec 16) (nonce : BitVec 256) :
    fld (bistValue kind target nonce) 0 8 = kind ∧ fld (bistValue kind target nonce) 16 16 = target.toNat ∧
      BitVec.ofNat 256 (fld (bistValue kind target nonce) 64 256) = nonce := by
  have ht := target.isLt
  have hn := nonce.isLt
  have hnonce : fld (bistValue kind target nonce) 64 256 = nonce.toNat := by
    simp only [fld, bistValue, Nat.shiftRight_eq_div_pow]; omega
  refine ⟨?_, ?_, by rw [hnonce, BitVec.ofNat_toNat, BitVec.setWidth_eq]⟩
  · simp only [fld, bistValue, Nat.shiftRight_eq_div_pow]; omega
  · simp only [fld, bistValue, Nat.shiftRight_eq_div_pow]; omega

/-! #### A served write -/

/-- The response to a write. -/
def writeResp (rq : CatReq) (st : Nat) : Resp := { port := rq.port, opcode := 2, status := st, seq := rq.seq, data := [] }

/-- A request answered: its SEQ and response are kept, and the response is sent (R302, R303). -/
def Dev.answer (d : Dev) (rq : CatReq) (st : Nat) : Dev := (d.keep rq.port rq.seq (writeResp rq st)).respond (writeResp rq st)

/-- CATALOGUE_GENERATION counts an accepted write (R297). -/
def Dev.nextGen (d : Dev) : Dev := d.onCat (fun c => { c with gen := (c.gen + 1) % 2 ^ 64 })

theorem Dev.keep_cat (d : Dev) (p : CatPort) (n : Word) (r : Resp) : d.keep p n r = d.onCat (fun c => { c with reqs := (d.keep p n r).cat.reqs }) := by
  unfold Dev.keep; split <;> rfl

theorem Dev.answer_only (d : Dev) (rq : CatReq) (st : Nat) : Only [.cat] d (d.answer rq st) := by
  rw [Dev.answer, Dev.keep_cat]; exact ((Only.refl _ d).onCat _ (by simp)).onCat _ (by simp)

theorem Dev.answer_cat (d : Dev) (rq : CatReq) (st : Nat) :
    (d.answer rq st).cat.out = some (writeResp rq st) ∧ (d.answer rq st).cat.acc = d.cat.acc ∧ (d.answer rq st).cat.force = d.cat.force ∧ (d.answer rq st).cat.gen = d.cat.gen := by
  rw [Dev.answer, Dev.keep_cat]; exact ⟨rfl, rfl, rfl, rfl⟩

/-- The head of a write of an entry whole. -/
def writeHead (rq : CatReq) (index sub bytes : Nat) : PduHead :=
  { port := rq.port, seq := rq.seq, entry := { index := BitVec.ofNat 16 index, sub := BitVec.ofNat 8 sub }, version := 1, reservedZero := true, offset := 0,
    length := BitVec.ofNat 16 bytes }

/-- A write that is served is served as `X.serveWrite` says. -/
theorem X.writeOwn_serves (x : X) (rq : CatReq) (q : Requester) (index sub bytes val : Nat) (h : x.dev.Serves rq.port rq.seq q) (y : X) (st : Nat)
    (hy : x.serveWrite q.role (writeHead rq index sub bytes) (leBytes val bytes) none = (y, st, [])) (hpub : y.dev.cat.published = true) :
    x.writeOwn rq index sub none bytes val = y.on (fun d => d.answer rq st) := by
  obtain ⟨hp, hproc, hanon, hreq, hauth, hseq⟩ := h
  have hnot : ¬ (!x.dev.cat.published) = true := by simp [hp]
  have hwait : ¬ ((x.dev.proc 0).st == 1) = true := by simpa using hproc
  have hport : ¬ (rq.port == CatPort.anon) = true := by simpa using hanon
  have hknown : ¬ (!q.auth) = true := by simp [hauth]
  have hnew : ¬ (q.lastSeq == some rq.seq && q.kept.isSome) = true := by
    intro hsame
    have hlast := hseq rq.seq (beq_iff_eq.1 (Bool.and_eq_true_iff.1 hsame).1)
    bv_omega
  have hnext : ¬ (match q.lastSeq with | some n => n + 1 != rq.seq | none => false) = true := by
    split
    next n hn => simp [hseq n hn]
    next => exact Bool.false_ne_true
  have hout : ¬ (!y.dev.cat.published) = true := by simp [hpub]
  simp only [X.writeOwn, X.request, if_neg hnot, if_neg hwait, if_neg hport, hreq, if_neg hknown, if_neg hnew]
  refine (if_neg hnext).trans ?_
  have hserve : x.serveReq q 2 (writeHead rq index sub bytes) (leBytes val bytes) none = (y, st, []) := hy
  simp only [writeHead] at hserve
  simp only [hserve, if_neg hout]
  rfl

/-- An entry that is written whole, is not provisioned and keeps every bit written. -/
structure WrittenWhole (index sub bytes : Nat) : Prop where
  index_lt : index < 2 ^ 16
  sub_lt : sub < 2 ^ 8
  bytes_lt : bytes < 2 ^ 16
  mask : ∀ val, rowMask index sub val = val
  entry : ∀ t, entryAt index sub = some t → t.ty ≠ 12 ∧ t.rowBytes = bytes ∧ t.access ≠ 4

/-- A write of a value that does more than be set is served as its effect says (R297). -/
theorem X.serveWrite_special {x y : X} {rq : CatReq} {role : Role} {index sub bytes val st : Nat} {t : EntryInfo} (hw : WrittenWhole index sub bytes)
    (ht : entryAt index sub = some t) (hmay : x.dev.writeRefusal rq.port role t { index := BitVec.ofNat 16 index, sub := BitVec.ofNat 8 sub } = none)
    (hval : val < 256 ^ bytes) (hspecial : x.special index sub 0 val none = some (y, st)) (hpub : y.dev.cat.published = true) :
    x.serveWrite role (writeHead rq index sub bytes) (leBytes val bytes) none = (if st != stOk && st != stProgress then y else y.on Dev.nextGen, st, []) := by
  obtain ⟨hindex, hsub, hbytes, hmask, hentry⟩ := hw
  obtain ⟨hty, hrow, haccess⟩ := hentry t ht
  have hix : (BitVec.ofNat 16 index).toNat = index := Nat.mod_eq_of_lt hindex
  have hsb : (BitVec.ofNat 8 sub).toNat = sub := Nat.mod_eq_of_lt hsub
  have hlen : ¬ ((BitVec.ofNat 16 bytes).toNat != (leBytes val bytes).length) = true := by
    rw [length_leBytes, BitVec.toNat_ofNat, Nat.mod_eq_of_lt hbytes]; simp
  have htable : ¬ (t.ty == 12) = true := by simpa using hty
  have hwhole : ¬ ((0 : Word) != 0 || (leBytes val bytes).length != t.rowBytes) = true := by rw [length_leBytes, hrow]; simp
  have hnat : leNat (leBytes val bytes) = val := (leNat_leBytes val bytes).trans (Nat.mod_eq_of_lt hval)
  have hrwp : ¬ (t.access == 4 && (x.dev.proc 1).st == 1) = true := by simp [haccess]
  have hout : ¬ (!y.dev.cat.published) = true := by simp [hpub]
  have happly : x.applyRows index sub none [(0, val)] = (y, st) := by
    simp only [X.applyRows, hspecial]
    split
    · rfl
    · simp [stOk]
  simp only [X.serveWrite, writeHead, hix, hsb, ht, hmay, if_neg hlen, if_neg htable, if_neg hwhole, hnat, X.commit, if_neg hrwp, List.map_cons, List.map_nil, hmask, hspecial,
    Option.isSome_some, if_true, happly, if_neg hout]
  split
  · rfl
  · rfl

section Write
variable {i : Instr} {s : State} {rq : CatReq} {q : Requester} {index sub bytes val st : Nat} {F : Dev → Dev}

/-- The effect of a served write on the machine: what its value does, and the answer. -/
theorem write_completes {P : State → Prop} (hexec : exec i s = run s (fun x => x.writeOwn rq index sub none bytes val)) (hw : WrittenWhole index sub bytes)
    (h : s.dev.Writes rq q index sub) (hval : val < 256 ^ bytes)
    (hspecial : X.special { dev := s.dev, mem := s.mem, mram := s.mram } index sub 0 val none = some (X.on { dev := s.dev, mem := s.mem, mram := s.mram } F, st))
    (hpub : (F s.dev).cat.published = true) (hp : P { s with dev := ((if st != stOk && st != stProgress then F s.dev else (F s.dev).nextGen).answer rq st) }) : Completes i s P := by
  obtain ⟨hserves, t, ht, hmay⟩ := h
  refine completes_on (fun d => ((if st != stOk && st != stProgress then F d else (F d).nextGen).answer rq st)) hexec ?_ hp
  have hwrite := X.serveWrite_special hw ht hmay hval hspecial hpub
  refine (X.writeOwn_serves _ rq q index sub bytes val hserves _ st hwrite ?_).trans ?_
  · split
    · exact hpub
    · exact hpub
  · split
    · rfl
    · rfl

/-- A write whose value is refused changes no value (R297). -/
theorem write_refused (hexec : exec i s = run s (fun x => x.writeOwn rq index sub none bytes val)) (hw : WrittenWhole index sub bytes)
    (h : s.dev.Writes rq q index sub) (hval : val < 256 ^ bytes) (hst : (st != stOk && st != stProgress) = true)
    (hspecial : X.special { dev := s.dev, mem := s.mem, mram := s.mram } index sub 0 val none = some ({ dev := s.dev, mem := s.mem, mram := s.mram }, st)) :
    Completes i s (Refused rq st s) := by
  obtain ⟨hout, hacc, hforce, hgen⟩ := s.dev.answer_cat rq st
  refine write_completes (F := id) hexec hw h hval hspecial h.1.1 ?_
  rw [if_pos hst]
  exact ⟨hout, (s.dev.answer_only rq st).keeps, hacc, hforce, hgen⟩

/-- A write that is accepted does what its value does, is answered and counts (R297). -/
theorem write_accepted {l : List Part} (hexec : exec i s = run s (fun x => x.writeOwn rq index sub none bytes val)) (hw : WrittenWhole index sub bytes)
    (h : s.dev.Writes rq q index sub) (hval : val < 256 ^ bytes) (hst : (st != stOk && st != stProgress) = false)
    (hspecial : X.special { dev := s.dev, mem := s.mem, mram := s.mram } index sub 0 val none = some (X.on { dev := s.dev, mem := s.mem, mram := s.mram } F, st))
    (honly : Only l s.dev (F s.dev)) (hcat : Part.cat ∉ l) :
    Completes i s (fun t => Keeps (.cat :: l) s t ∧ Accepted rq st s t ∧ t.dev.rel = (F s.dev).rel ∧ t.dev.net = (F s.dev).net) := by
  have hsame : (F s.dev).cat = s.dev.cat := honly.cat hcat
  have hnext : Only [.cat] (F s.dev) (F s.dev).nextGen := (Only.refl _ _).onCat _ (by simp)
  have hend : Only [.cat] (F s.dev) ((F s.dev).nextGen.answer rq st) := hnext.trans ((F s.dev).nextGen.answer_only rq st)
  obtain ⟨hout, _, _, hgen⟩ := (F s.dev).nextGen.answer_cat rq st
  refine write_completes hexec hw h hval hspecial (by rw [hsame]; exact h.1.1) ?_
  rw [if_neg (by rw [hst]; exact Bool.false_ne_true)]
  refine ⟨((honly.mono (fun p hp => List.mem_cons_of_mem _ hp)).trans (hend.mono (by simp))).keeps, ⟨hout, hgen.trans ?_⟩, hend.rel (by simp), hend.net (by simp)⟩
  simp only [Dev.nextGen, Dev.onCat, hsame]

end Write

end Sys2Proof.Machine

namespace Sys2Proof.Machine

/-! ### BIST_COMMAND and RECORD_SEAL (O58) -/

theorem bistCommand_writtenWhole : WrittenWhole 0x6040 1 40 where
  index_lt := by decide
  sub_lt := by decide
  bytes_lt := by decide
  mask := fun _ => rfl
  entry := by
    have hentry : entryAt 0x6040 1 = some ⟨0x6040, 0x6040, 1, 1, 1, 11, 2, 0, 1, 11, 40, [0], 0⟩ := by decide +kernel
    intro t ht
    obtain rfl := Option.some.inj (hentry.symm.trans ht)
    decide

theorem recordSeal_writtenWhole : WrittenWhole 0x6030 2 1 where
  index_lt := by decide
  sub_lt := by decide
  bytes_lt := by decide
  mask := fun _ => rfl
  entry := by
    have hentry : entryAt 0x6030 2 = some ⟨0x6030, 0x6030, 1, 2, 2, 1, 2, 0, 1, 1, 1, [0], 0⟩ := by decide +kernel
    intro t ht
    obtain rfl := Option.some.inj (hentry.symm.trans ht)
    decide

theorem X.special_recordSeal (x : X) (val : Nat) : x.special 0x6030 2 0 val none = some (x.doRecordSeal val) := rfl

theorem X.special_bist (x : X) (kind : Nat) (h : kind < 256) (target : BitVec 16) (nonce : BitVec 256) :
    x.special 0x6040 1 0 (bistValue kind target nonce) none = some (x.doBist kind target.toNat nonce) := by
  obtain ⟨hkind, htarget, hnonce⟩ := bistValue_fields kind h target nonce
  have hdo : x.special 0x6040 1 0 (bistValue kind target nonce) none =
      some (x.doBist (fld (bistValue kind target nonce) 0 8) (fld (bistValue kind target nonce) 16 16) (BitVec.ofNat 256 (fld (bistValue kind target nonce) 64 256))) := rfl
  rw [hdo, hkind, htarget, hnonce]

/-! #### RECORD_SEAL (R374) -/

section RecordSeal
variable {s : State} {rq : CatReq} {q : Requester} {val : Byte}

theorem recordSeal_exec : exec (.recordSeal rq val) s = run s (fun x => x.writeOwn rq 0x6030 2 none 1 val.toNat) := rfl

theorem recordSeal_range (h : s.dev.Writes rq q 0x6030 2) (hval : 1 < val.toNat) : Completes (.recordSeal rq val) s (Refused rq 2 s) := by
  refine write_refused recordSeal_exec recordSeal_writtenWhole h (by simpa using val.isLt) rfl ?_
  rw [X.special_recordSeal, X.doRecordSeal, if_pos hval]
  rfl

theorem recordSeal_nothing (h : s.dev.Writes rq q 0x6030 2) : Completes (.recordSeal rq 0) s (fun t => Keeps [.cat] s t ∧ Accepted rq 0 s t) := by
  obtain ⟨t, hrun, hkeeps, haccepted, _⟩ := write_accepted (l := []) (F := id) (st := 0) (recordSeal_exec (s := s) (rq := rq) (val := 0)) recordSeal_writtenWhole h (by decide) rfl
    rfl (Only.refl _ _) (by simp)
  exact ⟨t, hrun, hkeeps, haccepted⟩

theorem recordSeal_busy (h : s.dev.Writes rq q 0x6030 2) (hbusy : s.dev.rel.sealing.isSome = true ∨ (s.dev.proc 1).st = 1) :
    Completes (.recordSeal rq 1) s (Refused rq 3 s) := by
  have hwait : (s.dev.rel.sealing.isSome || (s.dev.proc 1).st == 1) = true := by simpa using hbusy
  refine write_refused recordSeal_exec recordSeal_writtenWhole h (by decide) rfl ?_
  rw [X.special_recordSeal, X.doRecordSeal, if_neg (by decide), if_neg (by decide), if_pos hwait]
  rfl

theorem recordSeal_starts (h : s.dev.Writes rq q 0x6030 2) (hsealing : s.dev.rel.sealing = none) (hproc : (s.dev.proc 1).st ≠ 1) :
    Completes (.recordSeal rq 1) s (fun t => Keeps [.cat, .rel] s t ∧ Accepted rq 1 s t ∧ t.dev.rel = { s.dev.rel with sealing := some s.dev.ref }) := by
  have hfree : ¬ (s.dev.rel.sealing.isSome || (s.dev.proc 1).st == 1) = true := by simp [hsealing, hproc]
  obtain ⟨t, hrun, hkeeps, haccepted, hrel, _⟩ := write_accepted (l := [.rel]) (F := fun d => d.onRel (fun r => { r with sealing := some d.ref })) (st := 1)
    (recordSeal_exec (s := s) (rq := rq) (val := 1)) recordSeal_writtenWhole h (by decide) rfl
    (by rw [X.special_recordSeal, X.doRecordSeal, if_neg (by decide), if_neg (by decide), if_neg hfree]; rfl) ((Only.refl _ _).onRel _ (by simp)) (by simp)
  exact ⟨t, hrun, hkeeps, haccepted, hrel⟩

end RecordSeal

/-! #### BIST_COMMAND (R369, R370) -/

/-- The lane under test is out of service (R370): of a die-link bundle, which retrains, or of a seam, which pauses. -/
def Dev.testLane (d : Dev) (kind t row : Nat) : Dev :=
  match kind with
  | 4 => d.setBund (t / 68) (fun b => { b with failed := putBit b.failed (t % 68) true, want := true })
  | 5 => d.setSeam (t / 27) (fun k =>
      { k with failed := putBit k.failed (t % 27) true, spareFor := if k.spareFor.isNone && t % 27 != 26 then some (t % 27) else k.spareFor,
               pauseEnd := (d.die row).root + 2048 * 4 })
  | _ => d

/-- The start of a self-test (R369). -/
def Dev.bistStart (d : Dev) (row kind t : Nat) (nonce : BitVec 256) : Dev :=
  (d.onRel (fun r => { r with bist := kset r.bist row { running := true, kind, target := t, nonce, start := d.ref } })).testLane kind t row

theorem Dev.testLane_only (d : Dev) (kind t row : Nat) : Only [.net] d (d.testLane kind t row) := by
  unfold Dev.testLane
  split
  · exact (Only.refl _ d).setBund _ _ (by simp)
  · exact (Only.refl _ d).setSeam _ _ (by simp)
  · exact Only.refl _ d

theorem Dev.testLane_none (d : Dev) (kind t row : Nat) (h4 : kind ≠ 4) (h5 : kind ≠ 5) : d.testLane kind t row = d := by
  unfold Dev.testLane
  split
  · exact absurd rfl h4
  · exact absurd rfl h5
  · rfl

theorem Dev.bistStart_only (d : Dev) (row kind t : Nat) (nonce : BitVec 256) : Only [.rel, .net] d (d.bistStart row kind t nonce) :=
  ((Only.refl _ d).onRel _ (by simp)).trans ((Dev.testLane_only _ kind t row).mono (by simp))

theorem Dev.bistStart_bistOf (d : Dev) (row kind t : Nat) (nonce : BitVec 256) :
    (d.bistStart row kind t nonce).bistOf row = { running := true, kind, target := t, nonce, start := d.ref } := by
  simp only [Dev.bistOf, Dev.bistStart, (Dev.testLane_only _ kind t row).rel (by simp), Dev.onRel_rel, kget_kset]

theorem Dev.bistStart_bund (d : Dev) (row t : Nat) (nonce : BitVec 256) :
    ((d.bistStart row 4 t nonce).bund (t / 68)).failed.getLsbD (t % 68) = true ∧ ((d.bistStart row 4 t nonce).bund (t / 68)).want = true := by
  simp only [Dev.bistStart, Dev.testLane, Dev.bund, Dev.setBund, Dev.onNet, kget_kupd, putBit_getLsbD_same _ _ _ (Nat.mod_lt t (by decide : 0 < 68)), and_self]

theorem Dev.bistStart_seam (d : Dev) (row t : Nat) (nonce : BitVec 256) : ((d.bistStart row 5 t nonce).seam (t / 27)).failed.getLsbD (t % 27) = true := by
  simp only [Dev.bistStart, Dev.testLane, Dev.seam, Dev.setSeam, Dev.onNet, kget_kupd, putBit_getLsbD_same _ _ _ (Nat.mod_lt t (by decide : 0 < 27))]

theorem X.doBist_range (x : X) (kind t : Nat) (nonce : BitVec 256) (h : bistRow kind t = none) : x.doBist kind t nonce = (x, 2) := by
  simp only [X.doBist, h]; rfl

/-- A run that may not start: its row or target is in use, the device is stopped, or its die stands still. -/
def Dev.bistWaits (d : Dev) (row kind t : Nat) : Prop :=
  d.bistBusy row kind = true ∨ d.bistAllowed kind t = false ∨ d.dbg.stopped = true ∨ (row < 8 ∧ d.runs row = false)

theorem Dev.bistWaits_iff (d : Dev) (row kind t : Nat) :
    d.bistWaits row kind t ↔ (d.bistBusy row kind || !d.bistAllowed kind t || d.dbg.stopped || (decide (row < 8) && !d.runs row)) = true := by
  simp only [Dev.bistWaits, Bool.or_eq_true, Bool.and_eq_true, Bool.not_eq_true', decide_eq_true_eq, or_assoc]

theorem X.doBist_waits (x : X) (row kind t : Nat) (nonce : BitVec 256) (hrow : bistRow kind t = some row) (h : x.dev.bistWaits row kind t) : x.doBist kind t nonce = (x, 3) := by
  simp only [X.doBist, hrow]
  exact if_pos ((x.dev.bistWaits_iff row kind t).1 h)

theorem X.doBist_starts (x : X) (row kind t : Nat) (nonce : BitVec 256) (hrow : bistRow kind t = some row) (h : ¬ x.dev.bistWaits row kind t) :
    x.doBist kind t nonce = (x.on (fun d => d.bistStart row kind t nonce), 1) := by
  simp only [X.doBist, hrow]
  refine (if_neg (mt (x.dev.bistWaits_iff row kind t).2 h)).trans ?_
  split
  · rfl
  · rfl
  case h_3 h4 h5 => simp only [Dev.bistStart, Dev.testLane_none _ kind t row h4 h5]; rfl

section Bist
variable {i : Instr} {s : State} {rq : CatReq} {q : Requester} {kind : Nat} {target : BitVec 16} {nonce : BitVec 256}

theorem writeBist_exec (hkind : kind < 256) (hexec : exec i s = run s (fun x => x.writeBist rq kind target nonce)) :
    exec i s = run s (fun x => x.writeOwn rq 0x6040 1 none 40 (bistValue kind target nonce)) := by
  simp only [hexec, X.writeBist, packRow_bist kind hkind]

theorem writeBist_refused (hkind : kind < 256) (hexec : exec i s = run s (fun x => x.writeBist rq kind target nonce)) (h : s.dev.Writes rq q 0x6040 1) (st : Nat)
    (hst : (st != stOk && st != stProgress) = true)
    (hdo : X.doBist { dev := s.dev, mem := s.mem, mram := s.mram } kind target.toNat nonce = ({ dev := s.dev, mem := s.mem, mram := s.mram }, st)) : Completes i s (Refused rq st s) := by
  refine write_refused (writeBist_exec hkind hexec) bistCommand_writtenWhole h (bistValue_lt kind hkind target nonce) hst ?_
  rw [X.special_bist _ kind hkind, hdo]

theorem writeBist_starts (hkind : kind < 256) (hexec : exec i s = run s (fun x => x.writeBist rq kind target nonce)) (h : s.dev.Writes rq q 0x6040 1) (row : Nat)
    (hrow : bistRow kind target.toNat = some row) (hfree : ¬ s.dev.bistWaits row kind target.toNat) : Completes i s (fun t => Accepted rq 1 s t ∧
      Keeps [.cat, .rel, .net] s t ∧ t.dev.bistOf row = { running := true, kind := kind, target := target.toNat, nonce := nonce, start := s.dev.ref } ∧
      (kind = 4 → (t.dev.bund (target.toNat / 68)).failed.getLsbD (target.toNat % 68) = true ∧ (t.dev.bund (target.toNat / 68)).want = true) ∧
      (kind = 5 → (t.dev.seam (target.toNat / 27)).failed.getLsbD (target.toNat % 27) = true)) := by
  obtain ⟨t, hrun, hkeeps, haccepted, hrel, hnet⟩ := write_accepted (st := 1) (F := fun d => d.bistStart row kind target.toNat nonce) (writeBist_exec hkind hexec) bistCommand_writtenWhole h
    (bistValue_lt kind hkind target nonce) rfl (by rw [X.special_bist _ kind hkind, X.doBist_starts _ row _ _ _ hrow hfree]) (s.dev.bistStart_only row kind target.toNat nonce) (by simp)
  refine ⟨t, hrun, haccepted, hkeeps, ?_, ?_, ?_⟩
  · rw [Dev.bistOf, hrel]; exact s.dev.bistStart_bistOf row kind target.toNat nonce
  · rintro rfl
    rw [Dev.bund, hnet]; exact s.dev.bistStart_bund row target.toNat nonce
  · rintro rfl
    rw [Dev.seam, hnet]; exact s.dev.bistStart_seam row target.toNat nonce

end Bist

end Sys2Proof.Machine

namespace Sys2Proof.Machine

/-! ### O58 -/

theorem clockLoss_die_completes {s : State} {d : DieId} (k : BitVec 3) (h : s.dev.runs d.toNat = true) : Completes (.clockLoss (.die d k)) s (fun t => Keeps [.clk, .rel] s t ∧
    t.dev.runs d.toNat = false ∧ t.dev.rel.clockLost.getLsbD d.toNat = true ∧
    ((s.dev.proc (10 + d.toNat)).st ≠ 1 → ∃ r ∈ t.dev.rel.log, r.ukind = 10 ∧ r.unit = d.toNat * 8 + k.toNat ∧ r.cls = 6 ∧ r.outcome = 3 ∧ r.seq = s.dev.rel.next)) :=
  ⟨_, clockLoss_die s d k h, (s.dev.clockLose_only _ _).keeps, s.dev.clockLose_runs _ _, s.dev.clockLose_clockLost _ _ d.isLt, s.dev.clockLose_logs _ _⟩

theorem clockLoss_rootPll_completes {s : State} {d : DieId} (h : s.dev.runs d.toNat = true) : Completes (.clockLoss (.rootPll d)) s (fun t =>
    Keeps [.clk, .rel, .fresh] s t ∧ t.dev.runs d.toNat = false ∧ t.dev.rel.clockLost.getLsbD d.toNat = true) :=
  ⟨_, clockLoss_rootPll s d h, (((Only.refl _ s.dev).with_fresh _ (by simp)).trans ((Dev.clockLose_only _ _ _).mono (by simp))).keeps,
    Dev.clockLose_runs _ _ _, Dev.clockLose_clockLost _ _ _ d.isLt⟩

/-- Settles O58, clause by clause: each names the lemma above that says what its command does. -/
theorem faultsAreContainedAndTested : Obligations.FaultsAreContainedAndTested := by
  unfold Obligations.FaultsAreContainedAndTested
  rintro s d _ rfl
  refine ⟨fun k => clockLoss_die_completes k, clockLoss_rootPll_completes, fatalReset_fatallyReset s, fun _ => fatalReset_fatallyReset s, fatalReset_fatallyReset s,
    ?fence, ?rejoin, ?rejoined, ?repair, ?scrub, ?way, ?laser, ?bist, ?swap, ?report, ?sealRequest, ?sealDone, powerOnHours_completes⟩
  case fence =>
    intro cause hstep hfence hout hclock htrip hpeer
    have hcause : s.dev.fenceCause d.toNat cause := by
      cases cause with
      | clock => exact hclock rfl
      | trip => exact htrip rfl
      | command => exact trivial
      | peerLost => exact hpeer rfl
    exact dieFence_completes s d cause ⟨hstep, hfence, hout⟩ hcause
  case rejoin => exact fun hfence hbarred hrejoining hclear hstop => dieRejoin_completes s d ⟨hfence, hbarred, hrejoining, hclear, hstop⟩
  case rejoined => exact fun channels hrejoining hstop => ⟨dieRejoined_fails s d channels hrejoining hstop, dieRejoined_passes s d channels hrejoining hstop⟩
  case repair =>
    rintro l failed bad hst hstop hvits rfl
    have hmay : s.dev.mayEndRepair l := ⟨hst, hstop, hvits⟩
    exact ⟨repairDone_restarts failed hmay, repairDone_stays failed hmay, fun c p n => repairDone_retires failed c p n hmay⟩
  case scrub =>
    intro store unit key now v hruns hkey hdue
    exact ⟨sramScrub_clean hruns hkey hdue, sramScrub_corrects hruns hkey hdue, sramScrub_fails hruns hkey hdue⟩
  case way =>
    rintro sl way v rfl hruns
    exact ⟨waySubstitute_spares hruns, fun old hspare hne _ => waySubstitute_withdraws hruns hspare hne, waySubstitute_again hruns⟩
  case laser =>
    rintro lg _ region group n q rfl hplace hq hstep hregion hdue
    obtain ⟨rfl, rfl⟩ := Prod.mk.inj hplace
    have hcheck : s.dev.laserDue lg.val := ⟨hstep, hregion, hdue⟩
    exact ⟨laserCheck_clean hcheck, laserCheck_spares hcheck hq, fun m hn hnot hused => laserCheck_linkOut hcheck hq hn hnot hused⟩
  case bist =>
    intro rq q kind target nonce c hwrites hc
    have hexec : kind < 256 ∧ exec c s = run s (fun x => x.writeBist rq kind target nonce) := by
      rcases hc with ⟨rfl, rfl⟩ | ⟨rfl, rfl⟩ | ⟨rfl, rfl⟩ | ⟨rfl, rfl⟩ | ⟨rfl, rfl⟩ | ⟨rfl, rfl⟩ | ⟨rfl, rfl⟩ | ⟨rfl, rfl⟩ | ⟨rfl, rfl⟩ <;> exact ⟨by decide, rfl⟩
    obtain ⟨hkind, hexec⟩ := hexec
    refine ⟨fun hrow => writeBist_refused hkind hexec hwrites 2 rfl (X.doBist_range _ _ _ _ hrow), fun row hrow => ⟨fun hwait => ?_, fun hbusy hallowed hstop hruns => ?_⟩⟩
    · exact writeBist_refused hkind hexec hwrites 3 rfl (X.doBist_waits _ row _ _ _ hrow hwait)
    · refine writeBist_starts hkind hexec hwrites row hrow (fun hwait => ?_)
      rcases hwait with h | h | h | ⟨h8, h⟩
      · exact Bool.false_ne_true (hbusy.symm.trans h)
      · exact Bool.false_ne_true (h.symm.trans hallowed)
      · exact Bool.false_ne_true (hstop.symm.trans h)
      · exact Bool.false_ne_true (h.symm.trans (hruns h8))
  case swap =>
    intro v p j hp hruns hstep hops hl1 b hb
    have hquiet : s.dev.swapQuiet v := ⟨hruns, hstep, hops⟩
    exact ⟨bistSlotSwap_takes hp hquiet hl1 hb, bistSlotSwap_returns hp hquiet hl1 hb⟩
  case report =>
    intro row entries b hb hrun hproc
    exact ⟨fun hpass hstop hruns hjob => bistDone_passes hb hrun hproc hpass ⟨hstop, hruns, hjob⟩, fun hfail hstop hruns hjob => bistDone_fails hb hrun hproc hfail ⟨hstop, hruns, hjob⟩,
      bistDone_aborts hb hrun hproc⟩
  case sealRequest => exact fun rq q val hwrites => ⟨recordSeal_range hwrites, recordSeal_nothing hwrites, recordSeal_busy hwrites, recordSeal_starts hwrites⟩
  case sealDone => exact fun hsealing hproc n => recordSealDone_completes hsealing hproc

end Sys2Proof.Machine

namespace Sys2Proof.Machine

/-! ### Group instructions that change their group alone -/

/-- A group instruction whose effect, once its group may issue, is a change of the group completes, and what it leaves is the group changed and settled. -/
theorem completes_stepGrp {i : Instr} {s : State} {g : GRef} {cls : IClass} {b : Block} {q : Group} {p : RPath} {f : Block → Group → RPath → X → X}
    {P : State → Prop} (F : Group → Group) (hexec : exec i s = onGroup s g cls f) (h : s.dev.Issues g cls b q p)
    (hf : f b q p { dev := s.dev.issue g cls, mem := s.mem, mram := s.mram } =
      X.on { dev := s.dev.issue g cls, mem := s.mem, mram := s.mram } (fun d => d.stepGrp g F))
    (hp : ∀ t, OnlyGroup g s t → t.dev.groupOf g = (F q).settled → P t) : Completes i s P := by
  have hgrp : (s.dev.issue g cls).grp g = some (b, q) := (Dev.grp_issue _ _ _ _).trans h.2.1
  have hnext : exec i s = .next { s with dev := (s.dev.issue g cls).stepGrp g F } := by
    rw [hexec, onGroup_issues s g cls f b q p h, run_eq, hf]; rfl
  exact ⟨_, hnext, hp _ (onlyGroup_issue s g cls F) (Dev.groupOf_stepGrp _ g F b q hgrp)⟩

/-- As `completes_stepGrp`, for an instruction that names registers, all of them ready. -/
theorem completes_withRegs {i : Instr} {s : State} {g : GRef} {cls : IClass} {b : Block} {q : Group} {p : RPath} {f : Block → Group → RPath → X → X}
    {P : State → Prop} (l : List Nat) (F : Group → Group) (hexec : exec i s = onGroup s g cls f) (h : s.dev.Issues g cls b q p) (hready : Ready b q l)
    (hf : f b q p { dev := s.dev.issue g cls, mem := s.mem, mram := s.mram } =
      X.withRegs { dev := s.dev.issue g cls, mem := s.mem, mram := s.mram } g b p l (fun x => x.on (fun d => d.stepGrp g F)))
    (hp : ∀ t, OnlyGroup g s t → t.dev.groupOf g = (F q).settled → P t) : Completes i s P :=
  completes_stepGrp F hexec h (hf.trans (X.withRegs_ready _ g b q p l _ ((Dev.grp_iff _ _ _ _).1 h.2.1).2 hready)) hp

theorem Ready.mono {b : Block} {q : Group} {l m : List Nat} (h : Ready b q l) (hm : ∀ r ∈ m, r ∈ l) : Ready b q m :=
  ⟨fun r hr => h.1 r (hm r hr), fun r hr hin => h.2 r hr (hm _ hin)⟩

theorem Group.settled_regs (q : Group) : q.settled.regs = q.regs := by rw [Group.settled_eq]
theorem Group.settled_paths (q : Group) : q.settled.paths = q.paths := by rw [Group.settled_eq]
theorem Group.settled_stack (q : Group) : q.settled.stack = q.stack := by rw [Group.settled_eq]

/-- A group that has only gone on to its next instruction. -/
theorem wentOn_settled_next {q : Group} {p : RPath} (h : q.paths.head? = some p) : WentOn q q.next.settled p := by
  rw [WentOn, Group.next_eq q p q.paths.tail (paths_of_head h)]
  exact Group.settled_eq _

end Sys2Proof.Machine

namespace Sys2Proof.Machine

/-! ### The values of shifts and of conversions to integers (O29) -/

theorem shift32_of_lt {op : ShiftOp} {a amt : Word} (h : amt.toNat < 32) :
    shift32 op a amt = match op with | .shl => a <<< amt.toNat | .shr => a >>> amt.toNat | .sar => a.sshiftRight amt.toNat := by
  cases op <;> simp only [shift32, if_pos h]

theorem shift32_of_ge {op : ShiftOp} {a amt : Word} (h : 32 ≤ amt.toNat) :
    shift32 op a amt = match op with | .shl => 0 | .shr => 0 | .sar => if a.toInt < 0 then BitVec.allOnes 32 else 0 := by
  cases op with
  | sar =>
    have hsign : a.getLsbD 31 = decide (a.toInt < 0) := by rw [← BitVec.msb_eq_toInt]; rfl
    simp only [shift32, if_neg (Nat.not_lt.2 h), hsign, decide_eq_true_eq]
    rfl
  | _ => simp only [shift32, if_neg (Nat.not_lt.2 h)]

/-- The integers that a rounding mode allows for a quotient are one: two nearest ones, an even one on a tie, are the same. -/
theorem RoundsTo.unique {mode : RMode} {n : Int} {d : Nat} {i j : Int} (hd : 0 < d) (hi : RoundsTo mode n d i) (hj : RoundsTo mode n d j) : i = j := by
  cases mode with
  | rne =>
    obtain ⟨hi, hieven⟩ := hi
    obtain ⟨hj, hjeven⟩ := hj
    have hdiff : ((i - j) * d).natAbs ≤ d := by
      have : (i - j) * (d : Int) = (i * d - n) - (j * d - n) := by ring
      omega
    rw [Int.natAbs_mul, Int.natAbs_natCast] at hdiff
    have hnear : (i - j).natAbs ≤ 1 := Nat.le_of_mul_le_mul_right (by omega) hd
    rcases Nat.le_one_iff_eq_zero_or_eq_one.1 hnear with h | h
    · omega
    · have hone : i * (d : Int) = j * d + d ∨ i * (d : Int) = j * d - d := by
        rcases Int.natAbs_eq (i - j) with e | e <;> rw [h] at e
        · left; rw [show i = j + 1 by omega]; ring
        · right; rw [show i = j - 1 by omega]; ring
      have := hieven (by omega)
      have := hjeven (by omega)
      omega
  | _ => exact Eq.trans hi (Eq.symm hj)

/-- The sign of a value, as a factor. -/
def signOf (neg : Bool) : Int := if neg then -1 else 1

theorem fdiv_eq_of_bounds {n i : Int} {d : Nat} (hd : 0 < d) (hlo : i * d ≤ n) (hhi : n < i * d + d) : n.fdiv d = i := by
  rw [Int.fdiv_eq_ediv_of_nonneg _ (Int.natCast_nonneg d)]
  have h := Int.ediv_emod_unique (a := n) (b := d) (r := n - i * d) (q := i) (by exact_mod_cast hd)
  exact (h.2 ⟨by ring, by omega, by omega⟩).1

/-- A magnitude shifted right by `s` places and rounded as the model rounds is the value of R59 under its mode. -/
theorem roundUp_roundsTo (mode : RMode) (neg : Bool) (m s : Nat) :
    RoundsTo mode (signOf neg * m) (2 ^ s) (signOf neg * (if roundUp mode neg (m / 2 ^ s) (m % 2 ^ s) s then m / 2 ^ s + 1 else m / 2 ^ s : Nat)) := by
  have hd : 0 < 2 ^ s := Nat.two_pow_pos s
  have hm : (m : Int) = (m / 2 ^ s : Nat) * (2 ^ s : Nat) + (m % 2 ^ s : Nat) := by
    exact_mod_cast (Nat.div_add_mod' m (2 ^ s)).symm
  have hr : m % 2 ^ s < 2 ^ s := Nat.mod_lt m hd
  have htdiv : (m : Int).tdiv (2 ^ s : Nat) = (m / 2 ^ s : Nat) := rfl
  unfold roundUp
  generalize m / 2 ^ s = k at hm htdiv ⊢
  generalize m % 2 ^ s = r at hm hr ⊢
  generalize (2 ^ s) = d at hd hm hr htdiv ⊢
  cases mode with
  | rz =>
    cases neg
    · simpa [RoundsTo, signOf] using htdiv.symm
    · simpa [RoundsTo, signOf, Int.neg_tdiv] using htdiv.symm
  | rm =>
    refine (fdiv_eq_of_bounds hd ?_ ?_).symm
    all_goals
      cases neg with
      | false => simp [signOf]; omega
      | true => by_cases hexact : r = 0 <;> simp [signOf, hexact, add_mul] <;> omega
  | rp =>
    refine neg_eq_iff_eq_neg.1 (fdiv_eq_of_bounds hd ?_ ?_).symm
    all_goals
      cases neg with
      | false => by_cases hexact : r = 0 <;> simp [signOf, hexact, add_mul] <;> omega
      | true => simp [signOf]; omega
  | rne =>
    simp only [RoundsTo]
    rcases lt_trichotomy (2 * r) d with hlt | htie | hgt
    · cases neg <;> simp [signOf, hlt.not_gt, hlt.ne] <;> omega
    · rcases Nat.mod_two_eq_zero_or_one k with hk | hk
      · cases neg <;> simp [signOf, htie, hk] <;> omega
      · cases neg <;> simp [signOf, htie, hk, add_mul] <;> omega
    · cases neg <;> simp [signOf, hgt, add_mul] <;> omega

/-- A value as a multiple of 1, rounded under a mode: the multiple of R59, and whether it differs. -/
theorem toQuantum_zero (mode : RMode) (neg : Bool) (m : Nat) (e : Int) :
    RoundsTo mode (signOf neg * (m * 2 ^ e.toNat : Nat)) (2 ^ (-e).toNat) (signOf neg * (toQuantum mode neg m e 0).1) ∧
      ((toQuantum mode neg m e 0).2 = false ↔ m * 2 ^ e.toNat = (toQuantum mode neg m e 0).1 * 2 ^ (-e).toNat) := by
  by_cases he : 0 ≤ e
  · have hexact : toQuantum mode neg m e 0 = (m * 2 ^ e.toNat, false) := by simp only [toQuantum, if_pos he, Int.sub_zero]
    have hpow : (-e).toNat = 0 := by omega
    have hround := roundUp_roundsTo mode neg (m * 2 ^ e.toNat) 0
    have hno : roundUp mode neg (m * 2 ^ e.toNat) 0 0 = false := by cases mode <;> simp [roundUp]
    simp only [pow_zero, Nat.div_one, Nat.mod_one, hno] at hround
    rw [hexact, hpow]
    exact ⟨hround, by simp⟩
  · have hshift : toQuantum mode neg m e 0 = (if roundUp mode neg (m / 2 ^ (-e).toNat) (m % 2 ^ (-e).toNat) (-e).toNat then m / 2 ^ (-e).toNat + 1
        else m / 2 ^ (-e).toNat, decide (m % 2 ^ (-e).toNat ≠ 0)) := by simp only [toQuantum, if_neg he, Int.zero_sub]
    have hpow : e.toNat = 0 := by omega
    rw [hshift, hpow, pow_zero, Nat.mul_one]
    refine ⟨roundUp_roundsTo mode neg m (-e).toNat, ?_⟩
    have hexact : m % 2 ^ (-e).toNat = 0 → roundUp mode neg (m / 2 ^ (-e).toNat) (m % 2 ^ (-e).toNat) (-e).toNat = false := fun h => by
      have hpos : 2 ^ (-e).toNat ≠ 0 := (Nat.two_pow_pos _).ne'
      rw [h]; cases mode <;> simp [roundUp, hpos.symm]
    simp only [decide_eq_false_iff_not, not_not]
    refine ⟨fun h => ?_, fun h => ?_⟩
    · rw [hexact h, if_neg Bool.false_ne_true]; exact (Nat.div_mul_cancel (Nat.dvd_of_mod_eq_zero h)).symm
    · rw [h]; exact Nat.mul_mod_left _ _

theorem signOf_mul (neg : Bool) (r : Nat) : (if neg then -(r : Int) else r) = signOf neg * r := by cases neg <;> simp [signOf]

theorem signOf_mul_inj {neg : Bool} {x y : Int} : signOf neg * x = signOf neg * y ↔ x = y := by cases neg <;> simp [signOf]

/-- A finite value converts to the integer `i` it rounds to, or to the end of the range that `i` lies beyond (R462). -/
theorem fpToInt_fin {signed : Bool} {mode : RMode} {a : Word} {neg : Bool} {m : Nat} {e i : Int} (ha : val32 a = .fin neg m e)
    (hi : RoundsTo mode (signOf neg * (m * 2 ^ e.toNat : Nat)) (2 ^ (-e).toNat) i) :
    fpToInt signed mode a =
      if i < (if signed then -2147483648 else 0) then (if signed then 0x80000000 else 0, flInvalid)
      else if (if signed then 2147483647 else 4294967295) < i then (if signed then 0x7FFFFFFF else 0xFFFFFFFF, flInvalid)
      else (BitVec.ofInt 32 i, if signOf neg * ((m * 2 ^ e.toNat : Nat) : Int) = i * (2 ^ (-e).toNat : Nat) then 0 else flInexact) := by
  obtain ⟨hround, hexact⟩ := toQuantum_zero mode neg m e
  obtain rfl := hi.unique (Nat.two_pow_pos _) hround
  have hflag : (signOf neg * ((m * 2 ^ e.toNat : Nat) : Int) = signOf neg * (toQuantum mode neg m e 0).1 * (2 ^ (-e).toNat : Nat)) ↔
      (toQuantum mode neg m e 0).2 = false := by
    rw [mul_assoc, signOf_mul_inj, hexact]; exact_mod_cast Iff.rfl
  simp only [fpToInt, ha, signOf_mul, hflag]
  generalize toQuantum mode neg m e 0 = r
  obtain ⟨r, inexact⟩ := r
  cases signed <;> cases inexact <;> rfl

theorem fpToInt_nan {signed : Bool} {mode : RMode} {a : Word} (ha : val32 a = .nan) : fpToInt signed mode a = (0, flInvalid) := by
  simp only [fpToInt, ha]

theorem fpToInt_inf {signed : Bool} {mode : RMode} {a : Word} {neg : Bool} (ha : val32 a = .inf neg) :
    fpToInt signed mode a = (if neg then (if signed then 0x80000000 else 0) else (if signed then 0x7FFFFFFF else 0xFFFFFFFF), flInvalid) := by
  simp only [fpToInt, ha]
  cases signed <;> cases neg <;> rfl

/-- Settles O29: each active lane takes the value of `shift32` or of `fpToInt` with its flags, and these are the values of R462. -/
theorem shiftsAndIntegerConversionsGiveTheRulesValues : Obligations.ShiftsAndIntegerConversionsGiveTheRulesValues := by
  intro s g b q p dst x amt h hready
  have hpaths : q.paths.head? = some p := h.2.2.1
  refine ⟨fun op => ?_, fun signed mode => ?_⟩
  · have hexec : exec (.shift g op dst x amt true) s = execShift g op dst x amt true s := rfl
    rw [execShift] at hexec
    let w : Nat → Word := fun l => shift32 op (q.reg x.toNat l) (q.reg amt.toNat l)
    refine completes_withRegs [x.toNat, amt.toNat, dst.toNat] (fun k => k.vwrite dst.toNat p.mask (fun l => .word (w l) 0)) hexec h hready rfl (fun t honly hgrp => ?_)
    exact ⟨honly, w, hgrp ▸ wrote_vwrite q p dst.toNat w (fun _ => 0) hpaths, fun l => ⟨shift32_of_lt, shift32_of_ge⟩⟩
  · have hexec : exec (.fp32ToIntegerConversion g signed mode dst x true) s = execFp32ToIntegerConversion g signed mode dst x true s := rfl
    rw [execFp32ToIntegerConversion] at hexec
    let r : Nat → Word × Flags := fun l => fpToInt signed mode (q.reg x.toNat l)
    refine completes_withRegs [x.toNat, dst.toNat] (fun k => k.vwrite dst.toNat p.mask (fun l => .word (r l).1 (r l).2)) hexec h (hready.mono (by simp)) rfl
      (fun t honly hgrp => ⟨honly, fun l => (r l).1, fun l => (r l).2, hgrp ▸ wrote_vwrite q p dst.toNat _ _ hpaths, fun l => ⟨fun hnan => ?_, fun neg hinf => ?_,
        fun neg m e i hfin hround => ?_⟩⟩)
    · simp only [r, fpToInt_nan hnan, and_self]
    · simp only [r, fpToInt_inf hinf, and_self]
    · have hval := fpToInt_fin (signed := signed) hfin hround
      by_cases hlo : i < (if signed then -2147483648 else 0)
      · rw [if_pos hlo] at hval ⊢
        exact Prod.ext_iff.1 hval
      · rw [if_neg hlo] at hval ⊢
        by_cases hhi : (if signed then 2147483647 else 4294967295) < i
        · rw [if_pos hhi] at hval ⊢
          exact Prod.ext_iff.1 hval
        · rw [if_neg hhi] at hval ⊢
          exact Prod.ext_iff.1 hval

end Sys2Proof.Machine

namespace Sys2Proof.Machine

/-! ### Divergence (O10) -/

/-- What the end of a wait or of a divergence leaves of a group: its exited threads, its registers and its flags. -/
def Group.data (q : Group) : Mask × KMap Word × Flags := (q.exited, q.regs, q.flags)

theorem Group.data_popJoins (q : Group) : q.popJoins.data = q.data := by
  refine foldl_keeps Group.data _ (fun h _ => ?_) _ _
  split
  · split
    · dsimp only
      split
      · split <;> rfl
      · rfl
    · rfl
  · rfl

theorem Group.data_tryBarG (q : Group) : q.tryBarG.data = q.data := by
  simp only [Group.tryBarG]
  split <;> rfl

theorem Block.data_tryBarB (b : Block) (id : BitVec 4) : (b.tryBarB id).groups.map Group.data = b.groups.map Group.data := by
  simp only [Block.tryBarB]
  split
  · rw [List.map_map]; rfl
  · rfl

theorem Block.data_tryBars (b : Block) : b.tryBars.groups.map Group.data = b.groups.map Group.data :=
  foldl_keeps (fun a : Block => a.groups.map Group.data) _ (fun a _ => a.data_tryBarB _) _ _

theorem Block.data_refresh (b : Block) (now : Nat) : (b.refresh now).groups.map Group.data = b.groups.map Group.data := by
  simp only [Block.refresh, List.map_map]
  refine List.map_congr_left (fun q _ => ?_)
  simp only [Function.comp_apply]
  split <;> rfl

/-- A change of a group and then of its block that keeps the data of its groups leaves the group the data that its change gives it. -/
theorem Dev.data_updGrp_updBlk {d : Dev} {g : GRef} {b : Block} {q : Group} (F : Group → Group) {B : Block → Block} (h : d.grp g = some (b, q))
    (hB : ∀ a, (B a).groups.map Group.data = a.groups.map Group.data) :
    ∃ k, (((d.updGrp g F).updBlk g.core g.slot.toNat B).grp g).map (fun e => e.2) = some k ∧ k.data = (F q).data := by
  obtain ⟨hb, hq⟩ := (Dev.grp_iff d g b q).1 h
  have hblk : ((d.updGrp g F).updBlk g.core g.slot.toNat B).blk g.core g.slot.toNat = some (B { b with groups := setNth b.groups g.grp.toNat (F q) }) := by
    rw [Dev.blk_updBlk, Dev.updGrp, Dev.blk_updBlk, hb]
    simp only [Option.map_some, hq]
  have hdata : ((B { b with groups := setNth b.groups g.grp.toNat (F q) }).groups[g.grp.toNat]?).map Group.data = some (F q).data := by
    rw [← List.getElem?_map, hB, List.getElem?_map, getElem?_setNth, hq]
    simp
  obtain ⟨k, hk, hkd⟩ := Option.map_eq_some_iff.1 hdata
  exact ⟨k, by rw [(Dev.grp_iff _ g _ k).2 ⟨hblk, hk⟩]; rfl, hkd⟩

theorem Keeps.of_cores {s : State} {e : Dev} (h : e = { s.dev with cores := e.cores }) : Keeps [.cores] s { s with dev := e } := by
  refine ⟨rfl, fun p hp => ?_⟩
  rw [h]
  cases p <;> first | rfl | exact absurd (List.mem_singleton.2 rfl) hp

/-- EXIT (R36, R48). -/
theorem exit_completes {s : State} {g : GRef} {b : Block} {q : Group} {p : RPath} (h : s.dev.Issues g .b b q p) :
    Completes (.exit g) s (fun t => Keeps [.cores] s t ∧ (∀ c, c ≠ g.core → t.dev.core c = s.dev.core c) ∧
      ∃ k, (t.dev.grp g).map (fun e => e.2) = some k ∧ k.exited = q.exited ||| p.mask ∧ k.regs = q.regs ∧ k.flags = q.flags) := by
  have hexec : exec (.exit g) s = execExit g s := rfl
  rw [execExit, onGroup_issues s g .b _ b q p h, run_on] at hexec
  refine ⟨_, hexec, Keeps.of_cores ?_, fun c hc => ?_, ?_⟩
  · dsimp only
    rw [Dev.updBlk_eq, Dev.updGrp_eq]; rfl
  · dsimp only
    rw [Dev.core_updBlk_ne _ _ _ _ _ hc, Dev.updGrp, Dev.core_updBlk_ne _ _ _ _ _ hc, Dev.core_issue_ne _ _ _ _ hc]
  · obtain ⟨k, hk, hdata⟩ := Dev.data_updGrp_updBlk (d := s.dev.issue g .b) _ ((Dev.grp_issue _ _ _ _).trans h.2.1)
      (fun a => (Block.data_refresh a.tryBars _).trans a.data_tryBars)
    refine ⟨k, hk, ?_⟩
    rw [Group.data_tryBarG, Group.data_popJoins] at hdata
    simp only [Group.data, Prod.mk.injEq] at hdata
    exact hdata

section Branch
variable {s : State} {g : GRef} {b : Block} {q : Group} {p : RPath}

/-- The group after a divergence (R47): an entry for its running threads, and their paths in place of the running one. -/
def Group.diverged (q : Group) (p : RPath) (joinAt : Addr) (paths : List RPath) : Group :=
  { q with stack := { joinAt, mask := p.mask, arrived := 0 } :: q.stack, paths := paths ++ q.paths.tail }

theorem X.diverge_of_room (x : X) (joinAt : Addr) (paths : List RPath) (h : q.stack.length < 32) :
    x.diverge g q p joinAt paths = x.on (fun d => d.stepGrp g (fun k => k.diverged p joinAt paths)) := by
  rw [X.diverge, if_neg (Nat.not_le.2 h)]; rfl

/-- BRX (R47), by the running threads `m` that take the branch: none, all or some of them. -/
theorem brx_completes (h : s.dev.Issues g .b b q p) (k : BitVec 3) (neg : Bool) (target joinAt : Addr) (m : Mask)
    (hm : m = p.mask &&& (if neg then ~~~(q.pred k.toNat) else q.pred k.toNat)) :
    (m = 0 → Completes (.brx g k neg target joinAt) s (fun t => OnlyGroup g s t ∧ WentOn q (t.dev.groupOf g) p)) ∧
    (m = p.mask → m ≠ 0 → Completes (.brx g k neg target joinAt) s (fun t => OnlyGroup g s t ∧
      (t.dev.groupOf g).paths = { p with pc := target } :: q.paths.tail ∧ (t.dev.groupOf g).stack = q.stack)) ∧
    (m ≠ 0 → m ≠ p.mask → q.stack.length < 32 → Completes (.brx g k neg target joinAt) s (fun t => OnlyGroup g s t ∧
      (t.dev.groupOf g).paths = { pc := Config.pcNext p.pc, mask := p.mask &&& ~~~m } :: { pc := target, mask := m } :: q.paths.tail ∧
      (t.dev.groupOf g).stack = { joinAt, mask := p.mask, arrived := 0 } :: q.stack ∧ (t.dev.groupOf g).regs = q.regs)) := by
  have hexec : exec (.brx g k neg target joinAt) s = execBrx g k neg target joinAt s := rfl
  rw [execBrx] at hexec
  refine ⟨fun h0 => ?_, fun hall h0 => ?_, fun h0 hsome hroom => ?_⟩
  · refine completes_stepGrp Group.next hexec h ?_ (fun t honly hgrp => ⟨honly, hgrp ▸ wentOn_settled_next h.2.2.1⟩)
    simp only [← hm, beq_iff_eq, if_pos h0]
  · refine completes_stepGrp (fun k => { k with paths := { p with pc := target } :: k.paths.tail }) hexec h ?_
      (fun t honly hgrp => ⟨honly, by rw [hgrp, Group.settled_paths], by rw [hgrp, Group.settled_stack]⟩)
    simp only [← hm, beq_iff_eq, if_neg h0, if_pos hall]
  · refine completes_stepGrp (fun e => e.diverged p joinAt [{ pc := Config.pcNext p.pc, mask := p.mask &&& ~~~m }, { pc := target, mask := m }]) hexec h ?_
      (fun t honly hgrp => ⟨honly, by rw [hgrp, Group.settled_paths]; rfl, by rw [hgrp, Group.settled_stack]; rfl, by rw [hgrp, Group.settled_regs]; rfl⟩)
    simp only [← hm, beq_iff_eq, if_neg h0, if_neg hsome]
    exact X.diverge_of_room _ _ _ hroom

/-- BRI (R48): one path per target address of the running threads, in ascending order (log 11). -/
theorem bri_completes (h : s.dev.Issues g .b b q p) (ra : Byte) (joinAt : Addr) (hready : Ready b q [ra.toNat, ra.toNat + 1]) (hroom : q.stack.length < 32) :
    Completes (.bri g ra joinAt) s (fun t => OnlyGroup g s t ∧
      (t.dev.groupOf g).stack = { joinAt, mask := p.mask, arrived := 0 } :: q.stack ∧ (t.dev.groupOf g).regs = q.regs ∧
      (t.dev.groupOf g).paths.map (·.pc) =
        ((((bits p.mask).map (fun l => q.addr ra.toNat l)).mergeSort (· ≤ ·)).dedup.map (BitVec.ofNat 44)) ++ q.paths.tail.map (·.pc)) := by
  have hexec : exec (.bri g ra joinAt) s = execBri g ra joinAt s := rfl
  rw [execBri] at hexec
  refine completes_stepGrp (fun e => e.diverged p joinAt _) hexec h
    ((X.withRegs_ready _ g b q p _ _ ((Dev.grp_iff _ _ _ _).1 h.2.1).2 hready).trans (X.diverge_of_room _ _ _ hroom)) (fun t honly hgrp => ?_)
  rw [hgrp, Group.settled_stack, Group.settled_regs, Group.settled_paths]
  refine ⟨honly, rfl, rfl, ?_⟩
  simp only [Group.diverged, List.map_append, List.map_map, Function.comp_def]

/-- A JOIN that no entry names is passed (log 11). -/
theorem join_passes (h : s.dev.Issues g .b b q p) (at' : Addr) (hnone : ∀ e ∈ q.stack, e.joinAt ≠ at') :
    Completes (.join g at') s (fun t => OnlyGroup g s t ∧ WentOn q (t.dev.groupOf g) p) := by
  have hexec : exec (.join g at') s = execJoin g at' s := rfl
  rw [execJoin] at hexec
  refine completes_stepGrp Group.next hexec h ?_ (fun t honly hgrp => ⟨honly, hgrp ▸ wentOn_settled_next h.2.2.1⟩)
  have hany : q.stack.any (fun e => e.joinAt == at' && (p.mask &&& e.mask) == p.mask) = false := by
    simp only [List.any_eq_false, Bool.and_eq_true, beq_iff_eq, not_and]
    exact fun e he hat => absurd hat (hnone e he)
  simp only [hany, Bool.false_eq_true, if_false]

/-- Nothing is popped while the threads of the top entry have not all arrived or exited (R47). -/
theorem Group.popJoins_of_waiting {e : REntry} {rest : List REntry} (hstack : q.stack = e :: rest) (hwait : ((e.arrived ||| q.exited) &&& e.mask) ≠ e.mask) :
    q.popJoins = q := by
  refine List.foldl_fixed' (fun _ => ?_) _
  simp only [hstack, beq_iff_eq, if_neg hwait]

/-- The threads that arrive at the top entry's JOIN wait there for the others (R47). -/
theorem join_waits (h : s.dev.Issues g .b b q p) {at' : Addr} {m a : Mask} {rest : List REntry} (hstack : q.stack = ⟨at', m, a⟩ :: rest)
    (hin : p.mask &&& m = p.mask) (hwait : ((a ||| p.mask ||| q.exited) &&& m) ≠ m) :
    Completes (.join g at') s (fun t => OnlyGroup g s t ∧ (t.dev.groupOf g).paths = q.paths.tail ∧
      (t.dev.groupOf g).stack = ⟨at', m, a ||| p.mask⟩ :: rest ∧ (t.dev.groupOf g).regs = q.regs) := by
  have hexec : exec (.join g at') s = execJoin g at' s := rfl
  rw [execJoin] at hexec
  have hany : q.stack.any (fun e => e.joinAt == at' && (p.mask &&& e.mask) == p.mask) = true := by simp [hstack, hin]
  refine completes_stepGrp _ hexec h (if_pos hany) (fun t honly hgrp => ?_)
  have harrive : updFirst (fun e => e.joinAt == at' && (p.mask &&& e.mask) == p.mask) (fun e => { e with arrived := e.arrived ||| p.mask }) q.stack =
      ⟨at', m, a ||| p.mask⟩ :: rest := by simp [hstack, updFirst, hin]
  rw [harrive, Group.popJoins_of_waiting rfl hwait] at hgrp
  rw [hgrp, Group.settled_paths, Group.settled_stack, Group.settled_regs]
  exact ⟨honly, rfl, rfl, rfl⟩

end Branch

/-- Settles O10, instruction by instruction. -/
theorem divergenceInstructionsComplete : Obligations.DivergenceInstructionsComplete :=
  fun _ _ _ _ _ h => ⟨exit_completes h, brx_completes h, bri_completes h, join_passes h, fun _ _ _ _ hstack hin hwait => join_waits h hstack hin hwait⟩

end Sys2Proof.Machine

namespace Sys2Proof.Machine

/-! ### Launch, block dispatch and retirement (O13) -/

theorem Only.openStep {l : List Part} {d e : Dev} (k step : Nat) (h : Only l d e) (h0 : Part.clus ∈ l) : Only l d (e.openStep k step) := by
  simp only [Dev.openStep]
  exact h.ite (h.setClu _ _ h0)

@[simp] theorem Dev.openStep_zero (d : Dev) (k : Nat) : d.openStep k 0 = d := rfl

/-- The machine with the step regions of a Vitrine's clusters allocated (R40). -/
def Dev.openSteps (d : Dev) (v : VitId) (step : Nat) : Dev := (clusOfVit v).foldl (fun (e : Dev) k => e.openStep k step) d

theorem Dev.openSteps_only (d : Dev) (v : VitId) (step : Nat) : Only [.clus] d (d.openSteps v step) :=
  (Only.refl _ d).foldl _ _ (fun e k => (Only.refl _ e).openStep k step (by simp))

@[simp] theorem Dev.openSteps_zero (d : Dev) (v : VitId) : d.openSteps v 0 = d := rfl

/-- The machine after a launch is taken: its step regions stand, and its blocks wait from the first on (R34). -/
def Dev.launched (d : Dev) (v : VitId) (i : Nat) (l : Launch) (rest : List (Nat × Launch)) : Dev :=
  ((d.openSteps v l.step).setVit v (fun t =>
    { t with disp := { t.disp with launches := rest, cur := some (i, l), next := 0, rot := 0, retired := 0 } })).trace v 3 0x3FF i

theorem launchDispatch_completes {s : State} {v : VitId} {p : Disp} {i : Nat} {l : Launch} {rest : List (Nat × Launch)} {st : StepRec}
    (hp : (s.dev.vit v).disp = p) (hdisp : s.dev.dispatches v = true) (hidle : p.idle = true) (hstep : s.dev.stepOn v = some st) (hholds : st.holds = false)
    (hnext : p.launches = (i, l) :: rest) (hok : s.dev.launchOk l = true) :
    Completes (.launchDispatch v) s (fun t => ∃ q, (t.dev.vit v).disp = q ∧ q.launches = rest ∧ q.cur = some (i, l) ∧ q.next = 0 ∧ q.retired = 0 ∧
      Keeps [.clus, .vits, .cnt] s t ∧ (l.step = 0 → t.dev.clus = s.dev.clus)) := by
  have hexec : exec (.launchDispatch v) s = execLaunchDispatch v s := rfl
  rw [execLaunchDispatch] at hexec
  refine completes_on (fun d => d.launched v i l rest) hexec ?_ ⟨_, rfl, ?_⟩
  · have hgo : ¬ (!(s.dev.dispatches v && p.idle) || ((some st).map StepRec.holds).getD false) = true := by
      simp [hdisp, hidle, hholds]
    simp only [hp, if_neg hgo, hnext, hstep, if_pos hok]
    rfl
  · have hdispatcher : (((s.dev.launched v i l rest).vit v).disp) =
        { ((s.dev.openSteps v l.step).vit v).disp with launches := rest, cur := some (i, l), next := 0, rot := 0, retired := 0 } := by
      rw [Dev.launched, Dev.disp_trace, Dev.vit_setVit]
    have honly : Only [.clus, .vits, .cnt] s.dev (s.dev.launched v i l rest) :=
      (((s.dev.openSteps_only v l.step).mono (by simp)).setVit _ _ (by simp)).trace _ _ _ _ (by simp) (by simp)
    refine hdispatcher ▸ ⟨rfl, rfl, rfl, rfl, honly.keeps, fun h0 => ?_⟩
    simp only [Dev.launched, h0, Dev.openSteps_zero, Dev.trace_clus, Dev.setVit_clus]

/-- A new block taken in stands on its core, its groups at the launch's entry with all threads to run (R36). -/
theorem Dev.takeIn_fresh (d : Dev) (c : CoreId) (b : Block) : ∃ (k : Nat) (e : Block), (d.takeIn c b true).1 = d.setBlk c k e ∧
    e.launch = b.launch ∧ e.launchIx = b.launchIx ∧ e.index = b.index ∧ e.groups.length = b.launch.g ∧
    ∀ q ∈ e.groups, q.exited = 0 ∧ q.paths = [{ pc := b.launch.entry, mask := BitVec.allOnes 32 }] := by
  refine ⟨_, _, rfl, rfl, rfl, rfl, ?_, fun q hq => ?_⟩
  · simp
  · simp only [if_true, List.mem_map] at hq
    obtain ⟨_, _, rfl⟩ := hq
    exact ⟨rfl, rfl⟩

theorem blockDispatch_completes {s : State} {v : VitId} {p : Disp} {n : Nat} {l : Launch} {st : StepRec} {i : Nat} (hp : (s.dev.vit v).disp = p)
    (hdisp : s.dev.dispatches v = true) (hswapped : p.swapped = []) (hcur : p.cur = some (n, l)) (hstep : s.dev.stepOn v = some st) (hnext : p.next < l.blocks)
    (hfind : ((List.range 16).map (fun k => (p.rot + k) % 16)).find? (fun k => s.dev.fits (BitVec.ofNat 9 (v.toNat * 16 + k)) l) = some i) :
    Completes (.blockDispatch v) s (fun t => (t.dev.vit v).disp = { p with next := p.next + 1, rot := (i + 1) % 16 } ∧ Keeps [.vits, .cores] s t ∧
      ∃ (k : Nat) (b : Block), t.dev.blk (BitVec.ofNat 9 (v.toNat * 16 + i)) k = some b ∧ b.launch = l ∧ b.launchIx = n ∧ b.index = p.next ∧
        b.groups.length = l.g ∧ ∀ q ∈ b.groups, q.exited = 0 ∧ q.paths = [{ pc := l.entry, mask := BitVec.allOnes 32 }]) := by
  have hexec : exec (.blockDispatch v) s = execBlockDispatch v s := rfl
  rw [execBlockDispatch] at hexec
  obtain ⟨k, b, htake, hblock⟩ := s.dev.takeIn_fresh (BitVec.ofNat 9 (v.toNat * 16 + i)) { launch := l, launchIx := n, index := p.next, seq := st.seq, leader := st.leader }
  refine completes_on (fun d => (d.setBlk (BitVec.ofNat 9 (v.toNat * 16 + i)) k b).setVit v (fun t =>
    { t with disp := { t.disp with next := p.next + 1, rot := (i + 1) % 16 } })) hexec ?_ ⟨?_, ?_, k, b, ?_, hblock⟩
  · have hgo : ¬ (!s.dev.dispatches v) = true := by simp [hdisp]
    simp only [hp, if_neg hgo, hswapped, hcur, hstep, if_pos hnext, hfind, List.zipIdx_nil, List.find?_nil, X.on, htake]
  · rw [Dev.vit_setVit, ← hp]; rfl
  · exact (((Only.refl _ s.dev).setCore _ _ (by simp)).setVit _ _ (by simp)).keeps
  · exact Dev.blk_setBlk _ _ _ _

theorem blockRetire_completes {s : State} {v : VitId} {p : Disp} {c : CoreId} {k : SlotId} {b : Block} (hp : (s.dev.vit v).disp = p) (hv : vitOfCore c = v)
    (hblk : s.dev.blk c k.toNat = some b) (hdone : b.groups.all Group.done = true) (hquiet : s.dev.quiet c k.toNat = true) (hruns : s.dev.runs (dieOfCore c) = true) :
    Completes (.blockRetire c k) s (fun t => (t.dev.vit v).disp = { p with retired := p.retired + 1 } ∧ Keeps [.vits, .cores] s t ∧
      t.dev.core c = { s.dev.core c with slots := kdel (s.dev.core c).slots k.toNat }) := by
  have hexec : exec (.blockRetire c k) s = execBlockRetire c k s := rfl
  rw [execBlockRetire] at hexec
  subst hp hv
  refine completes_dev ((s.dev.delBlk c k.toNat).setVit (vitOfCore c) (fun t => { t with disp := { t.disp with retired := t.disp.retired + 1 } })) hexec ?_ ⟨?_, ?_, ?_⟩
  · simp only [hblk, hdone, hquiet, hruns, Bool.and_self, if_true]
  · rw [Dev.vit_setVit]; rfl
  · exact (((Only.refl _ s.dev).setCore _ _ (by simp)).setVit _ _ (by simp)).keeps
  · rw [Dev.core_setVit, Dev.delBlk, Dev.core_setCore]

/-- Settles O13, command by command. -/
theorem dispatchersStartAndRetireBlocks : Obligations.DispatchersStartAndRetireBlocks :=
  fun _ _ _ hp => ⟨fun _ _ _ _ hdisp hidle hstep hholds hnext hok => launchDispatch_completes hp hdisp hidle hstep hholds hnext hok,
    fun _ _ _ _ hdisp hswapped hcur hstep hnext hfind => blockDispatch_completes hp hdisp hswapped hcur hstep hnext hfind,
    fun _ _ _ hv hblk hdone hquiet hruns => blockRetire_completes hp hv hblk hdone hquiet hruns⟩

end Sys2Proof.Machine

namespace Sys2Proof.Machine

/-! ### Changes of the blocks of one core -/

/-- Between two machines only the blocks of one core have changed. -/
structure Dev.OnlySlots (c : CoreId) (d e : Dev) : Prop where
  dev : e = { d with cores := e.cores }
  ne : ∀ k, k ≠ c → e.core k = d.core k
  self : e.core c = { d.core c with slots := (e.core c).slots }

namespace Dev.OnlySlots
variable {c : CoreId} {d e f : Dev}

theorem refl (c : CoreId) (d : Dev) : Dev.OnlySlots c d d := ⟨rfl, fun _ _ => rfl, rfl⟩

theorem trans (h : Dev.OnlySlots c d e) (k : Dev.OnlySlots c e f) : Dev.OnlySlots c d f :=
  ⟨by rw [k.dev, h.dev], fun j hj => (k.ne j hj).trans (h.ne j hj), by rw [k.self, h.self]⟩

theorem foldl {β : Type} (l : List β) (F : Dev → β → Dev) (hF : ∀ a, ∀ b ∈ l, Dev.OnlySlots c a (F a b)) (d : Dev) : Dev.OnlySlots c d (l.foldl F d) := by
  induction l generalizing d with
  | nil => exact refl c d
  | cons b l ih => exact (hF d b List.mem_cons_self).trans (ih (fun a b hb => hF a b (List.mem_cons_of_mem _ hb)) _)

theorem updBlk (d : Dev) (c : CoreId) (k : Nat) (F : Block → Block) : Dev.OnlySlots c d (d.updBlk c k F) := by
  refine ⟨Dev.updBlk_eq _ _ _ _, fun j hj => Dev.core_updBlk_ne _ _ _ _ _ hj, ?_⟩
  simp only [Dev.updBlk]
  split
  · rw [Dev.setBlk, Dev.core_setCore]
  · rfl

theorem updGrp (d : Dev) (g : GRef) (F : Group → Group) : Dev.OnlySlots g.core d (d.updGrp g F) := updBlk d _ _ _

theorem stepGrp (d : Dev) (g : GRef) (F : Group → Group) : Dev.OnlySlots g.core d (d.stepGrp g F) := (updGrp d g F).trans (updBlk _ _ _ _)

theorem cycOf (h : Dev.OnlySlots c d e) (k : CoreId) : e.cycOf k = d.cycOf k := by rw [h.dev]; rfl

theorem only (h : Dev.OnlySlots c d e) : Only [.cores] d e := by
  rw [h.dev]; exact (Only.refl _ d).with_cores _ (by simp)

end Dev.OnlySlots

/-! ### The issue cycle (O14) -/

theorem onlySlots_eachGrp (d : Dev) (c : CoreId) (views : List IssueView) (F : IssueView → Group → Group) :
    Dev.OnlySlots c d (d.eachGrp (views.map (fun w => (viewRef c w, F w)))) := by
  rw [Dev.eachGrp, List.foldl_map]
  exact Dev.OnlySlots.foldl _ _ (fun a w _ => Dev.OnlySlots.updGrp a (viewRef c w) (F w)) d

/-- The machine whose groups that wait on a missed load have left the active set (R42). -/
def Dev.missedLeave (d : Dev) (c : CoreId) (views : List IssueView) : Dev :=
  d.eachGrp ((views.filter (·.missed)).map (fun w => (viewRef c w, fun q => { q with active := false })))

/-- A change of the active set: groups leave it, and at most one enters. -/
theorem changeActive_cases (d : Dev) (c : CoreId) (views : List IssueView) : d.changeActive c views = d.missedLeave c views ∨
    ∃ w n, d.changeActive c views = (d.missedLeave c views).updGrp (viewRef c w) (fun q => { q with active := true, entered := n, idle := 0 }) := by
  simp only [Dev.changeActive]
  split
  · exact Or.inr ⟨_, _, rfl⟩
  · exact Or.inl rfl

theorem onlySlots_changeActive (d : Dev) (c : CoreId) (views : List IssueView) : Dev.OnlySlots c d (d.changeActive c views) := by
  have hleave : Dev.OnlySlots c d (d.missedLeave c views) := onlySlots_eachGrp d c _ (fun _ q => { q with active := false })
  rcases changeActive_cases d c views with h | ⟨w, n, h⟩
  · rw [h]; exact hleave
  · rw [h]; exact hleave.trans (Dev.OnlySlots.updGrp _ (viewRef c w) _)

/-- A re-test of a parked thread's word changes its group alone (R49). -/
theorem retest_onlySlots (x : X) (g : GRef) (lane : Nat) (w : WaitRec) : ∃ e, x.retest g lane w = { x with dev := e } ∧ Dev.OnlySlots g.core x.dev e := by
  simp only [X.retest]
  split
  · exact ⟨_, rfl, Dev.OnlySlots.stepGrp _ _ _⟩
  · exact ⟨_, rfl, Dev.OnlySlots.updGrp _ _ _⟩

theorem dueWaits_core {d : Dev} {c : CoreId} {e : GRef × Nat × WaitRec} (h : e ∈ d.dueWaits c) : e.1.core = c := by
  simp only [Dev.dueWaits, List.mem_flatMap] at h
  obtain ⟨_, _, _, _, h⟩ := h
  split at h
  · obtain ⟨k, _, hk⟩ := List.mem_filterMap.1 h
    split at hk
    · split at hk
      · cases hk; rfl
      · cases hk
    · cases hk
  · cases h

theorem retestDue_onlySlots (x : X) (c : CoreId) : ∃ e, x.retestDue c = { x with dev := e } ∧ Dev.OnlySlots c x.dev e := by
  have key : ∀ (l : List (GRef × Nat × WaitRec)), (∀ e ∈ l, e.1.core = c) → ∀ y : X,
      ∃ e, l.foldl (fun (y : X) e => y.retest e.1 e.2.1 e.2.2) y = { y with dev := e } ∧ Dev.OnlySlots c y.dev e := by
    intro l
    induction l with
    | nil => exact fun _ y => ⟨y.dev, rfl, Dev.OnlySlots.refl c _⟩
    | cons a l ih =>
      intro hl y
      obtain ⟨e, he, hslots⟩ := retest_onlySlots y a.1 a.2.1 a.2.2
      obtain ⟨f, hf, hrest⟩ := ih (fun b hb => hl b (List.mem_cons_of_mem _ hb)) { y with dev := e }
      exact ⟨f, by rw [List.foldl_cons, he, hf], (hl a List.mem_cons_self ▸ hslots).trans hrest⟩
  exact key _ (fun e he => dueWaits_core he) x

/-- Whether a group may run depends on its block, its exited threads and its paths alone. -/
theorem mayRun_updGrp (d : Dev) (c : CoreId) (w : IssueView) (g : GRef) (F : Group → Group) (hF : ∀ q, (F q).exited = q.exited ∧ (F q).paths = q.paths) :
    (d.updGrp g F).mayRun c w = d.mayRun c w := by
  by_cases hg : c ≠ g.core ∨ w.slot.toNat ≠ g.slot.toNat
  · simp only [Dev.mayRun, Dev.grp, viewRef, Dev.updGrp, Dev.blk_updBlk_ne _ _ _ _ _ _ hg]
  · simp only [ne_eq, not_or, not_not] at hg
    obtain ⟨rfl, hslot⟩ := hg
    simp only [Dev.mayRun, Dev.grp, viewRef, Dev.updGrp, hslot, Dev.blk_updBlk]
    cases d.blk g.core g.slot.toNat with
    | none => rfl
    | some b =>
      simp only [Option.map_some]
      cases hq : b.groups[g.grp.toNat]? with
      | none => rfl
      | some q =>
        simp only [getElem?_setNth]
        by_cases hi : g.grp.toNat = w.grp.toNat
        · rw [← hi, hq]; simp [Group.done, hF]
        · rw [if_neg hi]
          cases b.groups[w.grp.toNat]? <;> rfl

theorem mayRun_changeActive (d : Dev) (c : CoreId) (views : List IssueView) (w : IssueView) : (d.changeActive c views).mayRun c w = d.mayRun c w := by
  have hleave : (d.missedLeave c views).mayRun c w = d.mayRun c w := by
    rw [Dev.missedLeave, Dev.eachGrp, List.foldl_map]
    exact foldl_keeps (fun e : Dev => e.mayRun c w) _ (fun e u => mayRun_updGrp e c w (viewRef c u) (fun q => { q with active := false }) (fun _ => ⟨rfl, rfl⟩)) _ _
  rcases changeActive_cases d c views with h | ⟨u, n, h⟩
  · rw [h, hleave]
  · rw [h]
    exact (mayRun_updGrp _ c w (viewRef c u) (fun q => { q with active := true, entered := n, idle := 0 }) (fun _ => ⟨rfl, rfl⟩)).trans hleave

/-- A choice that each element may take over, and the first one does, is one of the elements. -/
theorem foldl_choice {α : Type} (F : Option α → α → Option α) (hF : ∀ b w, F b w = some w ∨ F b w = b ∧ b ≠ none) (l : List α) (b : Option α) :
    (∃ w ∈ l, l.foldl F b = some w) ∨ l.foldl F b = b ∧ (b = none → l = []) := by
  induction l generalizing b with
  | nil => exact Or.inr ⟨rfl, fun _ => rfl⟩
  | cons w l ih =>
    rw [List.foldl_cons]
    rcases ih (F b w) with ⟨u, hu, he⟩ | ⟨he, hnil⟩
    · exact Or.inl ⟨u, List.mem_cons_of_mem _ hu, he⟩
    · rcases hF b w with hw | ⟨hb, hsome⟩
      · exact Or.inl ⟨w, List.mem_cons_self, he.trans hw⟩
      · exact Or.inr ⟨he.trans hb, fun h => absurd h hsome⟩

theorem Dev.earliest_cases (d : Dev) (c : CoreId) (l : List IssueView) : (∃ w ∈ l, d.earliest c l = some w) ∨ d.earliest c l = none ∧ l = [] := by
  refine (foldl_choice _ (fun b w => ?_) l none).imp id (fun h => ⟨h.1, h.2 rfl⟩)
  cases b with
  | none => exact Or.inl rfl
  | some u => dsimp only; split <;> simp

/-- The cycles for which the group of a view has not issued (R42). -/
def Dev.idleOf (d : Dev) (c : CoreId) (w : IssueView) : Nat := ((d.grp (viewRef c w)).map (fun p => p.2.idle)).getD 0

/-- Whether the group of a view has not issued for 16 cycles. -/
def Dev.starves (d : Dev) (c : CoreId) (w : IssueView) : Bool := ((d.grp (viewRef c w)).map (fun e => decide (16 ≤ e.2.idle))).getD false

theorem Dev.starves_iff (d : Dev) (c : CoreId) (w : IssueView) : d.starves c w = true ↔ 16 ≤ d.idleOf c w := by
  simp only [Dev.starves, Dev.idleOf]
  cases d.grp (viewRef c w) <;> simp

/-- The view that slot 0 takes, of some ready ones: a starving one first, then the one that issued there last, then the earliest (R42). -/
def Dev.firstPick (d : Dev) (c : CoreId) (ready : List IssueView) : Option IssueView :=
  (d.earliest c (ready.filter (fun w => d.starves c w))).or ((ready.find? (fun w => (d.core c).slot0 == some (viewName w))).or (d.earliest c ready))

theorem Dev.firstPick_of_mem (d : Dev) (c : CoreId) (ready : List IssueView) (w : IssueView) (hw : w ∈ ready) :
    ∃ u ∈ ready, d.firstPick c ready = some u ∧ ∀ v ∈ ready, 16 ≤ d.idleOf c v → 16 ≤ d.idleOf c u := by
  rcases d.earliest_cases c (ready.filter (fun w => d.starves c w)) with ⟨u, hu, hfirst⟩ | ⟨hnone, hnil⟩
  · obtain ⟨hmem, hstarve⟩ := List.mem_filter.1 hu
    exact ⟨u, hmem, by rw [Dev.firstPick, hfirst]; rfl, fun _ _ _ => (d.starves_iff c u).1 hstarve⟩
  · have hcalm : ∀ v ∈ ready, ¬ 16 ≤ d.idleOf c v := fun v hv h => List.filter_eq_nil_iff.1 hnil v hv ((d.starves_iff c v).2 h)
    have hpick : d.firstPick c ready = (ready.find? (fun w => (d.core c).slot0 == some (viewName w))).or (d.earliest c ready) := by
      rw [Dev.firstPick, hnone]; rfl
    cases hfind : ready.find? (fun w => (d.core c).slot0 == some (viewName w)) with
    | some u => exact ⟨u, List.mem_of_find?_eq_some hfind, by rw [hpick, hfind]; rfl, fun v hv h => absurd h (hcalm v hv)⟩
    | none =>
      rcases d.earliest_cases c ready with ⟨u, hu, hearly⟩ | ⟨_, hempty⟩
      · exact ⟨u, hu, by rw [hpick, hfind, hearly]; rfl, fun v hv h => absurd h (hcalm v hv)⟩
      · rw [hempty] at hw; cases hw

/-- What slot 1 takes beside the view of slot 0: another ready view that pairs, or that group's own second instruction (R43, R44). -/
def Beside (ready : List IssueView) (w u : IssueView) : Prop :=
  pairs w.cls u.cls = true ∧ (u ∈ ready ∨ ∃ k, w.second = some k ∧ u = { w with cls := k, upset := .none })

theorem Dev.pick_nil (d : Dev) (c : CoreId) : d.pick c [] = (none, none) := rfl

theorem Dev.beside_earliest {d : Dev} {c : CoreId} {ready : List IssueView} {w u : IssueView}
    (hu : d.earliest c (ready.filter (fun u => viewName u != viewName w && pairs w.cls u.cls)) = some u) : Beside ready w u := by
  rcases d.earliest_cases c (ready.filter (fun u => viewName u != viewName w && pairs w.cls u.cls)) with ⟨v, hv, he⟩ | ⟨he, _⟩
  · obtain rfl := Option.some.inj (he.symm.trans hu)
    obtain ⟨hmem, hp⟩ := List.mem_filter.1 hv
    exact ⟨(Bool.and_eq_true_iff.1 hp).2, Or.inl hmem⟩
  · cases he.symm.trans hu

theorem Dev.pick_of_first {d : Dev} {c : CoreId} {ready : List IssueView} {w : IssueView} (h : d.firstPick c ready = some w) :
    (d.pick c ready).1 = some w ∧ ∀ u, (d.pick c ready).2 = some u → Beside ready w u := by
  simp only [Dev.firstPick, Dev.starves] at h
  cases hk : w.second with
  | none =>
    simp only [Dev.pick, h, hk]
    exact ⟨trivial, fun u => Dev.beside_earliest⟩
  | some k =>
    simp only [Dev.pick, h, hk]
    refine ⟨trivial, fun u hu => ?_⟩
    split at hu
    · rename_i hpair
      simp only [Bool.and_eq_true] at hpair
      exact ⟨by rw [← Option.some.inj hu]; exact hpair.1.1.1, Or.inr ⟨k, hk, by rw [← Option.some.inj hu, hk]⟩⟩
    · exact Dev.beside_earliest hu

/-- The clocked cycles of a core stand while the clocks and the Vitrines do. -/
theorem Only.cycOf {l : List Part} {d e : Dev} (h : Only l d e) (hclk : Part.clk ∉ l) (hvits : Part.vits ∉ l) (c : CoreId) : e.cycOf c = d.cycOf c := by
  simp only [Dev.cycOf, Dev.clocked, Dev.duty, Dev.vit, Dev.cyc, Dev.die, h.clk hclk, h.vits hvits]

theorem Only.core {l : List Part} {d e : Dev} (h : Only l d e) (hcores : Part.cores ∉ l) (c : CoreId) : e.core c = d.core c := by
  simp only [Dev.core, h.cores hcores]

theorem Only.countIssue {l : List Part} {d e : Dev} (c : CoreId) (first second : Bool) (h : Only l d e) (h0 : Part.cnt ∈ l) :
    Only l d (e.countIssue c first second) := by
  have hite : ∀ (b : Bool) (n : Nat) (a : Dev), Only l d a → Only l d (if b then a.profile (vitOfCore c) n 1 else a) :=
    fun b n a ha => (ha.profile _ _ _ h0).ite ha
  exact hite second 2 _ (hite first 1 _ (h.ite (h.profile _ _ _ h0)))

/-- The views whose groups may take a slot, once the active set has changed (R42-R44). -/
def Dev.readyViews (d : Dev) (c : CoreId) (views : List IssueView) : List IssueView :=
  views.filter (fun w => w.ready && d.inActive c w && d.unitFree c w.cls && ((d.grp (viewRef c w)).map (fun e => decide (e.2.entered + 2 ≤ d.cycOf c))).getD false)

/-- The issue slots that a pick takes. -/
def takenSlots (two : Option IssueView × Option IssueView) : List Issued := two.1.toList.map viewSlot ++ two.2.toList.map viewSlot

/-- The machine once the ready views have taken the issue slots: idle times and profile counts move on, and the core's next cycle of issue follows (R42-R44). -/
def Dev.issueFrom (d : Dev) (c : CoreId) (views : List IssueView) : Dev :=
  let two := d.pick c (d.readyViews c views)
  ((d.eachGrp (views.map (fun w => (viewRef c w, fun q =>
      { q with idle := if ((takenSlots two).map (fun i => (i.slot, i.grp))).contains (viewName w) || !q.active then 0
          else min (q.idle + (d.cycOf c + 1 - (d.core c).issueAt)) (d.cycOf c - q.entered) })))).countIssue c two.1.isSome two.2.isSome).setCore c
    (fun k => { k with slot0 := two.1.map viewName, issued := takenSlots two, issueAt := d.cycOf c + 1 })

/-- The machine after an issue cycle of a core, before the re-tests of its WAITs. -/
def Dev.issueCycled (d : Dev) (c : CoreId) (views : List IssueView) : Dev :=
  (d.changeActive c (views.filter (d.mayRun c))).issueFrom c (views.filter (d.mayRun c))

theorem execIssueCycle_eq (c : CoreId) (views : List IssueView) (s : State) : execIssueCycle c views s = run s (fun x =>
    if !x.dev.runs (dieOfCore c) || !x.dev.isClocked (vitOfCore c) then x
    else (x.on (fun d => (d.reachOf c (d.core c).issueAt).issueCycled c views)).retestDue c) := rfl

theorem issueCycle_exec {s : State} {c : CoreId} (views : List IssueView) (hruns : s.dev.runs (dieOfCore c) = true)
    (hclocked : s.dev.isClocked (vitOfCore c) = true) :
    exec (.issueCycle c views) s = run s (fun x => (x.on (fun d => (d.reachOf c (d.core c).issueAt).issueCycled c views)).retestDue c) := by
  have hexec : exec (.issueCycle c views) s = execIssueCycle c views s := rfl
  have hgo : ¬ (!s.dev.runs (dieOfCore c) || !s.dev.isClocked (vitOfCore c)) = true := by simp [hruns, hclocked]
  rw [hexec, execIssueCycle_eq]
  exact run_congr _ _ _ (if_neg hgo)

/-- What taking the issue slots leaves and sets. -/
theorem Dev.issueFrom_spec (d : Dev) (c : CoreId) (views : List IssueView) : Only [.cores, .cnt] d (d.issueFrom c views) ∧
    (∀ k, k ≠ c → (d.issueFrom c views).core k = d.core k) ∧ ((d.issueFrom c views).core c).issueAt = d.cycOf c + 1 ∧
    ((d.issueFrom c views).core c).issued = takenSlots (d.pick c (d.readyViews c views)) := by
  have hslots := onlySlots_eachGrp d c views (fun w q =>
    { q with idle := if ((takenSlots (d.pick c (d.readyViews c views))).map (fun i => (i.slot, i.grp))).contains (viewName w) || !q.active then 0
        else min (q.idle + (d.cycOf c + 1 - (d.core c).issueAt)) (d.cycOf c - q.entered) })
  rw [Dev.issueFrom]
  refine ⟨(((hslots.only.mono (by simp)).countIssue c _ _ (by simp)).setCore _ _ (by simp)), fun k hk => ?_, by rw [Dev.core_setCore], by rw [Dev.core_setCore]⟩
  rw [Dev.core_setCore_ne _ _ _ _ hk, ((Only.refl [.cnt] _).countIssue c _ _ (by simp)).core (by simp), hslots.ne k hk]

/-- The ready views are those whose groups may take a slot. -/
theorem mem_readyViews {d e : Dev} {c : CoreId} {views : List IssueView} (he : e = d.changeActive c (views.filter (d.mayRun c))) (w : IssueView) :
    w ∈ e.readyViews c (views.filter (d.mayRun c)) ↔ w ∈ views ∧ e.MayTake c w := by
  have hrun : e.mayRun c w = d.mayRun c w := he ▸ mayRun_changeActive d c _ w
  have hold : ((e.grp (viewRef c w)).map (fun p => decide (p.2.entered + 2 ≤ e.cycOf c))).getD false = true ↔
      ∃ p, e.grp (viewRef c w) = some p ∧ p.2.entered + 2 ≤ e.cycOf c := by
    cases e.grp (viewRef c w) <;> simp
  simp only [Dev.readyViews, Dev.MayTake, List.mem_filter, Bool.and_eq_true, hold, hrun]
  tauto

theorem mem_takenSlots {two : Option IssueView × Option IssueView} {n : Issued} (h : n ∈ takenSlots two) : ∃ w, (two.1 = some w ∨ two.2 = some w) ∧ n = viewSlot w := by
  simp only [takenSlots, List.mem_append, List.mem_map, Option.mem_toList] at h
  rcases h with ⟨w, hw, rfl⟩ | ⟨w, hw, rfl⟩
  · exact ⟨w, Or.inl hw, rfl⟩
  · exact ⟨w, Or.inr hw, rfl⟩

/-- What the slots taken from some ready views are: at most two, each of a ready view or its second instruction, two of them paired, and slot 0 taken
when one stands ready, by a starving one if there is one. -/
theorem Dev.takenSlots_pick (d : Dev) (c : CoreId) (ready : List IssueView) : (takenSlots (d.pick c ready)).length ≤ 2 ∧
    (∀ n ∈ takenSlots (d.pick c ready), ∃ w ∈ ready, (n.slot, n.grp) = viewName w ∧ (n.cls = w.cls ∨ w.second = some n.cls)) ∧
    (∀ m n, takenSlots (d.pick c ready) = [m, n] → pairs m.cls n.cls = true) ∧
    ∀ w ∈ ready, ∃ u ∈ ready, (takenSlots (d.pick c ready)).head? = some (viewSlot u) ∧ (16 ≤ d.idleOf c w → 16 ≤ d.idleOf c u) := by
  rcases List.eq_nil_or_concat ready with rfl | ⟨init, last, hlast⟩
  · rw [Dev.pick_nil]
    exact ⟨by decide, fun n hn => (List.not_mem_nil hn).elim, fun m n h => (List.cons_ne_nil _ _ h.symm).elim, fun w hw => (List.not_mem_nil hw).elim⟩
  · obtain ⟨u, hu, hfirst, hstarve⟩ := d.firstPick_of_mem c ready last (by rw [hlast]; simp)
    obtain ⟨h1, h2⟩ := Dev.pick_of_first hfirst
    refine ⟨?_, fun n hn => ?_, fun m n h => ?_, fun w hw => ⟨u, hu, by rw [takenSlots, h1]; rfl, hstarve w hw⟩⟩
    · rw [takenSlots, h1]
      cases (d.pick c ready).2 <;> simp
    · obtain ⟨w, hw | hw, rfl⟩ := mem_takenSlots hn
      · obtain rfl := Option.some.inj (h1.symm.trans hw)
        exact ⟨u, hu, rfl, Or.inl rfl⟩
      · obtain ⟨_, hmem | ⟨k, hk, rfl⟩⟩ := h2 w hw
        · exact ⟨w, hmem, rfl, Or.inl rfl⟩
        · exact ⟨u, hu, rfl, Or.inr hk⟩
    · rw [takenSlots, h1] at h
      cases hw : (d.pick c ready).2 with
      | none => rw [hw] at h; cases h
      | some w =>
        rw [hw] at h
        obtain ⟨rfl, rfl⟩ : viewSlot u = m ∧ viewSlot w = n := by simpa using h
        exact (h2 w hw).1

/-- Settles O14: the slots are taken from the views whose groups may take one (`mem_readyViews`), as `takenSlots_pick` says, and the re-tests of WAITs
change blocks alone. -/
theorem issueCycleIssuesReadyGroups : Obligations.IssueCycleIssuesReadyGroups := by
  intro s c views d e hruns hclocked hd he
  obtain ⟨f, hf, hretest⟩ := retestDue_onlySlots
    { dev := e.issueFrom c (views.filter (d.mayRun c)), mem := s.mem, mram := s.mram } c
  obtain ⟨honly, hne, hat, hissued⟩ := e.issueFrom_spec c (views.filter (d.mayRun c))
  have hactive : Dev.OnlySlots c d e := he ▸ onlySlots_changeActive d c _
  have hreach : Only [.clk, .cnt] s.dev d := hd ▸ (Only.refl _ s.dev).reachOf _ _ (by simp) (by simp)
  have hfinal : (f.core c).issued = takenSlots (e.pick c (e.readyViews c (views.filter (d.mayRun c)))) := by rw [hretest.self]; exact hissued
  obtain ⟨hlen, hmem, hpairs, hhead⟩ := e.takenSlots_pick c (e.readyViews c (views.filter (d.mayRun c)))
  have hcycled : (s.dev.reachOf c (s.dev.core c).issueAt).issueCycled c views = e.issueFrom c (views.filter (d.mayRun c)) := by
    rw [he, hd]; rfl
  have hview := (congrArg (fun m => X.retestDue { dev := m, mem := s.mem, mram := s.mram } c) hcycled).trans hf
  refine completes_run _ (issueCycle_exec views hruns hclocked) hview ⟨?_, fun k hk => ?_, ?_, ?_, ?_, fun n hn => ?_, fun m n h => ?_, fun w hw hmay => ?_⟩
  · exact (((hreach.mono (by simp)).trans (hactive.only.mono (by simp))).trans ((honly.mono (by simp)).trans (hretest.only.mono (by simp)))).keeps
  · exact (hretest.ne k hk).trans ((hne k hk).trans ((hactive.ne k hk).trans (hreach.core (by simp) k)))
  · exact (hretest.cycOf c).trans ((honly.cycOf (by simp) (by simp) c).trans (hactive.cycOf c))
  · show (f.core c).issueAt = _
    rw [hretest.self]; exact hat.trans (by rw [hactive.cycOf])
  · exact hfinal ▸ hlen
  · obtain ⟨w, hw, hname⟩ := hmem n (hfinal ▸ hn)
    obtain ⟨hview, hmay⟩ := (mem_readyViews he w).1 hw
    exact ⟨w, hview, hmay, hname⟩
  · exact hpairs m n (hfinal ▸ h)
  · obtain ⟨u, hu, hslot, hstarve⟩ := hhead w ((mem_readyViews he w).2 ⟨hw, hmay⟩)
    exact ⟨u, ((mem_readyViews he u).1 hu).1, hfinal ▸ hslot, hstarve⟩

end Sys2Proof.Machine

namespace Sys2Proof.Machine

/-! ### Accesses of memory begin (O16) -/

/-- The machine with the operation of an access taken up: its unit is occupied, and its operation stands last in its core (R37, R45). -/
def Dev.opTaken (d : Dev) (g : GRef) (sp : Space) (kind : OpKind) (size : Nat) (ts : List (Nat × Nat)) (o : Nat → OutOp) : Dev :=
  ((d.countAccess g.core sp ts).occupy g.core .m (accessCycles sp kind size ts)).setCore g.core (fun k =>
    { k with ops := k.ops ++ [o k.nextOp], nextOp := k.nextOp + 1 })

/-- The machine once its group has gone on, with its destination registers awaiting the data of the access. -/
def Dev.begun (d : Dev) (g : GRef) (sp : Space) (kind : OpKind) (size : Nat) (dsts : List Nat) (ts : List (Nat × Nat)) (o : Nat → OutOp) : Dev :=
  (d.opTaken g sp kind size ts o).stepGrp g (fun q => ({ q with busyRegs := q.busyRegs ++ dsts.map (BitVec.ofNat 8) } : Group).next)

/-- The view of a state once an access has been taken up and its group has gone on; its operation has yet to be advanced. -/
def State.takenUp (s : State) (g : GRef) (sp : Space) (kind : OpKind) (size : Nat) (dsts : List Nat) (ts : List (Nat × Nat)) (o : Nat → OutOp) : X :=
  { dev := (s.dev.issue g .m).begun g sp kind size dsts ts o, mem := s.mem, mram := s.mram }

/-- The operation of an access. -/
def accessOp (g : GRef) (b : Block) (p : RPath) (sp : Space) (kind : OpKind) (dst : Byte) (size : Nat) (ts : List (Nat × Nat)) (acc : Nat → Nat → LaneAcc)
    (n : Nat) : OutOp :=
  { id := n, owner := { slot := g.slot.toNat, grp := g.grp.toNat, launchIx := b.launchIx, block := b.index, seq := b.seq },
    kind, space := sp, dst, size, accs := ts.map (fun t => acc t.1 t.2), vals := [], poisoned := false, pc := p.pc }

theorem X.access_unwatched (x : X) (g : GRef) (b : Block) (p : RPath) (sp : Space) (kind : OpKind) (dst : Byte) (size : Nat) (dsts : List Nat)
    (ts : List (Nat × Nat)) (acc : Nat → Nat → LaneAcc)
    (h : sp = .global → x.dev.watchLanes g (if kind == .load then 0 else 1) size ts = (x.dev, false)) :
    x.access g b p sp kind dst size dsts ts acc =
      (x.on (fun d => d.begun g sp kind size dsts ts (accessOp g b p sp kind dst size ts acc))).pump g.core := by
  have hwatch : (if sp == .global then x.dev.watchLanes g (if kind == .load then 0 else 1) size ts else (x.dev, false)) = (x.dev, false) := by
    by_cases hsp : sp = .global
    · rw [h hsp, ite_self]
    · rw [if_neg (by simpa using hsp)]
  simp only [X.access, hwatch, Bool.false_eq_true, if_false]
  rfl

theorem Dev.resolve_issue (d : Dev) (g : GRef) (cls : IClass) (c : CoreId) (b : Block) (sp : Space) (a n : Nat) :
    (d.issue g cls).resolve c b sp a n = d.resolve c b sp a n := rfl

/-- An access whose registers are ready and whose lanes' addresses resolve completes with its operation taken up and its core's operations advanced. -/
theorem completes_access {i : Instr} {s : State} {g : GRef} {b : Block} {q : Group} {p : RPath} {f : Block → Group → RPath → X → X} {P : State → Prop}
    {l : List Nat} {sp : Space} {kind : OpKind} {dst : Byte} {n agent : Nat} {dsts : List Nat} {ts : List (Nat × Nat)} {addr : Nat → Nat}
    {acc : Nat → Nat → LaneAcc} (hexec : exec i s = onGroup s g .m f) (h : s.dev.Issues g .m b q p) (hready : Ready b q l)
    (hreach : s.dev.Reaches g b p sp agent n addr ts) (hagent : (if kind == .load then 0 else 1) = agent)
    (hf : f b q p { dev := s.dev.issue g .m, mem := s.mem, mram := s.mram } = X.withRegs { dev := s.dev.issue g .m, mem := s.mem, mram := s.mram } g b p l
      (fun x => x.resolveAll g b p sp n addr (fun ts x => x.access g b p sp kind dst n dsts ts acc)))
    (y : X) (hy : y = (s.takenUp g sp kind n dsts ts (accessOp g b p sp kind dst n ts acc)).pump g.core)
    (hp : P { s with dev := y.dev, mem := applyAll s.mem y.ops.reverse, mram := y.mops.reverse.foldl applyMram s.mram }) : Completes i s P := by
  obtain ⟨hts, hwatch⟩ := hreach
  have hgroup := ((Dev.grp_iff _ _ _ _).1 h.2.1).2
  have htargets : (bits p.mask).map (fun l => (l, (s.dev.issue g .m).resolve g.core b sp (addr l) n)) = ts.map (fun e => (e.1, Target'.ok e.2)) := by
    simpa only [Dev.resolve_issue] using hts
  have haccess := X.access_unwatched { dev := s.dev.issue g .m, mem := s.mem, mram := s.mram } g b p sp kind dst n dsts ts acc (fun hsp => hagent ▸ hwatch hsp)
  have hview := hf.trans ((X.withRegs_ready _ g b q p l _ hgroup hready).trans
    ((X.resolveAll_ok { dev := s.dev.issue g .m, mem := s.mem, mram := s.mram } g b p sp n addr _ ts htargets).trans (haccess.trans hy.symm)))
  have hnext : exec i s = .next { s with dev := y.dev, mem := applyAll s.mem y.ops.reverse, mram := y.mops.reverse.foldl applyMram s.mram } := by
    rw [hexec, onGroup_issues s g .m f b q p h, run_eq, hview]
  exact ⟨_, hnext, hp⟩

theorem Only.countAccess {l : List Part} {d e : Dev} (c : CoreId) (sp : Space) (ts : List (Nat × Nat)) (h : Only l d e) (h0 : Part.cnt ∈ l) :
    Only l d (e.countAccess c sp ts) := by
  cases sp with
  | global =>
    have hmisses : ∀ n : Nat, Only l d (match n with | 0 => e | n => e.profile (vitOfCore c) 4 n) := fun n => by
      split
      · exact h
      · exact h.profile (vitOfCore c) 4 _ h0
    exact hmisses (e.missLines c ts)
  | scratch => exact h
  | step => exact h.profile _ _ _ h0
  | cluster => exact h.profile _ _ _ h0

theorem Only.occupy {l : List Part} {d e : Dev} (c : CoreId) (cls : IClass) (n : Nat) (h : Only l d e) (h0 : Part.cores ∈ l) : Only l d (e.occupy c cls n) :=
  h.setCore _ _ h0

section Begun
variable (d : Dev) (g : GRef) (sp : Space) (kind : OpKind) (size : Nat) (dsts : List Nat) (ts : List (Nat × Nat)) (o : Nat → OutOp)

theorem Dev.opTaken_only : Only [.cores, .cnt] d (d.opTaken g sp kind size ts o) :=
  (((Only.refl _ d).countAccess _ _ _ (by simp)).occupy _ _ _ (by simp)).setCore _ _ (by simp)

theorem Dev.opTaken_core : (d.opTaken g sp kind size ts o).core g.core = { d.core g.core with
    busy := ((d.opTaken g sp kind size ts o).core g.core).busy, ops := (d.core g.core).ops ++ [o (d.core g.core).nextOp], nextOp := (d.core g.core).nextOp + 1 } := by
  have hcount : (d.countAccess g.core sp ts).core g.core = d.core g.core := ((Only.refl [.cnt] d).countAccess _ _ _ (by simp)).core (by simp) _
  rw [Dev.opTaken, Dev.core_setCore, Dev.occupy, Dev.core_setCore, hcount]

theorem Dev.opTaken_core_ne (c : CoreId) (hc : c ≠ g.core) : (d.opTaken g sp kind size ts o).core c = d.core c := by
  rw [Dev.opTaken, Dev.core_setCore_ne _ _ _ _ hc, Dev.occupy, Dev.core_setCore_ne _ _ _ _ hc,
    ((Only.refl [.cnt] d).countAccess _ _ _ (by simp)).core (by simp)]

theorem Dev.begun_slots : Dev.OnlySlots g.core (d.opTaken g sp kind size ts o) (d.begun g sp kind size dsts ts o) := Dev.OnlySlots.stepGrp _ g _

theorem Dev.begun_only : Only [.cores, .cnt] d (d.begun g sp kind size dsts ts o) :=
  (d.opTaken_only g sp kind size ts o).trans ((d.begun_slots g sp kind size dsts ts o).only.mono (by simp))

theorem Dev.begun_ops : ((d.begun g sp kind size dsts ts o).core g.core).ops = (d.core g.core).ops ++ [o (d.core g.core).nextOp] := by
  rw [(d.begun_slots g sp kind size dsts ts o).self, Dev.opTaken_core]

theorem Dev.begun_nextOp : ((d.begun g sp kind size dsts ts o).core g.core).nextOp = (d.core g.core).nextOp + 1 := by
  rw [(d.begun_slots g sp kind size dsts ts o).self, Dev.opTaken_core]

theorem Dev.begun_exc (c : CoreId) : ((d.begun g sp kind size dsts ts o).core c).exc = (d.core c).exc := by
  by_cases hc : c = g.core
  · rw [hc, (d.begun_slots g sp kind size dsts ts o).self, Dev.opTaken_core]
  · rw [(d.begun_slots g sp kind size dsts ts o).ne c hc, Dev.opTaken_core_ne _ _ _ _ _ _ _ c hc]

theorem Dev.begun_groupOf {b : Block} {q : Group} {p : RPath} (h : d.grp g = some (b, q)) (hp : q.paths.head? = some p) :
    WentOn { q with busyRegs := q.busyRegs ++ dsts.map (BitVec.ofNat 8) } ((d.begun g sp kind size dsts ts o).groupOf g) p := by
  have hgrp : (d.opTaken g sp kind size ts o).grp g = some (b, q) := by
    have hslots : ((d.opTaken g sp kind size ts o).core g.core).slots = (d.core g.core).slots := by rw [Dev.opTaken_core]
    rw [← h]
    simp only [Dev.grp, Dev.blk, hslots]
  rw [Dev.begun, Dev.groupOf_stepGrp _ g _ b q hgrp]
  exact wentOn_settled_next hp

end Begun

/-- The parts that the traffic of accesses can change. -/
theorem Flow.only {d e : Dev} (h : Flow d e) : Only [.vits, .cores, .gal, .cnt, .msgs, .mesh, .fresh, .hbm, .rel] d e := by
  intro s p hp
  rw [h.dev]
  cases p <;> first | rfl | simp at hp

theorem Flow.groupOf {d e : Dev} (h : Flow d e) (g : GRef) : e.groupOf g = d.groupOf g := by
  have hslots : (e.core g.core).slots = (d.core g.core).slots := by rw [h.core]
  simp only [Dev.groupOf, Dev.grp, Dev.blk, hslots]

/-- The frame of a view whose listed changes are of memory alone. -/
theorem Only.keeps_view {l : List Part} {s : State} {y : X} (h : Only l s.dev y.dev) (hmops : y.mops = []) :
    Keeps (.mem :: l) s { s with dev := y.dev, mem := applyAll s.mem y.ops.reverse, mram := y.mops.reverse.foldl applyMram s.mram } := by
  refine ⟨rfl, fun p hp => ?_⟩
  have hsame := h s p (fun hin => hp (List.mem_cons_of_mem _ hin))
  cases p with
  | mem => exact absurd List.mem_cons_self hp
  | mram => simp only [Part.Same, hmops]; rfl
  | _ => exact hsame

section TakenUp
variable (s : State) (g : GRef) (sp : Space) (kind : OpKind) (size : Nat) (dsts : List Nat) (ts : List (Nat × Nat)) (o : Nat → OutOp)

theorem State.takenUp_only : Only [.cores, .cnt] s.dev (s.takenUp g sp kind size dsts ts o).dev :=
  (((Dev.issue_eq s.dev g .m) ▸ (Only.refl _ s.dev).with_cores _ (by simp) : Only [.cores] s.dev (s.dev.issue g .m)).mono (by simp)).trans
    (Dev.begun_only _ g sp kind size dsts ts o)

theorem State.takenUp_allSplit (hsplit : s.dev.AllSplit) : (s.takenUp g sp kind size dsts ts o).AllSplit := fun i hi => by
  rw [(s.takenUp_only g sp kind size dsts ts o).fab (by simp)] at hi
  exact hsplit i hi

end TakenUp

/-- An access taken up has begun, whatever the traffic that advances its core's operations does. -/
theorem began_of_begun {s : State} {g : GRef} {b : Block} {q : Group} {p : RPath} (h : s.dev.Issues g .m b q p) (hsplit : s.dev.AllSplit)
    (sp : Space) (kind : OpKind) (size : Nat) (dsts : List Nat) (ts : List (Nat × Nat)) (o : Nat → OutOp) {y : X}
    (hy : y = (s.takenUp g sp kind size dsts ts o).pump g.core) :
    Began g q p dsts s { s with dev := y.dev, mem := applyAll s.mem y.ops.reverse, mram := y.mops.reverse.foldl applyMram s.mram } := by
  have htraffic := Traffic.pump _ g.core (s.takenUp_allSplit g sp kind size dsts ts o hsplit)
  rw [← hy] at htraffic
  have hframe := ((s.takenUp_only g sp kind size dsts ts o).mono (m := [.vits, .cores, .gal, .cnt, .msgs, .mesh, .fresh, .hbm, .rel]) (by simp)).trans htraffic.flow.only
  refine ⟨(hframe.keeps_view htraffic.mops).mono (by simp), ?_, ?_, fun c => ?_⟩
  · rw [htraffic.flow.groupOf]
    exact Dev.begun_groupOf _ g sp kind size dsts ts o ((Dev.grp_issue _ _ _ _).trans h.2.1) h.2.2.1
  · show (y.dev.core g.core).nextOp = _
    rw [htraffic.flow.core]
    refine (Dev.begun_nextOp _ g sp kind size dsts ts o).trans ?_
    rw [Dev.core_issue]
  · show (y.dev.core c).exc = _
    rw [htraffic.flow.core]
    exact (Dev.begun_exc _ g sp kind size dsts ts o c).trans (Dev.exc_issue _ _ _ _)

/-- Settles O16: each of the four takes up its access (`completes_access`), which has then begun (`began_of_begun`). -/
theorem accessesBegin : Obligations.AccessesBegin := by
  intro s g b q p sp ra imm ts h hsplit
  refine ⟨fun size n dst hsize hreach hready => ?load, fun size n src hsize hreach hready => ?store,
    fun op wide n dst val cmp hwide hn hreach hready => ?atomic, fun op src hsp hreach hready => ?red⟩
  case load =>
    have hexec : exec (.load g sp size dst ra imm) s = execLoad g sp size dst ra imm s := rfl
    simp only [execLoad, hsize] at hexec
    exact completes_access hexec h hready hreach rfl rfl _ rfl (began_of_begun h hsplit _ _ _ _ _ _ rfl)
  case store =>
    have hexec : exec (.store g sp size ra imm src) s = execStore g sp size ra imm src s := rfl
    simp only [execStore, hsize] at hexec
    exact completes_access hexec h hready hreach rfl rfl _ rfl (began_of_begun h hsplit _ _ _ _ _ _ rfl)
  case atomic =>
    have hexec : exec (.atomic g sp op wide dst ra imm val cmp) s = execAtomic g sp op wide dst ra imm val cmp s := rfl
    simp only [execAtomic, hwide, Bool.false_eq_true, if_false, ← hn] at hexec
    exact completes_access hexec h hready hreach rfl rfl _ rfl (began_of_begun h hsplit _ _ _ _ _ _ rfl)
  case red =>
    subst hsp
    have hexec : exec (.red g .global op ra imm src) s = execRed g .global op ra imm src s := rfl
    simp only [execRed, bne_self_eq_false, Bool.false_eq_true, if_false] at hexec
    exact completes_access hexec h hready hreach rfl rfl _ rfl (began_of_begun h hsplit _ _ _ _ _ _ rfl)

end Sys2Proof.Machine

namespace Sys2Proof.Machine

/-! ### Local accesses are performed at once (O17) -/

theorem kfind_foldl_kset_of_notMem {α β : Type} (k : β → Nat) (v : β → α) (l : List β) (m : KMap α) (i : Nat) (h : i ∉ l.map k) :
    kfind (l.foldl (fun m b => kset m (k b) (v b)) m) i = kfind m i := by
  induction l generalizing m with
  | nil => rfl
  | cons b l ih =>
    simp only [List.map_cons, List.mem_cons, not_or] at h
    rw [List.foldl_cons, ih _ h.2, kfind_kset_ne _ _ _ _ h.1]

theorem kfind_foldl_kset_of_mem {α β : Type} (k : β → Nat) (v : β → α) (l : List β) (m : KMap α) (b : β) (hnodup : (l.map k).Nodup) (hb : b ∈ l) :
    kfind (l.foldl (fun m b => kset m (k b) (v b)) m) (k b) = some (v b) := by
  induction l generalizing m with
  | nil => simp at hb
  | cons a l ih =>
    simp only [List.map_cons, List.nodup_cons] at hnodup
    rcases List.mem_cons.1 hb with rfl | hb
    · rw [List.foldl_cons, kfind_foldl_kset_of_notMem k v l _ _ hnodup.1, kfind_kset]
    · exact ih _ hnodup.2 hb

/-! The one operation of a core, and the pump's pass over its lines. -/

/-- The core's one operation in progress. -/
def X.Alone (y : X) (c : CoreId) (o : OutOp) : Prop := (y.dev.core c).ops = [o]

/-- One line of the pass that advances an operation. -/
def X.pumpLine (c : CoreId) (id : Nat) (y : X) (l : Nat) : X :=
  match y.dev.op? c id with
  | none => y
  | some p =>
    if !(y.dev.core c).mayGo p l then y
    else match p.kind with
      | .load => y.loadLine c p l
      | .store => y.storeLine c p l
      | .atom _ => y.atomLine c p l

/-- The lines that an operation's accesses touch, each once. -/
def OutOp.lines (o : OutOp) : List Nat := (o.accs.map LaneAcc.line).eraseDups

theorem OutOp.lines_cons {o : OutOp} {a : LaneAcc} {as : List LaneAcc} (h : o.accs = a :: as) :
    o.lines = a.line :: (o.dropLine a.line).lines := by
  simp only [OutOp.lines, OutOp.dropLine, h, List.map_cons, List.eraseDups_cons, List.filter_map]
  simp [Function.comp_def, bne]

theorem OutOp.length_dropLine {o : OutOp} {a : LaneAcc} {as : List LaneAcc} (h : o.accs = a :: as) : (o.dropLine a.line).accs.length < o.accs.length := by
  have := List.length_filter_le (fun b => b.line != a.line) as
  simp [OutOp.dropLine, h]
  omega

namespace X.Alone
variable {y : X} {c : CoreId} {o : OutOp}

theorem op?_eq (h : y.Alone c o) : y.dev.op? c o.id = some o := by
  simp [Dev.op?, show (y.dev.core c).ops = [o] from h]

theorem setOp (h : y.Alone c o) (f : OutOp → OutOp) : (y.on (fun d => d.setOp c o.id f)).Alone c (f o) := by
  simp [X.Alone, X.on, Dev.setOp, Dev.core_setCore, show (y.dev.core c).ops = [o] from h, updFirst]

/-- The order of its thread holds back no load of the one operation. -/
theorem mayGo_load (h : y.Alone c o) (hkind : o.kind = .load) (l : Nat) : (y.dev.core c).mayGo o l = true := by
  simp [Core.mayGo, show (y.dev.core c).ops = [o] from h, hkind]

/-- The order of its thread does not hold back the first line of the one store. -/
theorem mayGo_store (h : y.Alone c o) (hkind : o.kind = .store) {a : LaneAcc} {as : List LaneAcc} (haccs : o.accs = a :: as) :
    (y.dev.core c).mayGo o a.line = true := by
  simp [Core.mayGo, show (y.dev.core c).ops = [o] from h, hkind, haccs]

theorem pumpLine_load (h : y.Alone c o) (hkind : o.kind = .load) (l : Nat) : X.pumpLine c o.id y l = y.loadLine c o l := by
  simp [X.pumpLine, h.op?_eq, h.mayGo_load hkind, hkind]

theorem pumpLine_store (h : y.Alone c o) (hkind : o.kind = .store) {a : LaneAcc} {as : List LaneAcc} (haccs : o.accs = a :: as) :
    X.pumpLine c o.id y a.line = y.storeLine c o a.line := by
  simp [X.pumpLine, h.op?_eq, h.mayGo_store hkind haccs, hkind]

/-- To advance the operations of a core that has one, none of whose accesses has been sent, is to pass over its lines. -/
theorem pump_eq (h : y.Alone c o) (hsent : ∀ a ∈ o.accs, a.sent = false) (hsplit : y.AllSplit) :
    y.pump c = (o.lines.foldl (X.pumpLine c o.id) y).on (fun d => d.reap c) := by
  have hfresh : o.accs.filter (fun a => !a.sent) = o.accs := List.filter_eq_self.2 (fun a ha => by simp [hsent a ha])
  have hpass : X.pumpOp c y o.id = o.lines.foldl (X.pumpLine c o.id) y := by
    simp only [X.pumpOp, h.op?_eq, hfresh]
    rfl
  have hstill := (Traffic.pumpOp c y o.id).allSplit hsplit
  rw [hpass] at hstill
  simp only [X.pump, show (y.dev.core c).ops = [o] from h, List.map_cons, List.map_nil, List.foldl_cons, List.foldl_nil, hpass,
    Traffic.remotePump _ c hstill]

end X.Alone

/-! A load. -/

/-- The value that an access takes from a local store. -/
def LaneAcc.valueIn (a : LaneAcc) (m : Mems) (sp : MemSp) : Nat := lineGet (lineOf (m.bytes sp (a.line * 128) 128)) (a.addr % 128) a.size

/-- A load with some of its accesses performed from the memory: each one that is no longer outstanding has left its lane's value. -/
structure OutOp.Took (m : Mems) (o p : OutOp) : Prop where
  same : p.id = o.id ∧ p.kind = o.kind ∧ p.space = o.space ∧ p.dst = o.dst ∧ p.size = o.size
  accs : p.accs.Sublist o.accs
  taken : ∀ a ∈ o.accs, a ∉ p.accs → kfind p.vals a.lane = some (a.valueIn m (localSp o.space))
  others : ∀ l, (l ∈ p.accs.map LaneAcc.lane ∨ l ∉ o.accs.map LaneAcc.lane) → kfind p.vals l = kfind o.vals l

theorem OutOp.Took.refl (m : Mems) (o : OutOp) : o.Took m o :=
  ⟨⟨rfl, rfl, rfl, rfl, rfl⟩, List.Sublist.refl _, fun _ h h' => absurd h h', fun _ _ => rfl⟩

theorem OutOp.Took.trans {m : Mems} {o p q : OutOp} (h : o.Took m p) (k : p.Took m q) (hnodup : (o.accs.map LaneAcc.lane).Nodup) : o.Took m q := by
  obtain ⟨hid, hkind, hspace, hdst, hsize⟩ := h.same
  obtain ⟨kid, kkind, kspace, kdst, ksize⟩ := k.same
  refine ⟨⟨kid.trans hid, kkind.trans hkind, kspace.trans hspace, kdst.trans hdst, ksize.trans hsize⟩, k.accs.trans h.accs, fun a ha hq => ?_, fun l hl => ?_⟩
  · by_cases hp : a ∈ p.accs
    · rw [k.taken a hp hq, hspace]
    · have hlane : a.lane ∉ p.accs.map LaneAcc.lane := fun hin => by
        obtain ⟨b, hb, hab⟩ := List.mem_map.1 hin
        exact hp (List.inj_on_of_nodup_map hnodup (h.accs.subset hb) ha hab ▸ hb)
      rw [k.others a.lane (.inr hlane), h.taken a ha hp]
  · have hsub := (k.accs.map LaneAcc.lane).subset
    have hsub' := (h.accs.map LaneAcc.lane).subset
    rcases hl with hl | hl
    · rw [k.others l (.inl hl), h.others l (.inl (hsub hl))]
    · rw [k.others l (.inr (fun hp => hl (hsub' hp))), h.others l (.inr hl)]

/-- One line's lanes take their values. -/
theorem OutOp.took_capture (m : Mems) (o : OutOp) (l : Nat) (hnodup : (o.accs.map LaneAcc.lane).Nodup) :
    o.Took m (o.capture l (lineOf (m.bytes (localSp o.space) (l * 128) 128)) 0) := by
  have hhere : (((o.accs.filter (fun a => a.line == l)).map LaneAcc.lane)).Nodup := hnodup.sublist (List.filter_sublist.map LaneAcc.lane)
  refine ⟨⟨rfl, rfl, rfl, rfl, rfl⟩, List.filter_sublist, fun a ha hgone => ?_, fun i hi => ?_⟩
  · have hline : a.line = l := by simpa [OutOp.capture, ha] using hgone
    subst hline
    exact kfind_foldl_kset_of_mem LaneAcc.lane _ _ _ a hhere (List.mem_filter.2 ⟨ha, by simp⟩)
  · refine kfind_foldl_kset_of_notMem LaneAcc.lane _ _ _ i (fun hin => ?_)
    obtain ⟨a, ha, rfl⟩ := List.mem_map.1 hin
    obtain ⟨ha, hline⟩ := List.mem_filter.1 ha
    rcases hi with hi | hi
    · obtain ⟨b, hb, hab⟩ := List.mem_map.1 hi
      obtain ⟨hb, hother⟩ := List.mem_filter.1 hb
      rw [List.inj_on_of_nodup_map hnodup hb ha hab] at hother
      simp [eq_of_beq hline] at hother
    · exact hi (List.mem_map_of_mem ha)

/-- A line of the core's one local load: its lanes take their values, and no memory changes. -/
theorem X.Alone.loadLine_local {y : X} {c : CoreId} {o : OutOp} (h : y.Alone c o) (hspace : o.space ≠ .global) (l : Nat) :
    ∃ d, y.loadLine c o l = { y with dev := d } ∧
      ({ y with dev := d } : X).Alone c (o.capture l (lineOf (y.mem.bytes (localSp o.space) (l * 128) 128)) 0) := by
  have hline : y.loadLine c o l = y.on (fun d => d.setOp c o.id (fun p => p.capture l (lineOf (y.mem.bytes (localSp o.space) (l * 128) 128)) 0)) := by
    simp [X.loadLine, hspace]
  exact ⟨_, hline, h.setOp (fun p => p.capture l (lineOf (y.mem.bytes (localSp o.space) (l * 128) 128)) 0)⟩

/-- The pass over the lines of a core's one local load leaves it with its lanes' values and nothing outstanding, and changes no memory. -/
theorem X.Alone.foldl_load {y : X} {c : CoreId} {o : OutOp} (h : y.Alone c o) (hkind : o.kind = .load) (hspace : o.space ≠ .global)
    (hnodup : (o.accs.map LaneAcc.lane).Nodup) :
    ∃ p d, o.lines.foldl (X.pumpLine c o.id) y = { y with dev := d } ∧ ({ y with dev := d } : X).Alone c p ∧ o.Took y.mem p ∧ p.accs = [] := by
  match haccs : o.accs with
  | [] => exact ⟨o, y.dev, by simp [OutOp.lines, haccs], h, .refl _ _, haccs⟩
  | a :: as =>
    obtain ⟨d, hline, halone⟩ := h.loadLine_local hspace a.line
    have htook := o.took_capture y.mem a.line hnodup
    have hshrinks := OutOp.length_dropLine haccs
    obtain ⟨p, e, hfold, hp, hrest, hdone⟩ := halone.foldl_load hkind hspace (hnodup.sublist (htook.accs.map _))
    refine ⟨p, e, ?_, hp, htook.trans hrest hnodup, hdone⟩
    rw [OutOp.lines_cons haccs, List.foldl_cons, h.pumpLine_load hkind, hline]
    exact hfold
  termination_by o.accs.length

/-! A store. -/

/-- The access addresses a byte. -/
def LaneAcc.Covers (a : LaneAcc) (k : Nat) : Prop := a.addr ≤ k ∧ k < a.addr + a.size

/-- The byte that an access stores at an offset from its address. -/
def LaneAcc.storedByte (a : LaneAcc) (i : Nat) : Byte := (leBytes a.val a.size)[i]?.getD 0

/-- The stores of the accesses of a list, in some order, are what changed the memory of a view, and they stand in its list of changes. -/
structure X.Stored (sp : MemSp) (l : List LaneAcc) (y z : X) : Prop where
  listed : ∀ m, y.mem = applyAll m y.ops.reverse → z.mem = applyAll m z.ops.reverse
  wf : Memory.wf y.mem = true → Memory.wf z.mem = true
  frame : ∀ tp k, (tp ≠ sp ∨ ∀ a ∈ l, ¬ a.Covers k) → z.mem.byte tp k = y.mem.byte tp k
  value : Memory.wf y.mem = true → ∀ a ∈ l, ∀ i < a.size, (∀ b ∈ l, b.Covers (a.addr + i) → b = a) → z.mem.byte sp (a.addr + i) = a.storedByte i

theorem X.putBytes_concat (y : X) (sp : MemSp) (a : Nat) (l : List Byte) (b : Byte) :
    y.putBytes sp a (l ++ [b]) = (y.putBytes sp a l).op (.set sp (a + l.length) b) := by
  simp [X.putBytes, List.zipIdx_append]

/-- Bytes put at an address are listed, keep the canonical form, and change nothing but the bytes there. -/
theorem X.putBytes_keeps (y : X) (sp : MemSp) (a : Nat) (l : List Byte) :
    (∀ m, y.mem = applyAll m y.ops.reverse → (y.putBytes sp a l).mem = applyAll m (y.putBytes sp a l).ops.reverse) ∧
    (Memory.wf y.mem = true → Memory.wf (y.putBytes sp a l).mem = true) ∧
    (∀ tp k, (tp ≠ sp ∨ ¬ (a ≤ k ∧ k < a + l.length)) → (y.putBytes sp a l).mem.byte tp k = y.mem.byte tp k) := by
  induction l using List.reverseRecOn with
  | nil => exact ⟨fun _ h => h, fun h => h, fun _ _ _ => rfl⟩
  | append_singleton l b ih =>
    obtain ⟨hlisted, hwf, hframe⟩ := ih
    rw [X.putBytes_concat]
    refine ⟨fun m h => ?_, fun h => Memory.wf_applyOp _ _ (hwf h), fun tp k hk => ?_⟩
    · simp only [X.op_mem, X.op_ops, List.reverse_cons, applyAll, List.foldl_append, List.foldl_cons, List.foldl_nil]
      rw [hlisted m h]
      rfl
    · simp only [List.length_append, List.length_singleton] at hk
      rw [X.op_mem, Mems.byte_set_ne _ _ _ _ _ _ (hk.imp_right (by omega)), hframe tp k (hk.imp_right (by omega))]

/-- Bytes put at an address read back. -/
theorem X.byte_putBytes (y : X) (sp : MemSp) (a : Nat) (l : List Byte) (h : Memory.wf y.mem = true) (i : Nat) (hi : i < l.length) :
    (y.putBytes sp a l).mem.byte sp (a + i) = l[i]?.getD 0 := by
  induction l using List.reverseRecOn with
  | nil => simp at hi
  | append_singleton l b ih =>
    simp only [List.length_append, List.length_singleton] at hi
    rw [X.putBytes_concat, X.op_mem]
    by_cases hlast : i = l.length
    · subst hlast
      rw [Mems.byte_set _ _ _ _ ((y.putBytes_keeps sp a l).2.1 h)]
      simp
    · rw [Mems.byte_set_ne _ _ _ _ _ _ (.inr (by omega)), ih (by omega), List.getElem?_append_left (by omega)]

namespace X.Stored
variable {sp : MemSp} {y z w : X}

theorem refl (y : X) : X.Stored sp [] y y := ⟨fun _ h => h, fun h => h, fun _ _ _ => rfl, fun _ _ h => by simp at h⟩

theorem dev {l : List LaneAcc} (h : X.Stored sp l y z) (d : Dev) : X.Stored sp l y { z with dev := d } := ⟨h.listed, h.wf, h.frame, h.value⟩

/-- The store of one access. -/
theorem putBytes (y : X) (a : LaneAcc) : X.Stored sp [a] y (y.putBytes sp a.addr (leBytes a.val a.size)) := by
  obtain ⟨hlisted, hwf, hframe⟩ := y.putBytes_keeps sp a.addr (leBytes a.val a.size)
  refine ⟨hlisted, hwf, fun tp k hk => hframe tp k ?_, fun h b hb i hi _ => ?_⟩
  · simpa [LaneAcc.Covers, length_leBytes] using hk
  · rw [List.mem_singleton] at hb
    subst hb
    exact y.byte_putBytes sp _ _ h i (by rwa [length_leBytes])

/-- A byte that one access of two batches alone addresses holds its value after both. -/
theorem append {l m : List LaneAcc} (h : X.Stored sp l y z) (k : X.Stored sp m z w) : X.Stored sp (l ++ m) y w := by
  refine ⟨fun n hn => k.listed n (h.listed n hn), fun hy => k.wf (h.wf hy), fun tp b hb => ?_, fun hy a ha i hi halone => ?_⟩
  · rw [k.frame tp b (hb.imp_right (fun hb a ha => hb a (List.mem_append_right _ ha))),
      h.frame tp b (hb.imp_right (fun hb a ha => hb a (List.mem_append_left _ ha)))]
  · by_cases hm : a ∈ m
    · exact k.value (h.wf hy) a hm i hi (fun b hb => halone b (List.mem_append_right _ hb))
    · have hl : a ∈ l := (List.mem_append.1 ha).resolve_right hm
      rw [k.frame sp (a.addr + i) (.inr (fun b hb hcovers => hm (halone b (List.mem_append_right _ hb) hcovers ▸ hb)))]
      exact h.value hy a hl i hi (fun b hb => halone b (List.mem_append_left _ hb))

theorem congr {l m : List LaneAcc} (h : X.Stored sp l y z) (hlm : ∀ a, a ∈ l ↔ a ∈ m) : X.Stored sp m y z :=
  ⟨h.listed, h.wf, fun tp k hk => h.frame tp k (hk.imp_right (fun hk a ha => hk a ((hlm a).1 ha))),
    fun hy a ha i hi halone => h.value hy a ((hlm a).2 ha) i hi (fun b hb => halone b ((hlm b).1 hb))⟩

/-- The stores of a list of accesses, one after another. -/
theorem foldl (l : List LaneAcc) (y : X) : X.Stored sp l y (l.foldl (fun y a => y.putBytes sp a.addr (leBytes a.val a.size)) y) := by
  induction l generalizing y with
  | nil => exact refl y
  | cons a l ih => exact (putBytes y a).append (ih _)

end X.Stored

theorem X.dev_putBytes (y : X) (sp : MemSp) (a : Nat) (l : List Byte) : (y.putBytes sp a l).dev = y.dev :=
  foldl_keeps X.dev (fun (y : X) (e : Byte × Nat) => y.op (.set sp (a + e.2) e.1)) (fun _ _ => rfl) _ _

/-- A line of the core's one local store: its accesses are performed. -/
theorem X.Alone.storeLine_local {y : X} {c : CoreId} {o : OutOp} (h : y.Alone c o) (hspace : o.space ≠ .global) (l : Nat) :
    X.Stored (localSp o.space) (o.accs.filter (fun a => a.line == l)) y (y.storeLine c o l) ∧ (y.storeLine c o l).Alone c (o.dropLine l) := by
  have hline : y.storeLine c o l = X.on ((o.accs.filter (fun a => a.line == l)).foldl (fun y a => y.putBytes (localSp o.space) a.addr (leBytes a.val a.size)) y)
      (fun d => d.setOp c o.id (fun p => p.dropLine l)) := by
    simp [X.storeLine, hspace]
  have hdev : (X.dev ((o.accs.filter (fun a => a.line == l)).foldl (fun y a => y.putBytes (localSp o.space) a.addr (leBytes a.val a.size)) y)) = y.dev :=
    foldl_keeps X.dev _ (fun y a => y.dev_putBytes _ _ _) _ _
  rw [hline]
  exact ⟨(X.Stored.foldl _ y).dev _, X.Alone.setOp (by simpa only [X.Alone, hdev] using h) (fun p => p.dropLine l)⟩

/-- The pass over the lines of a core's one local store performs each of its accesses and leaves nothing outstanding. -/
theorem X.Alone.foldl_store {y : X} {c : CoreId} {o : OutOp} (h : y.Alone c o) (hkind : o.kind = .store) (hspace : o.space ≠ .global) :
    X.Stored (localSp o.space) o.accs y (o.lines.foldl (X.pumpLine c o.id) y) ∧ (o.lines.foldl (X.pumpLine c o.id) y).Alone c { o with accs := [] } := by
  match haccs : o.accs with
  | [] =>
    have hlines : o.lines = [] := by simp [OutOp.lines, haccs]
    rw [hlines]
    exact ⟨.refl y, by rw [← haccs]; exact h⟩
  | a :: as =>
    obtain ⟨hstored, halone⟩ := h.storeLine_local hspace a.line
    have hshrinks := OutOp.length_dropLine haccs
    obtain ⟨hrest, hdone⟩ := halone.foldl_store hkind hspace
    rw [OutOp.lines_cons haccs, List.foldl_cons, h.pumpLine_store hkind haccs, ← haccs]
    refine ⟨(hstored.append hrest).congr (fun b => ?_), hdone⟩
    simp only [OutOp.dropLine, List.mem_append, List.mem_filter, beq_iff_eq, bne_iff_ne]
    tauto
  termination_by o.accs.length

/-- A core whose one operation is a local load performs it whole. -/
theorem X.Alone.pump_load {y : X} {c : CoreId} {o : OutOp} (h : y.Alone c o) (hkind : o.kind = .load) (hspace : o.space ≠ .global)
    (hsent : ∀ a ∈ o.accs, a.sent = false) (hnodup : (o.accs.map LaneAcc.lane).Nodup) (hsplit : y.AllSplit) :
    ∃ p d, y.pump c = { y with dev := d } ∧ (d.core c).ops = [p] ∧ o.Took y.mem p ∧ p.accs = [] := by
  obtain ⟨p, d, hfold, hp, htook, hdone⟩ := h.foldl_load hkind hspace hnodup
  obtain ⟨-, hsame, -⟩ := htook.same
  refine ⟨p, d.reap c, ?_, ?_, htook, hdone⟩
  · rw [h.pump_eq hsent hsplit, hfold]
    rfl
  · rw [Dev.reap, Dev.core_setCore]
    simp [show (d.core c).ops = [p] from hp, hsame, hkind]

/-- A core whose one operation is a local store performs it whole and drops it. -/
theorem X.Alone.pump_store {y : X} {c : CoreId} {o : OutOp} (h : y.Alone c o) (hkind : o.kind = .store) (hspace : o.space ≠ .global)
    (hsent : ∀ a ∈ o.accs, a.sent = false) (hsplit : y.AllSplit) :
    X.Stored (localSp o.space) o.accs y (y.pump c) ∧ ((y.pump c).dev.core c).ops = [] := by
  obtain ⟨hstored, hdone⟩ := h.foldl_store hkind hspace
  rw [h.pump_eq hsent hsplit]
  refine ⟨hstored.dev _, ?_⟩
  simp only [X.on, Dev.reap, Dev.core_setCore]
  rw [show (((o.lines.foldl (X.pumpLine c o.id) y)).dev.core c).ops = [{ o with accs := [] }] from hdone]
  simp [hkind]

/-! The two instructions. -/

/-- The lanes whose addresses resolve are distinct. -/
theorem Dev.Reaches.nodup {d : Dev} {g : GRef} {b : Block} {p : RPath} {sp : Space} {agent n : Nat} {addr : Nat → Nat} {ts : List (Nat × Nat)}
    (h : d.Reaches g b p sp agent n addr ts) : (ts.map (·.1)).Nodup := by
  have hlanes : bits p.mask = ts.map (·.1) := by simpa [List.map_map, Function.comp_def] using congrArg (List.map Prod.fst) h.1
  rw [← hlanes]
  exact List.nodup_range.filter _

/-- A local access that resolves for a load resolves for every agent: no watch covers a local space. -/
theorem Dev.Reaches.of_local {d : Dev} {g : GRef} {b : Block} {p : RPath} {sp : Space} {agent n : Nat} {addr : Nat → Nat} {ts : List (Nat × Nat)}
    (h : d.Reaches g b p sp agent n addr ts) (hsp : sp ≠ .global) (agent' : Nat) : d.Reaches g b p sp agent' n addr ts :=
  ⟨h.1, fun hglobal => absurd hglobal hsp⟩

/-- An access taken up in a core with nothing outstanding is its one operation. -/
theorem State.takenUp_alone {s : State} {g : GRef} (hops : (s.dev.core g.core).ops = []) (sp : Space) (kind : OpKind) (size : Nat) (dsts : List Nat)
    (ts : List (Nat × Nat)) (o : Nat → OutOp) : (s.takenUp g sp kind size dsts ts o).Alone g.core (o (s.dev.core g.core).nextOp) := by
  have hcore := Dev.core_issue s.dev g .m
  refine (Dev.begun_ops (s.dev.issue g .m) g sp kind size dsts ts o).trans ?_
  rw [hcore]
  show (s.dev.core g.core).ops ++ _ = _
  rw [hops]
  rfl

/-- Settles O17: the operation taken up (`completes_access`) is alone in its core, so advancing it performs all of its accesses
(`X.Alone.pump_load`, `X.Alone.pump_store`). -/
theorem localAccessesArePerformed : Obligations.LocalAccessesArePerformed := by
  intro s g b q p sp ra imm ts size n h hsplit hops hsp hsize hwf hreach
  refine ⟨fun dst hready => ?load, fun src hready => ?store⟩
  case load =>
    have hexec : exec (.load g sp size dst ra imm) s = execLoad g sp size dst ra imm s := rfl
    simp only [execLoad, hsize] at hexec
    have halone := State.takenUp_alone hops sp .load n (lsuRegs dst.toNat n) ts
      (accessOp g b p sp .load dst n ts (fun l a => { lane := l, addr := a, size := n }))
    obtain ⟨o, d, hpump, hone, htook, hdone⟩ := halone.pump_load rfl hsp (List.forall_mem_map.2 (fun _ _ => rfl))
      (by simpa [accessOp, Function.comp_def] using hreach.nodup) (s.takenUp_allSplit _ _ _ _ _ _ _ hsplit)
    obtain ⟨-, hkind, -, hdst, hn⟩ := htook.same
    refine completes_access hexec h hready hreach rfl rfl _ hpump.symm ⟨rfl, o, hone, hkind, hdone, hdst, hn, fun l a hla => ?_⟩
    have hin : ({ lane := l, addr := a, size := n } : LaneAcc) ∈ ts.map (fun e => { lane := e.1, addr := e.2, size := n }) :=
      List.mem_map.2 ⟨(l, a), hla, rfl⟩
    exact htook.taken _ hin (by simp [hdone])
  case store =>
    have hexec : exec (.store g sp size ra imm src) s = execStore g sp size ra imm src s := rfl
    simp only [execStore, hsize] at hexec
    have halone := State.takenUp_alone hops sp .store n [] ts
      (accessOp g b p sp .store 0 n ts (fun l a => { lane := l, addr := a, size := n, val := q.regNat src.toNat l n }))
    obtain ⟨hstored, hnone⟩ := halone.pump_store rfl hsp (List.forall_mem_map.2 (fun _ _ => rfl)) (s.takenUp_allSplit _ _ _ _ _ _ _ hsplit)
    generalize hy : X.pump _ g.core = y at hstored hnone
    have hmem : y.mem = applyAll s.mem y.ops.reverse := hstored.listed s.mem rfl
    refine completes_access hexec h hready (hreach.of_local hsp 1) rfl rfl y hy.symm ⟨hnone, fun tp a hout => ?_, fun l a i hla hi honly => ?_⟩
    · refine (congrArg (Mems.byte · tp a) hmem.symm).trans (hstored.frame tp a (hout.imp_right (List.forall_mem_map.2 ·)))
    · have hin : ({ lane := l, addr := a, size := n, val := q.regNat src.toNat l n } : LaneAcc) ∈
          ts.map (fun e => { lane := e.1, addr := e.2, size := n, val := q.regNat src.toNat e.1 n }) := List.mem_map.2 ⟨(l, a), hla, rfl⟩
      refine (congrArg (Mems.byte · (localSp sp) (a + i)) hmem.symm).trans (hstored.value hwf _ hin i hi (List.forall_mem_map.2 (fun e he hcovers => ?_)))
      rw [honly e he hcovers.1 hcovers.2]

end Sys2Proof.Machine

namespace Sys2Proof.Machine

/-! ### Matrix instructions enter the queue (O33) -/

@[simp] theorem Dev.eng_issue (d : Dev) (g : GRef) (cls : IClass) (c : CoreId) : (d.issue g cls).eng c = d.eng c := by
  rw [Dev.eng, Dev.core_issue, Dev.eng]

/-- With room in the queue, an X-class instruction of a group that may issue is its effect alone. -/
theorem onX_issues {s : State} {g : GRef} {b : Block} {q : Group} {p : RPath} (f : Block → Group → RPath → X → X) (h : s.dev.Issues g .x b q p)
    (hroom : (s.dev.eng g.core).queue.length < 16) : onX s g f = run { s with dev := s.dev.issue g .x } (f b q p) := by
  rw [onX, onGroup_issues s g .x _ b q p h]
  exact run_congr _ _ _ (if_pos (by rwa [Dev.eng_issue]))

/-- An X-class instruction whose effect, once its group may issue and the queue has room, is a change of the machine alone completes with it. -/
theorem completes_onX {i : Instr} {s : State} {g : GRef} {b : Block} {q : Group} {p : RPath} {f : Block → Group → RPath → X → X} {P : State → Prop} (d : Dev)
    (hexec : exec i s = onX s g f) (h : s.dev.Issues g .x b q p) (hroom : (s.dev.eng g.core).queue.length < 16)
    (hf : f b q p { dev := s.dev.issue g .x, mem := s.mem, mram := s.mram } = { dev := d, mem := s.mem, mram := s.mram }) (hp : P { s with dev := d }) :
    Completes i s P := by
  refine ⟨_, ?_, hp⟩
  rw [hexec, onX_issues f h hroom, run_eq, hf]
  rfl

/-- Two blocks are the same block of the same launch, and their groups stand alike. -/
structure Block.SameWork (b e : Block) : Prop where
  groups : e.groups = b.groups
  launchIx : e.launchIx = b.launchIx
  index : e.index = b.index
  seq : e.seq = b.seq

theorem Block.SameWork.setBank {b e : Block} (h : b.SameWork e) (a : Bool) (f : Bank → Bank) : b.SameWork (e.setBank a f) := by
  cases a <;> exact ⟨h.groups, h.launchIx, h.index, h.seq⟩

theorem Block.SameWork.setCtx {b e : Block} (h : b.SameWork e) (w : Walker) (c : WkCtx) : b.SameWork (e.setCtx w c) := by
  cases w <;> exact ⟨h.groups, h.launchIx, h.index, h.seq⟩

theorem Block.SameWork.refl (b : Block) : b.SameWork b := ⟨rfl, rfl, rfl, rfl⟩

/-- The instruction that a group's path queues (R46, R70). -/
def Dev.queued (d : Dev) (g : GRef) (b : Block) (p : RPath) (op : EOp) (ra rb : CtxRef) (takes : Bool) (known : Option Nat) (sig : Option (BitVec 64)) : EInstr :=
  { id := (d.eng g.core).nextId, op, leader := b.leader, pc := p.pc, lanes := p.mask, at' := d.cycOf g.core, ra, rb, takes, known, sig,
    owner := { slot := g.slot.toNat, grp := g.grp.toNat, launchIx := b.launchIx, block := b.index, seq := b.seq } }

/-- The machine once a group has put an instruction last in its core's queue and gone on. -/
def Dev.pushed (d : Dev) (g : GRef) (i : EInstr) : Dev :=
  (d.setEng g.core (fun e => { e with nextId := e.nextId + 1, queue := e.queue ++ [i] })).stepGrp g Group.next

theorem X.enqueue_eq (x : X) (g : GRef) (b : Block) (p : RPath) (op : EOp) (ra rb : CtxRef) (takes : Bool) (known : Option Nat) (sig : Option (BitVec 64)) :
    x.enqueue g b p op ra rb takes known sig = x.on (fun d => d.pushed g (d.queued g b p op ra rb takes known sig)) := rfl

/-! What changes of the engine and of a block leave of each other. -/

@[simp] theorem Dev.eng_setEng (d : Dev) (c : CoreId) (f : Engine → Engine) : (d.setEng c f).eng c = f (d.eng c) := by
  simp only [Dev.eng, Dev.setEng, Dev.core_setCore]

theorem Dev.core_setEng_ne (d : Dev) (c k : CoreId) (f : Engine → Engine) (h : k ≠ c) : (d.setEng c f).core k = d.core k :=
  Dev.core_setCore_ne _ _ _ _ h

theorem Dev.core_setEng (d : Dev) (c k : CoreId) (f : Engine → Engine) : (d.setEng c f).core k = { d.core k with eng := (d.setEng c f).eng k } := by
  by_cases h : k = c
  · subst h; simp only [Dev.eng, Dev.setEng, Dev.core_setCore]
  · simp only [Dev.eng, Dev.core_setEng_ne d c k f h]

@[simp] theorem Dev.blk_setEng (d : Dev) (c k : CoreId) (f : Engine → Engine) (n : Nat) : (d.setEng c f).blk k n = d.blk k n := by
  simp only [Dev.blk]; rw [Dev.core_setEng]

@[simp] theorem Dev.grp_setEng (d : Dev) (c : CoreId) (f : Engine → Engine) (g : GRef) : (d.setEng c f).grp g = d.grp g := by
  simp only [Dev.grp, Dev.blk_setEng]

theorem Dev.OnlySlots.eng {c : CoreId} {d e : Dev} (h : Dev.OnlySlots c d e) (k : CoreId) : e.eng k = d.eng k := by
  by_cases hk : k = c
  · rw [hk, Dev.eng, h.self, Dev.eng]
  · rw [Dev.eng, h.ne k hk, Dev.eng]

/-- A step of a group leaves its block as it was but for the groups and the blocked time. -/
theorem Dev.blk_stepGrp (d : Dev) (g : GRef) (f : Group → Group) {b : Block} (h : d.blk g.core g.slot.toNat = some b) :
    ∃ e, (d.stepGrp g f).blk g.core g.slot.toNat = some e ∧ e = { b with groups := e.groups, blockedAt := e.blockedAt } := by
  rw [Dev.stepGrp, Dev.blk_updBlk, Dev.updGrp, Dev.blk_updBlk, h]
  refine ⟨_, rfl, ?_⟩
  cases hq : b.groups[g.grp.toNat]? with
  | none => simp only [hq]; rfl
  | some q => simp only [hq]; rfl

theorem Dev.blk_stepGrp_ne (d : Dev) (g : GRef) (f : Group → Group) (c : CoreId) (k : Nat) (h : c ≠ g.core ∨ k ≠ g.slot.toNat) :
    (d.stepGrp g f).blk c k = d.blk c k := by
  simp only [Dev.stepGrp, Dev.updGrp, Dev.blk_updBlk_ne _ _ _ _ _ _ h]

theorem Dev.grp_updBlk {d : Dev} {g : GRef} {b : Block} {q : Group} {F : Block → Block} (h : d.grp g = some (b, q)) (hF : (F b).groups = b.groups) :
    (d.updBlk g.core g.slot.toNat F).grp g = some (F b, q) := by
  obtain ⟨hb, hq⟩ := (Dev.grp_iff _ _ _ _).1 h
  rw [Dev.grp_iff, Dev.blk_updBlk, hb, hF]
  exact ⟨rfl, hq⟩

theorem Dev.issue_only (d : Dev) (g : GRef) (cls : IClass) : Only [.cores] d (d.issue g cls) :=
  Dev.issue_eq d g cls ▸ (Only.refl _ d).with_cores _ (by simp)

/-- What the machine is once a group has queued an instruction, its block's banks and contexts changed as `F` says. -/
theorem enqueued_pushed {s : State} {g : GRef} {b : Block} {q : Group} {p : RPath} (h : s.dev.Issues g .x b q p) (F : Block → Block) (hF : b.SameWork (F b))
    (op : EOp) (ra rb : CtxRef) (takes : Bool) (known : Option Nat) (sig : Option (BitVec 64)) {d : Dev}
    (hd : d = (s.dev.issue g .x).updBlk g.core g.slot.toNat F) :
    Enqueued g (F b) q p op ra rb s { s with dev := d.pushed g (d.queued g b p op ra rb takes known sig) } := by
  obtain ⟨-, hgrp, hpath, -⟩ := h
  have hchanged : Dev.OnlySlots g.core (s.dev.issue g .x) d := hd ▸ Dev.OnlySlots.updBlk _ _ _ _
  have heng : d.eng g.core = s.dev.eng g.core := (hchanged.eng _).trans (Dev.eng_issue _ _ _ _)
  have hnow : d.grp g = some (F b, q) := hd ▸ Dev.grp_updBlk (by rwa [Dev.grp_issue]) hF.groups
  have hblk := ((Dev.grp_iff _ _ _ _).1 hnow).1
  have honly : Only [.cores] s.dev d := (s.dev.issue_only g .x).trans hchanged.only
  have hstep := Dev.OnlySlots.stepGrp (d.setEng g.core (fun e => { e with nextId := e.nextId + 1, queue := e.queue ++ [d.queued g b p op ra rb takes known sig] })) g Group.next
  refine ⟨((honly.setEng _ _ (by simp)).trans hstep.only).keeps, fun c hc => ?_, ⟨d.queued g b p op ra rb takes known sig, rfl, rfl, rfl, rfl, rfl, ?_, ?_, ?_, ?_⟩, ?_, ?_⟩
  · exact (hstep.ne c hc).trans ((Dev.core_setEng_ne _ _ _ _ hc).trans ((hchanged.ne c hc).trans (Dev.core_issue_ne _ _ _ _ hc)))
  · exact honly.cycOf (by simp) (by simp) _
  · exact congrArg Engine.nextId heng
  · rw [hF.launchIx, hF.index, hF.seq]; rfl
  · exact (hstep.eng _).trans (by rw [Dev.eng_setEng, heng])
  · exact Dev.blk_stepGrp _ g _ ((Dev.blk_setEng _ _ _ _ _).trans hblk)
  · show WentOn q ((Dev.pushed d g _).groupOf g) p
    rw [Dev.pushed, Dev.groupOf_stepGrp _ g _ (F b) q ((Dev.grp_setEng _ _ _ _).trans hnow)]
    exact wentOn_settled_next hpath

/-- An X-class instruction whose effect is to change its block and to queue itself completes so. -/
theorem completes_enqueue {i : Instr} {s : State} {g : GRef} {b : Block} {q : Group} {p : RPath} {f : Block → Group → RPath → X → X}
    (F : Block → Block) {op : EOp} {ra rb : CtxRef} {takes : Bool} {known : Option Nat} {sig : Option (BitVec 64)} (hexec : exec i s = onX s g f)
    (h : s.dev.Issues g .x b q p) (hroom : (s.dev.eng g.core).queue.length < 16) (hF : b.SameWork (F b))
    (hf : f b q p { dev := s.dev.issue g .x, mem := s.mem, mram := s.mram } =
      (X.updBlk { dev := s.dev.issue g .x, mem := s.mem, mram := s.mram } g F).enqueue g b p op ra rb takes known sig) :
    Completes i s (Enqueued g (F b) q p op ra rb s) :=
  completes_onX _ hexec h hroom hf (enqueued_pushed h F hF op ra rb takes known sig rfl)

/-! A group's own instruction that is counted. -/

theorem OnlyGroup.toCounted {g : GRef} {s t : State} (h : OnlyGroup g s t) : CountedGroup g s t := ⟨h.1.mono (by simp), h.2⟩

/-- What a count beside the change of a group leaves. -/
theorem OnlyGroup.counted {g : GRef} {s : State} {d e : Dev} (h : OnlyGroup g s { s with dev := d }) (he : Only [.cnt] d e) : CountedGroup g s { s with dev := e } := by
  obtain ⟨hkeeps, hcores, hslots⟩ := h
  have hcore := he.core (by simp)
  refine ⟨(hkeeps.mono (by simp)).trans ⟨rfl, fun p hp => he _ p (fun hin => hp (List.mem_cons_of_mem _ hin))⟩, fun c hc => (hcore c).trans (hcores c hc), fun k hk => ?_⟩
  refine Eq.trans ?_ (hslots k hk)
  show e.blk _ _ = d.blk _ _
  rw [Dev.blk, hcore, Dev.blk]

theorem Dev.count_only (d : Dev) (i n r k : Nat) : Only [.cnt] d (d.count i n r k) := (Only.refl _ d).count _ _ _ _ (by simp)

/-- Counting and changing a block do not meet. -/
theorem Dev.updBlk_count (d : Dev) (c : CoreId) (k : Nat) (F : Block → Block) (i n r m : Nat) :
    (d.count i n r m).updBlk c k F = (d.updBlk c k F).count i n r m := by
  have hblk : (d.count i n r m).blk c k = d.blk c k := rfl
  simp only [Dev.updBlk, hblk]
  cases d.blk c k <;> rfl

theorem Dev.stepGrp_count (d : Dev) (g : GRef) (F : Group → Group) (i n r m : Nat) : (d.count i n r m).stepGrp g F = (d.stepGrp g F).count i n r m := by
  simp only [Dev.stepGrp, Dev.updGrp, Dev.updBlk_count]; rfl

/-- The group at MX.WAIT: it has gone on, and is held while `held` says so (R70). -/
def Group.waitMx (q : Group) (now : Nat) (held : Option Nat) : Group := { q.next with mxWait := held, mxFrom := now }

theorem Group.waitMx_settled {q : Group} {p : RPath} (hp : q.paths.head? = some p) (now : Nat) (held : Option Nat) : (q.waitMx now held).settled =
    { q with paths := { p with pc := Config.pcNext p.pc } :: q.paths.tail, active := (q.waitMx now held).settled.active, mxFrom := now, mxWait := held } := by
  rw [Group.waitMx, Group.next_eq q p q.paths.tail (paths_of_head hp)]
  exact Group.settled_eq _

theorem Dev.groupOf_count (d : Dev) (i n r k : Nat) (g : GRef) : (d.count i n r k).groupOf g = d.groupOf g := rfl

theorem Completes.imp {i : Instr} {s : State} {P Q : State → Prop} (h : Completes i s P) (hPQ : ∀ t, P t → Q t) : Completes i s Q := by
  obtain ⟨t, hexec, hP⟩ := h
  exact ⟨t, hexec, hPQ t hP⟩

section Counted
variable {s : State} {g : GRef} {b : Block} {q : Group} {p : RPath}

/-- MX.WAIT with more than n instructions of its block remaining holds its group (R70). -/
theorem mxWait_holds (h : s.dev.Issues g .x b q p) (hroom : (s.dev.eng g.core).queue.length < 16) {n : BitVec 4}
    (hheld : n.toNat < (s.dev.eng g.core).load g.slot.toNat) :
    Completes (.mxWait g n) s (fun t => OnlyGroup g s t ∧ t.dev.groupOf g = (q.waitMx (s.dev.cycOf g.core) (some n.toNat)).settled) := by
  have hexec : exec (.mxWait g n) s = execMxWait g n s := rfl
  rw [execMxWait] at hexec
  refine completes_onX ((s.dev.issue g .x).stepGrp g (fun k => k.waitMx (s.dev.cycOf g.core) (some n.toNat))) hexec h hroom ?_
    ⟨onlyGroup_issue s g .x _, Dev.groupOf_stepGrp _ g _ b q ((Dev.grp_issue _ _ _ _).trans h.2.1)⟩
  simp only [X.on, Dev.eng_issue, if_pos hheld]; rfl

/-- MX.WAIT with no more than n instructions of its block remaining completes and is counted (R70, R90). -/
theorem mxWait_passes (h : s.dev.Issues g .x b q p) (hroom : (s.dev.eng g.core).queue.length < 16) {n : BitVec 4}
    (hfree : ¬ n.toNat < (s.dev.eng g.core).load g.slot.toNat) :
    Completes (.mxWait g n) s (fun t => CountedGroup g s t ∧ t.dev.groupOf g = (q.waitMx (s.dev.cycOf g.core) none).settled ∧
      t.dev.counter 0x8011 1 (vitOfCore g.core).toNat = (s.dev.counter 0x8011 1 (vitOfCore g.core).toNat + 1) % 2 ^ 64) := by
  have hexec : exec (.mxWait g n) s = execMxWait g n s := rfl
  rw [execMxWait] at hexec
  refine completes_onX (((s.dev.issue g .x).stepGrp g (fun k => k.waitMx (s.dev.cycOf g.core) none)).count 0x8011 1 (vitOfCore g.core).toNat) hexec h hroom ?_
    ⟨(onlyGroup_issue s g .x _).counted (Dev.count_only _ _ _ _ _), ?_, ?_⟩
  · simp only [X.on, Dev.eng_issue, if_neg hfree, Dev.stepGrp_count]; rfl
  · exact (Dev.groupOf_count _ _ _ _ _ _).trans (Dev.groupOf_stepGrp _ g _ b q ((Dev.grp_issue _ _ _ _).trans h.2.1))
  · rw [Dev.counter_count]
    simp only [Dev.counter, Dev.stepGrp_cnt, Dev.issue_cnt]

/-- The word MX.RDACC selects for a lane (R85): of the residue shadows, the promotion buffer, the lane residues, or a bank of its block. -/
def rdaccWord (e : Engine) (b : Block) (sel l : Nat) : Word :=
  match fld sel 8 2 with
  | 0 => BitVec.ofInt 32 (nthD 0 e.shadow (fld sel 2 6 * 64 + (fld sel 0 1 * 32 + l)))
  | 1 => kget 0 e.promo (fld sel 2 6 * 64 + (fld sel 0 1 * 32 + l))
  | 2 => BitVec.ofNat 32 (nthD 0 e.lane (fld sel 0 1 * 32 + l))
  | _ => kget 0 (b.bank (fld sel 1 1 == 1)).vals (fld sel 2 6 * 64 + (fld sel 0 1 * 32 + l))

/-- MX.RDACC over ready registers, with nothing of its block in the engine, writes the words it selects (R85) and is counted (R90). -/
theorem mxRdacc_completes (h : s.dev.Issues g .x b q p) (hroom : (s.dev.eng g.core).queue.length < 16) {dst rsel : Byte} {sel : Nat}
    (hready : Ready b q [dst.toNat, rsel.toNat]) (hdebug : s.dev.vset (((s.dev.vit (vitOfCore g.core)).leader).getD b.leader) 0xD 1 = 1)
    (hload : (s.dev.eng g.core).load g.slot.toNat = 0) (hsel : sel = (q.reg rsel.toNat (lowLane p.mask)).toNat)
    (hopen : fld sel 8 2 = 3 → (b.bank (fld sel 1 1 == 1)).isOpen = true) :
    Completes (.mxRdacc g dst rsel) s (fun t => CountedGroup g s t ∧ Wrote q (t.dev.groupOf g) p dst.toNat (rdaccWord (s.dev.eng g.core) b sel) (fun _ => 0)) := by
  have hexec : exec (.mxRdacc g dst rsel) s = execMxRdacc g dst rsel s := rfl
  rw [execMxRdacc] at hexec
  have hgrp : (s.dev.issue g .x).grp g = some (b, q) := (Dev.grp_issue _ _ _ _).trans h.2.1
  have hmode : ¬ (s.dev.vset (((s.dev.vit (vitOfCore g.core)).leader).getD b.leader) 0xD 1 != 1) = true := by simp [hdebug]
  have hidle : ¬ 0 < (s.dev.eng g.core).load g.slot.toNat := by omega
  have hbank : ¬ (fld sel 8 2 == 3 && !(b.bank (fld sel 1 1 == 1)).isOpen) = true := by simpa using hopen
  refine completes_onX (((s.dev.issue g .x).stepGrp g (fun k => (k.setLanes dst.toNat p.mask (rdaccWord (s.dev.eng g.core) b sel)).next)).count 0x8011 1
    (vitOfCore g.core).toNat) hexec h hroom ((X.withRegs_ready _ g b q p _ _ ((Dev.grp_iff _ _ _ _).1 hgrp).2 hready).trans ?_)
    ⟨(onlyGroup_issue s g .x _).counted (Dev.count_only _ _ _ _ _), ?_⟩
  · simp only [Dev.vset_issue, Dev.vit_issue, Dev.eng_issue, ← hsel, if_neg hmode, if_neg hidle, if_neg hbank]; rfl
  · rw [Dev.groupOf_count, Dev.groupOf_stepGrp _ g _ b q hgrp]
    exact wrote_setLanes q p dst.toNat _ h.2.2.1

end Counted

/-- Settles O33: each queued instruction passes its checks and is queued (`completes_enqueue`); MX.WAIT and MX.RDACC change their group alone. -/
theorem matrixInstructionsQueue : Obligations.MatrixInstructionsQueue := by
  intro s g b q p a h hroom
  have hgroup : b.groups[g.grp.toNat]? = some q := ((Dev.grp_iff _ _ _ _).1 h.2.1).2
  refine ⟨fun hclosed => ?opn, fun hopen => ?close, fun fmt o hfmt hclosed ho hof hleft => ?ldacc,
    fun rc ctrl fa fb ca cb hready hctrl hopen hpair hca hcb hfa hfb hsa hsb hla hlb => ?mma,
    fun rs sc f m o hready hsc hopen hout ho hof hleft => ?store, fun n => ?wait,
    fun dst rsel sel row hready hdebug hload hsel hrow hopen => ?rdacc⟩
  case opn =>
    exact completes_enqueue (fun b => b.setBank a (fun k => { k with isOpen := true })) (show _ = execMxOpen g a s from rfl) h hroom
      ((Block.SameWork.refl b).setBank _ _) (if_neg (by simp [hclosed]))
  case close =>
    exact completes_enqueue (fun b => b.setBank a (fun k => { k with isOpen := false })) (show _ = execMxClose g a s from rfl) h hroom
      ((Block.SameWork.refl b).setBank _ _) (if_pos hopen)
  case ldacc =>
    refine completes_enqueue (takes := false) (known := none) (sig := none)
      (fun b => (b.setBank a (fun k => { k with isOpen := true })).setCtx .o { o with pos := o.pos + 1 }) (show _ = execMxLdacc g a fmt s from rfl) h hroom
      (((Block.SameWork.refl b).setBank _ _).setCtx _ _) ?_
    have hfit : ¬ (dFmt o.desc != some fmt || decide (o.left < 1)) = true := by simp [hof, Nat.not_lt.2 hleft]
    have hkind : ¬ (!(fmt == .fp32 || fmt == .bf16)) = true := by rcases hfmt with rfl | rfl <;> decide
    simp only [if_neg hkind, hclosed, ho, if_neg hfit, Bool.false_eq_true, if_false]
  case mma =>
    refine completes_enqueue (takes := ?takes) (known := ?known) (sig := ?sig)
      (fun b => (b.setCtx .a { ca with pos := ca.pos + 32 * ctrlK ctrl }).setCtx .b { cb with pos := cb.pos + 32 * ctrlK ctrl })
      (show _ = execMxMma g a rc s from rfl) h hroom (((Block.SameWork.refl b).setCtx _ _).setCtx _ _) ((X.withRegs_ready _ g b q p _ _ hgroup hready).trans ?view)
    case view =>
      have hfit : ¬ (dFmt ca.desc != some fa || dFmt cb.desc != some fb || (fa.scaled && ca.pos % 32 != 0) || (fb.scaled && cb.pos % 32 != 0) ||
          decide (ca.left < 32 * ctrlK ctrl) || decide (cb.left < 32 * ctrlK ctrl)) = true := by
        simpa [hfa, hfb] using And.intro (And.intro (And.intro hsa hsb) hla) hlb
      simp only [← hctrl, hopen, hpair, hca, hcb, if_neg hfit, Bool.not_true, Bool.false_eq_true, if_false]
      rfl
  case store =>
    refine completes_enqueue (takes := false) (known := none) (sig := none)
      (fun b => (b.setBank a (fun k => { k with isOpen := !sctrlClose sc })).setCtx .o { o with pos := o.pos + 1 })
      (show _ = execMxStore g a rs s from rfl) h hroom (((Block.SameWork.refl b).setBank _ _).setCtx _ _) ((X.withRegs_ready _ g b q p _ _ hgroup hready).trans ?_)
    have hfit : ¬ (dFmt o.desc != some f || decide (o.left < 1)) = true := by simp [hof, Nat.not_lt.2 hleft]
    simp only [← hsc, hopen, hout, ho, if_neg hfit, Bool.not_true, Bool.false_eq_true, if_false]
  case wait =>
    by_cases hheld : n.toNat < (s.dev.eng g.core).load g.slot.toNat
    · refine (mxWait_holds h hroom hheld).imp (fun t ⟨honly, hq⟩ => ⟨honly.toCounted, fun _ => honly, fun hle => absurd hheld (Nat.not_lt.2 hle), ?_⟩)
      rw [hq, if_pos hheld]; exact Group.waitMx_settled h.2.2.1 _ _
    · refine (mxWait_passes h hroom hheld).imp (fun t ⟨hcounted, hq, hcount⟩ => ⟨hcounted, fun hlt => absurd hlt hheld, fun _ => hcount, ?_⟩)
      rw [hq, if_neg hheld]; exact Group.waitMx_settled h.2.2.1 _ _
  case rdacc =>
    refine (mxRdacc_completes h hroom hready hdebug hload hsel hopen).imp (fun t ⟨hcounted, hwrote⟩ => ⟨hcounted, _, hwrote, fun l => ?_⟩)
    subst hrow
    refine ⟨fun hk => ?_, fun hk => ?_, fun hk => ?_, fun hk => ?_⟩ <;> simp only [rdaccWord, hk]

end Sys2Proof.Machine

namespace Sys2Proof.Machine

/-! ### Engines run their queue (O35) -/

theorem Dev.runs_of_engGo {d : Dev} {c : CoreId} (h : d.engGo c = true) : d.runs (dieOfCore c) = true := by
  simp only [Dev.engGo, Bool.and_eq_true] at h
  exact h.1.1

/-- The values of a map listed for the elements of a list. -/
theorem kget_map_self {α : Type} (z : α) (f : Nat → α) (l : List Nat) {j : Nat} (h : j ∈ l) : kget z (l.map (fun k => (k, f k))) j = f j := by
  induction l with
  | nil => simp at h
  | cons k l ih =>
    simp only [List.map_cons, kget]
    by_cases hk : k = j
    · rw [if_pos hk, hk]
    · rw [if_neg hk, ih ((List.mem_cons.1 h).resolve_left (Ne.symm hk))]

/-! #### What changes beside it leave of an engine and of its banks -/

theorem Only.eng {l : List Part} {d e : Dev} (h : Only l d e) (hcores : Part.cores ∉ l) (c : CoreId) : e.eng c = d.eng c := by
  rw [Dev.eng, h.core hcores, Dev.eng]

theorem Only.grp {l : List Part} {d e : Dev} (h : Only l d e) (hcores : Part.cores ∉ l) (g : GRef) : e.grp g = d.grp g := by
  simp only [Dev.grp, Dev.blk, h.core hcores]

theorem Only.bankVals {l : List Part} {d e : Dev} (h : Only l d e) (hcores : Part.cores ∉ l) (c : CoreId) (k : Nat) : e.bankVals c k = d.bankVals c k := by
  simp only [Dev.bankVals, Dev.eblk, Dev.blk, h.core hcores]

@[simp] theorem Dev.eng_count (d : Dev) (i n r m : Nat) (c : CoreId) : (d.count i n r m).eng c = d.eng c := rfl
@[simp] theorem Dev.eng_trace (d : Dev) (v : VitId) (k i n : Nat) (c : CoreId) : (d.trace v k i n).eng c = d.eng c := by
  rw [Dev.eng, Dev.core_trace, Dev.eng]
@[simp] theorem Dev.bankVals_count (d : Dev) (i n r m : Nat) (c : CoreId) (k : Nat) : (d.count i n r m).bankVals c k = d.bankVals c k := rfl
@[simp] theorem Dev.bankVals_trace (d : Dev) (v : VitId) (j i n : Nat) (c : CoreId) (k : Nat) : (d.trace v j i n).bankVals c k = d.bankVals c k := by
  simp only [Dev.bankVals, Dev.eblk, Dev.blk, Dev.core_trace]

@[simp] theorem Dev.bankVals_setEng (d : Dev) (c : CoreId) (f : Engine → Engine) (k : CoreId) (n : Nat) : (d.setEng c f).bankVals k n = d.bankVals k n := by
  have hleft : ((d.setEng c f).core k).left = (d.core k).left := by rw [Dev.core_setEng]
  simp only [Dev.bankVals, Dev.eblk, Dev.blk_setEng, hleft]

/-- A block that is resident is the one its core's engine serves. -/
theorem Dev.bankVals_of_blk {d : Dev} {c : CoreId} {k : Nat} {b : Block} (h : d.blk c (k / 2) = some b) : d.bankVals c k = (b.bank (k % 2 == 1)).vals := by
  simp only [Dev.bankVals, Dev.eblk, h]

theorem Dev.bankVals_updBlk (d : Dev) (c : CoreId) (slot : Nat) (F : Block → Block) (hF : ∀ b a, (F b).bank a = b.bank a) (k : Nat) :
    (d.updBlk c slot F).bankVals c k = d.bankVals c k := by
  by_cases hs : k / 2 = slot
  · subst hs
    cases hb : d.blk c (k / 2) with
    | some b =>
      have hnew : (d.updBlk c (k / 2) F).blk c (k / 2) = some (F b) := by rw [Dev.blk_updBlk, hb]; rfl
      rw [Dev.bankVals_of_blk hnew, hF, Dev.bankVals_of_blk hb]
    | none => rw [Dev.updBlk, hb]
  · have hleft : ((d.updBlk c slot F).core c).left = (d.core c).left := by rw [(Dev.OnlySlots.updBlk d c slot F).self]
    simp only [Dev.bankVals, Dev.eblk, Dev.blk_updBlk_ne d c c slot (k / 2) F (Or.inr hs), hleft]

theorem Block.bank_setBank_vals (b : Block) (a : Bool) (f : Bank → Bank) : (b.setBank a f).bank a = f (b.bank a) := by cases a <;> rfl

/-- The values put into a bank of a resident block stand in it. -/
theorem Dev.bankVals_setBankVals {d : Dev} {c : CoreId} {k : Nat} {b : Block} (h : d.blk c (k / 2) = some b) (v : KMap Word) :
    (d.setBankVals c k v).bankVals c k = v := by
  have hnew : (d.setBankVals c k v).blk c (k / 2) = some (b.setBank (k % 2 == 1) (fun t => { t with vals := v })) := by
    simp only [Dev.setBankVals, Dev.updEblk, h]; exact Dev.blk_setBlk _ _ _ _
  rw [Dev.bankVals_of_blk hnew, Block.bank_setBank_vals]

/-- A change of a block that an engine serves touches the cores alone, and no engine. -/
theorem Dev.updEblk_only (d : Dev) (c : CoreId) (slot : Nat) (f : Block → Block) : Only [.cores] d (d.updEblk c slot f) := by
  rw [Dev.updEblk]; split <;> exact (Only.refl _ d).setCore _ _ (by simp)

theorem Dev.eng_updEblk (d : Dev) (c : CoreId) (slot : Nat) (f : Block → Block) (k : CoreId) : (d.updEblk c slot f).eng k = d.eng k := by
  have hcore : ∀ F : Core → Core, (∀ t, (F t).eng = t.eng) → (d.setCore c F).eng k = d.eng k := fun F hF => by
    by_cases hk : k = c
    · rw [hk, Dev.eng, Dev.core_setCore, hF, Dev.eng]
    · rw [Dev.eng, Dev.core_setCore_ne _ _ _ _ hk, Dev.eng]
  rw [Dev.updEblk]; split <;> exact hcore _ (fun _ => rfl)

theorem Dev.setBankVals_only (d : Dev) (c : CoreId) (k : Nat) (v : KMap Word) : Only [.cores] d (d.setBankVals c k v) := d.updEblk_only _ _ _
@[simp] theorem Dev.eng_setBankVals (d : Dev) (c : CoreId) (k : Nat) (v : KMap Word) (j : CoreId) : (d.setBankVals c k v).eng j = d.eng j :=
  d.eng_updEblk _ _ _ _

/-- Waking the groups held at MX.WAIT counts, and changes the groups of one block. -/
theorem Dev.wakeMx_cases (d : Dev) (c : CoreId) (slot : Nat) :
    ∃ e F, Only [.cnt] d e ∧ (∀ b a, Block.bank (F b) a = b.bank a) ∧ d.wakeMx c slot = e.updBlk c slot F := by
  refine ⟨_, _, ?_, fun b a => ?_, rfl⟩
  · exact Only.ite (Only.refl _ d) (((Only.refl _ d).profile _ _ _ (by simp)).count _ _ _ _ (by simp))
  · cases a <;> rfl

/-- The completion of an engine instruction counts, and changes the groups of one block. -/
theorem Dev.engDone_cases (d : Dev) (c : CoreId) (i : EInstr) (mx : Bool) :
    ∃ e F, Only [.cnt] d e ∧ (∀ b a, Block.bank (F b) a = b.bank a) ∧ d.engDone c i mx = e.updBlk c i.owner.slot F := by
  obtain ⟨e, F, honly, hF, heq⟩ := Dev.wakeMx_cases (if mx then d.count 0x8011 1 (vitOfCore c).toNat else d) c i.owner.slot
  exact ⟨e, F, (Only.ite (d.count_only _ _ _ _) (Only.refl _ d)).trans honly, hF, heq⟩

theorem Dev.engDone_only (d : Dev) (c : CoreId) (i : EInstr) (mx : Bool) : Only [.cores, .cnt] d (d.engDone c i mx) := by
  obtain ⟨e, F, honly, -, heq⟩ := d.engDone_cases c i mx
  rw [heq]
  exact (honly.mono (by simp)).trans ((Dev.OnlySlots.updBlk e c i.owner.slot F).only.mono (by simp))

@[simp] theorem Dev.eng_engDone (d : Dev) (c : CoreId) (i : EInstr) (mx : Bool) (k : CoreId) : (d.engDone c i mx).eng k = d.eng k := by
  obtain ⟨e, F, honly, -, heq⟩ := d.engDone_cases c i mx
  rw [heq, (Dev.OnlySlots.updBlk e c i.owner.slot F).eng, honly.eng (by simp)]

@[simp] theorem Dev.bankVals_engDone (d : Dev) (c : CoreId) (i : EInstr) (mx : Bool) (k : Nat) : (d.engDone c i mx).bankVals c k = d.bankVals c k := by
  obtain ⟨e, F, honly, hF, heq⟩ := d.engDone_cases c i mx
  rw [heq, Dev.bankVals_updBlk _ _ _ _ hF, honly.bankVals (by simp)]

/-- The bank of an instruction that has one is of the block in its slot (R68). -/
theorem EInstr.bank_slot {i : EInstr} {k : Nat} (h : i.bank = some k) : k / 2 = i.owner.slot := by
  have hslot : ∀ a : Bool, (2 * i.owner.slot + if a then 1 else 0) / 2 = i.owner.slot := fun a => by split <;> omega
  rw [EInstr.bank] at h
  split at h <;> cases h
  all_goals exact hslot _

/-- An exception of a group that its core holds, its core's first of the step, stands recorded with its code, pc and lanes (R65). -/
theorem X.raise_records {x : X} {g : GRef} (e : ExcInfo) (hexc : (x.dev.core g.core).exc = none) (hgrp : (x.dev.grp g).isSome = true) :
    ∃ r, ((x.raise g e).dev.core g.core).exc = some r ∧ r.code = BitVec.ofNat 8 e.code ∧ r.pc = e.pc ∧ r.lanes = e.lanes := by
  obtain ⟨⟨b, q⟩, hbq⟩ := Option.isSome_iff_exists.1 hgrp
  rw [raise_eq x g e b q hbq]
  exact ⟨_, (raiseFor_records x g.core b q e hexc).1, rfl, rfl, rfl⟩

/-- A command that withdraws an engine instruction and raises an exception, its core's first of the step, completes with its record. -/
theorem completes_raise {i : Instr} {s : State} {F : X → X} {x : X} {d : Dev} {c : CoreId} {f : Engine → Engine} {g : GRef} {l : List Part} (e : ExcInfo)
    (hexec : exec i s = run s F) (hF : F { dev := s.dev, mem := s.mem, mram := s.mram } = x.raise g e) (hx : x.dev = d.setEng c f) (honly : Only l s.dev d)
    (hl : Part.cores ∉ l) (hexc : (s.dev.core g.core).exc = none) (hgrp : (s.dev.grp g).isSome = true) :
    Completes i s (fun t => ∃ r, (t.dev.core g.core).exc = some r ∧ r.code = BitVec.ofNat 8 e.code ∧ r.pc = e.pc ∧ r.lanes = e.lanes) := by
  refine completes_run (x.raise g e) hexec hF (x.raise_records e ?_ ?_)
  · rw [hx, Dev.core_setEng, honly.core hl]; exact hexc
  · rw [hx, Dev.grp_setEng, honly.grp hl]; exact hgrp

/-- Two changes of an engine that give it alike are one. -/
theorem Dev.setEng_congr {d : Dev} {c : CoreId} {f f' : Engine → Engine} (h : f (d.eng c) = f' (d.eng c)) : d.setEng c f = d.setEng c f' := by
  have hcore : ({ d.core c with eng := f (d.eng c) } : Core) = { d.core c with eng := f' (d.eng c) } := by rw [h]
  exact congrArg (fun k => { d with cores := kset d.cores c.toNat k }) hcore

theorem Dev.setEng_only (d : Dev) (c : CoreId) (f : Engine → Engine) : Only [.cores] d (d.setEng c f) := (Only.refl _ d).setEng _ _ (by simp)

/-- A command that changes one engine alone completes so, and leaves every other part and core. -/
theorem completes_setEng {i : Instr} {s : State} {c : CoreId} {P : State → Prop} (f : Engine → Engine) (hexec : exec i s = .next { s with dev := s.dev.setEng c f })
    (hp : ∀ t, Keeps [.cores] s t → (∀ k, k ≠ c → t.dev.core k = s.dev.core k) → t.dev.eng c = f (s.dev.eng c) → P t) : Completes i s P :=
  ⟨_, hexec, hp _ (s.dev.setEng_only c f).keeps (fun _ hk => Dev.core_setEng_ne _ _ _ _ hk) (Dev.eng_setEng _ _ _)⟩

section Runs
variable {s : State} {c : CoreId}

/-- The MX.MMA at the head of a queue starts on an idle array (R71, R80). -/
theorem exec_mmaStart (hgo : s.dev.engGo c = true) {i : EInstr} {rest : List EInstr} {a : Bool} {ctrl : BitVec 64} {fa fb : Fmt} {t : Nat}
    (hqueue : (s.dev.eng c).queue = i :: rest) (hop : i.op = .mma a ctrl) (hpair : ctrlPair ctrl = some (fa, fb)) (hcb : fb.isCb = false)
    (hruns : (s.dev.eng c).runs = []) (hknown : i.known = none) (ht : t = max (max (s.dev.eng c).begun (i.at' + 4)) (s.dev.eng c).free) (hdue : t ≤ s.dev.cycOf c) :
    exec (.engineInstructionStart ⟨c, false⟩) s = .next { s with dev := s.dev.setEng c (fun e => { e with
      queue := rest, begun := t, runs := [{ ins := i, codes := e.cb, phase := if i.takes && i.sig.isSome then .lookup else .array, start := t, next := t }] }) } := by
  have hexec : exec (.engineInstructionStart ⟨c, false⟩) s = execEngineInstructionStart ⟨c, false⟩ s := rfl
  have hwait : ¬ (!s.dev.engGo c || (s.dev.eng c).rerunning) = true := by simp [hgo, Engine.rerunning, hruns]
  have hstart : s.dev.startHead c = s.dev.setEng c (fun e => { e with
      queue := rest, begun := t, runs := [{ ins := i, codes := e.cb, phase := if i.takes && i.sig.isSome then .lookup else .array, start := t, next := t }] }) := by
    simp only [Dev.startHead, hqueue, if_neg hwait, hop, hpair, hruns, hknown, hcb, Bool.false_eq_true, if_false, List.length_nil, List.any_nil, List.foldl_nil,
      Option.isSome_none, Bool.false_and, Bool.or_false, beq_self_eq_true, if_true, Nat.max_zero, decide_eq_true_eq, Nat.reduceLeDiff, ← ht, Dev.reachOf_of_le _ _ _ hdue]
    exact Dev.setEng_congr (by simp only [hruns, List.nil_append])
  rw [hexec, execEngineInstructionStart, run_eq]
  simp only [hqueue, Bool.false_and, Bool.false_eq_true, if_false, X.on, hstart]
  rfl

/-- ESCALATED_RUN_START of the one run, which awaits it, puts it on the array afresh (R81). -/
theorem exec_escalatedRunStart (hgo : s.dev.runs (dieOfCore c) = true) {r : Run} (hruns : (s.dev.eng c).runs = [r]) (hphase : r.phase = .rerun)
    (hdue : r.next + 22 ≤ s.dev.cycOf c) :
    exec (.escalatedRunStart c) s = .next { s with dev := s.dev.setEng c (fun e => { e with
      wa := e.wa.only [], wb := e.wb.only []
      runs := [{ r with phase := .array, esc := true, hot := false, ival := 0, adv := 0, seen := 0, promo := [], nanRow := 0, nanCol := 0,
                        start := r.next + 22, next := r.next + 22 }] }) } := by
  have hexec : exec (.escalatedRunStart c) s = execEscalatedRunStart c s := rfl
  have harray : (RunPhase.rerun == .array) = false := rfl
  have hlookup : (RunPhase.rerun == .lookup) = false := rfl
  rw [hexec, execEscalatedRunStart, runDev_eq]
  simp only [hruns, List.find?_cons, List.any_cons, List.any_nil, List.foldl_cons, List.foldl_nil, hphase, harray, hlookup, beq_self_eq_true, if_true, hgo,
    Bool.not_true, Bool.or_self, Bool.false_eq_true, if_false, Dev.reachOf_of_le _ _ _ hdue]
  refine congrArg (fun d => Host.Outcome.next { s with dev := d }) (Dev.setEng_congr ?_)
  simp only [hruns, updFirst, beq_self_eq_true, if_true]

/-- STORE_TRANSFER_START of the MX.STORE or MX.LDACC at the head of a queue, whose bank and walker O are free (R71, R80). -/
theorem exec_storeTransferStart (hgo : s.dev.engGo c = true) {i : EInstr} {rest : List EInstr} {k t : Nat} (hqueue : (s.dev.eng c).queue = i :: rest)
    (hop : (∃ a sc, i.op = .store a sc) ∨ (∃ a f, i.op = .ldacc a f)) (hbank : i.bank = some k) (hheld : (s.dev.eng c).bankHeld k = false)
    (hxfer : (s.dev.eng c).xfer = none) (hrerun : (s.dev.eng c).rerunning = false)
    (ht : t = max (max (s.dev.eng c).begun (i.at' + 4)) (max (kget 0 (s.dev.eng c).bankAt k + 1) (s.dev.eng c).moved)) (hdue : t ≤ s.dev.cycOf c) :
    exec (.storeTransferStart c) s = .next { s with dev := s.dev.setEng c (fun e => { e with queue := rest, begun := t, xfer := some (i, t) }) } := by
  have hexec : exec (.storeTransferStart c) s = execStoreTransferStart c s := rfl
  rw [hexec, execStoreTransferStart, runDev_eq]
  rcases hop with ⟨a, sc, hop⟩ | ⟨a, f, hop⟩ <;>
    simp only [hqueue, hop, hbank, hgo, hrerun, hheld, hxfer, Option.isSome_none, Bool.not_true, Bool.or_self, Bool.false_eq_true, if_false, ← ht, Dev.reachOf_of_le _ _ _ hdue]

/-! #### The interval check -/

/-- The cycle in which an interval's last k-step has entered, at the stage its array stands at (R76, R86). -/
def Dev.ivalNext (d : Dev) (c : CoreId) (w : IvalAt) : Nat :=
  w.upTo (d.eng c) + rampTime (d.force 0xA300 3 0) (min (d.eng c).stage (d.eng c).ceil) (w.upTo (d.eng c) - (d.eng c).admitted) (w.cyc - w.r.adv)

/-- The machine at an interval's check: its clock has come, and the array's cycles are counted (R80, R90). -/
def Dev.ivalEntered (d : Dev) (c : CoreId) (w : IvalAt) : Dev :=
  (((d.reachOf c (d.ivalNext c w + checkDelay)).count 0x8011 2 (vitOfCore c).toNat w.cyc).count 0x8011 3 (vitOfCore c).toNat (w.enter (d.eng c)).2).count
    0x8011 4 (vitOfCore c).toNat (d.ivalNext c w - w.upTo (d.eng c) - (w.cyc - w.r.adv))

theorem Dev.ivalEntered_only (d : Dev) (c : CoreId) (w : IvalAt) : Only [.clk, .cnt] d (d.ivalEntered c w) :=
  ((((Only.refl _ d).reachOf _ _ (by simp) (by simp)).count _ _ _ _ (by simp)).count _ _ _ _ (by simp)).count _ _ _ _ (by simp)

/-- The machine once an interval's saturations and underflows, and a re-run decided after the last, are counted (R109, R112). -/
def Dev.ivalCounted (d : Dev) (v : Nat) (esc watched rerun : Bool) (n sat und : Nat) : Dev :=
  let d := if esc then d.count 0x8012 4 v n else d.count 0x8012 1 v sat
  let d := d.count 0x8012 2 v und
  let d := if watched then (if esc then d else d.count 0x8012 8 v sat).count 0x8012 9 v und else d
  if rerun then
    let d := d.count 0x8012 3 v
    if watched then d.count 0x8012 0xA v else d
  else d

theorem Dev.ivalCounted_only (d : Dev) (v : Nat) (esc watched rerun : Bool) (n sat und : Nat) : Only [.cnt] d (d.ivalCounted v esc watched rerun n sat und) := by
  have hsat := Only.ite (c := esc = true) (d.count_only 0x8012 4 v n) (d.count_only 0x8012 1 v sat)
  have hund := hsat.count 0x8012 2 v und (by simp)
  have hwatched := Only.ite (c := watched = true) ((Only.ite (c := esc = true) hund (hund.count 0x8012 8 v sat (by simp))).count 0x8012 9 v und (by simp)) hund
  have hrerun := hwatched.count 0x8012 3 v 1 (by simp)
  exact Only.ite (Only.ite (hrerun.count 0x8012 0xA v 1 (by simp)) hrerun) hwatched

/-- What the interval gives. -/
def IvalAt.out (w : IvalAt) : IvalOut := runInterval w.fa w.fb w.r.codes w.ga w.gb w.kb (w.r.ival * w.n % 32) w.n w.grp w.r.esc

/-- The saturations of the interval. -/
def IvalAt.sat (w : IvalAt) : Nat := (w.out.cells.filter (·.sat)).length

/-- The interval is the last of its instruction, which is to run again: an interval has saturated more often than the threshold of its LAYER (R81, R109). -/
def IvalAt.reruns (w : IvalAt) (threshold : Nat) : Bool :=
  (w.r.ival + 1) * w.n == 32 * ctrlK w.ctrl && (w.r.hot || (!w.r.esc && decide (threshold < w.sat)))

/-- An array at a stage above 0 may take the interval before it (R86). -/
theorem ival_admitted (hgo : s.dev.runs (dieOfCore c) = true) (hstage : 0 < min (s.dev.eng c).stage (s.dev.eng c).ceil) (w : IvalAt) :
    ¬ ((decide (min (s.dev.eng c).stage (s.dev.eng c).ceil = 0) && decide (0 < w.cyc - w.r.adv)) || !s.dev.runs (dieOfCore c)) = true := by
  have hadvances : ¬ min (s.dev.eng c).stage (s.dev.eng c).ceil = 0 := Nat.ne_of_gt hstage
  simp only [hadvances, hgo, decide_false, Bool.false_and, Bool.not_true, Bool.or_self, Bool.false_eq_true, not_false_eq_true]

/-- A failed check of an interval withdraws its instruction and raises ARRAY_RESIDUE (R83). -/
theorem mmaIntervalCheck_failed (hgo : s.dev.runs (dieOfCore c) = true) {w : IvalAt} (hw : (s.dev.eng c).ivalAt = some w)
    (hstage : 0 < min (s.dev.eng c).stage (s.dev.eng c).ceil) (j : BitVec 6) (hexc : (s.dev.core c).exc = none)
    (hgrp : (s.dev.grp (w.r.ins.gref c)).isSome = true) :
    Completes (.mmaIntervalCheck c ⟨some j, .none⟩) s (fun t => ∃ r, (t.dev.core c).exc = some r ∧ r.code = 0x43 ∧ r.pc = w.r.ins.pc ∧ r.lanes = w.r.ins.lanes) := by
  have hexec : exec (.mmaIntervalCheck c ⟨some j, .none⟩) s = execMmaIntervalCheck c ⟨some j, .none⟩ s := rfl
  have hview : exec (.mmaIntervalCheck c ⟨some j, .none⟩) s = run s (fun x => (x.on (fun d => d.ivalEntered c w)).arrayResidue c w.r j.toNat) := by
    rw [hexec, execMmaIntervalCheck]
    refine run_congr _ _ _ ?_
    simp only [hw, if_neg (ival_admitted hgo hstage w)]
    rfl
  have honly : Only [.clk, .cnt, .fresh] s.dev (({ s.dev.ivalEntered c w with fresh := (s.dev.ivalEntered c w).fresh + 1 } : Dev).count 0x8011 5 (vitOfCore c).toNat) :=
    (((s.dev.ivalEntered_only c w).mono (by simp)).with_fresh _ (by simp)).count _ _ _ _ (by simp)
  exact completes_raise (c := c) (f := fun e => e.abandon w.r.ins.id) _ hview rfl rfl honly (by simp) hexc hgrp

/-- A parity error of the head of a queue withdraws it and raises STORAGE_UNCORRECTABLE (R67). -/
theorem engineInstructionStart_parity (hgo : s.dev.engGo c = true) {i : EInstr} {rest : List EInstr} (hqueue : (s.dev.eng c).queue = i :: rest)
    (hexc : (s.dev.core c).exc = none) (hgrp : (s.dev.grp (i.gref c)).isSome = true) :
    Completes (.engineInstructionStart ⟨c, true⟩) s (fun t => ∃ r, (t.dev.core c).exc = some r ∧ r.code = 0x42 ∧ r.pc = i.pc ∧ r.lanes = i.lanes) := by
  have hexec : exec (.engineInstructionStart ⟨c, true⟩) s = execEngineInstructionStart ⟨c, true⟩ s := rfl
  have hview : exec (.engineInstructionStart ⟨c, true⟩) s = run s (fun x => x.engRead c i .uncorrectable id) := by
    rw [hexec, execEngineInstructionStart]
    refine run_congr _ _ _ ?_
    simp only [hqueue, hgo, Bool.and_self, if_true]
  exact completes_raise (c := c) (f := fun e => e.abandon i.id) _ hview rfl rfl (Only.refl [] s.dev) (by simp) hexc hgrp

/-- A passed check adds its interval to the promotion buffer of the run (R77). -/
theorem exec_mmaIntervalCheck_passed (hgo : s.dev.runs (dieOfCore c) = true) {w : IvalAt} (hw : (s.dev.eng c).ivalAt = some w)
    (hstage : 0 < min (s.dev.eng c).stage (s.dev.eng c).ceil) : ∃ (d : Dev) (u : Run) (f : Engine → Engine),
    exec (.mmaIntervalCheck c ⟨none, .none⟩) s = .next { s with dev := d.setEng c f } ∧ Only [.clk, .cnt] s.dev d ∧
    (∀ e, (f e).runs = updFirst (fun q => q.ins.id == w.r.ins.id) (fun _ => u) e.runs) ∧ u.ins = w.r.ins ∧ u.ival = w.r.ival + 1 ∧ u.promo = promote w.r.promo w.out := by
  have hexec : exec (.mmaIntervalCheck c ⟨none, .none⟩) s = execMmaIntervalCheck c ⟨none, .none⟩ s := rfl
  refine Exists.intro ((s.dev.ivalEntered c w).ivalCounted (vitOfCore c).toNat w.r.esc (s.dev.vset (vitOfCore c) 4 1 == ctrlLayer w.ctrl)
    (w.reruns (s.dev.threshold (vitOfCore c) (ctrlLayer w.ctrl))) w.n w.sat (w.out.cells.filter (·.und)).length) ?_
  iterate 2 apply Exists.intro
  refine ⟨?eq, (s.dev.ivalEntered_only c w).trans ((Dev.ivalCounted_only _ _ _ _ _ _ _ _).mono (by simp)), ?runs, ?ins, ?ival, ?promo⟩
  case eq =>
    rw [hexec, execMmaIntervalCheck, run_eq]
    simp only [hw, if_neg (ival_admitted hgo hstage w), X.engRead, X.on_ops, X.on_mops, X.on_dev]
    rfl
  case runs => exact fun _ => rfl
  case ins => rfl
  case ival => rfl
  case promo => simp only [IvalAt.out]

/-! #### The bank update and the transfers of walker O -/

/-- The values a bank takes from a run (R77, R107). -/
def Run.bankNew (r : Run) (replace : Bool) (old : KMap Word) : KMap Word := (List.range 4096).map (fun q => (q, bankElem r replace (kget 0 old q) q))

/-- A checked run whose bank is free leaves its engine with its buffer added to the bank or in its place (R71, R77, R84). -/
theorem exec_bankUpdate (hgo : s.dev.runs (dieOfCore c) = true) {r : Run} {a : Bool} {ctrl : BitVec 64} {k : Nat} (hruns : (s.dev.eng c).runs = [r])
    (hphase : r.phase = .update) (hop : r.ins.op = .mma a ctrl) (hbank : r.ins.bank = some k) (hxfer : (s.dev.eng c).xfer = none)
    (hdue : max r.due (kget 0 (s.dev.eng c).released k + 8) ≤ s.dev.cycOf c) : ∃ (odd : Nat) (f : Engine → Engine) (n : Nat),
    exec (.bankUpdate c ⟨none, .none⟩) s = .next { s with
      dev := ((((s.dev.setBankVals c k (r.bankNew (ctrlReplace ctrl) (s.dev.bankVals c k))).count 0x8012 7 (vitOfCore c).toNat odd).setEng c f).trace
        (vitOfCore c) 4 c.toNat n).engDone c r.ins true } ∧
    ∀ e, (f e).runs = e.runs.filter (fun q => q.ins.id != r.ins.id) := by
  have hexec : exec (.bankUpdate c ⟨none, .none⟩) s = execBankUpdate c ⟨none, .none⟩ s := rfl
  have hreach : s.dev.reachOf c (max (max (s.dev.cycOf c) r.due) (kget 0 (s.dev.eng c).released k + 8)) = s.dev := Dev.reachOf_of_le _ _ _ (by omega)
  iterate 3 apply Exists.intro
  refine ⟨?eq, ?runs⟩
  case eq =>
    rw [hexec, execBankUpdate, run_eq]
    simp only [hruns, List.find?_cons, hphase, List.takeWhile_cons, bne_self_eq_false, List.any_nil, Bool.false_eq_true, if_false, beq_self_eq_true,
      Bool.not_false, Bool.and_self, hop, hbank, hgo, hxfer, Bool.not_true, X.engRead, X.on_dev, X.on_ops, X.on_mops, hreach]
    rfl
  case runs => exact fun _ => rfl

/-- The machine once the conversion of a stored tile is counted, its flags are its group's, and a bank that the MX.STORE closes is empty (R99, R101, R112). -/
def Dev.converted (d : Dev) (c : CoreId) (i : EInstr) (k : Nat) (o : StoreOut) (close : Bool) : Dev :=
  let d := (d.count 0x8012 5 (vitOfCore c).toNat o.sat).count 0x8012 6 (vitOfCore c).toNat o.und
  let d := d.updGrp (i.gref c) (fun q => { q with flags := q.flags ||| o.flags })
  if close then d.setBankVals c k [] else d

theorem Dev.converted_frame (d : Dev) (c : CoreId) (i : EInstr) (k : Nat) (o : StoreOut) (close : Bool) :
    Only [.cores, .cnt] d (d.converted c i k o close) ∧ (d.converted c i k o close).eng c = d.eng c := by
  have hcount := (d.count_only 0x8012 5 (vitOfCore c).toNat o.sat).count 0x8012 6 (vitOfCore c).toNat o.und (by simp)
  have hflags := Dev.OnlySlots.updGrp ((d.count 0x8012 5 (vitOfCore c).toNat o.sat).count 0x8012 6 (vitOfCore c).toNat o.und) (i.gref c)
    (fun q => { q with flags := q.flags ||| o.flags })
  have honly := (hcount.mono (m := [.cores, .cnt]) (by simp)).trans (hflags.only.mono (by simp))
  have heng := (hflags.eng c).trans (hcount.eng (by simp) c)
  cases close with
  | false => exact ⟨honly, heng⟩
  | true => exact ⟨honly.trans ((Dev.setBankVals_only _ c k []).mono (by simp)), (Dev.eng_setBankVals _ c k [] c).trans heng⟩

/-- The tile that a transfer hands to walker O. -/
def EInstr.tile (i : EInstr) (b : Block) (o : StoreOut) : Tile :=
  { ins := i, codes := o.codes, scales := o.scales, stats := o.stats, scrGran := b.scrGran, clusGran := b.clusGran }

/-- A transfer of an MX.STORE that has ended leaves its tile to walker O (R71, R80, R101). -/
theorem exec_storeTransferDone_store (hgo : s.dev.runs (dieOfCore c) = true) {i : EInstr} {n k : Nat} {a : Bool} {sc : Word} {b : Block}
    (hxfer : (s.dev.eng c).xfer = some (i, n)) (hop : i.op = .store a sc) (hbank : i.bank = some k) (hblk : s.dev.blk c i.owner.slot = some b)
    (hdue : n + 128 ≤ s.dev.cycOf c) :
    exec (.storeTransferDone ⟨c, .none⟩) s = .next { s with
      dev := ((s.dev.converted c i k (storeTile i sc (s.dev.bankVals c k)) (sctrlClose sc)).setEng c (fun e => { e with
        xfer := none, moved := n + 128, released := kset e.released k (n + 128)
        tiles := e.tiles ++ [i.tile b (storeTile i sc (s.dev.bankVals c k))] })).engDone c i true } := by
  have hexec : exec (.storeTransferDone ⟨c, .none⟩) s = execStoreTransferDone ⟨c, .none⟩ s := rfl
  have heblk : s.dev.eblk c i.owner.slot = some b := by simp only [Dev.eblk, hblk]
  rw [hexec, execStoreTransferDone, run_eq]
  simp only [hxfer, hgo, Bool.not_true, Bool.false_eq_true, if_false, hbank, heblk, hop, X.engRead, X.on_dev, X.on_ops, X.on_mops, Dev.reachOf_of_le _ _ _ hdue]
  rfl

/-- A transfer of an MX.LDACC whose granules have all come has filled its bank (R70, R71, R80). -/
theorem exec_storeTransferDone_ldacc (hgo : s.dev.runs (dieOfCore c) = true) {i : EInstr} {n k : Nat} {a : Bool} {f : Fmt} {b : Block} {j : FetchJob}
    (hxfer : (s.dev.eng c).xfer = some (i, n)) (hop : i.op = .ldacc a f) (hbank : i.bank = some k) (hblk : s.dev.blk c i.owner.slot = some b)
    (hjob : (s.dev.eng c).wo.job = some j) (hid : j.id = i.id) (htodo : j.todo = []) (hbad : j.bad = none) (hdue : n + 128 ≤ s.dev.cycOf c) :
    exec (.storeTransferDone ⟨c, .none⟩) s = .next { s with
      dev := ((s.dev.setBankVals c k (loadTile i f j.got)).setEng c (fun e => { e with
        xfer := none, moved := n + 128, bankAt := kset e.bankAt k (n + 127), released := kset e.released k (n + 128)
        wo := { e.wo with job := none } })).engDone c i true } := by
  have hexec : exec (.storeTransferDone ⟨c, .none⟩) s = execStoreTransferDone ⟨c, .none⟩ s := rfl
  have heblk : s.dev.eblk c i.owner.slot = some b := by simp only [Dev.eblk, hblk]
  rw [hexec, execStoreTransferDone, run_eq]
  simp only [hxfer, hgo, Bool.not_true, Bool.false_eq_true, if_false, hbank, heblk, hop, hjob, hid, htodo, hbad, beq_self_eq_true, List.isEmpty_nil, Option.isNone_none, Bool.and_self,
    if_true, X.engRead, X.on_dev, X.on_ops, X.on_mops, Dev.reachOf_of_le _ _ _ hdue]
  rfl

end Runs

/-- Settles O35, command by command: a start changes its engine alone (`completes_setEng`), a failed check raises (`completes_raise`), and the completion of
an instruction leaves its engine and banks as the command made them (`Dev.eng_engDone`, `Dev.bankVals_engDone`). -/
theorem enginesRunTheirQueue : Obligations.EnginesRunTheirQueue := by
  rintro s c _ rfl hengGo
  have hgo := Dev.runs_of_engGo hengGo
  refine ⟨fun i rest a ctrl fa fb hqueue hop hpair hcb hruns hknown hdue => ?start, fun i rest hqueue hexc hgrp => ?parity,
    fun w hw hruns hstage => ⟨?passed, fun j hexc hgrp => ?failed⟩, fun r hruns hphase hdue => ?rerun,
    fun r a ctrl k b hruns hphase hop hbank hxfer hblk hdue => ?update,
    fun i rest k hqueue hop hbank hheld hxfer hrerun hdue => ?transfer, fun i n a sc k b hxfer hop hbank hblk hdue => ?stored,
    fun i n a f k b j hxfer hop hbank hblk hjob hid htodo hbad hdue => ?loaded⟩
  case start =>
    exact completes_setEng _ (exec_mmaStart hengGo hqueue hop hpair hcb hruns hknown rfl hdue) (fun t hkeeps hcores heng => ⟨hkeeps, hcores, heng⟩)
  case parity => exact engineInstructionStart_parity hengGo hqueue hexc hgrp
  case passed =>
    obtain ⟨d, u, f, hexec, honly, hleft, hins, hival, hpromo⟩ := exec_mmaIntervalCheck_passed hgo hw hstage
    refine ⟨_, hexec, ((honly.mono (by simp)).setEng c f (by simp)).keeps, u, ?_, hins, hival, hpromo⟩
    simp only [Dev.eng_setEng, hleft, honly.eng (l := [.clk, .cnt]) (by simp), hruns, updFirst, beq_self_eq_true, if_true]
  case failed => exact mmaIntervalCheck_failed hgo hw hstage j hexc hgrp
  case rerun =>
    exact completes_setEng _ (exec_escalatedRunStart hgo hruns hphase hdue) (fun t hkeeps _ heng => ⟨hkeeps, _, congrArg Engine.runs heng, rfl, rfl, rfl, rfl, rfl⟩)
  case update =>
    obtain ⟨odd, f, n, hexec, hleft⟩ := exec_bankUpdate hgo hruns hphase hop hbank hxfer hdue
    have hnew := Dev.bankVals_setBankVals hblk (r.bankNew (ctrlReplace ctrl) (s.dev.bankVals c k))
    refine ⟨_, hexec, ?_, ?_, fun j hj => ?_⟩
    · exact ((((((s.dev.setBankVals_only c k _).mono (by simp)).count _ _ _ _ (by simp)).setEng _ _ (by simp)).trace _ _ _ _ (by simp) (by simp)).trans
        ((Dev.engDone_only _ _ _ _).mono (by simp))).keeps
    · simp only [Dev.eng_engDone, Dev.eng_trace, Dev.eng_setEng, Dev.eng_count, Dev.eng_setBankVals, hleft, hruns, List.filter_cons, bne_self_eq_false,
        Bool.false_eq_true, if_false, List.filter_nil]
    · simp only [Dev.bankVals_engDone, Dev.bankVals_trace, Dev.bankVals_setEng, Dev.bankVals_count, hnew]
      exact kget_map_self 0 (fun q => bankElem r (ctrlReplace ctrl) (kget 0 (s.dev.bankVals c k) q) q) _ (List.mem_range.2 hj)
  case transfer =>
    exact completes_setEng _ (exec_storeTransferStart hengGo hqueue hop hbank hheld hxfer hrerun rfl hdue) (fun t hkeeps _ heng => ⟨hkeeps, heng⟩)
  case stored =>
    obtain ⟨honly, heng⟩ := s.dev.converted_frame c i k (storeTile i sc (s.dev.bankVals c k)) (sctrlClose sc)
    refine ⟨_, exec_storeTransferDone_store hgo hxfer hop hbank hblk hdue, ((honly.setEng _ _ (by simp)).trans (Dev.engDone_only _ _ _ _)).keeps, ?_⟩
    simp only [Dev.eng_engDone, Dev.eng_setEng, heng]
    exact ⟨trivial, trivial, _, rfl, rfl, rfl, rfl⟩
  case loaded =>
    refine ⟨_, exec_storeTransferDone_ldacc hgo hxfer hop hbank hblk hjob hid htodo hbad hdue,
      (((s.dev.setBankVals_only c k _).mono (by simp)).setEng _ _ (by simp)).trans (Dev.engDone_only _ _ _ _) |>.keeps, ?_⟩
    have hnew := Dev.bankVals_setBankVals ((EInstr.bank_slot hbank).symm ▸ hblk) (loadTile i f j.got)
    simp only [Dev.eng_engDone, Dev.eng_setEng, Dev.bankVals_engDone, Dev.bankVals_setEng, hnew, true_and]

end Sys2Proof.Machine

namespace Sys2Proof.Machine

/-! ### Walker instructions enter the queue (O34) -/

theorem Block.updCtx_none {b : Block} {w : Walker} (h : b.ctx w = none) (f : WkCtx → WkCtx) : b.updCtx w f = b := by
  simp only [Block.updCtx, h]

theorem Block.updCtx_some {b : Block} {w : Walker} {k : WkCtx} (h : b.ctx w = some k) (f : WkCtx → WkCtx) : b.updCtx w f = b.setCtx w (f k) := by
  simp only [Block.updCtx, h]

theorem Block.SameWork.updCtx {b e : Block} (h : b.SameWork e) (w : Walker) (f : WkCtx → WkCtx) : b.SameWork (e.updCtx w f) := by
  rw [Block.updCtx]
  split
  · exact h.setCtx _ _
  · exact h

/-- An arming number drawn for the block leaves its work alone (R115). -/
theorem Block.SameWork.drawArm {b e : Block} (h : b.SameWork e) (n : Nat) : b.SameWork { e with nextArm := n } := ⟨h.groups, h.launchIx, h.index, h.seq⟩

/-- What the machine is once a group has queued an instruction and its block stands as it did. -/
theorem enqueued_issue {s : State} {g : GRef} {b : Block} {q : Group} {p : RPath} (h : s.dev.Issues g .x b q p) (op : EOp) (ra rb : CtxRef) (takes : Bool)
    (known : Option Nat) (sig : Option (BitVec 64)) :
    Enqueued g b q p op ra rb s
      { s with dev := (s.dev.issue g .x).pushed g ((s.dev.issue g .x).queued g b p op ra rb takes known sig) } := by
  obtain ⟨-, hgrp, hpath, -⟩ := h
  have hnow : ∀ f, ((s.dev.issue g .x).setEng g.core f).grp g = some (b, q) := fun f => by simpa using hgrp
  have hstep := Dev.OnlySlots.stepGrp ((s.dev.issue g .x).setEng g.core (fun e => { e with
    nextId := e.nextId + 1, queue := e.queue ++ [(s.dev.issue g .x).queued g b p op ra rb takes known sig] })) g Group.next
  refine ⟨(((s.dev.issue_only g .x).setEng _ _ (by simp)).trans hstep.only).keeps, fun c hc => ?cores,
    ⟨(s.dev.issue g .x).queued g b p op ra rb takes known sig, rfl, rfl, rfl, rfl, rfl, rfl, congrArg Engine.nextId (Dev.eng_issue _ _ _ _), rfl, ?eng⟩,
    Dev.blk_stepGrp _ g _ ((Dev.grp_iff _ _ _ _).1 (hnow _)).1, ?group⟩
  case cores => exact (hstep.ne c hc).trans ((Dev.core_setEng_ne _ _ _ _ hc).trans (Dev.core_issue_ne _ _ _ _ hc))
  case eng => exact (hstep.eng _).trans (by rw [Dev.eng_setEng, Dev.eng_issue])
  case group =>
    show WentOn q ((Dev.pushed _ g _).groupOf g) p
    rw [Dev.pushed, Dev.groupOf_stepGrp _ g _ b q (hnow _)]
    exact wentOn_settled_next hpath

section
variable {s : State} {g : GRef} {b : Block} {q : Group} {p : RPath} (h : s.dev.Issues g .x b q p) (hroom : (s.dev.eng g.core).queue.length < 16)
include h hroom

/-- WK.MARK notes the position of its context, if that is armed (R114). -/
theorem wkMark_completes (w : Walker) :
    Completes (.wkMark g w) s (Enqueued g (b.updCtx w (fun k => { k with mark := k.pos })) q p (.mark w) {} {} s) :=
  completes_enqueue (fun b => b.updCtx w (fun k => { k with mark := k.pos })) (show _ = execWkMark g w s from rfl) h hroom
    ((Block.SameWork.refl b).updCtx _ _) rfl

/-- WK.REWIND restores the position of its context, if that is armed (R114). -/
theorem wkRewind_completes (w : Walker) :
    Completes (.wkRewind g w) s (Enqueued g (b.updCtx w (fun k => { k with pos := k.mark })) q p (.rewind w) {} {} s) :=
  completes_enqueue (fun b => b.updCtx w (fun k => { k with pos := k.mark })) (show _ = execWkRewind g w s from rfl) h hroom
    ((Block.SameWork.refl b).updCtx _ _) rfl

/-- WK.SKIP over a ready register adds to the position of its context, if that is armed (R114). -/
theorem wkSkip_completes (w : Walker) (rn : Byte) (hready : Ready b q [rn.toNat]) :
    Completes (.wkSkip g w rn) s
      (Enqueued g (b.updCtx w (fun k => { k with pos := k.pos + (q.reg rn.toNat (lowLane p.mask)).toNat })) q p (.skip w) {} {} s) :=
  completes_enqueue (fun b => b.updCtx w (fun k => { k with pos := k.pos + (q.reg rn.toNat (lowLane p.mask)).toNat }))
    (show _ = execWkSkip g w rn s from rfl) h hroom ((Block.SameWork.refl b).updCtx _ _)
    (X.withRegs_ready _ g b q p _ _ ((Dev.grp_iff _ _ _ _).1 h.2.1).2 hready)

/-- PV.INVAL over a ready register is queued with the tag that it holds (R114, R135). -/
theorem pvInval_completes (rt : Byte) (hready : Ready b q [rt.toNat]) :
    Completes (.pvInval g rt) s (Enqueued g b q p (.pvInval (q.reg rt.toNat (lowLane p.mask))) {} {} s) :=
  completes_onX _ (show _ = execPvInval g rt s from rfl) h hroom (X.withRegs_ready _ g b q p _ _ ((Dev.grp_iff _ _ _ _).1 h.2.1).2 hready)
    (enqueued_issue h _ _ _ _ _ _)

/-- WK.ARM whose descriptor lies in valid storage, is read without poison and passes its checks arms its context afresh (R115, R122). -/
theorem wkArm_completes {w : Walker} {sp : Space} {ra : Byte} {a : Nat} {bs : List Byte} (hready : Ready b q (addrRegs sp ra.toNat))
    (ha : a = laneAddr q sp ra.toNat 0 (lowLane p.mask)) (halign : a % 128 = 0) (hglobal : sp = .global → (s.dev.issue g .x).valid b.leader a 128 = true)
    (hlocal : sp ≠ .global → a + 128 ≤ (s.dev.issue g .x).localSize g.core b (spaceCode sp)) (hstores : ∀ o ∈ (s.dev.core g.core).ops, o.writes = false)
    (harmed : ((s.dev.eng g.core).armed g.slot.toNat w).length < 2)
    (hread : ({ dev := s.dev.issue g .x, mem := s.mem, mram := s.mram } : X).readSpace g.core b.scrGran b.clusGran (spaceCode sp) a 128 =
      ({ dev := s.dev.issue g .x, mem := s.mem, mram := s.mram }, bs, false))
    (hdesc : (s.dev.issue g .x).descBad g.core b w (BitVec.ofNat 1024 (leNat bs)) = none) :
    Completes (.wkArm g w sp ra) s (Enqueued g
      { b.setCtx w { desc := BitVec.ofNat 1024 (leNat bs), arm := b.nextArm } with nextArm := b.nextArm + 1 } q p (.arm w) {} {} s) := by
  refine completes_enqueue (takes := false) (known := none) (sig := none)
    (fun b => { b.setCtx w { desc := BitVec.ofNat 1024 (leNat bs), arm := b.nextArm } with nextArm := b.nextArm + 1 })
    (show _ = execWkArm g w sp ra s from rfl) h hroom (((Block.SameWork.refl b).setCtx _ _).drawArm _)
    ((X.withRegs_ready _ g b q p _ _ ((Dev.grp_iff _ _ _ _).1 h.2.1).2 hready).trans ?_)
  have hops : ((s.dev.issue g .x).core g.core).ops = (s.dev.core g.core).ops := by rw [Dev.core_issue]
  have hgo : ¬ ((s.dev.core g.core).ops.any (fun o => o.writes && o.owner.slot == g.slot.toNat && o.owner.grp == g.grp.toNat &&
      o.accs.any (fun k => k.lane == lowLane p.mask)) || decide (2 ≤ ((s.dev.eng g.core).armed g.slot.toNat w).length)) = true := by
    simp only [Bool.or_eq_true, List.any_eq_true, decide_eq_true_eq, not_or, Nat.not_le]
    exact ⟨fun ⟨o, ho, hw⟩ => by simp [hstores o ho] at hw, harmed⟩
  have haligned : ¬ (a % 128 != 0) = true := by simp [halign]
  simp only [← ha, hops, Dev.eng_issue, if_neg hgo, if_neg haligned]
  cases sp with
  | global => simp only [hglobal rfl, if_true, hread, hdesc, Bool.false_eq_true, if_false]
  | _ => simp only [if_pos (hlocal (by simp)), hread, hdesc, Bool.false_eq_true, if_false]

/-- WK.SIGN over a stable activation range awaits its signature where Provenance is on (R123, R133). -/
theorem wkSign_completes {rk : Byte} {kb : Nat} {k : WkCtx} (hready : Ready b q [rk.toNat]) (hkb : kb = (q.reg rk.toNat (lowLane p.mask)).toNat)
    (hctx : b.ctxA = some k) (hlow : 1 ≤ kb) (hhigh : kb ≤ 2048) (hact : dActivation k.desc = true) (hstable : dStable k.desc = true)
    (hscaled : (dFmt k.desc).any Fmt.scaled = true → k.pos % 32 = 0) (hleft : 32 * kb ≤ k.left) :
    Completes (.wkSign g rk) s (Enqueued g
      { b.setCtx .a { k with sig := if s.dev.vset (vitOfCore g.core) 5 1 = 1 then some { pos := k.pos, kb, sign := b.nextArm, val := none } else none }
        with nextArm := b.nextArm + 1 } q p (.sign kb) k.ref {} s) := by
  refine completes_enqueue (takes := s.dev.vset (vitOfCore g.core) 5 1 == 1) (known := some b.nextArm) (sig := none)
    (fun e => { e.setCtx .a { k with sig := if s.dev.vset (vitOfCore g.core) 5 1 = 1 then some { pos := k.pos, kb, sign := b.nextArm, val := none } else none }
      with nextArm := e.nextArm + 1 })
    (show _ = execWkSign g rk s from rfl) h hroom (((Block.SameWork.refl b).setCtx _ _).drawArm _)
    ((X.withRegs_ready _ g b q p _ _ ((Dev.grp_iff _ _ _ _).1 h.2.1).2 hready).trans ?_)
  have hgood : ¬ (decide (kb < 1) || decide (2048 < kb) || !dActivation k.desc || !dStable k.desc ||
      ((dFmt k.desc).any Fmt.scaled && k.pos % 32 != 0) || decide (k.left < 32 * kb)) = true := by
    simpa [hact, hstable, Nat.not_lt.2 hlow, Nat.not_lt.2 hhigh, Nat.not_lt.2 hleft] using hscaled
  simp only [← hkb, hctx, if_neg hgood, Dev.vset_issue, beq_iff_eq]

end

/-- Settles O34: each instruction passes its checks and is queued, its block's context changed as its own lemma says. -/
theorem walkerInstructionsQueue : Obligations.WalkerInstructionsQueue := by
  intro s g b q p w h hroom
  refine ⟨?arm, fun hnone => ⟨?markNone, ?rewindNone⟩, fun k hctx => ⟨?mark, ?rewind, fun rn hready => ?skip⟩, ?sign, pvInval_completes h hroom⟩
  case arm =>
    rintro sp ra a bs _ hready ha halign rfl hglobal hlocal hstores harmed hread hdesc
    exact wkArm_completes h hroom hready ha halign hglobal hlocal hstores harmed hread hdesc
  case markNone => simpa only [Block.updCtx_none hnone] using wkMark_completes h hroom w
  case rewindNone => simpa only [Block.updCtx_none hnone] using wkRewind_completes h hroom w
  case mark => simpa only [Block.updCtx_some hctx] using wkMark_completes h hroom w
  case rewind => simpa only [Block.updCtx_some hctx] using wkRewind_completes h hroom w
  case skip => simpa only [Block.updCtx_some hctx] using wkSkip_completes h hroom w rn hready
  case sign =>
    intro rk kb k hready hkb hctx hlow hhigh hact hstable hscaled hleft
    exact wkSign_completes h hroom hready hkb hctx hlow hhigh hact hstable hscaled hleft

end Sys2Proof.Machine

namespace Sys2Proof.Machine

/-! ### Provenance looks up, verifies and inserts (O38) -/

/-! #### Changes of a machine that do not meet -/

@[simp] theorem Dev.vit_setEng (d : Dev) (c : CoreId) (f : Engine → Engine) (v : VitId) : (d.setEng c f).vit v = d.vit v := rfl
@[simp] theorem Dev.vset_setEng (d : Dev) (c : CoreId) (f : Engine → Engine) (v : VitId) (k n r : Nat) : (d.setEng c f).vset v k n r = d.vset v k n r := rfl
@[simp] theorem Dev.pvRoom_setEng (d : Dev) (c : CoreId) (f : Engine → Engine) (v : VitId) : (d.setEng c f).pvRoom v = d.pvRoom v := rfl
@[simp] theorem Dev.counter_setEng (d : Dev) (c : CoreId) (f : Engine → Engine) (i n r : Nat) : (d.setEng c f).counter i n r = d.counter i n r := rfl
@[simp] theorem Dev.vit_count (d : Dev) (i n r m : Nat) (v : VitId) : (d.count i n r m).vit v = d.vit v := rfl
@[simp] theorem Dev.vset_count (d : Dev) (i n r m : Nat) (v : VitId) (k t j : Nat) : (d.count i n r m).vset v k t j = d.vset v k t j := rfl
@[simp] theorem Dev.eng_setVit (d : Dev) (v : VitId) (f : Vit → Vit) (c : CoreId) : (d.setVit v f).eng c = d.eng c := rfl

theorem Only.vit {l : List Part} {d e : Dev} (h : Only l d e) (hvits : Part.vits ∉ l) (v : VitId) : e.vit v = d.vit v := by
  rw [Dev.vit, h.vits hvits, Dev.vit]

/-- A change of the run that is an engine's only one. -/
theorem updFirst_run (r : Run) (f : Run → Run) : updFirst (fun q => q.ins.id == r.ins.id) f [r] = [f r] := by
  rw [updFirst, if_pos (beq_self_eq_true _)]

/-! #### The store of entries (R132, R134) -/

/-- Removing the first match is the library's. -/
theorem delFirst_eq_eraseP {α : Type} (p : α → Bool) (l : List α) : delFirst p l = l.eraseP p := by
  induction l with
  | nil => rfl
  | cons a l ih =>
    rw [delFirst, List.eraseP_cons, ih]
    cases p a <;> rfl

/-- An entry is placed last, under some slot, in a store that has kept fewer entries than it held or than it may hold. -/
theorem pvPlace_eq (store : List PvEntry) {cap : Nat} (p : PvEntry) (hcap : 0 < cap) :
    ∃ kept k, (pvPlace store cap p).1 = kept ++ [{ p with slot := k }] ∧ kept.length < max store.length cap := by
  simp only [pvPlace]
  split
  case h_1 q hfound =>
    refine ⟨_, _, rfl, lt_max_of_lt_left ?_⟩
    exact List.length_filter_lt_length_iff_exists.2 ⟨q, List.mem_of_find?_eq_some hfound, by simpa using List.find?_some hfound⟩
  case h_2 =>
    split
    case isTrue hmany =>
      obtain ⟨q, hq⟩ := List.exists_mem_of_length_pos (Nat.lt_of_lt_of_le (by decide) hmany)
      obtain ⟨hmem, hsame⟩ := List.mem_filter.1 hq
      refine ⟨_, _, rfl, lt_max_of_lt_left ?_⟩
      rw [delFirst_eq_eraseP, List.length_eraseP_of_mem hmem hsame]
      exact Nat.pred_lt (List.ne_nil_of_mem hmem ∘ List.length_eq_zero_iff.1)
    case isFalse =>
      split
      case isTrue hfull => exact ⟨_, _, rfl, lt_max_of_lt_left (by rw [List.length_drop]; omega)⟩
      case isFalse hspare => exact ⟨_, _, rfl, lt_max_of_lt_right (Nat.lt_of_not_le hspare)⟩

/-- An instruction that awaits the signing `i` goes on without a signature (R133). -/
def EInstr.untold (i j : EInstr) : EInstr := if j.known = i.known ∧ j.owner.slot = i.owner.slot then { j with known := none } else j

/-- The signature register of context A is empty where it awaits the signing (R133). -/
def EInstr.unsign (i : EInstr) (b : Block) : Block :=
  b.updCtx .a (fun k => match k.sig with
    | some r => if some r.sign = i.known then { k with sig := none } else k
    | none => k)

/-- A Vitrine once a run's lookup has hit an entry: the hit is counted, and the entry stands last in the store (R134, R136). -/
def Vit.hitBy (r : Run) (sg : BitVec 64) (p : PvEntry) (u : Vit) : Vit :=
  { u with pvHits := u.pvHits + 1, pv := u.pv.filter (fun q => !(q.key == r.ins.pvKey && q.sig == sg)) ++ [p] }

@[simp] theorem Vit.pvHits_hitBy (r : Run) (sg : BitVec 64) (p : PvEntry) (u : Vit) : (u.hitBy r sg p).pvHits = u.pvHits + 1 := rfl

section
variable {s : State} {c : CoreId} (hgo : s.dev.runs (dieOfCore c) = true)
include hgo

/-! #### The commands -/

/-- A signing that took no part in Provenance ends without a signature, in its queue and in its register (R133). -/
theorem exec_wkSignDone_apart {i : EInstr} (poison : Bool) (hsign : (s.dev.eng c).sign = some i) (htakes : i.takes = false) :
    exec (.wkSignDone c poison) s = .next { s with
      dev := ((s.dev.setEng c (fun e => { e with sign := none, queue := e.queue.map i.untold })).updEblk c i.owner.slot i.unsign).engDone c i false } := by
  have hexec : exec (.wkSignDone c poison) s = execWkSignDone c poison s := rfl
  rw [hexec, execWkSignDone, run_eq]
  simp only [hsign, hgo, htakes, Bool.not_true, Bool.not_false, Bool.false_eq_true, if_false, if_true, X.on_dev, X.on_ops, X.on_mops, Bool.and_eq_true, beq_iff_eq]
  rfl

/-- A lookup that misses sends its run to the array (R133), and is counted. -/
theorem exec_pvLookup_miss {r : Run} {sg : BitVec 64} (hruns : (s.dev.eng c).runs = [r]) (hphase : r.phase = .lookup) (hsig : r.ins.sig = some sg)
    (hdue : r.start + 25 ≤ s.dev.cycOf c) (hmiss : ∀ p ∈ (s.dev.vit (vitOfCore c)).pv, ¬(p.key = r.ins.pvKey ∧ p.sig = sg)) :
    exec (.pvLookup c) s = .next { s with dev := (s.dev.count 0x8013 1 (vitOfCore c).toNat).setEng c (fun e => { e with
      runs := updFirst (fun q => q.ins.id == r.ins.id) (fun q => { q with phase := .array, next := r.start + 25 }) e.runs, free := max e.free (r.start + 25) }) } := by
  have hexec : exec (.pvLookup c) s = execPvLookup c s := rfl
  have hnone : (s.dev.vit (vitOfCore c)).pv.find? (fun p => p.key == r.ins.pvKey && p.sig == sg) = none := by simpa using hmiss
  rw [hexec, execPvLookup, run_eq]
  simp only [hruns, List.find?_cons, hphase, beq_self_eq_true, hsig, hgo, Bool.not_true, Bool.false_eq_true, if_false, Dev.reachOf_of_le _ _ _ hdue,
    Dev.vit_count, hnone]
  rfl

/-- A lookup that hits an intact entry, where no hit is to be verified, gives its run the entry's values and is counted (R133, R136). -/
theorem exec_pvLookup_hit {r : Run} {sg : BitVec 64} {p : PvEntry} (hruns : (s.dev.eng c).runs = [r]) (hphase : r.phase = .lookup)
    (hsig : r.ins.sig = some sg) (hdue : r.start + 25 ≤ s.dev.cycOf c)
    (hhit : (s.dev.vit (vitOfCore c)).pv.find? (fun p => p.key == r.ins.pvKey && p.sig == sg) = some p) (hgood : p.bad = false)
    (hverify : s.dev.vset (vitOfCore c) 5 3 = 0) :
    exec (.pvLookup c) s = .next { s with
      dev := (((s.dev.count 0x8013 1 (vitOfCore c).toNat).count 0x8013 2 (vitOfCore c).toNat).setVit (vitOfCore c) (Vit.hitBy r sg p)).setEng c (fun e => { e with
        runs := updFirst (fun q => q.ins.id == r.ins.id)
          (fun q => { q with phase := .update, next := r.start + 25, hit := true, promo := p.vals, due := r.start + 161 }) e.runs
        free := max e.free (r.start + 25) }) } := by
  have hexec : exec (.pvLookup c) s = execPvLookup c s := rfl
  rw [hexec, execPvLookup, run_eq]
  simp only [hruns, List.find?_cons, hphase, beq_self_eq_true, hsig, hgo, Bool.not_true, Bool.false_eq_true, if_false, Dev.reachOf_of_le _ _ _ hdue,
    Dev.vit_count, hhit, hgood, Dev.vset_count, hverify, Nat.lt_irrefl, decide_false, Bool.false_and]
  rfl

/-- A run whose values agree with its entry's goes on to its bank update (R136). -/
theorem exec_pvVerify_agrees {r : Run} {old : KMap Word} {a : Bool} {ctrl : BitVec 64} (hruns : (s.dev.eng c).runs = [r]) (hphase : r.phase = .verify)
    (hstored : r.stored = some old) (hop : r.ins.op = .mma a ctrl) (hagree : ∀ k ∈ r.values, kget 0 old k.1 = k.2) :
    exec (.pvVerify c) s = .next { s with
      dev := s.dev.setEng c (fun e => { e with runs := updFirst (fun q => q.ins.id == r.ins.id) (fun q => { q with phase := .update }) e.runs }) } := by
  have hexec : exec (.pvVerify c) s = execPvVerify c s := rfl
  have hall : r.values.all (fun p => kget 0 old p.1 == p.2) = true := by simpa using hagree
  rw [hexec, execPvVerify, runDev_eq]
  simp only [hruns, List.find?_cons, hphase, beq_self_eq_true, hgo, Bool.not_true, Bool.false_eq_true, if_false, hstored, hop, hall, if_true]

/-- An insertion takes its entry from the engine, places it in the store and is counted (R134). -/
theorem exec_pvInsert {p : PvEntry} {rest : List PvEntry} (hinserts : (s.dev.eng c).inserts = p :: rest) (hroom : 0 < s.dev.pvRoom (vitOfCore c))
    (hon : s.dev.vset (vitOfCore c) 5 1 = 1) : ∃ d : Dev, exec (.pvInsert c) s = .next { s with dev := d } ∧
    Only [.cnt] ((s.dev.setEng c (fun e => { e with inserts := rest })).setVit (vitOfCore c)
      (fun u => { u with pv := (pvPlace (s.dev.vit (vitOfCore c)).pv (254 * s.dev.pvRoom (vitOfCore c)) p).1 })) d := by
  have hexec : exec (.pvInsert c) s = execPvInsert c s := rfl
  have hcount (d : Dev) := d.count_only 0x8013 3 (vitOfCore c).toNat 1
  refine ⟨_, ?eq, Only.ite (c := (pvPlace (s.dev.vit (vitOfCore c)).pv (254 * s.dev.pvRoom (vitOfCore c)) p).2 = true)
    ((hcount _).count 0x8013 4 (vitOfCore c).toNat 1 (by simp)) (hcount _)⟩
  rw [hexec, execPvInsert, runDev_eq]
  simp only [hinserts, hgo, Bool.not_true, Bool.false_eq_true, if_false, Dev.pvRoom_setEng, Dev.vset_setEng, Dev.vit_setEng, Nat.ne_of_gt hroom,
    hon, decide_false, bne_self_eq_false, Bool.or_self]
  rfl

end

/-- Settles O38, command by command: each changes its engine, and a hit and an insertion the store of their Vitrine, beside what it counts. -/
theorem provenanceLooksUpAndInserts : Obligations.ProvenanceLooksUpAndInserts := by
  rintro s c _ _ rfl rfl hgo
  refine ⟨fun i poison hsign htakes => ?sign, fun r sg hruns hphase hsig hdue => ⟨fun hmiss => ?miss, fun p hhit hgood hverify => ?hit⟩,
    fun r old a ctrl hruns hphase hstored hop hagree => ?verify, fun p rest hinserts hroom hon => ?insert⟩
  case sign =>
    have honly := (s.dev.setEng_only c (fun e => { e with sign := none, queue := e.queue.map i.untold })).trans (Dev.updEblk_only _ c i.owner.slot i.unsign)
    refine ⟨_, exec_wkSignDone_apart hgo poison hsign htakes, ((honly.mono (by simp)).trans (Dev.engDone_only _ _ _ _)).keeps, ?_⟩
    simp only [Dev.eng_engDone, Dev.eng_updEblk, Dev.eng_setEng, true_and]
    rfl
  case miss =>
    refine ⟨_, exec_pvLookup_miss hgo hruns hphase hsig hdue hmiss, (((s.dev.count_only _ _ _ _).mono (by simp)).setEng _ _ (by simp)).keeps, ?_, ?_⟩
    · simp only [Dev.eng_setEng, Dev.eng_count, hruns, updFirst_run]
    · simp only [Dev.counter_setEng, Dev.counter_count]
  case hit =>
    have hcounts := (s.dev.count_only 0x8013 1 (vitOfCore c).toNat 1).count 0x8013 2 (vitOfCore c).toNat 1 (by simp)
    have honly := (hcounts.mono (m := [.cores, .vits, .cnt]) (by simp)).setVit (vitOfCore c) (Vit.hitBy r sg p) (by simp)
    refine ⟨_, exec_pvLookup_hit hgo hruns hphase hsig hdue hhit hgood hverify, (honly.setEng _ _ (by simp)).keeps, ?_, ?_⟩
    · simp only [Dev.eng_setEng, Dev.eng_setVit, Dev.eng_count, hruns, updFirst_run]
    · simp only [Dev.vit_setEng, Dev.vit_setVit, Dev.vit_count, Vit.pvHits_hitBy]
  case verify =>
    exact completes_setEng _ (exec_pvVerify_agrees hgo hruns hphase hstored hop hagree)
      (fun t hkeeps _ heng => ⟨hkeeps, by simp only [heng, hruns, updFirst_run]⟩)
  case insert =>
    obtain ⟨d, hexec, honly⟩ := exec_pvInsert hgo hinserts hroom hon
    obtain ⟨kept, k, hplaced, hlength⟩ := pvPlace_eq (s.dev.vit (vitOfCore c)).pv p (Nat.mul_pos (by decide : 0 < 254) hroom)
    have hstore : (d.vit (vitOfCore c)).pv = (pvPlace (s.dev.vit (vitOfCore c)).pv (254 * s.dev.pvRoom (vitOfCore c)) p).1 := by
      rw [honly.vit (by simp), Dev.vit_setVit]
    have hplace := ((s.dev.setEng_only c (fun e => { e with inserts := rest })).mono (m := [.cores, .vits, .cnt]) (by simp)).setVit (vitOfCore c)
      (fun u => { u with pv := (pvPlace (s.dev.vit (vitOfCore c)).pv (254 * s.dev.pvRoom (vitOfCore c)) p).1 }) (by simp)
    refine ⟨_, hexec, (hplace.trans (honly.mono (by simp))).keeps, ?rest, hstore, ⟨k, ?mem⟩, fun hfit => ?length⟩
    case rest => rw [honly.eng (by simp), Dev.eng_setVit, Dev.eng_setEng]
    case mem => simp only [hstore, hplaced, List.mem_append, List.mem_singleton, or_true]
    case length =>
      rw [max_eq_right hfit] at hlength
      simpa only [hstore, hplaced, List.length_append, List.length_singleton, Nat.add_one_le_iff] using hlength

end Sys2Proof.Machine

namespace Sys2Proof.Machine

/-! ### HBM: the records of channels and pseudo-channels (O31, O32) -/

theorem Only.setHpc {l : List Part} {d e : Dev} (c p : Nat) (f : HPc → HPc) (h : Only l d e) (h0 : Part.hbm ∈ l) : Only l d (e.setHpc c p f) := h.onHbm _ h0
theorem Only.setHchan {l : List Part} {d e : Dev} (c : Nat) (f : HChan → HChan) (h : Only l d e) (h0 : Part.hbm ∈ l) : Only l d (e.setHchan c f) := h.onHbm _ h0

theorem Dev.setHpc_only (d : Dev) (c p : Nat) (f : HPc → HPc) : Only [.hbm] d (d.setHpc c p f) := (Only.refl _ d).onHbm _ (by simp)

section
variable (d : Dev) (c p : Nat)

@[simp] theorem Dev.hpc_setHpc (f : HPc → HPc) : (d.setHpc c p f).hpc c p = f (d.hpc c p) := kget_kupd _ _ _ _

theorem Dev.hpc_setHpc_ne {r : Nat} (h : r ≠ p) (f : HPc → HPc) : (d.setHpc c p f).hpc c r = d.hpc c r := kget_kupd_ne _ _ _ _ _ (by omega)

@[simp] theorem Dev.hchan_setHchan (f : HChan → HChan) : (d.setHchan c f).hchan c = f (d.hchan c) := kget_kupd _ _ _ _

@[simp] theorem Dev.hpc_setHchan (k : Nat) (f : HChan → HChan) : (d.setHchan k f).hpc c p = d.hpc c p := rfl
@[simp] theorem Dev.hchan_setHpc (k : Nat) (f : HPc → HPc) : (d.setHpc k p f).hchan c = d.hchan c := rfl
@[simp] theorem Dev.hpc_count (i n r m : Nat) : (d.count i n r m).hpc c p = d.hpc c p := rfl
@[simp] theorem Dev.hchan_count (i n r m : Nat) : (d.count i n r m).hchan c = d.hchan c := rfl
@[simp] theorem Dev.hchan_logErr (r : ErrRec) : (d.logErr r).hchan c = d.hchan c := by rw [Dev.hchan, Dev.logErr_hbm, Dev.hchan]

@[simp] theorem Dev.counter_setHpc (f : HPc → HPc) (i n r : Nat) : (d.setHpc c p f).counter i n r = d.counter i n r := rfl
@[simp] theorem Dev.counter_logErr (e : ErrRec) (i n r : Nat) : (d.logErr e).counter i n r = d.counter i n r := by rw [Dev.counter, Dev.logErr_cnt, Dev.counter]

theorem ckey_ne_of_sub {n m : Nat} (h : n ≠ m) (i r : Nat) : ckey i n r ≠ ckey i m r := by simp only [ckey]; omega

/-- A count leaves the other subindices of its row. -/
theorem Dev.counter_count_sub {d : Dev} {n m : Nat} (h : n ≠ m) (i r k : Nat) : (d.count i m r k).counter i n r = d.counter i n r :=
  d.counter_count_ne _ _ _ _ _ _ _ (ckey_ne_of_sub h i r)

end

/-! #### The remap tables alone fix where a row and a burst stand -/

/-- Two views of a pseudo-channel have the same remap tables (R159, R160). -/
def HPc.SameTables (q h : HPc) : Prop := h.remap = q.remap ∧ h.pool = q.pool ∧ h.redirected = q.redirected

namespace HPc.SameTables
variable {q h : HPc}

theorem entry (hs : q.SameTables h) (k : Nat) : h.entry k = q.entry k := by
  obtain ⟨hremap, hpool, hred⟩ := hs
  simp only [HPc.entry, hremap, hpool, hred]

theorem servesFor (hs : q.SameTables h) (k : Nat) : h.servesFor k = q.servesFor k := by
  obtain ⟨hremap, hpool, hred⟩ := hs
  simp only [HPc.servesFor, hremap, hpool, hred]

theorem follow (hs : q.SameTables h) (n k : Nat) : h.follow n k = q.follow n k := by
  induction n generalizing k with
  | zero => rfl
  | succ n ih => simp only [HPc.follow, hs.entry, ih]

theorem back (hs : q.SameTables h) (n k : Nat) : h.back n k = q.back n k := by
  induction n generalizing k with
  | zero => rfl
  | succ n ih => simp only [HPc.back, hs.servesFor, ih]

theorem place (hs : q.SameTables h) (a : Nat) : h.place a = q.place a := hs.follow _ _

theorem home (hs : q.SameTables h) (a : Nat) : h.home a = q.home a := by simp only [HPc.home, hs.back]

end HPc.SameTables

/-! #### Refreshes and activates -/

/-- No refresh is due: none goes to a bank. -/
theorem HPc.refreshes_of_none {q : HPc} {n : Nat} (h : q.postponed + n = 0) (now : Nat) : q.refreshes now n = q := by
  rw [HPc.refreshes, h, List.range_zero, List.foldl_nil]

/-- One refresh goes to the bank next in rotation, which it holds for 132 cycles (R150). -/
def HPc.refreshOne (now : Nat) (h : HPc) : HPc :=
  { h with busy := kset h.busy h.rotate (max now (kget 0 h.busy h.rotate) + 132), rows := kdel h.rows h.rotate, rotate := (h.rotate + 1) % 64, postponed := 0 }

/-- The refreshes due change which banks are busy and which rows are open, and move the rotation on. -/
theorem HPc.refreshes_of_some {q : HPc} {n : Nat} (h : 0 < q.postponed + n) (now : Nat) : ∃ busy rows,
    q.refreshes now n = { q with busy := busy, rows := rows, rotate := (q.rotate + q.postponed + n) % 64, postponed := 0 } := by
  have hiter : ∀ m, ∃ busy rows, (List.range (m + 1)).foldl (fun h (_ : Nat) => h.refreshOne now) q =
      { q with busy := busy, rows := rows, rotate := (q.rotate + (m + 1)) % 64, postponed := 0 } := fun m => by
    induction m with
    | zero => exact ⟨_, _, rfl⟩
    | succ m ih =>
      obtain ⟨busy, rows, hm⟩ := ih
      rw [List.range_succ, List.foldl_append, hm]
      exact ⟨_, _, by simp only [List.foldl_cons, List.foldl_nil, HPc.refreshOne, Nat.mod_add_mod]; rfl⟩
  obtain ⟨busy, rows, hm⟩ := hiter (q.postponed + n - 1)
  rw [Nat.sub_add_cancel h, ← Nat.add_assoc] at hm
  exact ⟨busy, rows, hm⟩

theorem HPc.refreshes_sameTables (q : HPc) (now n : Nat) : q.SameTables (q.refreshes now n) := by
  rcases Nat.eq_zero_or_pos (q.postponed + n) with hnone | hsome
  · rw [HPc.refreshes_of_none hnone]; exact ⟨rfl, rfl, rfl⟩
  · obtain ⟨busy, rows, h⟩ := HPc.refreshes_of_some hsome now
    rw [h]; exact ⟨rfl, rfl, rfl⟩

theorem Dev.activate_only (d : Dev) (ch a : Nat) : Only [.hbm, .cnt] d (d.activate ch a) := by
  rw [Dev.activate]
  exact (Only.refl _ d).ite (((Only.refl _ d).setHpc _ _ _ (by simp)).count _ _ _ _ (by simp))

theorem Dev.activate_sameTables (d : Dev) (ch a : Nat) : (d.hpc ch (pcOf a)).SameTables ((d.activate ch a).hpc ch (pcOf a)) := by
  rw [Dev.activate]; split
  · exact ⟨rfl, rfl, rfl⟩
  · rw [Dev.hpc_count, Dev.hpc_setHpc]; exact HPc.refreshes_sameTables _ _ _

/-- Where the row is open, or no refresh is postponed, an activate opens the row and nothing else. -/
theorem Dev.hpc_activate {d : Dev} {ch a : Nat} {q : HPc} (hq : d.hpc ch (pcOf a) = q) (h : q.hits (q.place a) = true ∨ q.postponed = 0) :
    (d.activate ch a).hpc ch (pcOf a) =
      { q with rows := if q.hits (q.place a) then q.rows else kset q.rows (q.place a / 16384) (q.place a % 16384) } := by
  cases hhits : q.hits (q.place a) with
  | true => simp [Dev.activate, hq, hhits]
  | false =>
    have hnone := HPc.refreshes_of_none (n := 0) (h.resolve_left (by simp [hhits])) (d.hbmCycle (dieOfChan ch))
    simp [Dev.activate, hq, hhits, hnone]

theorem Dev.counter_activate (d : Dev) (ch a : Nat) {n : Nat} (h : n ≠ 4) :
    (d.activate ch a).counter 0x8014 n (vitOfChan ch).toNat = d.counter 0x8014 n (vitOfChan ch).toNat := by
  rw [Dev.activate]; split
  · rfl
  · rw [Dev.counter_count_sub h, Dev.counter_setHpc]

/-! #### Bytes of a burst -/

theorem getElem?_leBytes {n i : Nat} (v : Nat) (h : i < n) : (leBytes v n)[i]? = some (BitVec.ofNat 8 (v / 2 ^ (8 * i))) := by
  induction n generalizing v i with
  | zero => exact absurd h (Nat.not_lt_zero i)
  | succ n ih =>
    cases i with
    | zero => simp [leBytes]
    | succ i =>
      have hpow : 2 ^ (8 * (i + 1)) = 256 * 2 ^ (8 * i) := by rw [Nat.mul_succ, Nat.pow_add, Nat.mul_comm]
      rw [leBytes, List.getElem?_cons_succ, ih _ (by omega), Nat.div_div_eq_div_mul, hpow]

/-- Byte i of the natural that bytes spell is the i-th of them (R9). -/
theorem ofNat_leNat_div (l : List Byte) (i : Nat) : BitVec.ofNat 8 (leNat l / 2 ^ (8 * i)) = l[i]?.getD 0 := by
  induction l generalizing i with
  | nil => simp [leNat]
  | cons b l ih =>
    cases i with
    | zero => apply BitVec.eq_of_toNat_eq; simp [leNat]; omega
    | succ i =>
      have hpow : 2 ^ (8 * (i + 1)) = 256 * 2 ^ (8 * i) := by rw [Nat.mul_succ, Nat.pow_add, Nat.mul_comm]
      have htail : leNat (b :: l) / 256 = leNat l := by have := b.isLt; simp only [leNat]; omega
      rw [hpow, ← Nat.div_div_eq_div_mul, htail, ih, List.getElem?_cons_succ]

/-- Byte i of a burst, as a natural's and as its bits. -/
theorem ofNat_toNat_div_eq (v : BitVec 512) (i : Nat) : BitVec.ofNat 8 (v.toNat / 2 ^ (8 * i)) = v.extractLsb' (8 * i) 8 := by
  rw [← Nat.shiftRight_eq_div_pow]; rfl

/-- The bits that a byte mask selects of a burst. -/
def burstMask (mask : BitVec 64) : BitVec 512 := (bits mask).foldl (fun m i => m ||| BitVec.ofNat 512 (255 * 2 ^ (8 * i))) 0

theorem getLsbD_byteOnes {i j : Nat} (hj : j < 512) : (BitVec.ofNat 512 (255 * 2 ^ (8 * i))).getLsbD j = decide (j / 8 = i) := by
  have h255 : 255 = 2 ^ 8 - 1 := by decide
  rw [BitVec.getLsbD_ofNat, h255, Nat.testBit_mul_two_pow, Nat.testBit_two_pow_sub_one]
  simp only [hj, decide_true, Bool.true_and]
  rw [← Bool.decide_and, decide_eq_decide]
  omega

theorem getLsbD_burstMask (mask : BitVec 64) {j : Nat} (hj : j < 512) : (burstMask mask).getLsbD j = mask.getLsbD (j / 8) := by
  have hfold : ∀ (l : List Nat) (m : BitVec 512), (l.foldl (fun m i => m ||| BitVec.ofNat 512 (255 * 2 ^ (8 * i))) m).getLsbD j =
      (m.getLsbD j || decide (j / 8 ∈ l)) := fun l => by
    induction l with
    | nil => simp
    | cons i l ih => intro m; simp [ih, getLsbD_byteOnes hj, Bool.or_assoc]
  rw [burstMask, hfold, Bool.eq_iff_iff]
  simp [mem_bits]

/-- A burst with the bytes of a mask replaced. -/
def burstMerge (mask : BitVec 64) (data old : BitVec 512) : BitVec 512 := (old &&& ~~~burstMask mask) ||| (data &&& burstMask mask)

theorem extractLsb'_burstMerge (mask : BitVec 64) (data old : BitVec 512) {i : Nat} (hi : i < 64) :
    (burstMerge mask data old).extractLsb' (8 * i) 8 = if mask.getLsbD i then data.extractLsb' (8 * i) 8 else old.extractLsb' (8 * i) 8 := by
  apply BitVec.eq_of_getLsbD_eq
  intro k hk
  have hj : 8 * i + k < 512 := by omega
  have hmask : (burstMask mask).getLsbD (8 * i + k) = mask.getLsbD i := by
    rw [getLsbD_burstMask mask hj, Nat.mul_add_div (by decide), Nat.div_eq_of_lt hk, Nat.add_zero]
  cases hbit : mask.getLsbD i <;>
    simp only [burstMerge, BitVec.getLsbD_extractLsb', BitVec.getLsbD_or, BitVec.getLsbD_and, BitVec.getLsbD_not, hmask, hbit, hk, hj, decide_true,
      Bool.not_true, Bool.not_false, Bool.and_true, Bool.and_false, Bool.true_and, Bool.or_false, Bool.false_or, if_true, Bool.false_eq_true, if_false]

/-- The burst as performed holds its 64 bytes of the store. -/
theorem extractLsb'_burst (m : Mems) (q : HPc) (ch a : Nat) {i : Nat} (hi : i < 64) :
    (m.burst q ch a).1.extractLsb' (8 * i) 8 = m.byte .hbm (hbmKey ch (q.home a) / 64 * 64 + i) := by
  have hbits : (m.burst q ch a).1.extractLsb' (8 * i) 8 = BitVec.ofNat 8 (m.nat .hbm (hbmKey ch (q.home a) / 64 * 64) 64 / 2 ^ (8 * i)) := by
    apply BitVec.eq_of_getLsbD_eq
    intro k hk
    have hj : 8 * i + k < 512 := by omega
    simp only [Mems.burst, BitVec.getLsbD_extractLsb', BitVec.getLsbD_ofNat, Nat.testBit_div_two_pow, Nat.add_comm k, hk, hj, decide_true, Bool.true_and]
  rw [hbits, Mems.nat, ofNat_leNat_div, Mems.bytes, List.getElem?_map, List.getElem?_range hi]
  rfl

/-! #### Views whose changes of memory are listed -/

/-- A view of a command on `s`: its memory is what its listed changes make, and the MRAM stands. -/
structure X.From (s : State) (y : X) : Prop where
  listed : y.mem = applyAll s.mem y.ops.reverse
  mops : y.mops = []

namespace X.From
variable {s : State} {y : X}

theorem start (s : State) (d : Dev) : X.From s { dev := d, mem := s.mem, mram := s.mram } := ⟨rfl, rfl⟩

theorem on (h : X.From s y) (f : Dev → Dev) : X.From s (y.on f) := ⟨h.listed, h.mops⟩

theorem op (h : X.From s y) (o : MemOp) : X.From s (y.op o) := by
  refine ⟨?_, h.mops⟩
  rw [X.op_mem, X.op_ops, List.reverse_cons, applyAll, List.foldl_append, h.listed]
  rfl

theorem putBytes (h : X.From s y) (sp : MemSp) (a : Nat) (l : List Byte) : X.From s (y.putBytes sp a l) :=
  ⟨(y.putBytes_keeps sp a l).1 s.mem h.listed, (foldl_keeps X.mops (fun (y : X) (e : Byte × Nat) => y.op (.set sp (a + e.2) e.1)) (fun _ _ => rfl) _ _).trans h.mops⟩

end X.From

@[simp] theorem X.on_id (x : X) : x.on id = x := rfl

/-- A command completes with the machine and the memory of the view its effect leaves. -/
theorem completes_view {i : Instr} {s : State} {P : State → Prop} {f : X → X} {y : X} (h : exec i s = run s f)
    (hf : f { dev := s.dev, mem := s.mem, mram := s.mram } = y) (hfrom : y.From s)
    (hp : ∀ e m, e = y.dev → m = y.mem → P { s with dev := e, mem := m }) : Completes i s P := by
  refine completes_run y h hf ?_
  rw [← hfrom.listed, hfrom.mops]
  exact hp _ _ rfl rfl

/-- The frame of a command that changes memory besides these parts of the machine. -/
theorem Only.keeps_mem {l : List Part} {s : State} {e : Dev} (h : Only l s.dev e) (m : Mems) : Keeps (.mem :: l) s { s with dev := e, mem := m } := by
  refine ⟨rfl, fun p hp => ?_⟩
  have hsame := h s p (fun hin => hp (List.mem_cons_of_mem _ hin))
  cases p with
  | mem => exact absurd List.mem_cons_self hp
  | _ => exact hsame

/-! #### A burst put -/

@[simp] theorem Mems.byte_mark (m : Mems) (p : Bool) (g : Nat) (on : Bool) (sp : MemSp) (k : Nat) : (applyOp m (.mark p g on)).byte sp k = m.byte sp k := by
  cases p <;> cases sp <;> rfl

section PutBurst
variable (x : X) (ch a : Nat) (data : BitVec 512) (poison : Bool)

theorem X.putBurst_eq : x.putBurst ch a data poison =
    ((x.putBytes .hbm (hbmKey ch ((x.dev.hpc ch (pcOf a)).home a) / 64 * 64) (leBytes data.toNat 64)).op
      (.mark false (hbmKey ch ((x.dev.hpc ch (pcOf a)).home a) / 64) poison)).on
        (fun d => d.setHpc ch (pcOf a) (fun q => { q with ret := kdel q.ret (a / 64) })) := rfl

@[simp] theorem X.dev_putBurst : (x.putBurst ch a data poison).dev = x.dev.setHpc ch (pcOf a) (fun q => { q with ret := kdel q.ret (a / 64) }) := by
  rw [X.putBurst_eq, X.on_dev, X.op_dev, X.dev_putBytes]

theorem X.From.putBurst {x : X} {s : State} (h : x.From s) : (x.putBurst ch a data poison).From s :=
  X.putBurst_eq x ch a data poison ▸ ((h.putBytes _ _ _).op _).on _

/-- Burst y of the HBM holds this data and poison in `t`, and every other byte is as in `m`. -/
structure Mems.BurstPut (m t : Mems) (y : Nat) (data : BitVec 512) (poison : Bool) : Prop where
  byte : Memory.wf m = true → ∀ i < 64, t.byte .hbm (y * 64 + i) = data.extractLsb' (8 * i) 8
  frame : ∀ tp b, (tp ≠ .hbm ∨ b / 64 ≠ y) → t.byte tp b = m.byte tp b
  poison : t.poison.contains y = poison

theorem X.burstPut_putBurst {x : X} {ch a y : Nat} (hy : hbmKey ch ((x.dev.hpc ch (pcOf a)).home a) / 64 = y) :
    x.mem.BurstPut (x.putBurst ch a data poison).mem y data poison := by
  rw [X.putBurst_eq, X.on_mem, X.op_mem, hy]
  refine ⟨fun hwf i hi => ?_, fun tp b hb => ?_, ?_⟩
  · rw [Mems.byte_mark, X.byte_putBytes _ _ _ _ hwf i (by rwa [length_leBytes]), getElem?_leBytes _ hi, Option.getD_some, ofNat_toNat_div_eq]
  · rw [Mems.byte_mark]
    refine (x.putBytes_keeps _ _ _).2.2 tp b (hb.imp_right ?_)
    rw [length_leBytes]
    omega
  · cases poison <;> simp [applyOp, sdel, mem_sins]

end PutBurst
/-- A command that puts one burst, and changes the machine beside, completes. -/
theorem completes_putBurst {i : Instr} {s : State} {P : State → Prop} {f : X → X} {d : Dev} {ch a y : Nat} {data : BitVec 512} {poison : Bool} (g : Dev → Dev)
    (h : exec i s = run s f) (hy : hbmKey ch ((d.hpc ch (pcOf a)).home a) / 64 = y)
    (hf : f { dev := s.dev, mem := s.mem, mram := s.mram } = (X.putBurst { dev := d, mem := s.mem, mram := s.mram } ch a data poison).on g)
    (hp : ∀ m, s.mem.BurstPut m y data poison →
      P { s with dev := g (d.setHpc ch (pcOf a) (fun q => { q with ret := kdel q.ret (a / 64) })), mem := m }) : Completes i s P := by
  have hput := X.burstPut_putBurst data poison (x := { dev := d, mem := s.mem, mram := s.mram }) hy
  refine completes_view h hf ((X.From.putBurst ch a data poison (X.From.start s d)).on g) (fun e m he hm => ?_)
  rw [X.on_dev, X.dev_putBurst] at he
  rw [X.on_mem] at hm
  rw [← hm] at hput
  rw [he]
  exact hp m hput

/-! #### Errors of a burst -/

theorem Only.dueRow {l : List Part} {d e : Dev} (ch a : Nat) (unc : Bool) (h : Only l d e) (h0 : Part.hbm ∈ l) : Only l d (e.dueRow ch a unc) := h.setHchan _ _ h0

theorem Dev.correctedAt_only (d : Dev) (ch a : Nat) : Only [.hbm, .cnt] d (d.correctedAt ch a) := by
  rw [Dev.correctedAt]
  have hcount := ((d.count_only 0x8014 5 (vitOfChan ch).toNat 1).mono (m := [.hbm, .cnt]) (by simp)).setHpc ch (pcOf a)
    (fun q => { q with ce := kset q.ce ((d.hpc ch (pcOf a)).place a) (kget 0 (d.hpc ch (pcOf a)).ce ((d.hpc ch (pcOf a)).place a) + 1), fixed := sins q.fixed (a / 64) }) (by simp)
  exact (hcount.dueRow _ _ _ (by simp)).ite hcount

theorem Dev.uncorrectedAt_only (d : Dev) (ch a n : Nat) : Only [.hbm, .cnt, .rel] d (d.uncorrectedAt ch a n) :=
  ((((Only.refl _ d).count _ _ _ _ (by simp)).logErr _ (by simp)).dueRow _ _ _ (by simp))

@[simp] theorem Dev.counter_dueRow (d : Dev) (ch a : Nat) (unc : Bool) (i n r : Nat) : (d.dueRow ch a unc).counter i n r = d.counter i n r := rfl

theorem Dev.counter_correctedAt (d : Dev) (ch a : Nat) :
    (d.correctedAt ch a).counter 0x8014 5 (vitOfChan ch).toNat = (d.counter 0x8014 5 (vitOfChan ch).toNat + 1) % 2 ^ 64 := by
  rw [Dev.correctedAt, Dev.corrected]
  split <;> simp only [Dev.counter_dueRow, Dev.counter_setHpc, Dev.counter_count]

theorem Dev.counter_uncorrectedAt (d : Dev) (ch a n : Nat) :
    (d.uncorrectedAt ch a n).counter 0x8014 6 (vitOfChan ch).toNat = (d.counter 0x8014 6 (vitOfChan ch).toNat + 1) % 2 ^ 64 := by
  simp only [Dev.uncorrectedAt, Dev.counter_dueRow, Dev.counter_logErr, Dev.counter_count]

/-- What the machine does about an error that a read of a burst finds (R147, R158). -/
def Dev.burstFound (d : Dev) (ch a : Nat) : BurstErr → Dev
  | .none => d
  | .oneSymbol _ => d.correctedAt ch a
  | err => d.uncorrectedAt ch a (BurstErr.symbol err)

/-- Whether an error leaves the burst delivered poisoned (R147). -/
def BurstErr.poisons : BurstErr → Bool
  | .none | .oneSymbol _ => false
  | _ => true

theorem X.decode_eq (x : X) (ch a : Nat) (data : BitVec 512) (poison : Bool) {err : BurstErr} (h : err ≠ .fourOrMore true) :
    x.decode ch a data poison err = (x.on (fun d => d.burstFound ch a err), data, poison || BurstErr.poisons err) := by
  cases err with
  | fourOrMore undetected =>
    cases undetected with
    | true => exact absurd rfl h
    | false => simp only [X.decode, Dev.burstFound, BurstErr.poisons, Bool.or_true]
  | none => rw [BurstErr.poisons, Bool.or_false]; rfl
  | _ => simp only [X.decode, Dev.burstFound, BurstErr.poisons, Bool.or_true, Bool.or_false]

/-! #### Requests, bursts and read-modify-writes (O31) -/

/-- The request of a burst, as its queue holds it. -/
def State.request (s : State) (ch : ChanId) (a : BitVec 31) (port : MPort) (slack : Option (BitVec 16)) (burst : BitVec 512 × Bool := (0, false)) : HReq :=
  { a := a.toNat, high := s.dev.reqHigh port (vitOfChan ch.val) slack, at' := s.dev.hbmCycle (dieOfChan ch.val), data := burst.1, poison := burst.2 }

/-- A read-modify-write opens the row of its burst, and a read, a write and itself are counted (R144). -/
def Dev.rmwCounted (d : Dev) (ch a : Nat) : Dev :=
  (((d.activate ch a).count 0x8014 1 (vitOfChan ch).toNat).count 0x8014 2 (vitOfChan ch).toNat).count 0x8014 3 (vitOfChan ch).toNat

theorem Dev.rmwCounted_only (d : Dev) (ch a : Nat) : Only [.hbm, .cnt] d (d.rmwCounted ch a) :=
  (((d.activate_only _ _).count _ _ _ _ (by simp)).count _ _ _ _ (by simp)).count _ _ _ _ (by simp)

theorem Dev.home_rmwCounted (d : Dev) (ch a b : Nat) : ((d.rmwCounted ch a).hpc ch (pcOf a)).home b = (d.hpc ch (pcOf a)).home b :=
  (d.activate_sameTables ch a).home b

theorem Dev.counter_rmwCounted (d : Dev) (ch a : Nat) :
    (d.rmwCounted ch a).counter 0x8014 3 (vitOfChan ch).toNat = (d.counter 0x8014 3 (vitOfChan ch).toNat + 1) % 2 ^ 64 := by
  simp (disch := decide) only [Dev.rmwCounted, Dev.counter_count, Dev.counter_count_sub, Dev.counter_activate]

section
variable {s : State} {ch : ChanId} {a : BitVec 31} {q : HPc} (hq : s.dev.hpc ch.val (pcOf a.toNat) = q) (hruns : s.dev.runs (dieOfChan ch.val) = true)
include hq hruns

/-- A read enters its queue with the burst as performed (R143, R145). -/
theorem exec_hbmRequestAccept_read (data : BitVec 512) (port : MPort) (slack : Option (BitVec 16)) (hroom : q.reads.length < 64) :
    exec (.hbmRequestAccept ch false a data ⟨port, slack⟩) s = .next { s with
      dev := s.dev.setHpc ch.val (pcOf a.toNat) (fun h => { h with reads := h.reads ++ [s.request ch a port slack (s.mem.burst q ch.val a.toNat)] }) } := by
  have hexec : exec (.hbmRequestAccept ch false a data ⟨port, slack⟩) s = execHbmRequestAccept ch false a data ⟨port, slack⟩ s := rfl
  rw [hexec, execHbmRequestAccept, run_eq]
  simp only [hq, hruns, Nat.not_le.2 hroom, Bool.not_true, Bool.false_eq_true, if_false, decide_false, Bool.or_false]
  rfl

/-- A write enters its queue and is performed at its burst alone (R143, R145). -/
theorem hbmRequestAccept_write (data : BitVec 512) (port : MPort) (slack : Option (BitVec 16)) (hroom : q.writes.length < 64) :
    Completes (.hbmRequestAccept ch true a data ⟨port, slack⟩) s (fun t => Keeps [.hbm, .mem] s t ∧
      t.dev.hpc ch.val (pcOf a.toNat) = { q with ret := kdel q.ret (a.toNat / 64), writes := q.writes ++ [s.request ch a port slack] } ∧
      s.mem.BurstPut t.mem (hbmKey ch.val (q.home a.toNat) / 64) data false) := by
  have hexec : exec (.hbmRequestAccept ch true a data ⟨port, slack⟩) s = execHbmRequestAccept ch true a data ⟨port, slack⟩ s := rfl
  refine completes_putBurst (fun d => d.setHpc ch.val (pcOf a.toNat) (fun h => { h with writes := h.writes ++ [s.request ch a port slack] })) (hexec.trans rfl)
    (congrArg (fun h : HPc => hbmKey ch.val (h.home a.toNat) / 64) hq) ?effect (fun m hput => ⟨?keeps, ?hpc, hput⟩)
  case effect =>
    simp only [hq, hruns, Nat.not_le.2 hroom, Bool.not_true, Bool.false_eq_true, if_false, if_true, decide_false, Bool.or_false]
    rfl
  case keeps => exact (((s.dev.setHpc_only _ _ _).setHpc _ _ _ (by simp)).keeps_mem m).mono (by simp)
  case hpc => simp only [Dev.hpc_setHpc, hq]

section
variable (hcal : q.calEnd ≤ s.dev.hbmCycle (dieOfChan ch.val))
include hcal

/-- The data of a read sent to the stack returns, poisoned where the error found is uncorrectable (R147). -/
theorem exec_hbmBurstRead {r : HReq} {err : BurstErr} (herr : err ≠ .fourOrMore true) (hfind : q.flight.find? (fun r => r.a / 64 == a.toNat / 64) = some r) :
    exec (.hbmBurstRead ch a err) s = .next { s with
      dev := (s.dev.burstFound ch.val a.toNat err).setHpc ch.val (pcOf a.toNat) (fun h => { h with
        flight := delFirst (fun u => u.a / 64 == a.toNat / 64) h.flight, ret := kset h.ret (a.toNat / 64) (r.data, r.poison || BurstErr.poisons err) }) } := by
  have hexec : exec (.hbmBurstRead ch a err) s = execHbmBurstRead ch a err s := rfl
  rw [hexec, execHbmBurstRead, run_eq]
  simp only [hq, hruns, Nat.not_lt.2 hcal, Bool.not_true, Bool.false_eq_true, if_false, decide_false, Bool.or_false, hfind, X.decode_eq _ _ _ _ _ herr]
  cases err with
  | fourOrMore undetected => cases undetected with
    | true => exact absurd rfl herr
    | false => rfl
  | _ => rfl

/-- A read-modify-write puts its burst back with the masked bytes replaced (R148). -/
theorem hbmRmw_completes {old : BitVec 512 × Bool} (hold : s.mem.burst q ch.val a.toNat = old) (mask : BitVec 64) (data : BitVec 512) :
    Completes (.hbmRmw ch a mask data [] .none) s (fun t => Keeps [.mem, .cnt, .hbm] s t ∧
      s.mem.BurstPut t.mem (hbmKey ch.val (q.home a.toNat) / 64) (burstMerge mask data old.1) old.2 ∧
      t.dev.counter 0x8014 3 (vitOfChan ch.val).toNat = (s.dev.counter 0x8014 3 (vitOfChan ch.val).toNat + 1) % 2 ^ 64) := by
  have hexec : exec (.hbmRmw ch a mask data [] .none) s = execHbmRmw ch a mask data [] .none s := rfl
  have hhome : ((s.dev.rmwCounted ch.val a.toNat).hpc ch.val (pcOf a.toNat)).home a.toNat = q.home a.toNat := hq ▸ s.dev.home_rmwCounted _ _ _
  refine completes_putBurst (data := burstMerge mask data old.1) (poison := old.2) id (hexec.trans rfl) (congrArg (hbmKey ch.val · / 64) hhome) ?effect
    (fun m hput => ⟨?keeps, hput, Dev.counter_rmwCounted _ _ _⟩)
  case effect =>
    simp only [hq, hruns, Nat.not_lt.2 hcal, Bool.not_true, Bool.false_eq_true, if_false, decide_false, Bool.or_false, X.decode, List.isEmpty_nil, Bool.and_false,
      List.foldl_nil, X.on_id, X.on_mem, hold, BitVec.setWidth_setWidth_of_le _ (show 512 ≤ 1024 by decide), BitVec.setWidth_eq]
    rfl
  case keeps => exact (((s.dev.rmwCounted_only _ _).setHpc _ _ _ (by simp)).keeps_mem m).mono (by simp)

end
end

section
variable {s : State} {ch : ChanId} {pc : Bool} {q : HPc} {r : HReq} (hp : pcOf r.a = if pc then 1 else 0) (hq : s.dev.hpc ch.val (pcOf r.a) = q)
  (hruns : s.dev.runs (dieOfChan ch.val) = true) (hcal : q.calEnd ≤ s.dev.hbmCycle (dieOfChan ch.val)) (hreads : q.reads = [r]) (hwrites : q.writes = [])
  (hfree : kget 0 q.busy (q.place r.a / 16384) ≤ s.dev.hbmCycle (dieOfChan ch.val))
include hp hq hruns hcal hreads hwrites hfree

/-- The one waiting read is the next command (R143): it goes to the stack, or the postponed refreshes go before the activate it needs (R150). -/
theorem exec_hbmSchedule_read : exec (.hbmSchedule ch pc) s = .next { s with
    dev := if q.hits (q.place r.a) = false ∧ 0 < q.postponed then
        s.dev.setHpc ch.val (pcOf r.a) (fun h => { h.refreshes (s.dev.hbmCycle (dieOfChan ch.val)) 0 with drain := false })
      else ((s.dev.activate ch.val r.a).count 0x8014 1 (vitOfChan ch.val).toNat).setHpc ch.val (pcOf r.a)
        (fun h => { h with drain := false, reads := delFirst (fun t => t == r) h.reads, flight := h.flight ++ [r] }) } := by
  have hexec : exec (.hbmSchedule ch pc) s = execHbmSchedule ch pc s := rfl
  rw [hexec, execHbmSchedule, runDev_eq]
  simp [← hp, hq, hruns, Nat.not_lt.2 hcal, hreads, hwrites, hfree]

/-- With its row open, or no refresh postponed, the read goes to the stack. -/
theorem hbmSchedule_sends (hgo : q.hits (q.place r.a) = true ∨ q.postponed = 0) : Completes (.hbmSchedule ch pc) s (fun t => Keeps [.hbm, .cnt] s t ∧
    t.dev.hpc ch.val (pcOf r.a) = { q with drain := false, rows := if q.hits (q.place r.a) then q.rows else kset q.rows (q.place r.a / 16384) (q.place r.a % 16384),
                                           reads := [], flight := q.flight ++ [r] }) := by
  have hnot : ¬(q.hits (q.place r.a) = false ∧ 0 < q.postponed) := fun ⟨hmiss, hpost⟩ => by
    rcases hgo with hhits | hnone
    · exact Bool.false_ne_true (hmiss.symm.trans hhits)
    · omega
  have honly := (s.dev.activate_only ch.val r.a).count 0x8014 1 (vitOfChan ch.val).toNat 1 (by simp)
  refine ⟨_, exec_hbmSchedule_read hp hq hruns hcal hreads hwrites hfree, ?_⟩
  rw [if_neg hnot]
  refine ⟨(honly.setHpc _ _ _ (by simp)).keeps, ?_⟩
  rw [Dev.hpc_setHpc, Dev.hpc_count, Dev.hpc_activate hq hgo]
  simp [hreads, delFirst]

/-- With its row closed and refreshes postponed, the refreshes go first and the read waits. -/
theorem hbmSchedule_refreshes (hmiss : q.hits (q.place r.a) = false) (hpost : 0 < q.postponed) : Completes (.hbmSchedule ch pc) s (fun t => Keeps [.hbm] s t ∧
    (t.dev.hpc ch.val (pcOf r.a)).reads = [r] ∧ (t.dev.hpc ch.val (pcOf r.a)).postponed = 0 ∧
    (t.dev.hpc ch.val (pcOf r.a)).rotate = (q.rotate + q.postponed) % 64) := by
  obtain ⟨busy, rows, href⟩ := HPc.refreshes_of_some (n := 0) hpost (s.dev.hbmCycle (dieOfChan ch.val))
  refine ⟨_, exec_hbmSchedule_read hp hq hruns hcal hreads hwrites hfree, ?_⟩
  rw [if_pos ⟨hmiss, hpost⟩]
  refine ⟨(s.dev.setHpc_only _ _ _).keeps, ?_⟩
  rw [Dev.hpc_setHpc, hq, href]
  exact ⟨hreads, rfl, rfl⟩

end

/-- Settles O31, command by command: where a read-modify-write merges bytes, and a write puts them, they are the burst's (`Mems.BurstPut`). -/
theorem hbmRequestsBurstsAndRmw : Obligations.HbmRequestsBurstsAndRmw := by
  intro s ch a q y hq hruns hwf hy
  subst hy
  refine ⟨fun data port slack hroom => ?read, fun data port slack hroom => ?write, fun pc r hp hcal hreads hwrites hpr hfree => ?schedule,
    fun r hcal hfind => ⟨?clean, fun k => ?corrected, fun e he => ?uncorrectable⟩, fun mask data hcal => ?rmw⟩
  case read =>
    refine ⟨_, exec_hbmRequestAccept_read hq hruns data port slack hroom, (s.dev.setHpc_only _ _ _).keeps, ?_⟩
    rw [Dev.hpc_setHpc, hq, State.request]
  case write =>
    refine (hbmRequestAccept_write hq hruns data port slack hroom).imp (fun t ⟨hkeeps, hpc, hput⟩ => ⟨hkeeps, hpc, fun i hi => ?_, hput.frame, hput.poison⟩)
    rw [hput.byte hwf i hi, ofNat_toNat_div_eq]
  case schedule =>
    rw [← hpr] at hp hq ⊢
    exact ⟨hbmSchedule_sends hp hq hruns hcal hreads hwrites hfree, hbmSchedule_refreshes hp hq hruns hcal hreads hwrites hfree⟩
  case clean =>
    refine ⟨_, exec_hbmBurstRead hq hruns hcal (by simp) hfind, (s.dev.setHpc_only _ _ _).keeps, ?_⟩
    rw [Dev.hpc_setHpc, Dev.burstFound, hq, BurstErr.poisons, Bool.or_false]
  case corrected =>
    refine ⟨_, exec_hbmBurstRead hq hruns hcal (by simp) hfind, ((s.dev.correctedAt_only _ _).setHpc _ _ _ (by simp)).keeps, ?_, s.dev.counter_correctedAt _ _⟩
    rw [Dev.hpc_setHpc, kfind_kset, BurstErr.poisons, Bool.or_false]
  case uncorrectable =>
    have hfound : s.dev.burstFound ch.val a.toNat e = s.dev.uncorrectedAt ch.val a.toNat (BurstErr.symbol e) ∧ BurstErr.poisons e = true ∧ e ≠ .fourOrMore true := by
      rcases he with rfl | rfl | ⟨v, rfl⟩ <;> exact ⟨rfl, rfl, by simp⟩
    obtain ⟨hdev, hpoisons, hne⟩ := hfound
    refine ⟨_, exec_hbmBurstRead hq hruns hcal hne hfind, ?_⟩
    rw [hdev, hpoisons, Bool.or_true]
    refine ⟨((s.dev.uncorrectedAt_only _ _ _).setHpc _ _ _ (by simp)).keeps, ?_, s.dev.counter_uncorrectedAt _ _ _⟩
    rw [Dev.hpc_setHpc, kfind_kset]
  case rmw =>
    refine (hbmRmw_completes hq hruns hcal rfl mask data).imp (fun t ⟨hkeeps, hput, hcount⟩ => ⟨hkeeps, fun i hi => ?_, hput.frame, hcount⟩)
    rw [hput.byte hwf i hi, extractLsb'_burstMerge _ _ _ hi, extractLsb'_burst _ _ _ _ hi, ofNat_toNat_div_eq]

/-! ### HBM: refresh, calibration, scrub and repair (O32) -/

/-- A count leaves the other rows of its subindex. -/
theorem Dev.counter_count_row {d : Dev} {r t : Nat} (h : r ≠ t) (i n k : Nat) : (d.count i n t k).counter i n r = d.counter i n r :=
  d.counter_count_ne _ _ _ _ _ _ _ (by simp only [ckey]; omega)

section
variable {s : State} {ch : ChanId} {pc : Bool} {p : Nat} {q : HPc} (hp : p = if pc then 1 else 0) (hq : s.dev.hpc ch.val p = q)
  (hruns : s.dev.runs (dieOfChan ch.val) = true)
include hp hq hruns

/-- A refresh that is due is postponed, or goes to its bank with those postponed before it (R150). -/
theorem exec_hbmRefresh (hdue : 8 * (q.refAt + s.dev.refInterval (stackOfChan ch.val)) ≤ (s.dev.die (dieOfChan ch.val)).root) (hit : Bool) :
    exec (.hbmRefresh ch pc hit) s = .next { s with dev := s.dev.setHpc ch.val p (fun h =>
      if hit = true ∧ h.postponed < 8 then { h with refAt := q.refAt + s.dev.refInterval (stackOfChan ch.val), postponed := h.postponed + 1 }
      else { h with refAt := q.refAt + s.dev.refInterval (stackOfChan ch.val) }.refreshes (s.dev.hbmCycle (dieOfChan ch.val)) 1) } := by
  have hexec : exec (.hbmRefresh ch pc hit) s = execHbmRefresh ch pc hit s := rfl
  rw [hexec, execHbmRefresh, runDev_eq]
  simp only [← hp, hq, hruns, Bool.not_true, Bool.false_eq_true, if_false, Dev.reachRoot_of_le _ _ _ hdue, Bool.and_eq_true, decide_eq_true_eq]

/-- A calibration window of 384 cycles opens where no other is open (R152). -/
theorem exec_hbmCalibration (hdue : 8 * (q.calAt + s.dev.force 0x4000 3 0) ≤ (s.dev.die (dieOfChan ch.val)).root)
    (hclosed : ∀ e ∈ s.dev.hbm.pcs, e.2.calEnd ≤ s.dev.hbmCycle (dieOfChan ch.val)) :
    exec (.hbmCalibration ch pc) s = .next { s with
      dev := s.dev.setHpc ch.val p (fun h => { h with calAt := s.dev.hbmCycle (dieOfChan ch.val), calEnd := s.dev.hbmCycle (dieOfChan ch.val) + 384 }) } := by
  have hexec : exec (.hbmCalibration ch pc) s = execHbmCalibration ch pc s := rfl
  have hnone : s.dev.hbm.pcs.filter (fun e => decide (s.dev.hbmCycle (dieOfChan ch.val) < e.2.calEnd) && stackOfChan (e.1 / 2) == stackOfChan ch.val) = [] :=
    List.filter_eq_nil_iff.2 (fun e he => by simp [Nat.not_lt.2 (hclosed e he)])
  rw [hexec, execHbmCalibration, runDev_eq]
  simp [← hp, hq, hruns, Dev.reachRoot_of_le _ _ _ hdue, hnone]

end

/-- The counts of a die's Vitrines are added, each to its row (R149). -/
theorem ondieCountRead_completes {s : State} {i : DieId} {c0 c1 c2 c3 : Word} (hruns : s.dev.runs i.toNat = true)
    (hdue : 8 * (kget 0 s.dev.hbm.ondieAt i.toNat + 2 ^ 30) ≤ (s.dev.die i.toNat).root) :
    Completes (.ondieCountRead i c0 c1 c2 c3) s (fun t => Keeps [.hbm, .cnt] s t ∧ kget 0 t.dev.hbm.ondieAt i.toNat = s.dev.hbmCycle i.toNat ∧
      ∀ (k : Nat) (n : Word), [c0, c1, c2, c3][k]? = some n → t.dev.counter 0x8014 7 (i.toNat * 4 + k) = (s.dev.counter 0x8014 7 (i.toNat * 4 + k) + n.toNat) % 2 ^ 64) := by
  have hexec : exec (.ondieCountRead i c0 c1 c2 c3) s = execOndieCountRead i c0 c1 c2 c3 s := rfl
  rw [execOndieCountRead, runDev_eq] at hexec
  simp only [hruns, Bool.not_true, Bool.false_eq_true, if_false, Dev.reachRoot_of_le _ _ _ hdue] at hexec
  have honly := (Only.refl [.hbm, .cnt] s.dev).onHbm (fun h => { h with ondieAt := kset h.ondieAt i.toNat (s.dev.hbmCycle i.toNat) }) (by simp)
  refine ⟨_, hexec, (honly.foldl _ _ (fun e w => (Only.refl _ e).count _ _ _ _ (by simp))).keeps, ?at', fun k n hk => ?counts⟩
  case at' =>
    rw [foldl_keeps Dev.hbm _ (fun e w => Dev.count_hbm _ _ _ _ _)]
    exact kget_kset _ _ _ _
  case counts =>
    have hsame : ∀ r, (s.dev.onHbm (fun h => { h with ondieAt := kset h.ondieAt i.toNat (s.dev.hbmCycle i.toNat) })).counter 0x8014 7 r = s.dev.counter 0x8014 7 r := fun _ => rfl
    obtain ⟨hlt, rfl⟩ := List.getElem?_eq_some_iff.1 hk
    match k, hlt with
    | 0, _ | 1, _ | 2, _ | 3, _ =>
      simp (disch := omega) only [List.zipIdx_cons, List.zipIdx_nil, List.foldl_cons, List.foldl_nil, Dev.counter_count, Dev.counter_count_row, hsame]
      rfl

/-! #### Scrub -/

/-- The patrol moves on to the next burst, and a new pass forgets the rows' counts of corrected errors (R155, R158). -/
def Dev.scrubMoved (d : Dev) (c : Nat) : Dev :=
  let e := d.setHchan c (fun h => { h with scrub := ((d.hchan c).scrub + 1) % 2 ^ 25, scrubAt := d.hbmCycle (dieOfChan c) })
  if (d.hchan c).scrub == 0 then (e.setHpc c 0 (fun q => { q with ce := [] })).setHpc c 1 (fun q => { q with ce := [] }) else e

section
variable (d : Dev) (c : Nat)

theorem Dev.scrubMoved_only : Only [.hbm] d (d.scrubMoved c) := by
  have h := (Only.refl [.hbm] d).setHchan c (fun h => { h with scrub := ((d.hchan c).scrub + 1) % 2 ^ 25, scrubAt := d.hbmCycle (dieOfChan c) }) (by simp)
  exact ((h.setHpc _ _ _ (by simp)).setHpc _ _ _ (by simp)).ite h

theorem Dev.hchan_scrubMoved : (d.scrubMoved c).hchan c = { d.hchan c with scrub := ((d.hchan c).scrub + 1) % 2 ^ 25, scrubAt := d.hbmCycle (dieOfChan c) } := by
  rw [Dev.scrubMoved]
  split <;> simp only [Dev.hchan_setHpc, Dev.hchan_setHchan]

theorem Dev.hpc_scrubMoved (p : Nat) : ∃ ce, (d.scrubMoved c).hpc c p = { d.hpc c p with ce := ce } := by
  rw [Dev.scrubMoved]
  split
  · by_cases h1 : p = 1
    · subst h1
      exact ⟨[], by rw [Dev.hpc_setHpc, Dev.hpc_setHpc_ne _ _ _ (by decide), Dev.hpc_setHchan]⟩
    · rw [Dev.hpc_setHpc_ne _ _ _ h1]
      by_cases h0 : p = 0
      · subst h0
        exact ⟨[], by rw [Dev.hpc_setHpc, Dev.hpc_setHchan]⟩
      · exact ⟨_, by rw [Dev.hpc_setHpc_ne _ _ _ h0, Dev.hpc_setHchan]⟩
  · exact ⟨_, rfl⟩

/-- The patrol's move in a view, written as the command makes it. -/
theorem X.scrubMoved_eq (m : Mems) (r : Mram) : (if ((d.hchan c).scrub == 0) = true then
      (X.on { dev := d, mem := m, mram := r } (fun e => e.setHchan c (fun h =>
        { h with scrub := ((d.hchan c).scrub + 1) % 2 ^ 25, scrubAt := e.hbmCycle (dieOfChan c) }))).on
        (fun e => (e.setHpc c 0 (fun q => { q with ce := [] })).setHpc c 1 (fun q => { q with ce := [] }))
    else X.on { dev := d, mem := m, mram := r } (fun e => e.setHchan c (fun h =>
        { h with scrub := ((d.hchan c).scrub + 1) % 2 ^ 25, scrubAt := e.hbmCycle (dieOfChan c) }))) =
    { dev := d.scrubMoved c, mem := m, mram := r } := by
  rw [Dev.scrubMoved]
  split <;> rfl

/-- The row behind an address awaits retirement. -/
theorem Dev.exists_mem_due_dueRow (a : Nat) (unc : Bool) : ∃ r ∈ ((d.dueRow c a unc).hchan c).due,
    r.pc = pcOf a ∧ r.bank = (d.hpc c (pcOf a)).place a / 16384 ∧ r.row = (d.hpc c (pcOf a)).place a % 16384 := by
  rw [Dev.dueRow, Dev.hchan_setHchan]
  dsimp only
  split
  case isTrue hany =>
    obtain ⟨t, ht, hsame⟩ := List.any_eq_true.1 hany
    refine ⟨_, List.mem_map_of_mem ht, ?_⟩
    rw [if_pos hsame]
    simpa [and_assoc] using hsame
  case isFalse => exact ⟨_, List.mem_append_right _ (List.mem_singleton_self _), rfl, rfl, rfl⟩

/-- What an uncorrectable burst of the patrol leaves of the machine, where no tenancy has its window: it is counted and its row awaits retirement (R156). -/
def Dev.scrubLost (a : Nat) : Dev := ((d.scrubMoved c).count 0x8014 6 (vitOfChan c).toNat).dueRow c a false

theorem Dev.scrubLost_only (a : Nat) : Only [.hbm, .cnt] d (d.scrubLost c a) :=
  (((d.scrubMoved_only c).mono (by simp)).count _ _ _ _ (by simp)).dueRow _ _ _ (by simp)

theorem Dev.hchan_scrubLost (a : Nat) : ((d.scrubLost c a).hchan c).scrub = ((d.hchan c).scrub + 1) % 2 ^ 25 := by
  simp only [Dev.scrubLost, Dev.dueRow, Dev.hchan_setHchan, Dev.hchan_count, Dev.hchan_scrubMoved]

theorem Dev.counter_scrubLost (a : Nat) :
    (d.scrubLost c a).counter 0x8014 6 (vitOfChan c).toNat = (d.counter 0x8014 6 (vitOfChan c).toNat + 1) % 2 ^ 64 := by
  have hcnt : (d.scrubMoved c).cnt = d.cnt := (d.scrubMoved_only c).cnt (by simp)
  rw [Dev.scrubLost, Dev.counter_dueRow, Dev.counter_count, Dev.counter, hcnt, Dev.counter]

end

/-- A scrub that is due, with its pseudo-channel's window past, waits for nothing (R152). -/
theorem X.reachRoot_hbmScrub {s : State} {ch a : Nat} {Q : HPc} (hQ : s.dev.hpc ch (pcOf a) = Q)
    (hdue : 8 * max ((s.dev.hchan ch).scrubAt + s.dev.force 0x4000 2 0) Q.calEnd ≤ (s.dev.die (dieOfChan ch)).root) :
    X.on { dev := s.dev, mem := s.mem, mram := s.mram } (fun d =>
      d.reachRoot (dieOfChan ch) (8 * max ((s.dev.hchan ch).scrubAt + d.force 0x4000 2 0) (d.hpc ch (pcOf a)).calEnd)) =
    { dev := s.dev, mem := s.mem, mram := s.mram } :=
  X.on_eq_self _ _ (Dev.reachRoot_of_le _ _ _ (hQ ▸ hdue))

section
variable {s : State} {ch : ChanId} {a : Nat} {Q : HPc} (hruns : s.dev.runs (dieOfChan ch.val) = true) (ha : (s.dev.hchan ch.val).scrub * 64 = a)
  (hQ : s.dev.hpc ch.val (pcOf a) = Q)
  (hdue : 8 * max ((s.dev.hchan ch.val).scrubAt + s.dev.force 0x4000 2 0) Q.calEnd ≤ (s.dev.die (dieOfChan ch.val)).root)
include hruns ha hQ hdue

/-- A burst without an error only moves the patrol on (R155). -/
theorem exec_hbmScrub_clean : exec (.hbmScrub ch .none) s = .next { s with dev := s.dev.scrubMoved ch.val } := by
  have hexec : exec (.hbmScrub ch .none) s = execHbmScrub ch .none s := rfl
  rw [hexec, execHbmScrub, run_eq]
  simp only [hruns, ha, Bool.not_true, Bool.false_eq_true, if_false, X.reachRoot_hbmScrub hQ hdue, X.scrubMoved_eq]
  rfl

/-- An uncorrectable burst in no tenancy's window is counted, put back poisoned, and its row awaits retirement (R156, R158). -/
theorem hbmScrub_uncorrectable (hfree : (s.dev.vit (vitOfChan ch.val)).leader = none) (hwriting : Q.writing a = false) :
    Completes (.hbmScrub ch .twoOrThree) s (fun t => Keeps [.hbm, .mem, .cnt, .rel] s t ∧ t.mem.poison.contains (hbmKey ch.val (Q.home a) / 64) = true ∧
      (t.dev.hchan ch.val).scrub = ((s.dev.hchan ch.val).scrub + 1) % 2 ^ 25 ∧
      (∃ r ∈ (t.dev.hchan ch.val).due, r.pc = pcOf a ∧ r.bank = Q.place a / 16384 ∧ r.row = Q.place a % 16384) ∧
      t.dev.counter 0x8014 6 (vitOfChan ch.val).toNat = (s.dev.counter 0x8014 6 (vitOfChan ch.val).toNat + 1) % 2 ^ 64) := by
  have hexec : exec (.hbmScrub ch .twoOrThree) s = execHbmScrub ch .twoOrThree s := rfl
  obtain ⟨ce, hce⟩ := s.dev.hpc_scrubMoved ch.val (pcOf a)
  have htables : Q.SameTables ((s.dev.scrubMoved ch.val).hpc ch.val (pcOf a)) := by rw [hce, hQ]; exact ⟨rfl, rfl, rfl⟩
  have hidle : ((s.dev.scrubMoved ch.val).hpc ch.val (pcOf a)).writing a = false := by rw [hce, hQ]; exact hwriting
  have hnone : ((s.dev.scrubMoved ch.val).vit (vitOfChan ch.val)).leader = none := by rw [(s.dev.scrubMoved_only ch.val).vit (by simp), hfree]
  obtain ⟨r, hr, hrow⟩ := Dev.exists_mem_due_dueRow ((s.dev.scrubMoved ch.val).count 0x8014 6 (vitOfChan ch.val).toNat) ch.val a false
  rw [Dev.hpc_count, htables.place] at hrow
  have honly := (s.dev.scrubLost_only ch.val a).mono (m := [.hbm, .cnt, .rel]) (by simp)
  refine completes_putBurst (d := s.dev.scrubLost ch.val a) (data := (s.mem.burst ((s.dev.scrubMoved ch.val).hpc ch.val (pcOf a)) ch.val a).1)
    (fun d => d.logErr (burstRec ch.val a 1 0 none)) (hexec.trans rfl)
    (congrArg (hbmKey ch.val · / 64) (htables.home a)) ?effect (fun m hput => ⟨?keeps, hput.poison, ?scrub, ⟨r, ?row, hrow⟩, ?counter⟩)
  case effect =>
    simp only [hruns, ha, Bool.not_true, Bool.false_eq_true, if_false, X.reachRoot_hbmScrub hQ hdue, X.scrubMoved_eq, hidle, hnone, Option.isSome_none, Bool.and_false]
    rfl
  case keeps => exact (((honly.setHpc _ _ _ (by simp)).logErr _ (by simp)).keeps_mem m).mono (by simp)
  case scrub => rw [Dev.hchan_logErr, Dev.hchan_setHpc, Dev.hchan_scrubLost]
  case row => rwa [Dev.hchan_logErr, Dev.hchan_setHpc]
  case counter => rw [Dev.counter_logErr, Dev.counter_setHpc, Dev.counter_scrubLost]

end

/-! #### Repair -/

theorem Only.repaired {l : List Part} {d e : Dev} (ch pc key kind n : Nat) (h : Only l d e) (hl : ∀ p ∈ [Part.hbm, .cat, .rel], p ∈ l) :
    Only l d (e.repaired ch pc key kind n) :=
  ((((h.onHbm _ (hl _ (by simp))).setHchan _ _ (hl _ (by simp))).post _ _ _ _ _ _ (hl _ (by simp))).logErr _ (hl _ (by simp))).changed _ (hl _ (by simp)) (hl _ (by simp))

theorem Dev.hpc_repaired (d : Dev) (ch pc key kind n c p : Nat) : (d.repaired ch pc key kind n).hpc c p = d.hpc c p := by
  have hpcs : (d.repaired ch pc key kind n).hbm.pcs = d.hbm.pcs := by
    simp only [Dev.repaired, Dev.changed_hbm, Dev.logErr_hbm, Dev.post_hbm]; rfl
  rw [Dev.hpc, hpcs, Dev.hpc]

/-- The copying of a row (R159) puts bursts, counts and records: a view it starts from stays one of its command, and of the channel's pseudo-channel `p` only the
deliveries not yet taken change. -/
structure X.Copied (ch p : Nat) (x y : X) : Prop where
  only : Only [.cnt, .fresh, .hbm, .rel] x.dev y.dev
  hpc : ∃ ret, y.dev.hpc ch p = { x.dev.hpc ch p with ret := ret }
  view : ∀ s, x.From s → y.From s

namespace X.Copied
variable {ch p : Nat} {x y z : X}

theorem refl (x : X) : X.Copied ch p x x := ⟨Only.refl _ _, ⟨_, rfl⟩, fun _ h => h⟩

theorem trans (h : X.Copied ch p x y) (k : X.Copied ch p y z) : X.Copied ch p x z := by
  obtain ⟨ret, hy⟩ := h.hpc
  obtain ⟨ret', hz⟩ := k.hpc
  exact ⟨h.only.trans k.only, ⟨ret', by rw [hz, hy]⟩, fun s hs => k.view s (h.view s hs)⟩

/-- A change of the machine that leaves the HBM. -/
theorem dev {d : Dev} (h : Only [.cnt, .fresh, .rel] x.dev d) : X.Copied ch p x { x with dev := d } :=
  ⟨h.mono (by simp), ⟨_, by rw [Dev.hpc, h.hbm (by simp)]; rfl⟩, fun _ hs => hs.on (fun _ => d)⟩

theorem putBurst (x : X) (a : Nat) (data : BitVec 512) (poison : Bool) : X.Copied ch p x (x.putBurst ch a data poison) := by
  refine ⟨?_, ?_, fun _ hs => hs.putBurst ch a data poison⟩ <;> rw [X.dev_putBurst]
  · exact (Only.refl _ _).setHpc _ _ _ (by simp)
  · by_cases hp : p = pcOf a
    · subst hp; exact ⟨_, Dev.hpc_setHpc _ _ _ _⟩
    · exact ⟨_, Dev.hpc_setHpc_ne _ _ _ hp _⟩

theorem copyBurst (x : X) (key col : Nat) (err : BurstErr) : X.Copied ch p x (x.copyBurst ch p key col err) := by
  have hlost (n : Nat) : X.Copied ch p x (x.on (fun d => (d.count 0x8014 6 (vitOfChan ch).toNat).logErr (burstRec ch (rowAddr p ((x.dev.hpc ch p).back 1024 key) col) 1 n
      (some (vitOfChan ch))))) := dev (((Only.refl _ x.dev).count _ _ _ _ (by simp)).logErr _ (by simp))
  cases err with
  | none => exact refl x
  | oneSymbol k => exact dev ((x.dev.count_only _ _ _ _).mono (by simp))
  | twoOrThree => exact (hlost _).trans (putBurst _ _ _ _)
  | wrongAddress v => exact (hlost _).trans (putBurst _ _ _ _)
  | fourOrMore undetected => cases undetected with
    | false => exact (hlost _).trans (putBurst _ _ _ _)
    | true => exact (dev (((Only.refl _ x.dev).with_fresh _ (by simp)).count _ _ _ _ (by simp))).trans (putBurst _ _ _ _)

theorem foldl (key : Nat) (found : List (BitVec 4 × BurstErr)) (x : X) :
    X.Copied ch p x (found.foldl (fun (y : X) e => y.copyBurst ch p key e.1.toNat e.2) x) := by
  induction found generalizing x with
  | nil => exact refl x
  | cons e found ih => exact (copyBurst x _ _ _).trans (ih _)

end X.Copied

section
variable {s : State} {ch : ChanId} {pc : Bool} {p : Nat} {q : HPc} {h : HChan} {bank : BankId} {row : BitVec 14} (hp : p = if pc then 1 else 0)
  (hq : s.dev.hpc ch.val p = q) (hh : s.dev.hchan ch.val = h) (hruns : s.dev.runs (dieOfChan ch.val) = true)
include hp hq hh hruns

section
variable {r : HRow} (hfind : h.due.find? (fun r => r.pc == p && r.bank == bankNum bank && r.row == row.toNat) = some r)
  (hmay : s.dev.mayRepair ch.val r.unc = true)
include hfind hmay

/-- A row that awaits retirement goes to an unused spare of its bank (R159). -/
theorem rowRetire_completes {n : Nat} (hspare : q.spare (bankNum bank) = some n) (found : List (BitVec 4 × BurstErr)) :
    Completes (.rowRetire ch pc bank ⟨row, found⟩) s (fun t => Keeps [.mem, .cnt, .fresh, .hbm, .cat, .rel] s t ∧
      (t.dev.hpc ch.val p).remap = kset q.remap (bankNum bank * 16384 + row.toNat) n ∧ (t.dev.hpc ch.val p).spares = kupd 0 q.spares (bankNum bank) (· + 1) ∧
      (found = [] → Keeps [.hbm, .cat, .rel] s t)) := by
  have hexec : exec (.rowRetire ch pc bank ⟨row, found⟩) s = execRowRetire ch pc bank ⟨row, found⟩ s := rfl
  have hcopied := X.Copied.foldl (ch := ch.val) (p := p) (bankNum bank * 16384 + row.toNat) found { dev := s.dev, mem := s.mem, mram := s.mram }
  obtain ⟨ret, hret⟩ := hcopied.hpc
  refine completes_view (hexec.trans rfl) ?effect ((hcopied.view s (X.From.start s s.dev)).on (fun d => (d.setHpc ch.val p (fun q =>
    { q with spares := kupd 0 q.spares (bankNum bank) (· + 1), remap := kset q.remap (bankNum bank * 16384 + row.toNat) n, ce := kdel q.ce (bankNum bank * 16384 + row.toNat),
             fixed := q.fixed.filter (fun b => q.place (b * 64) != bankNum bank * 16384 + row.toNat) })).repaired ch.val p (bankNum bank * 16384 + row.toNat) 1 0))
    (fun e m he hm => ?_)
  case effect => simp only [← hp, hq, hh, hfind, hspare, hruns, hmay, Bool.not_true, Bool.or_self, Bool.false_eq_true, if_false]
  rw [X.on_dev] at he
  rw [X.on_mem] at hm
  have hhpc := congrArg (fun d : Dev => d.hpc ch.val p) he
  simp only [Dev.hpc_repaired, Dev.hpc_setHpc, hret, hq] at hhpc
  refine ⟨?keeps, congrArg HPc.remap hhpc, congrArg HPc.spares hhpc, fun hnil => ?bare⟩
  case keeps =>
    subst he
    exact ((((hcopied.only.mono (m := [.cnt, .fresh, .hbm, .cat, .rel]) (by simp)).setHpc _ _ _ (by simp)).repaired _ _ _ _ _ (by simp)).keeps_mem m).mono (by simp)
  case bare =>
    subst hnil he hm
    exact (((Only.refl _ s.dev).setHpc _ _ _ (by simp)).repaired _ _ _ _ _ (by simp)).keeps

/-- A row of a bank without spares goes to the pool of another (R160). -/
theorem exec_rowOffline_pooled {n : Nat} (hspare : q.spare (bankNum bank) = none) (hroom : q.pool.length < 256) (hpool : q.poolFor (bankNum bank) = some n) :
    exec (.rowOffline ch pc bank row false) s = .next { s with
      dev := (s.dev.setHpc ch.val p (fun h => { h with
        pool := kset h.pool (bankNum bank * 16384 + row.toNat) n, ce := kdel h.ce (bankNum bank * 16384 + row.toNat),
        fixed := h.fixed.filter (fun f => h.place (f * 64) != bankNum bank * 16384 + row.toNat) })).repaired ch.val p (bankNum bank * 16384 + row.toNat) 2 0 } := by
  have hexec : exec (.rowOffline ch pc bank row false) s = execRowOffline ch pc bank row false s := rfl
  rw [hexec, execRowOffline, runDev_eq]
  simp only [← hp, hq, hh, hruns, Bool.not_true, Bool.false_or, Bool.false_eq_true, if_false, hfind, hmay, hspare, Option.isSome_none, Nat.not_le.2 hroom, hpool]

/-- With 256 rows offlined the Vitrine is given up (R160). -/
theorem exec_rowOffline_full (hspare : q.spare (bankNum bank) = none) (hfull : 256 ≤ q.pool.length) :
    exec (.rowOffline ch pc bank row false) s = .next { s with
      dev := s.dev.onHbm (fun h => { h with giveUp := putBit h.giveUp (vitOfChan ch.val).toNat true }) } := by
  have hexec : exec (.rowOffline ch pc bank row false) s = execRowOffline ch pc bank row false s := rfl
  rw [hexec, execRowOffline, runDev_eq]
  simp only [← hp, hq, hh, hruns, Bool.not_true, Bool.false_or, Bool.false_eq_true, if_false, hfind, hmay, hspare, Option.isSome_none, if_pos hfull]

end

/-- A bank with 64 rows gone is redirected, and where two are already the Vitrine is given up (R160). -/
theorem exec_rowOffline_whole (hnone : h.due = []) (hgone : 64 ≤ q.gone (bankNum bank)) (hfresh : kfind q.redirected (bankNum bank) = none)
    (hmay : s.dev.mayRepair ch.val true = true) : exec (.rowOffline ch pc bank row true) s = .next { s with
      dev := if 2 ≤ q.redirected.length then s.dev.onHbm (fun h => { h with giveUp := putBit h.giveUp (vitOfChan ch.val).toNat true })
        else (s.dev.setHpc ch.val p (fun h => h.redirect (bankNum bank))).repaired ch.val p (bankNum bank * 16384 + row.toNat) 3 (q.redirAdds (bankNum bank)) } := by
  have hexec : exec (.rowOffline ch pc bank row true) s = execRowOffline ch pc bank row true s := rfl
  rw [hexec, execRowOffline, runDev_eq]
  simp [← hp, hq, hh, hruns, hnone, hgone, hfresh, hmay]

end

/-- Settles O32, command by command; what the copying of a row may change is `X.Copied`. -/
theorem hbmUpkeepAndRepairs : Obligations.HbmUpkeepAndRepairs := by
  intro s ch pc p q h hp hq hh hruns
  refine ⟨fun hdue => ⟨fun hroom => ?postponed, fun hit hgo => ?refreshed, fun hnone => ?single⟩, fun hdue hclosed => ?calibrated,
    fun i c0 c1 c2 c3 hdie hdue => ondieCountRead_completes hdie hdue, fun a Q ha hQ hdue => ⟨?clean, fun hfree hidle => ?lost⟩,
    fun bank row r k n hk hfind hmay => ⟨fun found hspare => ?retired, fun hspare hroom hpool => ?offlined, fun hspare hfull => ?full⟩,
    fun bank row hnone hgone hfresh hmay => ⟨fun hroom => ?redirected, fun hfull => ?twice⟩⟩
  case postponed =>
    refine ⟨_, exec_hbmRefresh hp hq hruns hdue true, (s.dev.setHpc_only _ _ _).keeps, ?_⟩
    rw [Dev.hpc_setHpc, hq, if_pos ⟨rfl, hroom⟩]
  case refreshed =>
    have hnot : ¬(hit = true ∧ q.postponed < 8) := fun ⟨hhit, hlt⟩ => hgo.elim (fun hmiss => by simp [hmiss] at hhit) (fun hge => by omega)
    obtain ⟨busy, rows, href⟩ := HPc.refreshes_of_some (q := { q with refAt := q.refAt + s.dev.refInterval (stackOfChan ch.val) }) (n := 1) (Nat.succ_pos _)
      (s.dev.hbmCycle (dieOfChan ch.val))
    refine ⟨_, exec_hbmRefresh hp hq hruns hdue hit, (s.dev.setHpc_only _ _ _).keeps, ?_⟩
    rw [Dev.hpc_setHpc, hq, if_neg hnot, href]
    exact ⟨rfl, rfl, rfl⟩
  case single =>
    refine ⟨_, exec_hbmRefresh hp hq hruns hdue false, (s.dev.setHpc_only _ _ _).keeps, ?_⟩
    rw [Dev.hpc_setHpc, hq, if_neg (by simp), HPc.refreshes]
    simp [hnone]
  case calibrated =>
    refine ⟨_, exec_hbmCalibration hp hq hruns hdue hclosed, (s.dev.setHpc_only _ _ _).keeps, ?_⟩
    rw [Dev.hpc_setHpc, hq]
  case clean =>
    subst hh
    exact ⟨_, exec_hbmScrub_clean hruns ha hQ hdue, (s.dev.scrubMoved_only ch.val).keeps, s.dev.hchan_scrubMoved ch.val⟩
  case lost =>
    subst hh
    exact hbmScrub_uncorrectable hruns ha hQ hdue hfree hidle
  case retired =>
    subst hk
    exact rowRetire_completes hp hq hh hruns hfind hmay hspare found
  case offlined =>
    subst hk
    refine ⟨_, exec_rowOffline_pooled hp hq hh hruns hfind hmay hspare hroom hpool, (((Only.refl _ s.dev).setHpc _ _ _ (by simp)).repaired _ _ _ _ _ (by simp)).keeps, ?_⟩
    rw [Dev.hpc_repaired, Dev.hpc_setHpc, hq]
  case full => exact ⟨_, exec_rowOffline_full hp hq hh hruns hfind hmay hspare hfull, ((Only.refl _ s.dev).onHbm _ (by simp)).keeps, rfl⟩
  case redirected =>
    refine ⟨_, exec_rowOffline_whole hp hq hh hruns hnone hgone hfresh hmay, ?_⟩
    rw [if_neg (Nat.not_le.2 hroom)]
    refine ⟨(((Only.refl _ s.dev).setHpc _ _ _ (by simp)).repaired _ _ _ _ _ (by simp)).keeps, ?_⟩
    rw [Dev.hpc_repaired, Dev.hpc_setHpc, hq]
  case twice =>
    refine ⟨_, exec_rowOffline_whole hp hq hh hruns hnone hgone hfresh hmay, ?_⟩
    rw [if_pos hfull]
    exact ⟨((Only.refl _ s.dev).onHbm _ (by simp)).keeps, rfl⟩

end Sys2Proof.Machine

namespace Sys2Proof.Machine
/-! ### The directory entry of one line -/

/-! #### What a message leaves -/

theorem Only.with_traffic {l : List Part} {d e : Dev} (m : List Msg) (n : Mesh) (h : Only l d e) (h0 : Part.msgs ∈ l) (h1 : Part.mesh ∈ l) :
    Only l d { e with msgs := m, mesh := n } :=
  (h.with_msgs m h0).trans ((Only.refl _ _).with_mesh n h1)
theorem Only.send {l : List Part} {d e : Dev} (m : Msg) (h : Only l d e) (h0 : Part.msgs ∈ l) (h1 : Part.mesh ∈ l) : Only l d (e.send m) :=
  h.with_traffic _ _ h0 h1
theorem Only.take {l : List Part} {d e : Dev} (k : MsgKind) (n : Nat) (c : Option CoreId) (h : Only l d e) (h0 : Part.msgs ∈ l) (h1 : Part.mesh ∈ l) :
    Only l d (e.take k n c) := by
  unfold Dev.take
  split
  · exact h.with_traffic _ _ h0 h1
  · exact h

@[simp] theorem Dev.gal_send (d : Dev) (m : Msg) : (d.send m).gal = d.gal := rfl
@[simp] theorem Dev.gal_toCore (d : Dev) (k : MsgKind) (l : Nat) (c : CoreId) (a : Line) (p : BitVec 2) : (d.toCore k l c a p).gal = d.gal := rfl
@[simp] theorem Dev.gal_toPort (d : Dev) (p : MPort) (l : Nat) (a : Line) (b : BitVec 2) (v : Option Meta) : (d.toPort p l a b v).gal = d.gal := rfl
@[simp] theorem Dev.gal_take (d : Dev) (k : MsgKind) (l : Nat) (c : Option CoreId) : (d.take k l c).gal = d.gal := by
  unfold Dev.take
  split <;> rfl
@[simp] theorem Dev.msgs_setGline (d : Dev) (l : Nat) (g : GLine) : (d.setGline l g).msgs = d.msgs := rfl

/-- A message sent joins those in flight, with its number and its priority. -/
theorem Dev.send_msgs (d : Dev) (m : Msg) : ∃ n h, (d.send m).msgs = d.msgs ++ [{ m with seq := n, high := h }] := ⟨_, _, rfl⟩

@[simp] theorem Dev.gline_send (d : Dev) (m : Msg) (l : Nat) : (d.send m).gline l = d.gline l := rfl
@[simp] theorem Dev.gline_toCore (d : Dev) (k : MsgKind) (l n : Nat) (c : CoreId) (a : Line) (p : BitVec 2) : (d.toCore k l c a p).gline n = d.gline n := rfl
@[simp] theorem Dev.gline_toPort (d : Dev) (p : MPort) (l n : Nat) (a : Line) (b : BitVec 2) (v : Option Meta) : (d.toPort p l a b v).gline n = d.gline n := rfl
@[simp] theorem Dev.gline_take (d : Dev) (k : MsgKind) (l n : Nat) (c : Option CoreId) : (d.take k l c).gline n = d.gline n :=
  Dev.gline_of_gal _ _ _ (Dev.gal_take d k l c)
@[simp] theorem Dev.gline_count (d : Dev) (i n r k l : Nat) : (d.count i n r k).gline l = d.gline l := rfl

/-! #### The frame of a line -/

/-- Between two machines only one line's entry, the messages, the counters and the marks of lookups and streams have changed. -/
structure Dev.AtLine (l : Nat) (d e : Dev) : Prop where
  only : Only [.gal, .cnt, .vits, .msgs, .mesh] d e
  others : ∀ m, m ≠ l → e.gline m = d.gline m

namespace Dev.AtLine
variable {l : Nat} {d e f : Dev}

theorem refl (l : Nat) (d : Dev) : Dev.AtLine l d d := ⟨Only.refl _ d, fun _ _ => rfl⟩

theorem trans (h : Dev.AtLine l d e) (k : Dev.AtLine l e f) : Dev.AtLine l d f :=
  ⟨h.only.trans k.only, fun m hm => (k.others m hm).trans (h.others m hm)⟩

theorem setGline (h : Dev.AtLine l d e) (g : GLine) : Dev.AtLine l d (e.setGline l g) :=
  ⟨h.only.setSlice _ _ (by simp), fun m hm => (Dev.gline_setGline_ne e l m g hm).trans (h.others m hm)⟩

theorem send (h : Dev.AtLine l d e) (m : Msg) : Dev.AtLine l d (e.send m) := ⟨h.only.send m (by simp) (by simp), h.others⟩
theorem toCore (h : Dev.AtLine l d e) (k : MsgKind) (n : Nat) (c : CoreId) (a : Line) (p : BitVec 2) : Dev.AtLine l d (e.toCore k n c a p) := h.send _
theorem toPort (h : Dev.AtLine l d e) (p : MPort) (n : Nat) (a : Line) (b : BitVec 2) (v : Option Meta) : Dev.AtLine l d (e.toPort p n a b v) := h.send _
theorem count (h : Dev.AtLine l d e) (i n r k : Nat) : Dev.AtLine l d (e.count i n r k) := ⟨h.only.count _ _ _ _ (by simp), h.others⟩

theorem take (h : Dev.AtLine l d e) (k : MsgKind) (n : Nat) (c : Option CoreId) : Dev.AtLine l d (e.take k n c) :=
  ⟨h.only.take k n c (by simp) (by simp), fun m hm => (Dev.gline_take e k n m c).trans (h.others m hm)⟩

theorem onlyLine {s : State} (h : Dev.AtLine l s.dev e) : OnlyLine l s { s with dev := e } := ⟨h.only.keeps, h.others⟩

end Dev.AtLine

/-- A message taken and one sent about a line have been exchanged. -/
theorem exchanged_of_send {k : MsgKind} {l : Nat} {c : Option CoreId} {s : State} {d : Dev} (m : Msg) (h : d.msgs = (s.dev.take k l c).msgs) (hl : m.line = l) :
    Exchanged k l c m.kind m.core m.data m.poison s { s with dev := d.send m } := by
  obtain ⟨n, high, hsend⟩ := d.send_msgs m
  exact ⟨{ m with seq := n, high := high }, by rw [← h]; exact hsend, rfl, hl, rfl, rfl, rfl⟩

/-! #### Commands about a window address -/

theorem vitOfAddr_line {a l : Nat} (ha : a < 2 ^ 41) (hl : l = a / 128) : vitOfAddr (l * 128) = vitOfAddr a := by
  have hdiv : l * 128 / 2 ^ 36 = a / 2 ^ 36 := by omega
  simp only [vitOfAddr, if_pos ha, if_pos (show l * 128 < 2 ^ 41 by omega), hdiv]

/-- The view a command on `s` begins with. -/
def State.view (s : State) : X := { dev := s.dev, mem := s.mem, mram := s.mram }

@[simp] theorem State.view_dev (s : State) : s.view.dev = s.dev := rfl
@[simp] theorem State.view_mem (s : State) : s.view.mem = s.mem := rfl

section AtHome
variable {s : State} {a : Addr} {l : Nat} {i : Instr} {P : State → Prop} {y : X} (hl : l = a.toNat / 128) (hhome : s.dev.AtHome a)
include hl hhome

theorem Dev.AtHome.not_fenced : s.dev.isFenced (dieOfVit (vitOfAddr (l * 128))) = false := by
  obtain ⟨ha, -, hfence⟩ := hhome
  rwa [vitOfAddr_line ha hl]

/-- A command about a line acts at its home, which stands ready. -/
theorem onHome_eq (f : Nat → X → X) : onHome s a f = run s (f l) := by
  obtain ⟨ha, hruns, -⟩ := hhome
  have hguard : (decide (a.toNat < 2 ^ 41) && (s.dev.runs (dieOfVit (vitOfAddr a.toNat)) || s.dev.isFenced (dieOfVit (vitOfAddr a.toNat)))) = true := by
    rw [hruns, Bool.true_or, Bool.and_true]
    exact decide_eq_true ha
  simp only [onHome, run, hguard, if_true, hl]

/-- A message of a core acts at its home, which takes it. -/
theorem fromCore_eq {k : MsgKind} {c : CoreId} {data w : Line} {p : BitVec 2} {f : Nat → Line → BitVec 2 → X → X} (harr : s.dev.arrives k l (some c) = true)
    (hdata : ((s.dev.flying k l (some c)).map (fun n => (n.data, n.poison))).getD (data, 0) = (w, p)) :
    fromCore s k a c data f = run s (fun x => f l w p (x.on (fun _ => s.dev.take k l (some c)))) := by
  rw [fromCore, onHome_eq hl hhome]
  simp only [run, X.on, harr, hdata, Bool.not_true, Bool.false_eq_true, if_false]

omit hl hhome in
/-- A command whose effect lists no change of memory completes with its machine. -/
theorem completes_quiet {f : X → X} (h : exec i s = run s f) (hf : f s.view = y) (hops : y.ops = []) (hmops : y.mops = [])
    (hp : P { s with dev := y.dev }) : Completes i s P :=
  completes_run y h hf (by rw [hops, hmops]; exact hp)

/-- A command about a line that lists no change of memory completes with its machine. -/
theorem completes_onHome {f : Nat → X → X} (h : exec i s = onHome s a f) (hf : f l s.view = y) (hops : y.ops = []) (hmops : y.mops = [])
    (hp : P { s with dev := y.dev }) : Completes i s P :=
  completes_quiet (h.trans (onHome_eq hl hhome f)) hf hops hmops hp

/-- A message of a core that changes the machine alone completes with it. -/
theorem completes_fromCore {k : MsgKind} {c : CoreId} {data w : Line} {p : BitVec 2} {f : Nat → Line → BitVec 2 → X → X} (F : Dev → Dev)
    (h : exec i s = fromCore s k a c data f) (harr : s.dev.arrives k l (some c) = true)
    (hdata : ((s.dev.flying k l (some c)).map (fun n => (n.data, n.poison))).getD (data, 0) = (w, p))
    (hf : f l w p (s.view.on (fun d => d.take k l (some c))) = (s.view.on (fun d => d.take k l (some c))).on F)
    (hp : P { s with dev := F (s.dev.take k l (some c)) }) : Completes i s P :=
  completes_quiet (h.trans (fromCore_eq hl hhome harr hdata)) hf rfl rfl hp

end AtHome

/-! ### The answers of cores and host (R186) -/

section Answers
variable {s : State} {a : Addr} {l : Nat} {g : GLine} {c : CoreId}

/-- A line that waits for a GETM alone gives its core the line when its last answer has come. -/
theorem X.resolve_getM {x : X} {e : CoreId} (st : DirSt) (sh : Sharers) (hg : x.dev.gline l = some g) (hcur : g.cur = some { kind := .getM, port := .core e })
    (hqueue : g.queue = []) :
    ∃ d h, x.resolve l st sh = { x with dev := d } ∧ Dev.AtLine l x.dev d ∧ d.gline l = some h ∧ h.st = .ol ∧ h.owner = some e ∧ h.data = g.data ∧
      h.dirty = g.dirty ∧ h.cur = none := by
  have hmid : ∃ m : GLine, (if g.st == .sInv then { g with cur := none, acks := 0, bi := false, queue := [] }
        else { g with st := st, sh := sh, owner := none, cur := none, acks := 0, bi := false, wr := 0, queue := [] }) = m ∧
      m.data = g.data ∧ m.dirty = g.dirty ∧ m.cur = none := by
    split <;> exact ⟨_, rfl, rfl, rfl, rfl⟩
  obtain ⟨m, hm, hdata, hdirty, hmcur⟩ := hmid
  simp only [X.resolve, hg, hcur, hm, hqueue, X.requeue, List.foldl_nil, X.act, X.on_dev, Dev.gline_setGline]
  refine ⟨_, { m with st := .ol, sh := {}, owner := some e }, rfl, ?_, ?_, rfl, rfl, hdata, hdirty, hmcur⟩
  · simp only [X.on_dev, Dev.updGline, Dev.gline_toCore, Dev.gline_setGline]
    exact ((((Dev.AtLine.refl l x.dev).setGline _).setGline _).toCore _ _ _ _ _).setGline _
  · simp only [X.on_dev, Dev.updGline, Dev.gline_toCore, Dev.gline_setGline]
    rfl

end Answers

section Answers
variable {s : State} {a : Addr} {l : Nat} {g : GLine} {c : CoreId} (hl : l = a.toNat / 128) (hhome : s.dev.AtHome a) (hg : s.dev.gline l = some g)
include hl hhome hg

/-- A PUTE of a line's owner releases the line. -/
theorem pute_completes (hst : g.st = .ol) (howner : g.owner = some c) (harr : s.dev.arrives .putE l (some c) = true) :
    Completes (.pute a c) s (fun t => OnlyLine l s t ∧ Exchanged .putE l (some c) .putAck (some c) 0 0 s t ∧
      t.dev.gline l = some { g with st := .i, owner := none, sh := {} }) := by
  obtain ⟨⟨w, p⟩, hdata⟩ : ∃ e, ((s.dev.flying .putE l (some c)).map (fun n => (n.data, n.poison))).getD (0, 0) = e := ⟨_, rfl⟩
  refine completes_fromCore hl hhome (fun d => (d.setGline l { g with st := .i, owner := none, sh := {} }).toCore .putAck l c)
    (show exec (.pute a c) s = execPute a c s from rfl) harr hdata ?_ ?_
  · simp only [X.on_dev, State.view_dev, Dev.gline_take, hg, hst, howner, beq_self_eq_true, Bool.and_self, if_true]
  · exact ⟨((((Dev.AtLine.refl l s.dev).take _ _ _).setGline _).toCore _ _ _ _ _).onlyLine,
      exchanged_of_send { kind := .putAck, line := l, core := some c, data := 0, poison := 0 } rfl rfl, Dev.gline_setGline _ _ _⟩

/-- A PUTM of a line's owner releases the line with its data. -/
theorem putm_completes {data w : Line} {p : BitVec 2} (hst : g.st = .ol) (howner : g.owner = some c)
    (hdata : ((s.dev.flying .putM l (some c)).map (fun n => (n.data, n.poison))).getD (data, 0) = (w, p)) (harr : s.dev.arrives .putM l (some c) = true) :
    Completes (.putm a c data) s (fun t => OnlyLine l s t ∧ Exchanged .putM l (some c) .putAck (some c) 0 0 s t ∧
      t.dev.gline l = some { g with st := .i, owner := none, sh := {}, data := w, poison := p, dirty := true }) := by
  refine completes_fromCore hl hhome (fun d => (d.setGline l { g with st := .i, owner := none, sh := {}, data := w, poison := p, dirty := true }).toCore .putAck l c)
    (show exec (.putm a c data) s = execPutm a c data s from rfl) harr hdata ?_ ?_
  · simp only [X.on_dev, State.view_dev, Dev.gline_take, hg, hst, howner, beq_self_eq_true, Bool.and_self, if_true]
  · exact ⟨((((Dev.AtLine.refl l s.dev).take _ _ _).setGline _).toCore _ _ _ _ _).onlyLine,
      exchanged_of_send { kind := .putAck, line := l, core := some c, data := 0, poison := 0 } rfl rfl, Dev.gline_setGline _ _ _⟩

/-- An InvAck that is not the last one awaited is counted. -/
theorem invack_counted (hst : g.st = .sInv) (hacks : 1 < g.acks) (harr : s.dev.arrives .invAck l (some c) = true) :
    Completes (.invack a c) s (fun t => OnlyLine l s t ∧ t.dev.gline l = some { g with acks := g.acks - 1 }) := by
  obtain ⟨⟨w, p⟩, hdata⟩ : ∃ e, ((s.dev.flying .invAck l (some c)).map (fun n => (n.data, n.poison))).getD (0, 0) = e := ⟨_, rfl⟩
  have hlast : (g.acks == 1) = false := beq_false_of_ne (by omega)
  refine completes_fromCore hl hhome (fun d => d.setGline l { g with acks := g.acks - 1 })
    (show exec (.invack a c) s = execInvack a c s from rfl) harr hdata ?_ ?_
  · simp only [X.on_dev, State.view_dev, Dev.gline_take, hg, hst, beq_self_eq_true, Bool.true_and, show (0 < g.acks) from by omega, decide_true, if_true, hlast, Bool.false_and,
      Bool.false_eq_true, if_false]
  · exact ⟨(((Dev.AtLine.refl l s.dev).take _ _ _).setGline _).onlyLine, Dev.gline_setGline _ _ _⟩

section LastAnswer
variable {e : CoreId} (hcur : g.cur = some { kind := .getM, port := .core e }) (hqueue : g.queue = [])
include hcur hqueue

omit hl hhome hg in
/-- Where a command's effect is the last answer a GETM awaits, its line `m` differing from the entry in what the answer brought, the GETM's core owns the line. -/
theorem completes_resolve {i : Instr} {f : X → X} {x : X} {m : GLine} (st : DirSt) (sh : Sharers) (hexec : exec i s = run s f) (hx : Dev.AtLine l s.dev x.dev)
    (hm : x.dev.gline l = some m) (hmcur : m.cur = g.cur) (hmqueue : m.queue = g.queue) (hf : f s.view = x.resolve l st sh) (hops : x.ops = []) (hmops : x.mops = []) :
    Completes i s (fun t => OnlyLine l s t ∧ ∃ h, t.dev.gline l = some h ∧ h.st = .ol ∧ h.owner = some e ∧ h.data = m.data ∧ h.dirty = m.dirty ∧ h.cur = none) := by
  obtain ⟨d, h, hres, hat, hline, hst, howner, hdata, hdirty, hnone⟩ := X.resolve_getM st sh hm (hmcur.trans hcur) (hmqueue.trans hqueue)
  refine completes_quiet hexec (hf.trans hres) hops hmops ⟨(hx.trans hat).onlyLine, h, hline, hst, howner, hdata, hdirty, hnone⟩

omit hl hhome hg in
/-- The same, where the answer brought no data. -/
theorem completes_resolve_kept {i : Instr} {f : X → X} {x : X} {m : GLine} (st : DirSt) (sh : Sharers) (hexec : exec i s = run s f) (hx : Dev.AtLine l s.dev x.dev)
    (hm : x.dev.gline l = some m) (hmcur : m.cur = g.cur) (hmqueue : m.queue = g.queue) (hmdata : m.data = g.data) (hf : f s.view = x.resolve l st sh)
    (hops : x.ops = []) (hmops : x.mops = []) :
    Completes i s (fun t => OnlyLine l s t ∧ ∃ h, t.dev.gline l = some h ∧ h.st = .ol ∧ h.owner = some e ∧ h.data = g.data ∧ h.cur = none) :=
  (completes_resolve hcur hqueue st sh hexec hx hm hmcur hmqueue hf hops hmops).imp
    (fun _ ⟨hline, h, hgl, hst, howner, hdata, _, hnone⟩ => ⟨hline, h, hgl, hst, howner, hdata.trans hmdata, hnone⟩)

/-- The data of a recalled owner ends its recall. -/
theorem rspdata_completes {data w : Line} {p : BitVec 2} (hst : g.st = .oRi)
    (hdata : ((s.dev.flying .rspData l (some c)).map (fun n => (n.data, n.poison))).getD (data, 0) = (w, p)) (harr : s.dev.arrives .rspData l (some c) = true) :
    Completes (.rspdata a c data) s (fun t => OnlyLine l s t ∧
      ∃ h, t.dev.gline l = some h ∧ h.st = .ol ∧ h.owner = some e ∧ h.data = w ∧ h.dirty = true ∧ h.cur = none) := by
  refine completes_resolve (x := s.view.on (fun d => (d.take .rspData l (some c)).setGline l { g with data := w, poison := p, dirty := true }))
    (m := { g with data := w, poison := p, dirty := true })
    hcur hqueue .i {} ((show exec (.rspdata a c data) s = execRspdata a c data s from rfl).trans <| fromCore_eq hl hhome harr hdata) ?_ ?_ rfl rfl ?_ rfl rfl
  · exact ((Dev.AtLine.refl l s.dev).take _ _ _).setGline _
  · exact Dev.gline_setGline _ _ _
  · simp only [X.on_dev, Dev.gline_take, hg, hst, beq_self_eq_true, if_true]
    rfl

/-- A recall answered without data ends too. -/
theorem rspnodata_completes (hst : g.st = .oRi) (harr : s.dev.arrives .rspNoData l (some c) = true) :
    Completes (.rspnodata a c) s (fun t => OnlyLine l s t ∧
      ∃ h, t.dev.gline l = some h ∧ h.st = .ol ∧ h.owner = some e ∧ h.data = g.data ∧ h.cur = none) := by
  obtain ⟨⟨w, p⟩, hdata⟩ : ∃ e, ((s.dev.flying .rspNoData l (some c)).map (fun n => (n.data, n.poison))).getD (0, 0) = e := ⟨_, rfl⟩
  refine completes_resolve_kept (x := s.view.on (fun d => d.take .rspNoData l (some c)))
    hcur hqueue .i {} ((show exec (.rspnodata a c) s = execRspnodata a c s from rfl).trans <| fromCore_eq hl hhome harr hdata) ?_ ?_ rfl rfl rfl ?_ rfl rfl
  · exact (Dev.AtLine.refl l s.dev).take _ _ _
  · exact (Dev.gline_take _ _ _ _ _).trans hg
  · simp only [X.on_dev, Dev.gline_take, hg, hst, beq_self_eq_true, if_true]
    rfl

/-- The last InvAck ends an invalidation. -/
theorem invack_completes (hst : g.st = .sInv) (hacks : g.acks = 1) (hbi : g.bi = false) (harr : s.dev.arrives .invAck l (some c) = true) :
    Completes (.invack a c) s (fun t => OnlyLine l s t ∧
      ∃ h, t.dev.gline l = some h ∧ h.st = .ol ∧ h.owner = some e ∧ h.data = g.data ∧ h.cur = none) := by
  obtain ⟨⟨w, p⟩, hdata⟩ : ∃ e, ((s.dev.flying .invAck l (some c)).map (fun n => (n.data, n.poison))).getD (0, 0) = e := ⟨_, rfl⟩
  refine completes_resolve_kept (x := s.view.on (fun d => (d.take .invAck l (some c)).setGline l { g with acks := 0 }))
    (m := { g with acks := 0 }) hcur hqueue .i g.sh ((show exec (.invack a c) s = execInvack a c s from rfl).trans <| fromCore_eq hl hhome harr hdata) ?_ ?_ rfl rfl rfl ?_ rfl rfl
  · exact ((Dev.AtLine.refl l s.dev).take _ _ _).setGline _
  · exact Dev.gline_setGline _ _ _
  · simp only [X.on_dev, Dev.gline_take, hg, hst, hacks, hbi]
    rfl

/-- The host's answer to a back-invalidate ends it. -/
theorem birsp_completes (hst : g.st = .hBi) :
    Completes (.birsp a false) s (fun t => OnlyLine l s t ∧
      ∃ h, t.dev.gline l = some h ∧ h.st = .ol ∧ h.owner = some e ∧ h.data = g.data ∧ h.cur = none) := by
  refine completes_resolve_kept (x := s.view.on (fun d => (d.take .biSnpData l none).take .biSnpInv l none))
    hcur hqueue .i {} ((show exec (.birsp a false) s = execBirsp a false s from rfl).trans <| onHome_eq hl hhome _) ?_ ?_ rfl rfl rfl ?_ rfl rfl
  · exact ((Dev.AtLine.refl l s.dev).take _ _ _).take _ _ _
  · exact (Dev.gline_take _ _ _ _ _).trans ((Dev.gline_take _ _ _ _ _).trans hg)
  · simp only [State.view_dev, hg, hst, Bool.false_and, Bool.false_eq_true, if_false, beq_self_eq_true, if_true]

end LastAnswer
end Answers

/-- Settles O20: a release of the owner is acknowledged, and the last answer awaited resolves the GETM that waited. -/
theorem answersAtTheHome : Obligations.AnswersAtTheHome := by
  intro s a l g c hl hhome hg
  refine ⟨fun hst howner => ⟨fun harr => ?pute, fun data w p hdata harr => ?putm⟩,
    fun e hcur hqueue => ⟨fun hst => ⟨fun data w p hdata harr => ?rspdata, fun harr => ?rspnodata⟩, fun hst hacks hbi harr => ?invack, fun hst => ?birsp⟩,
    fun hst hacks harr => ?counted⟩
  case pute => exact pute_completes hl hhome hg hst howner harr
  case putm => exact putm_completes hl hhome hg hst howner hdata harr
  case rspdata => exact rspdata_completes hl hhome hg hcur hqueue hst hdata harr
  case rspnodata => exact rspnodata_completes hl hhome hg hcur hqueue hst harr
  case invack => exact invack_completes hl hhome hg hcur hqueue hst hacks hbi harr
  case birsp => exact birsp_completes hl hhome hg hcur hqueue hst
  case counted => exact invack_counted hl hhome hg hst hacks harr

/-! ### Requests at the home of a present line (R186) -/

theorem kfind_kdel_ne {α : Type} (m : KMap α) (k j : Nat) (h : j ≠ k) : kfind (kdel m k) j = kfind m j := by
  induction m with
  | nil => rfl
  | cons e m ih =>
    obtain ⟨i, w⟩ := e
    by_cases hk : i = k
    · rw [kdel, if_pos hk, ih, kfind, if_neg (fun e : i = j => h (e.symm.trans hk))]
    · rw [kdel, if_neg hk, kfind, kfind, ih]

@[simp] theorem Dev.gline_delGline (d : Dev) (l : Nat) : (d.delGline l).gline l = none := by
  simp only [Dev.gline, Dev.delGline, Dev.slice_setSlice, kfind_kdel]

theorem Dev.gline_delGline_ne (d : Dev) (l m : Nat) (h : m ≠ l) : (d.delGline l).gline m = d.gline m := by
  simp only [Dev.gline, Dev.delGline]
  by_cases e : sliceOf m = sliceOf l
  · rw [e, Dev.slice_setSlice, kfind_kdel_ne _ _ _ h]
  · rw [Dev.slice_setSlice_ne _ _ _ _ e]

/-! #### A line written back -/

theorem Dev.bursts_only (d : Dev) (l rd wr rmw : Nat) : Only [.hbm, .cnt] d (d.bursts l rd wr rmw) := by
  have hadd : ∀ (e : Dev) (v sub n : Nat), Only [.hbm, .cnt] e (if n == 0 then e else e.count 0x8014 sub v n) := fun e v sub n =>
    (Only.refl _ e).ite ((Only.refl _ e).count _ _ _ _ (by simp))
  exact (((d.activate_only _ _).trans (hadd _ _ _ _)).trans (hadd _ _ _ _)).trans (hadd _ _ _ _)

theorem Dev.dropRet_only (d : Dev) (l : Nat) (hs : List Nat) : Only [.hbm] d (d.dropRet l hs) := by
  rw [Dev.dropRet]
  exact ((Only.refl _ d).setHpc _ _ _ (by simp)).ite (Only.refl _ d)

section WriteBack
variable (x : X) (l : Nat) (data : Line) (p : BitVec 2)

theorem X.wbLine_eq : x.wbLine l data p = ((((x.on (fun d => (d.bursts l 0 2 0).dropRet l [0, 1])).putBytes .hbm (l * 128) (lineBytes data)).op
    (.mark false (l * 2) (p.getLsbD 0))).op (.mark false (l * 2 + 1) (p.getLsbD 1))) := by
  rw [X.wbLine]

theorem X.wbLine_only : Only [.hbm, .cnt] x.dev (x.wbLine l data p).dev := by
  rw [X.wbLine_eq, X.op_dev, X.op_dev, X.dev_putBytes, X.on_dev]
  exact (x.dev.bursts_only _ _ _ _).trans ((Dev.dropRet_only _ _ _).mono (by simp))

theorem X.From.wbLine {s : State} {x : X} (h : x.From s) : (x.wbLine l data p).From s := by
  rw [X.wbLine_eq]
  exact (((h.on _).putBytes _ _ _).op _).op _

/-- A line written back reads as its data. -/
theorem X.byte_wbLine (h : Memory.wf x.mem = true) {i : Nat} (hi : i < 128) : (x.wbLine l data p).mem.byte .hbm (l * 128 + i) = (lineBytes data)[i]?.getD 0 := by
  rw [X.wbLine_eq, X.op_mem, X.op_mem, Mems.byte_mark, Mems.byte_mark]
  have hlen : i < (lineBytes data).length := by rwa [lineBytes, length_leBytes]
  exact X.byte_putBytes (x.on (fun d => (d.bursts l 0 2 0).dropRet l [0, 1])) .hbm (l * 128) (lineBytes data) h i hlen

end WriteBack

/-! #### A request meets its line -/

theorem Looked.only {x y : X} (h : Looked x y) : Only [.gal, .cnt, .vits] x.dev y.dev := by
  rw [h.dev]
  exact fun s p hp => by cases p <;> first | rfl | simp at hp

/-- A request that finds its line present meets it, its stream entry and its lookup counted. -/
theorem X.arrive_present (x : X) (l : Nat) (r : HomeReq) (g : GLine) (hf : x.dev.isFenced (dieOfVit (vitOfAddr (l * 128))) = false)
    (hg : x.dev.gline l = some g) : ∃ y, Looked x y ∧ x.arrive l r = y.present l r g := by
  obtain ⟨st, hst, h0⟩ : ∃ st, (if r.kind.streams = true then x.dev.stream l r.port else (x.dev, false)) = st ∧ Looked x { x with dev := st.1 } := by
    refine ⟨_, rfl, ?_⟩
    split
    · exact Looked.stream x l r.port
    · exact Looked.refl x
  obtain ⟨y, hy, h1⟩ : ∃ y, (if r.kind.looksUp = true then X.on { x with dev := st.1 } (fun d => d.lookup l) else { x with dev := st.1 }) = y ∧ Looked x y := by
    refine ⟨_, rfl, ?_⟩
    split
    · exact h0.trans (Looked.lookup _ l)
    · exact h0
  refine ⟨y, h1, ?_⟩
  simp only [X.arrive, hf, Bool.false_eq_true, if_false, hst, hy, h1.gline l, hg]

/-- A request has met line `l`, free, as `g`: the view `y` of a command on `s`, with these messages in flight. -/
structure X.Met (s : State) (l : Nat) (g : GLine) (ms : List Msg) (y : X) : Prop where
  at' : Dev.AtLine l s.dev y.dev
  line : ∃ u, y.dev.gline l = some { g with used := u }
  msgs : y.dev.msgs = ms
  units : ∀ n, (y.dev.slice n).ops = (s.dev.slice n).ops
  ops : y.ops = []
  mops : y.mops = []

@[simp] theorem Dev.slice_setGline_ops (d : Dev) (l n : Nat) (g : GLine) : ((d.setGline l g).slice n).ops = (d.slice n).ops := by
  rw [Dev.setGline]
  by_cases e : n = sliceOf l
  · rw [e, Dev.slice_setSlice]
  · rw [Dev.slice_setSlice_ne _ _ _ _ e]

section Requests
variable {s : State} {a : Addr} {l : Nat} {g : GLine} (hl : l = a.toNat / 128) (hhome : s.dev.AtHome a) (hg : s.dev.gline l = some g)
include hl hhome hg

/-- A request that looks its free line up meets it, and is served. -/
theorem X.arrive_met {d : Dev} {r : HomeReq} (hd : Only [.cnt, .msgs, .mesh] s.dev d) (hopen : g.open' r = true) (hlook : r.kind.looksUp = true) :
    ∃ y, X.Met s l g d.msgs y ∧ (s.view.on (fun _ => d)).arrive l r = y.serve l r := by
  have hgline : ∀ n, d.gline n = s.dev.gline n := fun n => Dev.gline_of_gal _ _ _ (hd.gal (by simp))
  have hfence : d.isFenced (dieOfVit (vitOfAddr (l * 128))) = false := by
    rw [Dev.isFenced, hd.rel (by simp)]
    exact Dev.AtHome.not_fenced hl hhome
  obtain ⟨y, u, hlooked, harrive⟩ := X.arrive_free (s.view.on (fun _ => d)) l r g hfence ((hgline l).trans hg) hopen
  rw [if_pos hlook] at harrive
  refine ⟨y.on (fun d => d.setGline l { g with used := u }), ⟨?_, ⟨u, Dev.gline_setGline _ _ _⟩, ?_, fun n => ?_, hlooked.memOps, hlooked.mops⟩, harrive⟩
  · exact Dev.AtLine.setGline ⟨(hd.mono (by simp)).trans (hlooked.only.mono (by simp)), fun m _ => (hlooked.gline m).trans (hgline m)⟩ _
  · exact hlooked.only.msgs (by simp)
  · rw [X.on_dev, Dev.slice_setGline_ops, hlooked.ops n]
    exact congrArg (fun k : KMap Slice => (kget {} k n).ops) (hd.gal (by simp))

omit hl hhome hg in
/-- A message's arrival changes only the messages in flight. -/
theorem Dev.take_only (d : Dev) (k : MsgKind) (l : Nat) (c : Option CoreId) : Only [.cnt, .msgs, .mesh] d (d.take k l c) :=
  (Only.refl _ d).take _ _ _ (by simp) (by simp)

omit hl hhome hg in
/-- A request that its slice admits arrives. -/
theorem X.arriveReq_admitted {k : MsgKind} {r : HomeReq} (hadm : s.dev.Admits k l r) :
    s.view.arriveReq k l r = (s.view.on (fun _ => s.dev.take k l (portCore r.port))).arrive l r := by
  obtain ⟨harr, hcredit⟩ := hadm
  simp only [X.arriveReq, State.view_dev, harr, hcredit, Bool.not_true, Bool.false_eq_true, if_false, Bool.false_and]
  rfl

omit hl hg in
theorem Dev.AtHome.answers : s.dev.answers a.toNat = true := by
  rw [Dev.answers, hhome.2.1, Bool.true_or]

section Free
variable (hst : g.st = .i) (hqueue : g.queue = []) (hops : g.ops = 0)
include hst hqueue hops

omit hl hhome hg in
theorem GLine.open'_of_free (r : HomeReq) : g.open' r = true := by
  simp [GLine.open', hst, hqueue, hops, DirSt.transient]

/-- A free line serves a GETS: the core owns it. -/
theorem gets_served {c : CoreId} (hadm : s.dev.Admits .getS l { kind := .getS, port := .core c }) :
    Completes (.gets a c) s (fun t => OnlyLine l s t ∧ Exchanged .getS l (some c) .dataE (some c) g.data g.poison s t ∧
      ∃ u, t.dev.gline l = some { g with st := .ol, owner := some c, sh := {}, used := u }) := by
  obtain ⟨y, hmet, hserve⟩ := X.arrive_met hl hhome hg (s.dev.take_only .getS l (some c)) (r := { kind := .getS, port := .core c })
    (GLine.open'_of_free hst hqueue hops _) rfl
  obtain ⟨u, hline⟩ := hmet.line
  have hfx : y.serve l { kind := .getS, port := .core c } =
      y.on (fun d => (d.setGline l { g with st := .ol, owner := some c, sh := {}, used := u }).toCore .dataE l c g.data g.poison) := by
    simp only [X.serve, hline, hst]
  refine completes_onHome hl hhome (show exec (.gets a c) s = execGets a c s from rfl) ((X.arriveReq_admitted hadm).trans (hserve.trans hfx)) hmet.ops hmet.mops ?_
  exact ⟨((hmet.at'.setGline _).toCore _ _ _ _ _).onlyLine,
    exchanged_of_send { kind := .dataE, line := l, core := some c, data := g.data, poison := g.poison } hmet.msgs rfl, u, Dev.gline_setGline _ _ _⟩

/-- A free line serves a GETM: the core owns it. -/
theorem getm_served {c : CoreId} (hadm : s.dev.Admits .getM l { kind := .getM, port := .core c }) :
    Completes (.getm a c) s (fun t => OnlyLine l s t ∧ Exchanged .getM l (some c) .dataM (some c) g.data g.poison s t ∧
      ∃ u, t.dev.gline l = some { g with st := .ol, owner := some c, sh := {}, used := u }) := by
  obtain ⟨y, hmet, hserve⟩ := X.arrive_met hl hhome hg (s.dev.take_only .getM l (some c)) (r := { kind := .getM, port := .core c })
    (GLine.open'_of_free hst hqueue hops _) rfl
  obtain ⟨u, hline⟩ := hmet.line
  have hfx : y.serve l { kind := .getM, port := .core c } =
      y.on (fun d => (d.setGline l { g with st := .ol, owner := some c, sh := {}, used := u }).toCore .dataM l c g.data g.poison) := by
    simp only [X.serve, X.act, hline, hst]
    rfl
  refine completes_onHome hl hhome (show exec (.getm a c) s = execGetm a c s from rfl) ((X.arriveReq_admitted hadm).trans (hserve.trans hfx)) hmet.ops hmet.mops ?_
  exact ⟨((hmet.at'.setGline _).toCore _ _ _ _ _).onlyLine,
    exchanged_of_send { kind := .dataM, line := l, core := some c, data := g.data, poison := g.poison } hmet.msgs rfl, u, Dev.gline_setGline _ _ _⟩

/-- A free line serves an RDU with its data. -/
theorem rdu_served {p : MPort} (hadm : s.dev.Admits .rdU l { kind := .rdU, port := p }) :
    Completes (.rdu a p) s (fun t => OnlyLine l s t ∧
      Exchanged .rdU l (portCore p) (if p == .host then .hostData else .data) (portCore p) g.data g.poison s t ∧ ∃ u, t.dev.gline l = some { g with used := u }) := by
  obtain ⟨y, hmet, hserve⟩ := X.arrive_met hl hhome hg (s.dev.take_only .rdU l (portCore p)) (r := { kind := .rdU, port := p })
    (GLine.open'_of_free hst hqueue hops _) rfl
  obtain ⟨u, hline⟩ := hmet.line
  have hfx : y.serve l { kind := .rdU, port := p } = y.on (fun d => d.toPort p l g.data g.poison) := by
    simp only [X.serve, X.act, hline, hst]
  refine completes_quiet (y := y.on (fun d => d.toPort p l g.data g.poison)) (show exec (.rdu a p) s = execRdu a p s from rfl) ?_ hmet.ops hmet.mops ?_
  · simp only [State.view_dev, hhome.answers, Bool.not_true, Bool.false_eq_true, if_false, if_pos hhome.1, ← hl]
    exact (X.arriveReq_admitted hadm).trans (hserve.trans hfx)
  · exact ⟨(hmet.at'.toPort _ _ _ _ _).onlyLine,
      exchanged_of_send { kind := if p == .host then .hostData else .data, line := l, data := g.data, poison := g.poison, core := portCore p, port := some p }
        hmet.msgs rfl, u, hline⟩

end Free
end Requests

/-- A cacheless write of no core's is answered. -/
theorem X.wrote_port {p : MPort} (x : X) (l : Nat) (hp : ∀ c, p ≠ .core c) : x.wrote p l = x.on (fun d => d.send { kind := .wrDone, line := l, port := some p }) := by
  cases p with
  | core c => exact absurd rfl (hp c)
  | _ => rfl

theorem portCore_none {p : MPort} (hp : ∀ c, p ≠ .core c) : portCore p = none := by
  cases p with
  | core c => exact absurd rfl (hp c)
  | _ => rfl

section Requests
variable {s : State} {a : Addr} {l : Nat} {g : GLine} (hl : l = a.toNat / 128) (hhome : s.dev.AtHome a) (hg : s.dev.gline l = some g)
include hl hhome

/-- A WRU of a window line reaches the line's home with the bytes in flight. -/
theorem execWru_view {p : MPort} {mask m : BitVec 128} {data w : Line} {hint : BitVec 2}
    (hbytes : ((s.dev.flying .wrU l (portCore p)).map (fun n => (n.mask, n.data))).getD (mask, data) = (m, w)) :
    execWru a p mask data hint s = run s (fun x => x.arriveReq .wrU l { kind := .wrU m w hint, port := p }) := by
  simp only [execWru, run, ← hl, hbytes, hhome.answers, Bool.not_true, Bool.false_eq_true, if_false, if_pos hhome.1]

/-- A write by any port changes, besides memory, only what the traffic of accesses may change. -/
theorem wru_keeps {p : MPort} {mask m : BitVec 128} {data w : Line} {hint : BitVec 2}
    (hbytes : ((s.dev.flying .wrU l (portCore p)).map (fun n => (n.mask, n.data))).getD (mask, data) = (m, w)) (hsplit : s.dev.AllSplit) :
    Completes (.wru a p mask data hint) s
      (fun t => Keeps [.mem, .cat, .cnt, .vits, .cores, .gal, .msgs, .mesh, .hbm, .rel, .fresh] s t) := by
  have htraffic : Traffic s.view (s.view.arriveReq .wrU l { kind := .wrU m w hint, port := p }) := by
    have htake : Traffic s.view (s.view.on (fun d => d.take .wrU l (portCore p))) := (Traffic.refl _).dev ((Flow.refl _).take _ _ _)
    simp only [X.arriveReq]
    exact (Traffic.refl _).ite (((Traffic.refl _).dev ((Flow.refl _).stall _ _ _)).ite (htake.trans (Traffic.arrive _ _ _ (htake.allSplit hsplit))))
  refine completes_run _ ((show exec (.wru a p mask data hint) s = execWru a p mask data hint s from rfl).trans (execWru_view hl hhome hbytes)) rfl ?_
  exact (htraffic.flow.only.keeps_view htraffic.mops).mono (by simp)

include hg

section Free
variable (hst : g.st = .i) (hqueue : g.queue = []) (hops : g.ops = 0)
include hst hqueue hops

/-- A free line takes the bytes of a WRU. -/
theorem wru_served {p : MPort} {mask m : BitVec 128} {data w : Line} {hint : BitVec 2}
    (hbytes : ((s.dev.flying .wrU l (portCore p)).map (fun n => (n.mask, n.data))).getD (mask, data) = (m, w))
    (hadm : s.dev.Admits .wrU l { kind := .wrU m w hint, port := p }) (hp : ∀ c, p ≠ .core c) :
    Completes (.wru a p mask data hint) s (fun t => OnlyLine l s t ∧ Exchanged .wrU l none .wrDone none 0 0 s t ∧
      ∃ u, t.dev.gline l = some { g with sh := {}, owner := none, data := mergeLine g.data w m, dirty := true, poison := mergePoison g.poison m, used := u }) := by
  obtain ⟨y, hmet, hserve⟩ := X.arrive_met hl hhome hg (s.dev.take_only .wrU l (portCore p)) (r := { kind := .wrU m w hint, port := p })
    (GLine.open'_of_free hst hqueue hops _) rfl
  obtain ⟨u, hline⟩ := hmet.line
  have hfx : y.serve l { kind := .wrU m w hint, port := p } =
      y.on (fun d => (d.setGline l { g with sh := {}, owner := none, data := mergeLine g.data w m, dirty := true, poison := mergePoison g.poison m, used := u }).send
        { kind := .wrDone, line := l, port := some p }) := by
    simp only [X.serve, X.act, hline, hst, X.wrote_port _ _ hp]
    rfl
  refine completes_quiet ((show exec (.wru a p mask data hint) s = execWru a p mask data hint s from rfl).trans (execWru_view hl hhome hbytes))
    ((X.arriveReq_admitted hadm).trans (hserve.trans hfx)) hmet.ops hmet.mops ?_
  exact ⟨((hmet.at'.setGline _).send _).onlyLine,
    portCore_none hp ▸ exchanged_of_send { kind := .wrDone, line := l, port := some p } hmet.msgs rfl, u, Dev.gline_setGline _ _ _⟩

/-- A free line queues the operations of an ATOMRED at its slice. -/
theorem atomred_served {c : CoreId} {ops o : List ElemOp} {ret : Bool} (hflying : ((s.dev.flying .atomRed l (some c)).map (fun n => n.ops)).getD ops = o)
    (hadm : s.dev.Admits .atomRed l { kind := .atom o ret, port := .core c }) :
    Completes (.atomred a c ops ret) s (fun t => OnlyLine l s t ∧ t.dev.msgs = (s.dev.take .atomRed l (some c)).msgs ∧
      (t.dev.slice (sliceOf l)).ops = (s.dev.slice (sliceOf l)).ops ++ [{ line := l, todo := o, old := [], returns := ret, core := some c }] ∧
      ∃ u, t.dev.gline l = some { g with sh := {}, owner := none, ops := 1, used := u }) := by
  obtain ⟨harr, hcredit⟩ : s.dev.arrives .atomRed l (some c) = true ∧ _ := hadm
  obtain ⟨d, hd, hmsgs, hdev⟩ : ∃ d, Only [.cnt, .msgs, .mesh] s.dev d ∧ d.msgs = (s.dev.take .atomRed l (some c)).msgs ∧
      (if ret = true then s.view.on (fun d => d.take .atomRed l (some c)) else (s.view.on (fun d => d.take .atomRed l (some c))).on
        (fun d => d.count 0x8015 7 (vitOfAddr a.toNat).toNat)) = s.view.on (fun _ => d) := by
    have htake := s.dev.take_only .atomRed l (some c)
    split
    · exact ⟨_, htake, rfl, rfl⟩
    · exact ⟨_, htake.count 0x8015 7 (vitOfAddr a.toNat).toNat 1 (by simp), rfl, rfl⟩
  obtain ⟨y, hmet, hserve⟩ := X.arrive_met hl hhome hg hd (r := { kind := .atom o ret, port := .core c }) (GLine.open'_of_free hst hqueue hops _) rfl
  obtain ⟨u, hline⟩ := hmet.line
  have hfx : y.serve l { kind := .atom o ret, port := .core c } =
      y.on (fun d => (d.setGline l { g with sh := {}, owner := none, ops := 1, used := u }).setSlice (sliceOf l)
        (fun t => { t with ops := t.ops ++ [{ line := l, todo := o, old := [], returns := ret, core := some c }] })) := by
    simp only [X.serve, X.act, hline, hst, hops, portCore]
  have hexec : exec (.atomred a c ops ret) s = execAtomred a c ops ret s := rfl
  refine completes_quiet hexec (y := y.on _) (Eq.trans ?_ (hserve.trans hfx)) hmet.ops hmet.mops ?_
  · simp only [← hl, hflying, State.view_dev, hhome.answers, harr, hcredit, Bool.not_true, Bool.or_self, Bool.false_and, Bool.false_eq_true, if_false, hdev,
      if_pos hhome.1]
  · have hkeep : ∀ k, ((y.dev.setGline l { g with sh := {}, owner := none, ops := 1, used := u }).setSlice (sliceOf l)
        (fun t => { t with ops := t.ops ++ [{ line := l, todo := o, old := [], returns := ret, core := some c }] })).gline k =
          (y.dev.setGline l { g with sh := {}, owner := none, ops := 1, used := u }).gline k := fun k => Dev.gline_setSlice _ _ _ _ (fun _ => rfl)
    have hat := hmet.at'.setGline { g with sh := {}, owner := none, ops := 1, used := u }
    refine ⟨Dev.AtLine.onlyLine ⟨hat.only.setSlice _ _ (by simp), fun k hk => (hkeep k).trans (hat.others k hk)⟩, hmet.msgs.trans hmsgs, ?_, u,
      (hkeep l).trans (Dev.gline_setGline _ _ _)⟩
    rw [X.on_dev, Dev.slice_setSlice, Dev.slice_setGline_ops, hmet.units]

end Free

section Released
variable (hst : g.st = .i) (hqueue : g.queue = []) (hops : g.ops = 0)
include hst hqueue hops

/-- A request of a range operation meets its free line, which it does not look up. -/
theorem X.arrive_unlooked {r : HomeReq} (hlook : r.kind.looksUp = false) :
    ∃ y, Looked s.view y ∧ y.dev.gline l = some g ∧ s.view.arrive l r = y.act l r := by
  obtain ⟨y, u, hlooked, harrive⟩ := X.arrive_free s.view l r g (Dev.AtHome.not_fenced hl hhome) hg (GLine.open'_of_free hst hqueue hops _)
  have hline := (hlooked.gline l).trans hg
  refine ⟨y, hlooked, hline, harrive.trans ?_⟩
  rw [hlook, if_neg Bool.false_ne_true]
  simp only [X.serve, hline, hst]
  split
  · rename_i hkind _
    simp [hkind, HomeKind.looksUp] at hlook
  · rfl

omit hl hhome hg hst hqueue hops in
/-- What a line written back, or left, has changed. -/
theorem X.writeBack_facts {y : X} (b : Bool) (data : Line) (p : BitVec 2) (hlooked : Looked s.view y) :
    ∃ z, (if b = true then y.wbLine l data p else y) = z ∧ z.From s ∧ Only [.gal, .cnt, .vits, .hbm] s.dev z.dev ∧ (∀ k, z.dev.gline k = s.dev.gline k) ∧
      (b = false → z.mem = s.mem) ∧
      (b = true → Memory.wf s.mem = true → ∀ i, i < 128 → z.mem.byte .hbm (l * 128 + i) = (lineBytes data)[i]?.getD 0) := by
  have hfrom : y.From s := ⟨by rw [hlooked.memOps]; exact hlooked.mem, hlooked.mops⟩
  have hmem : y.mem = s.mem := hlooked.mem
  have honly : Only [.gal, .cnt, .vits, .hbm] s.dev y.dev := hlooked.only.mono (by simp)
  cases b with
  | false => exact ⟨y, rfl, hfrom, honly, hlooked.gline, fun _ => hmem, fun hb => by simp at hb⟩
  | true =>
    have hwb := y.wbLine_only l data p
    refine ⟨_, rfl, hfrom.wbLine l data p, honly.trans (hwb.mono (by simp)), fun k => ?_, fun hb => by simp at hb, fun _ hwf i hi => ?_⟩
    · exact (Dev.gline_of_gal _ _ _ (hwb.gal (by simp))).trans (hlooked.gline k)
    · exact X.byte_wbLine y l data p (hmem ▸ hwf) hi

/-- EVICT frees its line. -/
theorem evict_served (wb : Bool) :
    Completes (.evict a wb) s (fun t => Keeps [.mem, .gal, .cnt, .vits, .hbm] s t ∧ (∀ k, k ≠ l → t.dev.gline k = s.dev.gline k) ∧
      t.dev.gline l = none ∧ ((g.dirty && wb) = false → t.mem = s.mem) ∧
      (g.dirty = true → wb = true → Memory.wf s.mem = true → ∀ i, i < 128 → t.mem.byte .hbm (l * 128 + i) = (lineBytes g.data)[i]?.getD 0)) := by
  obtain ⟨y, hlooked, hline, harrive⟩ := X.arrive_unlooked hl hhome hg hst hqueue hops (r := { kind := .evict wb, port := .dma 0 }) rfl
  obtain ⟨z, hz, hfrom, honly, hgline, hclean, hdirty⟩ := X.writeBack_facts (l := l) (g.dirty && wb) g.data g.poison hlooked
  have hfx : y.act l { kind := .evict wb, port := .dma 0 } =
      z.on (fun d => (if g.pinned = true then d.setVit (vitOfAddr (l * 128)) (fun v => { v with pinned := v.pinned - 128 }) else d).delGline l) := by
    simp only [X.act, hline, X.freeLine, hz]
    split <;> rfl
  have hpin : ∀ k, (if g.pinned = true then z.dev.setVit (vitOfAddr (l * 128)) (fun v => { v with pinned := v.pinned - 128 }) else z.dev).gline k = s.dev.gline k :=
    fun k => Eq.trans (by split <;> rfl) (hgline k)
  have hpinOnly : Only [.gal, .cnt, .vits, .hbm] s.dev
      (if g.pinned = true then z.dev.setVit (vitOfAddr (l * 128)) (fun v => { v with pinned := v.pinned - 128 }) else z.dev) :=
    (honly.setVit _ _ (by simp)).ite honly
  refine completes_view ((show exec (.evict a wb) s = execEvict a wb s from rfl).trans (onHome_eq hl hhome _)) (harrive.trans hfx) (hfrom.on _) (fun e m he hm => ?_)
  subst he hm
  refine ⟨((hpinOnly.setSlice _ _ (by simp)).keeps_mem _).mono (by simp), fun k hk => ?_, Dev.gline_delGline _ _, hclean,
    fun hd hw => hdirty (by rw [hd, hw]; rfl)⟩
  exact (Dev.gline_delGline_ne _ l k hk).trans (hpin k)

/-- FLUSH writes a dirty line back and keeps it clean. -/
theorem flush_served :
    Completes (.flush a) s (fun t => Keeps [.mem, .gal, .cnt, .vits, .hbm] s t ∧ t.dev.gline l = some { g with dirty := false } ∧
      (g.dirty = false → t.mem = s.mem) ∧ (g.dirty = true → Memory.wf s.mem = true → ∀ i, i < 128 → t.mem.byte .hbm (l * 128 + i) = (lineBytes g.data)[i]?.getD 0)) := by
  obtain ⟨y, hlooked, hline, harrive⟩ := X.arrive_unlooked hl hhome hg hst hqueue hops (r := { kind := .flush, port := .dma 0 }) rfl
  obtain ⟨z, hz, hfrom, honly, -, hclean, hdirty⟩ := X.writeBack_facts (l := l) g.dirty g.data g.poison hlooked
  have hfx : y.act l { kind := .flush, port := .dma 0 } = z.on (fun d => d.setGline l { g with dirty := false }) := by
    simp only [X.act, hline, hz]
  refine completes_view ((show exec (.flush a) s = execFlush a s from rfl).trans (onHome_eq hl hhome _)) (harrive.trans hfx) (hfrom.on _) (fun e m he hm => ?_)
  subst he hm
  exact ⟨((honly.setSlice _ _ (by simp)).keeps_mem _).mono (by simp), Dev.gline_setGline _ _ _, hclean, hdirty⟩

end Released

/-- A GETS or GETM of a transient line waits in the line's queue. -/
theorem request_queued {i : Instr} {c : CoreId} {k : MsgKind} {kind : HomeKind} (hexec : exec i s = onHome s a (fun l x => x.arriveReq k l { kind, port := .core c }))
    (hkind : kind = .getS ∨ kind = .getM) (htransient : g.st.transient = true) (hadm : s.dev.Admits k l { kind, port := .core c }) :
    Completes i s (fun t => OnlyLine l s t ∧ t.dev.msgs = (s.dev.take k l (some c)).msgs ∧
      t.dev.gline l = some { g with queue := g.queue ++ [{ kind, port := .core c }] }) := by
  have htake := s.dev.take_only k l (some c)
  have hfence : (s.dev.take k l (some c)).isFenced (dieOfVit (vitOfAddr (l * 128))) = false := by
    rw [Dev.isFenced, htake.rel (by simp)]
    exact Dev.AtHome.not_fenced hl hhome
  obtain ⟨y, hlooked, harrive⟩ := X.arrive_present (s.view.on (fun _ => s.dev.take k l (some c))) l { kind, port := .core c } g hfence
    ((Dev.gline_take _ _ _ _ _).trans hg)
  have hopen : g.open' { kind, port := .core c } = false := by simp [GLine.open', htransient]
  have hfx : y.present l { kind, port := .core c } g = y.on (fun d => d.setGline l { g with queue := g.queue ++ [{ kind, port := .core c }] }) := by
    have hmet : y.present l { kind, port := .core c } g = y.queueUp l { kind, port := .core c } g := by
      unfold X.present
      split
      · rcases hkind with rfl | rfl <;> contradiction
      · rw [hopen, if_neg Bool.false_ne_true]
    rw [hmet]
    rcases hkind with rfl | rfl <;> rfl
  have hat : Dev.AtLine l s.dev y.dev := ⟨(htake.mono (by simp)).trans (hlooked.only.mono (by simp)), fun m _ => (hlooked.gline m).trans (Dev.gline_take _ _ _ _ _)⟩
  exact completes_onHome hl hhome hexec ((X.arriveReq_admitted hadm).trans (harrive.trans hfx)) hlooked.memOps hlooked.mops
    ⟨(hat.setGline _).onlyLine, hlooked.only.msgs (by simp), Dev.gline_setGline _ _ _⟩

end Requests

/-- Settles O19: a free line serves a request by its row of R186, and a transient one queues it. -/
theorem requestsOnAPresentLine : Obligations.RequestsOnAPresentLine := by
  intro s a l g hl hhome hg
  refine ⟨fun hst hqueue hops => ⟨fun c hadm => ?gets, fun c hadm => ?getm, fun p hadm => ?rdu,
    fun p mask m data w hint hbytes hadm => ⟨fun hp => ?wru, fun hsplit => ?wruKeeps⟩, fun c ops o ret hflying hadm => ?atomred, fun wb => ?evict, ?flush⟩,
    fun htransient c => ⟨fun hadm => ?queuedS, fun hadm => ?queuedM⟩⟩
  case gets => exact gets_served hl hhome hg hst hqueue hops hadm
  case getm => exact getm_served hl hhome hg hst hqueue hops hadm
  case rdu => exact rdu_served hl hhome hg hst hqueue hops hadm
  case wru => exact wru_served hl hhome hg hst hqueue hops hbytes hadm hp
  case wruKeeps => exact wru_keeps hl hhome hbytes hsplit
  case atomred => exact atomred_served hl hhome hg hst hqueue hops hflying hadm
  case evict => exact evict_served hl hhome hg hst hqueue hops wb
  case flush => exact flush_served hl hhome hg hst hqueue hops
  case queuedS => exact request_queued hl hhome hg (show exec (.gets a c) s = execGets a c s from rfl) (.inl rfl) htransient hadm
  case queuedM => exact request_queued hl hhome hg (show exec (.getm a c) s = execGetm a c s from rfl) (.inr rfl) htransient hadm

/-! ### Fills, slice operations and stream entries (R186, R176, R171) -/

/-- A slice depends on the Gallery alone. -/
theorem Dev.slice_of_gal (d e : Dev) (n : Nat) (h : d.gal = e.gal) : d.slice n = e.slice n := by simp only [Dev.slice, h]

theorem Dev.le_root_reachRoot (d : Dev) (i due : Nat) : due ≤ ((d.reachRoot i due).die i).root := by
  simp only [Dev.reachRoot]
  split
  · assumption
  · rw [Dev.die_advance, if_pos rfl]

@[simp] theorem Slice.port_setPort (t : Slice) (p : MPort) (l : List StreamEnt) : (t.setPort p l).port p = l := by
  simp [Slice.port, Slice.setPort]

theorem X.drain_empty {x : X} {l : Nat} {g : GLine} (hg : x.dev.gline l = some g) (hqueue : g.queue = []) : x.drain l = x.on (fun d => d.setGline l g) := by
  obtain ⟨way, st, dirty, sh, owner, pinned, data, poison, used, queue⟩ := g
  subst hqueue
  simp only [X.drain, hg, X.requeue, List.foldl_nil]

section Fill
variable {s : State} {a : Addr} {l : Nat} {g : GLine} (hl : l = a.toNat / 128) (hhome : s.dev.AtHome a) (hg : s.dev.gline l = some g)
include hl hhome hg

/-- A line's fill brings it its contents of HBM. -/
theorem hbmFillData_completes {p : BitVec 2} (hst : g.st = .fill) (hqueue : g.queue = [])
    (hway : (s.dev.inSet (sliceOf l) (setOf l)).any (fun e => e.1 != l && e.2.way == g.way) = false) :
    Completes (.hbmFillData a p) s (fun t => Keeps [.gal, .cnt, .vits, .msgs, .mesh, .hbm] s t ∧ (∀ m, m ≠ l → t.dev.gline m = s.dev.gline m) ∧
      t.dev.msgs = (s.dev.take .hbmRead l none).msgs ∧
      ∃ q, t.dev.gline l = some { g with st := .i, data := (s.mem.hbmLine l).1, poison := q } ∧ ∀ i, ((s.mem.hbmLine l).2 ||| p).getLsbD i = true → q.getLsbD i = true) := by
  obtain ⟨d, hdev⟩ : ∃ d, d = (s.dev.take .hbmRead l none).bursts l 2 0 0 := ⟨_, rfl⟩
  obtain ⟨q, hq⟩ : ∃ q, q = (s.mem.hbmLine l).2 ||| p ||| d.retPoison l := ⟨_, rfl⟩
  obtain ⟨h, hh⟩ : ∃ h : GLine, h = { g with st := .i, data := (s.mem.hbmLine l).1, poison := q } := ⟨_, rfl⟩
  obtain ⟨e, he⟩ : ∃ e, e = d.dropRet l [0, 1] := ⟨_, rfl⟩
  have honly : Only [.cnt, .msgs, .mesh, .hbm] s.dev e := by
    rw [he, hdev]
    exact (((s.dev.take_only _ _ _).mono (by simp)).trans ((Dev.bursts_only _ _ _ _ _).mono (by simp))).trans ((Dev.dropRet_only _ _ _).mono (by simp))
  have hmsgs : e.msgs = (s.dev.take .hbmRead l none).msgs := by
    rw [he, (Dev.dropRet_only d l [0, 1]).msgs (by simp), hdev, (Dev.bursts_only _ _ _ _ _).msgs (by simp)]
  have hhqueue : h.queue = [] := by rw [hh]; exact hqueue
  refine completes_onHome hl hhome (y := s.view.on (fun _ => (e.setGline l h).setGline l h)) (show exec (.hbmFillData a p) s = execHbmFillData a p s from rfl) ?_ rfl rfl
    ⟨(((honly.mono (m := [.gal, .cnt, .vits, .msgs, .mesh, .hbm]) (by simp)).setSlice _ _ (by simp)).setSlice _ _ (by simp)).keeps, fun m hm => ?_, hmsgs, q, ?_, fun i hi => ?_⟩
  · simp only [State.view_dev, hg, hst, beq_self_eq_true, if_true, hway, Bool.false_eq_true, if_false]
    refine Eq.trans ?_ (X.drain_empty (x := s.view.on (fun _ => e.setGline l h)) (Dev.gline_setGline _ _ _) hhqueue)
    rw [hh, hq, he, hdev]
    rfl
  · rw [X.on_dev, Dev.gline_setGline_ne _ _ _ _ hm, Dev.gline_setGline_ne _ _ _ _ hm]
    exact Dev.gline_of_gal _ _ _ (honly.gal (by simp))
  · rw [X.on_dev, Dev.gline_setGline, hh]
  · rw [hq, BitVec.getLsbD_or, hi, Bool.true_or]

end Fill

/-- A slice's unit performs an operation's next element on its line. -/
theorem sliceOpApply_completes {s : State} {l : Nat} {g : GLine} {sl : ChanId} {o : SliceOp} {rest : List SliceOp} {e n : ElemOp} {todo : List ElemOp}
    (hruns : s.dev.runs (sl.val / 96) = true) (hops : (s.dev.slice sl.val).ops = o :: rest) (hline : o.line = l) (hwindow : l < 2 ^ 41 / 128)
    (hg : s.dev.gline l = some g) (htodo : o.todo = e :: n :: todo) (hclean : ∀ k ∈ o.todo, g.poison.getLsbD (k.off.toNat / 64) = false) :
    Completes (.sliceOpApply sl) s (fun t => OnlyLine l s t ∧ t.dev.gline l = some { g with data := (elemStep e g.data).1, dirty := true } ∧
      (t.dev.slice sl.val).ops = { o with todo := n :: todo, old := o.old ++ [(e.lane.toNat, (elemStep e g.data).2)] } :: rest) := by
  have hpad : decide (2 ^ 41 / 128 ≤ l) = false := decide_eq_false (by omega)
  have hgood : (e :: n :: todo).any (fun k => g.poison.getLsbD (k.off.toNat / 64)) = false := by
    rw [← htodo, List.any_eq_false]
    exact fun k hk => by rw [hclean k hk]; exact Bool.false_ne_true
  obtain ⟨h, hh⟩ : ∃ h : GLine, h = { g with data := (elemStep e g.data).1, dirty := true } := ⟨_, rfl⟩
  obtain ⟨q, hq⟩ : ∃ q : SliceOp, q = { o with todo := n :: todo, old := o.old ++ [(e.lane.toNat, (elemStep e g.data).2)] } := ⟨_, rfl⟩
  have hkeep : ∀ k, ((s.dev.setGline l h).setSlice sl.val (fun t => { t with ops := q :: rest })).gline k = (s.dev.setGline l h).gline k :=
    fun k => Dev.gline_setSlice _ _ _ _ (fun _ => rfl)
  refine completes_quiet (show exec (.sliceOpApply sl) s = execSliceOpApply sl s from rfl)
    (y := s.view.on (fun _ => (s.dev.setGline l h).setSlice sl.val (fun t => { t with ops := q :: rest }))) ?_ rfl rfl ?_
  · simp only [State.view_dev, hruns, Bool.not_true, Bool.false_eq_true, if_false, hops, hline, hpad, hg, Option.map_some, htodo, hgood, List.isEmpty_cons, hh, hq,
      Dev.updGline, X.on]
  · have hat := (Dev.AtLine.refl l s.dev).setGline h
    refine ⟨Dev.AtLine.onlyLine ⟨hat.only.setSlice _ _ (by simp), fun k hk => (hkeep k).trans (hat.others k hk)⟩, ?_, ?_⟩
    · rw [X.on_dev, hkeep, Dev.gline_setGline, hh]
    · rw [X.on_dev, Dev.slice_setSlice, hq]

/-- A stream entry that has expired is freed. -/
theorem streamEntryExpiry_completes {s : State} {sl : ChanId} {p : MPort} {k : BitVec 4} {e : StreamEnt}
    (he : ((s.dev.slice sl.val).port p)[k.toNat]? = some e) (hlive : e.live = true) (hruns : s.dev.runs (sl.val / 96) = true) :
    Completes (.streamEntryExpiry sl p k) s (fun t => Keeps [.clk, .cnt, .gal] s t ∧ (∀ m, t.dev.gline m = s.dev.gline m) ∧
      4 * (e.moved + 4096) ≤ (t.dev.die (sl.val / 96)).root ∧ ∃ e', ((t.dev.slice sl.val).port p)[k.toNat]? = some e' ∧ e'.live = false ∧ e'.next = e.next) := by
  refine completes_dev ((s.dev.reachRoot (sl.val / 96) (4 * (e.moved + 4096))).setSlice sl.val
      (fun t => t.setPort p (setNth (t.port p) k.toNat { e with live := false, moved := e.moved + 4096 })))
    (show exec (.streamEntryExpiry sl p k) s = execStreamEntryExpiry sl p k s from rfl) ?_
    ⟨(((Only.refl [.clk, .cnt, .gal] s.dev).reachRoot _ _ (by simp) (by simp)).setSlice _ _ (by simp)).keeps, fun m => ?_, ?_,
      { e with live := false, moved := e.moved + 4096 }, ?_, rfl, rfl⟩
  · simp only [he, hlive, hruns, Bool.and_self, if_true]
  · refine (Dev.gline_setSlice _ _ _ _ ?_).trans (Dev.gline_of_gal _ _ _ (Dev.reachRoot_gal _ _ _))
    exact fun _ => rfl
  · exact Dev.le_root_reachRoot _ _ _
  · rw [Dev.slice_setSlice, Slice.port_setPort, getElem?_setNth, if_pos rfl, Dev.slice_of_gal _ _ _ (Dev.reachRoot_gal _ _ _), he]
    rfl

/-- Settles O21: each of the three is its command's one branch that acts. -/
theorem fillsOperationsAndStreams : Obligations.FillsOperationsAndStreams := by
  intro s l g
  refine ⟨fun a p hl hhome hg hst hqueue hway => ?fill, fun sl o rest e n todo hruns hops hline hwindow hslice hg htodo hclean => ?operation,
    fun sl p k e he hlive hruns => ?stream⟩
  case fill => exact hbmFillData_completes hl hhome hg hst hqueue hway
  case operation => exact sliceOpApply_completes hruns hops hline hwindow hg htodo hclean
  case stream => exact streamEntryExpiry_completes he hlive hruns

/-! ### L1 lines answer messages (R185) -/

/-- What a message of an L1 line may change between two machines: the line, the accesses and the tick of its core, and the messages in flight. -/
structure Dev.AtL1 (c : CoreId) (l : Nat) (d e : Dev) : Prop where
  only : Only [.cores, .msgs, .mesh] d e
  others : ∀ k, k ≠ c → e.core k = d.core k
  lines : ∀ m, m ≠ l → e.l1 c m = d.l1 c m
  core : e.core c = { d.core c with l1 := (e.core c).l1, ops := (e.core c).ops, tick := (e.core c).tick }

namespace Dev.AtL1
variable {c : CoreId} {l : Nat} {d e : Dev}

theorem refl (c : CoreId) (l : Nat) (d : Dev) : Dev.AtL1 c l d d := ⟨Only.refl _ d, fun _ _ => rfl, fun _ _ => rfl, rfl⟩

/-- A change of the core's record that concerns the line alone. -/
theorem setCore (h : Dev.AtL1 c l d e) (f : Core → Core) (hf : ∀ k, f k = { k with l1 := (f k).l1, ops := (f k).ops, tick := (f k).tick })
    (hl : ∀ k m, m ≠ l → kfind (f k).l1 m = kfind k.l1 m) : Dev.AtL1 c l d (e.setCore c f) := by
  refine ⟨h.only.setCore _ _ (by simp), fun k hk => ?_, fun m hm => ?_, ?_⟩
  · rw [Dev.core_setCore_ne _ _ _ _ hk, h.others k hk]
  · rw [Dev.l1, Dev.core_setCore, hl _ _ hm]
    exact h.lines m hm
  · rw [Dev.core_setCore, hf, h.core]

theorem setL1 (h : Dev.AtL1 c l d e) (u : L1Line) : Dev.AtL1 c l d (e.setL1 c l u) :=
  h.setCore _ (fun _ => rfl) (fun _ _ hm => kfind_kset_ne _ _ _ _ hm)
theorem delL1 (h : Dev.AtL1 c l d e) : Dev.AtL1 c l d (e.delL1 c l) :=
  h.setCore _ (fun _ => rfl) (fun _ _ hm => kfind_kdel_ne _ _ _ hm)
theorem touchL1 (h : Dev.AtL1 c l d e) : Dev.AtL1 c l d (e.touchL1 c l) :=
  h.setCore _ (fun k => by split <;> rfl) (fun k m hm => by
    split
    · exact kfind_kset_ne _ _ _ _ hm
    · rfl)
theorem fillLoads (h : Dev.AtL1 c l d e) (data : Line) (p : BitVec 2) : Dev.AtL1 c l d (e.fillLoads c l data p) :=
  h.setCore _ (fun _ => rfl) (fun _ _ _ => rfl)
theorem setOp (h : Dev.AtL1 c l d e) (n : Nat) (f : OutOp → OutOp) : Dev.AtL1 c l d (e.setOp c n f) := h.setCore _ (fun _ => rfl) (fun _ _ _ => rfl)
theorem reap (h : Dev.AtL1 c l d e) : Dev.AtL1 c l d (e.reap c) := h.setCore _ (fun _ => rfl) (fun _ _ _ => rfl)
theorem send (h : Dev.AtL1 c l d e) (m : Msg) : Dev.AtL1 c l d (e.send m) := ⟨h.only.send m (by simp) (by simp), h.others, h.lines, h.core⟩

theorem take (h : Dev.AtL1 c l d e) (k : MsgKind) (n : Nat) (b : Option CoreId) : Dev.AtL1 c l d (e.take k n b) := by
  have hcores : (e.take k n b).cores = e.cores := (Dev.take_only e k n b).cores (by simp)
  have hcore : ∀ m, (e.take k n b).core m = e.core m := fun m => by rw [Dev.core, hcores]; rfl
  exact ⟨h.only.take k n b (by simp) (by simp), fun m hm => (hcore m).trans (h.others m hm), fun m hm => by rw [Dev.l1, hcore]; exact h.lines m hm,
    by rw [hcore]; exact h.core⟩

theorem onlyL1 {s : State} (h : Dev.AtL1 c l s.dev e) : OnlyL1 c l s { s with dev := e } := ⟨h.only.keeps, h.others, h.lines, h.core⟩

end Dev.AtL1

@[simp] theorem Dev.core_take (d : Dev) (k : MsgKind) (l : Nat) (b : Option CoreId) (c : CoreId) : (d.take k l b).core c = d.core c := by
  rw [Dev.core, (Dev.take_only d k l b).cores (by simp)]
  rfl

@[simp] theorem Dev.l1St_take (d : Dev) (k : MsgKind) (l m : Nat) (b : Option CoreId) (c : CoreId) : (d.take k l b).l1St c m = d.l1St c m := by
  simp only [Dev.l1St, Dev.l1, Dev.core_take]

/-- What has been exchanged is told by the messages alone. -/
theorem Exchanged.congr {k k' : MsgKind} {l : Nat} {c c' : Option CoreId} {data : Line} {p : BitVec 2} {s t u : State} (h : Exchanged k l c k' c' data p s t)
    (hu : u.dev.msgs = t.dev.msgs) : Exchanged k l c k' c' data p s u := by
  obtain ⟨m, hm, hrest⟩ := h
  exact ⟨m, hu.trans hm, hrest⟩

/-- A core none of whose accesses waits has nothing to advance. -/
theorem X.pump_settled {y : X} {c : CoreId} (hdone : ∀ o ∈ (y.dev.core c).ops, o.accs = []) (hsplit : y.AllSplit) : y.pump c = y.on (fun d => d.reap c) := by
  have hop : ∀ id, X.pumpOp c y id = y := fun id => by
    rw [X.pumpOp]
    split
    · rfl
    · rename_i o hfind
      rw [hdone o (List.mem_of_find?_eq_some hfind)]
      rfl
  have hpass : ∀ ids : List Nat, ids.foldl (X.pumpOp c) y = y := fun ids => by
    induction ids with
    | nil => rfl
    | cons id ids ih => rw [List.foldl_cons, hop, ih]
  simp only [X.pump, hpass, Traffic.remotePump y c hsplit]

section Messages
variable {s : State} {c : CoreId} {a : Addr} {l : Nat} (hl : l = a.toNat / 128) (hruns : s.dev.runs (dieOfCore c) = true)
include hl hruns

/-- A message for a running core's L1 acts on the line as it stands. -/
theorem completes_onL1 {i : Instr} {k : MsgKind} {data w : Line} {po p : BitVec 2} {f : Nat → L1St → Line → BitVec 2 → X → X} {P : State → Prop} (F : Dev → Dev)
    (h : exec i s = onL1 s k c a data po f) (harr : s.dev.arrives k l (some c) = true)
    (hdata : ((s.dev.flying k l (some c)).map (fun m => (m.data, m.poison))).getD (data, po) = (w, p))
    (hf : f l (s.dev.l1St c l) w p (s.view.on (fun d => d.take k l (some c))) = (s.view.on (fun d => d.take k l (some c))).on F)
    (hp : P { s with dev := F (s.dev.take k l (some c)) }) : Completes i s P := by
  refine completes_quiet h (y := (s.view.on (fun d => d.take k l (some c))).on F) ?_ rfl rfl hp
  simp only [State.view_dev, ← hl, hruns, harr, Bool.and_self, if_true, hdata, X.on_dev, Dev.l1St_take]
  exact hf

omit hl hruns in
/-- The data of a message is that in flight, or its own where none is. -/
theorem Dev.Delivers.data {k : MsgKind} {data : Line} {po : BitVec 2} (h : s.dev.Delivers k l c data po) :
    ((s.dev.flying k l (some c)).map (fun m => (m.data, m.poison))).getD (data, po) = (data, po) := by
  obtain ⟨-, hflying⟩ := h
  cases hm : s.dev.flying k l (some c) with
  | none => rfl
  | some m =>
    obtain ⟨rfl, rfl⟩ := hflying m hm
    rfl

end Messages

section Waits
variable {d : Dev} {c : CoreId} {l : Nat} {o : OutOp} (hops : (d.core c).ops = [o]) (hhere : ∀ b ∈ o.accs, b.line = l) (hglobal : o.space = .global)
include hhere

theorem OutOp.capture_accs (data : Line) (p : BitVec 2) : (o.capture l data p).accs = [] := by
  simpa [OutOp.capture] using hhere

theorem OutOp.dropLine_accs : (o.dropLine l).accs = [] := by
  simpa [OutOp.dropLine] using hhere

include hops hglobal

/-- Data of a line completes the one load that waits for it. -/
theorem Dev.ops_fillLoads (hwaits : o.accs ≠ []) (hkind : o.kind = .load) (data : Line) (p : BitVec 2) :
    ((d.fillLoads c l data p).core c).ops = [o.capture l data p] := by
  have hany : o.accs.any (fun b => b.line == l) = true := by
    obtain ⟨b, hb⟩ := List.exists_mem_of_ne_nil _ hwaits
    exact List.any_eq_true.2 ⟨b, hb, beq_iff_eq.2 (hhere b hb)⟩
  have hgo : (d.core c).mayGo o l = true := X.Alone.mayGo_load (y := { dev := d, mem := State.reset.mem, mram := State.reset.mram }) hops hkind l
  simp only [Dev.fillLoads, Dev.core_setCore, hops, List.map_cons, List.map_nil, hkind, hglobal, hany, hgo, beq_self_eq_true, Bool.and_self, if_true]

/-- The one store that waits for a line is the one that is due. -/
theorem Core.dueStore_eq (hwaits : o.accs ≠ []) (hkind : o.kind = .store) (hsent : ∀ b ∈ o.accs, b.sent = false) : (d.core c).dueStore l = some o := by
  obtain ⟨b, bs, haccs⟩ := List.exists_cons_of_ne_nil hwaits
  have hb : b ∈ o.accs := haccs ▸ List.mem_cons_self
  have hany : o.accs.any (fun b => b.line == l && !b.sent) = true := List.any_eq_true.2 ⟨b, hb, by rw [hhere b hb, hsent b hb]; simp⟩
  have hgo : (d.core c).mayGo o l = true :=
    hhere b hb ▸ X.Alone.mayGo_store (y := { dev := d, mem := State.reset.mem, mram := State.reset.mram }) hops hkind haccs
  simp only [Core.dueStore, hops, List.find?_cons, hkind, hglobal, hany, hgo, beq_self_eq_true, Bool.and_self]

end Waits

section LineOf
variable (d : Dev) (c : CoreId) (l : Nat)

@[simp] theorem Dev.l1_setL1 (u : L1Line) : (d.setL1 c l u).l1 c l = some u := by simp only [Dev.l1, Dev.setL1, Dev.core_setCore, kfind_kset]
@[simp] theorem Dev.l1_delL1 : (d.delL1 c l).l1 c l = none := by simp only [Dev.l1, Dev.delL1, Dev.core_setCore, kfind_kdel]
@[simp] theorem Dev.l1_fillLoads (a : Line) (p : BitVec 2) : (d.fillLoads c l a p).l1 c l = d.l1 c l := by simp only [Dev.l1, Dev.fillLoads, Dev.core_setCore]
@[simp] theorem Dev.l1_setOp (n : Nat) (f : OutOp → OutOp) : (d.setOp c n f).l1 c l = d.l1 c l := by simp only [Dev.l1, Dev.setOp, Dev.core_setCore]
@[simp] theorem Dev.l1_reap : (d.reap c).l1 c l = d.l1 c l := by simp only [Dev.l1, Dev.reap, Dev.core_setCore]
@[simp] theorem Dev.l1_send (m : Msg) : (d.send m).l1 c l = d.l1 c l := rfl

/-- A line set and touched is the most recent of its set. -/
@[simp] theorem Dev.l1_touchL1_setL1 (u : L1Line) : ((d.setL1 c l u).touchL1 c l).l1 c l = some { u with used := (d.core c).tick + 1 } := by
  simp only [Dev.l1, Dev.touchL1, Dev.setL1, Dev.core_setCore, kfind_kset]

@[simp] theorem Dev.ops_setL1 (u : L1Line) : ((d.setL1 c l u).core c).ops = (d.core c).ops := by simp only [Dev.setL1, Dev.core_setCore]
@[simp] theorem Dev.ops_delL1 : ((d.delL1 c l).core c).ops = (d.core c).ops := by simp only [Dev.delL1, Dev.core_setCore]
@[simp] theorem Dev.ops_touchL1 : ((d.touchL1 c l).core c).ops = (d.core c).ops := by
  simp only [Dev.touchL1, Dev.core_setCore]
  split <;> rfl
@[simp] theorem Dev.ops_send (m : Msg) : ((d.send m).core c).ops = (d.core c).ops := rfl
theorem Dev.ops_reap : ((d.reap c).core c).ops = (d.core c).ops.filter (fun o => !(o.accs.isEmpty && (o.kind == .store || o.kind == .atom false))) := by
  simp only [Dev.reap, Dev.core_setCore]
/-- A change of the core's one operation. -/
theorem Dev.ops_setOp {o : OutOp} (h : (d.core c).ops = [o]) (f : OutOp → OutOp) : ((d.setOp c o.id f).core c).ops = [f o] := by
  simp [Dev.setOp, Dev.core_setCore, h, updFirst]

end LineOf

section Messages
variable {s : State} {c : CoreId} {a : Addr} {l : Nat} (hl : l = a.toNat / 128) (hruns : s.dev.runs (dieOfCore c) = true) (hsplit : s.dev.AllSplit)
include hl hruns

section Waits
variable {o : OutOp} (hops : (s.dev.core c).ops = [o]) (hhere : ∀ b ∈ o.accs, b.line = l) (hwaits : o.accs ≠ []) (hglobal : o.space = .global)
include hsplit hops hhere hwaits hglobal

/-- A message that leaves the line as `G` does, with its data, completes the load. -/
theorem load_completes {i : Instr} {k : MsgKind} {data : Line} {po : BitVec 2} {f : Nat → L1St → Line → BitVec 2 → X → X} (G : Dev → Dev)
    (hkind : o.kind = .load) (hst : s.dev.l1St c l = .isD) (hexec : exec i s = onL1 s k c a data po f) (hdel : s.dev.Delivers k l c data po)
    (hf : ∀ x : X, f l .isD data po x = (x.on (fun d => (G d).fillLoads c l data po)).pump c)
    (hat : Dev.AtL1 c l s.dev (G (s.dev.take k l (some c)))) (hmsgs : ∀ d, (G d).msgs = d.msgs) (hGops : ∀ d, ((G d).core c).ops = (d.core c).ops) :
    Completes i s (fun t => OnlyL1 c l s t ∧ t.dev.msgs = (s.dev.take k l (some c)).msgs ∧ (t.dev.core c).ops = [o.capture l data po] ∧
      t.dev.l1 c l = (G (s.dev.take k l (some c))).l1 c l) := by
  have hG : ((G (s.dev.take k l (some c))).core c).ops = [o] := by rw [hGops, Dev.core_take, hops]
  have hfill := Dev.ops_fillLoads hG hhere hglobal hwaits hkind data po
  have hdone : ∀ p ∈ (((G (s.dev.take k l (some c))).fillLoads c l data po).core c).ops, p.accs = [] := by
    rw [hfill]
    exact List.forall_mem_singleton.2 (OutOp.capture_accs hhere data po)
  have hlater : (s.view.on (fun d => (G (d.take k l (some c))).fillLoads c l data po)).AllSplit := by
    rw [X.AllSplit, X.on_dev, State.view_dev, (hat.fillLoads data po).only.fab (by simp)]
    exact hsplit
  refine completes_onL1 hl hruns (fun d => ((G d).fillLoads c l data po).reap c) hexec hdel.1 hdel.data ?_ ?_
  · rw [hst, hf]
    exact X.pump_settled hdone hlater
  · refine ⟨(hat.fillLoads data po).reap.onlyL1, hmsgs _, ?_, ?_⟩
    · rw [Dev.ops_reap, hfill]
      simp [OutOp.capture, hkind]
    · rw [Dev.l1_reap, Dev.l1_fillLoads]

/-- A message that brings ownership, and with it the line as `w`, performs the store. -/
theorem own_completes {i : Instr} {k : MsgKind} {data v w : Line} {po q p : BitVec 2} {f : Nat → L1St → Line → BitVec 2 → X → X}
    (hkind : o.kind = .store) (hsent : ∀ b ∈ o.accs, b.sent = false) (hexec : exec i s = onL1 s k c a data po f)
    (harr : s.dev.arrives k l (some c) = true) (hdata : ((s.dev.flying k l (some c)).map (fun m => (m.data, m.poison))).getD (data, po) = (v, q))
    (hf : f l (s.dev.l1St c l) v q (s.view.on (fun d => d.take k l (some c))) = (s.view.on (fun d => d.take k l (some c))).ownLine c l w p) :
    Completes i s (fun t => OnlyL1 c l s t ∧ t.dev.msgs = (s.dev.take k l (some c)).msgs ∧ (t.dev.core c).ops = [] ∧
      t.dev.l1 c l = some { o.writeInto l { st := .m, data := w, poison := p, used := 0 } with used := (s.dev.core c).tick + 1 }) := by
  obtain ⟨u, hu⟩ : ∃ u, o.writeInto l { st := .m, data := w, poison := p, used := 0 } = u := ⟨_, rfl⟩
  obtain ⟨e, he⟩ : ∃ e, (((s.dev.take k l (some c)).setL1 c l u).touchL1 c l).setOp c o.id (fun p => p.dropLine l) = e := ⟨_, rfl⟩
  have hat : Dev.AtL1 c l s.dev e := he ▸ ((((Dev.AtL1.refl c l s.dev).take _ _ _).setL1 u).touchL1).setOp _ _
  have heops : (e.core c).ops = [o.dropLine l] := by
    rw [← he]
    exact Dev.ops_setOp _ _ (by rw [Dev.ops_touchL1, Dev.ops_setL1, Dev.core_take, hops]) _
  have hdone : ∀ p ∈ (e.core c).ops, p.accs = [] := by
    rw [heops]
    exact List.forall_mem_singleton.2 (OutOp.dropLine_accs hhere)
  have hlater : (s.view.on (fun _ => e)).AllSplit := by
    rw [X.AllSplit, X.on_dev, hat.only.fab (by simp)]
    exact hsplit
  have hdue : ((s.dev.take k l (some c)).core c).dueStore l = some o := by
    rw [Dev.core_take]
    exact Core.dueStore_eq hops hhere hglobal hwaits hkind hsent
  refine completes_onL1 hl hruns (fun _ => e.reap c) hexec harr hdata ?_ ?_
  · rw [hf]
    simp only [X.ownLine, X.on_dev, State.view_dev, hdue, hu]
    refine Eq.trans ?_ (X.pump_settled (y := s.view.on (fun _ => e)) hdone hlater)
    rw [← he]
    rfl
  · refine ⟨hat.reap.onlyL1, by rw [← he]; rfl, ?_, ?_⟩
    · rw [Dev.ops_reap, heops]
      rw [List.filter_singleton, OutOp.dropLine_accs hhere, show (o.dropLine l).kind = .store from hkind]
      rfl
    · rw [Dev.l1_reap, ← he, Dev.l1_setOp, Dev.l1_touchL1_setL1, hu, Dev.core_take]

omit hsplit in
/-- NOALLOC sends the one store as WrU. -/
theorem noalloc_completes (hkind : o.kind = .store) (hsent : ∀ b ∈ o.accs, b.sent = false) (hst : s.dev.l1St c l = .imD ∨ s.dev.l1St c l = .smD)
    (harr : s.dev.arrives .noAlloc l (some c) = true) :
    Completes (.noalloc c a) s (fun t => OnlyL1 c l s t ∧ Exchanged .noAlloc l (some c) .wrU (some c) (o.wrMask l).2 0 s t ∧
      (t.dev.core c).ops = [{ o with accs := o.accs.map (fun b => { b with sent := true }) }] ∧ t.dev.l1 c l = none) := by
  obtain ⟨⟨w, p⟩, hdata⟩ : ∃ e, ((s.dev.flying .noAlloc l (some c)).map (fun m => (m.data, m.poison))).getD (0, 0) = e := ⟨_, rfl⟩
  have hdue : ((s.dev.take .noAlloc l (some c)).core c).dueStore l = some o := by
    rw [Dev.core_take]
    exact Core.dueStore_eq hops hhere hglobal hwaits hkind hsent
  refine completes_onL1 hl hruns (fun d => ((d.delL1 c l).setOp c o.id (fun p => { p with accs := p.accs.map (fun b => if b.line == l then { b with sent := true } else b) })).send
    { kind := .wrU, line := l, core := some c, mask := (o.wrMask l).1, data := (o.wrMask l).2 })
    (show exec (.noalloc c a) s = execNoalloc c a s from rfl) harr hdata ?_ ?_
  · rcases hst with hst | hst <;> rw [hst] <;> simp only [X.on_dev, State.view_dev, hdue]
  · refine ⟨((((Dev.AtL1.refl c l s.dev).take _ _ _).delL1.setOp _ _).send _).onlyL1,
      exchanged_of_send { kind := .wrU, line := l, core := some c, mask := (o.wrMask l).1, data := (o.wrMask l).2 } rfl rfl, ?_, ?_⟩
    · rw [Dev.ops_send, Dev.ops_setOp _ _ (by rw [Dev.ops_delL1, Dev.core_take, hops])]
      have hmap : o.accs.map (fun b => if b.line == l then { b with sent := true } else b) = o.accs.map (fun b => { b with sent := true }) :=
        List.map_congr_left (fun b hb => if_pos (beq_iff_eq.2 (hhere b hb)))
      rw [hmap]
    · rw [Dev.l1_send, Dev.l1_setOp, Dev.l1_delL1]

end Waits

/-- INV of a shared or absent line is acknowledged. -/
theorem inv_completes (harr : s.dev.arrives .inv l (some c) = true) (hst : s.dev.l1St c l = .i ∨ s.dev.l1St c l = .s) :
    Completes (.inv c a) s (fun t => OnlyL1 c l s t ∧ Exchanged .inv l (some c) .invAck (some c) 0 0 s t ∧ (t.dev.core c).ops = (s.dev.core c).ops ∧
      (s.dev.l1St c l = .s → t.dev.l1 c l = none)) := by
  obtain ⟨⟨w, p⟩, hdata⟩ : ∃ e, ((s.dev.flying .inv l (some c)).map (fun m => (m.data, m.poison))).getD (0, 0) = e := ⟨_, rfl⟩
  have hexec : exec (.inv c a) s = execInv c a s := rfl
  rcases hst with hst | hst
  · refine completes_onL1 hl hruns (fun d => d.send { kind := .invAck, line := l, core := some c }) hexec harr hdata (by rw [hst]) ?_
    exact ⟨(((Dev.AtL1.refl c l s.dev).take _ _ _).send _).onlyL1, exchanged_of_send { kind := .invAck, line := l, core := some c } rfl rfl,
      by rw [Dev.ops_send, Dev.core_take], fun h => by rw [hst] at h; contradiction⟩
  · refine completes_onL1 hl hruns (fun d => (d.delL1 c l).send { kind := .invAck, line := l, core := some c }) hexec harr hdata (by rw [hst]; rfl) ?_
    exact ⟨(((Dev.AtL1.refl c l s.dev).take _ _ _).delL1.send _).onlyL1, exchanged_of_send { kind := .invAck, line := l, core := some c } rfl rfl,
      by rw [Dev.ops_send, Dev.ops_delL1, Dev.core_take], fun _ => by rw [Dev.l1_send, Dev.l1_delL1]⟩

section Recalls
variable {u : L1Line} (hu : s.dev.l1 c l = some u) (hm : u.st = .m)
include hu hm

omit hl hruns in
theorem Dev.l1St_modified : s.dev.l1St c l = .m := by rw [Dev.l1St, hu]; exact hm

/-- RECALLS of a modified line is answered with its data, and leaves it shared. -/
theorem recalls_completes (harr : s.dev.arrives .recallS l (some c) = true) :
    Completes (.recalls c a) s (fun t => OnlyL1 c l s t ∧ t.dev.l1 c l = some { u with st := .s } ∧ (t.dev.core c).ops = (s.dev.core c).ops ∧
      Exchanged .recallS l (some c) .rspData (some c) u.data u.poison s t) := by
  obtain ⟨⟨w, p⟩, hdata⟩ : ∃ e, ((s.dev.flying .recallS l (some c)).map (fun m => (m.data, m.poison))).getD (0, 0) = e := ⟨_, rfl⟩
  have hline : (s.dev.take .recallS l (some c)).l1 c l = some u := by rw [Dev.l1, Dev.core_take]; exact hu
  refine completes_onL1 hl hruns (fun d => (d.send { kind := .rspData, line := l, core := some c, data := u.data, poison := u.poison }).setL1 c l { u with st := .s })
    (show exec (.recalls c a) s = execRecalls c a s from rfl) harr hdata ?_ ?_
  · rw [Dev.l1St_modified hu hm]
    simp only [X.recall, X.on_dev, State.view_dev, hline]
    rfl
  · exact ⟨((((Dev.AtL1.refl c l s.dev).take _ _ _).send _).setL1 _).onlyL1, Dev.l1_setL1 _ _ _ _, by rw [Dev.ops_setL1, Dev.ops_send, Dev.core_take],
      (exchanged_of_send { kind := .rspData, line := l, core := some c, data := u.data, poison := u.poison } rfl rfl).congr rfl⟩

/-- RECALLI of a modified line is answered with its data, and removes it. -/
theorem recalli_completes (harr : s.dev.arrives .recallI l (some c) = true) :
    Completes (.recalli c a) s (fun t => OnlyL1 c l s t ∧ t.dev.l1 c l = none ∧ (t.dev.core c).ops = (s.dev.core c).ops ∧
      Exchanged .recallI l (some c) .rspData (some c) u.data u.poison s t) := by
  obtain ⟨⟨w, p⟩, hdata⟩ : ∃ e, ((s.dev.flying .recallI l (some c)).map (fun m => (m.data, m.poison))).getD (0, 0) = e := ⟨_, rfl⟩
  have hline : (s.dev.take .recallI l (some c)).l1 c l = some u := by rw [Dev.l1, Dev.core_take]; exact hu
  refine completes_onL1 hl hruns (fun d => (d.send { kind := .rspData, line := l, core := some c, data := u.data, poison := u.poison }).delL1 c l)
    (show exec (.recalli c a) s = execRecalli c a s from rfl) harr hdata ?_ ?_
  · rw [Dev.l1St_modified hu hm]
    simp only [X.recall, X.on_dev, State.view_dev, hline]
    rfl
  · exact ⟨(((Dev.AtL1.refl c l s.dev).take _ _ _).send _).delL1.onlyL1, Dev.l1_delL1 _ _ _, by rw [Dev.ops_delL1, Dev.ops_send, Dev.core_take],
      (exchanged_of_send { kind := .rspData, line := l, core := some c, data := u.data, poison := u.poison } rfl rfl).congr rfl⟩

end Recalls

include hsplit in
/-- PUTACK ends XI_A. -/
theorem putack_completes {u : L1Line} (hu : s.dev.l1 c l = some u) (hx : u.st = .xiA) (hops : (s.dev.core c).ops = [])
    (harr : s.dev.arrives .putAck l (some c) = true) :
    Completes (.putack c a) s (fun t => OnlyL1 c l s t ∧ t.dev.msgs = (s.dev.take .putAck l (some c)).msgs ∧ (t.dev.core c).ops = [] ∧ t.dev.l1 c l = none) := by
  obtain ⟨⟨w, p⟩, hdata⟩ : ∃ e, ((s.dev.flying .putAck l (some c)).map (fun m => (m.data, m.poison))).getD (0, 0) = e := ⟨_, rfl⟩
  have hat := ((Dev.AtL1.refl c l s.dev).take .putAck l (some c)).delL1
  have hnone : (((s.dev.take .putAck l (some c)).delL1 c l).core c).ops = [] := by rw [Dev.ops_delL1, Dev.core_take, hops]
  have hst : s.dev.l1St c l = .xiA := by rw [Dev.l1St, hu]; exact hx
  refine completes_onL1 hl hruns (fun d => (d.delL1 c l).reap c) (show exec (.putack c a) s = execPutack c a s from rfl) harr hdata ?_ ?_
  · rw [hst]
    refine X.pump_settled (by rw [X.on_dev, X.on_dev, State.view_dev, hnone]; simp) ?_
    rw [X.AllSplit, X.on_dev, X.on_dev, State.view_dev, hat.only.fab (by simp)]
    exact hsplit
  · exact ⟨hat.reap.onlyL1, rfl, by rw [Dev.ops_reap, hnone]; rfl, by rw [Dev.l1_reap, Dev.l1_delL1]⟩

end Messages

/-- Settles O39, row by row of R185. -/
theorem l1LinesAnswerMessages : Obligations.L1LinesAnswerMessages := by
  intro s c a l k hk hl hruns hsplit
  subst hk
  refine ⟨fun o data poison hops hhere hwaits hglobal => ⟨fun hkind hst => ⟨fun hdel => ?datas, fun hdel => ?datae, fun hdel => ?datau⟩,
      fun hkind hsent hst => ⟨fun hdel => ?datam, fun harr => ?noalloc⟩, fun u hkind hsent hu hst harr => ?grantm⟩,
    fun harr hst => ?inv, fun u hu hm => ⟨fun harr => ?recalls, fun harr => ?recalli⟩, fun u hu hx hops harr => ?putack⟩
  case datas =>
    obtain ⟨t, ht, honly, hmsgs, htops, hline⟩ := load_completes hl hruns hsplit hops hhere hwaits hglobal
      (fun d => (d.setL1 c l { st := .s, data, poison, used := 0 }).touchL1 c l) hkind hst (show exec (.datas c a data poison) s = execDatas c a data poison s from rfl)
      hdel (fun _ => rfl) (((Dev.AtL1.refl c l s.dev).take _ _ _).setL1 _).touchL1 (fun _ => rfl) (fun d => by rw [Dev.ops_touchL1, Dev.ops_setL1])
    exact ⟨t, ht, honly, hmsgs, htops, by rw [hline, Dev.l1_touchL1_setL1, Dev.core_take]⟩
  case datae =>
    obtain ⟨t, ht, honly, hmsgs, htops, hline⟩ := load_completes hl hruns hsplit hops hhere hwaits hglobal
      (fun d => (d.setL1 c l { st := .e, data, poison, used := 0 }).touchL1 c l) hkind hst (show exec (.datae c a data poison) s = execDatae c a data poison s from rfl)
      hdel (fun _ => rfl) (((Dev.AtL1.refl c l s.dev).take _ _ _).setL1 _).touchL1 (fun _ => rfl) (fun d => by rw [Dev.ops_touchL1, Dev.ops_setL1])
    exact ⟨t, ht, honly, hmsgs, htops, by rw [hline, Dev.l1_touchL1_setL1, Dev.core_take]⟩
  case datau =>
    obtain ⟨t, ht, honly, hmsgs, htops, hline⟩ := load_completes hl hruns hsplit hops hhere hwaits hglobal (fun d => d.delL1 c l) hkind hst
      (show exec (.datau c a data poison) s = execDatau c a data poison s from rfl)
      hdel (fun _ => rfl) ((Dev.AtL1.refl c l s.dev).take _ _ _).delL1 (fun _ => rfl) (fun d => Dev.ops_delL1 d c l)
    exact ⟨t, ht, honly, hmsgs, htops, by rw [hline, Dev.l1_delL1]⟩
  case datam =>
    exact own_completes hl hruns hsplit hops hhere hwaits hglobal hkind hsent (show exec (.datam c a data poison) s = execDatam c a data poison s from rfl)
      hdel.1 hdel.data (by rcases hst with hst | hst <;> rw [hst])
  case noalloc => exact noalloc_completes hl hruns hops hhere hwaits hglobal hkind hsent hst harr
  case grantm =>
    obtain ⟨⟨v, q⟩, hdata⟩ : ∃ e, ((s.dev.flying .grantM l (some c)).map (fun m => (m.data, m.poison))).getD (0, 0) = e := ⟨_, rfl⟩
    refine own_completes hl hruns hsplit hops hhere hwaits hglobal hkind hsent (show exec (.grantm c a) s = execGrantm c a s from rfl) harr hdata ?_
    have hline : (s.dev.take .grantM l (some c)).l1 c l = some u := by rw [Dev.l1, Dev.core_take]; exact hu
    have hsmD : s.dev.l1St c l = .smD := by rw [Dev.l1St, hu]; exact hst
    simp only [hsmD, X.on_dev, State.view_dev, hline]
  case inv => exact inv_completes hl hruns harr hst
  case recalls => exact recalls_completes hl hruns hu hm harr
  case recalli => exact recalli_completes hl hruns hu hm harr
  case putack => exact putack_completes hl hruns hsplit hu hx hops harr

/-! ### Host accesses and HDM decoders (R189, R190, R432-R434) -/

section HostAccess
variable {s : State} {a : Addr} {l : Nat} {g : GLine} {inStream : Bool} (hl : l = a.toNat / 128) (hmaps : s.dev.hdmMaps a.toNat = true)
include hl hmaps

/-- A mapped host request whose home's die stands still is held. -/
theorem hostMemrd_held {m : Meta} (hstill : s.dev.runs (dieOfVit (vitOfAddr a.toNat)) = false) (hfence : s.dev.isFenced (dieOfVit (vitOfAddr a.toNat)) = false)
    (hroom : s.dev.host.held.length < 512) :
    Completes (.hostMemrd a m inStream) s (fun t => Keeps [.host] s t ∧
      t.dev.host = { s.dev.host with held := s.dev.host.held ++ [{ addr := l * 128, kind := .memRd m, inStream }] }) := by
  refine completes_quiet (show exec (.hostMemrd a m inStream) s = hostReq s a inStream (.memRd m) from rfl)
    (y := s.view.on (fun d => { d with host := { d.host with held := d.host.held ++ [{ addr := l * 128, kind := .memRd m, inStream }] } })) ?_ rfl rfl
    ⟨((Only.refl [.host] s.dev).with_host _ (by simp)).keeps, rfl⟩
  simp only [State.view_dev, hmaps, hstill, hfence, Bool.not_true, Bool.or_self, Bool.false_eq_true, if_false, hroom, if_true, ← hl]

section Serves
variable (hhome : s.dev.AtHome a)
include hhome

/-- A mapped host request whose home stands ready is served. -/
theorem hostReq_eq (kind : HomeKind) : hostReq s a inStream kind = run s (fun x => x.hostServe { addr := l * 128, kind, inStream }) := by
  obtain ⟨-, hruns, -⟩ := hhome
  simp only [hostReq, run, hmaps, hruns, Bool.not_true, Bool.true_or, Bool.false_eq_true, if_false, if_true, ← hl]

section Refused
variable (hfree : (s.dev.vit (vitOfAddr (l * 128))).held = false)
include hfree

omit hl hmaps hhome in
theorem Dev.hostRefused_free : s.dev.hostRefused (l * 128) inStream = true := by
  rw [Dev.hostRefused, hfree, Bool.not_false, Bool.true_or]

/-- A read of a window of no tenancy is answered with poison, and counted. -/
theorem hostMemrd_refused (m : Meta) :
    Completes (.hostMemrd a m inStream) s (fun t => Keeps [.host, .msgs, .mesh] s t ∧
      t.dev.host = { s.dev.host with refused := min 0xFFFFFFFF (s.dev.host.refused + 1) } ∧
      ∃ u, t.dev.msgs = s.dev.msgs ++ [u] ∧ u.kind = .hostData ∧ u.line = l ∧ u.poison = 3) := by
  have hexec : exec (.hostMemrd a m inStream) s = execHostMemrd a m inStream s := rfl
  refine completes_quiet (hexec.trans (hostReq_eq hl hmaps hhome _))
    (y := s.view.on (fun d => Dev.toPort { d with host := { d.host with refused := min 0xFFFFFFFF (d.host.refused + 1) } } .host l 0 3)) ?_ rfl rfl ?_
  · simp only [X.hostServe, State.view_dev, Dev.hostRefused_free hfree, if_true, Nat.mul_div_cancel l (show 0 < 128 by decide)]
    rfl
  · exact ⟨(((Only.refl [.host, .msgs, .mesh] s.dev).with_host _ (by simp)).send _ (by simp) (by simp)).keeps, rfl, _, rfl, rfl, rfl, rfl⟩

/-- A write of a window of no tenancy is dropped. -/
theorem hostMemwr_refused (mask : BitVec 128) (data : Line) :
    Completes (.hostMemwr a mask data inStream) s (fun t => Keeps [.host, .msgs, .mesh] s t ∧
      ∃ u, t.dev.msgs = s.dev.msgs ++ [u] ∧ u.kind = .wrDone ∧ u.line = l) := by
  have hexec : exec (.hostMemwr a mask data inStream) s = execHostMemwr a mask data inStream s := rfl
  refine completes_quiet (hexec.trans (hostReq_eq hl hmaps hhome _))
    (y := s.view.on (fun d => Dev.send { d with host := { d.host with refused := min 0xFFFFFFFF (d.host.refused + 1) } } { kind := .wrDone, line := l })) ?_ rfl rfl ?_
  · simp only [X.hostServe, State.view_dev, Dev.hostRefused_free hfree, if_true, Nat.mul_div_cancel l (show 0 < 128 by decide)]
    rfl
  · exact ⟨(((Only.refl [.host, .msgs, .mesh] s.dev).with_host _ (by simp)).send _ (by simp) (by simp)).keeps, _, rfl, rfl, rfl⟩

end Refused

section Admitted
variable (hg : s.dev.gline l = some g) (hst : g.st = .i) (hqueue : g.queue = []) (hops : g.ops = 0)
  (hheld : (s.dev.vit (vitOfAddr (l * 128))).held = true) (hopen : (s.dev.vit (vitOfAddr (l * 128))).tspLocked = false)
  (hwatch : s.dev.watch (vitOfAddr (l * 128)) 6 (l * 128) 128 0x3FF = (s.dev, false))
include hheld hopen hwatch

omit hl hmaps hhome in
/-- An admitted host request arrives at its line. -/
theorem hostServe_admitted {kind : HomeKind} (hkind : ∀ m w h, kind ≠ .memWr m w h) :
    s.view.hostServe { addr := l * 128, kind, inStream } = s.view.arrive l { kind, port := .host } := by
  have hadmit : s.dev.hostRefused (l * 128) inStream = false := by rw [Dev.hostRefused, hheld, hopen]; rfl
  simp only [X.hostServe, State.view_dev, hadmit, Bool.false_eq_true, if_false, Nat.mul_div_cancel l (show 0 < 128 by decide), hwatch]
  rfl

omit hl hmaps hhome in
/-- An admitted host write arrives at its line with the hint of its range. -/
theorem hostServe_write {mask : BitVec 128} {data : Line} {h : BitVec 2} :
    ∃ h', s.view.hostServe { addr := l * 128, kind := .memWr mask data h, inStream } = s.view.arrive l { kind := .memWr mask data h', port := .host } := by
  have hadmit : s.dev.hostRefused (l * 128) inStream = false := by rw [Dev.hostRefused, hheld, hopen]; rfl
  refine ⟨BitVec.ofNat 2 (fld s.dev.host.hint.toNat (2 * (vitOfAddr (l * 128)).toNat) 2), ?_⟩
  simp only [X.hostServe, State.view_dev, hadmit, Bool.false_eq_true, if_false, Nat.mul_div_cancel l (show 0 < 128 by decide), hwatch]
  rfl

include hg hst hqueue hops

/-- An admitted read of a free line gets the line's data with its MetaValue. -/
theorem hostMemrd_served (m : Meta) :
    Completes (.hostMemrd a m inStream) s (fun t => OnlyLine l s t ∧
      (∃ u, t.dev.msgs = s.dev.msgs ++ [u] ∧ u.kind = .hostData ∧ u.line = l ∧ u.data = g.data ∧ u.poison = g.poison ∧ u.mvalue = some m) ∧
      ∃ u st sh, t.dev.gline l = some { g with used := u, st := st, sh := sh, owner := (if m = .i then g.owner else none) } ∧
        (m = .i → st = .i) ∧ (m = .s → st = .s ∧ sh.host = true) ∧ (m = .a → st = .oh)) := by
  obtain ⟨y, hmet, hserve⟩ := X.arrive_met hl hhome hg (Only.refl _ s.dev) (r := { kind := .memRd m, port := .host }) (GLine.open'_of_free hst hqueue hops _) rfl
  obtain ⟨u, hline⟩ := hmet.line
  obtain ⟨st, sh, hfx, hrow⟩ : ∃ st sh, y.serve l { kind := .memRd m, port := .host } =
        y.on (fun d => (d.setGline l { g with used := u, st := st, sh := sh, owner := (if m = .i then g.owner else none) }).toPort .host l g.data g.poison (some m)) ∧
      ((m = .i → st = .i) ∧ (m = .s → st = .s ∧ sh.host = true) ∧ (m = .a → st = .oh)) := by
    cases m with
    | i => exact ⟨.i, { g.sh with host := false }, by simp only [X.serve, X.act, hline, hst]; rfl, by simp⟩
    | s => exact ⟨.s, { g.sh with host := true }, by simp only [X.serve, X.act, hline, hst]; rfl, by simp⟩
    | a => exact ⟨.oh, { host := true }, by simp only [X.serve, X.act, hline, hst]; rfl, by simp⟩
  have hexec : exec (.hostMemrd a m inStream) s = execHostMemrd a m inStream s := rfl
  refine completes_quiet (hexec.trans (hostReq_eq hl hmaps hhome _)) ((hostServe_admitted hheld hopen hwatch (by simp)).trans (hserve.trans hfx)) hmet.ops hmet.mops ?_
  exact ⟨((hmet.at'.setGline _).toPort _ _ _ _ _).onlyLine, ⟨_, congrArg (· ++ [_]) hmet.msgs, rfl, rfl, rfl, rfl, rfl⟩, u, st, sh, Dev.gline_setGline _ _ _, hrow⟩

/-- An admitted write of a free line merges its bytes and is answered. -/
theorem hostMemwr_served (mask : BitVec 128) (data : Line) :
    Completes (.hostMemwr a mask data inStream) s (fun t => OnlyLine l s t ∧ (∃ u, t.dev.msgs = s.dev.msgs ++ [u] ∧ u.kind = .wrDone ∧ u.line = l) ∧
      ∃ u, t.dev.gline l =
        some { g with sh := {}, owner := none, data := mergeLine g.data data mask, dirty := true, poison := mergePoison g.poison mask, used := u }) := by
  obtain ⟨h, hwrite⟩ := hostServe_write (inStream := inStream) (mask := mask) (data := data) (h := 0) hheld hopen hwatch
  obtain ⟨y, hmet, hserve⟩ := X.arrive_met hl hhome hg (Only.refl _ s.dev) (r := { kind := .memWr mask data h, port := .host })
    (GLine.open'_of_free hst hqueue hops _) rfl
  obtain ⟨u, hline⟩ := hmet.line
  have hfx : y.serve l { kind := .memWr mask data h, port := .host } =
      y.on (fun d => (d.setGline l { g with sh := {}, owner := none, data := mergeLine g.data data mask, dirty := true, poison := mergePoison g.poison mask, used := u }).send
        { kind := .wrDone, line := l, port := some .host }) := by
    simp only [X.serve, X.act, hline, hst]
    rfl
  have hexec : exec (.hostMemwr a mask data inStream) s = execHostMemwr a mask data inStream s := rfl
  refine completes_quiet (hexec.trans (hostReq_eq hl hmaps hhome _)) (hwrite.trans (hserve.trans hfx)) hmet.ops hmet.mops ?_
  exact ⟨((hmet.at'.setGline _).send _).onlyLine, ⟨_, congrArg (· ++ [_]) hmet.msgs, rfl, rfl⟩, u, Dev.gline_setGline _ _ _⟩

end Admitted
end Serves
end HostAccess

/-- A decoder takes the range committed to it, and says whether it is one that R432 admits. -/
theorem hdmDecoderCommit_completes (s : State) (k : BitVec 5) (base size : BitVec 64) (ways : Byte) {ok : Bool}
    (hok : ok = true ↔ (ways = 1 ∧ size.toNat % 2 ^ 28 = 0 ∧ 0 < size.toNat ∧ base.toNat < 2 ^ 41 ∧ base.toNat % 2 ^ 36 + size.toNat ≤ windowBytes)) :
    Completes (.hdmDecoderCommit k base size ways) s (fun t => Keeps [.host] s t ∧
      t.dev.host = { s.dev.host with hdm := kset s.dev.host.hdm k.toNat { base := base.toNat, size := size.toNat, committed := ok, error := !ok } }) := by
  have hcheck : (ways == 1 && size.toNat % 2 ^ 28 == 0 && decide (0 < size.toNat) && decide (base.toNat < 2 ^ 41) &&
      decide (base.toNat % 2 ^ 36 + size.toNat ≤ windowBytes)) = ok := by
    rw [Bool.eq_iff_iff, hok]
    simp only [Bool.and_eq_true, beq_iff_eq, decide_eq_true_eq, and_assoc]
  refine completes_dev _ (show exec (.hdmDecoderCommit k base size ways) s = execHdmDecoderCommit k base size ways s from rfl) rfl ?_
  simp only [hcheck]
  exact ⟨((Only.refl [.host] s.dev).with_host _ (by simp)).keeps, rfl⟩

/-- Settles O40: an admitted access of a free line is its row of R186, and the rest is the command's own branch. -/
theorem hostAccessesAndDecoders : Obligations.HostAccessesAndDecoders := by
  intro s
  refine ⟨fun a l g inStream hl hmaps => ⟨fun hhome hg hst hqueue hops hheld hopen hwatch => ⟨fun m => ?read, fun mask data => ?write⟩,
      fun hhome hfree => ⟨fun m => ?refusedRead, fun mask data => ?refusedWrite⟩, fun hstill hfence hroom m => ?held⟩, fun a => ?snoop,
    fun k base size ways => ⟨fun hok => ?committed, fun hbad => ?error⟩⟩
  case read => exact hostMemrd_served hl hmaps hhome hg hst hqueue hops hheld hopen hwatch m
  case write => exact hostMemwr_served hl hmaps hhome hg hst hqueue hops hheld hopen hwatch mask data
  case refusedRead => exact hostMemrd_refused hl hmaps hhome hfree m
  case refusedWrite => exact hostMemwr_refused hl hmaps hhome hfree mask data
  case held => exact hostMemrd_held hl hmaps hstill hfence hroom
  case snoop =>
    exact completes_dev _ (show exec (.h2dSnoop a) s = execH2dSnoop a s from rfl) rfl
      ⟨((Only.refl [.msgs, .mesh] s.dev).send _ (by simp) (by simp)).keeps, _, rfl, rfl, rfl⟩
  case committed => exact hdmDecoderCommit_completes s k base size ways (ok := true) (by simpa using hok)
  case error => exact hdmDecoderCommit_completes s k base size ways (ok := false) (by simpa using hbad)

/-! ### Range operations of the Gallery start and end (R172, R174) -/

theorem Dev.stepGrp_only (d : Dev) (g : GRef) (f : Group → Group) : Only [.cores] d (d.stepGrp g f) :=
  Dev.stepGrp_eq d g f ▸ (Only.refl _ d).with_cores _ (by simp)

/-- The record of a range operation: the next in number, of this range. -/
def Dev.newRange (d : Dev) (op : GcOp) (v : VitId) (base len : Nat) (c : CoreId) (own : Owner) (refused : Bool) : RangeOp :=
  { id := d.srv.nextRange, op, v, base, len, core := some c, owner := some own, ring := none, refused }

/-- A range operation recorded. -/
def Dev.recordRange (d : Dev) (r : RangeOp) : Dev := d.onSrv (fun t => { t with nextRange := r.id + 1, ranges := t.ranges ++ [r] })

section Start
variable {s : State} {g : GRef} {b : Block} {q : Group} {p : RPath} {dst ra rl : Byte} {base len : Nat} {own : Owner}
  (hissues : s.dev.Issues g .m b q p) (hready : Ready b q [dst.toNat, ra.toNat, ra.toNat + 1, rl.toNat])
  (hbase : base = q.addr ra.toNat (lowLane p.mask)) (hlen : len = (q.reg rl.toNat (lowLane p.mask)).toNat) (haligned : base % 128 = 0)
  (hwhole : len % 128 = 0) (hsome : 0 < len) (hvalid : s.dev.coreValid b.leader base len = true)
  (hown : own = { slot := g.slot.toNat, grp := g.grp.toNat, launchIx := b.launchIx, block := b.index, seq := b.seq })

section Completes
include hissues hready hbase hlen haligned hwhole hsome hvalid hown

/-- A range instruction on a valid range does what the range's start does, and goes on with the status in its register. -/
theorem range_completes {i : Instr} {op : GcOp} {d : Dev} {st : Nat} {l : List Part} {P : State → Prop} (hexec : exec i s = execRange g op dst ra rl s)
    (hstart : (State.view { s with dev := s.dev.issue g .m }).rangeStart op base len (some g.core) (some own) none =
      ((State.view { s with dev := s.dev.issue g .m }).on (fun _ => d), st))
    (honly : Only l (s.dev.issue g .m) d) (hcores : Part.cores ∉ l)
    (hp : ∀ t, Keeps (.cores :: l) s t → (∀ c, c ≠ g.core → t.dev.core c = s.dev.core c) →
      WentOn { q with regs := kset q.regs (dst.toNat * 32 + lowLane p.mask) (BitVec.ofNat 32 st) } (t.dev.groupOf g) p → Only [.cores] d t.dev → P t) :
    Completes i s P := by
  obtain ⟨-, hgrp, hpath, -⟩ := id hissues
  have hgroup : b.groups[g.grp.toNat]? = some q := ((Dev.grp_iff _ _ _ _).1 hgrp).2
  have hdgrp : d.grp g = some (b, q) := by rw [honly.grp hcores, Dev.grp_issue, hgrp]
  have hchecks : (base % 128 != 0 || len % 128 != 0) = false := by rw [haligned, hwhole]; rfl
  have hgo : (len == 0 || !(s.dev.issue g .m).coreValid b.leader base len) = false := by
    have hok : (s.dev.issue g .m).coreValid b.leader base len = true := hvalid
    rw [hok, Bool.not_true, Bool.or_false]
    exact beq_false_of_ne (by omega)
  have hnext : exec i s = .next { s with dev := d.stepGrp g (fun h => (h.setReg dst.toNat (lowLane p.mask) (BitVec.ofNat 32 st)).next) } := by
    rw [hexec, execRange, onGroup_issues s g .m _ b q p hissues]
    refine (run_congr _ _ (fun x => x.on (fun _ => d.stepGrp g (fun h => (h.setReg dst.toNat (lowLane p.mask) (BitVec.ofNat 32 st)).next))) ?_).trans (run_on _ _)
    dsimp only
    rw [X.withRegs_ready _ g b q p _ _ hgroup hready]
    subst hbase hlen hown
    simp only [State.view] at hstart
    simp only [hchecks, hgo, hstart, Bool.false_eq_true, if_false]
    rfl
  have hstep := d.stepGrp_only g (fun h => (h.setReg dst.toNat (lowLane p.mask) (BitVec.ofNat 32 st)).next)
  refine ⟨_, hnext, hp _ ?_ (fun c hc => ?_) ?_ hstep⟩
  · have hall : Only (.cores :: l) s.dev (d.stepGrp g (fun h => (h.setReg dst.toNat (lowLane p.mask) (BitVec.ofNat 32 st)).next)) :=
      (((s.dev.issue_only g .m).mono (by simp)).trans (honly.mono (fun _ h => List.mem_cons_of_mem _ h))).trans (hstep.mono (by simp))
    exact hall.keeps
  · rw [Dev.core_stepGrp_ne _ _ _ _ hc, honly.core hcores, Dev.core_issue_ne _ _ _ _ hc]
  · rw [Dev.groupOf_stepGrp _ _ _ _ _ hdgrp]
    exact wentOn_settled_next (q := q.setReg dst.toNat (lowLane p.mask) (BitVec.ofNat 32 st)) hpath

end Completes

section Record
variable {x : X} {v : VitId} (hplace : x.dev.place base ≠ .hole) (hv : v = ((x.dev.place base).vit).getD 0)
include hplace hv

/-- A range operation starts with its record; a GC.PIN of a window begins with its check. -/
theorem X.rangeStart_eq (op : GcOp) (y : X) (st : Nat) (hcheck : (if op == .pin && decide (base < 2 ^ 41) then x.pinRange base len else (x, 0)) = (y, st)) :
    x.rangeStart op base len (some g.core) (some own) none =
      (if op == .pin then (y.on (fun d => d.recordRange (y.dev.newRange op v base len g.core own (st != 0)))).rangeApply (y.dev.newRange op v base len g.core own (st != 0))
        else y.on (fun d => d.recordRange (y.dev.newRange op v base len g.core own (st != 0))), st) := by
  subst hv
  rw [X.rangeStart]
  split
  · rename_i hhole
    exact absurd hhole hplace
  · simp only [hcheck]
    rfl

/-- A range operation that pins no line of a window leaves its record alone. -/
theorem X.rangeStart_record (op : GcOp) (hop : op ≠ .pin ∨ 2 ^ 41 ≤ base) : x.rangeStart op base len (some g.core) (some own) none =
    (x.on (fun d => d.recordRange (x.dev.newRange op v base len g.core own false)), 0) := by
  rcases hop with hop | hpad
  · have hno : (op == .pin) = false := beq_false_of_ne hop
    rw [X.rangeStart_eq hplace hv op x 0 (by rw [hno]; rfl), hno]
    rfl
  · have hno : decide (base < 2 ^ 41) = false := decide_eq_false (by omega)
    rw [X.rangeStart_eq hplace hv op x 0 (by rw [hno, Bool.and_false]; rfl)]
    split
    · rename_i hop
      rw [X.rangeApply]
      simp only [Dev.newRange, eq_of_beq hop, bne_self_eq_false, Bool.false_or, decide_eq_true hpad, if_true]
    · rfl

/-- A GC.PIN that is refused leaves its record, refused. -/
theorem X.rangeStart_refused {y : X} {st : Nat} (hwindow : base < 2 ^ 41) (hcheck : x.pinRange base len = (y, st)) (hst : st ≠ 0) :
    x.rangeStart .pin base len (some g.core) (some own) none = (y.on (fun d => d.recordRange (y.dev.newRange .pin v base len g.core own true)), st) := by
  have hbad : (st != 0) = true := bne_iff_ne.2 hst
  rw [X.rangeStart_eq hplace hv .pin y st (by rw [beq_self_eq_true, Bool.true_and, if_pos (decide_eq_true hwindow), hcheck]), hbad]
  rfl

/-- A GC.PIN of one present line, admitted, pins it. -/
theorem X.rangeStart_pin {l : GLine} (hwindow : base < 2 ^ 41) (hone : len = 128) (hcheck : x.pinRange base len = (x, 0)) (hl : x.dev.gline (base / 128) = some l)
    (hfree : l.pinned = false) :
    x.rangeStart .pin base len (some g.core) (some own) none = (x.on (fun d => ((d.recordRange (x.dev.newRange .pin v base len g.core own false)).setGline (base / 128)
      { l with pinned := true }).setVit (vitOfAddr (base / 128 * 128)) (fun t => { t with pinned := t.pinned + 128 })), 0) := by
  obtain ⟨r, hr⟩ : ∃ r, r = x.dev.newRange .pin v base len g.core own false := ⟨_, rfl⟩
  have happly : (x.on (fun d => d.recordRange r)).rangeApply r = (x.on (fun d => d.recordRange r)).on (fun d => d.pin (base / 128)) := by
    have hlines : rangeOf r.base r.len = [base / 128] := by rw [hr, Dev.newRange, hone]; simp [rangeOf]
    have hnot : (r.refused || decide (2 ^ 41 ≤ r.base)) = false := by
      rw [hr, Dev.newRange, Bool.false_or]
      exact decide_eq_false (by simpa using hwindow)
    have hop : r.op = .pin := by rw [hr]; rfl
    have hline : (x.dev.recordRange r).gline (base / 128) = some l := hl
    simp only [X.rangeApply, hop, hnot, Bool.false_eq_true, if_false, hlines, List.foldl_cons, List.foldl_nil, X.rangeLine, X.pinLine, X.on_dev, hline]
  have hpin : (x.dev.recordRange r).pin (base / 128) = ((x.dev.recordRange r).setGline (base / 128) { l with pinned := true }).setVit (vitOfAddr (base / 128 * 128))
      (fun t => { t with pinned := t.pinned + 128 }) := by
    have hline : (x.dev.recordRange r).gline (base / 128) = some l := hl
    simp only [Dev.pin, hline, hfree, Bool.false_eq_true, if_false]
  rw [X.rangeStart_eq hplace hv .pin x 0 (by rw [beq_self_eq_true, Bool.true_and, if_pos (decide_eq_true hwindow), hcheck])]
  simp only [beq_self_eq_true, if_true, bne_self_eq_false]
  rw [← hr, happly, Prod.mk.injEq]
  refine ⟨?_, rfl⟩
  simp only [X.on, hpin]

end Record

/-- A GC.PIN within its limits is not refused. -/
theorem X.pinRange_admitted {x : X} (hcap : ¬ x.dev.pinCap (vitOfAddr base) < (x.dev.pinnedLines (vitOfAddr base)).length * 128 + len -
      (x.dev.pinnedLines (vitOfAddr base)).countP (fun l => base ≤ l * 128 && l * 128 < base + len) * 128)
    (hfit : x.dev.pinStatus (vitOfAddr base) (x.dev.pinnedLines (vitOfAddr base) ++
      (rangeOf base len).filter (fun l => !(x.dev.pinnedLines (vitOfAddr base)).contains l)) = 0) : x.pinRange base len = (x, 0) := by
  simp only [X.pinRange, if_neg hcap, hfit]

/-- A GC.PIN beyond its limits is refused with their status, and counted. -/
theorem X.pinRange_refused {x : X} {st : Nat} {full : Prop} (hfull : full = (x.dev.pinCap (vitOfAddr base) < (x.dev.pinnedLines (vitOfAddr base)).length * 128 + len -
      (x.dev.pinnedLines (vitOfAddr base)).countP (fun l => base ≤ l * 128 && l * 128 < base + len) * 128))
    (hst : full ∧ st = 1 ∨ ¬full ∧ st = x.dev.pinStatus (vitOfAddr base) (x.dev.pinnedLines (vitOfAddr base) ++
      (rangeOf base len).filter (fun l => !(x.dev.pinnedLines (vitOfAddr base)).contains l)) ∧ st ≠ 0) :
    x.pinRange base len = (x.on (fun d => d.count 0x8015 0xA (vitOfAddr base).toNat), st) := by
  subst hfull
  rcases hst with ⟨hcap, rfl⟩ | ⟨hcap, hfit, hne⟩
  · simp only [X.pinRange, if_pos hcap]
  · simp only [X.pinRange, if_neg hcap, ← hfit]

end Start

/-! #### The end of a range operation -/

section Done
variable {s : State} {id : Word} {r : RangeOp} (hfind : s.dev.srv.ranges.find? (fun r => r.id == id.toNat) = some r) (hruns : s.dev.runs (dieOfVit r.v) = true)
include hfind hruns

/-- GC_RANGE_DONE works on the lines that are still to be worked on, then ends the record or leaves it begun. -/
theorem gcRangeDone_completes {P : State → Prop} {d : Dev}
    (hlines : (if r.begun && r.op != .pin then s.view else s.view.rangeApply r) = s.view.on (fun _ => d))
    (hp : P { s with dev := d.onSrv (fun t => if d.rangeEnded r then { t with ranges := t.ranges.filter (fun q => q.id != id.toNat) }
      else { t with ranges := updFirst (fun q => q.id == id.toNat) (fun q => { q with begun := true }) t.ranges }) }) : Completes (.gcRangeDone id) s P := by
  have hid : r.id = id.toNat := eq_of_beq (List.find?_some hfind :)
  refine completes_quiet (show exec (.gcRangeDone id) s = execGcRangeDone id s from rfl) (y := (s.view.on (fun _ => d)).on (fun d => d.onSrv (fun t =>
    if d.rangeEnded r then { t with ranges := t.ranges.filter (fun q => q.id != id.toNat) }
    else { t with ranges := updFirst (fun q => q.id == id.toNat) (fun q => { q with begun := true }) t.ranges }))) ?_ rfl rfl hp
  simp only [State.view_dev, hfind, hruns, Bool.not_true, Bool.false_eq_true, if_false, hlines, hid]

/-- An operation whose lines are done ends. -/
theorem gcRangeDone_ends (hdone : r.op = .pin ∧ (r.refused = true ∨ 2 ^ 41 ≤ r.base) ∨ r.op = .prefetch ∧ (2 ^ 41 ≤ r.base ∨ r.begun = true) ∨
      r.op ≠ .pin ∧ r.op ≠ .prefetch ∧ s.dev.rangeLines r.base r.len = []) :
    Completes (.gcRangeDone id) s (fun t => Keeps [.srv] s t ∧
      t.dev.srv = { s.dev.srv with ranges := s.dev.srv.ranges.filter (fun q => q.id != id.toNat) }) := by
  have hnothing : (if r.begun && r.op != .pin then s.view else s.view.rangeApply r) = s.view := by
    split
    · rfl
    · rename_i hbegun
      rcases hdone with ⟨hop, hrefused | hpad⟩ | ⟨hop, hpad | hbegun'⟩ | ⟨hpin, hprefetch, hempty⟩
      · simp only [X.rangeApply, hop, hrefused, Bool.true_or, if_true]
      · simp only [X.rangeApply, hop, decide_eq_true hpad, Bool.or_true, if_true]
      · simp only [X.rangeApply, hop, decide_eq_true hpad, if_true]
      · exact absurd (by rw [hbegun', hop]; rfl) hbegun
      · rw [X.rangeApply]
        split
        · contradiction
        · contradiction
        · rw [State.view_dev, hempty]
          rfl
  have hended : s.dev.rangeEnded r = true := by
    rcases hdone with ⟨hop, hrefused | hpad⟩ | ⟨hop, -⟩ | ⟨hpin, -, hempty⟩
    · simp only [Dev.rangeEnded, hop, hrefused, Bool.true_or]
    · simp only [Dev.rangeEnded, hop, decide_eq_true hpad, Bool.or_true, Bool.true_or]
    · simp only [Dev.rangeEnded, hop]
    · rw [Dev.rangeEnded]
      split
      · contradiction
      · rw [hempty]
        rfl
      · rw [hempty]
        rfl
      · rw [hempty]
        rfl
      · rfl
  refine gcRangeDone_completes hfind hruns (d := s.dev) hnothing ?_
  rw [hended]
  exact ⟨((Only.refl [.srv] s.dev).onSrv _ (by simp)).keeps, rfl⟩

/-- GC.UNPIN's line is unpinned. -/
theorem gcRangeDone_unpins {l : Nat} {h g : GLine} (hop : r.op = .unpin) (hbegun : r.begun = false) (hlines : s.dev.rangeLines r.base r.len = [(l, h)])
    (hg : s.dev.gline l = some g) (hpinned : g.pinned = true) :
    Completes (.gcRangeDone id) s (fun t => Keeps [.srv, .gal, .vits] s t ∧
      t.dev.srv = { s.dev.srv with ranges := s.dev.srv.ranges.filter (fun q => q.id != id.toNat) } ∧
      t.dev.gline l = some { g with pinned := false } ∧ (∀ m, m ≠ l → t.dev.gline m = s.dev.gline m) ∧
      (t.dev.vit (vitOfAddr (l * 128))).pinned = (s.dev.vit (vitOfAddr (l * 128))).pinned - 128) := by
  obtain ⟨d, hd⟩ : ∃ d, d = (s.dev.setGline l { g with pinned := false }).setVit (vitOfAddr (l * 128)) (fun v => { v with pinned := v.pinned - 128 }) := ⟨_, rfl⟩
  refine gcRangeDone_completes hfind hruns (d := d) ?_ ?_
  · simp only [hbegun, Bool.false_and, Bool.false_eq_true, if_false, X.rangeApply, hop, State.view_dev, hlines, List.map_cons, List.map_nil, List.foldl_cons,
      List.foldl_nil, X.rangeLine, hg, X.on, Dev.unpin, hpinned, if_true, hd]
  · have hended : d.rangeEnded r = true := by simp only [Dev.rangeEnded, hop]
    have hvit : (d.vit (vitOfAddr (l * 128))).pinned = (s.dev.vit (vitOfAddr (l * 128))).pinned - 128 := by
      rw [hd, Dev.vit_setVit]
      rfl
    rw [hended, hd]
    refine ⟨((((Only.refl [.srv, .gal, .vits] s.dev).setSlice _ _ (by simp)).setVit _ _ (by simp)).onSrv _ (by simp)).keeps, rfl, ?_, fun m hm => ?_, ?_⟩
    · exact Dev.gline_setGline _ _ _
    · exact Dev.gline_setGline_ne _ _ _ _ hm
    · exact hd ▸ hvit

/-- A flush whose line is still to be flushed goes on. -/
theorem gcRangeDone_goesOn {l : Nat} {g : GLine} (hop : r.op = .flush) (hbegun : r.begun = true) (hline : (l, g) ∈ s.dev.rangeLines r.base r.len)
    (hdue : g.rangeDue = true) :
    Completes (.gcRangeDone id) s (fun t => Keeps [.srv] s t ∧ ∃ u ∈ t.dev.srv.ranges, u.id = id.toNat) := by
  have hended : s.dev.rangeEnded r = false := by
    have hany : (s.dev.rangeLines r.base r.len).any (fun e => e.2.rangeDue) = true := List.any_eq_true.2 ⟨_, hline, hdue⟩
    simp only [Dev.rangeEnded, hop, hany, Bool.not_true]
  refine gcRangeDone_completes hfind hruns (d := s.dev) ?_ ?_
  · rw [hbegun, hop]
    rfl
  · rw [hended]
    have hid : r.id = id.toNat := eq_of_beq (List.find?_some hfind :)
    obtain ⟨u, hu, c, -, hc, rfl⟩ := updFirst_mem (fun q : RangeOp => q.id == id.toNat) (fun q => { q with begun := true }) _ r (List.mem_of_find?_eq_some hfind)
      (beq_iff_eq.2 hid)
    exact ⟨((Only.refl [.srv] s.dev).onSrv _ (by simp)).keeps, _, hu, eq_of_beq hc⟩

end Done

/-- Settles O41: a range's start is its check, its record and, for a GC.PIN, its one line; its end is read off the record. -/
theorem rangeOperationsStartAndEnd : Obligations.RangeOperationsStartAndEnd := by
  intro s
  refine ⟨fun g b q p dst ra rl base len v own old new u hissues hready hbase hlen haligned hwhole hsome hvalid hplace hv hown hu hold hnew =>
    ⟨fun op i hi => ?record, fun l hwindow hone hl hfree hnot hcap hfit => ?pins, fun st full hfull hwindow hst => ?refuses⟩,
    fun id r hfind hruns => ⟨fun hdone => ?ends, fun l h g hop hbegun hlines hg hpinned => ?unpins, fun l g hop hbegun hline hdue => ?goesOn⟩⟩
  case record =>
    have hstart := X.rangeStart_record (x := State.view { s with dev := s.dev.issue g .m }) (g := g) (own := own) (len := len) hplace hv op
      (by
        rcases hi with hi | ⟨-, -, hpad⟩
        · exact .inl (fun hop => by simp [hop] at hi)
        · exact .inr hpad)
    have hexec : exec i s = execRange g op dst ra rl s := by
      rcases hi with hi | ⟨rfl, rfl, -⟩
      · simp only [List.mem_cons, Prod.mk.injEq, List.not_mem_nil, or_false] at hi
        rcases hi with ⟨rfl, rfl⟩ | ⟨rfl, rfl⟩ | ⟨rfl, rfl⟩ | ⟨rfl, rfl⟩ | ⟨rfl, rfl⟩ <;> rfl
      · rfl
    refine range_completes hissues hready hbase hlen haligned hwhole hsome hvalid hown hexec hstart ((Only.refl [.srv] _).onSrv _ (by simp)) (by simp)
      (fun t hkeeps hothers hwent hstep => ⟨hkeeps, hothers, hwent, ?_⟩)
    rw [hstep.srv (by simp), hu]
    rfl
  case pins =>
    have hcheck : (State.view { s with dev := s.dev.issue g .m }).pinRange base len = (State.view { s with dev := s.dev.issue g .m }, 0) := by
      subst hnew hold
      exact X.pinRange_admitted (Nat.not_lt.2 hcap) hfit
    have hstart := X.rangeStart_pin (x := State.view { s with dev := s.dev.issue g .m }) (g := g) (own := own) hplace hv hwindow hone hcheck hl hfree
    refine range_completes hissues hready hbase hlen haligned hwhole hsome hvalid hown (show exec (.gcPin g dst ra rl) s = execRange g .pin dst ra rl s from rfl) hstart
      ((((Only.refl [.srv, .gal, .vits] _).onSrv _ (by simp)).setSlice _ _ (by simp)).setVit _ _ (by simp)) (by simp)
      (fun t hkeeps hothers hwent hstep => ⟨hkeeps, hwent, ?_, ?_, ?_⟩)
    · rw [hstep.srv (by simp), hu]
      rfl
    · rw [Dev.gline_of_gal _ _ _ (hstep.gal (by simp))]
      exact Dev.gline_setGline _ _ _
    · rw [hstep.vit (by simp), Dev.vit_setVit]
      rfl
  case refuses =>
    have hne : st ≠ 0 := by
      rcases hst with ⟨-, rfl⟩ | ⟨-, -, hne⟩
      · decide
      · exact hne
    have hcheck := X.pinRange_refused (x := State.view { s with dev := s.dev.issue g .m }) (st := st) (base := base) (len := len) (full := full)
      (by subst hold; exact hfull) (by subst hnew hold; exact hst)
    have hstart := X.rangeStart_refused (x := State.view { s with dev := s.dev.issue g .m }) (g := g) (own := own) hplace hv hwindow hcheck hne
    refine range_completes hissues hready hbase hlen haligned hwhole hsome hvalid hown (show exec (.gcPin g dst ra rl) s = execRange g .pin dst ra rl s from rfl) hstart
      (((Only.refl [.srv, .cnt] _).count _ _ _ _ (by simp)).onSrv _ (by simp)) (by simp) (fun t hkeeps hothers hwent hstep => ⟨hkeeps, hwent, ?_, ?_⟩)
    · rw [hstep.srv (by simp), hu]
      rfl
    · rw [Dev.counter, hstep.cnt (by simp)]
      exact Dev.counter_count (s.dev.issue g .m) _ _ _ _
  case ends => exact gcRangeDone_ends hfind hruns hdone
  case unpins => exact gcRangeDone_unpins hfind hruns hop hbegun hlines hg hpinned
  case goesOn => exact gcRangeDone_goesOn hfind hruns hop hbegun hline hdue

/-! ### Writes of settings (O53) -/

/-! #### A served write of one row -/

/-- The offset at which a write begins: that of an entry whole, or that of a row of a TABLE (R299). -/
def rowOffset (row : Option Nat) (bytes : Nat) : Word :=
  match row with
  | some r => BitVec.ofNat 32 (16 + r * bytes)
  | none => 0

/-- The head of a write of one row. -/
def rowHead (rq : CatReq) (index sub : Nat) (row : Option Nat) (bytes : Nat) : PduHead :=
  { port := rq.port, seq := rq.seq, entry := { index := BitVec.ofNat 16 index, sub := BitVec.ofNat 8 sub }, version := 1, reservedZero := true, offset := rowOffset row bytes,
    length := BitVec.ofNat 16 bytes }

theorem X.writeOwn_eq_request (x : X) (rq : CatReq) (index sub : Nat) (row : Option Nat) (bytes val : Nat) :
    x.writeOwn rq index sub row bytes val = x.request 2 (rowHead rq index sub row bytes) (leBytes val bytes) := rfl

/-- The rows that the bytes of a write stand for (R297, R299). -/
def EntryInfo.rowsOf (t : EntryInfo) (off : Word) (data : List Byte) : Option (KMap Nat) :=
  if t.ty == 12 then rowsAt t off.toNat data else if off != 0 || data.length != t.rowBytes then none else some [(0, leNat data)]

/-- An entry that is not provisioned, and of which a write with these measures sets one row. -/
structure WrittenRow (index sub : Nat) (row : Option Nat) (bytes : Nat) : Prop where
  index_lt : index < 2 ^ 16
  sub_lt : sub < 2 ^ 8
  bytes_lt : bytes < 2 ^ 16
  entry : ∀ t, entryAt index sub = some t → t.access ≠ 4 ∧ ∀ data : List Byte, data.length = bytes → t.rowsOf (rowOffset row bytes) data = some [(row.getD 0, leNat data)]

theorem EntryInfo.rowsOf_whole {t : EntryInfo} (hty : t.ty ≠ 12) (data : List Byte) (hlen : data.length = t.rowBytes) : t.rowsOf 0 data = some [(0, leNat data)] := by
  simp [EntryInfo.rowsOf, hty, hlen]

theorem EntryInfo.rowsOf_row {t : EntryInfo} {r : Nat} (hty : t.ty = 12) (hr : r < t.rows) (hpos : 0 < t.rowBytes) (hmax : t.rowBytes ≤ 1440)
    (hoff : 16 + r * t.rowBytes < 2 ^ 32) (data : List Byte) (hlen : data.length = t.rowBytes) :
    t.rowsOf (rowOffset (some r) t.rowBytes) data = some [(r, leNat data)] := by
  have hstart : (rowOffset (some r) t.rowBytes).toNat = 16 + r * t.rowBytes := Nat.mod_eq_of_lt hoff
  have hne : data ≠ [] := fun h => by rw [h] at hlen; exact absurd hlen.symm (Nat.pos_iff_ne_zero.1 hpos)
  have hrow : ¬ t.rows < r + 1 := by omega
  have hmax' : ¬ 1440 < data.length := by omega
  simp only [EntryInfo.rowsOf, hty, beq_self_eq_true, if_true, rowsAt, hstart]
  simp only [hlen, Nat.add_sub_cancel_left, Nat.mul_div_cancel _ hpos, Nat.mul_mod_left, Nat.div_self hpos, Nat.mod_self] at hmax' ⊢
  rw [if_neg (by simp [hne, hrow, hmax'])]
  simp [List.take_of_length_le (Nat.le_of_eq hlen)]

/-- A request that is served is answered with the status and the bytes of its service (R302, R303). -/
theorem X.request_serves {x y : X} {q : Requester} {op st : Nat} {h : PduHead} {data out : List Byte} (hs : x.dev.Serves h.port h.seq q)
    (hserve : x.serveReq q op h data none = (y, st, out)) (hpub : y.dev.cat.published = true) :
    x.request op h data = y.on (fun d => (d.keep h.port h.seq { port := h.port, opcode := op, status := st, seq := h.seq, data := out }).respond
      { port := h.port, opcode := op, status := st, seq := h.seq, data := out }) := by
  obtain ⟨hp, hproc, hanon, hreq, hauth, hseq⟩ := hs
  have hnew : ¬ (q.lastSeq == some h.seq && q.kept.isSome) = true := by
    intro hsame
    have hlast := hseq h.seq (beq_iff_eq.1 (Bool.and_eq_true_iff.1 hsame).1)
    bv_omega
  have hnext : ¬ (match q.lastSeq with | some n => n + 1 != h.seq | none => false) = true := by
    split
    next n hn => simp [hseq n hn]
    next => exact Bool.false_ne_true
  simp only [X.request, hp, beq_iff_eq, hproc, hanon, hreq, hauth, if_neg hnew, Bool.not_true, Bool.false_eq_true, if_false]
  refine (if_neg hnext).trans ?_
  simp only [hserve, hpub, Bool.not_true, Bool.false_eq_true, if_false]

/-- What a write of one row does, once nothing refuses it. -/
theorem X.serveWrite_row {x y : X} {rq : CatReq} {role : Role} {index sub bytes val st : Nat} {row : Option Nat} {t : EntryInfo} (hw : WrittenRow index sub row bytes)
    (ht : entryAt index sub = some t) (hmay : x.dev.writeRefusal rq.port role t { index := BitVec.ofNat 16 index, sub := BitVec.ofNat 8 sub } = none)
    (hval : val < 256 ^ bytes)
    (hcommit : x.commit role t { index := BitVec.ofNat 16 index, sub := BitVec.ofNat 8 sub } [(row.getD 0, val)] none = (y, st)) :
    x.serveWrite role (rowHead rq index sub row bytes) (leBytes val bytes) none = (y, st, []) := by
  have hrows := (hw.entry t ht).2 (leBytes val bytes) (length_leBytes val bytes)
  have hnat : leNat (leBytes val bytes) = val := (leNat_leBytes val bytes).trans (Nat.mod_eq_of_lt hval)
  have hix : (rowHead rq index sub row bytes).entry.index.toNat = index := Nat.mod_eq_of_lt hw.index_lt
  have hsb : (rowHead rq index sub row bytes).entry.sub.toNat = sub := Nat.mod_eq_of_lt hw.sub_lt
  have hlen : ¬ ((rowHead rq index sub row bytes).length.toNat != (leBytes val bytes).length) = true := by
    rw [length_leBytes, show (rowHead rq index sub row bytes).length.toNat = bytes from Nat.mod_eq_of_lt hw.bytes_lt]; simp
  have hmay' : x.dev.writeRefusal (rowHead rq index sub row bytes).port role t (rowHead rq index sub row bytes).entry = none := hmay
  have hcommit' : x.commit role t (rowHead rq index sub row bytes).entry [(row.getD 0, val)] none = (y, st) := hcommit
  have hdata : (if (t.ty == 12) = true then rowsAt t (rowHead rq index sub row bytes).offset.toNat (leBytes val bytes)
      else if ((rowHead rq index sub row bytes).offset != 0 || (leBytes val bytes).length != t.rowBytes) = true then none
        else some [(0, leNat (leBytes val bytes))]) = some [(row.getD 0, val)] := hrows.trans (by rw [hnat])
  simp only [X.serveWrite, hix, hsb, ht, hmay', if_neg hlen, hdata, hcommit']

/-- The end of a write: an accepted one counts in CATALOGUE_GENERATION (R297). -/
def Dev.settled (d : Dev) (st : Nat) : Dev := if st != stOk && st != stProgress then d else d.nextGen

section Commit
variable {x y : X} {role : Role} {index sub r val st : Nat} {t : EntryInfo}

/-- A value whose write has an effect of its own is taken as that effect says (R297). -/
theorem X.commit_special (hindex : index < 2 ^ 16) (hsub : sub < 2 ^ 8) (haccess : t.access ≠ 4) (h : x.special index sub r (rowMask index sub val) none = some (y, st))
    (hpub : y.dev.cat.published = true) :
    x.commit role t { index := BitVec.ofNat 16 index, sub := BitVec.ofNat 8 sub } [(r, val)] none = (y.on (fun d => d.settled st), st) := by
  have hix : (BitVec.ofNat 16 index).toNat = index := Nat.mod_eq_of_lt hindex
  have hsb : (BitVec.ofNat 8 sub).toNat = sub := Nat.mod_eq_of_lt hsub
  have hrwp : ¬ (t.access == 4 && (x.dev.proc 1).st == 1) = true := by simp [haccess]
  have happly : x.applyRows index sub none [(r, rowMask index sub val)] = (y, st) := by
    simp only [X.applyRows, h]
    split
    · rfl
    · simp [stOk]
  simp only [X.commit, hix, hsb, if_neg hrwp, List.map_cons, List.map_nil, h, Option.isSome_some, if_true, happly, hpub, Bool.not_true, Bool.false_eq_true, if_false,
    Dev.settled]
  split
  · rfl
  · rfl

/-- A value that its range rules refuse changes nothing (R299). -/
theorem X.commit_range (hindex : index < 2 ^ 16) (hsub : sub < 2 ^ 8) (haccess : t.access ≠ 4) (hplain : x.special index sub r (rowMask index sub val) none = none)
    (h : x.rangeStatus t index sub [(r, rowMask index sub val)] = st) (hst : (st != stOk && st != stProgress) = true) :
    x.commit role t { index := BitVec.ofNat 16 index, sub := BitVec.ofNat 8 sub } [(r, val)] none = (x, st) := by
  have hix : (BitVec.ofNat 16 index).toNat = index := Nat.mod_eq_of_lt hindex
  have hsb : (BitVec.ofNat 8 sub).toNat = sub := Nat.mod_eq_of_lt hsub
  have hrwp : ¬ (t.access == 4 && (x.dev.proc 1).st == 1) = true := by simp [haccess]
  obtain ⟨hok, hprogress⟩ := Bool.and_eq_true_iff.1 hst
  simp only [X.commit, hix, hsb, if_neg hrwp, List.map_cons, List.map_nil, hplain, Option.isSome_none, Bool.false_eq_true, if_false, h, hok, hprogress, Bool.and_self,
    if_true]

/-- A value of a plain entry within its range rules is taken (R298). -/
theorem X.commit_plain (hindex : index < 2 ^ 16) (hsub : sub < 2 ^ 8) (haccess : t.access ≠ 4) (hmark : index ≠ 0x8102)
    (hplain : x.special index sub r (rowMask index sub val) none = none) (h : x.rangeStatus t index sub [(r, rowMask index sub val)] = stOk)
    (haccept : x.accept role t { index := BitVec.ofNat 16 index, sub := BitVec.ofNat 8 sub } [(r, rowMask index sub val)] = y) (hpub : y.dev.cat.published = true) :
    x.commit role t { index := BitVec.ofNat 16 index, sub := BitVec.ofNat 8 sub } [(r, val)] none = (y.on (fun d => d.settled stOk), stOk) := by
  have hix : (BitVec.ofNat 16 index).toNat = index := Nat.mod_eq_of_lt hindex
  have hsb : (BitVec.ofNat 8 sub).toNat = sub := Nat.mod_eq_of_lt hsub
  have hrwp : ¬ (t.access == 4 && (x.dev.proc 1).st == 1) = true := by simp [haccess]
  simp only [X.commit, hix, hsb, if_neg hrwp, List.map_cons, List.map_nil, hplain, Option.isSome_none, h, bne_self_eq_false, haccept, Bool.false_eq_true, if_false,
    beq_iff_eq, hmark, Bool.false_and, hpub, Bool.not_true, Dev.settled]
  rfl

end Commit

/-! #### The machine after a served write -/

/-- Machine `e` but for an answer that has been sent and counted: no value of the Catalogue differs. -/
structure Dev.Replied (e d : Dev) : Prop where
  only : Only [.cat] e d
  values : d.cat.acc = e.cat.acc ∧ d.cat.force = e.cat.force

namespace Dev.Replied
variable {e d : Dev} (h : Dev.Replied e d)
include h

theorem acc (i n r : Nat) : d.acc i n r = e.acc i n r := by simp only [Dev.acc, h.values.1]
theorem force (i n r : Nat) : d.force i n r = e.force i n r := by simp only [Dev.force, h.values.2]
theorem vacc (v : VitId) (k n : Nat) (r : Nat := 0) : d.vacc v k n r = e.vacc v k n r := h.acc _ _ _
theorem vset (v : VitId) (k n : Nat) (r : Nat := 0) : d.vset v k n r = e.vset v k n r := h.force _ _ _
theorem vit (v : VitId) : d.vit v = e.vit v := h.only.vit (by simp) v
theorem slice (g : Nat) : d.slice g = e.slice g := by simp only [Dev.slice, h.only.gal (by simp)]
theorem link (l : Nat) : d.link l = e.link l := by simp only [Dev.link, h.only.fab (by simp)]
theorem ring (v : VitId) (r : Nat) : d.ring v r = e.ring v r := by simp only [Dev.ring, h.only.srv (by simp)]
theorem media (n : Nat) : d.media n = e.media n := by simp only [Dev.media, h.only.srv (by simp)]

end Dev.Replied

theorem Dev.settled_only (d : Dev) (st : Nat) : Only [.cat] d (d.settled st) := ((Only.refl _ d)).ite ((Only.refl _ d).onCat _ (by simp))

theorem Dev.replied_settled_answer (d : Dev) (rq : CatReq) (st : Nat) : Dev.Replied d ((d.settled st).answer rq st) := by
  obtain ⟨-, hacc, hforce, -⟩ := (d.settled st).answer_cat rq st
  refine ⟨(d.settled_only st).trans ((d.settled st).answer_only rq st), hacc.trans ?_, hforce.trans ?_⟩
  · unfold Dev.settled; split <;> rfl
  · unfold Dev.settled; split <;> rfl

/-- What a write keeps of the Catalogue beyond its values: whether it is published, and the count of accepted writes. -/
def Dev.sameCount (d e : Dev) : Prop := e.cat.published = d.cat.published ∧ e.cat.gen = d.cat.gen

theorem Dev.sameCount.refl (d : Dev) : d.sameCount d := ⟨rfl, rfl⟩
theorem Dev.sameCount.trans {d e f : Dev} (h : d.sameCount e) (k : e.sameCount f) : d.sameCount f := ⟨k.1.trans h.1, k.2.trans h.2⟩
theorem Dev.sameCount.foldl {β : Type} (f : Dev → β → Dev) (hf : ∀ e b, Dev.sameCount e (f e b)) (bs : List β) (d : Dev) : d.sameCount (bs.foldl f d) :=
  ⟨foldl_keeps (fun e : Dev => e.cat.published) f (fun e b => (hf e b).1) bs d, foldl_keeps (fun e : Dev => e.cat.gen) f (fun e b => (hf e b).2) bs d⟩
theorem Only.sameCount {l : List Part} {d e : Dev} (h : Only l d e) (hcat : Part.cat ∉ l) : d.sameCount e := by
  rw [Dev.sameCount, h.cat hcat]
  exact ⟨rfl, rfl⟩

section RowWrite
variable {i : Instr} {s : State} {rq : CatReq} {q : Requester} {index sub bytes val st : Nat} {row : Option Nat} {F : Dev → Dev}

/-- A served write completes with what its commit comes to, and the answer. -/
theorem rowWrite_completes {P : State → Prop} (hexec : exec i s = run s (fun x => x.writeOwn rq index sub row bytes val)) (hw : WrittenRow index sub row bytes)
    (h : s.dev.Writes rq q index sub) (hval : val < 256 ^ bytes)
    (hcommit : ∀ t, entryAt index sub = some t →
      s.view.commit q.role t { index := BitVec.ofNat 16 index, sub := BitVec.ofNat 8 sub } [(row.getD 0, val)] none = (s.view.on F, st))
    (hpub : (F s.dev).cat.published = true) (hp : P { s with dev := (F s.dev).answer rq st }) : Completes i s P := by
  obtain ⟨hserves, t, ht, hmay⟩ := h
  have hserve : s.view.serveReq q 2 (rowHead rq index sub row bytes) (leBytes val bytes) none = (s.view.on F, st, []) :=
    X.serveWrite_row hw ht hmay hval (hcommit t ht)
  exact completes_on (fun d => (F d).answer rq st) hexec (X.request_serves hserves hserve hpub) hp

/-- A refused value is answered with its status and changes nothing (R297). -/
theorem rowWrite_refused (hexec : exec i s = run s (fun x => x.writeOwn rq index sub row bytes val)) (hw : WrittenRow index sub row bytes)
    (h : s.dev.Writes rq q index sub) (hval : val < 256 ^ bytes)
    (hspecial : s.view.special index sub (row.getD 0) (rowMask index sub val) none = some (s.view, st)) (hst : (st != stOk && st != stProgress) = true) :
    Completes i s (Refused rq st s) := by
  obtain ⟨hout, hacc, hforce, hgen⟩ := s.dev.answer_cat rq st
  refine rowWrite_completes (F := id) hexec hw h hval (fun t ht => ?_) h.1.1 ⟨hout, (s.dev.answer_only rq st).keeps, hacc, hforce, hgen⟩
  refine (X.commit_special hw.index_lt hw.sub_lt (hw.entry t ht).1 hspecial h.1.1).trans ?_
  simp only [Dev.settled, hst, if_true]
  rfl

/-- A machine to which an accepted write has come. -/
theorem Dev.accepted_settled_answer {l : List Part} (honly : Only l s.dev (F s.dev)) (hcount : s.dev.sameCount (F s.dev)) (hcat : Part.cat ∈ l)
    (hst : (st != stOk && st != stProgress) = false) :
    Keeps l s { s with dev := ((F s.dev).settled st).answer rq st } ∧ Accepted rq st s { s with dev := ((F s.dev).settled st).answer rq st } ∧
      Dev.Replied (F s.dev) (((F s.dev).settled st).answer rq st) := by
  have hreply := (F s.dev).replied_settled_answer rq st
  obtain ⟨hout, -, -, hgen⟩ := ((F s.dev).settled st).answer_cat rq st
  refine ⟨(honly.trans (hreply.only.mono (by simpa using hcat))).keeps, ⟨hout, hgen.trans ?_⟩, hreply⟩
  simp only [Dev.settled, hst, Bool.false_eq_true, if_false, Dev.nextGen, Dev.onCat, hcount.2]

/-- An accepted value has its effect, is answered and counts (R297). -/
theorem rowWrite_accepted {l : List Part} (hexec : exec i s = run s (fun x => x.writeOwn rq index sub row bytes val)) (hw : WrittenRow index sub row bytes)
    (h : s.dev.Writes rq q index sub) (hval : val < 256 ^ bytes)
    (hspecial : s.view.special index sub (row.getD 0) (rowMask index sub val) none = some (s.view.on F, st)) (hst : (st != stOk && st != stProgress) = false)
    (honly : Only l s.dev (F s.dev)) (hcount : s.dev.sameCount (F s.dev)) (hcat : Part.cat ∈ l) :
    Completes i s (fun t => Keeps l s t ∧ Accepted rq st s t ∧ Dev.Replied (F s.dev) t.dev) := by
  have hpub : (F s.dev).cat.published = true := hcount.1.trans h.1.1
  refine rowWrite_completes (F := fun d => (F d).settled st) hexec hw h hval
    (fun t ht => X.commit_special hw.index_lt hw.sub_lt (hw.entry t ht).1 hspecial hpub) ?_ (Dev.accepted_settled_answer honly hcount hcat hst)
  simp only [Dev.settled, hst]; exact hpub

/-- A plain value that its range rules refuse (R299). -/
theorem plainWrite_refused (hexec : exec i s = run s (fun x => x.writeOwn rq index sub row bytes val)) (hw : WrittenRow index sub row bytes)
    (h : s.dev.Writes rq q index sub) (hval : val < 256 ^ bytes) (hplain : s.view.special index sub (row.getD 0) (rowMask index sub val) none = none)
    (hrange : ∀ t, entryAt index sub = some t → s.view.rangeStatus t index sub [(row.getD 0, rowMask index sub val)] = st)
    (hst : (st != stOk && st != stProgress) = true) : Completes i s (Refused rq st s) := by
  obtain ⟨hout, hacc, hforce, hgen⟩ := s.dev.answer_cat rq st
  exact rowWrite_completes (F := id) hexec hw h hval (fun t ht => X.commit_range hw.index_lt hw.sub_lt (hw.entry t ht).1 hplain (hrange t ht) hst) h.1.1
    ⟨hout, (s.dev.answer_only rq st).keeps, hacc, hforce, hgen⟩

/-- A plain value within its range rules is taken, is answered and counts (R297, R298). -/
theorem plainWrite_accepted {l : List Part} (hexec : exec i s = run s (fun x => x.writeOwn rq index sub row bytes val)) (hw : WrittenRow index sub row bytes)
    (h : s.dev.Writes rq q index sub) (hval : val < 256 ^ bytes) (hmark : index ≠ 0x8102)
    (hplain : s.view.special index sub (row.getD 0) (rowMask index sub val) none = none)
    (hrange : ∀ t, entryAt index sub = some t → s.view.rangeStatus t index sub [(row.getD 0, rowMask index sub val)] = stOk)
    (haccept : ∀ t, entryAt index sub = some t →
      s.view.accept q.role t { index := BitVec.ofNat 16 index, sub := BitVec.ofNat 8 sub } [(row.getD 0, rowMask index sub val)] = s.view.on F)
    (honly : Only l s.dev (F s.dev)) (hcount : s.dev.sameCount (F s.dev)) (hcat : Part.cat ∈ l) :
    Completes i s (fun t => Keeps l s t ∧ Accepted rq stOk s t ∧ Dev.Replied (F s.dev) t.dev) := by
  have hpub : (F s.dev).cat.published = true := hcount.1.trans h.1.1
  exact rowWrite_completes (F := fun d => (F d).settled stOk) hexec hw h hval
    (fun t ht => X.commit_plain hw.index_lt hw.sub_lt (hw.entry t ht).1 hmark hplain (hrange t ht) (haccept t ht) hpub) hpub
    (Dev.accepted_settled_answer honly hcount hcat rfl)

end RowWrite

/-! #### The entries of the settings -/

/-- Whether an entry is not provisioned and is written whole in so many bytes. -/
def EntryInfo.isWhole (t : EntryInfo) (bytes : Nat) : Bool := t.access != 4 && t.ty != 12 && t.rowBytes == bytes
/-- Whether an entry is a TABLE that is not provisioned, of so many rows of so many bytes. -/
def EntryInfo.isTable (t : EntryInfo) (rows bytes : Nat) : Bool := t.access != 4 && t.ty == 12 && t.rows == rows && t.rowBytes == bytes

theorem writtenRow_whole {index sub bytes : Nat} (hindex : index < 2 ^ 16) (hsub : sub < 2 ^ 8) (hbytes : bytes < 2 ^ 16)
    (h : (entryAt index sub).all (fun t => t.isWhole bytes) = true) : WrittenRow index sub none bytes := by
  refine ⟨hindex, hsub, hbytes, fun t ht => ?_⟩
  rw [ht, Option.all_some, EntryInfo.isWhole, Bool.and_eq_true_iff, Bool.and_eq_true_iff, bne_iff_ne, bne_iff_ne, beq_iff_eq] at h
  obtain ⟨⟨haccess, hty⟩, hrow⟩ := h
  exact ⟨haccess, fun data hlen => EntryInfo.rowsOf_whole hty data (hlen.trans hrow.symm)⟩

theorem writtenRow_table {index sub bytes rows r : Nat} (hindex : index < 2 ^ 16) (hsub : sub < 2 ^ 8) (hbytes : 0 < bytes ∧ bytes ≤ 1440) (hr : r < rows) (hrows : rows ≤ 2 ^ 16)
    (h : (entryAt index sub).all (fun t => t.isTable rows bytes) = true) : WrittenRow index sub (some r) bytes := by
  refine ⟨hindex, hsub, by omega, fun t ht => ?_⟩
  rw [ht, Option.all_some, EntryInfo.isTable, Bool.and_eq_true_iff, Bool.and_eq_true_iff, Bool.and_eq_true_iff, bne_iff_ne, beq_iff_eq, beq_iff_eq, beq_iff_eq] at h
  obtain ⟨⟨⟨haccess, hty⟩, rfl⟩, rfl⟩ := h
  have hoff : r * t.rowBytes ≤ 2 ^ 16 * 1440 := Nat.mul_le_mul (hr.le.trans hrows) hbytes.2
  exact ⟨haccess, fun data hlen => EntryInfo.rowsOf_row hty hr hbytes.1 hbytes.2 (by omega) data hlen⟩

section Block
variable (v : VitId) (k : Nat)

/-- The spelling of an index of a Vitrine's block in the statements. -/
theorem blockIx_of_add (n : Nat) (h : n = 0x3000 + k) : n + v.toNat * 16 = blockIx v k := by subst h; unfold blockIx; omega

theorem blockIx_lt (hk : k < 16) : blockIx v k < 2 ^ 16 := by have := v.isLt; unfold blockIx; omega
theorem blockIx_inBlocks (hk : k < 16) : (decide (0x3000 ≤ blockIx v k) && decide (blockIx v k < 0x3200)) = true := by
  have := v.isLt
  rw [Bool.and_eq_true_iff, decide_eq_true_iff, decide_eq_true_iff]; unfold blockIx; omega
theorem blockIx_mod (hk : k < 16) : blockIx v k % 16 = k := by unfold blockIx; omega
theorem blockIx_vit (hk : k < 16) : BitVec.ofNat 5 ((blockIx v k - 0x3000) / 16) = v := by
  have hv : (blockIx v k - 0x3000) / 16 = v.toNat := by unfold blockIx; omega
  rw [hv, BitVec.ofNat_toNat, BitVec.setWidth_eq]

/-- Every bit written of these entries of a Vitrine's block is kept (R10). -/
theorem rowMask_block (sub val : Nat) (hk : k < 16) (h : k ≠ 8 ∨ sub ≠ 1) : rowMask (blockIx v k) sub val = val := by
  have hforward : ¬ blockIx v k = 0x5001 := by have := v.isLt; unfold blockIx; omega
  have hmasked : ¬ (decide (0x3000 ≤ blockIx v k) && decide (blockIx v k < 0x3200) && blockIx v k % 16 == 8 && sub == 1) = true := by
    rw [blockIx_mod v k hk]; simp; omega
  rw [rowMask, if_neg hmasked, if_neg (by simpa using hforward)]

end Block

section Effects
variable (x : X) (v : VitId) (row val : Nat)

theorem X.special_ring : x.special (blockIx v 1) 1 row val none = some (x.doRingConfig v row (BitVec.ofNat 128 val)) := by
  unfold X.special
  simp only [blockIx_inBlocks v 1 (by decide), blockIx_mod v 1 (by decide), blockIx_vit v 1 (by decide), if_true]
theorem X.special_scratch : x.special (blockIx v 7) 1 row val none = some (x.doScratchSteps v val) := by
  unfold X.special
  simp only [blockIx_inBlocks v 7 (by decide), blockIx_mod v 7 (by decide), blockIx_vit v 7 (by decide), if_true]
theorem X.special_regMiss : x.special (blockIx v 8) 5 row val none = some (x.doRegMiss v (BitVec.ofNat 32 val)) := by
  unfold X.special
  simp only [blockIx_inBlocks v 8 (by decide), blockIx_mod v 8 (by decide), blockIx_vit v 8 (by decide), if_true]
theorem X.special_watch : x.special (blockIx v 0xD) 4 row val none = some (x.doWatch v row val) := by
  unfold X.special
  simp only [blockIx_inBlocks v 0xD (by decide), blockIx_mod v 0xD (by decide), blockIx_vit v 0xD (by decide), if_true]
theorem X.special_trace : x.special (blockIx v 0xD) 5 row val none = some (x.doTraceControl v val) := by
  unfold X.special
  simp only [blockIx_inBlocks v 0xD (by decide), blockIx_mod v 0xD (by decide), blockIx_vit v 0xD (by decide), if_true]
theorem X.special_remoteTimeout : x.special (blockIx v 9) 6 row val none = none := by
  unfold X.special
  simp only [blockIx_inBlocks v 9 (by decide), blockIx_mod v 9 (by decide), if_true]
theorem X.special_powerClass : x.special (blockIx v 0xB) 1 row val none = none := by
  unfold X.special
  simp only [blockIx_inBlocks v 0xB (by decide), blockIx_mod v 0xB (by decide), if_true]

end Effects

theorem writtenRow_scratch (v : VitId) : WrittenRow (blockIx v 7) 1 none 1 := by
  have hentry : ∀ v : VitId, (entryAt (blockIx v 7) 1).all (fun t => t.isWhole 1) = true := by decide +kernel
  exact writtenRow_whole (blockIx_lt v 7 (by decide)) (by decide) (by decide) (hentry v)
theorem writtenRow_regMiss (v : VitId) : WrittenRow (blockIx v 8) 5 none 4 := by
  have hentry : ∀ v : VitId, (entryAt (blockIx v 8) 5).all (fun t => t.isWhole 4) = true := by decide +kernel
  exact writtenRow_whole (blockIx_lt v 8 (by decide)) (by decide) (by decide) (hentry v)
theorem writtenRow_remoteTimeout (v : VitId) : WrittenRow (blockIx v 9) 6 none 4 := by
  have hentry : ∀ v : VitId, (entryAt (blockIx v 9) 6).all (fun t => t.isWhole 4) = true := by decide +kernel
  exact writtenRow_whole (blockIx_lt v 9 (by decide)) (by decide) (by decide) (hentry v)
theorem writtenRow_powerClass (v : VitId) : WrittenRow (blockIx v 0xB) 1 none 1 := by
  have hentry : ∀ v : VitId, (entryAt (blockIx v 0xB) 1).all (fun t => t.isWhole 1) = true := by decide +kernel
  exact writtenRow_whole (blockIx_lt v 0xB (by decide)) (by decide) (by decide) (hentry v)
theorem writtenRow_trace (v : VitId) : WrittenRow (blockIx v 0xD) 5 none 8 := by
  have hentry : ∀ v : VitId, (entryAt (blockIx v 0xD) 5).all (fun t => t.isWhole 8) = true := by decide +kernel
  exact writtenRow_whole (blockIx_lt v 0xD (by decide)) (by decide) (by decide) (hentry v)
theorem writtenRow_ring (v : VitId) (r : RingId) : WrittenRow (blockIx v 1) 1 (some r.toNat) 16 := by
  have hentry : ∀ v : VitId, (entryAt (blockIx v 1) 1).all (fun t => t.isTable 2048 16) = true := by decide +kernel
  exact writtenRow_table (blockIx_lt v 1 (by decide)) (by decide) (by decide) r.isLt (by decide) (hentry v)
theorem writtenRow_watch (v : VitId) (r : BitVec 3) : WrittenRow (blockIx v 0xD) 4 (some r.toNat) 16 := by
  have hentry : ∀ v : VitId, (entryAt (blockIx v 0xD) 4).all (fun t => t.isTable 8 16) = true := by decide +kernel
  exact writtenRow_table (blockIx_lt v 0xD (by decide)) (by decide) (by decide) r.isLt (by decide) (hentry v)
theorem writtenRow_takeover : WrittenRow 0x5200 4 none 4 := writtenRow_whole (by decide) (by decide) (by decide) (by decide +kernel)
theorem writtenRow_profile : WrittenRow 0x2000 2 none 2 := writtenRow_whole (by decide) (by decide) (by decide) (by decide +kernel)
theorem writtenRow_marker : WrittenRow 0x8102 1 none 1 := writtenRow_whole (by decide) (by decide) (by decide) (by decide +kernel)
theorem writtenRow_link (l : LinkId) : WrittenRow 0x5005 1 (some l.val) 1 := writtenRow_table (by decide) (by decide) (by decide) l.isLt (by decide) (by decide +kernel)
theorem writtenRow_media (e : EngineId) : WrittenRow 0xB010 1 (some e.toNat) 1 := writtenRow_table (by decide) (by decide) (by decide) e.isLt (by decide) (by decide +kernel)

theorem ofNat_toNat_self {w : Nat} (b : BitVec w) : BitVec.ofNat w b.toNat = b := by rw [BitVec.ofNat_toNat, BitVec.setWidth_eq]

section Settings
variable {s : State} {rq : CatReq} {q : Requester} {v : VitId}

/-! #### REG_MISS_STATUS (R232) -/

theorem regMissStatus_clears (h : s.dev.Writes rq q (blockIx v 8) 5) (val : Word) : Completes (.regMissStatusWrite rq v val) s (fun t => Keeps [.cat] s t ∧ Accepted rq 0 s t ∧
    t.dev.vacc v 8 5 = (BitVec.ofNat 32 (s.dev.vacc v 8 5) &&& ~~~val).toNat) := by
  obtain ⟨t, hrun, hkeeps, haccepted, hreply⟩ := rowWrite_accepted (l := [.cat]) (st := 0)
    (F := fun d => d.setAcc (blockIx v 8) 5 0 (BitVec.ofNat 32 (d.vacc v 8 5) &&& ~~~val).toNat)
    (show exec (.regMissStatusWrite rq v val) s = run s (fun x => x.writeOwn rq (blockIx v 8) 5 none 4 val.toNat) from rfl) (writtenRow_regMiss v) h val.isLt
    (by rw [rowMask_block v 8 5 _ (by decide) (.inr (by decide)), X.special_regMiss, ofNat_toNat_self]; rfl) rfl ((Only.refl _ _).setAcc _ _ _ _ (by simp)) ⟨rfl, rfl⟩ (by simp)
  exact ⟨t, hrun, hkeeps, haccepted, (hreply.vacc v 8 5).trans (Dev.acc_setAcc _ _ _ _ _)⟩

/-! #### PROFILE_SELECT (R330) -/

theorem isProfile_iff (n : BitVec 16) : isProfile n.toNat = true ↔ n = 1600 ∨ n = 2200 ∨ n = 2800 := by
  simp only [isProfile, Bool.or_eq_true, beq_iff_eq, or_assoc]; bv_omega

theorem profileSelect_takes (h : s.dev.Writes rq q 0x2000 2) (val : BitVec 16)
    (hval : val = 0 ∨ (val = 1600 ∨ val = 2200 ∨ val = 2800) ∧ val.toNat ≤ s.dev.force 0x2000 1 0) :
    Completes (.profileSelect rq val) s (fun t => Keeps [.cat, .pow] s t ∧ Accepted rq 0 s t ∧
      t.dev.pow = { s.dev.pow with profile := if val = 0 then s.dev.force 0x2000 1 0 else val.toNat }) := by
  have hin : ¬ (val.toNat != 0 && !(isProfile val.toNat && decide (val.toNat ≤ s.view.dev.force 0x2000 1 0))) = true := by
    rcases hval with rfl | ⟨hprofile, htop⟩
    · exact Bool.false_ne_true
    · simp [(isProfile_iff val).2 hprofile, htop]
  have hzero : (val.toNat == 0) = decide (val = 0) := by rw [Bool.eq_iff_iff, beq_iff_eq, decide_eq_true_iff]; bv_omega
  obtain ⟨t, hrun, hkeeps, haccepted, hreply⟩ := rowWrite_accepted (l := [.cat, .pow]) (st := 0)
    (F := fun d => ((d.setAcc 0x2000 2 0 val.toNat).onCat (fun c => { c with force := kset c.force (ckey 0x2000 2 0) val.toNat })).onPow (fun p =>
      { p with profile := if val.toNat == 0 then s.dev.force 0x2000 1 0 else val.toNat }))
    (show exec (.profileSelect rq val) s = run s (fun x => x.writeOwn rq 0x2000 2 none 2 val.toNat) from rfl) writtenRow_profile h val.isLt
    (show some (s.view.doProfile val.toNat) = _ by rw [X.doProfile, if_neg hin]; rfl) rfl
    ((((Only.refl _ _).setAcc _ _ _ _ (by simp)).onCat _ (by simp)).onPow _ (by simp)) ⟨rfl, rfl⟩ (by simp)
  refine ⟨t, hrun, hkeeps, haccepted, (hreply.only.pow (by simp)).trans ?_⟩
  simp only [hzero, decide_eq_true_eq]
  rfl

theorem profileSelect_range (h : s.dev.Writes rq q 0x2000 2) (val : BitVec 16) (hne : val ≠ 0)
    (hval : ¬((val = 1600 ∨ val = 2200 ∨ val = 2800) ∧ val.toNat ≤ s.dev.force 0x2000 1 0)) : Completes (.profileSelect rq val) s (Refused rq 2 s) := by
  have hout : (val.toNat != 0 && !(isProfile val.toNat && decide (val.toNat ≤ s.view.dev.force 0x2000 1 0))) = true := by
    have hpos : val.toNat ≠ 0 := by bv_omega
    have hno : (isProfile val.toNat && decide (val.toNat ≤ s.dev.force 0x2000 1 0)) = false := by
      rw [← isProfile_iff] at hval
      rwa [← Bool.not_eq_true, Bool.and_eq_true_iff, decide_eq_true_iff]
    rw [State.view_dev, hno, Bool.not_false, Bool.and_true, bne_iff_ne]
    exact hpos
  exact rowWrite_refused (show exec (.profileSelect rq val) s = run s (fun x => x.writeOwn rq 0x2000 2 none 2 val.toNat) from rfl) writtenRow_profile h val.isLt
    (show some (s.view.doProfile val.toNat) = _ by rw [X.doProfile, if_pos hout]; rfl) rfl

/-! #### MEDIA_ADMIN (R289) -/

theorem mediaAdmin_sets (h : s.dev.Writes rq q 0xB010 1) (e : EngineId) (val : Byte) (hval : val.toNat ≤ 1 ∨ val = 2 ∧ s.dev.mediaHeld e.toNat = []) :
    Completes (.mediaAdmin rq e val) s (fun t => Keeps [.cat, .srv] s t ∧ Accepted rq 0 s t ∧
      t.dev.media e.toNat = { s.dev.media e.toNat with admin := val.toNat } ∧ t.dev.srv.rings = s.dev.srv.rings) := by
  have hin : ¬ (decide (2 < val.toNat) || decide (16 ≤ e.toNat)) = true := by
    have := e.isLt
    rcases hval with hval | ⟨rfl, -⟩ <;> simp <;> omega
  obtain ⟨t, hrun, hkeeps, haccepted, hreply⟩ := rowWrite_accepted (l := [.cat, .srv]) (st := 0)
    (F := fun d => (d.setMedia e.toNat (fun m => { m with admin := val.toNat })).setAcc 0xB010 1 e.toNat val.toNat)
    (show exec (.mediaAdmin rq e val) s = run s (fun x => x.writeOwn rq 0xB010 1 (some e.toNat) 1 val.toNat) from rfl) (writtenRow_media e) h val.isLt
    (show some (s.view.doMediaAdmin e.toNat val.toNat) = _ by
      rw [X.doMediaAdmin, if_neg hin]
      rcases hval with hval | ⟨rfl, hheld⟩
      · have hne : (val.toNat != 2) = true := by rw [bne_iff_ne]; omega
        simp only [hne, if_true]
        rfl
      · have hheld' : (s.view.on (fun d => (d.setMedia e.toNat (fun m => { m with admin := (2 : Byte).toNat })).setAcc 0xB010 1 e.toNat (2 : Byte).toNat)).dev.mediaHeld e.toNat = [] :=
          hheld
        simp only [hheld', List.foldl_nil]
        rfl) rfl (((Only.refl _ _).onSrv _ (by simp)).setAcc _ _ _ _ (by simp)) ⟨rfl, rfl⟩ (by simp)
  refine ⟨t, hrun, hkeeps, haccepted, (hreply.media _).trans (by simp only [Dev.media, Dev.setAcc_srv, Dev.setMedia, Dev.onSrv, kget_kupd]), ?_⟩
  rw [hreply.only.srv (by simp)]
  rfl

theorem mediaAdmin_range (h : s.dev.Writes rq q 0xB010 1) (e : EngineId) (val : Byte) (hval : 2 < val.toNat) : Completes (.mediaAdmin rq e val) s (Refused rq 2 s) :=
  rowWrite_refused (show exec (.mediaAdmin rq e val) s = run s (fun x => x.writeOwn rq 0xB010 1 (some e.toNat) 1 val.toNat) from rfl) (writtenRow_media e) h val.isLt
    (show some (s.view.doMediaAdmin e.toNat val.toNat) = _ by rw [X.doMediaAdmin, if_pos (by simp [hval])]; rfl) rfl

/-! #### MARKER_COMMAND (R423) -/

theorem kget_foldl_kupd {α : Type} (z : α) (f : α → α) (l : List Nat) (hl : l.Nodup) (m : KMap α) (i : Nat) :
    kget z (l.foldl (fun m i => kupd z m i f) m) i = if i ∈ l then f (kget z m i) else kget z m i := by
  induction l generalizing m with
  | nil => simp
  | cons j l ih =>
    obtain ⟨hj, hl⟩ := List.nodup_cons.1 hl
    rw [List.foldl_cons, ih hl]
    by_cases hij : i = j
    · subst hij; simp [hj]
    · rw [kget_kupd_ne _ _ _ _ _ hij]; simp [hij]

theorem Dev.sendMark_only (d : Dev) : Only [.dbg] d d.sendMark := (Only.refl _ d).with_dbg _ (by simp)

/-- MARK goes to every die in service with the marker's number (R423). -/
theorem Dev.toMark_sendMark (d : Dev) (i : Nat) (hi : i < 8) (hfence : d.isFenced i = false) (hout : d.rel.diesOut.getLsbD i = false) :
    kget [] d.sendMark.dbg.toMark i = kget [] d.dbg.toMark i ++ [d.dbg.marker] := by
  refine (kget_foldl_kupd [] (fun l => l ++ [d.dbg.marker]) _ (List.nodup_range.filter _) d.dbg.toMark i).trans (if_pos ?_)
  rw [List.mem_filter]
  exact ⟨List.mem_range.2 hi, by rw [hfence, hout]; rfl⟩

theorem markerCommand_exec {val : Byte} : exec (.markerCommand rq val) s = run s (fun x => x.writeOwn rq 0x8102 1 none 1 val.toNat) := rfl

theorem markerCommand_sends (h : s.dev.Writes rq q 0x8102 1) : Completes (.markerCommand rq 1) s (fun t => Keeps [.cat, .dbg] s t ∧ Accepted rq 0 s t ∧
    t.dev.dbg.marker = (s.dev.dbg.marker + 1) % 2 ^ 32 ∧
    (∀ i, i < 8 → s.dev.isFenced i = false → s.dev.rel.diesOut.getLsbD i = false → kget [] t.dev.dbg.toMark i = kget [] s.dev.dbg.toMark i ++ [s.dev.dbg.marker])) := by
  obtain ⟨t, hrun, hkeeps, haccepted, hreply⟩ := rowWrite_accepted (l := [.cat, .dbg]) (F := Dev.sendMark) (st := 0) (markerCommand_exec (s := s) (rq := rq) (val := 1))
    writtenRow_marker h (by decide) rfl rfl
    (s.dev.sendMark_only.mono (by simp)) (s.dev.sendMark_only.sameCount (by simp)) (by simp)
  have hdbg : t.dev.dbg = s.dev.sendMark.dbg := hreply.only.dbg (by simp)
  refine ⟨t, hrun, hkeeps, haccepted, by rw [hdbg]; rfl, fun i hi hfence hout => ?_⟩
  rw [hdbg]
  exact s.dev.toMark_sendMark i hi hfence hout

theorem markerCommand_nothing (h : s.dev.Writes rq q 0x8102 1) : Completes (.markerCommand rq 0) s (fun t => Keeps [.cat] s t ∧ Accepted rq 0 s t) := by
  obtain ⟨t, hrun, hkeeps, haccepted, -⟩ := rowWrite_accepted (l := [.cat]) (F := id) (st := 0) (markerCommand_exec (s := s) (rq := rq) (val := 0)) writtenRow_marker h
    (by decide) rfl rfl (Only.refl _ _) (Dev.sameCount.refl _) (by simp)
  exact ⟨t, hrun, hkeeps, haccepted⟩

theorem markerCommand_range (h : s.dev.Writes rq q 0x8102 1) (val : Byte) (hval : 1 < val.toNat) : Completes (.markerCommand rq val) s (Refused rq 2 s) :=
  rowWrite_refused markerCommand_exec writtenRow_marker h val.isLt (show some (s.view.doMarker val.toNat) = _ by rw [X.doMarker, if_pos hval]; rfl) rfl

/-! #### GALLERY_SCRATCH_STEPS (R168, R169) -/

/-- The slices of a Vitrine are marked as changing, and no other. -/
theorem Dev.slice_foldl_setSlice (f : Slice → Slice) (l : List Nat) (hl : l.Nodup) (d : Dev) (g : Nat) :
    (l.foldl (fun (e : Dev) k => e.setSlice k f) d).slice g = if g ∈ l then f (d.slice g) else d.slice g := by
  induction l generalizing d with
  | nil => simp
  | cons k l ih =>
    obtain ⟨hk, hl⟩ := List.nodup_cons.1 hl
    rw [List.foldl_cons, ih hl]
    by_cases hgk : g = k
    · subst hgk; simp [hk]
    · rw [Dev.slice_setSlice_ne _ _ _ _ hgk]; simp [hgk]

theorem nodup_slicesOfVit (v : VitId) : (slicesOfVit v).Nodup := List.nodup_range.map (fun _ _ h => Nat.add_left_cancel h)

/-- A resize of a Vitrine's scratchpad begins (R169). -/
def Dev.beginScratch (d : Dev) (v : VitId) (n : Nat) : Dev :=
  (slicesOfVit v).foldl (fun (e : Dev) g => e.setSlice g (fun k => { k with changing := true }))
    ((d.setAcc (blockIx v 7) 1 0 n).setVit v (fun t => { t with resize := some n }))

theorem Dev.beginScratch_sets (d : Dev) (v : VitId) (n : Nat) : Only [.cat, .vits, .gal] d (d.beginScratch v n) ∧
    (d.beginScratch v n).cat = (d.setAcc (blockIx v 7) 1 0 n).cat ∧ (d.beginScratch v n).vits = ((d.setAcc (blockIx v 7) 1 0 n).setVit v (fun t => { t with resize := some n })).vits ∧
    ∀ g, (d.beginScratch v n).slice g = if g ∈ slicesOfVit v then { d.slice g with changing := true } else d.slice g := by
  have hslices : ∀ e : Dev, Only [.gal] e ((slicesOfVit v).foldl (fun (e : Dev) g => e.setSlice g (fun k => { k with changing := true })) e) :=
    fun e => (Only.refl _ e).foldl _ _ (fun e g => (Only.refl _ e).setSlice _ _ (by simp))
  refine ⟨(((Only.refl _ d).setAcc _ _ _ _ (by simp)).setVit _ _ (by simp)).trans ((hslices _).mono (by simp)), (hslices _).cat (by simp), (hslices _).vits (by simp), ?_⟩
  exact Dev.slice_foldl_setSlice _ _ (nodup_slicesOfVit v) _

theorem scratchSteps_exec {n : Byte} : exec (.galleryScratchStepsWrite rq v n) s = run s (fun x => x.writeOwn rq (blockIx v 7) 1 none 1 n.toNat) := rfl

section Scratch
variable {n : Byte} {pv : Nat} (h : s.dev.Writes rq q (blockIx v 7) 1) (hpv : pv = max (max (s.dev.vit v).pvSteps ((s.dev.vit v).pvResize.getD 0)) (s.dev.vacc v 5 2))
include h hpv

theorem scratchSteps_begins (hresize : (s.dev.vit v).resize = none) (hfit : n.toNat + pv ≤ 18) (hpins : s.dev.pinsFit v n.toNat pv = true) :
    Completes (.galleryScratchStepsWrite rq v n) s (fun t => Keeps [.cat, .vits, .gal] s t ∧
        Accepted rq 1 s t ∧ t.dev.vacc v 7 1 = n.toNat ∧ t.dev.vit v = { s.dev.vit v with resize := some n.toNat } ∧ (∀ w, w ≠ v → t.dev.vit w = s.dev.vit w) ∧
        ∀ g, t.dev.slice g = if g ∈ slicesOfVit v then { s.dev.slice g with changing := true } else s.dev.slice g) := by
  obtain ⟨honly, hcat, hvits, hslice⟩ := s.dev.beginScratch_sets v n.toNat
  obtain ⟨t, hrun, hkeeps, haccepted, hreply⟩ := rowWrite_accepted (l := [.cat, .vits, .gal]) (st := 1) (F := fun d => d.beginScratch v n.toNat)
    scratchSteps_exec (writtenRow_scratch v) h n.isLt
    (by
      rw [rowMask_block v 7 1 _ (by decide) (.inl (by decide)), X.special_scratch]
      simp only [X.doScratchSteps, State.view_dev, hresize, ← hpv, Nat.not_lt.2 hfit, hpins, Option.isSome_none, Bool.false_eq_true, Bool.not_true, if_false]
      rfl) rfl honly ⟨by rw [hcat]; rfl, by rw [hcat]; rfl⟩ (by simp)
  refine ⟨t, hrun, hkeeps, haccepted, (hreply.vacc v 7 1).trans ?_, (hreply.vit v).trans ?_, fun w hw => (hreply.vit w).trans ?_, fun g => (hreply.slice g).trans (hslice g)⟩
  · simp only [Dev.vacc, Dev.acc, hcat]; exact Dev.acc_setAcc s.dev (blockIx v 7) 1 0 n.toNat
  · simp only [Dev.vit, hvits]; exact Dev.vit_setVit (s.dev.setAcc _ _ _ _) v _
  · simp only [Dev.vit, hvits]; exact Dev.vit_setVit_ne (s.dev.setAcc _ _ _ _) v w _ hw

omit hpv in
theorem scratchSteps_busy (hresize : (s.dev.vit v).resize ≠ none) : Completes (.galleryScratchStepsWrite rq v n) s (Refused rq 3 s) := by
  refine rowWrite_refused scratchSteps_exec (writtenRow_scratch v) h n.isLt ?_ rfl
  rw [rowMask_block v 7 1 _ (by decide) (.inl (by decide)), X.special_scratch]
  simp only [X.doScratchSteps, State.view_dev, Option.isSome_iff_ne_none.2 hresize, if_true]
  rfl

theorem scratchSteps_range (hresize : (s.dev.vit v).resize = none) (hfit : 18 < n.toNat + pv) : Completes (.galleryScratchStepsWrite rq v n) s (Refused rq 2 s) := by
  refine rowWrite_refused scratchSteps_exec (writtenRow_scratch v) h n.isLt ?_ rfl
  rw [rowMask_block v 7 1 _ (by decide) (.inl (by decide)), X.special_scratch]
  simp only [X.doScratchSteps, State.view_dev, hresize, ← hpv, hfit, Option.isSome_none, Bool.false_eq_true, if_false, if_true]
  rfl

theorem scratchSteps_pinned (hresize : (s.dev.vit v).resize = none) (hfit : n.toNat + pv ≤ 18) (hpins : s.dev.pinsFit v n.toNat pv = false) :
    Completes (.galleryScratchStepsWrite rq v n) s (Refused rq 9 s) := by
  refine rowWrite_refused scratchSteps_exec (writtenRow_scratch v) h n.isLt ?_ rfl
  rw [rowMask_block v 7 1 _ (by decide) (.inl (by decide)), X.special_scratch]
  simp only [X.doScratchSteps, State.view_dev, hresize, ← hpv, Nat.not_lt.2 hfit, hpins, Option.isSome_none, Bool.false_eq_true, Bool.not_false, if_false, if_true]
  rfl

end Scratch

end Settings

section Settings
variable {s : State} {rq : CatReq} {q : Requester} {v : VitId}

/-! #### REMOTE_TIMEOUT_OVERRIDE (R257) and POWER_CLASS (R332) -/

theorem Dev.acc_setAcc_ne (d : Dev) {i a m j b n : Nat} (val : Nat) (h : ckey i a m ≠ ckey j b n) : (d.setAcc j b n val).acc i a m = d.acc i a m := by
  simp only [Dev.acc, Dev.setAcc, Dev.onCat]
  rw [kfind_kset_ne _ _ _ _ h]

theorem Dev.vacc_eq_acc (d : Dev) (v : VitId) (k n r : Nat) : d.vacc v k n r = d.acc (blockIx v k) n r := rfl

/-- A plain value of a Vitrine that does not stand by: accepted, and in force at once where its entry says so (R298). -/
theorem X.accept_block {x : X} {role : Role} {t : EntryInfo} {k n val : Nat} (hk : k < 16) (hn : n < 256) (haccess : t.access ≠ 4)
    (hstand : (x.dev.setAcc (blockIx v k) n 0 val).vacc v 9 4 ≠ 2) :
    x.accept role t { index := BitVec.ofNat 16 (blockIx v k), sub := BitVec.ofNat 8 n } [(0, val)] = x.on (fun d =>
      (d.setAcc (blockIx v k) n 0 val).onCat (fun c => { c with force := if t.moment == 0 then kset c.force (ckey (blockIx v k) n 0) val else c.force })) := by
  have hix : (BitVec.ofNat 16 (blockIx v k)).toNat = blockIx v k := Nat.mod_eq_of_lt (blockIx_lt v k hk)
  have hsb : (BitVec.ofNat 8 n).toNat = n := Nat.mod_eq_of_lt hn
  have hvit : BitVec.ofNat 5 (vitOfIndex (blockIx v k)) = v := by
    rw [vitOfIndex, if_pos (by have := v.isLt; unfold blockIx; omega), blockIx_vit v k hk]
  have hrwp : ¬ (t.access == 4) = true := by simpa using haccess
  simp only [X.accept, hix, hsb, hvit, if_neg hrwp, List.foldl_cons, List.foldl_nil]
  refine if_neg (fun hstandby => hstand ?_)
  obtain ⟨hscope, -⟩ := Bool.and_eq_true_iff.1 hstandby
  exact beq_iff_eq.1 (Bool.and_eq_true_iff.1 hscope).2

/-- Whether an entry is no flag of one bit, and is in force at once or not (R298, R299). -/
def EntryInfo.isPlain (t : EntryInfo) (atOnce : Bool) : Bool := t.rowTy != 1 && (t.moment == 0) == atOnce

theorem EntryInfo.isPlain_of {t : EntryInfo} {index sub : Nat} {b : Bool} (h : (entryAt index sub).all (fun t => t.isPlain b) = true) (ht : entryAt index sub = some t) :
    (t.rowTy == 1) = false ∧ (t.moment == 0) = b := by
  rw [ht, Option.all_some, EntryInfo.isPlain, Bool.and_eq_true_iff, bne_iff_ne, beq_iff_eq] at h
  exact ⟨by simpa using h.1, h.2⟩

/-- The range rules of one row of a plain entry of a Vitrine's block. -/
theorem X.rangeStatus_block {x : X} {t : EntryInfo} {k n val : Nat} (hk : k < 16) (hrow : (t.rowTy == 1) = false) :
    x.rangeStatus t (blockIx v k) n [(0, val)] = x.vitRange v k n [(0, val)] (fun r => (kfind [(0, val)] r).getD (x.dev.acc (blockIx v k) n r)) := by
  simp only [X.rangeStatus, hrow, Bool.false_and, Bool.false_eq_true, if_false, blockIx_inBlocks v k hk, if_true, blockIx_vit v k hk, blockIx_mod v k hk]

section RemoteTimeout
variable (h : s.dev.Writes rq q (blockIx v 9) 6) (val : Word)

theorem remoteTimeout_plain {t : EntryInfo} (ht : entryAt (blockIx v 9) 6 = some t) : (t.rowTy == 1) = false ∧ (t.moment == 0) = true := by
  have hentry : ∀ v : VitId, (entryAt (blockIx v 9) 6).all (fun t => t.isPlain true) = true := by decide +kernel
  exact EntryInfo.isPlain_of (hentry v) ht

theorem remoteTimeout_exec : exec (.remoteTimeoutOverride rq v val) s = run s (fun x => x.writeOwn rq (blockIx v 9) 6 none 4 val.toNat) := rfl

theorem vitRange_remoteTimeout (x : X) (get : Nat → Nat) (rows : KMap Nat) : x.vitRange v 9 6 rows get =
    if get 0 = 0 ∨ x.dev.force 0x5000 2 0 ≤ get 0 ∧ get 0 ≤ 4000000000 then stOk else stRange := by
  simp only [X.vitRange, within, Bool.or_eq_true, beq_iff_eq, Bool.and_eq_true, decide_eq_true_eq]

include h

theorem remoteTimeout_takes (hstand : s.dev.vacc v 9 4 ≠ 2) (hval : val = 0 ∨ s.dev.force 0x5000 2 0 ≤ val.toNat ∧ val.toNat ≤ 4000000000) :
    Completes (.remoteTimeoutOverride rq v val) s (fun t => Keeps [.cat] s t ∧ Accepted rq 0 s t ∧
        t.dev.vacc v 9 6 = val.toNat ∧ t.dev.remoteLimit v = if val = 0 then s.dev.force 0x5000 2 0 else val.toNat) := by
  have hin : val.toNat = 0 ∨ s.dev.force 0x5000 2 0 ≤ val.toNat ∧ val.toNat ≤ 4000000000 := hval.imp_left (fun h => by rw [h]; rfl)
  have hother : ¬ ckey 0x5000 2 0 = ckey (blockIx v 9) 6 0 := by have := v.isLt; unfold ckey blockIx; omega
  obtain ⟨t, hrun, hkeeps, haccepted, hreply⟩ := plainWrite_accepted (l := [.cat])
    (F := fun d => (d.setAcc (blockIx v 9) 6 0 val.toNat).onCat (fun c => { c with force := kset c.force (ckey (blockIx v 9) 6 0) val.toNat }))
    (remoteTimeout_exec val) (writtenRow_remoteTimeout v) h val.isLt (by have := v.isLt; unfold blockIx; omega) (X.special_remoteTimeout _ _ _ _)
    (fun t ht => by
      rw [rowMask_block v 9 6 _ (by decide) (.inl (by decide))]
      refine (X.rangeStatus_block (by decide) (remoteTimeout_plain ht).1).trans ?_
      rw [vitRange_remoteTimeout]
      exact if_pos hin)
    (fun t ht => by
      rw [rowMask_block v 9 6 _ (by decide) (.inl (by decide))]
      refine (X.accept_block (by decide) (by decide) ((writtenRow_remoteTimeout v).entry t ht).1 ?_).trans ?_
      · rw [State.view_dev, Dev.vacc_eq_acc, Dev.acc_setAcc_ne _ _ (ckey_ne_of_sub (by decide) _ _)]
        exact hstand
      · simp only [(remoteTimeout_plain ht).2, if_true])
    (((Only.refl _ _).setAcc _ _ _ _ (by simp)).onCat _ (by simp)) ⟨rfl, rfl⟩ (by simp)
  have hacc : t.dev.vacc v 9 6 = val.toNat := (hreply.vacc v 9 6).trans (Dev.acc_setAcc s.dev _ _ _ _)
  have hforce : t.dev.force 0x5000 2 0 = s.dev.force 0x5000 2 0 := by
    rw [hreply.force]
    simp only [Dev.force, Dev.setAcc, Dev.onCat]
    rw [kfind_kset_ne _ _ _ _ hother]
  refine ⟨t, hrun, hkeeps, haccepted, hacc, ?_⟩
  have hzero : (val.toNat == 0) = decide (val = 0) := by rw [Bool.eq_iff_iff, beq_iff_eq, decide_eq_true_iff]; bv_omega
  simp only [Dev.remoteLimit, hacc, hforce, hzero, decide_eq_true_eq]

theorem remoteTimeout_range (hval : ¬(val = 0 ∨ s.dev.force 0x5000 2 0 ≤ val.toNat ∧ val.toNat ≤ 4000000000)) :
    Completes (.remoteTimeoutOverride rq v val) s (Refused rq 2 s) := by
  have hout : ¬(val.toNat = 0 ∨ s.dev.force 0x5000 2 0 ≤ val.toNat ∧ val.toNat ≤ 4000000000) := fun hin => hval (hin.imp_left (fun h => by bv_omega))
  refine plainWrite_refused (remoteTimeout_exec val) (writtenRow_remoteTimeout v) h val.isLt (X.special_remoteTimeout _ _ _ _) (fun t ht => ?_) rfl
  rw [rowMask_block v 9 6 _ (by decide) (.inl (by decide))]
  refine (X.rangeStatus_block (by decide) (remoteTimeout_plain ht).1).trans ?_
  rw [vitRange_remoteTimeout]
  exact if_neg hout

end RemoteTimeout

section PowerClass
variable (h : s.dev.Writes rq q (blockIx v 0xB) 1) (val : Byte)

theorem powerClass_plain {t : EntryInfo} (ht : entryAt (blockIx v 0xB) 1 = some t) : (t.rowTy == 1) = false ∧ (t.moment == 0) = false := by
  have hentry : ∀ v : VitId, (entryAt (blockIx v 0xB) 1).all (fun t => t.isPlain false) = true := by decide +kernel
  exact EntryInfo.isPlain_of (hentry v) ht

theorem powerClass_exec : exec (.powerClass rq v val) s = run s (fun x => x.writeOwn rq (blockIx v 0xB) 1 none 1 val.toNat) := rfl

include h

theorem powerClass_takes (hstand : s.dev.vacc v 9 4 ≠ 2) (hval : val = 0 ∨ val = 1 ∧ (s.dev.dpow (dieOfVit v)).worn = false) :
    Completes (.powerClass rq v val) s (fun t => Keeps [.cat] s t ∧ Accepted rq 0 s t ∧ t.dev.vacc v 0xB 1 = val.toNat ∧ t.dev.vset v 0xB 1 = s.dev.vset v 0xB 1) := by
  have hother : ¬ ckey (blockIx v 9) 4 0 = ckey (blockIx v 0xB) 1 0 := by have := v.isLt; unfold ckey blockIx; omega
  obtain ⟨t, hrun, hkeeps, haccepted, hreply⟩ := plainWrite_accepted (l := [.cat]) (F := fun d => d.setAcc (blockIx v 0xB) 1 0 val.toNat)
    (powerClass_exec val) (writtenRow_powerClass v) h val.isLt (by have := v.isLt; unfold blockIx; omega) (X.special_powerClass _ _ _ _)
    (fun t ht => by
      rw [rowMask_block v 0xB 1 _ (by decide) (.inl (by decide))]
      refine (X.rangeStatus_block (by decide) (powerClass_plain ht).1).trans ?_
      rcases hval with rfl | ⟨rfl, hworn⟩
      · rfl
      · simp [X.vitRange, hworn, kfind])
    (fun t ht => by
      rw [rowMask_block v 0xB 1 _ (by decide) (.inl (by decide))]
      refine (X.accept_block (by decide) (by decide) ((writtenRow_powerClass v).entry t ht).1 ?_).trans ?_
      · rw [State.view_dev, Dev.vacc_eq_acc, Dev.acc_setAcc_ne _ _ hother]
        exact hstand
      · simp only [(powerClass_plain ht).2, Bool.false_eq_true, if_false]
        rfl)
    ((Only.refl _ _).setAcc _ _ _ _ (by simp)) ⟨rfl, rfl⟩ (by simp)
  exact ⟨t, hrun, hkeeps, haccepted, (hreply.vacc v 0xB 1).trans (Dev.acc_setAcc s.dev _ _ _ _), hreply.vset v 0xB 1⟩

theorem powerClass_range (hval : 1 < val.toNat) : Completes (.powerClass rq v val) s (Refused rq 2 s) := by
  refine plainWrite_refused (powerClass_exec val) (writtenRow_powerClass v) h val.isLt (X.special_powerClass _ _ _ _) (fun t ht => ?_) rfl
  rw [rowMask_block v 0xB 1 _ (by decide) (.inl (by decide))]
  refine (X.rangeStatus_block (by decide) (powerClass_plain ht).1).trans ?_
  have hzero : ¬ val.toNat = 0 := by omega
  have hone : ¬ val.toNat = 1 := by omega
  simp [X.vitRange, kfind, hzero, hone, stRange]

end PowerClass

end Settings

section Settings
variable {s : State} {rq : CatReq} {q : Requester} {v : VitId}

/-! #### WATCHPOINTS (R419) -/

/-- The bits of a watchpoint's row that are kept: all but its low 29. -/
theorem fld_of_low_cleared (val lo w : Nat) (hlo : 29 ≤ lo) : fld (val / 2 ^ 29 * 2 ^ 29) lo w = fld val lo w := by
  obtain ⟨k, rfl⟩ := Nat.exists_eq_add_of_le hlo
  simp only [fld, Nat.shiftRight_eq_div_pow, Nat.pow_add, ← Nat.div_div_eq_div_mul, Nat.mul_div_cancel _ (Nat.two_pow_pos 29)]

theorem watchpoints_exec {row : BitVec 3} {val : BitVec 128} : exec (.watchpoints rq v row val) s = run s (fun x => x.writeOwn rq (blockIx v 0xD) 4 (some row.toNat) 16 val.toNat) := rfl

/-- What a write of a watchpoint's row does in a Vitrine of a tenancy (R419). -/
theorem X.doWatch_eq {x : X} {v : VitId} {l : VitId} (row : Nat) (val : BitVec 128) (hl : (x.dev.vit v).leader = some l) : x.doWatch v row val.toNat =
    if (decide (fld val.toNat 40 44 < fld val.toNat 84 44) || !x.dev.valid l (fld val.toNat 84 44) (fld val.toNat 40 44 - fld val.toNat 84 44 + 1) ||
      (fld val.toNat 30 2 == 3 && !x.dev.debugMode v)) = true then (x, stRange)
    else (x.on (fun d => d.setAcc (blockIx v 0xD) 4 row (val.toNat / 2 ^ 29 * 2 ^ 29)), stOk) := by
  simp only [X.doWatch, hl, Nat.mod_eq_of_lt val.isLt]
  rw [fld_of_low_cleared _ 84 44 (by decide), fld_of_low_cleared _ 40 44 (by decide), fld_of_low_cleared _ 30 2 (by decide)]
  rfl

section Watch
variable (h : s.dev.Writes rq q (blockIx v 0xD) 4) (row : BitVec 3) (val : BitVec 128) {l : VitId} {base limit : Nat} (hl : (s.dev.vit v).leader = some l)
  (hbase : base = fld val.toNat 84 44) (hlimit : limit = fld val.toNat 40 44)
include h hl hbase hlimit

theorem watchpoints_takes (hle : base ≤ limit) (hvalid : s.dev.valid l base (limit - base + 1) = true) (hmode : fld val.toNat 30 2 ≠ 3 ∨ s.dev.debugMode v = true) :
    Completes (.watchpoints rq v row val) s (fun t => Keeps [.cat] s t ∧ Accepted rq 0 s t ∧ t.dev.vacc v 0xD 4 row.toNat = val.toNat / 2 ^ 29 * 2 ^ 29) := by
  have hin : ¬ (decide (limit < base) || !s.dev.valid l base (limit - base + 1) || (fld val.toNat 30 2 == 3 && !s.dev.debugMode v)) = true := by
    rcases hmode with hmode | hmode <;> simp [Nat.not_lt.2 hle, hvalid, hmode]
  subst hbase hlimit
  obtain ⟨t, hrun, hkeeps, haccepted, hreply⟩ := rowWrite_accepted (l := [.cat]) (st := 0) (F := fun d => d.setAcc (blockIx v 0xD) 4 row.toNat (val.toNat / 2 ^ 29 * 2 ^ 29))
    watchpoints_exec (writtenRow_watch v row) h val.isLt
    (by rw [rowMask_block v 0xD 4 _ (by decide) (.inl (by decide)), X.special_watch, Option.getD_some, X.doWatch_eq _ _ hl]; exact congrArg some (if_neg hin))
    rfl ((Only.refl _ _).setAcc _ _ _ _ (by simp)) ⟨rfl, rfl⟩ (by simp)
  exact ⟨t, hrun, hkeeps, haccepted, (hreply.vacc v 0xD 4 row.toNat).trans (Dev.acc_setAcc s.dev _ _ _ _)⟩

theorem watchpoints_range (hout : limit < base ∨ s.dev.valid l base (limit - base + 1) = false ∨ fld val.toNat 30 2 = 3 ∧ s.dev.debugMode v = false) :
    Completes (.watchpoints rq v row val) s (Refused rq 2 s) := by
  have hout' : (decide (limit < base) || !s.dev.valid l base (limit - base + 1) || (fld val.toNat 30 2 == 3 && !s.dev.debugMode v)) = true := by
    rcases hout with hout | hout | ⟨hkind, hmode⟩
    · simp [hout]
    · simp [hout]
    · simp [hkind, hmode]
  subst hbase hlimit
  refine rowWrite_refused watchpoints_exec (writtenRow_watch v row) h val.isLt ?_ rfl
  rw [rowMask_block v 0xD 4 _ (by decide) (.inl (by decide)), X.special_watch, Option.getD_some, X.doWatch_eq _ _ hl]
  exact congrArg some (if_pos hout')

end Watch

/-! #### TRACE_CONTROL (R420) -/

/-- The bits of TRACE_CONTROL that are kept: its address filter, trigger and action, and ENABLE and MODE. -/
def traceBits (val : Nat) : Nat := fld val 8 40 * 256 + val % 4

theorem fld_traceBits_action (val : Nat) : fld (traceBits val) 32 2 = fld val 32 2 := by
  simp only [fld, traceBits, Nat.shiftRight_eq_div_pow]; omega

theorem traceBits_mod_two (val : Nat) : traceBits val % 2 = val % 2 := by
  simp only [traceBits]; omega

/-- The trace buffer after a write of TRACE_CONTROL: ENABLE from 0 to 1 clears it and starts recording, ENABLE 0 stops it (R420). -/
def Trace.enabled (b : Trace) (enable old : Bool) : Trace := if enable && !old then { st := 1 } else if !enable then { b with st := 0 } else b

theorem X.doTraceControl_eq (x : X) (v : VitId) (val : Nat) (h : fld val 32 2 ≠ 3) : x.doTraceControl v val =
    (x.on (fun d => (d.setAcc (blockIx v 0xD) 5 0 (traceBits val)).setVit v (fun t =>
      { t with trace := t.trace.enabled (val % 2 == 1) (x.dev.traceCtl v % 2 == 1) })), stOk) := by
  have hgo : ¬ (fld (traceBits val) 32 2 == 3) = true := by rw [fld_traceBits_action]; simpa using h
  have henable : (fun t : Vit => if traceBits val % 2 == 1 && x.dev.traceCtl v % 2 == 0 then { t with trace := { st := 1 } }
      else if traceBits val % 2 == 0 then { t with trace := { t.trace with st := 0 } } else t) =
      fun t => { t with trace := t.trace.enabled (val % 2 == 1) (x.dev.traceCtl v % 2 == 1) } := by
    funext t
    rw [traceBits_mod_two]
    rcases Nat.mod_two_eq_zero_or_one val with hval | hval <;> rcases Nat.mod_two_eq_zero_or_one (x.dev.traceCtl v) with hold | hold <;> rw [hval, hold] <;> rfl
  rw [← henable]
  exact if_neg hgo

section Trace
variable (h : s.dev.Writes rq q (blockIx v 0xD) 5) (val : BitVec 64)

theorem traceControl_exec : exec (.traceControl rq v val) s = run s (fun x => x.writeOwn rq (blockIx v 0xD) 5 none 8 val.toNat) := rfl

include h

theorem traceControl_takes (haction : fld val.toNat 32 2 ≠ 3) : Completes (.traceControl rq v val) s (fun t => Keeps [.cat, .vits] s t ∧ Accepted rq 0 s t ∧
    t.dev.traceCtl v = fld val.toNat 8 40 * 256 + val.toNat % 4 ∧ (val.getLsbD 0 = true → s.dev.traceCtl v % 2 = 0 → (t.dev.vit v).trace = { st := 1 }) ∧
    (val.getLsbD 0 = true → s.dev.traceCtl v % 2 = 1 → (t.dev.vit v).trace = (s.dev.vit v).trace) ∧
    (val.getLsbD 0 = false → (t.dev.vit v).trace = { (s.dev.vit v).trace with st := 0 }) ∧
    ∀ w, w ≠ v → t.dev.vit w = s.dev.vit w) := by
  obtain ⟨t, hrun, hkeeps, haccepted, hreply⟩ := rowWrite_accepted (l := [.cat, .vits]) (st := 0)
    (F := fun d => (d.setAcc (blockIx v 0xD) 5 0 (traceBits val.toNat)).setVit v (fun t => { t with trace := t.trace.enabled (val.toNat % 2 == 1) (s.dev.traceCtl v % 2 == 1) }))
    (traceControl_exec val) (writtenRow_trace v) h val.isLt
    (by rw [rowMask_block v 0xD 5 _ (by decide) (.inl (by decide)), X.special_trace, X.doTraceControl_eq _ _ _ haction]; rfl)
    rfl (((Only.refl _ _).setAcc _ _ _ _ (by simp)).setVit _ _ (by simp)) ⟨rfl, rfl⟩ (by simp)
  have hbit : val.getLsbD 0 = (val.toNat % 2 == 1) := by
    rw [BitVec.getLsbD, Nat.testBit_zero, Bool.eq_iff_iff, decide_eq_true_iff, beq_iff_eq]
  have htrace : (t.dev.vit v).trace = (s.dev.vit v).trace.enabled (val.toNat % 2 == 1) (s.dev.traceCtl v % 2 == 1) := by
    rw [hreply.vit v, Dev.vit_setVit]; rfl
  refine ⟨t, hrun, hkeeps, haccepted, (hreply.vacc v 0xD 5).trans (Dev.acc_setAcc s.dev _ _ _ _), fun hen hold => ?_, fun hen hold => ?_, fun hen => ?_,
    fun w hw => (hreply.vit w).trans (Dev.vit_setVit_ne _ v w _ hw)⟩
  · rw [htrace, ← hbit, hen, hold]; rfl
  · rw [htrace, ← hbit, hen, hold]; rfl
  · rw [htrace, ← hbit, hen]; rfl

theorem traceControl_range (haction : fld val.toNat 32 2 = 3) : Completes (.traceControl rq v val) s (Refused rq 2 s) := by
  refine rowWrite_refused (traceControl_exec val) (writtenRow_trace v) h val.isLt ?_ rfl
  rw [rowMask_block v 0xD 5 _ (by decide) (.inl (by decide)), X.special_trace, X.doTraceControl]
  exact congrArg some (if_pos (by rw [beq_iff_eq]; exact (fld_traceBits_action _).trans haction))

end Trace

/-! #### RING_CONFIG (R263, R289) -/

section Ring
variable {r : RingId} {row : BitVec 128} {new old : Ring} {l : VitId} (h : s.dev.Writes rq q (blockIx v 1) 1)
  (hnew : new = { cfg := row &&& ~~~(BitVec.ofNat 128 (2 ^ 26 - 1)) }) (hold : old = s.dev.ring v r.toNat)

/-- The bits of a ring's row from 26 up are kept (R263). -/
theorem getLsbD_ringRow (i : Nat) (h : 26 ≤ i) (hi : i < 128) : (row &&& ~~~(BitVec.ofNat 128 (2 ^ 26 - 1))).getLsbD i = row.getLsbD i := by
  rw [BitVec.getLsbD_and, BitVec.getLsbD_not, BitVec.getLsbD_ofNat, Nat.testBit_two_pow_sub_one]
  simp only [hi, decide_true, Bool.true_and, Nat.not_lt.2 h, decide_false, Bool.not_false, Bool.and_true]

theorem ringConfig_exec : exec (.ringConfig rq v r row) s = run s (fun x => x.writeOwn rq (blockIx v 1) 1 (some r.toNat) 16 row.toNat) := rfl

/-- The row as it is written is the row that its effect sees. -/
theorem X.special_ringRow (x : X) : x.special (blockIx v 1) 1 ((some r.toNat).getD 0) (rowMask (blockIx v 1) 1 row.toNat) none = some (x.doRingConfig v r.toNat row) := by
  rw [rowMask_block v 1 1 _ (by decide) (.inl (by decide)), X.special_ring, ofNat_toNat_self, Option.getD_some]

include h

/-- A row that is taken changes the rings alone. -/
theorem ringConfig_takes {F : Dev → Dev} (hdo : s.view.doRingConfig v r.toNat row = (s.view.on F, stOk)) (honly : Only [.srv] s.dev (F s.dev)) :
    Completes (.ringConfig rq v r row) s (fun t => Keeps [.cat, .srv] s t ∧ Accepted rq 0 s t ∧ t.dev.ring v r.toNat = (F s.dev).ring v r.toNat) := by
  obtain ⟨t, hrun, hkeeps, haccepted, hreply⟩ := rowWrite_accepted (l := [.cat, .srv]) (st := 0) (F := F)
    ringConfig_exec (writtenRow_ring v r) h row.isLt ((X.special_ringRow _).trans (congrArg some hdo)) rfl (honly.mono (by simp)) (honly.sameCount (by simp)) (by simp)
  exact ⟨t, hrun, hkeeps, haccepted, hreply.ring v r.toNat⟩

theorem ringConfig_refuses {st : Nat} (hst : (st != stOk && st != stProgress) = true) (hdo : s.view.doRingConfig v r.toNat row = (s.view, st)) :
    Completes (.ringConfig rq v r row) s (Refused rq st s) :=
  rowWrite_refused ringConfig_exec (writtenRow_ring v r) h row.isLt ((X.special_ringRow _).trans (congrArg some hdo)) hst

include hnew hold

theorem ringConfig_enables (hl : (s.dev.vit v).leader = some l) (hst : old.st = .disabled) (htype : new.type ≠ 3) (hen : row.getLsbD 30 = true)
    (hok : s.dev.ringOk l new = true) :
    Completes (.ringConfig rq v r row) s (fun t => Keeps [.cat, .srv] s t ∧ Accepted rq 0 s t ∧ t.dev.ring v r.toNat = { new with st := .enabled }) := by
  subst hnew hold
  obtain ⟨t, hrun, hkeeps, haccepted, hring⟩ := ringConfig_takes h (r := r) (row := row)
    (F := fun d => d.setRing v r.toNat (fun _ => { ({ cfg := row &&& ~~~(BitVec.ofNat 128 (2 ^ 26 - 1)) } : Ring) with st := .enabled }))
    (by simp only [X.doRingConfig, State.view_dev, hst, beq_iff_eq, htype, if_false, getLsbD_ringRow 30 (by decide) (by decide), hen, hl, hok, if_true])
    ((Only.refl _ _).setRing _ _ _ (by simp))
  exact ⟨t, hrun, hkeeps, haccepted, hring.trans (Dev.ring_setRing _ _ _ _)⟩

theorem ringConfig_sets (hst : old.st = .disabled) (htype : new.type ≠ 3) (hen : row.getLsbD 30 = false) :
    Completes (.ringConfig rq v r row) s (fun t => Keeps [.cat, .srv] s t ∧ Accepted rq 0 s t ∧ t.dev.ring v r.toNat = { old with cfg := new.cfg }) := by
  subst hnew hold
  obtain ⟨t, hrun, hkeeps, haccepted, hring⟩ := ringConfig_takes h (r := r) (row := row)
    (F := fun d => d.setRing v r.toNat (fun q => { q with cfg := row &&& ~~~(BitVec.ofNat 128 (2 ^ 26 - 1)) }))
    (by simp only [X.doRingConfig, State.view_dev, hst, beq_iff_eq, htype, if_false, getLsbD_ringRow 30 (by decide) (by decide), hen, Bool.false_eq_true])
    ((Only.refl _ _).setRing _ _ _ (by simp))
  exact ⟨t, hrun, hkeeps, haccepted, hring.trans (Dev.ring_setRing _ _ _ _)⟩

theorem ringConfig_disables (hst : old.st = .enabled) (hsame : (new.cfg &&& ~~~ringFree) = (old.cfg &&& ~~~ringFree)) (hen : row.getLsbD 30 = false)
    (hsquash : row.getLsbD 29 = false) :
    Completes (.ringConfig rq v r row) s (fun t => Keeps [.cat, .srv] s t ∧ Accepted rq 0 s t ∧ (t.dev.ring v r.toNat).st = .disabling ∧
      (t.dev.ring v r.toNat).offTail = old.sqTail ∧ (t.dev.ring v r.toNat).offSquash = false ∧ (t.dev.ring v r.toNat).fetched = old.fetched) := by
  subst hnew hold
  obtain ⟨t, hrun, hkeeps, haccepted, hring⟩ := ringConfig_takes h (r := r) (row := row)
    (F := fun d => (d.setRing v r.toNat (fun q => { q with cfg := row &&& ~~~(BitVec.ofNat 128 (2 ^ 26 - 1)) })).setRing v r.toNat (fun q =>
      { q with st := .disabling, offTail := q.sqTail, offSquash := false, cfg := putBit q.cfg 30 false }))
    (by
      simp only [X.doRingConfig, State.view_dev, hst, bne_iff_ne, ne_eq, hsame, not_true_eq_false, if_false, getLsbD_ringRow 30 (by decide) (by decide),
        getLsbD_ringRow 29 (by decide) (by decide), hen, hsquash, Bool.false_eq_true, X.disableRing, Bool.not_false, if_true]
      rfl)
    (((Only.refl _ _).setRing _ _ _ (by simp)).setRing _ _ _ (by simp))
  rw [Dev.ring_setRing, Dev.ring_setRing] at hring
  exact ⟨t, hrun, hkeeps, haccepted, by rw [hring], by rw [hring], by rw [hring], by rw [hring]⟩

theorem ringConfig_busy (hst : old.st = .disabling ∨ old.st = .enabled ∧ (new.cfg &&& ~~~ringFree) ≠ (old.cfg &&& ~~~ringFree)) :
    Completes (.ringConfig rq v r row) s (Refused rq 3 s) := by
  subst hnew hold
  refine ringConfig_refuses h rfl ?_
  rcases hst with hst | ⟨hst, hcfg⟩
  · simp only [X.doRingConfig, State.view_dev, hst]; rfl
  · simp only [X.doRingConfig, State.view_dev, hst, bne_iff_ne, ne_eq, hcfg, not_false_eq_true, if_true]; rfl

theorem ringConfig_range (hl : (s.dev.vit v).leader = some l) (hst : old.st = .disabled) (hout : new.type = 3 ∨ row.getLsbD 30 = true ∧ s.dev.ringOk l new = false) :
    Completes (.ringConfig rq v r row) s (Refused rq 2 s) := by
  subst hnew hold
  refine ringConfig_refuses h rfl ?_
  by_cases htype : ({ cfg := row &&& ~~~(BitVec.ofNat 128 (2 ^ 26 - 1)) } : Ring).type = 3
  · simp only [X.doRingConfig, State.view_dev, hst, beq_iff_eq, htype, if_true]; rfl
  · obtain ⟨hen, hok⟩ := hout.resolve_left htype
    simp only [X.doRingConfig, State.view_dev, hst, beq_iff_eq, htype, if_false, getLsbD_ringRow 30 (by decide) (by decide), hen, hl, hok, if_true, Bool.false_eq_true]; rfl

end Ring

end Settings

/-! #### TAKEOVER_VITRINES (R255) -/

theorem Dev.sendFree_only (d : Dev) (own : VitId → Bool) (op : ROp) : Only [.fab] d (d.sendFree own op) := by
  unfold Dev.sendFree
  split
  · exact (Only.refl _ d).onFab _ (by simp)
  · split
    · exact (Only.refl _ d).setLink _ _ (by simp)
    · exact Only.refl _ d

/-- One Vitrine of a standby tenancy that takes over: PRIMARY in its new epoch, its last committed checkpoint restored, its Provenance store empty (R255). -/
def Dev.takeOverVit (ep : Word) (d : Dev) (v : VitId) : Dev :=
  ((d.setNow v 9 4 1).setNow v 9 2 ep.toNat).setVit v (fun t => { t with ckptLocal := t.ckptCommitted, pv := [], pace := { t.pace with heldFrom := [] } })

theorem Dev.takeOver_eq (d : Dev) (l : VitId) (old : DevId) : Only [.fab] ((d.tenancy l).foldl (Dev.takeOverVit (d.epoch l + 1)) d) (d.takeOver l old) :=
  (Only.refl _ _).foldl _ _ (fun _ _ => Dev.sendFree_only _ _ _)

theorem Dev.setNow_only (d : Dev) (v : VitId) (k n val : Nat) : Only [.cat] d (d.setNow v k n val) := (Only.refl _ d).onCat _ (by simp)

@[simp] theorem Dev.vacc_setNow (d : Dev) (v : VitId) (k n val : Nat) : (d.setNow v k n val).vacc v k n = val := by
  simp only [Dev.vacc, Dev.acc, Dev.setNow, Dev.onCat, kfind_kset, Option.getD_some]
@[simp] theorem Dev.vset_setNow (d : Dev) (v : VitId) (k n val : Nat) : (d.setNow v k n val).vset v k n = val := by
  simp only [Dev.vset, Dev.force, Dev.setNow, Dev.onCat, kfind_kset, Option.getD_some]

theorem ckey_block_ne {v w : VitId} {k j n m : Nat} (hk : k < 16) (hj : j < 16) (hn : n < 256) (hm : m < 256) (h : v ≠ w ∨ k ≠ j ∨ n ≠ m) :
    ckey (blockIx v k) n 0 ≠ ckey (blockIx w j) m 0 := by
  have hv : v ≠ w → v.toNat ≠ w.toNat := fun h e => h (BitVec.eq_of_toNat_eq e)
  unfold ckey blockIx
  rcases h with h | h | h
  · have := hv h; omega
  · omega
  · omega

theorem Dev.vacc_setNow_ne (d : Dev) {v w : VitId} {k j n m : Nat} (val : Nat) (hk : k < 16) (hj : j < 16) (hn : n < 256) (hm : m < 256) (h : v ≠ w ∨ k ≠ j ∨ n ≠ m) :
    (d.setNow w j m val).vacc v k n = d.vacc v k n := by
  exact congrArg (fun o => o.getD (entryDefault (blockIx v k) n 0)) (kfind_kset_ne d.cat.acc _ _ val (ckey_block_ne hk hj hn hm h))

theorem Dev.vset_setNow_ne (d : Dev) {v w : VitId} {k j n m : Nat} (val : Nat) (hk : k < 16) (hj : j < 16) (hn : n < 256) (hm : m < 256) (h : v ≠ w ∨ k ≠ j ∨ n ≠ m) :
    (d.setNow w j m val).vset v k n = d.vset v k n := by
  exact congrArg (fun o => o.getD (entryDefault (blockIx v k) n 0)) (kfind_kset_ne d.cat.force _ _ val (ckey_block_ne hk hj hn hm h))

/-- What a takeover has made of a Vitrine of the machine `a`. -/
def Dev.TakenOver (a : Dev) (ep : Word) (w : VitId) (d : Dev) : Prop :=
  (d.vit w).ckptLocal = (a.vit w).ckptCommitted ∧ (d.vit w).pv = [] ∧ d.vacc w 9 4 = 1 ∧ d.epoch w = ep

section TakeOver
variable (ep : Word) (d : Dev)

theorem Dev.takeOverVit_only (v : VitId) : Only [.cat, .vits] d (d.takeOverVit ep v) :=
  (((d.setNow_only v 9 4 1).trans (Dev.setNow_only _ _ _ _ _)).mono (by simp)).setVit _ _ (by simp)

theorem Dev.vit_takeOverVit (v : VitId) : (Dev.takeOverVit ep d v).vit v =
    { d.vit v with ckptLocal := (d.vit v).ckptCommitted, pv := [], pace := { (d.vit v).pace with heldFrom := [] } } := Dev.vit_setVit _ v _
theorem Dev.vit_takeOverVit_ne (v w : VitId) (h : w ≠ v) : (Dev.takeOverVit ep d v).vit w = d.vit w := Dev.vit_setVit_ne _ v w _ h

theorem Dev.ckptCommitted_takeOverVit (v w : VitId) : ((Dev.takeOverVit ep d v).vit w).ckptCommitted = (d.vit w).ckptCommitted := by
  by_cases h : w = v
  · subst h; rw [Dev.vit_takeOverVit]
  · rw [Dev.vit_takeOverVit_ne _ _ _ _ h]

theorem Dev.vacc_takeOverVit (v : VitId) : (Dev.takeOverVit ep d v).vacc v 9 4 = 1 :=
  (Dev.vacc_setNow_ne (d.setNow v 9 4 1) ep.toNat (by decide) (by decide) (by decide) (by decide) (.inr (.inr (by decide)))).trans (Dev.vacc_setNow d v 9 4 1)
theorem Dev.epoch_takeOverVit (v : VitId) : (Dev.takeOverVit ep d v).epoch v = ep :=
  (congrArg (BitVec.ofNat 32) (Dev.vset_setNow (d.setNow v 9 4 1) v 9 2 ep.toNat)).trans (ofNat_toNat_self ep)

theorem Dev.vacc_takeOverVit_ne (v w : VitId) (h : w ≠ v) : (Dev.takeOverVit ep d v).vacc w 9 4 = d.vacc w 9 4 :=
  (Dev.vacc_setNow_ne (d.setNow v 9 4 1) ep.toNat (by decide) (by decide) (by decide) (by decide) (.inl h)).trans
    (Dev.vacc_setNow_ne d 1 (by decide) (by decide) (by decide) (by decide) (.inl h))
theorem Dev.epoch_takeOverVit_ne (v w : VitId) (h : w ≠ v) : (Dev.takeOverVit ep d v).epoch w = d.epoch w :=
  congrArg (BitVec.ofNat 32) ((Dev.vset_setNow_ne (d.setNow v 9 4 1) ep.toNat (by decide) (by decide) (by decide) (by decide) (.inl h)).trans
    (Dev.vset_setNow_ne d 1 (by decide) (by decide) (by decide) (by decide) (.inl h)))

/-- Every Vitrine of a tenancy that takes over has been taken over, and no other has changed (R255). -/
theorem Dev.takenOver_foldl (vs : List VitId) : (∀ w ∈ vs, Dev.TakenOver d ep w (vs.foldl (Dev.takeOverVit ep) d)) ∧
    ∀ w, w ∉ vs → (vs.foldl (Dev.takeOverVit ep) d).vit w = d.vit w := by
  constructor
  · refine foldl_attains (Dev.takeOverVit ep) (fun e => ∀ w, (e.vit w).ckptCommitted = (d.vit w).ckptCommitted) (Dev.TakenOver d ep) (fun e v he w => ?_) (fun e v he => ?_)
      (fun e v w he hw => ?_) vs d (fun _ => rfl)
    · exact (Dev.ckptCommitted_takeOverVit ep e v w).trans (he w)
    · exact ⟨by rw [Dev.vit_takeOverVit]; exact he v, by rw [Dev.vit_takeOverVit], Dev.vacc_takeOverVit ep e v, Dev.epoch_takeOverVit ep e v⟩
    · by_cases h : w = v
      · subst h
        exact ⟨by rw [Dev.vit_takeOverVit]; exact he w, by rw [Dev.vit_takeOverVit], Dev.vacc_takeOverVit ep e w, Dev.epoch_takeOverVit ep e w⟩
      · obtain ⟨hckpt, hpv, hrole, hep⟩ := hw
        exact ⟨by rw [Dev.vit_takeOverVit_ne _ _ _ _ h]; exact hckpt, by rw [Dev.vit_takeOverVit_ne _ _ _ _ h]; exact hpv,
          (Dev.vacc_takeOverVit_ne ep e v w h).trans hrole, (Dev.epoch_takeOverVit_ne ep e v w h).trans hep⟩
  · intro w hw
    induction vs generalizing d with
    | nil => rfl
    | cons v vs ih =>
      rw [List.mem_cons, not_or] at hw
      exact (ih _ hw.2).trans (Dev.vit_takeOverVit_ne ep d v w hw.1)

end TakeOver

/-- The takeover of one tenancy (R255). -/
theorem Dev.takeOver_spec (d : Dev) (l : VitId) (old : DevId) : Only [.cat, .fab, .vits] d (d.takeOver l old) ∧ d.sameCount (d.takeOver l old) ∧
    (∀ w ∈ d.tenancy l, Dev.TakenOver d (d.epoch l + 1) w (d.takeOver l old)) ∧ ∀ w, w ∉ d.tenancy l → (d.takeOver l old).vit w = d.vit w := by
  obtain ⟨htaken, hothers⟩ := Dev.takenOver_foldl (d.epoch l + 1) d (d.tenancy l)
  have hsend := d.takeOver_eq l old
  have hcat := hsend.cat (by simp)
  have honly : Only [.cat, .vits] d ((d.tenancy l).foldl (Dev.takeOverVit (d.epoch l + 1)) d) := (Only.refl _ d).foldl _ _ (fun e v => Dev.takeOverVit_only _ e v)
  have hcount := Dev.sameCount.foldl (Dev.takeOverVit (d.epoch l + 1)) (fun _ _ => ⟨rfl, rfl⟩) (d.tenancy l) d
  refine ⟨(honly.mono (by simp)).trans (hsend.mono (by simp)), hcount.trans (hsend.sameCount (by simp)), fun w hw => ?_, fun w hw => ?_⟩
  · obtain ⟨hckpt, hpv, hrole, hep⟩ := htaken w hw
    have hvit := hsend.vit (by simp) w
    refine ⟨by rw [hvit]; exact hckpt, by rw [hvit]; exact hpv, ?_, ?_⟩
    · simp only [Dev.vacc, Dev.acc, hcat]; exact hrole
    · simp only [Dev.epoch, Dev.vset, Dev.force, hcat]; exact hep
  · exact (hsend.vit (by simp) w).trans (hothers w hw)

theorem dedup_eq_singleton {α : Type} [DecidableEq α] {ls : List α} {l : α} (hne : ls ≠ []) (h : ∀ x ∈ ls, x = l) : ls.dedup = [l] := by
  rw [List.eq_replicate_of_mem h]
  exact List.replicate_dedup (fun h0 => hne (List.length_eq_zero_iff.1 h0))

section Settings
variable {s : State} {rq : CatReq} {q : Requester}

theorem takeoverVitrines_takes (h : s.dev.Writes rq q 0x5200 4) (mask : Word) (l : VitId)
    (hex : ∃ w ∈ vitsOf mask, (s.dev.vit w).held = true ∧ s.dev.vacc w 9 4 = 2 ∧ (s.dev.vit w).leader = some l)
    (hall : ∀ w ∈ vitsOf mask, (s.dev.vit w).held = true → s.dev.vacc w 9 4 = 2 → (s.dev.vit w).leader = some l) :
    Completes (.takeoverVitrines rq mask) s (fun t => Keeps [.cat, .fab, .vits] s t ∧ Accepted rq 0 s t ∧ (∀ w ∈ s.dev.tenancy l,
      (t.dev.vit w).ckptLocal = (s.dev.vit w).ckptCommitted ∧ (t.dev.vit w).pv = [] ∧ t.dev.vacc w 9 4 = 1 ∧ t.dev.epoch w = s.dev.epoch l + 1) ∧
      ∀ w, w ∉ s.dev.tenancy l → t.dev.vit w = s.dev.vit w) := by
  have hls : ((vitsOf mask).filterMap (fun v => if (s.view.dev.vit v).held && s.view.dev.vacc v 9 4 == 2 then (s.view.dev.vit v).leader else none)).dedup = [l] := by
    refine dedup_eq_singleton ?_ (fun x hx => ?_)
    · obtain ⟨w, hw, hheld, hstand, hlead⟩ := hex
      exact List.ne_nil_of_mem (a := l) (List.mem_filterMap.2 ⟨w, hw, by simp [hheld, hstand, hlead]⟩)
    · obtain ⟨w, hw, hlead⟩ := List.mem_filterMap.1 hx
      split at hlead
      next hstand =>
        obtain ⟨hheld, hrole⟩ := Bool.and_eq_true_iff.1 hstand
        exact Option.some.inj (hlead.symm.trans (hall w hw hheld (beq_iff_eq.1 hrole)))
      next => exact absurd hlead (by simp)
  obtain ⟨honly, hcount, htaken, hothers⟩ := s.dev.takeOver_spec l (BitVec.ofNat 16 (s.dev.force 0x5200 1 0))
  obtain ⟨t, hrun, hkeeps, haccepted, hreply⟩ := rowWrite_accepted (l := [.cat, .fab, .vits]) (st := 0)
    (F := fun d => d.takeOver l (BitVec.ofNat 16 (d.force 0x5200 1 0)))
    (show exec (.takeoverVitrines rq mask) s = run s (fun x => x.writeOwn rq 0x5200 4 none 4 mask.toNat) from rfl) writtenRow_takeover h mask.isLt
    (show some (s.view.doTakeover (BitVec.ofNat 32 mask.toNat)) = _ by
      rw [ofNat_toNat_self]
      simp only [X.doTakeover, hls, List.foldl_cons, List.foldl_nil]
      rfl) rfl honly hcount (by simp)
  refine ⟨t, hrun, hkeeps, haccepted, fun w hw => ?_, fun w hw => (hreply.vit w).trans (hothers w hw)⟩
  obtain ⟨hckpt, hpv, hrole, hep⟩ := htaken w hw
  exact ⟨by rw [hreply.vit]; exact hckpt, by rw [hreply.vit]; exact hpv, (hreply.vacc w 9 4).trans hrole, (congrArg (BitVec.ofNat 32) (hreply.vset w 9 2)).trans hep⟩

end Settings

/-! #### LINK_ADMIN (R289) -/

/-- Sending operations leaves every draining link as it is: no operation leaves on one (R289). -/
def Dev.SparesDraining (d e : Dev) : Prop := ∀ l, (d.link l).draining = true → e.link l = d.link l

namespace Dev.SparesDraining

theorem refl (d : Dev) : Dev.SparesDraining d d := fun _ _ => rfl

theorem trans {d e f : Dev} (h : Dev.SparesDraining d e) (k : Dev.SparesDraining e f) : Dev.SparesDraining d f :=
  fun l hl => (k l (by rw [h l hl]; exact hl)).trans (h l hl)

theorem foldl {β : Type} (f : Dev → β → Dev) (hf : ∀ e b, Dev.SparesDraining e (f e b)) (bs : List β) (d : Dev) : Dev.SparesDraining d (bs.foldl f d) := by
  induction bs generalizing d with
  | nil => exact refl d
  | cons b bs ih => exact (hf d b).trans (ih _)

theorem onFab {d e : Dev} (h : Dev.SparesDraining d e) (f : Fab → Fab) (hf : (f e.fab).links = e.fab.links) : Dev.SparesDraining d (e.onFab f) :=
  h.trans (fun l _ => by simp only [Dev.link, Dev.onFab, hf])

/-- The link that is picked is one of those offered. -/
theorem pickLink_mem {ls : List Nat} {tag : Word} {k : Nat} (h : pickLink ls tag = some k) : k ∈ ls := List.mem_of_getElem? h

/-- No operation is handed to a draining link. -/
theorem txOp (d : Dev) (dest : DevId) (ok : VitId → Bool) {k : Nat} (cls : Nat) (op : ROp) (hk : k ∈ d.eligible dest ok) : Dev.SparesDraining d (d.txOp k cls op) := by
  intro l hl
  refine Dev.link_setLink_ne d k l _ (fun hlk => ?_)
  have hgoes := (List.mem_filter.1 hk).2
  rw [← hlk, hl] at hgoes
  simp at hgoes

theorem sendOp (d : Dev) (o : RemOp) : Dev.SparesDraining d (d.sendOp o).1 := by
  simp only [Dev.sendOp]
  split
  · exact (refl d).onFab _ rfl
  · split
    next k hpick =>
      refine txOp d o.op.dest (fun w => d.sameTenancy o.v w) 0 o.op ?_
      have hmem := pickLink_mem hpick
      split at hmem
      · exact List.mem_of_mem_filter hmem
      · exact hmem
    next => exact refl d

theorem kickFab (d : Dev) : Dev.SparesDraining d d.kickFab := by
  simp only [Dev.kickFab]
  refine ((refl d).onFab (fun b => { b with ops := [] }) rfl).trans (foldl _ (fun e o => onFab ?_ _ rfl) _ _)
  split
  · exact refl e
  · split
    · split
      · exact sendOp e o
      · exact refl e
    · split
      · exact sendOp e { o with op := { o.op with attempt := o.op.attempt + 1 } }
      · exact refl e

theorem pairCheck (d : Dev) : Dev.SparesDraining d d.pairCheck := by
  unfold Dev.pairCheck
  split <;> exact refl d

theorem linkTo (d : Dev) (l : Nat) (st : LinkSt) (n : Nat) : Dev.SparesDraining (d.linkMoved l st n) (d.linkTo l st n) := by
  have h := pairCheck (d.linkMoved l st n)
  rw [Dev.linkTo_eq]
  split
  · exact (h.onFab _ rfl).trans (kickFab _)
  · split
    · exact h.trans (kickFab _)
    · exact h

end Dev.SparesDraining

/-- A link that has gone down or begins to train holds no operation, and is drained or not as it was (R248). -/
theorem Dev.linkMoved_cleared (d : Dev) (l : Nat) (st : LinkSt) (n : Nat) (hst : (st == .down || st == .training) = true) :
    (d.linkMoved l st n).link l = { d.link l with st := st, reason := n, sent := [], wait := [], ingress := [], nak := false } := by
  have hcount : ∀ (e : Dev) (c : Bool) (m : Nat), (if c = true then e.count 0x8019 m l else e).link l = e.link l := by
    intro e c m; split <;> rfl
  have hpost : ∀ (e : Dev) (c k i a b m : Nat), (e.post c k i a b m).link l = e.link l := fun e c k i a b m => by simp only [Dev.link, Dev.post_fab]
  simp only [Dev.linkMoved, hpost, hcount, hst, if_true, Dev.link_setLink]

/-- An event queued changes the event channel alone. -/
theorem Cat.push_kept (c : Cat) (e : Event) : (c.push e).published = c.published ∧ (c.push e).gen = c.gen := by
  unfold Cat.push
  generalize (c.events ++ [{ e with seq := c.evNext }]).drop _ = events
  generalize (c.evNext + 1) % 2 ^ 32 = number
  exact ⟨rfl, rfl⟩

theorem Dev.post_sameCount (d : Dev) (c k i a b m : Nat) : d.sameCount (d.post c k i a b m) := Cat.push_kept d.cat _

theorem Dev.linkMoved_sameCount (d : Dev) (l : Nat) (st : LinkSt) (n : Nat) : d.sameCount (d.linkMoved l st n) := by
  have hcount : ∀ (e : Dev) (c : Bool) (m : Nat), d.sameCount e → d.sameCount (if c = true then e.count 0x8019 m l else e) := by
    intro e c m h; split <;> exact h
  have hset : d.sameCount (if (st == .down || st == .training) = true then (d.setLink l (fun k => { k with st := st, reason := n })).setLink l
      (fun k => { k with sent := [], wait := [], ingress := [], nak := false }) else d.setLink l (fun k => { k with st := st, reason := n })) := by
    split <;> exact ⟨rfl, rfl⟩
  have hpost : ∀ (e : Dev) (c k i a b m : Nat), d.sameCount e → d.sameCount (e.post c k i a b m) :=
    fun e c k i a b m h => h.trans (e.post_sameCount c k i a b m)
  exact hpost _ _ _ _ _ _ _ (hcount _ _ 4 (hcount _ _ 3 hset))

theorem Dev.linkTo_sameCount (d : Dev) (l : Nat) (st : LinkSt) (n : Nat) : d.sameCount (d.linkTo l st n) :=
  (d.linkMoved_sameCount l st n).trans ((d.linkTo_sends l st n).only.sameCount (by simp))

section LinkAdmin
variable {s : State} {rq : CatReq} {q : Requester} {l : LinkId} {k : Link}

/-- LINK_ADMIN accepted and carried out (R289). -/
def Dev.adminLink (d : Dev) (l val : Nat) : Dev := (d.setAcc 0x5005 1 l val).linkAdmin l val

theorem linkAdmin_exec {val : Byte} : exec (.linkAdmin rq l val) s = run s (fun x => x.writeOwn rq 0x5005 1 (some l.val) 1 val.toNat) := rfl

theorem linkAdmin_takes {ps : List Part} (h : s.dev.Writes rq q 0x5005 1) (val : Byte) (hval : val.toNat ≤ 2) (honly : Only ps s.dev (s.dev.adminLink l.val val.toNat))
    (hcount : s.dev.sameCount (s.dev.adminLink l.val val.toNat)) (hcat : Part.cat ∈ ps) :
    Completes (.linkAdmin rq l val) s (fun t => Keeps ps s t ∧ Accepted rq 0 s t ∧ ∀ m, t.dev.link m = (s.dev.adminLink l.val val.toNat).link m) := by
  obtain ⟨t, hrun, hkeeps, haccepted, hreply⟩ := rowWrite_accepted (st := 0) (F := fun d => d.adminLink l.val val.toNat) linkAdmin_exec (writtenRow_link l) h val.isLt
    (show some (if 2 < val.toNat then (s.view, stRange) else _) = _ from congrArg some (if_neg (Nat.not_lt.2 hval))) rfl honly hcount hcat
  exact ⟨t, hrun, hkeeps, haccepted, hreply.link⟩

theorem linkAdmin_range (h : s.dev.Writes rq q 0x5005 1) (val : Byte) (hval : 2 < val.toNat) : Completes (.linkAdmin rq l val) s (Refused rq 2 s) :=
  rowWrite_refused linkAdmin_exec (writtenRow_link l) h val.isLt (show some (if 2 < val.toNat then (s.view, stRange) else _) = _ from congrArg some (if_pos hval)) rfl

/-- The machine as LINK_ADMIN finds it: the setting accepted, and the link draining or not. -/
def Dev.adminSet (d : Dev) (l val : Nat) (drain : Bool) : Dev := (d.setAcc 0x5005 1 l val).setLink l (fun k => { k with draining := drain })

theorem Dev.adminSet_only (d : Dev) (l val : Nat) (drain : Bool) : Only [.cat, .fab] d (d.adminSet l val drain) :=
  ((Only.refl _ d).setAcc _ _ _ _ (by simp)).setLink _ _ (by simp)

theorem Dev.link_adminSet (d : Dev) (l val : Nat) (drain : Bool) : (d.adminSet l val drain).link l = { d.link l with draining := drain } :=
  Dev.link_setLink (d.setAcc 0x5005 1 l val) l _
theorem Dev.link_adminSet_ne (d : Dev) (l val m : Nat) (drain : Bool) (h : m ≠ l) : (d.adminSet l val drain).link m = d.link m :=
  Dev.link_setLink_ne (d.setAcc 0x5005 1 l val) l m _ h

theorem Dev.adminSet_linkTo (d : Dev) (l val : Nat) (drain : Bool) (st : LinkSt) : Only [.cat, .fab, .cnt] d ((d.adminSet l val drain).linkTo l st 0) ∧
    d.sameCount ((d.adminSet l val drain).linkTo l st 0) :=
  ⟨((d.adminSet_only l val drain).mono (by simp)).linkTo _ _ _ (by simp), Dev.sameCount.trans ⟨rfl, rfl⟩ ((d.adminSet l val drain).linkTo_sameCount l st 0)⟩

variable (h : s.dev.Writes rq q 0x5005 1) (hk : k = s.dev.link l.val)
include h hk

theorem linkAdmin_trains (hst : k.st = .down) (hout : k.out = false) (hrefused : k.refusedAt = none) :
    Completes (.linkAdmin rq l 0) s (fun t => Keeps [.cat, .fab, .cnt] s t ∧ Accepted rq 0 s t ∧ (t.dev.link l.val).st = .training ∧ (t.dev.link l.val).draining = false) := by
  subst hk
  have hset := s.dev.link_adminSet l.val 0 false
  have hadmin : s.dev.adminLink l.val 0 = (s.dev.adminSet l.val 0 false).linkTo l.val .training 0 := by
    have hgo : (((s.dev.adminSet l.val 0 false).link l.val).st == .down && !((s.dev.adminSet l.val 0 false).link l.val).out &&
        ((s.dev.adminSet l.val 0 false).link l.val).refusedAt.isNone && (s.dev.adminSet l.val 0 false).cat.published) = true := by
      rw [hset, show (s.dev.adminSet l.val 0 false).cat.published = true from h.1.1]
      simp only [hst, hout, hrefused]
      rfl
    exact if_pos hgo
  have hidle : (s.dev.adminSet l.val 0 false).linkTo l.val .training 0 = ((s.dev.adminSet l.val 0 false).linkMoved l.val .training 0).pairCheck := by
    rw [Dev.linkTo_eq, hset]
    simp only [hst]
    rfl
  have hpair : ∀ e : Dev, e.pairCheck.link l.val = e.link l.val := by intro e; unfold Dev.pairCheck; split <;> rfl
  obtain ⟨honly, hcount⟩ := s.dev.adminSet_linkTo l.val 0 false .training
  rw [← hadmin] at honly hcount
  obtain ⟨t, hrun, hkeeps, haccepted, hlink⟩ := linkAdmin_takes h 0 (by decide) honly hcount (by simp)
  have hend : t.dev.link l.val = { (s.dev.adminSet l.val 0 false).link l.val with st := .training, reason := 0, sent := [], wait := [], ingress := [], nak := false } := by
    refine (hlink l.val).trans ?_
    rw [show (0 : Byte).toNat = 0 from rfl, hadmin, hidle, hpair, Dev.linkMoved_cleared _ _ _ _ rfl]
  exact ⟨t, hrun, hkeeps, haccepted, by rw [hend], by rw [hend, hset]⟩

theorem linkAdmin_drains (hbusy : k.sent ≠ [] ∨ k.wait ≠ []) :
    Completes (.linkAdmin rq l 1) s (fun t => Keeps [.cat, .fab] s t ∧ Accepted rq 0 s t ∧ t.dev.link l.val = { k with draining := true } ∧
        ∀ m, m ≠ l.val → t.dev.link m = s.dev.link m) := by
  subst hk
  have hadmin : s.dev.adminLink l.val 1 = s.dev.adminSet l.val 1 true := by
    have hstay : ¬ (((s.dev.adminSet l.val 1 true).link l.val).draining && ((s.dev.adminSet l.val 1 true).link l.val).st != .down &&
        ((s.dev.adminSet l.val 1 true).link l.val).sent.isEmpty && ((s.dev.adminSet l.val 1 true).link l.val).wait.isEmpty) = true := by
      rw [Dev.link_adminSet]
      simp only [Bool.and_eq_true, List.isEmpty_iff]
      exact fun hempty => hbusy.elim (absurd hempty.1.2) (absurd hempty.2)
    exact if_neg hstay
  obtain ⟨t, hrun, hkeeps, haccepted, hlink⟩ := linkAdmin_takes (ps := [.cat, .fab]) h 1 (by decide) (by rw [show (1 : Byte).toNat = 1 from rfl, hadmin]; exact s.dev.adminSet_only _ _ _)
    (by rw [show (1 : Byte).toNat = 1 from rfl, hadmin]; exact ⟨rfl, rfl⟩) (by simp)
  rw [show (1 : Byte).toNat = 1 from rfl, hadmin] at hlink
  exact ⟨t, hrun, hkeeps, haccepted, (hlink l.val).trans (s.dev.link_adminSet _ _ _), fun m hm => (hlink m).trans (s.dev.link_adminSet_ne _ _ _ _ hm)⟩

theorem linkAdmin_squashes (hst : k.st ≠ .down) :
    Completes (.linkAdmin rq l 2) s (fun t => Keeps [.cat, .fab, .cnt] s t ∧ Accepted rq 0 s t ∧ (t.dev.link l.val).st = .down ∧ (t.dev.link l.val).draining = true ∧
        (t.dev.link l.val).sent = [] ∧ (t.dev.link l.val).wait = []) := by
  subst hk
  have hset := s.dev.link_adminSet l.val 2 true
  have hadmin : s.dev.adminLink l.val 2 = (s.dev.adminSet l.val 2 true).linkTo l.val .down 0 := by
    have hup : ¬ (((s.dev.adminSet l.val 2 true).link l.val).st == .down) = true := by rw [hset, beq_iff_eq]; exact hst
    exact if_neg hup
  obtain ⟨honly, hcount⟩ := s.dev.adminSet_linkTo l.val 2 true .down
  rw [← hadmin] at honly hcount
  obtain ⟨t, hrun, hkeeps, haccepted, hlink⟩ := linkAdmin_takes h 2 (by decide) honly hcount (by simp)
  have hcleared := Dev.linkMoved_cleared (s.dev.adminSet l.val 2 true) l.val .down 0 rfl
  have hspared := Dev.SparesDraining.linkTo (s.dev.adminSet l.val 2 true) l.val .down 0 l.val (by rw [hcleared, hset])
  have hend : t.dev.link l.val = { (s.dev.adminSet l.val 2 true).link l.val with st := .down, reason := 0, sent := [], wait := [], ingress := [], nak := false } := by
    rw [← hcleared, ← hspared, ← hadmin]
    exact hlink l.val
  exact ⟨t, hrun, hkeeps, haccepted, by rw [hend], by rw [hend, hset], by rw [hend], by rw [hend]⟩

end LinkAdmin

/-- Settles O53: each setting's own lemma says what its served write does, over the write of one row that all of them are (`rowWrite_accepted`, `rowWrite_refused`). -/
theorem settingsAreWritten : Obligations.SettingsAreWritten := by
  intro s rq q v
  rw [blockIx_of_add v 7 0x3007 rfl, blockIx_of_add v 8 0x3008 rfl, blockIx_of_add v 9 0x3009 rfl, blockIx_of_add v 0xB 0x300B rfl, blockIx_of_add v 1 0x3001 rfl,
    blockIx_of_add v 0xD 0x300D rfl]
  refine ⟨fun h n pv hpv => ⟨scratchSteps_begins h hpv, scratchSteps_busy h, scratchSteps_range h hpv, scratchSteps_pinned h hpv⟩,
    regMissStatus_clears,
    takeoverVitrines_takes,
    fun h hstand val => ⟨remoteTimeout_takes h val hstand, remoteTimeout_range h val⟩,
    fun h hstand val => ⟨powerClass_takes h val hstand, powerClass_range h val⟩,
    fun h val => ⟨profileSelect_takes h val, profileSelect_range h val⟩,
    fun h l k hk => ⟨linkAdmin_trains h hk, linkAdmin_drains h hk, linkAdmin_squashes h hk, linkAdmin_range h⟩,
    fun h e val => ⟨mediaAdmin_sets h e val, mediaAdmin_range h e val⟩,
    fun h r row new old l hnew hold hl => ⟨ringConfig_enables h hnew hold hl, ringConfig_sets h hnew hold, ringConfig_disables h hnew hold, ringConfig_busy h hnew hold,
      ringConfig_range h hnew hold hl⟩,
    fun h row val l base limit hl hbase hlimit => ⟨watchpoints_takes h row val hl hbase hlimit, watchpoints_range h row val hl hbase hlimit⟩,
    fun h val => ⟨traceControl_takes h val, traceControl_range h val⟩,
    fun h => ⟨markerCommand_sends h, markerCommand_nothing h, markerCommand_range h⟩⟩

end Sys2Proof.Machine

namespace Sys2Proof.Machine

/-! ### A transfer across a scratchpad whose size is changing (O57)

`Dev.valid` looks at the two ends of a range. While a scratchpad shrinks each slice applies the size it stands at (R169), so a line between two
populated ones may already be gone; the pieces of a DMA transfer meet it and end there (R29, R210). -/

/-- FILL of the first three lines of V0's scratchpad (R282). -/
def fillThreeLines : Fetched := { seq := 0, raw := BitVec.ofNat 512 (padBase * 2 ^ 408 + 384 * 2 ^ 376 + 0x11 * 2 ^ 24), at' := 0 }

/-- V0's scratchpad shrinks from one step to none, and of its slices only slice 1 has passed its change point (R169); its DMA ring 0 has fetched a FILL. -/
def midShrink : Dev :=
  { clk := [(0, { running := true })], vits := [(0, { st := .assigned, leader := some 0, padSteps := 1, resize := some 0 })],
    gal := (List.range 24).map (fun g => (g, { changing := g != 1 })),
    srv := { rings := [(0, { cfg := BitVec.ofNat 128 (2 ^ 33), st := .enabled, fetched := [fillThreeLines] })] } }

theorem midShrink_ready : midShrink.dmaReady 0 (0 : RingId).toNat 0x11 0 = some fillThreeLines := by decide +kernel

/-- The range's three lines are homed in slices 0, 1 and 2: its ends are populated, and its second line is not. -/
theorem midShrink_valid : midShrink.valid 0 padBase 384 = true ∧ midShrink.valid 0 (padBase + 128) 128 = false := by decide +kernel

/-- The FILL is performed in its first line and ends invalid at its second (status 8 of R270). -/
theorem fill_midShrink : Completes (.fill 0 0 0) { State.reset with dev := midShrink } (fun t =>
    (t.dev.ring 0 (0 : RingId).toNat).fetched = [{ fillThreeLines with started := true, moved := 128, ends := [8] }]) :=
  ⟨_, rfl, by decide +kernel⟩

/-- Refutes O57: a FILL of a range that is valid by its ends, over a scratchpad of which one slice has passed the change point of a shrink, ends with status 8
at the line of that slice. -/
theorem not_transfersAndMediaRequestsBeginAndEnd : ¬ Obligations.TransfersAndMediaRequestsBeginAndEnd := by
  intro h
  have hcluster : dCluster fillThreeLines.raw = none := by decide +kernel
  have hdst : dDst fillThreeLines.raw = padBase ∧ dLen fillThreeLines.raw = 384 := by decide +kernel
  obtain ⟨hbegins, -⟩ := h { State.reset with dev := midShrink } 0 0 0 0 fillThreeLines fillThreeLines.raw rfl rfl rfl rfl
  obtain ⟨-, hgood⟩ := hbegins 0x11 (.fill 0 0 0) false midShrink_ready (fun k hk => by rw [hcluster] at hk; cases hk)
    (.inr (.inl ⟨rfl, rfl, by rw [hdst.2]; rfl⟩))
  obtain ⟨t, hexec, g, hg, -, -, -, -, hends, -⟩ := hgood rfl (.inl rfl) (.inr (.inr (.inr ⟨hcluster, .inr (by rw [hdst.1, hdst.2]; exact midShrink_valid.1)⟩)))
    (fun hop => by cases hop) (fun hop => by cases hop)
  obtain ⟨u, hfill, hfetched⟩ := fill_midShrink
  obtain rfl := Host.Outcome.next.inj (hexec.symm.trans hfill)
  rw [hfetched, List.mem_singleton] at hg
  subst hg
  have hstopped : (8 : Nat) ∈ fillThreeLines.ends ∨ 8 = 22 := hends 8 (List.mem_singleton.2 rfl)
  exact absurd hstopped (by decide)

end Sys2Proof.Machine

namespace Sys2Proof.Machine

/-! ### The records of die links, seams and ports (O43, O44) -/

theorem Dev.reach_of_le (d : Dev) (i due : Nat) (h : due ≤ d.cyc i) : d.reach i due = d := if_pos h

@[simp] theorem Dev.reg_setReg (d : Dev) (v : VitId) (f : Reg → Reg) : (d.setReg v f).reg v = f (d.reg v) := kget_kupd _ _ _ _

theorem Only.setReg {l : List Part} {d e : Dev} (v : VitId) (f : Reg → Reg) (h : Only l d e) (h0 : Part.net ∈ l) : Only l d (e.setReg v f) := h.with_net _ h0

theorem Dev.setReg_only (d : Dev) (v : VitId) (f : Reg → Reg) : Only [.net] d (d.setReg v f) := (Only.refl _ d).setReg v f (by simp)

section
variable (d : Dev) (r : Nat)

theorem Dev.setBund_only (f : Bund → Bund) : Only [.net] d (d.setBund r f) := (Only.refl _ d).setBund r f (by simp)

@[simp] theorem Dev.bund_setBund (f : Bund → Bund) : (d.setBund r f).bund r = f (d.bund r) := kget_kupd _ _ _ _
theorem Dev.bund_setBund_ne {k : Nat} (h : k ≠ r) (f : Bund → Bund) : (d.setBund r f).bund k = d.bund k := kget_kupd_ne _ _ _ _ _ h
@[simp] theorem Dev.bund_count (i n k m : Nat) : (d.count i n k m).bund r = d.bund r := rfl
@[simp] theorem Dev.bund_ctlIn (f : DlFrame) : (d.ctlIn f).bund r = d.bund r := rfl
theorem Only.bund {l : List Part} {d e : Dev} (h : Only l d e) (hnet : Part.net ∉ l) (r : Nat) : e.bund r = d.bund r := by rw [Dev.bund, h.net hnet, Dev.bund]

@[simp] theorem Dev.counter_setBund (k : Nat) (f : Bund → Bund) (i n q : Nat) : (d.setBund k f).counter i n q = d.counter i n q := rfl
@[simp] theorem Dev.counter_ctlIn (f : DlFrame) (i n q : Nat) : (d.ctlIn f).counter i n q = d.counter i n q := rfl
@[simp] theorem Dev.ctl_setBund (f : Bund → Bund) : (d.setBund r f).net.ctl = d.net.ctl := rfl
@[simp] theorem Dev.ctl_ctlIn (f : DlFrame) : (d.ctlIn f).net.ctl = d.net.ctl ++ f.msg0.toList ++ f.msg1.toList := rfl

@[simp] theorem Dev.seam_setSeam (f : Seam → Seam) : (d.setSeam r f).seam r = f (d.seam r) := kget_kupd _ _ _ _
@[simp] theorem Dev.seam_count (i n k m : Nat) : (d.count i n k m).seam r = d.seam r := rfl
theorem Only.seam {l : List Part} {d e : Dev} (h : Only l d e) (hnet : Part.net ∉ l) (r : Nat) : e.seam r = d.seam r := by rw [Dev.seam, h.net hnet, Dev.seam]

theorem Dev.postBund_only : Only [.cat] d (d.postBund r) := (Only.refl _ d).post _ _ _ _ _ _ (by simp)

theorem dirBack_mod : dirBack r % 2 ≠ r % 2 := by
  simp only [dirBack, beq_iff_eq]
  split <;> omega
theorem dirOther_mod : dirOther r % 2 = r % 2 := by
  simp only [dirOther, beq_iff_eq]
  split <;> omega
theorem dirBack_ne : dirBack r ≠ r := fun h => dirBack_mod r (congrArg (· % 2) h)
theorem dirBack_le : dirBack r ≤ r + 1 := by
  simp only [dirBack, beq_iff_eq]
  split <;> omega
theorem dirOther_ne : dirOther r ≠ r := by
  simp only [dirOther, beq_iff_eq]
  split <;> omega
theorem dirOther_dirBack_ne : dirOther (dirBack r) ≠ r :=
  fun h => dirBack_mod r ((dirOther_mod (dirBack r)).symm.trans (congrArg (· % 2) h))

end

/-! ### Die links, seams and the control network (O43) -/

/-! #### Frames (R220, R221, R223) -/

/-- A new frame enters the replay buffer with the next FRAME_SEQ (R221). -/
theorem Bund.nextFrame_new {b : Bund} {f : DlFrame} (hreplay : b.replay = none) (hseq : f.frameSeq = b.txSeq + 1) (hroom : b.sent.length < 64) (hbacklog : b.backlog = []) :
    b.nextFrame f = some (f, { b with txSeq := f.frameSeq, sent := b.sent ++ [f], lent := vcCount b.lent (flitsOf f) }) := by
  have hgo : (f.frameSeq != b.txSeq + 1 || decide (64 ≤ b.sent.length)) = false := by simp [hseq, hroom]
  simp only [Bund.nextFrame, hreplay, hgo, hbacklog, Bool.false_eq_true, if_false, List.drop_nil]

/-- Sending a frame changes the sender's side of the direction alone (R221). -/
theorem Bund.nextFrame_sender {b c : Bund} {f g : DlFrame} (h : b.nextFrame f = some (g, c)) :
    ∃ txSeq sent replay backlog lent, c = { b with txSeq := txSeq, sent := sent, replay := replay, backlog := backlog, lent := lent } := by
  unfold Bund.nextFrame at h
  split at h
  · split at h
    · cases h
    · obtain ⟨e, -, he⟩ := Option.map_eq_some_iff.1 h
      cases he
      exact ⟨_, _, _, _, _, rfl⟩
  · split at h
    · cases h
    · cases h
      exact ⟨_, _, _, _, _, rfl⟩

/-- A direction's record after one more frame. -/
def Bund.seen (b : Bund) : Bund := { b with frames := b.frames + 1 }

theorem Bund.parity_nil (b : Bund) (limit : Nat) : b.parity [] limit = (b.seen, []) := by
  simp only [Bund.parity, Bund.seen, List.foldl_nil, List.dedup_nil, List.filter_nil, List.isEmpty_nil, Bool.not_true, Bool.or_false]

section Frames
variable (d : Dev) (r : Nat)

theorem Dev.bundCheck_of_lanes (h : 64 ≤ (d.bund r).lanes.length) : d.bundCheck r = d := if_neg (Nat.not_lt.2 h)

/-- Reading a check word changes the receiver's own direction, and counts a replay (R221). -/
theorem Dev.readCheck_only (w : CheckWord) : Only [.net, .cnt] d (d.readCheck r w) := by
  simp only [Dev.readCheck]
  split
  · exact ((Only.refl _ d).setBund _ _ (by simp)).count _ _ _ _ (by simp)
  · exact (Only.refl _ d).setBund _ _ (by simp)

theorem Dev.bund_readCheck (w : CheckWord) : (d.readCheck r w).bund r = d.bund r := by
  simp only [Dev.readCheck]
  split <;> simp only [Dev.bund_count, Dev.bund_setBund_ne _ _ (dirBack_ne r).symm]

theorem Dev.ctl_readCheck (w : CheckWord) : (d.readCheck r w).net.ctl = d.net.ctl := by
  simp only [Dev.readCheck]
  split <;> rfl

/-- A check word counts nothing among the flits delivered. -/
theorem Dev.counter_readCheck (w : CheckWord) : (d.readCheck r w).counter 0x8017 3 r = d.counter 0x8017 3 r := by
  have hback := dirBack_le r
  simp only [Dev.readCheck]
  split
  · exact Dev.counter_count_ne _ _ _ _ _ _ _ _ (by simp only [ckey]; omega)
  · rfl

/-- A receiver's record after it has heard an intact frame, the next in sequence (R221). -/
def Bund.takes (b : Bund) (f : DlFrame) : Bund := { b with rxSeq := f.frameSeq, nak := false, fails := 0, owed := vcCount b.owed (flitsOf f) }

/-- A receiver's record after a bad frame, which may be the next in sequence (R221, R223). -/
def Bund.asksAgain (b : Bund) (next : Bool) : Bund :=
  { b with nak := true, fails := if next then b.fails + 1 else b.fails, want := b.want || (next && decide (8 ≤ b.fails + 1)) }

/-- A frame has come in: its check word is read, and it counts among the frames seen. -/
def Dev.frameSeen (f : DlFrame) : Dev := (d.readCheck r (d.checkWord r f)).setBund r Bund.seen

variable {d : Dev} {r : Nat} {f : DlFrame}

theorem Dev.frameSeen_only : Only [.net, .cnt] d (d.frameSeen r f) := (d.readCheck_only r _).setBund _ _ (by simp)
theorem Dev.bund_frameSeen : (d.frameSeen r f).bund r = (d.bund r).seen := by rw [Dev.frameSeen, Dev.bund_setBund, Dev.bund_readCheck]
theorem Dev.cyc_frameSeen (i : Nat) : (d.frameSeen r f).cyc i = d.cyc i := by
  rw [Dev.cyc, Dev.die, Dev.frameSeen_only.clk (by simp), Dev.cyc, Dev.die]
theorem Dev.ctl_frameSeen : (d.frameSeen r f).net.ctl = d.net.ctl := d.ctl_readCheck r _
theorem Dev.counter_frameSeen : (d.frameSeen r f).counter 0x8017 3 r = d.counter 0x8017 3 r := d.counter_readCheck r _

section Intact
variable (hpar : f.laneErrors = []) (hlanes : 64 ≤ (d.bund r).lanes.length)
include hpar hlanes

/-- A frame whose lanes all have good parity changes no lane (R222, R223): it is looked at for its flits alone. -/
theorem Dev.frameIn_eq (heard : Dev) (hheard : heard = (d.frameSeen r f).setBund r (fun b => { b with heard := d.cyc (dirDie r) })) : d.frameIn r f =
    if frameOk f then
      if f.frameSeq == (d.bund r).rxSeq + 1 then ((heard.setBund r (fun b => b.takes f)).count 0x8017 3 r (flitsOf f).length).ctlIn f else heard
    else (d.frameSeen r f).setBund r (fun b => b.asksAgain (f.frameSeq == (d.bund r).rxSeq + 1)) := by
  subst hheard
  have hseen : (d.readCheck r (d.checkWord r f)).setBund r (fun _ => ((d.readCheck r (d.checkWord r f)).bund r).seen) = d.frameSeen r f := rfl
  have hsame : (d.frameSeen r f).bundCheck r = d.frameSeen r f := Dev.bundCheck_of_lanes _ _ (by rw [Dev.bund_frameSeen]; exact hlanes)
  have hnext : ((d.readCheck r (d.checkWord r f)).bund r).seen.rxSeq = (d.bund r).rxSeq := congrArg (fun b : Bund => b.seen.rxSeq) (d.bund_readCheck r _)
  simp only [Dev.frameIn, hpar, List.map_nil, Bund.parity_nil, List.foldl_nil, List.isEmpty_nil, if_true, hseen, hsame, hnext, Dev.cyc_frameSeen]
  rfl

/-- An intact frame in sequence delivers its flits and control messages (R221). -/
theorem Dev.frameIn_intact (hok : frameOk f = true) (hseq : f.frameSeq = (d.bund r).rxSeq + 1) : Only [.net, .cnt] d (d.frameIn r f) ∧
    (d.frameIn r f).bund r = { d.bund r with
      frames := (d.bund r).frames + 1, heard := d.cyc (dirDie r), fails := 0, rxSeq := f.frameSeq, nak := false, owed := vcCount (d.bund r).owed (flitsOf f) } ∧
    (d.frameIn r f).net.ctl = d.net.ctl ++ f.msg0.toList ++ f.msg1.toList ∧
    (d.frameIn r f).counter 0x8017 3 r = (d.counter 0x8017 3 r + (flitsOf f).length) % 2 ^ 64 := by
  rw [Dev.frameIn_eq hpar hlanes _ rfl, if_pos hok, if_pos (beq_iff_eq.2 hseq)]
  refine ⟨?_, ?_, ?_, ?_⟩
  · exact (((Dev.frameSeen_only.setBund r _ (by simp)).setBund r _ (by simp)).count _ _ _ _ (by simp)).with_net _ (by simp)
  · simp only [Dev.bund_ctlIn, Dev.bund_count, Dev.bund_setBund, Dev.bund_frameSeen]
    rfl
  · rw [Dev.ctl_ctlIn, Dev.count_net, Dev.ctl_setBund, Dev.ctl_setBund, Dev.ctl_frameSeen]
  · rw [Dev.counter_ctlIn, Dev.counter_count, Dev.counter_setBund, Dev.counter_setBund, Dev.counter_frameSeen]

/-- A bad frame is asked for again, and the eighth failure of one frame calls for a retrain (R221, R223). -/
theorem Dev.frameIn_bad (hbad : frameOk f = false) : Only [.net, .cnt] d (d.frameIn r f) ∧
    (d.frameIn r f).bund r = { d.bund r with
      frames := (d.bund r).frames + 1, nak := true, fails := if f.frameSeq = (d.bund r).rxSeq + 1 then (d.bund r).fails + 1 else (d.bund r).fails,
      want := (d.bund r).want || decide (f.frameSeq = (d.bund r).rxSeq + 1 ∧ 8 ≤ (d.bund r).fails + 1) } ∧
    (d.frameIn r f).net.ctl = d.net.ctl := by
  rw [Dev.frameIn_eq hpar hlanes _ rfl, if_neg (Bool.not_eq_true _ ▸ hbad)]
  refine ⟨Dev.frameSeen_only.setBund r _ (by simp), ?_, Dev.ctl_frameSeen⟩
  have hfails : ∀ n m : Nat, (if f.frameSeq == (d.bund r).rxSeq + 1 then n else m) = if f.frameSeq = (d.bund r).rxSeq + 1 then n else m :=
    fun _ _ => if_congr beq_iff_eq rfl rfl
  have hwant : ∀ n : Nat, (f.frameSeq == (d.bund r).rxSeq + 1 && decide (8 ≤ n)) = decide (f.frameSeq = (d.bund r).rxSeq + 1 ∧ 8 ≤ n) :=
    fun _ => by rw [Bool.decide_and, beq_eq_decide]
  rw [Dev.bund_setBund, Dev.bund_frameSeen, Bund.asksAgain, hfails, hwant]
  rfl

end Intact
end Frames

section
variable {s : State} {dir : DirId} {b c : Bund} {f g : DlFrame} (hb : s.dev.bund dir.val = b) (hst : b.st = 0) (hlost : b.lost = false) (hquiet : b.quiet = false)
  (hnext : b.nextFrame f = some (g, c))
include hb hst hlost hquiet hnext

/-- The sender's next frame reaches a receiver that runs (R221). -/
theorem exec_dieLinkFrame_running (hruns : (dirEnds dir.val).2.1 = 8 ∨ s.dev.runs (dirEnds dir.val).2.1 = true) :
    exec (.dieLinkFrame dir f) s = .next { s with dev := (s.dev.setBund dir.val (fun _ => c)).frameIn dir.val g } := by
  have hexec : exec (.dieLinkFrame dir f) s = execDieLinkFrame dir f s := rfl
  have hgo : ((dirEnds dir.val).2.1 != 8 && !s.dev.runs (dirEnds dir.val).2.1) = false := by
    rcases hruns with h | h <;> simp [h]
  simp only [hexec, execDieLinkFrame, runDev_eq, hb, hst, hlost, hquiet, hnext, hgo, bne_self_eq_false, Bool.or_self, Bool.false_eq_true, if_false]

/-- A frame whose lanes all have good parity reaches a receiver that runs: the sender's record goes on, and the receiver does as the frame's flits say. -/
theorem dieLinkFrame_arrives (hruns : (dirEnds dir.val).2.1 = 8 ∨ s.dev.runs (dirEnds dir.val).2.1 = true) (hpar : g.laneErrors = []) (hlanes : 64 ≤ b.lanes.length) :
    (frameOk g = true → g.frameSeq = b.rxSeq + 1 → Completes (.dieLinkFrame dir f) s (fun t => Keeps [.net, .cnt] s t ∧
      t.dev.bund dir.val = { c with frames := b.frames + 1, heard := s.dev.cyc (dirDie dir.val), fails := 0, rxSeq := g.frameSeq, nak := false, owed := vcCount b.owed (flitsOf g) } ∧
      t.dev.net.ctl = s.dev.net.ctl ++ g.msg0.toList ++ g.msg1.toList ∧
      t.dev.counter 0x8017 3 dir.val = (s.dev.counter 0x8017 3 dir.val + (flitsOf g).length) % 2 ^ 64)) ∧
    (frameOk g = false → Completes (.dieLinkFrame dir f) s (fun t => Keeps [.net, .cnt] s t ∧
      t.dev.bund dir.val = { c with
        frames := b.frames + 1, nak := true, fails := if g.frameSeq = b.rxSeq + 1 then b.fails + 1 else b.fails,
        want := b.want || decide (g.frameSeq = b.rxSeq + 1 ∧ 8 ≤ b.fails + 1) } ∧
      t.dev.net.ctl = s.dev.net.ctl)) := by
  have hexec := exec_dieLinkFrame_running hb hst hlost hquiet hnext hruns
  have hsent := (s.dev.setBund_only dir.val (fun _ => c)).mono (m := [.net, .cnt]) (by simp)
  have hbund : (s.dev.setBund dir.val (fun _ => c)).bund dir.val = c := Dev.bund_setBund _ _ _
  obtain ⟨_, _, _, _, _, rfl⟩ := Bund.nextFrame_sender hnext
  refine ⟨fun hok hseq => ⟨_, hexec, ?_⟩, fun hbad => ⟨_, hexec, ?_⟩⟩
  · obtain ⟨honly, hrec, hctl, hcnt⟩ := Dev.frameIn_intact hpar (by rw [hbund]; exact hlanes) hok (by rw [hbund]; exact hseq)
    exact ⟨(hsent.trans honly).keeps, by rw [hrec, hbund]; rfl, hctl, hcnt⟩
  · obtain ⟨honly, hrec, hctl⟩ := Dev.frameIn_bad hpar (by rw [hbund]; exact hlanes) hbad
    exact ⟨(hsent.trans honly).keeps, by rw [hrec, hbund], hctl⟩

/-- A stopped receiver captures the frame (R410). -/
theorem dieLinkFrame_captured (hdie : (dirEnds dir.val).2.1 ≠ 8) (hstopped : s.dev.runs (dirEnds dir.val).2.1 = false) (hfenced : s.dev.isFenced (dirEnds dir.val).2.1 = false)
    (hmarked : b.marked = false) (hroom : b.captured.length < 64) :
    Completes (.dieLinkFrame dir f) s (fun t => Keeps [.net] s t ∧ t.dev.bund dir.val = { c with captured := b.captured ++ [g], marked := g.stopMark }) := by
  have hexec : exec (.dieLinkFrame dir f) s = execDieLinkFrame dir f s := rfl
  obtain ⟨_, _, _, _, _, rfl⟩ := Bund.nextFrame_sender hnext
  refine completes_dev (s.dev.setBund dir.val (fun _ => _)) hexec ?_ ⟨(s.dev.setBund_only dir.val _).keeps, s.dev.bund_setBund dir.val _⟩
  have hout : ((dirEnds dir.val).2.1 != 8 && !s.dev.runs (dirEnds dir.val).2.1) = true := by simp [hdie, hstopped]
  simp only [hb, hst, hlost, hquiet, hnext, hout, hmarked, hfenced, Nat.not_le.2 hroom, bne_self_eq_false, Bool.or_self, decide_false, Bool.false_eq_true, if_false, if_true]

end

/-! #### Retrains and lost peers (R223, R224) -/

/-- A sender's record when it has stopped and its frames have moved, some to wait (R223). -/
def Bund.handsOver (b : Bund) (waits : List DlFrame) : Bund := { b with sent := [], replay := none, txSeq := b.rxSeq, backlog := waits }

/-- A sender's record when frames of the pair's other bundle have joined what waits (R223). -/
def Bund.takesOver (b : Bund) (moved : List DlFrame) : Bund := { b with backlog := b.backlog ++ moved }

/-- Whether a direction carries traffic. -/
def Bund.carries (b : Bund) : Bool := b.st == 0 && !b.lost && !b.quiet

section
variable (d : Dev) (r : Nat)

/-- What a direction's sender has for its receiver: frames that have not come, and what waits (R223; that those frames alone move is log 80). -/
def Dev.undelivered : List DlFrame := (d.bund r).acked (d.bund r).rxSeq ++ (d.bund r).backlog

theorem Dev.moveFrames_carried (h : (d.bund (dirOther r)).carries = true) : d.moveFrames r =
    (d.setBund r (fun b => b.handsOver [])).setBund (dirOther r) (fun q => q.takesOver (d.undelivered r)) := by
  rw [Bund.carries] at h
  simp only [Dev.moveFrames, h, if_true]
  rfl

theorem Dev.moveFrames_waiting (h : (d.bund (dirOther r)).carries = false) : d.moveFrames r = d.setBund r (fun b => b.handsOver (d.undelivered r)) := by
  rw [Bund.carries] at h
  simp only [Dev.moveFrames, h, Bool.false_eq_true, if_false]
  rfl

theorem Dev.moveFrames_only : Only [.net] d (d.moveFrames r) := ((d.setBund_only r _).setBund _ _ (by simp)).ite (d.setBund_only r _)

theorem Dev.bund_moveFrames : ∃ waits, (d.moveFrames r).bund r = (d.bund r).handsOver waits := by
  cases h : (d.bund (dirOther r)).carries with
  | true => exact ⟨[], by rw [d.moveFrames_carried r h, Dev.bund_setBund_ne _ _ (dirOther_ne r).symm, Dev.bund_setBund]⟩
  | false => exact ⟨d.undelivered r, by rw [d.moveFrames_waiting r h, Dev.bund_setBund]⟩

theorem Dev.bund_moveFrames_other (h : (d.bund (dirOther r)).carries = true) :
    (d.moveFrames r).bund (dirOther r) = (d.bund (dirOther r)).takesOver (d.undelivered r) := by
  rw [d.moveFrames_carried r h, Dev.bund_setBund, Dev.bund_setBund_ne _ _ (dirOther_ne r)]

theorem Dev.bund_moveFrames_ne {k : Nat} (hr : k ≠ r) (ho : k ≠ dirOther r) : (d.moveFrames r).bund k = d.bund k := by
  cases h : (d.bund (dirOther r)).carries with
  | true => rw [d.moveFrames_carried r h, Dev.bund_setBund_ne _ _ ho, Dev.bund_setBund_ne _ _ hr]
  | false => rw [d.moveFrames_waiting r h, Dev.bund_setBund_ne _ _ hr]

end

/-- A direction's peer is lost, and its own sender is to stop (R224). -/
def Dev.losePeer (d : Dev) (r : Nat) : Dev := (d.setBund r (fun b => { b with lost := true })).setBund (dirBack r) (fun b => { b with quiet := true })

theorem Dev.losePeer_only (d : Dev) (r : Nat) : Only [.net] d (d.losePeer r) := (d.setBund_only r _).setBund _ _ (by simp)
theorem Dev.bund_losePeer (d : Dev) (r : Nat) : (d.losePeer r).bund r = { d.bund r with lost := true } := by
  rw [Dev.losePeer, Dev.bund_setBund_ne _ _ (dirBack_ne r).symm, Dev.bund_setBund]
theorem Dev.bund_losePeer_back (d : Dev) (r : Nat) : ((d.losePeer r).bund (dirBack r)).quiet = true := by rw [Dev.losePeer, Dev.bund_setBund]

/-- Recording the lanes that have failed changes the records alone (R223). -/
theorem Dev.recordLanes_only (d : Dev) (r : Nat) (lanes : List (Fin 68)) :
    Only [.cat, .rel] d (lanes.foldl (fun (e : Dev) l => (e.logErr (bundRec r l.val)).changed 6) d) :=
  (Only.refl _ d).foldl _ _ (fun e l => ((Only.refl _ e).logErr _ (by simp)).changed 6 (by simp) (by simp))

section
variable {s : State} {dir : DirId} {b o : Bund} (hb : s.dev.bund dir.val = b)
include hb

/-- A direction that wants it hands its traffic to the other bundle and trains (R223). -/
theorem dieLinkRetrain_trains (ho : s.dev.bund (dirOther dir.val) = o) (hst : b.st = 0) (hwant : b.want = true) :
    Completes (.dieLinkRetrain dir) s (fun t => Keeps [.net, .cnt, .cat] s t ∧
      (t.dev.bund dir.val).st = 1 ∧ (t.dev.bund dir.val).want = false ∧ (t.dev.bund dir.val).sent = [] ∧ (t.dev.bund dir.val).began = s.dev.cyc (dirDie dir.val) ∧
      (o.st = 0 → o.lost = false → o.quiet = false → t.dev.bund (dirOther dir.val) = { o with backlog := o.backlog ++ (b.acked b.rxSeq ++ b.backlog) }) ∧
      t.dev.counter 0x8017 2 dir.val = (s.dev.counter 0x8017 2 dir.val + 1) % 2 ^ 64) := by
  subst hb
  have hexec : exec (.dieLinkRetrain dir) s = execDieLinkRetrain dir s := rfl
  obtain ⟨waits, hmoved⟩ := s.dev.bund_moveFrames dir.val
  have hmoves := s.dev.moveFrames_only dir.val
  have hpost := fun e : Dev => e.postBund_only dir.val
  refine completes_dev _ hexec (if_pos (by rw [hst, hwant]; rfl)) ⟨?_, ?_⟩
  · exact ((((hmoves.setBund _ _ (by simp)).mono (by simp)).count _ _ _ _ (by simp)).trans ((hpost _).mono (by simp))).keeps
  · simp only [(hpost _).bund (by simp), Dev.bund_count, Dev.bund_setBund, hmoved, Bund.handsOver, true_and]
    refine ⟨fun h0 hlost hquiet => ?_, ?_⟩
    · rw [Dev.bund_setBund_ne _ _ (dirOther_ne _), Dev.bund_moveFrames_other _ _ (by rw [ho, Bund.carries, h0, hlost, hquiet]; rfl), ho]
      rfl
    · rw [Dev.counter, (hpost _).cnt (by simp), ← Dev.counter, Dev.counter_count, Dev.counter_setBund, Dev.counter, hmoves.cnt (by simp), Dev.counter]

/-- Training done, the direction returns with the bad lanes in its failed set, once the other bundle has delivered what was routed to it (R223). -/
theorem dieLinkRetrainDone_returns (ho : s.dev.bund (dirOther dir.val) = o) (bad : List (Fin 68)) {u : Bund} (hst : b.st = 1)
    (hempty : o.st ≠ 0 ∨ o.lost = true ∨ o.quiet = true ∨ o.backlog = [] ∧ o.acked o.rxSeq = [])
    (hu : u = { b with st := 0, failed := bad.foldl (fun m l => putBit m l.val true) b.failed, heard := s.dev.cyc (dirDie dir.val) }) (hlanes : 64 ≤ u.lanes.length) :
    Completes (.dieLinkRetrainDone dir bad) s (fun t => Keeps [.net, .cat, .rel] s t ∧ t.dev.bund dir.val = u) := by
  subst hb
  have hexec : exec (.dieLinkRetrainDone dir bad) s = execDieLinkRetrainDone dir bad s := rfl
  have hgo : ((s.dev.bund dir.val).st == 1 && s.dev.otherEmpty dir.val) = true := by
    simp only [hst, Dev.otherEmpty, ho, beq_self_eq_true, Bool.true_and, Bool.or_eq_true, Bool.and_eq_true, bne_iff_ne, List.isEmpty_iff, or_assoc]
    exact hempty
  have hset : (s.dev.setBund dir.val (fun b =>
      { b with st := 0, failed := bad.foldl (fun m l => putBit m l.val true) b.failed, heard := s.dev.cyc (dirDie dir.val) })).bund dir.val = u := by
    rw [Dev.bund_setBund, hu]
  have hnoted := fun (e : Dev) (lanes : List (Fin 68)) => e.recordLanes_only dir.val lanes
  have hpost := fun e : Dev => e.postBund_only dir.val
  refine completes_dev _ hexec ((if_pos hgo).trans (if_neg ?_)) ⟨?_, ?_⟩
  · rw [(hnoted _ _).bund (by simp), hset]
    exact Nat.not_lt.2 hlanes
  · exact ((((s.dev.setBund_only dir.val _).mono (by simp)).trans ((hnoted _ _).mono (by simp))).trans ((hpost _).mono (by simp))).keeps
  · exact ((hpost _).bund (by simp) _).trans (((hnoted _ _).bund (by simp) _).trans hset)

/-- A receiver that has heard nothing for 64 word cycles holds its peer lost, and its own sender stops (R224). -/
theorem dieLinkPeerLost_stops (hst : b.st ≠ 2) (hlost : b.lost = false) (hruns : (dirEnds dir.val).2.1 = 8 ∨ s.dev.runs (dirEnds dir.val).2.1 = true)
    (hdue : b.heard + 256 ≤ s.dev.cyc (dirDie dir.val)) :
    Completes (.dieLinkPeerLost dir) s (fun t => Keeps [.net] s t ∧ t.dev.bund dir.val = { b with lost := true } ∧
      (t.dev.bund (dirBack dir.val)).quiet = true ∧ (t.dev.bund (dirBack dir.val)).sent = []) := by
  subst hb
  have hexec : exec (.dieLinkPeerLost dir) s = execDieLinkPeerLost dir s := rfl
  have hgo : ((s.dev.bund dir.val).st == 2 || (s.dev.bund dir.val).lost || ((dirEnds dir.val).2.1 != 8 && !s.dev.runs (dirEnds dir.val).2.1)) = false := by
    rcases hruns with h | h <;> simp [h, hst, hlost]
  obtain ⟨waits, hmoved⟩ := (s.dev.losePeer dir.val).bund_moveFrames (dirBack dir.val)
  refine completes_dev ((s.dev.losePeer dir.val).moveFrames (dirBack dir.val)) hexec ?_ ⟨((s.dev.losePeer_only dir.val).trans (Dev.moveFrames_only _ _)).keeps, ?_, ?_, ?_⟩
  · simp only [hgo, if_false, Bool.false_eq_true, Dev.reach_of_le _ _ _ hdue]
    rfl
  · rw [Dev.bund_moveFrames_ne _ _ (dirBack_ne _).symm (dirOther_dirBack_ne _).symm, Dev.bund_losePeer]
  · rw [hmoved]
    exact s.dev.bund_losePeer_back dir.val
  · rw [hmoved]
    rfl

end

/-! #### Seams (R215, R219) -/

/-- A replayed flit of a lane in service is counted for its lane and its requester's Vitrine (R219, R236). -/
theorem flitCrcReplay_counts {s : State} (i : DieId) (v : VitId) {p : SeamId × Fin 27} (since : BitVec 16) (h : (s.dev.seam p.1.val).active.contains p.2.val = true) :
    Completes (.flitCrcReplay i (some p) ⟨v, since⟩) s (fun t => Keeps [.net, .cnt] s t ∧
      kget 0 (t.dev.seam p.1.val).flits p.2.val = kget 0 (s.dev.seam p.1.val).flits p.2.val + since.toNat + 1 ∧
      t.dev.counter 0x8016 4 v.toNat = (s.dev.counter 0x8016 4 v.toNat + 1) % 2 ^ 64) := by
  have hexec : exec (.flitCrcReplay i (some p) ⟨v, since⟩) s = execFlitCrcReplay i (some p) ⟨v, since⟩ s := rfl
  refine completes_dev _ hexec (if_neg (by rw [h]; decide)) ⟨?_, ?_, Dev.counter_count _ _ _ _ _⟩
  · exact (((Only.refl _ s.dev).setSeam _ _ (by simp)).count _ _ _ _ (by simp)).keeps
  · rw [Dev.seam_count, Dev.seam_setSeam, kget_kset]

/-- A replayed flit of a lane out of service, or of no seam, is counted nowhere. -/
theorem flitCrcReplay_uncounted {s : State} (i : DieId) {seam : Option (SeamId × Fin 27)} (v : ReplayFor)
    (h : ∀ p, seam = some p → (s.dev.seam p.1.val).active.contains p.2.val = false) : Completes (.flitCrcReplay i seam v) s (fun t => t = s) := by
  have hexec : exec (.flitCrcReplay i seam v) s = execFlitCrcReplay i seam v s := rfl
  refine completes_dev s.dev hexec ?_ rfl
  cases seam with
  | none => rfl
  | some p => exact if_pos (by rw [h p rfl]; rfl)

/-- While no lane has been replaced the spare lane carries no flits (R219). -/
theorem Seam.spare_inactive {k : Seam} (h : k.spareFor = none) : k.active.contains 26 = false := by
  simp [Seam.active, h]

section
variable (d : Dev) (sm lane : Nat)

theorem Dev.seamFailed_only : Only [.net, .cat, .rel] d (d.seamFailed sm lane) :=
  ((((Only.refl _ d).setSeam _ _ (by simp)).post _ _ _ _ _ _ (by simp)).logErr _ (by simp)).changed 6 (by simp) (by simp)

/-- What a failed lane leaves of its seam: recorded, and where the spare is free replaced by it. -/
theorem Dev.seam_seamFailed : (d.seamFailed sm lane).seam sm = { d.seam sm with
    failed := putBit (d.seam sm).failed lane true
    spareFor := if (d.seam sm).spareFor.isNone && lane != 26 then some lane else (d.seam sm).spareFor
    pauseEnd := if (d.seam sm).spareFor.isNone && lane != 26 then (d.die (sm / 2)).root + 2048 * 4 else (d.seam sm).pauseEnd } := by
  have hrest := fun (e : Dev) (c i a b : Nat) (r : ErrRec) =>
    (((Only.refl [.cat, .rel] e).post c 1 i a b 0 (by simp)).logErr r (by simp)).changed 6 (by simp) (by simp)
  exact ((hrest _ _ _ _ _ _).seam (by simp) sm).trans (Dev.seam_setSeam _ _ _)

end

section
variable {s : State} {sm : SeamId} {lane : Fin 27} {k : Seam} (hk : s.dev.seam sm.val = k)
include hk

theorem exec_seamLaneSubstitute (hruns : s.dev.runs (sm.val / 2) = true) (hnew : k.failed.getLsbD lane.val = false) (hactive : k.active.contains lane.val = true)
    (hfailing : k.failing lane.val = true) : exec (.seamLaneSubstitute sm lane) s = .next { s with dev := s.dev.seamFailed sm.val lane.val } := by
  have hexec : exec (.seamLaneSubstitute sm lane) s = execSeamLaneSubstitute sm lane s := rfl
  simp only [hexec, execSeamLaneSubstitute, runDev_eq, hk, hruns, hnew, hactive, hfailing, Bool.not_true, Bool.or_self, Bool.false_eq_true, if_false]

/-- The first lane that fails gives way to the spare while the direction pauses (R219). -/
theorem seamLaneSubstitute_replaces (hruns : s.dev.runs (sm.val / 2) = true) (hnew : k.failed.getLsbD lane.val = false) (hactive : k.active.contains lane.val = true)
    (hfailing : k.failing lane.val = true) (hspare : k.spareFor = none) : Completes (.seamLaneSubstitute sm lane) s (fun t => Keeps [.net, .cat, .rel] s t ∧
      t.dev.seam sm.val = { k with spareFor := some lane.val, failed := putBit k.failed lane.val true, pauseEnd := (s.dev.die (sm.val / 2)).root + 2048 * 4 }) := by
  have hlane : lane.val ≠ 26 := fun h => by rw [h, Seam.spare_inactive hspare] at hactive; cases hactive
  refine ⟨_, exec_seamLaneSubstitute hk hruns hnew hactive hfailing, (Dev.seamFailed_only _ _ _).keeps, ?_⟩
  simp [Dev.seam_seamFailed, hk, hspare, hlane]

/-- A second failing lane stays in service and is only recorded (R219). -/
theorem seamLaneSubstitute_records (hruns : s.dev.runs (sm.val / 2) = true) (hnew : k.failed.getLsbD lane.val = false) (hactive : k.active.contains lane.val = true)
    (hfailing : k.failing lane.val = true) (hspare : k.spareFor ≠ none) : Completes (.seamLaneSubstitute sm lane) s (fun t => Keeps [.net, .cat, .rel] s t ∧
      t.dev.seam sm.val = { k with failed := putBit k.failed lane.val true }) := by
  have htaken : k.spareFor.isNone = false := Option.isNone_eq_false_iff.2 (Option.isSome_iff_ne_none.2 hspare)
  refine ⟨_, exec_seamLaneSubstitute hk hruns hnew hactive hfailing, (Dev.seamFailed_only _ _ _).keeps, ?_⟩
  simp only [Dev.seam_seamFailed, hk, htaken, Bool.false_and, Bool.false_eq_true, if_false]

theorem seamLaneSubstitute_nothing (hsound : k.failing lane.val = false) : Completes (.seamLaneSubstitute sm lane) s (fun t => t = s) := by
  have hexec : exec (.seamLaneSubstitute sm lane) s = execSeamLaneSubstitute sm lane s := rfl
  exact completes_dev s.dev hexec (if_pos (by rw [hk, hsound, Bool.not_false, Bool.or_true])) rfl

end

/-! #### The control network (R225) -/

/-- The message to go first of the one chosen so far and the next in line: the first of the highest class (R225). -/
def CtlMsg.prior (b : Option CtlMsg) (m : CtlMsg) : Option CtlMsg :=
  match b with
  | none => some m
  | some t => if ctlRank m.cls < ctlRank t.cls then some m else some t

/-- Of a line of messages one of the highest class goes first (R225). -/
theorem CtlMsg.foldl_prior (l : List CtlMsg) (t : CtlMsg) :
    ∃ m ∈ t :: l, l.foldl CtlMsg.prior (some t) = some m ∧ ∀ k ∈ t :: l, ctlRank m.cls ≤ ctlRank k.cls := by
  induction l generalizing t with
  | nil => exact ⟨t, List.mem_singleton_self t, rfl, fun k hk => by rw [List.mem_singleton.1 hk]⟩
  | cons u l ih =>
    by_cases hlt : ctlRank u.cls < ctlRank t.cls
    · obtain ⟨m, hm, hfold, hle⟩ := ih u
      refine ⟨m, List.mem_cons_of_mem t hm, by rw [List.foldl_cons, CtlMsg.prior, if_pos hlt]; exact hfold, ?_⟩
      exact List.forall_mem_cons.2 ⟨(hle u List.mem_cons_self).trans hlt.le, hle⟩
    · obtain ⟨m, hm, hfold, hle⟩ := ih t
      obtain ⟨ht, hl⟩ := List.forall_mem_cons.1 hle
      refine ⟨m, ?_, by rw [List.foldl_cons, CtlMsg.prior, if_neg hlt]; exact hfold, ?_⟩
      · exact (List.mem_cons.1 hm).elim (fun h => h ▸ List.mem_cons_self) (fun h => List.mem_cons_of_mem _ (List.mem_cons_of_mem _ h))
      · exact List.forall_mem_cons.2 ⟨ht, List.forall_mem_cons.2 ⟨ht.trans (Nat.not_lt.1 hlt), hl⟩⟩

theorem CtlMsg.on_iff (m : CtlMsg) (up : Bool) (i : DieId) : CtlMsg.on m up i = true ↔ m.toAtrium = up ∧ m.die = i := by
  simp only [CtlMsg.on, Bool.and_eq_true, beq_iff_eq]

/-- The message of a die's link in one direction that goes first is one of the highest class there (R225). -/
theorem CtlMsg.exists_prior {l : List CtlMsg} {up : Bool} {i : DieId} {n : CtlMsg} (hn : n ∈ l) (hup : n.toAtrium = up) (hi : n.die = i) :
    ∃ m ∈ l, (l.filter (fun m => CtlMsg.on m up i)).foldl CtlMsg.prior none = some m ∧ m.toAtrium = up ∧ m.die = i ∧
      ∀ k ∈ l, k.toAtrium = up → k.die = i → ctlRank m.cls ≤ ctlRank k.cls := by
  have hline : ∀ k, k ∈ l.filter (fun m => CtlMsg.on m up i) ↔ k ∈ l ∧ k.toAtrium = up ∧ k.die = i := fun k => by rw [List.mem_filter, CtlMsg.on_iff]
  generalize l.filter (fun m => CtlMsg.on m up i) = line at hline
  cases line with
  | nil => exact absurd ((hline n).2 ⟨hn, hup, hi⟩) List.not_mem_nil
  | cons t line =>
    obtain ⟨m, hm, hfold, hle⟩ := CtlMsg.foldl_prior line t
    obtain ⟨hml, hmup, hmi⟩ := (hline m).1 hm
    exact ⟨m, hml, hfold, hmup, hmi, fun k hk hkup hki => hle k ((hline k).2 ⟨hk, hkup, hki⟩)⟩

/-- The control network after a message has been taken from a die's link: on its way beyond the Atrium, or with its agent (R225). -/
def Net.delivers (n : Net) (up : Bool) (i : DieId) (m : CtlMsg) : Net :=
  match m.toAtrium, m.beyond with
  | true, some e => { n with ctl := delFirst (fun k => k == m) n.ctl ++ [{ m with toAtrium := false, die := e, beyond := none }] }
  | _, _ => { n with ctl := delFirst (fun k => k == m) n.ctl, got := m :: n.got.filter (fun k => !(CtlMsg.on k up i && k.agent == m.agent)) }

/-- The first message of the highest class on a die's link in one direction is taken, if one is there (R225). -/
def Dev.ctlStep (d : Dev) (up : Bool) (i : DieId) : Dev :=
  match (d.net.ctl.filter (fun m => CtlMsg.on m up i)).foldl CtlMsg.prior none with
  | some m => d.onNet (fun n => n.delivers up i m)
  | none => d

theorem execControlMessage_eq (up : Bool) (i : DieId) (s : State) :
    execControlMessage up i s = runDev s (fun _ _ d => if !up && !d.runs i.toNat then d else d.ctlStep up i) := rfl

/-- The control network delivers a message of the highest class between a die and the Atrium (R225). -/
theorem controlMessage_delivers {s : State} {up : Bool} {i : DieId} {n : CtlMsg} (hruns : up = false → s.dev.runs i.toNat = true) (hn : n ∈ s.dev.net.ctl)
    (hup : n.toAtrium = up) (hi : n.die = i) : Completes (.controlMessage up i) s (fun t => Keeps [.net] s t ∧ ∃ m ∈ s.dev.net.ctl, m.toAtrium = up ∧ m.die = i ∧
      (∀ k ∈ s.dev.net.ctl, k.toAtrium = up → k.die = i → ctlRank m.cls ≤ ctlRank k.cls) ∧
      (∀ e, up = true → m.beyond = some e → t.dev.net = { s.dev.net with ctl := delFirst (fun k => k == m) s.dev.net.ctl ++ [{ m with toAtrium := false, die := e, beyond := none }] }) ∧
      (up = false ∨ m.beyond = none → t.dev.net = { s.dev.net with
        ctl := delFirst (fun k => k == m) s.dev.net.ctl, got := m :: s.dev.net.got.filter (fun k => !(CtlMsg.on k up i && k.agent == m.agent)) })) := by
  have hexec : exec (.controlMessage up i) s = _ := execControlMessage_eq up i s
  have hgo : (!up && !s.dev.runs i.toNat) = false := by
    cases up with
    | true => rfl
    | false => rw [hruns rfl]; rfl
  obtain ⟨m, hm, hfirst, hmup, hmi, hle⟩ := CtlMsg.exists_prior hn hup hi
  refine completes_dev (s.dev.onNet (fun n => n.delivers up i m)) hexec ?_ ⟨((Only.refl _ s.dev).with_net _ (by simp)).keeps, m, hm, hmup, hmi, hle, ?_, ?_⟩
  · simp only [hgo, Bool.false_eq_true, if_false]
    rw [Dev.ctlStep, hfirst]
  · intro e hto hbeyond
    simp only [Dev.onNet, Net.delivers, hmup, hto, hbeyond]
  · rintro (hto | hbeyond)
    · simp only [Dev.onNet, Net.delivers, hmup, hto]
    · cases up <;> simp only [Dev.onNet, Net.delivers, hmup, hbeyond]

/-- Settles O43: frames, retrains and lost peers of die links, replays and lanes of seams, and the control network. That a retrain moves
the frames its receiver has not had is log 80's reading of R223. -/
theorem linksDeliverRetrainAndSubstitute : Obligations.LinksDeliverRetrainAndSubstitute := by
  intro s
  refine ⟨fun dir b hb => ⟨fun f => Bund.nextFrame_new, fun f g c hst hlost hquiet hnext => ⟨?_, ?_⟩, fun o ho => ⟨dieLinkRetrain_trains hb ho, ?_⟩, dieLinkPeerLost_stops hb⟩,
    fun i v p since => ⟨flitCrcReplay_counts i v since, ?_, flitCrcReplay_uncounted i _ (fun p hp => by cases hp)⟩,
    fun sm lane k hk => ⟨fun hruns hnew hactive hfailing => ⟨?_, ?_⟩, seamLaneSubstitute_nothing hk⟩,
    fun up i n => controlMessage_delivers⟩
  · exact fun hruns hpar hlanes => dieLinkFrame_arrives hb hst hlost hquiet hnext hruns hpar hlanes
  · exact dieLinkFrame_captured hb hst hlost hquiet hnext
  · exact fun bad u hst hempty hu hlanes => dieLinkRetrainDone_returns hb ho bad hst hempty hu hlanes
  · exact fun hout => flitCrcReplay_uncounted i _ (fun q hq => by cases hq; exact hout)
  · exact seamLaneSubstitute_replaces hk hruns hnew hactive hfailing
  · exact seamLaneSubstitute_records hk hruns hnew hactive hfailing

/-! ### Ports take tokens, and misses are reported (O44) -/

/-- With no request held a returned token goes to nobody (R229). -/
theorem Dev.grantHeld_of_held_nil (d : Dev) (v : VitId) (h : (d.reg v).held = []) : d.grantHeld v = d := by rw [Dev.grantHeld, h, List.foldl_nil]

theorem Dev.grantHeld_only (d : Dev) (v : VitId) : Only [.net] d (d.grantHeld v) := by
  refine (Only.refl _ d).foldl _ _ (fun e _ => ?_)
  dsimp only
  split
  · exact e.setReg_only v _
  · exact Only.refl _ e

section Ports
variable {s : State} {v : VitId} {r : Reg} (hreg : s.dev.reg v = r) {p : MPort}
include hreg

/-- A port behind which nothing waits takes a token that it may have (R229). -/
theorem portIssue_takes (hruns : s.dev.runs (dieOfVit v) = true) (hfree : r.held.any (fun h => h.1 == p) = false) (hmay : s.dev.mayIssue v r p = true) :
    Completes (.portIssue v p) s (fun t => Keeps [.net] s t ∧ t.dev.reg v = r.setOut p (r.held' p + 1)) := by
  subst hreg
  have hexec : exec (.portIssue v p) s = execPortIssue v p s := rfl
  refine completes_dev (s.dev.setReg v (fun r => r.setOut p (r.held' p + 1))) hexec ?_ ⟨(s.dev.setReg_only v _).keeps, s.dev.reg_setReg v _⟩
  simp only [hruns, hfree, hmay, Bool.not_true, Bool.not_false, Bool.and_self, Bool.false_eq_true, if_false, if_true]

/-- A port that may have no token, or behind which others wait, holds the transaction behind them (R229). -/
theorem portIssue_holds (hruns : s.dev.runs (dieOfVit v) = true) (hheld : r.held.any (fun h => h.1 == p) = true ∨ s.dev.mayIssue v r p = false) :
    Completes (.portIssue v p) s (fun t => Keeps [.net] s t ∧ t.dev.reg v = { r with held := r.held ++ [(p, s.dev.cyc (dieOfVit v))] }) := by
  subst hreg
  have hexec : exec (.portIssue v p) s = execPortIssue v p s := rfl
  have hno : (!(s.dev.reg v).held.any (fun h => h.1 == p) && s.dev.mayIssue v (s.dev.reg v) p) = false := by
    rcases hheld with h | h <;> simp only [h, Bool.not_true, Bool.false_and, Bool.and_false]
  refine completes_dev (s.dev.setReg v (fun r => { r with held := r.held ++ [(p, s.dev.cyc (dieOfVit v))] })) hexec ?_
    ⟨(s.dev.setReg_only v _).keeps, s.dev.reg_setReg v _⟩
  simp only [hruns, hno, Bool.not_true, Bool.false_eq_true, if_false]

theorem exec_tokenReturn (hheld : 0 < r.held' p) :
    exec (.tokenReturn v p) s = .next { s with dev := (s.dev.setReg v (fun r => r.setOut p (r.held' p - 1))).grantHeld v } := by
  subst hreg
  have hexec : exec (.tokenReturn v p) s = execTokenReturn v p s := rfl
  rw [hexec, execTokenReturn, runDev_eq, if_pos hheld]

/-- A returned token is free for the requests held (R229). -/
theorem tokenReturn_keeps (hheld : 0 < r.held' p) : Completes (.tokenReturn v p) s (fun t => Keeps [.net] s t) :=
  ⟨_, exec_tokenReturn hreg hheld, ((s.dev.setReg_only v _).trans (Dev.grantHeld_only _ v)).keeps⟩

/-- While no request is held a returned token is the port's no more (R229). -/
theorem tokenReturn_frees (hnone : r.held = []) (hheld : 0 < r.held' p) :
    Completes (.tokenReturn v p) s (fun t => Keeps [.net] s t ∧ t.dev.reg v = r.setOut p (r.held' p - 1)) := by
  have hnobody : (s.dev.setReg v (fun r => r.setOut p (r.held' p - 1))).grantHeld v = s.dev.setReg v (fun r => r.setOut p (r.held' p - 1)) :=
    Dev.grantHeld_of_held_nil _ _ (by rw [Dev.reg_setReg, hreg]; exact hnone)
  refine ⟨_, exec_tokenReturn hreg hheld, ?_⟩
  rw [hnobody]
  exact ⟨(s.dev.setReg_only v _).keeps, by rw [Dev.reg_setReg, hreg]⟩

end Ports

section
variable (d : Dev) (v : VitId) (k n r : Nat)

theorem Dev.postVit_acc (c a b : Nat) : (d.postVit c v a b).cat.acc = d.cat.acc := by
  rw [Dev.postVit, Dev.post, Dev.onCat_cat, Cat.push]
theorem Dev.vacc_postVit (c a b : Nat) : (d.postVit c v a b).vacc v k n r = d.vacc v k n r := by
  rw [Dev.vacc, Dev.acc, Dev.postVit_acc, Dev.vacc, Dev.acc]
theorem Dev.vacc_onSrv (f : Srv → Srv) : (d.onSrv f).vacc v k n r = d.vacc v k n r := rfl
theorem Dev.vacc_count (i m q a : Nat) : (d.count i m q a).vacc v k n r = d.vacc v k n r := rfl
theorem Dev.vacc_setAcc (val : Nat) : (d.setAcc (0x3000 + v.toNat * 16 + k) n r val).vacc v k n r = val := d.acc_setAcc _ _ _ _
theorem Dev.counter_postVit (c a b : Nat) : (d.postVit c v a b).counter k n r = d.counter k n r := by rw [Dev.counter, Dev.postVit_cnt, Dev.counter]
theorem Dev.counter_onSrv (f : Srv → Srv) : (d.onSrv f).counter k n r = d.counter k n r := rfl
theorem Dev.counter_setAcc (i m q val : Nat) : (d.setAcc i m q val).counter k n r = d.counter k n r := rfl

end

/-- A miss of a Vitrine has been reported with its bit of REG_MISS_STATUS, its counter row and, of a bit that was clear, its interrupt (R232). -/
def Dev.Missed (v : VitId) (bit sub : Nat) (d e : Dev) : Prop :=
  e.vacc v 8 5 = d.vacc v 8 5 ||| 2 ^ bit ∧ e.counter 0x8016 sub v.toNat = (d.counter 0x8016 sub v.toNat + 1) % 2 ^ 64 ∧
  e.srv.intr = d.srv.intr ++ (if fld (d.vacc v 8 5) bit 1 = 1 then [] else [(v.toNat + 1, 64)])

section Misses
variable (d : Dev) (v : VitId)

theorem Dev.miss_only (bit cls : Nat) (late : Bool) : Only [.cat, .cnt, .srv] d (d.miss v bit cls late) := by
  have hcounted := ((Only.refl [.cat, .cnt, .srv] d).setAcc (0x3000 + v.toNat * 16 + 8) 5 0 (d.vacc v 8 5 ||| 2 ^ bit) (by simp)).count 0x8016 (if late then 3 else 2) v.toNat 1 (by simp)
  exact (hcounted.ite (hcounted.onSrv _ (by simp))).postVit _ _ _ _ (by simp)

/-- What a miss changes (R232): a late transfer counts in subindex 3 (R233), the end of a window in subindex 2. -/
theorem Dev.missed_miss (bit cls : Nat) (late : Bool) : Dev.Missed v bit (if late then 3 else 2) d (d.miss v bit cls late) := by
  simp only [Dev.Missed, Dev.miss, Dev.vacc_postVit, Dev.counter_postVit, Dev.postVit_srv, beq_iff_eq]
  split <;> simp only [Dev.vacc_onSrv, Dev.counter_onSrv, Dev.vacc_count, Dev.vacc_setAcc, Dev.counter_count, Dev.counter_setAcc, Dev.onSrv_srv, Dev.count_srv, Dev.setAcc_srv,
    List.append_nil, and_self]

theorem Dev.pointMiss_only (on : Bool) (bit : Nat) : Only [.cat, .cnt, .srv, .fresh] d (d.pointMiss v on bit) :=
  ((((Only.refl _ d).with_fresh _ (by simp)).trans ((Dev.miss_only _ v bit _ false).mono (by simp)))).ite (Only.refl _ d)

/-- The misses of the arbitration points that a window found (R232). -/
def Dev.pointMisses (m : MissView) : Dev := (((d.pointMiss v m.router 1).pointMiss v m.seam 2).pointMiss v m.dieLink 3).pointMiss v m.atrium 4

theorem Dev.pointMisses_only (m : MissView) : Only [.cat, .cnt, .srv, .fresh] d (d.pointMisses v m) :=
  (((d.pointMiss_only v _ _).trans (Dev.pointMiss_only _ v _ _)).trans (Dev.pointMiss_only _ v _ _)).trans (Dev.pointMiss_only _ v _ _)

theorem Dev.pointMisses_none {m : MissView} (h : m.router = false ∧ m.seam = false ∧ m.dieLink = false ∧ m.atrium = false) : d.pointMisses v m = d := by
  obtain ⟨hrouter, hseam, hlink, hatrium⟩ := h
  rw [Dev.pointMisses, hrouter, hseam, hlink, hatrium]
  rfl

/-- The miss of the ports that a window found, by its class (R232). -/
def Dev.portMiss : Option RegClass → Dev
  | some c => d.miss v 5 (clsNum c) false
  | none => d

theorem Dev.portMiss_only (c : Option RegClass) : Only [.cat, .cnt, .srv] d (d.portMiss v c) := by
  cases c with
  | some c => exact d.miss_only v _ _ _
  | none => exact Only.refl _ d

/-- A regulation window of the Vitrine ends at its die's core cycle (R232). -/
def Dev.windowEnds : Dev := d.setVit v (fun t => { t with missAt := d.cyc (dieOfVit v) })

theorem Dev.windowEnds_only : Only [.vits] d (d.windowEnds v) := (Only.refl _ d).setVit _ _ (by simp)

end Misses

section Windows
variable {s : State} {v : VitId} (hruns : s.dev.runs (dieOfVit v) = true)
include hruns

/-- A window that is due ends, and what it found is reported (R232). -/
theorem exec_regWindowEnd (m : MissView) (hdue : (s.dev.vit v).missAt + 2 ^ s.dev.vset v 8 3 ≤ s.dev.cyc (dieOfVit v)) :
    exec (.regWindowEnd v m) s = .next { s with dev := ((s.dev.windowEnds v).pointMisses v m).portMiss v m.port } := by
  have hexec : exec (.regWindowEnd v m) s = execRegWindowEnd v m s := rfl
  simp only [hexec, execRegWindowEnd, runDev_eq, hruns, Bool.not_true, Bool.false_eq_true, if_false, Dev.reach_of_le _ _ _ hdue]
  cases m.port <;> rfl

/-- Whatever a window found, the next one begins with its end (R232). -/
theorem regWindowEnd_begins (m : MissView) (hdue : (s.dev.vit v).missAt + 2 ^ s.dev.vset v 8 3 ≤ s.dev.cyc (dieOfVit v)) :
    Completes (.regWindowEnd v m) s (fun t => Keeps [.vits, .cat, .cnt, .srv, .fresh] s t ∧ (t.dev.vit v).missAt = s.dev.cyc (dieOfVit v)) := by
  have hmisses := ((s.dev.windowEnds v).pointMisses_only v m).trans ((Dev.portMiss_only _ v m.port).mono (by simp))
  refine ⟨_, exec_regWindowEnd hruns m hdue, (((s.dev.windowEnds_only v).mono (by simp)).trans (hmisses.mono (by simp))).keeps, ?_⟩
  rw [hmisses.vit (by simp), Dev.windowEnds, Dev.vit_setVit]

/-- A window in which the ports of one class alone missed (R232). -/
theorem regWindowEnd_misses {m : MissView} {c : RegClass} (hpoints : m.router = false ∧ m.seam = false ∧ m.dieLink = false ∧ m.atrium = false) (hport : m.port = some c)
    (hdue : (s.dev.vit v).missAt + 2 ^ s.dev.vset v 8 3 ≤ s.dev.cyc (dieOfVit v)) :
    Completes (.regWindowEnd v m) s (fun t => Keeps [.vits, .cat, .cnt, .srv] s t ∧ t.dev.vit v = { s.dev.vit v with missAt := s.dev.cyc (dieOfVit v) } ∧
      Dev.Missed v 5 2 s.dev t.dev) := by
  have hmiss := (s.dev.windowEnds v).miss_only v 5 (clsNum c) false
  refine ⟨_, exec_regWindowEnd hruns m hdue, ?_⟩
  rw [Dev.pointMisses_none _ v hpoints, hport]
  refine ⟨(((s.dev.windowEnds_only v).mono (by simp)).trans (hmiss.mono (by simp))).keeps, ?_, (s.dev.windowEnds v).missed_miss v 5 (clsNum c) false⟩
  exact (hmiss.vit (by simp) v).trans (Dev.vit_setVit _ _ _)

/-- A transfer whose slack is below zero is late (R233). -/
theorem mediaResponse_late {slack : BitVec 16} (hlate : slack.msb = true) :
    Completes (.mediaResponse v slack) s (fun t => Keeps [.cat, .cnt, .srv] s t ∧ Dev.Missed v 0 3 s.dev t.dev) := by
  have hexec : exec (.mediaResponse v slack) s = execMediaResponse v slack s := rfl
  refine completes_dev (s.dev.miss v 0 3 true) hexec ?_ ⟨(s.dev.miss_only v 0 3 true).keeps, s.dev.missed_miss v 0 3 true⟩
  simp only [hruns, hlate, Bool.and_self, if_true]

end Windows

theorem mediaResponse_in_time {s : State} {v : VitId} {slack : BitVec 16} (hslack : slack.msb = false) : Completes (.mediaResponse v slack) s (fun t => t = s) := by
  have hexec : exec (.mediaResponse v slack) s = execMediaResponse v slack s := rfl
  refine completes_dev s.dev hexec ?_ rfl
  simp only [hslack, Bool.and_false, Bool.false_eq_true, if_false]

/-- Settles O44: a port's transaction takes a token or is held, a token returns, and misses of windows and of media transfers are reported. -/
theorem portsAreRegulated : Obligations.PortsAreRegulated := by
  intro s v r st hreg hst hruns
  subst hst
  refine ⟨fun p => ⟨portIssue_takes hreg hruns, portIssue_holds hreg hruns, tokenReturn_frees hreg, tokenReturn_keeps hreg⟩, regWindowEnd_begins hruns, ?_,
    fun slack => ⟨mediaResponse_late hruns, mediaResponse_in_time⟩⟩
  intro m c hrouter hseam hlink hatrium hport hdue
  exact regWindowEnd_misses hruns ⟨hrouter, hseam, hlink, hatrium⟩ hport hdue

end Sys2Proof.Machine

namespace Sys2Proof.Machine

/-! ### What sending operations leaves of the fabric (O27, O45, O46, O48) -/

/-- A link but for what it sends: its operations, their numbers and its credits (R239, R240). -/
def Link.bare (k : Link) : Link := { k with txSeq := 0, sent := [], wait := [], creditData := 0, creditTransit := 0, creditMgmt := 0 }

theorem Link.bare_useCredit (k : Link) (c n : Nat) : (k.useCredit c n).bare = k.bare := by
  unfold Link.useCredit
  split <;> rfl

theorem Link.bare_flush (k : Link) : k.flush.bare = k.bare := by
  refine foldl_keeps (fun a : Link × List (Nat × ROp) => a.1.bare) _ (fun a w => ?_) k.wait (k, [])
  dsimp only
  split
  · exact Link.bare_useCredit _ _ _
  · rfl

/-- A link on which nothing waits has nothing to send. -/
theorem Link.flush_idle (k : Link) (h : k.wait = []) : k.flush = k := by
  obtain ⟨st, reason, peer, peerLink, rxSeq, txSeq, nak, authFails, heard, data, transit, mgmt, sent, wait⟩ := k
  dsimp only at h
  subst h
  rfl

/-- The fabric but for its links and its own operations: remote instructions, source entries, transit, ALIAS rows and PENDANT_STATE (R246, R248, R253, R255). -/
def Fab.steady (b : Fab) : Fab := { b with links := [], ops := [], tags := [], loop := [] }

/-- What sending operations leaves: each link but for what it sends, and the fabric but for its links and its own operations. -/
structure Dev.SteadyFab (d e : Dev) : Prop where
  fab : e.fab.steady = d.fab.steady
  link : ∀ l, (e.link l).bare = (d.link l).bare

namespace Dev.SteadyFab

theorem refl (d : Dev) : Dev.SteadyFab d d := ⟨rfl, fun _ => rfl⟩

theorem trans {d e f : Dev} (h : Dev.SteadyFab d e) (k : Dev.SteadyFab e f) : Dev.SteadyFab d f :=
  ⟨k.fab.trans h.fab, fun l => (k.link l).trans (h.link l)⟩

theorem foldl {β : Type} (f : Dev → β → Dev) (hf : ∀ e b, Dev.SteadyFab e (f e b)) (bs : List β) (d : Dev) : Dev.SteadyFab d (bs.foldl f d) := by
  induction bs generalizing d with
  | nil => exact refl d
  | cons b bs ih => exact (hf d b).trans (ih _)

theorem of_fab_eq {d e : Dev} (h : e.fab = d.fab) : Dev.SteadyFab d e := ⟨by rw [h], fun l => by rw [Dev.link, h, Dev.link]⟩

/-- A change of the fabric's own operations and tags. -/
theorem onFab (d : Dev) (f : Fab → Fab) (hsteady : (f d.fab).steady = d.fab.steady) (hlinks : (f d.fab).links = d.fab.links) : Dev.SteadyFab d (d.onFab f) :=
  ⟨hsteady, fun l => by rw [Dev.link, Dev.onFab, hlinks, Dev.link]⟩

theorem setLink (d : Dev) (l : Nat) (f : Link → Link) (hf : ∀ k, (f k).bare = k.bare) : Dev.SteadyFab d (d.setLink l f) := by
  refine ⟨rfl, fun j => ?_⟩
  by_cases hj : j = l
  · subst hj
    rw [Dev.link_setLink]
    exact hf _
  · rw [Dev.link_setLink_ne _ _ _ _ hj]

theorem txOp (d : Dev) (l cls : Nat) (op : ROp) : Dev.SteadyFab d (d.txOp l cls op) := setLink d l _ (fun _ => Link.bare_flush _)

theorem sendFree (d : Dev) (own : VitId → Bool) (op : ROp) : Dev.SteadyFab d (d.sendFree own op) := by
  unfold Dev.sendFree
  split
  · exact onFab d _ rfl rfl
  · split
    · exact txOp d _ 0 op
    · exact refl d

theorem sendOp (d : Dev) (o : RemOp) : Dev.SteadyFab d (d.sendOp o).1 := by
  simp only [Dev.sendOp]
  split
  · exact onFab d (fun b => { b with loop := b.loop ++ [o.op] }) rfl rfl
  · split
    · exact txOp d _ 0 o.op
    · exact refl d

theorem kickFab (d : Dev) : Dev.SteadyFab d d.kickFab := by
  simp only [Dev.kickFab]
  refine (onFab d (fun b => { b with ops := [] }) rfl rfl).trans (foldl _ (fun e o => trans ?_ (onFab _ _ rfl rfl)) _ _)
  split
  · exact refl e
  · split
    · split
      · exact sendOp e o
      · exact refl e
    · split
      · exact (sendOp e _).trans (of_fab_eq rfl)
      · exact refl e

theorem loseLink (d : Dev) (l : Nat) : Dev.SteadyFab d (d.loseLink l) := (onFab d _ rfl rfl).trans (kickFab _)

theorem newOp (d : Dev) (v : VitId) (src : RSrc) (dest : DevId) (type : RType) (aop addr len o0 o1 : Nat) (data : List Byte) (space loc : Nat) :
    Dev.SteadyFab d (d.newOp v src dest type aop addr len o0 o1 data space loc) :=
  ((onFab d _ rfl rfl).trans (onFab _ _ rfl rfl)).trans (kickFab _)

theorem ins {d e : Dev} (h : Dev.SteadyFab d e) : e.fab.ins = d.fab.ins := (congrArg Fab.ins h.fab :)
theorem srcs {d e : Dev} (h : Dev.SteadyFab d e) : e.fab.srcs = d.fab.srcs := (congrArg Fab.srcs h.fab :)
theorem pendant {d e : Dev} (h : Dev.SteadyFab d e) : e.fab.pendant = d.fab.pendant := (congrArg Fab.pendant h.fab :)

end Dev.SteadyFab

theorem Dev.reachRef_of_le (d : Dev) (n : Nat) (h : n ≤ d.ref) : d.reachRef n = d := if_pos h

end Sys2Proof.Machine

namespace Sys2Proof.Machine

/-! ### Fabric links (O45) -/

/-! #### The record of a link that moves (R242) -/

theorem Dev.link_post (d : Dev) (c k i a b m l : Nat) : (d.post c k i a b m).link l = d.link l := by simp only [Dev.link, Dev.post_fab]
theorem Dev.link_pairCheck (d : Dev) (l : Nat) : d.pairCheck.link l = d.link l := by
  unfold Dev.pairCheck
  split <;> rfl

theorem Dev.pairCheck_only (d : Dev) : Only [.fab] d d.pairCheck := ((Only.refl _ d).onFab _ (by simp)).ite (Only.refl _ d)

/-- A link that neither goes down nor begins to train keeps its operations. -/
theorem Dev.linkMoved_kept (d : Dev) (l : Nat) (st : LinkSt) (n : Nat) (hst : (st == .down || st == .training) = false) :
    (d.linkMoved l st n).link l = { d.link l with st := st, reason := n } := by
  have hcount : ∀ (e : Dev) (c : Bool) (m : Nat), (if c = true then e.count 0x8019 m l else e).link l = e.link l := by
    intro e c m
    split <;> rfl
  simp only [Dev.linkMoved, Dev.link_post, hcount, hst, Bool.false_eq_true, if_false, Dev.link_setLink]

theorem Dev.linkMoved_record (d : Dev) (l : Nat) (st : LinkSt) (n : Nat) :
    ((d.linkMoved l st n).link l).reason = n ∧ ((d.linkMoved l st n).link l).refusedAt = (d.link l).refusedAt := by
  cases hst : (st == .down || st == .training) with
  | true => rw [d.linkMoved_cleared l st n hst]; exact ⟨rfl, rfl⟩
  | false => rw [d.linkMoved_kept l st n hst]; exact ⟨rfl, rfl⟩

/-- Sending again what a link that moves has lost leaves the links but for what they send. -/
theorem Dev.linkTo_steady (d : Dev) (l : Nat) (st : LinkSt) (n : Nat) : Dev.SteadyFab (d.linkMoved l st n).pairCheck (d.linkTo l st n) := by
  rw [Dev.linkTo_eq]
  split
  · exact Dev.SteadyFab.loseLink _ l
  · split
    · exact Dev.SteadyFab.kickFab _
    · exact Dev.SteadyFab.refl _

/-- A link moved to a state stands there with the reason given, refused as it was (R242, R398). -/
theorem Dev.linkTo_record (d : Dev) (l : Nat) (st : LinkSt) (n : Nat) :
    ((d.linkTo l st n).link l).st = st ∧ ((d.linkTo l st n).link l).reason = n ∧ ((d.linkTo l st n).link l).refusedAt = (d.link l).refusedAt := by
  have hbare := (d.linkTo_steady l st n).link l
  rw [Dev.link_pairCheck] at hbare
  obtain ⟨hreason, hrefused⟩ := d.linkMoved_record l st n
  exact ⟨(d.linkTo_link l st n).1, (congrArg Link.reason hbare).trans hreason, (congrArg Link.refusedAt hbare).trans hrefused⟩

/-- A link that neither was nor becomes ACTIVE moves without sending. -/
theorem Dev.linkTo_idle (d : Dev) (l : Nat) (st : LinkSt) (n : Nat) (hold : (d.link l).st ≠ .active) (hst : st ≠ .active) :
    d.linkTo l st n = (d.linkMoved l st n).pairCheck := by
  rw [Dev.linkTo_eq, if_neg (by simp [hold]), if_neg (by simpa using hst)]

/-- A move to DOWN or MGMT counts nothing. -/
theorem Dev.linkMoved_uncounted (d : Dev) (l : Nat) (st : LinkSt) (n : Nat) (htrain : st ≠ .training) (hquar : st ≠ .quarantine) :
    Only [.fab, .cat] d (d.linkMoved l st n) := by
  have hset := (Only.refl [.fab, .cat] d).setLink l (fun k => { k with st := st, reason := n }) (by simp)
  have hclear := hset.setLink l (fun k => { k with sent := [], wait := [], ingress := [], nak := false }) (by simp)
  have hkept : ∀ (e : Dev) (c : Bool) (m : Nat) (t : LinkSt), st ≠ t → (if (st == t && c) = true then e.count 0x8019 m l else e) = e :=
    fun e c m t h => if_neg (by simp [h])
  simp only [Dev.linkMoved, hkept _ _ _ _ htrain, hkept _ _ _ _ hquar]
  exact (hclear.ite hset).post _ _ _ _ _ _ (by simp)

/-- A link that is not ACTIVE goes to DOWN or MGMT as a change of the fabric and an event. -/
theorem Dev.linkTo_uncounted (d : Dev) (l : Nat) (st : LinkSt) (n : Nat) (hold : (d.link l).st ≠ .active) (hst : st = .down ∨ st = .mgmt) :
    Only [.fab, .cat] d (d.linkTo l st n) := by
  rw [d.linkTo_idle l st n hold (by rcases hst with rfl | rfl <;> decide)]
  exact (d.linkMoved_uncounted l st n (by rcases hst with rfl | rfl <;> decide) (by rcases hst with rfl | rfl <;> decide)).trans
    ((Dev.pairCheck_only _).mono (by simp))

theorem Dev.linkTo_only (d : Dev) (l : Nat) (st : LinkSt) (n : Nat) : Only [.fab, .cnt, .cat] d (d.linkTo l st n) :=
  (Only.refl _ d).linkTo l st n (by simp)

/-! #### Frames (R239, R241, R400) -/

/-- The machine once the symbols that a frame's code has corrected are counted. -/
def Dev.frameDecoded (d : Dev) (i : Nat) (f : FabFrame) : Dev := if f.decodes then d.count 0x8019 1 i f.corrected.toNat else d

/-- The frames in a row that have failed authentication on a link once a frame has been refused (R400). -/
def Dev.authRun (d : Dev) (i : Nat) (f : FabFrame) : Nat := if f.authOk then 0 else (d.link i).authFails + 1

/-- A link that has refused a frame asks for replay (R239). -/
def Link.rejects (k : Link) (n : Nat) : Link := { k with nak := true, authFails := n }

/-- The machine once a frame that is not intact has been refused. -/
def Dev.frameRejected (d : Dev) (i : Nat) (f : FabFrame) : Dev :=
  let e := (d.frameDecoded i f).setLink i (fun k => k.rejects (d.authRun i f))
  if f.authOk then e else e.count 0x7004 2 i

/-- A link hears an intact frame (R240, R400). -/
def Link.hears (k : Link) (now : Nat) : Link := { k with heard := now, authFails := 0 }

/-- A link takes in the operations, acknowledgments and credits of a frame in sequence (R239, R240). -/
def Link.takesIn (k : Link) (f : FabFrame) : Link :=
  { k with
    rxSeq := f.frameSeq, nak := false, ingress := k.ingress ++ f.ops
    sent := k.sent.filter (fun e => (e.1 - f.ackSeq - 1).toNat < 2 ^ 31)
    creditData := k.creditData + f.dataCredits.toNat
    creditTransit := k.creditTransit + f.transitCredits.toNat
    creditMgmt := k.creditMgmt + f.mgmtCredits.toNat }

/-- The machine once an intact frame in sequence has been accepted, and what waits on its link has been sent. -/
def Dev.frameAccepted (d : Dev) (i : Nat) (f : FabFrame) : Dev :=
  ((d.frameDecoded i f).setLink i (fun k => k.hears d.ref)).setLink i (fun k => (k.takesIn f).flush)

/-- The machine once a frame has been refused, and the link retrained at the sixteenth in a row that fails authentication (R400). -/
def Dev.frameRefused (d : Dev) (i : Nat) (f : FabFrame) : Dev :=
  let e := d.frameRejected i f
  if 16 ≤ d.authRun i f then (e.post 0x0303 3 i i (d.link i).genRx).linkTo i .training 0 else e

theorem Dev.frameDecoded_only (d : Dev) (i : Nat) (f : FabFrame) : Only [.cnt] d (d.frameDecoded i f) :=
  ((Only.refl _ d).count _ _ _ _ (by simp)).ite (Only.refl _ d)
theorem Dev.link_frameDecoded (d : Dev) (i : Nat) (f : FabFrame) (l : Nat) : (d.frameDecoded i f).link l = d.link l := by
  unfold Dev.frameDecoded
  split <;> rfl

section Rejected
variable (d : Dev) (i : Nat) (f : FabFrame)

theorem Dev.frameRejected_only : Only [.fab, .cnt] d (d.frameRejected i f) := by
  have hset := ((d.frameDecoded_only i f).mono (by simp : ∀ p ∈ [Part.cnt], p ∈ [Part.fab, .cnt])).setLink i (fun k => k.rejects (d.authRun i f)) (by simp)
  exact hset.ite (hset.count _ _ _ _ (by simp))

theorem Dev.link_frameRejected : (d.frameRejected i f).link i = (d.link i).rejects (d.authRun i f) := by
  rw [← d.link_frameDecoded i f i, ← Dev.link_setLink (d.frameDecoded i f) i (fun k => k.rejects (d.authRun i f))]
  unfold Dev.frameRejected
  split <;> rfl

theorem Dev.counter_frameRejected (h : f.authOk = false) : (d.frameRejected i f).counter 0x7004 2 i = (d.counter 0x7004 2 i + 1) % 2 ^ 64 := by
  have hcounted : (d.frameDecoded i f).counter 0x7004 2 i = d.counter 0x7004 2 i := by
    unfold Dev.frameDecoded
    split
    · exact Dev.counter_count_ne _ _ _ _ _ _ _ _ (by simp only [ckey]; omega)
    · rfl
  rw [← hcounted, Dev.frameRejected, h]
  exact Dev.counter_count ((d.frameDecoded i f).setLink i (fun k => k.rejects (d.authRun i f))) 0x7004 2 i 1

end Rejected

/-- A link that does not drain stays up (R289). -/
theorem Dev.linkDrained_idle (d : Dev) (l : Nat) (h : (d.link l).draining = false) : d.linkDrained l = d := by
  simp only [Dev.linkDrained, h, Bool.false_and, Bool.false_eq_true, if_false]

section Frames
variable {s : State} {l : LinkId} {k : Link} {f : FabFrame} (hk : s.dev.link l.val = k) (hup : (k.st == .down || k.st == .training) = false)
include hk hup

theorem fabricFrame_intact (hgood : (f.decodes && f.crcOk && f.authOk) = true) (hruns : f.stopped = false) (hnak : f.nak = false) (hseq : f.frameSeq = k.rxSeq + 1) :
    exec (.fabricFrameReceive l f) s = .next { s with dev := (s.dev.frameAccepted l.val f).linkDrained l.val } := by
  subst hk
  have hexec : exec (.fabricFrameReceive l f) s = execFabricFrameReceive l f s := rfl
  simp only [hexec, execFabricFrameReceive, runDev_eq, hup, hgood, hruns, hnak, hseq, Bool.not_true, Bool.false_eq_true, if_false, bne_self_eq_false]
  unfold Dev.frameAccepted Dev.frameDecoded Link.takesIn
  rw [hseq]
  split <;> rfl

/-- An intact frame in sequence, of a peer that runs, is accepted (R239, R240). -/
theorem fabricFrame_accepted (hgood : (f.decodes && f.crcOk && f.authOk) = true) (hruns : f.stopped = false) (hnak : f.nak = false)
    (hseq : f.frameSeq = k.rxSeq + 1) (hdrain : k.draining = false) (hwait : k.wait = []) :
    Completes (.fabricFrameReceive l f) s (fun t => Keeps [.fab, .cnt] s t ∧ (∀ j, j ≠ l.val → t.dev.link j = s.dev.link j) ∧
      t.dev.link l.val = (k.hears s.dev.ref).takesIn f ∧ t.dev.counter 0x8019 1 l.val = (s.dev.counter 0x8019 1 l.val + f.corrected.toNat) % 2 ^ 64) := by
  have hnext := fabricFrame_intact hk hup hgood hruns hnak hseq
  have hlink : (s.dev.frameAccepted l.val f).link l.val = (k.hears s.dev.ref).takesIn f := by
    rw [Dev.frameAccepted, Dev.link_setLink, Dev.link_setLink, Dev.link_frameDecoded, hk]
    exact Link.flush_idle _ hwait
  rw [Dev.linkDrained_idle _ _ (by rw [hlink]; exact hdrain)] at hnext
  refine ⟨_, hnext, ((((s.dev.frameDecoded_only l.val f).mono (by simp)).setLink _ _ (by simp)).setLink _ _ (by simp)).keeps, fun j hj => ?_, hlink, ?_⟩
  · rw [Dev.frameAccepted, Dev.link_setLink_ne _ _ _ _ hj, Dev.link_setLink_ne _ _ _ _ hj, Dev.link_frameDecoded]
  · rw [Dev.frameAccepted, Dev.frameDecoded, if_pos (Bool.and_eq_true_iff.1 (Bool.and_eq_true_iff.1 hgood).1).1]
    exact Dev.counter_count s.dev 0x8019 1 l.val f.corrected.toNat

theorem fabricFrame_rejected (hbad : (f.decodes && f.crcOk && f.authOk) = false) :
    exec (.fabricFrameReceive l f) s = .next { s with dev := s.dev.frameRefused l.val f } := by
  subst hk
  have hexec : exec (.fabricFrameReceive l f) s = execFabricFrameReceive l f s := rfl
  simp only [hexec, execFabricFrameReceive, runDev_eq, hup, hbad, Bool.not_false, if_true, Bool.false_eq_true, if_false]
  rfl

/-- A frame that fails in anything but its authentication, or fails that less than sixteen times in a row, asks for replay (R239, R400). -/
theorem fabricFrame_replays (hbad : (f.decodes && f.crcOk && f.authOk) = false) (hfew : s.dev.authRun l.val f < 16) :
    Completes (.fabricFrameReceive l f) s (fun t => Keeps [.fab, .cnt] s t ∧ t.dev.link l.val = k.rejects (s.dev.authRun l.val f) ∧
      (f.authOk = false → t.dev.counter 0x7004 2 l.val = (s.dev.counter 0x7004 2 l.val + 1) % 2 ^ 64)) := by
  have hnext := fabricFrame_rejected hk hup hbad
  rw [Dev.frameRefused, if_neg (Nat.not_le.2 hfew)] at hnext
  exact ⟨_, hnext, (s.dev.frameRejected_only l.val f).keeps, by rw [← hk]; exact s.dev.link_frameRejected l.val f, s.dev.counter_frameRejected l.val f⟩

/-- The sixteenth frame in a row that fails authentication trains the link again (R400). -/
theorem fabricFrame_retrains (hbad : (f.decodes && f.crcOk && f.authOk) = false) (hmany : 16 ≤ s.dev.authRun l.val f) :
    Completes (.fabricFrameReceive l f) s (fun t => Keeps [.fab, .cnt, .cat] s t ∧ (t.dev.link l.val).st = .training ∧ (t.dev.link l.val).reason = 0) := by
  have hnext := fabricFrame_rejected hk hup hbad
  rw [Dev.frameRefused, if_pos hmany] at hnext
  obtain ⟨hst, hreason, -⟩ := Dev.linkTo_record ((s.dev.frameRejected l.val f).post 0x0303 3 l.val l.val (s.dev.link l.val).genRx) l.val .training 0
  have honly := (s.dev.frameRejected_only l.val f).mono (by simp : ∀ p ∈ [Part.fab, .cnt], p ∈ [Part.fab, .cnt, .cat])
  exact ⟨_, hnext, ((honly.post _ _ _ _ _ _ (by simp)).linkTo _ _ _ (by simp)).keeps, hst, hreason⟩

/-! #### Lost peers, lost frame lock and keys (R240, R399) -/

theorem fabricPeerLost_down (hdue : k.heard + 1000 ≤ s.dev.ref) :
    Completes (.fabricPeerLost l) s (fun t => Keeps [.fab, .cnt, .cat] s t ∧ (t.dev.link l.val).st = .down ∧ (t.dev.link l.val).reason = 0) := by
  subst hk
  have hexec : exec (.fabricPeerLost l) s = execFabricPeerLost l s := rfl
  obtain ⟨hst, hreason, -⟩ := s.dev.linkTo_record l.val .down 0
  refine completes_dev (s.dev.linkTo l.val .down 0) hexec ?_ ⟨(s.dev.linkTo_only l.val .down 0).keeps, hst, hreason⟩
  simp only [hup, Bool.false_eq_true, if_false, Dev.reachRef_of_le _ _ hdue]

theorem frameLockLoss_trains :
    Completes (.frameLockLoss l) s (fun t => Keeps [.fab, .cnt, .cat] s t ∧ (t.dev.link l.val).st = .training ∧ (t.dev.link l.val).reason = 0) := by
  subst hk
  have hexec : exec (.frameLockLoss l) s = execFrameLockLoss l s := rfl
  obtain ⟨hst, hreason, -⟩ := s.dev.linkTo_record l.val .training 0
  refine completes_dev (s.dev.linkTo l.val .training 0) hexec ?_ ⟨(s.dev.linkTo_only l.val .training 0).keeps, hst, hreason⟩
  simp only [hup, Bool.false_eq_true, if_false]

theorem linkKeyRatchet_advances (tx : Bool) (g : Nat) (hg : g = (if tx then k.genTx else k.genRx) + 1) (hdue : k.since + g * 2 ^ 32 * 5 ≤ s.dev.ref) :
    Completes (.linkKeyRatchet l tx) s (fun t => Keeps [.fab] s t ∧ t.dev.link l.val = (if tx then { k with genTx := g } else { k with genRx := g })) := by
  subst hk
  have hexec : exec (.linkKeyRatchet l tx) s = execLinkKeyRatchet l tx s := rfl
  refine completes_dev (s.dev.setLink l.val (fun k => if tx then { k with genTx := g } else { k with genRx := g })) hexec ?_
    ⟨((Only.refl _ _).setLink _ _ (by simp)).keeps, Dev.link_setLink _ _ _⟩
  simp only [hup, Bool.false_eq_true, if_false, ← hg, Dev.reachRef_of_le _ _ hdue]

end Frames

/-! #### Training (R242, R398) -/

/-- Training of a refused link is tried again once its wait is over (R398). -/
theorem linkAuthRetry_trains {s : State} {l : LinkId} {k : Link} {t0 : Nat} (hk : s.dev.link l.val = k) (hrefused : k.refusedAt = some t0) (hdown : k.st = .down)
    (hin : k.out = false) (hdue : t0 + 100000000 ≤ s.dev.ref) :
    Completes (.linkAuthRetry l) s (fun t => Keeps [.fab, .cnt, .cat] s t ∧ (t.dev.link l.val).st = .training ∧ (t.dev.link l.val).refusedAt = none) := by
  subst hk
  have hexec : exec (.linkAuthRetry l) s = execLinkAuthRetry l s := rfl
  obtain ⟨hst, -, hforgot⟩ := (s.dev.setLink l.val (fun k => { k with refusedAt := none })).linkTo_record l.val .training 0
  rw [Dev.link_setLink] at hforgot
  refine completes_dev ((s.dev.setLink l.val (fun k => { k with refusedAt := none })).linkTo l.val .training 0) hexec ?_
    ⟨(((Only.refl _ _).setLink _ _ (by simp)).linkTo _ _ _ (by simp)).keeps, hst, hforgot⟩
  simp only [hrefused, hdown, hin, beq_self_eq_true, Bool.not_false, Bool.and_self, if_true, Dev.reachRef_of_le _ _ hdue]

/-- A link whose keys have been set up, its numbering and its credits fresh (R239, R240, R398). -/
def Link.freshKeys (k : Link) (peer : DevId) (peerLink now : Nat) : Link :=
  { k with
    peer := peer, peerLink := peerLink, rxSeq := 0xFFFFFFFF, txSeq := 0, authFails := 0, heard := now
    creditData := 4096, creditTransit := 1024, creditMgmt := 256, genTx := 0, genRx := 0, since := now }

section Training
variable {s : State} {l : LinkId} {k : Link} (hk : s.dev.link l.val = k) (hpub : s.dev.cat.published = true) (hin : k.out = false) (hdrain : k.draining = false)
  (htrain : k.st = .training) (peer : DevId) (pl : Byte)
include hk hpub hin hdrain htrain

/-- Training that succeeds ends in MGMT with fresh numbering (R242). -/
theorem linkTrainingDone_mgmt : Completes (.linkTrainingDone l peer pl none) s (fun t => Keeps [.fab, .cat] s t ∧
    t.dev.link l.val = { k.freshKeys peer pl.toNat s.dev.ref with st := .mgmt, reason := 0 }) := by
  subst hk
  have hexec : exec (.linkTrainingDone l peer pl none) s = execLinkTrainingDone l peer pl none s := rfl
  have hfresh := s.dev.link_setLink l.val (fun k => k.freshKeys peer pl.toNat s.dev.ref)
  have hold : ((s.dev.setLink l.val (fun k => k.freshKeys peer pl.toNat s.dev.ref)).link l.val).st ≠ .active := by
    rw [hfresh, show ((s.dev.link l.val).freshKeys peer pl.toNat s.dev.ref).st = .training from htrain]
    decide
  refine completes_dev ((s.dev.setLink l.val (fun k => k.freshKeys peer pl.toNat s.dev.ref)).linkTo l.val .mgmt 0) hexec ?_ ⟨?_, ?_⟩
  · simp only [hpub, hin, hdrain, htrain]
    rfl
  · exact (((Only.refl [.fab, .cat] s.dev).setLink _ _ (by simp)).trans (Dev.linkTo_uncounted _ _ _ _ hold (.inr rfl))).keeps
  · dsimp only
    rw [Dev.linkTo_idle _ _ _ _ hold (by decide), Dev.link_pairCheck, Dev.linkMoved_kept _ _ _ _ rfl, hfresh]

/-- Training that fails a step of key setup refuses the link (R398). -/
theorem linkTrainingDone_refused (n : BitVec 3) : Completes (.linkTrainingDone l peer pl (some n)) s (fun t => Keeps [.fab, .cat] s t ∧
    (t.dev.link l.val).st = .down ∧ (t.dev.link l.val).refusedAt = some s.dev.ref) := by
  subst hk
  have hexec : exec (.linkTrainingDone l peer pl (some n)) s = execLinkTrainingDone l peer pl (some n) s := rfl
  generalize hd : (s.dev.setLink l.val (fun k => { k with refusedAt := some s.dev.ref })).post 0x0304 3 l.val l.val n.toNat = d
  have hnoted : d.link l.val = { s.dev.link l.val with refusedAt := some s.dev.ref } := by
    rw [← hd, Dev.link_post, Dev.link_setLink]
  have hold : (d.link l.val).st ≠ .active := by
    rw [hnoted, show ({ s.dev.link l.val with refusedAt := some s.dev.ref } : Link).st = .training from htrain]
    decide
  have honly : Only [.fab, .cat] s.dev d := hd ▸ ((Only.refl _ _).setLink _ _ (by simp)).post _ _ _ _ _ _ (by simp)
  obtain ⟨hst, -, hrefused⟩ := d.linkTo_record l.val .down 0
  refine completes_dev (d.linkTo l.val .down 0) hexec ?_ ⟨(honly.trans (Dev.linkTo_uncounted _ _ _ _ hold (.inl rfl))).keeps, hst, hrefused.trans (by rw [hnoted])⟩
  simp only [hpub, hin, hdrain, htrain]
  exact congrArg (fun e => Dev.linkTo e l.val .down 0) hd

end Training

/-! #### Configuration digests (R242, R243) -/

/-- The first of the inputs in clear, and then the digest, that differs from the peer's (R243). -/
def Dev.digestReason (d : Dev) (v : VitId) (p : PeerDigest) : Nat :=
  if p.fw.toNat ≠ d.fw.version then 1 else if p.group ≠ d.group v then 2 else if p.epoch ≠ d.epoch v then 3 else 4

/-- A link once the digests of its ends have been compared (R242, R243). -/
def Dev.digestCompared (d : Dev) (l : Nat) (v : VitId) (p : PeerDigest) : Dev :=
  if Config.cfgDigest (d.digestInputs d.fw.version v) = p.digest then (if (d.link l).st = .active then d else d.linkTo l .active 0)
  else d.linkTo l .quarantine (d.digestReason v p)

section Digests
variable {s : State} {l : LinkId} {p : PeerDigest} {v : VitId} (hv : v = vitOfLink l.val)
  (hup : (s.dev.link l.val).st = .mgmt ∨ (s.dev.link l.val).st = .quarantine ∨ (s.dev.link l.val).st = .active) (hid : s.dev.devId ≠ 0xFFFF)
  (hheld : (s.dev.vit v).held = true) (hgroup : s.dev.group v ≠ 0) (hown : ¬(s.dev.fab.pendant = 5 ∧ fld (s.dev.force 0x5200 2 0) l.val 1 = 1))
include hv hup hid hheld hgroup hown

/-- Digests are compared on a link of an assigned Vitrine whose device has not been taken over (R242, R243, R255). -/
theorem exec_digestExchange : exec (.digestExchange l p) s = .next { s with dev := s.dev.digestCompared l.val v p } := by
  subst hv
  have hexec : exec (.digestExchange l p) s = execDigestExchange l p s := rfl
  have hlink : ((s.dev.link l.val).st == .mgmt || (s.dev.link l.val).st == .quarantine || (s.dev.link l.val).st == .active) = true := by
    rcases hup with h | h | h <;> rw [h] <;> rfl
  have hours : (s.dev.devId == 0xFFFF || !(s.dev.vit (vitOfLink l.val)).held || s.dev.group (vitOfLink l.val) == 0) = false := by
    rw [beq_eq_false_iff_ne.2 hid, hheld, beq_eq_false_iff_ne.2 hgroup]
    rfl
  have hstands : (s.dev.fab.pendant == 5 && fld (s.dev.force 0x5200 2 0) l.val 1 == 1) = false := by
    simpa using hown
  simp only [hexec, execDigestExchange, runDev_eq, hlink, hours, hstands, Bool.not_true, Bool.false_eq_true, if_false, Dev.digestCompared, Dev.digestReason,
    beq_iff_eq, bne_iff_ne]

theorem digestExchange_agrees (heq : Config.cfgDigest (s.dev.digestInputs s.dev.fw.version v) = p.digest) :
    Completes (.digestExchange l p) s (fun t => Keeps [.fab, .cnt, .cat] s t ∧ (t.dev.link l.val).st = .active) := by
  have hnext := exec_digestExchange hv hup hid hheld hgroup hown (p := p)
  rw [Dev.digestCompared, if_pos heq] at hnext
  by_cases hactive : (s.dev.link l.val).st = .active
  · rw [if_pos hactive] at hnext
    exact ⟨_, hnext, Keeps.refl _ _, hactive⟩
  · rw [if_neg hactive] at hnext
    exact ⟨_, hnext, (s.dev.linkTo_only l.val .active 0).keeps, (s.dev.linkTo_record l.val .active 0).1⟩

theorem digestExchange_differs (hne : Config.cfgDigest (s.dev.digestInputs s.dev.fw.version v) ≠ p.digest) :
    Completes (.digestExchange l p) s (fun t => Keeps [.fab, .cnt, .cat] s t ∧ (t.dev.link l.val).st = .quarantine ∧
      (t.dev.link l.val).reason = s.dev.digestReason v p) := by
  have hnext := exec_digestExchange hv hup hid hheld hgroup hown (p := p)
  rw [Dev.digestCompared, if_neg hne] at hnext
  obtain ⟨hst, hreason, -⟩ := s.dev.linkTo_record l.val .quarantine (s.dev.digestReason v p)
  exact ⟨_, hnext, (s.dev.linkTo_only l.val .quarantine _).keeps, hst, hreason⟩

end Digests

/-- Settles O45: frames, lost peers and locks, retries, trainings, digests and ratchets, each by its own lemma; a link that moves keeps its record but for what it
sends (`Dev.linkTo_record`). -/
theorem fabricLinksChangeState : Obligations.FabricLinksChangeState := by
  intro s l k hk
  refine ⟨fun hdown htrain => ?_, fun t0 => linkAuthRetry_trains hk,
    fun peer pl hpub hin hdrain hst => ⟨linkTrainingDone_mgmt hk hpub hin hdrain hst peer pl, linkTrainingDone_refused hk hpub hin hdrain hst peer pl⟩,
    fun p v hv hup hid hheld hgroup hown => ?_⟩
  · have hup : (k.st == .down || k.st == .training) = false := by simp [hdown, htrain]
    have hrun : ∀ f : FabFrame, f.authOk = false → s.dev.authRun l.val f = k.authFails + 1 := fun f hauth => by rw [Dev.authRun, hauth, hk]; rfl
    refine ⟨fun f => ⟨?_, ?_, ?_, ?_⟩, fabricPeerLost_down hk hup, frameLockLoss_trains hk hup, linkKeyRatchet_advances hk hup⟩
    · intro hdecodes hcrc hauth hruns hnak hseq hdrain hwait
      exact fabricFrame_accepted hk hup (by rw [hdecodes, hcrc, hauth]; rfl) hruns hnak hseq hdrain hwait
    · intro hbad hauth
      have hzero : s.dev.authRun l.val f = 0 := if_pos hauth
      have hcrc : f.crcOk = false := of_decide_eq_true (Bool.and_eq_true_iff.1 hbad).2
      obtain ⟨t, hnext, hkeeps, hlink, -⟩ := fabricFrame_replays (f := f) hk hup (by rw [hcrc, Bool.and_false, Bool.false_and]) (by rw [hzero]; decide)
      exact ⟨t, hnext, hkeeps, hlink.trans (by rw [hzero]; rfl)⟩
    · intro hauth hfew
      obtain ⟨t, hnext, hkeeps, hlink, hcount⟩ := fabricFrame_replays (f := f) hk hup (by rw [hauth, Bool.and_false]) (by rw [hrun f hauth]; exact hfew)
      exact ⟨t, hnext, hkeeps, hlink.trans (by rw [hrun f hauth]; rfl), hcount hauth⟩
    · intro hauth hmany
      exact fabricFrame_retrains hk hup (by rw [hauth, Bool.and_false]) (by rw [hrun f hauth]; exact hmany)
  · rw [← hk] at hup
    exact ⟨digestExchange_agrees hv hup hid hheld hgroup hown, digestExchange_differs hv hup hid hheld hgroup hown⟩

end Sys2Proof.Machine

namespace Sys2Proof.Machine

/-! ### PACE notices (O27) -/

/-! #### Sending depends on the fabric, the Catalogue and the tenancies -/

/-- Two machines whose operations leave alike: the fabric, the Catalogue and the tenancies are the same. -/
structure Dev.SendsAlike (d e : Dev) : Prop where
  fab : e.fab = d.fab
  cat : e.cat = d.cat
  leader : ∀ v, (e.vit v).leader = (d.vit v).leader

namespace Dev.SendsAlike
variable {d e : Dev} (h : Dev.SendsAlike d e)
include h

theorem eligible (dest : DevId) (ok : VitId → Bool) : e.eligible dest ok = d.eligible dest ok := by
  have hroute : e.routeMask dest = d.routeMask dest := by unfold Dev.routeMask Dev.acc; rw [h.cat]
  have hlink : ∀ l, e.link l = d.link l := fun l => by rw [Dev.link, h.fab, Dev.link]
  simp only [Dev.eligible, hroute, hlink]

theorem sameTenancy (v : VitId) : e.sameTenancy v = d.sameTenancy v := by
  funext w
  simp only [Dev.sameTenancy, h.leader]

theorem opHead (v : VitId) (dest : DevId) (type : RType) : e.opHead v dest type = d.opHead v dest type := by
  simp only [Dev.opHead, Dev.devId, Dev.group, Dev.epoch, Dev.vset, Dev.force, Dev.acc, h.cat]

theorem sendFree_fab (own : VitId → Bool) (op : ROp) : (e.sendFree own op).fab = (d.sendFree own op).fab := by
  have hid : e.devId = d.devId := by simp only [Dev.devId, Dev.acc, h.cat]
  unfold Dev.sendFree
  rw [hid, h.eligible]
  split
  · simp only [Dev.onFab, h.fab]
  · split
    · simp only [Dev.txOp, Dev.setLink, Dev.onFab, h.fab]
    · exact h.fab

/-- They stay alike when both send the same operation. -/
theorem sendFree (own : VitId → Bool) (op : ROp) : Dev.SendsAlike (d.sendFree own op) (e.sendFree own op) := by
  have hd := d.sendFree_only own op
  have he := e.sendFree_only own op
  exact ⟨h.sendFree_fab own op, by rw [he.cat (by simp), hd.cat (by simp)]; exact h.cat, fun v => by rw [he.vit (by simp), hd.vit (by simp)]; exact h.leader v⟩

end Dev.SendsAlike

/-! #### A notice (R252, R341) -/

/-- The first of a Vitrine and others with the least value. -/
def leastOf (f : VitId → Nat) (l : VitId) (vs : List VitId) : VitId := vs.foldl (fun b v => if f v < f b then v else b) l

theorem leastOf_spec (f : VitId → Nat) (vs : List VitId) (l : VitId) :
    (leastOf f l vs = l ∨ leastOf f l vs ∈ vs) ∧ f (leastOf f l vs) ≤ f l ∧ ∀ w ∈ vs, f (leastOf f l vs) ≤ f w := by
  induction vs generalizing l with
  | nil => simp [leastOf]
  | cons v vs ih =>
    have hstep : leastOf f l (v :: vs) = leastOf f (if f v < f l then v else l) vs := rfl
    rw [hstep]
    by_cases hlt : f v < f l
    · rw [if_pos hlt]
      obtain ⟨hmem, hle, hall⟩ := ih v
      refine ⟨.inr (List.mem_cons.2 hmem), hle.trans hlt.le, List.forall_mem_cons.2 ⟨hle, hall⟩⟩
    · rw [if_neg hlt]
      obtain ⟨hmem, hle, hall⟩ := ih l
      exact ⟨hmem.imp_right (List.mem_cons_of_mem _), hle, List.forall_mem_cons.2 ⟨hle.trans (Nat.not_lt.1 hlt), hall⟩⟩

/-- The body of a notice: CLOCK_FRACTION, reason and PACE_SEQ (R252). -/
def paceBody (fraction reason seq : Nat) : BitVec 64 := BitVec.ofNat 64 (fraction * 2 ^ 48 + reason % 16 * 2 ^ 44 + seq * 2 ^ 12)

theorem fld_paceBody (fraction reason seq : Nat) (hfraction : fraction < 2 ^ 16) (hseq : seq < 2 ^ 32) :
    fld (paceBody fraction reason seq).toNat 48 16 = fraction ∧ fld (paceBody fraction reason seq).toNat 12 32 = seq := by
  have hbody : (paceBody fraction reason seq).toNat = fraction * 2 ^ 48 + reason % 16 * 2 ^ 44 + seq * 2 ^ 12 := by
    rw [paceBody, BitVec.toNat_ofNat]
    omega
  rw [hbody]
  simp only [fld, Nat.shiftRight_eq_div_pow]
  omega

/-- The Vitrine of the lowest duty that a leader's notice speaks of (R341). -/
def Dev.slowest (d : Dev) (l : VitId) : VitId := leastOf (fun v => (d.vit v).duty0) l (d.tenancy l)

/-- The notice of a leader's state, to no member yet (R252, R341). -/
def Dev.paceOp (d : Dev) (l : VitId) : ROp :=
  { d.opHead l 0 .pace with
    operand1 := paceBody (paceFraction (d.vit (d.slowest l)).duty0)
      (if (d.tenancy l).all (fun v => d.fullDuty v ≤ (d.vit v).duty0) then 0 else (d.vit (d.slowest l)).pace.reason) ((d.vit l).pace.seq + 1).toNat }

/-- A leader notes that it has sent its latest state (R341). -/
def Dev.paceNoted (d : Dev) (l : VitId) : Dev :=
  d.setVit l (fun t => { t with pace := { t.pace with seq := (d.vit l).pace.seq + 1, sentAt := some d.ref, unsent := false } })

/-- A leader's notice goes to one member and is counted (R341). -/
def Dev.pacePost (l : VitId) (op : ROp) (e : Dev) (dest : DevId) : Dev :=
  (e.sendFree (e.sameTenancy l) { e.opHead l dest .pace with operand1 := op.operand1 }).count 0x2020 4 l.toNat

section Notice
variable (d : Dev) (l : VitId)

theorem Dev.vit_paceNoted : (d.paceNoted l).vit l =
    { d.vit l with pace := { (d.vit l).pace with seq := (d.vit l).pace.seq + 1, sentAt := some d.ref, unsent := false } } := Dev.vit_setVit _ _ _

theorem Dev.paceNoted_keeps (w : VitId) : ((d.paceNoted l).vit w).duty0 = (d.vit w).duty0 ∧ ((d.paceNoted l).vit w).leader = (d.vit w).leader := by
  by_cases h : w = l
  · subst h
    rw [Dev.vit_paceNoted]
    exact ⟨rfl, rfl⟩
  · rw [Dev.paceNoted, Dev.vit_setVit_ne _ _ _ _ h]
    exact ⟨rfl, rfl⟩

theorem Dev.paceNoted_alike : Dev.SendsAlike d (d.paceNoted l) := ⟨rfl, rfl, fun w => (d.paceNoted_keeps l w).2⟩

theorem Dev.sendPace_eq : d.sendPace l = (d.members l).foldl (Dev.pacePost l (d.paceOp l)) (d.paceNoted l) := by
  have hlow : ((d.paceNoted l).vit (d.slowest l)).duty0 = (d.vit (d.slowest l)).duty0 := (d.paceNoted_keeps l _).1
  unfold Dev.pacePost Dev.paceOp
  rw [← hlow]
  rfl

theorem Dev.pacePost_only (op : ROp) (dest : DevId) : Only [.fab, .cnt] d (Dev.pacePost l op d dest) :=
  ((d.sendFree_only _ _).mono (by simp)).count _ _ _ _ (by simp)

/-- What a leader sends of its state is one notice to each member (R252). -/
theorem Dev.sendPace_fab : (d.sendPace l).fab =
    ((d.members l).foldl (fun (e : Dev) dest => e.sendFree (e.sameTenancy l) { d.paceOp l with dest := dest }) d).fab := by
  rw [Dev.sendPace_eq]
  refine (List.foldl_rel (r := fun e e' => Dev.SendsAlike e' e ∧ e'.cat = d.cat) ⟨d.paceNoted_alike l, rfl⟩ (fun dest _ e e' h => ?_)).1.fab
  obtain ⟨halike, hcat⟩ := h
  have hop : { e.opHead l dest .pace with operand1 := (d.paceOp l).operand1 } = { d.paceOp l with dest := dest } := by
    rw [halike.opHead]
    simp only [Dev.paceOp, Dev.opHead, Dev.devId, Dev.group, Dev.epoch, Dev.vset, Dev.force, Dev.acc, hcat]
  have hsent := halike.sendFree (e'.sameTenancy l) { d.paceOp l with dest := dest }
  refine ⟨?_, ((e'.sendFree_only _ _).cat (by simp)).trans hcat⟩
  simp only [Dev.pacePost, hop, halike.sameTenancy]
  exact ⟨hsent.fab, hsent.cat, hsent.leader⟩

theorem Dev.sendPace_others : Only [.fab, .cnt] (d.paceNoted l) (d.sendPace l) := by
  rw [Dev.sendPace_eq]
  exact (Only.refl _ _).foldl _ _ (fun e dest => e.pacePost_only l _ dest)

end Notice

/-- A notice that may be sent goes to each member of the group (R252, R341). -/
theorem paceSent_completes {s : State} {v : VitId} {i : Instr} (hnext : exec i s = .next { s with dev := s.dev.sendPace v }) :
    Completes i s (fun t => Keeps [.vits, .fab, .cnt] s t ∧ (∀ w, w ≠ v → t.dev.vit w = s.dev.vit w) ∧
      t.dev.vit v = { s.dev.vit v with pace := { (s.dev.vit v).pace with seq := (s.dev.vit v).pace.seq + 1, sentAt := some s.dev.ref, unsent := false } } ∧
      t.dev.fab = ((s.dev.members v).foldl (fun (e : Dev) dest => e.sendFree (e.sameTenancy v) { s.dev.paceOp v with dest := dest }) s.dev).fab) := by
  have hothers := s.dev.sendPace_others v
  have hnoted : Only [.vits] s.dev (s.dev.paceNoted v) := (Only.refl _ _).setVit _ _ (by simp)
  refine ⟨_, hnext, ((hnoted.mono (by simp)).trans (hothers.mono (by simp))).keeps, fun w hw => ?_, ?_, s.dev.sendPace_fab v⟩
  · exact (hothers.vit (by simp) w).trans (Dev.vit_setVit_ne _ _ _ _ hw)
  · exact (hothers.vit (by simp) v).trans (s.dev.vit_paceNoted v)

/-- PACE_SEND sends when the last notice is old enough (R341). -/
theorem exec_paceSend {s : State} {v : VitId} (hunsent : (s.dev.vit v).pace.unsent = true) (hdue : ∀ n, (s.dev.vit v).pace.sentAt = some n → n + 1000 ≤ s.dev.ref) :
    exec (.paceSend v) s = .next { s with dev := s.dev.sendPace v } := by
  have hexec : exec (.paceSend v) s = execPaceSend v s := rfl
  cases hsent : (s.dev.vit v).pace.sentAt with
  | none =>
    simp only [hexec, execPaceSend, runDev_eq, hunsent, hsent]
    rfl
  | some n =>
    simp only [hexec, execPaceSend, runDev_eq, hunsent, hsent, hdue n hsent]
    rfl

/-- PACE_LATEST_STATE_SEND sends once the spacing has run out (R252). -/
theorem exec_paceLatestStateSend {s : State} {v : VitId} {n : Nat} (hunsent : (s.dev.vit v).pace.unsent = true) (hsent : (s.dev.vit v).pace.sentAt = some n)
    (hdue : n + 1000 ≤ s.dev.ref) : exec (.paceLatestStateSend v) s = .next { s with dev := s.dev.sendPace v } := by
  have hexec : exec (.paceLatestStateSend v) s = execPaceLatestStateSend v s := rfl
  simp only [hexec, execPaceLatestStateSend, runDev_eq, hunsent, hsent, Dev.reachRef_of_le _ _ hdue]

/-- What a leader's notice says of its tenancy (R252, R341). -/
theorem Dev.paceOp_says (d : Dev) (v : VitId) : ∃ low : Nat, fld (d.paceOp v).operand1.toNat 48 16 = min 0xFFFF (65536 * low / 64) % 65536 ∧
    fld (d.paceOp v).operand1.toNat 12 32 = ((d.vit v).pace.seq + 1).toNat ∧ (low = (d.vit v).duty0 ∨ ∃ w ∈ d.tenancy v, low = (d.vit w).duty0) ∧
    low ≤ (d.vit v).duty0 ∧ ∀ w ∈ d.tenancy v, low ≤ (d.vit w).duty0 := by
  obtain ⟨hmem, hle, hall⟩ := leastOf_spec (fun w => (d.vit w).duty0) (d.tenancy v) v
  have hfraction : paceFraction (d.vit (d.slowest v)).duty0 < 2 ^ 16 := by unfold paceFraction; omega
  obtain ⟨hclock, hseq⟩ := fld_paceBody _ (if (d.tenancy v).all (fun w => d.fullDuty w ≤ (d.vit w).duty0) then 0 else (d.vit (d.slowest v)).pace.reason) _ hfraction
    ((d.vit v).pace.seq + 1).isLt
  refine ⟨(d.vit (d.slowest v)).duty0, hclock.trans (Nat.mod_eq_of_lt hfraction).symm, hseq, ?_, hle, hall⟩
  exact hmem.imp (fun h => congrArg (fun w => (d.vit w).duty0) h) (fun h => ⟨_, h, rfl⟩)

/-! #### A notice arrives (R252, R342) -/

/-- A leader holds a notice in place of its sender's earlier ones (R342). -/
def PaceSt.holds (p : PaceSt) (op : ROp) : PaceSt :=
  { p with heldFrom := p.heldFrom.filter (fun h => h.1 != op.src) ++
      [(op.src, BitVec.ofNat 32 (op.operand1.toNat / 2 ^ 12), fld op.operand1.toNat 48 16, fld op.operand1.toNat 44 4)] }

/-- A notice is newer than the one held of its sender (R342). -/
def PaceSt.newer (p : PaceSt) (op : ROp) : Bool :=
  match p.heldFrom.find? (fun h => h.1 == op.src) with
  | some h => decide (h.2.1.toNat < (BitVec.ofNat 32 (op.operand1.toNat / 2 ^ 12)).toNat)
  | none => true

/-- A leader takes a notice and counts it; in the FIXED class it reports a peer that a hard limit holds (R252, R342). -/
def Dev.paceTaken (op : ROp) (d : Dev) (l : VitId) : Dev :=
  let e := (d.setVit l (fun t => { t with pace := t.pace.holds op })).count 0x2020 5 l.toNat
  if (e.vit l).cls == 1 && (fld op.operand1.toNat 44 4 == 3 || fld op.operand1.toNat 44 4 == 4) then e.postVit 0x0013 l op.src.toNat (fld op.operand1.toNat 48 16) else e

/-- A leader holds a notice of a member, of no lower epoch and newer than the one held (R342). -/
def Dev.paceHeard (op : ROp) (d : Dev) (l : VitId) : Dev :=
  if op.epoch.toNat < (d.epoch l).toNat || !(d.members l).contains op.src || !(d.vit l).pace.newer op then d else Dev.paceTaken op d l

/-- The leaders that a notice concerns: of the tenancies in its group (R252). -/
def Dev.paceLeaders (d : Dev) (op : ROp) : List VitId :=
  (vitsOf (BitVec.allOnes 32)).filter (fun v => (d.vit v).leader == some v && (d.vit v).held && d.group v == op.group && op.group != 0)

/-- A notice is taken out of the buffers in which it stands. -/
def Dev.paceAccepted (d : Dev) (op : ROp) : Dev :=
  (List.range 96).foldl (fun (e : Dev) l => if (e.link l).ingress.contains op || e.fab.loop.contains op then e.acceptOp l op else e) d

theorem Dev.acceptOp_only (d : Dev) (l : Nat) (op : ROp) : Only [.fab] d (d.acceptOp l op) :=
  ((Only.refl _ d).onFab _ (by simp)).ite ((Only.refl _ d).setLink _ _ (by simp))

theorem Dev.paceAccepted_only (d : Dev) (op : ROp) : Only [.fab] d (d.paceAccepted op) :=
  (Only.refl _ d).foldl _ _ (fun e l => (e.acceptOp_only l op).ite (Only.refl _ e))

theorem mem_vitsOf_allOnes (v : VitId) : v ∈ vitsOf (BitVec.allOnes 32) := by
  refine List.mem_map.2 ⟨v.toNat, (mem_bits _ _).2 ?_, ofNat_toNat_self v⟩
  rw [BitVec.getLsbD_allOnes]
  exact decide_eq_true v.isLt

theorem Dev.nodup_paceLeaders (d : Dev) (op : ROp) : (d.paceLeaders op).Nodup := List.Nodup.filter _ (show (vitsOf (BitVec.allOnes 32)).Nodup by decide)

theorem exec_paceReceive {s : State} {op : ROp} (hdest : op.dest = s.dev.devId) (htype : op.type = .pace) : exec (.paceReceive op) s =
    .next { s with dev := ((s.dev.paceAccepted op).paceLeaders op).foldl (Dev.paceHeard op) (s.dev.paceAccepted op) } := by
  have hexec : exec (.paceReceive op) s = execPaceReceive op s := rfl
  simp only [hexec, execPaceReceive, runDev_eq, hdest, htype, bne_self_eq_false, Bool.or_self, Bool.false_eq_true, if_false]
  rfl

/-- An event leaves every setting (R298, R316). -/
theorem Cat.force_push (c : Cat) (e : Event) : (c.push e).force = c.force := by
  unfold Cat.push
  generalize (c.events ++ [{ e with seq := c.evNext }]).drop _ = events
  generalize (c.evNext + 1) % 2 ^ 32 = number
  rfl

section Heard
variable (op : ROp) (d : Dev) (l : VitId)

theorem Dev.paceTaken_only : Only [.vits, .cnt, .cat] d (Dev.paceTaken op d l) := by
  have hheld := ((Only.refl [.vits, .cnt, .cat] d).setVit l (fun t => { t with pace := t.pace.holds op }) (by simp)).count 0x2020 5 l.toNat 1 (by simp)
  exact (hheld.postVit _ _ _ _ (by simp)).ite hheld

theorem Dev.paceHeard_only : Only [.vits, .cnt, .cat] d (Dev.paceHeard op d l) := (Only.refl _ d).ite (d.paceTaken_only op l)

theorem Dev.force_paceTaken : (Dev.paceTaken op d l).cat.force = d.cat.force := by
  unfold Dev.paceTaken
  dsimp only
  split
  · exact Cat.force_push d.cat _
  · rfl

theorem Dev.force_paceHeard : (Dev.paceHeard op d l).cat.force = d.cat.force := by
  unfold Dev.paceHeard
  split
  · rfl
  · exact d.force_paceTaken op l

theorem Dev.vit_paceTaken (w : VitId) : (Dev.paceTaken op d l).vit w = (d.setVit l (fun t => { t with pace := t.pace.holds op })).vit w := by
  unfold Dev.paceTaken
  dsimp only
  split
  · rw [Dev.vit, Dev.postVit_vits]; rfl
  · rfl

theorem Dev.vit_paceHeard_ne (w : VitId) (h : w ≠ l) : (Dev.paceHeard op d l).vit w = d.vit w := by
  unfold Dev.paceHeard
  split
  · rfl
  · rw [Dev.vit_paceTaken, Dev.vit_setVit_ne _ _ _ _ h]

/-- A notice leaves the Vitrines that it does not concern. -/
theorem Dev.vit_foldl_paceHeard (ls : List VitId) (w : VitId) (h : w ∉ ls) : (ls.foldl (Dev.paceHeard op) d).vit w = d.vit w := by
  induction ls generalizing d with
  | nil => rfl
  | cons l ls ih =>
    rw [List.mem_cons, not_or] at h
    exact (ih _ h.2).trans (d.vit_paceHeard_ne op l w h.1)

theorem Dev.force_foldl_paceHeard (ls : List VitId) : (ls.foldl (Dev.paceHeard op) d).cat.force = d.cat.force :=
  foldl_keeps (fun e : Dev => e.cat.force) _ (fun e l => e.force_paceHeard op l) ls d

end Heard

/-- A leader that a notice concerns holds it, whatever other leaders do. -/
theorem Dev.pace_foldl_paceHeard (op : ROp) (d : Dev) (ls : List VitId) (v : VitId) (hnodup : ls.Nodup) (hv : v ∈ ls) (hepoch : (d.epoch v).toNat ≤ op.epoch.toNat)
    (hmember : op.src ∈ d.members v) (hnewer : (d.vit v).pace.newer op = true) : ((ls.foldl (Dev.paceHeard op) d).vit v).pace = (d.vit v).pace.holds op := by
  obtain ⟨before, after, rfl⟩ := List.append_of_mem hv
  have hbefore : v ∉ before := fun h => (List.nodup_append.1 hnodup).2.2 v h v List.mem_cons_self rfl
  have hafter : v ∉ after := (List.nodup_cons.1 (List.nodup_append.1 hnodup).2.1).1
  rw [List.foldl_append, List.foldl_cons, Dev.vit_foldl_paceHeard _ _ _ _ hafter]
  have hvit := d.vit_foldl_paceHeard op before v hbefore
  have hforce := d.force_foldl_paceHeard op before
  generalize before.foldl (Dev.paceHeard op) d = e at hvit hforce
  have hstale : (decide (op.epoch.toNat < (e.epoch v).toNat) || !(e.members v).contains op.src || !(e.vit v).pace.newer op) = false := by
    have hep : e.epoch v = d.epoch v := by simp only [Dev.epoch, Dev.vset, Dev.force, hforce]
    have hmem : e.members v = d.members v := by simp only [Dev.members, hforce]
    rw [hep, hmem, hvit, hnewer, decide_eq_false (Nat.not_lt.2 hepoch), List.contains_iff_mem.2 hmember]
    rfl
  have hheard : Dev.paceHeard op e v = Dev.paceTaken op e v := by
    rw [Dev.paceHeard, hstale]
    rfl
  rw [hheard, Dev.vit_paceTaken, Dev.vit_setVit, hvit]

/-- Settles O27: either command sends the leader's state (`paceSent_completes`), and a notice is held by each leader that it concerns. -/
theorem paceNoticesAreSentAndHeld : Obligations.PaceNoticesAreSentAndHeld := by
  intro s v p hp
  subst hp
  refine ⟨fun i hunsent hdue => ?_, fun op hdest htype hlead hheld hgroup hzero hepoch hmember hnewer => ?_⟩
  · have hnext : exec i s = .next { s with dev := s.dev.sendPace v } := by
      rcases hdue with ⟨rfl, hdue⟩ | ⟨rfl, n, hsent, hdue⟩
      · exact exec_paceSend hunsent hdue
      · exact exec_paceLatestStateSend hunsent hsent hdue
    obtain ⟨t, ht, hkeeps, hothers, hvit, hfab⟩ := paceSent_completes hnext
    obtain ⟨low, hclock, hseq, hmem, hle, hall⟩ := s.dev.paceOp_says v
    exact ⟨t, ht, hkeeps, hothers, hvit, s.dev.paceOp v, low, rfl, rfl, rfl, rfl, hclock, hseq, hmem, hle, hall, hfab⟩
  · have hnext := exec_paceReceive hdest htype
    have haccepted := s.dev.paceAccepted_only op
    have hseq : BitVec.ofNat 32 (fld op.operand1.toNat 12 32) = BitVec.ofNat 32 (op.operand1.toNat / 2 ^ 12) := by
      rw [fld, Nat.shiftRight_eq_div_pow]
      exact BitVec.eq_of_toNat_eq (by simp)
    rw [hseq]
    generalize hd : s.dev.paceAccepted op = d at hnext haccepted
    have hvit : d.vit v = s.dev.vit v := haccepted.vit (by simp) v
    have hcat : d.cat = s.dev.cat := haccepted.cat (by simp)
    have hep : d.epoch v = s.dev.epoch v := by simp only [Dev.epoch, Dev.vset, Dev.force, hcat]
    have hgrp : d.group v = s.dev.group v := by simp only [Dev.group, Dev.vset, Dev.force, hcat]
    have hmem : d.members v = s.dev.members v := by simp only [Dev.members, hcat]
    have hin : v ∈ d.paceLeaders op := by
      refine List.mem_filter.2 ⟨mem_vitsOf_allOnes v, ?_⟩
      rw [hvit, hgrp, hlead, hheld, ← hgroup, beq_self_eq_true, beq_self_eq_true, bne_iff_ne.2 hzero]
      rfl
    have hnew : (d.vit v).pace.newer op = true := by
      unfold PaceSt.newer
      split
      next h hfind =>
        have hsender := List.find?_some hfind
        have hlt := hnewer h (by rw [← hvit]; exact List.mem_of_find?_eq_some hfind) (beq_iff_eq.1 hsender)
        rw [decide_eq_true_eq, ← hseq, BitVec.toNat_ofNat]
        rwa [Nat.mod_eq_of_lt (show fld op.operand1.toNat 12 32 < 2 ^ 32 from Nat.mod_lt _ (by decide))]
      next => rfl
    refine ⟨_, hnext, ?_, ?_⟩
    · have hheard : Only [.vits, .cnt, .cat] d ((d.paceLeaders op).foldl (Dev.paceHeard op) d) := (Only.refl _ d).foldl _ _ (fun e l => e.paceHeard_only op l)
      exact ((haccepted.mono (by simp)).trans (hheard.mono (by simp))).keeps
    · exact (d.pace_foldl_paceHeard op _ v (d.nodup_paceLeaders op) hin (by rw [hep]; exact hepoch) (by rw [hmem]; exact hmember) hnew).trans (by rw [hvit]; rfl)

end Sys2Proof.Machine

namespace Sys2Proof.Machine

/-! ### The Pendant (O48) -/

/-! #### Pairing (R253) -/

/-- What the ends of a pair must agree on (R253). -/
def Dev.agrees (d : Dev) (p : PairInfo) : Bool := p.fw.toNat == d.fw.version && p.partOk && p.steppingsOk && p.links.toNat == d.force 0x5200 2 0

theorem Dev.agrees_iff (d : Dev) (p : PairInfo) :
    d.agrees p = true ↔ p.fw.toNat = d.fw.version ∧ p.partOk = true ∧ p.steppingsOk = true ∧ p.links.toNat = d.force 0x5200 2 0 := by
  simp only [Dev.agrees, Bool.and_eq_true, beq_iff_eq, and_assoc]

section Pair
variable {s : State} {p : PairInfo} (hpeer : p.peer.toNat = s.dev.force 0x5200 1 0) (hnamed : p.peer ≠ 0xFFFF) (hours : s.dev.fab.pendant ≠ 5)
include hpeer hnamed hours

/-- A PAIR of the named peer is looked at while the device has not been taken over (R253). -/
theorem pair_named : (s.dev.force 0x5200 1 0 == 0xFFFF || s.dev.fab.pendant == 5 || p.peer.toNat != s.dev.force 0x5200 1 0) = false := by
  have hme : s.dev.force 0x5200 1 0 ≠ 0xFFFF := fun h => hnamed (BitVec.eq_of_toNat_eq (hpeer.trans h))
  rw [beq_eq_false_iff_ne.2 hme, beq_eq_false_iff_ne.2 hours, hpeer, bne_self_eq_false]
  rfl

/-- A peer that agrees, with four pair links trained, is paired with (R253). -/
theorem pair_paired (hagrees : s.dev.agrees p = true) (hlinks : 4 ≤ min s.dev.pairTrained (bits p.trained).length) :
    Completes (.pair p) s (fun t => Keeps [.fab] s t ∧ t.dev.fab = { s.dev.fab with pendant := 2 }) := by
  have hexec : exec (.pair p) s = execPair p s := rfl
  refine completes_dev (s.dev.onFab (fun b => { b with pendant := 2 })) hexec ?_ ⟨((Only.refl _ _).onFab _ (by simp)).keeps, rfl⟩
  rw [Dev.agrees] at hagrees
  simp only [pair_named hpeer hnamed hours, hagrees, hlinks, Bool.not_true, Bool.false_eq_true, if_true, if_false]

/-- A peer that does not agree is refused (R253). -/
theorem pair_refused (hdiffers : s.dev.agrees p = false) : Completes (.pair p) s (fun t => Keeps [.fab] s t ∧ t.dev.fab = { s.dev.fab with pendant := 3 }) := by
  have hexec : exec (.pair p) s = execPair p s := rfl
  refine completes_dev (s.dev.onFab (fun b => { b with pendant := 3 })) hexec ?_ ⟨((Only.refl _ _).onFab _ (by simp)).keeps, rfl⟩
  rw [Dev.agrees] at hdiffers
  simp only [pair_named hpeer hnamed hours, hdiffers, Bool.not_false, Bool.false_eq_true, if_true, if_false]

end Pair

/-! #### Commits (R248, R254) -/

/-- A change of some Vitrines that changes nothing a second time changes each of them, and no other. -/
theorem Dev.vit_foldl_setVit (f : Vit → Vit) (hf : ∀ t, f (f t) = f t) (ws : List VitId) (d : Dev) (v : VitId) :
    (ws.foldl (fun (e : Dev) w => e.setVit w f) d).vit v = if v ∈ ws then f (d.vit v) else d.vit v := by
  induction ws generalizing d with
  | nil => rfl
  | cons w ws ih =>
    rw [List.foldl_cons, ih]
    by_cases hv : v = w
    · subst hv
      rw [Dev.vit_setVit, hf, ite_self, if_pos List.mem_cons_self]
    · rw [Dev.vit_setVit_ne _ _ _ _ hv]
      simp only [List.mem_cons, hv, false_or]

/-- The result that is recorded of a COMMIT (R248). -/
def commitResult (op : ROp) : RRes := { tag := op.tag, status := 0, old := 0, data := [] }

/-- A source entry whose next operation has been performed with a result (R248). -/
def SrcEnt.performed (e : SrcEnt) (r : RRes) (now : Nat) : SrcEnt :=
  { e with next := e.next + 1, results := (e.results ++ [r]).drop (e.results.length + 1 - 4096), used := now }

/-- The machine once a COMMIT has been recorded as its source's next operation. -/
def Dev.commitRecorded (d : Dev) (op : ROp) : Dev :=
  d.onFab (fun b => match kfind b.srcs (srcKey op) with
    | some e => { b with srcs := kset b.srcs (srcKey op) (e.performed (commitResult op) d.ref) }
    | none => b)

/-- The committed checkpoint of a tenancy moves on (R254). -/
def Dev.commitNoted (d : Dev) (v : VitId) (op : ROp) : Dev :=
  (d.tenancy (((d.vit v).leader).getD v)).foldl (fun (e : Dev) w => e.setVit w (fun t => { t with ckptCommitted := BitVec.ofNat 32 op.operand0.toNat })) d

/-- A COMMIT is performed: recorded, noted for its tenancy and answered (R248, R254). -/
def Dev.committed (d : Dev) (v : VitId) (op : ROp) : Dev :=
  let e := (d.commitRecorded op).commitNoted v op
  e.replyResult (e.sameTenancy v) op (commitResult op)

section Commit
variable (d : Dev) (v : VitId) (op : ROp)

theorem Dev.reply_only (own : VitId → Bool) (st : Nat) (old : BitVec 64) : Only [.fab] d (d.reply own op st old) := d.sendFree_only own _

theorem Dev.replyResult_only (own : VitId → Bool) (r : RRes) : Only [.fab] d (d.replyResult own op r) :=
  ((d.sendFree_only own _).ite (Only.refl _ d)).trans (Dev.reply_only _ op own _ _)

theorem Dev.replyResult_steady (own : VitId → Bool) (r : RRes) : Dev.SteadyFab d (d.replyResult own op r) := by
  unfold Dev.replyResult
  split
  · exact (Dev.SteadyFab.sendFree d own _).trans (Dev.SteadyFab.sendFree _ own _)
  · exact Dev.SteadyFab.sendFree d own _

theorem Dev.commitNoted_only : Only [.vits] d (d.commitNoted v op) := (Only.refl _ d).foldl _ _ (fun e w => (Only.refl _ e).setVit w _ (by simp))

theorem Dev.committed_srcs {e : SrcEnt} (h : kfind d.fab.srcs (srcKey op) = some e) :
    kfind (d.committed v op).fab.srcs (srcKey op) = some (e.performed (commitResult op) d.ref) := by
  have hrecorded : (d.commitRecorded op).fab = { d.fab with srcs := kset d.fab.srcs (srcKey op) (e.performed (commitResult op) d.ref) } := by
    simp only [Dev.commitRecorded, Dev.onFab, h]
  rw [Dev.committed, (Dev.replyResult_steady _ op _ _).srcs, ((d.commitRecorded op).commitNoted_only v op).fab (by simp), hrecorded]
  exact kfind_kset _ _ _

theorem Dev.committed_only : Only [.fab, .vits] d (d.committed v op) := by
  have hrecorded : Only [.fab, .vits] d (d.commitRecorded op) := (Only.refl _ d).onFab _ (by simp)
  exact (hrecorded.trans ((Dev.commitNoted_only _ v op).mono (by simp))).trans ((Dev.replyResult_only _ op _ _).mono (by simp))

theorem Dev.vit_committed (w : VitId) : (d.committed v op).vit w =
    if w ∈ d.tenancy (((d.vit v).leader).getD v) then { d.vit w with ckptCommitted := BitVec.ofNat 32 op.operand0.toNat } else d.vit w :=
  ((Dev.replyResult_only _ op _ _).vit (by simp) w).trans
    (Dev.vit_foldl_setVit (fun t => { t with ckptCommitted := BitVec.ofNat 32 op.operand0.toNat }) (fun _ => rfl) _ (d.commitRecorded op) w)

/-- A COMMIT in its turn, behind which no operation is held, is performed alone (R248). -/
theorem X.performNext_commit (x : X) (l : Nat) (v : VitId) {e : SrcEnt} (htype : op.type = .commit) (he : kfind x.dev.fab.srcs (srcKey op) = some e)
    (hheld : e.held = []) : x.performNext l v op = x.on (fun d => d.committed v op) := by
  have hsrc := x.dev.committed_srcs v op he
  have hdone : ∀ y : X, y = x.on (fun d => d.committed v op) → (((kfind y.dev.fab.srcs (srcKey op)).map (·.held)).getD []) = [] := by
    rintro _ rfl
    rw [X.on_dev, hsrc]
    exact hheld
  unfold X.performNext
  simp only [htype, bne_self_eq_false, beq_self_eq_true, Bool.and_false, Bool.not_true, Bool.false_eq_true, if_true, if_false]
  rw [hdone]
  · rfl
  · rfl

/-- A source entry is used by the operation that arrives for it (R248). -/
def Dev.srcUsed (d : Dev) (op : ROp) (e : SrcEnt) : Dev := d.onFab (fun b => { b with srcs := kset b.srcs (srcKey op) { e with used := d.ref } })

/-- An operation of the epoch in force whose tag is its source's next is performed (R248, R249). -/
theorem X.arriveOp_next (x : X) (l : Nat) {e : SrcEnt} (htype : op.type = .commit) (hepoch : x.dev.epoch v = op.epoch)
    (he : kfind x.dev.fab.srcs (srcKey op) = some e) (hsame : e.epoch = op.epoch) (htag : op.tag = e.next) :
    x.arriveOp l v op = (x.on (fun d => d.srcUsed op e)).performNext l v op := by
  obtain ⟨epoch, next, results, held, used⟩ := e
  dsimp only at hsame htag
  subst hsame htag
  unfold X.arriveOp
  simp only [hepoch, he, htype, if_false, Option.isNone_some, Bool.false_and, Bool.false_eq_true, beq_self_eq_true, if_true, Bool.true_or,
    X.on_dev, Dev.onFab, kfind_kset, BitVec.sub_self, BitVec.toInt_zero, Bool.not_true, show ¬ (0 : Int) < -4096 by decide, lt_irrefl]
  rfl

end Commit

/-- Taking an operation out of its buffer leaves the fabric but for its links and its own operations. -/
theorem Dev.acceptOp_steady (d : Dev) (l : Nat) (op : ROp) : (d.acceptOp l op).fab.steady = d.fab.steady := by
  unfold Dev.acceptOp
  split <;> rfl

/-- The next COMMIT of a source moves the committed checkpoint of its tenancy on (R248, R254). -/
theorem commit_records {s : State} {op : ROp} {v lead : VitId} {e : SrcEnt} (hdest : op.dest = s.dev.devId) (htype : op.type = .commit) (hruns : s.dev.dbg.stopped = false)
    (hcrc : op.crcOk = true) (hv : v = op.srcVit) (hheldVit : (s.dev.vit v).held = true) (hlead : (s.dev.vit v).leader = some lead) (hgroup : s.dev.group v = op.group)
    (hgroup0 : op.group ≠ 0) (hepoch : s.dev.epoch v = op.epoch) (he : kfind s.dev.fab.srcs (srcKey op) = some e) (hsame : e.epoch = op.epoch) (htag : op.tag = e.next)
    (hheld : e.held = []) :
    Completes (.commit op) s (fun t => Keeps [.fab, .vits] s t ∧ (∃ f, kfind t.dev.fab.srcs (srcKey op) = some f ∧ f.next = e.next + 1 ∧ f.epoch = e.epoch) ∧
      ∀ w, t.dev.vit w = if w ∈ s.dev.tenancy lead then { s.dev.vit w with ckptCommitted := BitVec.ofNat 32 op.operand0.toNat } else s.dev.vit w) := by
  subst hv
  have hexec : exec (.commit op) s = execCommit op s := rfl
  have haccept := s.dev.acceptOp_only (s.dev.linkOf op) op
  have hsrcs : (s.dev.acceptOp (s.dev.linkOf op) op).fab.srcs = s.dev.fab.srcs := (congrArg Fab.srcs (s.dev.acceptOp_steady _ op) :)
  generalize hd : s.dev.acceptOp (s.dev.linkOf op) op = d at haccept hsrcs
  have hvit : ∀ w, d.vit w = s.dev.vit w := haccept.vit (by simp)
  have hcat : d.cat = s.dev.cat := haccept.cat (by simp)
  have hgrp : d.group op.srcVit = op.group := by rw [← hgroup]; simp only [Dev.group, Dev.vset, Dev.force, hcat]
  have hep : d.epoch op.srcVit = op.epoch := by rw [← hepoch]; simp only [Dev.epoch, Dev.vset, Dev.force, hcat]
  have hfind : kfind d.fab.srcs (srcKey op) = some e := by rw [hsrcs]; exact he
  have htenancy : d.tenancy lead = s.dev.tenancy lead := by simp only [Dev.tenancy, hvit]
  have hleads : (((d.srcUsed op e).vit op.srcVit).leader).getD op.srcVit = lead := by
    rw [show (d.srcUsed op e).vit op.srcVit = d.vit op.srcVit from rfl, hvit, hlead]
    rfl
  have honly : Only [.fab, .vits] d ((d.srcUsed op e).committed op.srcVit op) := ((Only.refl _ d).onFab _ (by simp)).trans (Dev.committed_only _ _ _)
  refine completes_on (fun d => ((d.acceptOp (d.linkOf op) op).srcUsed op e).committed op.srcVit op) hexec ?_ ?_
  · have harrive := X.arriveOp_next op.srcVit op { dev := d, mem := s.mem, mram := s.mram } (s.dev.linkOf op) htype hep hfind hsame htag
    rw [X.performNext_commit op _ _ op.srcVit htype (kfind_kset _ _ _) (by exact hheld)] at harrive
    simp only [hdest, htype, hruns, hcrc, hd, hvit, hheldVit, hgrp, X.on, bne_self_eq_false, Bool.or_self, Bool.false_eq_true, if_false, Bool.not_true, beq_self_eq_true,
      Bool.true_and, bne_iff_ne.2 hgroup0, if_true]
    exact harrive
  · dsimp only
    rw [hd]
    refine ⟨((haccept.mono (by simp)).trans honly).keeps, ⟨_, Dev.committed_srcs (d.srcUsed op e) op.srcVit op (kfind_kset _ _ _), rfl, rfl⟩, fun w => ?_⟩
    rw [Dev.vit_committed, hleads, ← htenancy, ← hvit w]
    rfl

/-! #### Takeovers (R255) -/

theorem Dev.linkMoved_pendant (d : Dev) (l : Nat) (st : LinkSt) (n : Nat) : (d.linkMoved l st n).fab.pendant = d.fab.pendant := by
  have hcount : ∀ (e : Dev) (c : Bool) (m : Nat), (if c = true then e.count 0x8019 m l else e).fab = e.fab := by
    intro e c m
    split <;> rfl
  simp only [Dev.linkMoved, Dev.post_fab, hcount]
  split <;> rfl

/-- Only a pair that stands loses links enough to be DEGRADED (R253). -/
theorem Dev.linkTo_pendant (d : Dev) (l : Nat) (st : LinkSt) (n : Nat) (h : d.fab.pendant ≠ 2) : (d.linkTo l st n).fab.pendant = d.fab.pendant := by
  have hmoved := d.linkMoved_pendant l st n
  have hstands : (d.linkMoved l st n).pairCheck = d.linkMoved l st n := if_neg (by simp [hmoved, h])
  rw [(d.linkTo_steady l st n).pendant, hstands, hmoved]

/-- A link of a former primary's pair stands in QUARANTINE with REASON 5 (R255). -/
def Dev.pairLinkClosed (d : Dev) (l : Nat) : Dev :=
  let k := d.link l
  if fld (d.force 0x5200 2 0) l 1 == 1 && (k.st == .mgmt || k.st == .active || k.st == .quarantine) && !(k.st == .quarantine && k.reason == 5) then
    d.linkTo l .quarantine 5 else d

theorem Dev.takenOver_eq (d : Dev) : d.takenOver = (List.range 96).foldl Dev.pairLinkClosed (d.onFab (fun b => { b with pendant := 5 })) := rfl

theorem Dev.pairLinkClosed_only (d : Dev) (l : Nat) : Only [.fab, .cat, .cnt] d (d.pairLinkClosed l) :=
  ((Only.refl _ d).linkTo l .quarantine 5 (by simp)).ite (Only.refl _ d)

theorem Dev.pairLinkClosed_pendant (d : Dev) (l : Nat) (h : d.fab.pendant = 5) : (d.pairLinkClosed l).fab.pendant = 5 := by
  unfold Dev.pairLinkClosed
  dsimp only
  split
  · rw [Dev.linkTo_pendant _ _ _ _ (by rw [h]; decide), h]
  · exact h

theorem Dev.takenOver_only (d : Dev) : Only [.fab, .cat, .cnt] d d.takenOver := by
  rw [Dev.takenOver_eq]
  exact ((Only.refl _ d).onFab _ (by simp)).foldl _ _ (fun e l => e.pairLinkClosed_only l)

/-- A former primary stays taken over (R255). -/
theorem Dev.takenOver_pendant (d : Dev) : d.takenOver.fab.pendant = 5 := by
  rw [Dev.takenOver_eq]
  exact List.foldlRecOn (motive := fun e : Dev => e.fab.pendant = 5) _ _ rfl (fun e he l _ => e.pairLinkClosed_pendant l he)

/-- An ALIAS row for a pair of devices that no row of the group names yet (R255). -/
theorem Dev.addAlias_new (d : Dev) (group : Word) (old new : DevId)
    (hfresh : ∀ a ∈ d.fab.aliases, a.1 = group → a.2.2 ≠ old ∧ ¬(a.2.1 = old ∧ a.2.2 = new)) (hroom : d.fab.aliases.length < 16) :
    d.addAlias group old new = d.onFab (fun b => { b with aliases := b.aliases ++ [(group, old, new)] }) := by
  have hrow : ¬ d.fab.aliases.contains (group, old, new) = true := fun h => (hfresh _ (List.contains_iff_mem.1 h) rfl).2 ⟨rfl, rfl⟩
  have hchain : ¬ d.fab.aliases.any (fun a => a.1 == group && a.2.2 == old) = true := by
    intro h
    obtain ⟨a, ha, heq⟩ := List.any_eq_true.1 h
    obtain ⟨hgroup, hold⟩ := Bool.and_eq_true_iff.1 heq
    exact (hfresh a ha (beq_iff_eq.1 hgroup)).1 (beq_iff_eq.1 hold)
  rw [Dev.addAlias, if_neg hrow, if_neg hchain, if_neg (Nat.not_le.2 hroom)]

/-- What the device that a TAKEOVER reaches makes of it (R255): the former primary, the standby, and another member. -/
def Dev.takeoverHeard (d : Dev) (op : ROp) (old new : DevId) : Dev :=
  if old == d.devId then d.takenOver
  else if new == d.devId then (match d.standbyFor op with | some t => d.takeOver t old | none => d)
  else if (List.range 32).any (fun i => (d.vit (BitVec.ofNat 5 i)).held && d.group (BitVec.ofNat 5 i) == op.group) && op.group != 0 then d.addAlias op.group old new
  else d

section Takeover
variable {s : State} {op : ROp} {old new : DevId} (hdest : op.dest = s.dev.devId) (htype : op.type = .takeover) (hruns : s.dev.dbg.stopped = false)
  (hcrc : op.crcOk = true) (hold : old = BitVec.ofNat 16 (fld op.operand1.toNat 48 16)) (hnew : new = BitVec.ofNat 16 (fld op.operand1.toNat 32 16))
include hdest htype hruns hcrc hold hnew

theorem exec_takeover : exec (.takeover op) s = .next { s with dev := (s.dev.acceptOp (s.dev.linkOf op) op).takeoverHeard op old new } := by
  subst hold hnew
  have hexec : exec (.takeover op) s = execTakeover op s := rfl
  simp only [hexec, execTakeover, runDev_eq, hdest, htype, hruns, hcrc, bne_self_eq_false, Bool.or_self, Bool.not_true, Bool.false_eq_true, if_false]
  rfl

/-- The former primary learns that it has been taken over (R255). -/
theorem takeover_former (hformer : old = s.dev.devId) : Completes (.takeover op) s (fun t => Keeps [.fab, .cat, .cnt] s t ∧ t.dev.fab.pendant = 5) := by
  have hnext := exec_takeover hdest htype hruns hcrc hold hnew
  have haccept := s.dev.acceptOp_only (s.dev.linkOf op) op
  generalize s.dev.acceptOp (s.dev.linkOf op) op = d at hnext haccept
  have hid : d.devId = s.dev.devId := by simp only [Dev.devId, Dev.acc, haccept.cat (by simp)]
  rw [Dev.takeoverHeard, if_pos (by rw [hid, hformer, beq_self_eq_true])] at hnext
  exact ⟨_, hnext, ((haccept.mono (by simp)).trans d.takenOver_only).keeps, d.takenOver_pendant⟩

/-- The standby tenancy becomes primary (R255). -/
theorem takeover_standby {l : VitId} (hother : old ≠ s.dev.devId) (hours : new = s.dev.devId) (hstandby : s.dev.standbyFor op = some l) :
    Completes (.takeover op) s (fun t => Keeps [.fab, .cat, .vits] s t ∧ (∀ w ∈ s.dev.tenancy l, Dev.TakenOver s.dev (s.dev.epoch l + 1) w t.dev) ∧
      ∀ w, w ∉ s.dev.tenancy l → t.dev.vit w = s.dev.vit w) := by
  have hnext := exec_takeover hdest htype hruns hcrc hold hnew
  have haccept := s.dev.acceptOp_only (s.dev.linkOf op) op
  generalize s.dev.acceptOp (s.dev.linkOf op) op = d at hnext haccept
  have hvit : ∀ w, d.vit w = s.dev.vit w := haccept.vit (by simp)
  have hcat : d.cat = s.dev.cat := haccept.cat (by simp)
  have hid : d.devId = s.dev.devId := by simp only [Dev.devId, Dev.acc, hcat]
  have hepoch : d.epoch l = s.dev.epoch l := by simp only [Dev.epoch, Dev.vset, Dev.force, hcat]
  have htenancy : d.tenancy l = s.dev.tenancy l := by simp only [Dev.tenancy, hvit]
  have hstands : d.standbyFor op = some l := by
    have hgroup : d.group op.srcVit = s.dev.group op.srcVit := by simp only [Dev.group, Dev.vset, Dev.force, hcat]
    have hrole : d.vacc op.srcVit 9 4 = s.dev.vacc op.srcVit 9 4 := by simp only [Dev.vacc, Dev.acc, hcat]
    rw [← hstandby, Dev.standbyFor, Dev.standbyFor, hvit, hgroup, hrole]
  obtain ⟨honly, -, htaken, hothers⟩ := d.takeOver_spec l old
  rw [Dev.takeoverHeard, if_neg (by rw [hid, beq_iff_eq]; exact hother), if_pos (by rw [hid, hours, beq_self_eq_true]), hstands] at hnext
  rw [htenancy, hepoch] at htaken
  rw [htenancy] at hothers
  refine ⟨_, hnext, ((haccept.mono (by simp)).trans (honly.mono (by simp))).keeps, fun w hw => ?_, fun w hw => (hothers w hw).trans (hvit w)⟩
  obtain ⟨hckpt, hpv, hrole, hep⟩ := htaken w hw
  exact ⟨hckpt.trans (by rw [hvit]), hpv, hrole, hep⟩

/-- Another member's ALIAS table maps the former primary to the new one (R255). -/
theorem takeover_member {v : VitId} (hother : old ≠ s.dev.devId) (htheirs : new ≠ s.dev.devId) (hheld : (s.dev.vit v).held = true) (hgroup : s.dev.group v = op.group)
    (hgroup0 : op.group ≠ 0) (hfresh : ∀ a ∈ s.dev.fab.aliases, a.1 = op.group → a.2.2 ≠ old ∧ ¬(a.2.1 = old ∧ a.2.2 = new)) (hroom : s.dev.fab.aliases.length < 16) :
    Completes (.takeover op) s (fun t => Keeps [.fab] s t ∧ t.dev.fab.aliases = s.dev.fab.aliases ++ [(op.group, old, new)]) := by
  have hnext := exec_takeover hdest htype hruns hcrc hold hnew
  have haccept := s.dev.acceptOp_only (s.dev.linkOf op) op
  have haliases : (s.dev.acceptOp (s.dev.linkOf op) op).fab.aliases = s.dev.fab.aliases := (congrArg Fab.aliases (s.dev.acceptOp_steady _ op) :)
  generalize s.dev.acceptOp (s.dev.linkOf op) op = d at hnext haccept haliases
  have hcat : d.cat = s.dev.cat := haccept.cat (by simp)
  have hid : d.devId = s.dev.devId := by simp only [Dev.devId, Dev.acc, hcat]
  have hmember : ((List.range 32).any (fun i => (d.vit (BitVec.ofNat 5 i)).held && d.group (BitVec.ofNat 5 i) == op.group) && op.group != 0) = true := by
    refine Bool.and_eq_true_iff.2 ⟨List.any_eq_true.2 ⟨v.toNat, List.mem_range.2 v.isLt, ?_⟩, bne_iff_ne.2 hgroup0⟩
    have hgrp : d.group v = op.group := by rw [← hgroup]; simp only [Dev.group, Dev.vset, Dev.force, hcat]
    rw [ofNat_toNat_self, haccept.vit (by simp), hheld, hgrp, beq_self_eq_true]
    rfl
  rw [Dev.takeoverHeard, if_neg (by rw [hid, beq_iff_eq]; exact hother), if_neg (by rw [hid, beq_iff_eq]; exact htheirs), if_pos hmember,
    d.addAlias_new op.group old new (by rw [haliases]; exact hfresh) (by rw [haliases]; exact hroom)] at hnext
  exact ⟨_, hnext, (haccept.onFab _ (by simp)).keeps, congrArg (fun l => l ++ [(op.group, old, new)]) haliases⟩

end Takeover

/-- Settles O48: PAIR compares what the ends agree on, the next COMMIT of a source is performed (`X.arriveOp_next`, `X.performNext_commit`), and TAKEOVER is heard by the
former primary, the standby and other members. That a takeover restores the committed checkpoint as the local one is log 52's choice. -/
theorem pendantPairsCommitsAndTakesOver : Obligations.PendantPairsCommitsAndTakesOver := by
  intro s
  refine ⟨fun p hpeer hnamed hours => ⟨?_, ?_⟩, ?_, ?_⟩
  · intro hfw hpart hsteppings hlinks
    exact pair_paired hpeer hnamed hours ((s.dev.agrees_iff p).2 ⟨hfw, hpart, hsteppings, hlinks⟩)
  · intro hdiffers
    exact pair_refused hpeer hnamed hours (Bool.eq_false_iff.2 (fun h => hdiffers ((s.dev.agrees_iff p).1 h)))
  · intro op v e lead hdest htype hruns hcrc hv hheld hlead hgroup hgroup0 hepoch he hsame htag hnone
    exact commit_records hdest htype hruns hcrc hv hheld hlead hgroup hgroup0 hepoch he hsame htag hnone
  · intro op old new hdest htype hruns hcrc hold hnew
    exact ⟨takeover_former hdest htype hruns hcrc hold hnew, fun l => takeover_standby hdest htype hruns hcrc hold hnew,
      fun v => takeover_member hdest htype hruns hcrc hold hnew⟩

end Sys2Proof.Machine

namespace Sys2Proof.Machine

/-! ### Remote instructions are taken and split (O46) -/

/-! #### The record of a remote instruction (R246) -/

/-- The record of a remote instruction that its group issues: a copy waits for the group's earlier writes and its block's tiles (R246). -/
def Dev.insRecord (d : Dev) (g : GRef) (b : Block) (p : RPath) (r : RIns) : RIns :=
  { r with
    id := d.fab.nextIns, core := g.core, pc := p.pc, lanes := p.mask, scr := b.scrGran, clus := b.clusGran
    owner := { slot := g.slot.toNat, grp := g.grp.toNat, launchIx := b.launchIx, block := b.index, seq := b.seq }
    waits := if r.type == .put || r.type == .get then
      (((d.core g.core).ops.filter (fun o => o.ofGroup g b && o.writes && !o.accs.isEmpty)).map (·.id)) else []
    tiles := if r.type == .put || r.type == .get then
      (((d.core g.core).eng.tiles.filter (fun t => t.ins.owner.slot == g.slot.toNat)).map (fun t => t.ins.id)) else [] }

/-- The machine once a remote instruction has been recorded and its group has gone on, its destination registers awaiting the old value (R246). -/
def Dev.insTaken (d : Dev) (g : GRef) (dsts : List Nat) (r : RIns) : Dev :=
  (d.onFab (fun f => { f with ins := f.ins ++ [r], nextIns := f.nextIns + 1 })).stepGrp g (fun q =>
    ({ q with busyRegs := q.busyRegs ++ dsts.map (BitVec.ofNat 8) } : Group).next)

/-- A group has room for a remote instruction among its 64 (R246). -/
def Dev.insRoom (d : Dev) (g : GRef) (b : Block) : Prop :=
  d.fab.ins.countP (fun j => j.core == g.core && (j.owner.slot == g.slot.toNat && j.owner.grp == g.grp.toNat && j.owner.launchIx == b.launchIx &&
    j.owner.block == b.index)) < 64

theorem X.remoteIns_taken (x : X) (g : GRef) (b : Block) (p : RPath) (dsts : List Nat) (r : RIns) (hroom : x.dev.insRoom g b) :
    x.remoteIns g b p dsts r = (x.on (fun d => d.insTaken g dsts (x.dev.insRecord g b p r))).remotePump g.core := if_neg (Nat.not_le.2 hroom)

theorem Dev.insRecord_issue (d : Dev) (g : GRef) (cls : IClass) (b : Block) (p : RPath) (r : RIns) : (d.issue g cls).insRecord g b p r = d.insRecord g b p r := by
  unfold Dev.insRecord
  rw [Dev.core_issue]
  rfl

section Taken
variable (d : Dev) (g : GRef) (dsts : List Nat) (r : RIns)

theorem Dev.insTaken_only : Only [.cores, .fab] d (d.insTaken g dsts r) :=
  ((Only.refl _ d).onFab _ (by simp)).trans ((Dev.stepGrp_only _ _ _).mono (by simp))

theorem Dev.insTaken_fab : (d.insTaken g dsts r).fab = { d.fab with ins := d.fab.ins ++ [r], nextIns := d.fab.nextIns + 1 } := Dev.stepGrp_fab _ _ _

/-- Taking a remote instruction leaves what it may wait for. -/
theorem Dev.insTaken_core (c : CoreId) : ((d.insTaken g dsts r).core c).ops = (d.core c).ops ∧ ((d.insTaken g dsts r).core c).eng = (d.core c).eng := by
  have hslots := Dev.OnlySlots.stepGrp (d.onFab (fun f => { f with ins := f.ins ++ [r], nextIns := f.nextIns + 1 })) g
    (fun q => ({ q with busyRegs := q.busyRegs ++ dsts.map (BitVec.ofNat 8) } : Group).next)
  by_cases hc : c = g.core
  · rw [hc, Dev.insTaken, hslots.self]
    exact ⟨rfl, rfl⟩
  · rw [Dev.insTaken, hslots.ne c hc]
    exact ⟨rfl, rfl⟩

theorem Dev.insTaken_wentOn {b : Block} {q : Group} {p : RPath} (h : d.grp g = some (b, q)) (hp : q.paths.head? = some p) :
    WentOn { q with busyRegs := q.busyRegs ++ dsts.map (BitVec.ofNat 8) } ((d.insTaken g dsts r).groupOf g) p := by
  have hgrp : (d.onFab (fun f => { f with ins := f.ins ++ [r], nextIns := f.nextIns + 1 })).grp g = some (b, q) := h
  rw [Dev.insTaken, Dev.groupOf_stepGrp _ g _ b q hgrp]
  exact wentOn_settled_next hp

end Taken

section Waits
variable (d : Dev) (g : GRef) (b : Block) (p : RPath) (r : RIns)

/-- A core without operations and tiles gives a remote instruction nothing to wait for. -/
theorem Dev.insRecord_free_of_idle (hops : (d.core g.core).ops = []) (htiles : (d.core g.core).eng.tiles = []) :
    (d.insRecord g b p r).waits = [] ∧ (d.insRecord g b p r).tiles = [] := by
  simp only [Dev.insRecord, hops, htiles, List.filter_nil, List.map_nil, ite_self, and_self]

/-- A remote instruction that is no copy waits for nothing (R246). -/
theorem Dev.insRecord_free_of_atom (htype : (r.type == .put || r.type == .get) = false) :
    (d.insRecord g b p r).waits = [] ∧ (d.insRecord g b p r).tiles = [] := by
  simp only [Dev.insRecord, htype, Bool.false_eq_true, if_false, and_self]

/-- An RPUT waits for its group's writes that have lanes to go (R246). -/
theorem Dev.insRecord_waits {o : OutOp} (htype : r.type = .put) (ho : o ∈ (d.core g.core).ops) (hgroup : o.ofGroup g b = true) (hwrites : o.writes = true)
    (haccs : o.accs ≠ []) : o.id ∈ (d.insRecord g b p r).waits := by
  have hmine : o ∈ (d.core g.core).ops.filter (fun e => e.ofGroup g b && e.writes && !e.accs.isEmpty) :=
    List.mem_filter.2 ⟨ho, by simp [hgroup, hwrites, haccs]⟩
  have hid := List.mem_map_of_mem (f := OutOp.id) hmine
  simpa only [Dev.insRecord, htype, beq_self_eq_true, Bool.true_or, if_true] using hid

end Waits

/-! #### Splitting (R246, R248) -/

/-- The records of remote instructions with those of one number split. -/
def markSplit (id : Nat) (l : List RIns) : List RIns := l.map (fun j => if j.id == id then { j with split := true } else j)

/-- Where every earlier instruction has been split, marking the last one leaves the others. -/
theorem markSplit_last (l : List RIns) (r : RIns) (h : ∀ j ∈ l, j.split = true) : markSplit r.id (l ++ [r]) = l ++ [{ r with split := true }] := by
  have hleft : markSplit r.id l = l := by
    refine (List.map_congr_left (fun j hj => ?_)).trans (List.map_id l)
    have hsame : ({ j with split := true } : RIns) = j := by rw [← h j hj]
    rw [hsame, ite_self]
    rfl
  rw [markSplit, List.map_append]
  refine congrArg₂ _ hleft ?_
  rw [List.map_singleton, beq_self_eq_true, if_pos rfl]

theorem Dev.newOp_only (d : Dev) (v : VitId) (src : RSrc) (dest : DevId) (type : RType) (aop addr len o0 o1 : Nat) (data : List Byte) (space loc : Nat) :
    Only [.fab, .cnt] d (d.newOp v src dest type aop addr len o0 o1 data space loc) := by
  have htag : Only [.fab, .cnt] d (d.newTag v (d.aliased (d.group v) dest)).1 := (Only.refl _ d).onFab _ (by simp)
  exact (htag.onFab _ (by simp)).trans (Dev.Sends.refl _).kickFab.only

/-- What splitting a remote instruction does to the machine: it is marked, and its operations are new (R246). -/
structure SplitsOff (id : Nat) (F : Dev → Dev) : Prop where
  only : ∀ d, Only [.fab, .cnt] d (F d)
  ins : ∀ d, (F d).fab.ins = markSplit id d.fab.ins

/-- The machine with a remote instruction marked as split. -/
def Dev.marked (d : Dev) (id : Nat) : Dev := d.onFab (fun b => { b with ins := markSplit id b.ins })

/-- New operations after the mark leave the records of the remote instructions. -/
theorem SplitsOff.of_marked {id : Nat} (G : Dev → Dev) (honly : ∀ d, Only [.fab, .cnt] d (G d)) (hsteady : ∀ d, Dev.SteadyFab d (G d)) :
    SplitsOff id (fun d => G (d.marked id)) :=
  ⟨fun d => ((Only.refl _ d).onFab _ (by simp)).trans (honly _), fun d => (hsteady _).ins⟩

/-- One new operation for each piece of a transfer. -/
theorem SplitsOff.pieces {id : Nat} (f : Dev → Nat × Nat → Dev) (len : Nat) (honly : ∀ d e, Only [.fab, .cnt] d (f d e)) (hsteady : ∀ d e, Dev.SteadyFab d (f d e)) :
    SplitsOff id (fun d => (pieces256 len).foldl f (d.marked id)) :=
  .of_marked _ (fun d => (Only.refl _ d).foldl f _ honly) (fun d => Dev.SteadyFab.foldl f hsteady _ d)

theorem X.readSpace_local (x : X) (c : CoreId) (scr clus : List Nat) (sp a n : Nat) (h : sp ≠ 1) : ∃ l, x.readSpace c scr clus sp a n = (x, l, false) :=
  ⟨_, if_neg h⟩

/-- A remote instruction other than an RPUT from the window is split at once into its operations (R246). -/
theorem X.splitIns_splits (x : X) (r : RIns) (hlocal : r.type = .put → r.space ≠ 1) : ∃ F, SplitsOff r.id F ∧ x.splitIns r = x.on F := by
  have hone : SplitsOff r.id (fun d => (d.marked r.id).newOp (vitOfCore r.core) (.ins r.id) r.dest r.type (aopCode r.aop) r.raddr
      (if r.wide then 8 else 4) r.val r.cmp [] 1 0) := .of_marked _ (fun d => d.newOp_only _ _ _ _ _ _ _ _ _ _ _ _) (fun d => .newOp d _ _ _ _ _ _ _ _ _ _ _ _)
  cases ht : r.type with
  | put =>
    obtain ⟨l, hl⟩ := (x.on (fun d => d.marked r.id)).readSpace_local r.core r.scr r.clus r.space r.laddr r.len (hlocal ht)
    refine ⟨_, .pieces (fun e q => e.newOp (vitOfCore r.core) (.ins r.id) r.dest .put 0 (r.raddr + q.1) q.2 0 0 ((l.drop q.1).take q.2) 1 0) r.len
      (fun d q => d.newOp_only _ _ _ _ _ _ _ _ _ _ _ _) (fun d q => .newOp d _ _ _ _ _ _ _ _ _ _ _ _), ?_⟩
    simp only [Dev.marked, markSplit] at hl ⊢
    simp only [X.splitIns, ht, hl]
    rfl
  | get =>
    refine ⟨_, .pieces (fun e q => e.newOp (vitOfCore r.core) (.ins r.id) r.dest .get 0 (r.raddr + q.1) q.2 0 0 [] r.space (r.laddr + q.1)) r.len
      (fun d q => d.newOp_only _ _ _ _ _ _ _ _ _ _ _ _) (fun d q => .newOp d _ _ _ _ _ _ _ _ _ _ _ _), ?_⟩
    simp only [X.splitIns, ht]
    rfl
  | getData | atomic | reduce | ack | pace | takeover | pair | mgmt | commit =>
    refine ⟨_, hone, ?_⟩
    simp only [X.splitIns, ht]
    rfl

/-- The last remote instruction of its Vitrine, when none before it waits, is split as soon as it is due (R212). -/
theorem X.remotePump_last (x : X) (c : CoreId) (l : List RIns) (r : RIns) (hins : x.dev.fab.ins = l ++ [r]) (hsplit : ∀ j ∈ l, j.split = true) (hnew : r.split = false)
    (hcore : r.core = c) : x.remotePump c = if x.dev.insDue r then x.splitIns r else x := by
  have hmine : x.dev.fab.ins.filter (fun i => vitOfCore i.core == vitOfCore c && !i.split) = [r] := by
    rw [hins, List.filter_append, List.filter_eq_nil_iff.2 (fun j hj => by simp [hsplit j hj])]
    simp [hcore, hnew]
  simp only [X.remotePump, hmine, List.foldl_cons, List.foldl_nil]
  cases x.dev.insDue r <;> rfl

/-! #### A remote instruction is taken -/

/-- An instruction that waits for nothing is due. -/
theorem Dev.insDue_of_free (d : Dev) (r : RIns) (hwaits : r.waits = []) (htiles : r.tiles = []) : d.insDue r = true := by
  simp only [Dev.insDue, hwaits, htiles, List.all_nil, Bool.and_self]

/-- An instruction that waits for an access with lanes to go is not due. -/
theorem Dev.insDue_of_waits (d : Dev) (r : RIns) (o : OutOp) (ho : o ∈ (d.core r.core).ops) (haccs : o.accs ≠ []) (hwaits : o.id ∈ r.waits) : d.insDue r = false := by
  have hbusy : (d.core r.core).ops.any (fun e => e.id == o.id && !e.accs.isEmpty) = true :=
    List.any_eq_true.2 ⟨o, ho, by simp [haccs]⟩
  have hall : r.waits.all (fun w => !(d.core r.core).ops.any (fun e => e.id == w && !e.accs.isEmpty)) = false :=
    List.all_eq_false.2 ⟨o.id, hwaits, by simp [hbusy]⟩
  simp only [Dev.insDue, hall, Bool.false_and]

theorem Only.groupOf {l : List Part} {d e : Dev} (h : Only l d e) (hcores : Part.cores ∉ l) (g : GRef) : e.groupOf g = d.groupOf g := by
  rw [Dev.groupOf, h.grp hcores, Dev.groupOf]

section Taking
variable {i : Instr} {s : State} {g : GRef} {b : Block} {q : Group} {p : RPath} {dsts : List Nat} {r : RIns}

/-- The view of a state whose group's remote instruction is recorded. -/
def State.insTaken (s : State) (g : GRef) (b : Block) (p : RPath) (dsts : List Nat) (r : RIns) : X :=
  { dev := (s.dev.issue g .m).insTaken g dsts (s.dev.insRecord g b p r), mem := s.mem, mram := s.mram }

theorem State.insTaken_only : Only [.cores, .fab] s.dev (s.insTaken g b p dsts r).dev :=
  ((s.dev.issue_only g .m).mono (by simp)).trans (Dev.insTaken_only _ _ _ _)

theorem State.insTaken_fab : (s.insTaken g b p dsts r).dev.fab =
    { s.dev.fab with ins := s.dev.fab.ins ++ [s.dev.insRecord g b p r], nextIns := s.dev.fab.nextIns + 1 } := Dev.insTaken_fab _ _ _ _

theorem State.insTaken_wentOn (h : s.dev.Issues g .m b q p) :
    WentOn { q with busyRegs := q.busyRegs ++ dsts.map (BitVec.ofNat 8) } ((s.insTaken g b p dsts r).dev.groupOf g) p := by
  obtain ⟨-, hgrp, hhead, -⟩ := h
  exact Dev.insTaken_wentOn _ g dsts _ ((Dev.grp_issue s.dev g .m g).trans hgrp) hhead

theorem State.insTaken_ops (c : CoreId) : ((s.insTaken g b p dsts r).dev.core c).ops = (s.dev.core c).ops := by
  refine (Dev.insTaken_core _ g dsts _ c).1.trans ?_
  rw [Dev.core_issue]

/-- Where no remote instruction waits, a new one with room is split when it is due (R246). -/
theorem remoteIns_pumped (hsplit : s.dev.AllSplit) (hroom : s.dev.insRoom g b) (hnew : r.split = false) :
    X.remoteIns { dev := s.dev.issue g .m, mem := s.mem, mram := s.mram } g b p dsts r =
      if (s.insTaken g b p dsts r).dev.insDue (s.dev.insRecord g b p r) then (s.insTaken g b p dsts r).splitIns (s.dev.insRecord g b p r)
      else s.insTaken g b p dsts r := by
  rw [X.remoteIns_taken _ g b p dsts r hroom, Dev.insRecord_issue]
  exact (s.insTaken g b p dsts r).remotePump_last g.core s.dev.fab.ins _ (congrArg Fab.ins State.insTaken_fab) hsplit hnew rfl

/-- A command that changes the machine alone once its group has used its issue slot completes with that machine. -/
theorem completes_issued {P : State → Prop} {f : X → X} {d e : Dev} (hexec : exec i s = run { s with dev := d } f)
    (hf : f { dev := d, mem := s.mem, mram := s.mram } = { dev := e, mem := s.mem, mram := s.mram }) (hp : P { s with dev := e }) : Completes i s P :=
  ⟨_, hexec, by simp only [hf]; exact hp⟩

/-- A remote instruction that waits for nothing is split at once (R246). -/
theorem completes_split (hexec : exec i s = run { s with dev := s.dev.issue g .m } (fun x => x.remoteIns g b p dsts r)) (h : s.dev.Issues g .m b q p)
    (hsplit : s.dev.AllSplit) (hroom : s.dev.insRoom g b) (hnew : r.split = false) (hfree : (s.dev.insRecord g b p r).waits = [] ∧ (s.dev.insRecord g b p r).tiles = [])
    (hlocal : r.type = .put → r.space ≠ 1) :
    Completes i s (fun t => Keeps [.cores, .fab, .cnt] s t ∧ WentOn { q with busyRegs := q.busyRegs ++ dsts.map (BitVec.ofNat 8) } (t.dev.groupOf g) p ∧
      t.dev.fab.ins = s.dev.fab.ins ++ [{ s.dev.insRecord g b p r with split := true }]) := by
  obtain ⟨F, hF, heq⟩ := (s.insTaken g b p dsts r).splitIns_splits (s.dev.insRecord g b p r) hlocal
  have hdue := (s.insTaken g b p dsts r).dev.insDue_of_free _ hfree.1 hfree.2
  refine completes_issued hexec ((remoteIns_pumped hsplit hroom hnew).trans ((if_pos hdue).trans heq)) ⟨?_, ?_, ?_⟩
  · exact ((State.insTaken_only.mono (by simp)).trans ((hF.only _).mono (by simp))).keeps
  · exact ((hF.only _).groupOf (by simp) g).symm ▸ State.insTaken_wentOn h
  · refine (hF.ins _).trans ?_
    rw [State.insTaken_fab]
    exact markSplit_last _ _ hsplit

/-- A remote instruction that waits for one of its group's accesses only goes on record (R246). -/
theorem completes_waiting {o : OutOp} (hexec : exec i s = run { s with dev := s.dev.issue g .m } (fun x => x.remoteIns g b p dsts r)) (h : s.dev.Issues g .m b q p)
    (hsplit : s.dev.AllSplit) (hroom : s.dev.insRoom g b) (hnew : r.split = false) (ho : o ∈ (s.dev.core g.core).ops) (haccs : o.accs ≠ [])
    (hwaits : o.id ∈ (s.dev.insRecord g b p r).waits) :
    Completes i s (fun t => Keeps [.cores, .fab] s t ∧ WentOn { q with busyRegs := q.busyRegs ++ dsts.map (BitVec.ofNat 8) } (t.dev.groupOf g) p ∧
      t.dev.fab = { s.dev.fab with ins := s.dev.fab.ins ++ [s.dev.insRecord g b p r], nextIns := s.dev.fab.nextIns + 1 }) := by
  have hdue : (s.insTaken g b p dsts r).dev.insDue (s.dev.insRecord g b p r) = false :=
    Dev.insDue_of_waits _ _ o (State.insTaken_ops g.core ▸ ho) haccs hwaits
  exact completes_issued hexec ((remoteIns_pumped hsplit hroom hnew).trans (if_neg (by simp [hdue])))
    ⟨State.insTaken_only.keeps, State.insTaken_wentOn h, State.insTaken_fab⟩

end Taking

/-! #### The instructions -/

/-- The record that an instruction asks for: its type, its target and its address there, in the running path's name. -/
def insAsked (g : GRef) (p : RPath) (type : RType) (dest : DevId) (ra : Nat) : RIns :=
  { id := 0, core := g.core, owner := { slot := 0, grp := 0, launchIx := 0, block := 0, seq := 0 }, pc := p.pc, lanes := p.mask, type, dest, raddr := ra }

/-- The record that an RPUT or RGET asks for: also its local range. -/
def copyAsked (g : GRef) (p : RPath) (type : RType) (dest : DevId) (ra : Nat) (sp : Space) (la len : Nat) : RIns :=
  { insAsked g p type dest ra with space := spaceCode sp, laddr := la, len := len }

/-- A local range of a copy lies in the window or within the block's storage of its space (R246). -/
def Dev.copyFits (d : Dev) (g : GRef) (b : Block) (sp : Space) (la len : Nat) : Prop :=
  (sp = .global → d.valid b.leader la len = true) ∧ (sp = .scratch → la + len ≤ b.launch.s) ∧ (sp = .cluster → la + len ≤ b.launch.c) ∧
    (sp = .step → la + len ≤ ((d.clu (clusOfCore g.core)).stepBytes).getD 0)

section Instructions
variable {s : State} {g : GRef} {b : Block} {q : Group} {p : RPath} {rdev rra : Byte}

/-- An RPUT or RGET whose length, addresses and range are right is a remote instruction (R246). -/
theorem execCopyOp_taken {sp : Space} {rla rlen : Byte} {len ra la : Nat} (type : RType) (h : s.dev.Issues g .m b q p)
    (hready : Ready b q ([rdev.toNat, rra.toNat, rra.toNat + 1, rlen.toNat] ++ addrRegs sp rla.toNat))
    (hra : ra = q.addr rra.toNat (lowLane p.mask)) (hlen : len = (q.reg rlen.toNat (lowLane p.mask)).toNat) (hla : la = laneAddr q sp rla.toNat 0 (lowLane p.mask))
    (hmin : 64 ≤ len) (hmax : len ≤ 65536) (hlenA : len % 64 = 0) (hraA : ra % 64 = 0) (hlaA : la % 64 = 0) (hfits : s.dev.copyFits g b sp la len) :
    execCopyOp g type rdev rra sp rla rlen s = run { s with dev := s.dev.issue g .m } (fun x => x.remoteIns g b p []
      (copyAsked g p type (BitVec.ofNat 16 (q.reg rdev.toNat (lowLane p.mask)).toNat) ra sp la len)) := by
  subst hra hlen hla
  have hgroup := ((Dev.grp_iff _ _ _ _).1 h.2.1).2
  have hsize : ¬(decide ((q.reg rlen.toNat (lowLane p.mask)).toNat < 64) || decide (65536 < (q.reg rlen.toNat (lowLane p.mask)).toNat)) = true := by
    simp only [Bool.or_eq_true, decide_eq_true_eq]
    omega
  obtain ⟨hglobal, hscratch, hcluster, hstep⟩ : (s.dev.issue g .m).copyFits g b sp (laneAddr q sp rla.toNat 0 (lowLane p.mask)) _ := hfits
  rw [execCopyOp, onGroup_issues s g .m _ b q p h]
  refine run_congr _ _ _ ?_
  rw [X.withRegs_ready _ g b q p _ _ hgroup hready]
  simp only [if_neg hsize, hlenA, hraA, hlaA, bne_self_eq_false, Bool.or_self, Bool.false_eq_true, if_false]
  cases sp with
  | global => simp only [if_pos (hglobal rfl)]; rfl
  | scratch => simp only [if_pos (hscratch rfl)]; rfl
  | cluster => simp only [if_pos (hcluster rfl)]; rfl
  | step => simp only [if_pos (hstep rfl)]; rfl

/-- An RATOM at an address that its size divides is a remote instruction (R246, R56). -/
theorem execRatom_taken {op : AtomOp} {wide : Bool} {n ra : Nat} {dst rval rcmp : Byte} (h : s.dev.Issues g .m b q p) (hwide : (wide && !atomWide op) = false)
    (hn : n = (if wide then 8 else 4))
    (hready : Ready b q ([rdev.toNat, rra.toNat, rra.toNat + 1] ++ lsuRegs dst.toNat n ++ lsuRegs rval.toNat n ++ (if op == .cas then lsuRegs rcmp.toNat n else [])))
    (hra : ra = q.addr rra.toNat (lowLane p.mask)) (hraA : ra % n = 0) :
    execRatom g op wide dst rdev rra rval rcmp s = run { s with dev := s.dev.issue g .m } (fun x => x.remoteIns g b p (lsuRegs dst.toNat n)
      { insAsked g p .atomic (BitVec.ofNat 16 (q.reg rdev.toNat (lowLane p.mask)).toNat) ra with
        aop := op, wide := wide, dst := dst, val := q.regNat rval.toNat (lowLane p.mask) n, cmp := q.regNat rcmp.toNat (lowLane p.mask) n }) := by
  subst hra hn
  have hgroup := ((Dev.grp_iff _ _ _ _).1 h.2.1).2
  rw [execRatom, onGroup_issues s g .m _ b q p h]
  refine run_congr _ _ _ ?_
  simp only [hwide, Bool.false_eq_true, if_false]
  rw [X.withRegs_ready _ g b q p _ _ hgroup hready]
  simp only [hraA, bne_self_eq_false, Bool.false_eq_true, if_false]
  rfl

/-- An RRED at a word's address is a remote instruction (R246, R177). -/
theorem execRred_taken {op : RedOp} {ra : Nat} {rval : Byte} (h : s.dev.Issues g .m b q p)
    (hready : Ready b q [rdev.toNat, rra.toNat, rra.toNat + 1, rval.toNat]) (hra : ra = q.addr rra.toNat (lowLane p.mask)) (hraA : ra % 4 = 0) :
    execRred g op rdev rra rval s = run { s with dev := s.dev.issue g .m } (fun x => x.remoteIns g b p []
      { insAsked g p .reduce (BitVec.ofNat 16 (q.reg rdev.toNat (lowLane p.mask)).toNat) ra with
        aop := redElem op, val := (q.reg rval.toNat (lowLane p.mask)).toNat }) := by
  subst hra
  have hgroup := ((Dev.grp_iff _ _ _ _).1 h.2.1).2
  rw [execRred, onGroup_issues s g .m _ b q p h]
  refine run_congr _ _ _ ?_
  rw [X.withRegs_ready _ g b q p _ _ hgroup hready]
  simp only [hraA, bne_self_eq_false, Bool.false_eq_true, if_false]
  rfl

end Instructions

/-! #### The obligation -/

/-- A group that awaits no destination register has only gone on. -/
theorem wentOn_of_no_dsts {q h : Group} {p : RPath} (hw : WentOn { q with busyRegs := q.busyRegs ++ ([] : List Nat).map (BitVec.ofNat 8) } h p) : WentOn q h p := by
  rw [List.map_nil, List.append_nil] at hw
  exact hw

theorem spaceCode_ne_global {sp : Space} (h : sp ≠ .global) : spaceCode sp ≠ 1 := by
  cases sp with
  | global => exact absurd rfl h
  | scratch | cluster | step => decide

/-- Settles O46: each remote instruction is recorded and its group goes on; the record is split at once unless it waits for its group's writes. -/
theorem remoteInstructionsAreTaken : Obligations.RemoteInstructionsAreTaken := by
  unfold Obligations.RemoteInstructionsAreTaken
  intro s g b q p own rdev rra ra dest h hsplit hown hra hdest hroom
  subst hown hdest
  refine ⟨?_, ?_, ?_⟩
  · intro sp rla rlen len la hready hlen hla hmin hmax hlenA hraA hlaA hglobal hscratch hcluster hstep
    have hexec := fun type => execCopyOp_taken type h hready hra hlen hla hmin hmax hlenA hraA hlaA ⟨hglobal, hscratch, hcluster, hstep⟩
    refine ⟨?_, ?_, ?_⟩
    · intro hops htiles
      obtain ⟨t, ht, hkeeps, hwent, hins⟩ := completes_split (i := .rget g rdev rra sp rla rlen) (hexec .get) h hsplit hroom rfl
        (s.dev.insRecord_free_of_idle g b p _ hops htiles) nofun
      exact ⟨t, ht, hkeeps, wentOn_of_no_dsts hwent, _, hins, rfl, rfl, rfl, rfl, rfl, rfl, rfl, rfl, rfl, rfl, rfl⟩
    · intro hops htiles hlocal
      obtain ⟨t, ht, hkeeps, hwent, hins⟩ := completes_split (i := .rput g rdev rra sp rla rlen) (hexec .put) h hsplit hroom rfl
        (s.dev.insRecord_free_of_idle g b p _ hops htiles) (fun _ => spaceCode_ne_global hlocal)
      exact ⟨t, ht, hkeeps, wentOn_of_no_dsts hwent, _, hins, rfl, rfl, rfl, rfl, rfl, rfl, rfl, rfl, rfl⟩
    · intro o ho hgroup hwrites haccs
      have hwaits := s.dev.insRecord_waits g b p (copyAsked g p .put (BitVec.ofNat 16 (q.reg rdev.toNat (lowLane p.mask)).toNat) ra sp la len)
        rfl ho hgroup hwrites haccs
      obtain ⟨t, ht, hkeeps, hwent, hfab⟩ := completes_waiting (i := .rput g rdev rra sp rla rlen) (hexec .put) h hsplit hroom rfl ho haccs hwaits
      exact ⟨t, ht, hkeeps, wentOn_of_no_dsts hwent, _, hfab, rfl, rfl, rfl, rfl, rfl, rfl, hwaits, rfl⟩
  · intro op wide n dst rval rcmp hwide hn hready hraA
    obtain ⟨t, ht, hkeeps, hwent, hins⟩ := completes_split (i := .ratom g op wide dst rdev rra rval rcmp) (execRatom_taken h hwide hn hready hra hraA) h hsplit hroom rfl
      (s.dev.insRecord_free_of_atom g b p _ rfl) nofun
    exact ⟨t, ht, hkeeps, hwent, _, hins, rfl, rfl, rfl, rfl, rfl, rfl, rfl, rfl, rfl, rfl⟩
  · intro op rval hready hraA
    obtain ⟨t, ht, hkeeps, hwent, hins⟩ := completes_split (i := .rred g op rdev rra rval) (execRred_taken h hready hra hraA) h hsplit hroom rfl
      (s.dev.insRecord_free_of_atom g b p _ rfl) nofun
    exact ⟨t, ht, hkeeps, wentOn_of_no_dsts hwent, _, hins, rfl, rfl, rfl, rfl, rfl, rfl, rfl⟩

end Sys2Proof.Machine

namespace Sys2Proof.Machine

/-! ### Tenancies and rings (O54) -/

/-! #### What an access of device memory and a completion count

A cacheless access counts in the TABLEs of HBM and of the Gallery (0x8014, 0x8015); an event entry that finds its ring full counts in row 7 of 0x801A (R270). -/

/-- The counters but those of accesses and event entries, by key. -/
def Dev.otherCnt (d : Dev) (k : Nat) : Nat := if k / 2 ^ 24 = 0x8014 ∨ k / 2 ^ 24 = 0x8015 ∨ k / 2 ^ 16 = 0x801A07 then 0 else kget 0 d.cnt k
/-- These counters of a view's machine. -/
def X.otherCnt (x : X) : Nat → Nat := x.dev.otherCnt

section OtherCnt
variable (d : Dev) (x : X) (line : Nat)

theorem Dev.otherCnt_of_cnt {d e : Dev} (h : e.cnt = d.cnt) : e.otherCnt = d.otherCnt := by
  funext k
  simp only [Dev.otherCnt, h]

theorem Dev.counter_of_otherCnt {d e : Dev} {i n r : Nat} (h : e.otherCnt = d.otherCnt) (hi : i ≠ 0x8014 ∧ i ≠ 0x8015 ∧ (i = 0x801A → n ≠ 7)) (hn : n < 256) (hr : r < 65536) :
    e.counter i n r = d.counter i n r := by
  obtain ⟨hhbm, hgal, hdrop⟩ := hi
  have hother : ¬(ckey i n r / 2 ^ 24 = 0x8014 ∨ ckey i n r / 2 ^ 24 = 0x8015 ∨ ckey i n r / 2 ^ 16 = 0x801A07) := by
    unfold ckey; omega
  have hk := congrFun h (ckey i n r)
  rw [Dev.otherCnt, Dev.otherCnt, if_neg hother, if_neg hother] at hk
  exact hk

/-- A count in one of those rows leaves the other counters. -/
theorem Dev.otherCnt_count (i n m : Nat) (v : VitId) (hi : i = 0x8014 ∨ i = 0x8015 ∨ i = 0x801A ∧ n = 7) (hn : n < 256) : (d.count i n v.toNat m).otherCnt = d.otherCnt := by
  have hv := v.isLt
  have hkey : ckey i n v.toNat / 2 ^ 24 = 0x8014 ∨ ckey i n v.toNat / 2 ^ 24 = 0x8015 ∨ ckey i n v.toNat / 2 ^ 16 = 0x801A07 := by unfold ckey; omega
  funext k
  by_cases hk : k = ckey i n v.toNat
  · subst hk
    rw [Dev.otherCnt, Dev.otherCnt, if_pos hkey, if_pos hkey]
  · simp only [Dev.otherCnt, Dev.count, kget_kupd_ne _ _ _ _ _ hk]
@[simp] theorem Dev.otherCnt_count_hbm (n m : Nat) (v : VitId) (hn : n < 256) : (d.count 0x8014 n v.toNat m).otherCnt = d.otherCnt :=
  d.otherCnt_count _ n m v (.inl rfl) hn
@[simp] theorem Dev.otherCnt_count_gal (n m : Nat) (v : VitId) (hn : n < 256) : (d.count 0x8015 n v.toNat m).otherCnt = d.otherCnt :=
  d.otherCnt_count _ n m v (.inr (.inl rfl)) hn

@[simp] theorem Dev.otherCnt_setSlice (g : Nat) (f : Slice → Slice) : (d.setSlice g f).otherCnt = d.otherCnt := rfl
@[simp] theorem Dev.otherCnt_setVit (v : VitId) (f : Vit → Vit) : (d.setVit v f).otherCnt = d.otherCnt := rfl
@[simp] theorem Dev.otherCnt_setL1 (c : CoreId) (l : L1Line) : (d.setL1 c line l).otherCnt = d.otherCnt := rfl
@[simp] theorem Dev.otherCnt_delL1 (c : CoreId) : (d.delL1 c line).otherCnt = d.otherCnt := rfl
@[simp] theorem Dev.otherCnt_setHpc (c p : Nat) (f : HPc → HPc) : (d.setHpc c p f).otherCnt = d.otherCnt := rfl
@[simp] theorem Dev.otherCnt_setGline (g : GLine) : (d.setGline line g).otherCnt = d.otherCnt := rfl
@[simp] theorem Dev.otherCnt_delGline : (d.delGline line).otherCnt = d.otherCnt := rfl
@[simp] theorem Dev.otherCnt_send (m : Msg) : (d.send m).otherCnt = d.otherCnt := rfl
@[simp] theorem Dev.otherCnt_turn (k k' : MsgKind) (c : CoreId) : (d.turn k k' line c).otherCnt = d.otherCnt := rfl
@[simp] theorem Dev.otherCnt_fencedRec : (d.fencedRec line).otherCnt = d.otherCnt := Dev.otherCnt_of_cnt (Dev.logErr_cnt _ _)

@[simp] theorem Dev.otherCnt_updGline (f : GLine → GLine) : (d.updGline line f).otherCnt = d.otherCnt := by
  unfold Dev.updGline; split <;> rfl
@[simp] theorem Dev.otherCnt_mergeAll (new : Line) (mask : BitVec 128) (bad : BitVec 2) : (d.mergeAll line new mask bad).otherCnt = d.otherCnt :=
  Dev.otherCnt_updGline _ line _
@[simp] theorem Dev.otherCnt_recent : (d.recent line).otherCnt = d.otherCnt := d.otherCnt_updGline line _
@[simp] theorem Dev.otherCnt_finishOps : (d.finishOps line).otherCnt = d.otherCnt := by
  unfold Dev.finishOps
  split
  · split <;> rfl
  · rfl
@[simp] theorem Dev.otherCnt_dropL1 (c : CoreId) : (d.dropL1 c line).otherCnt = d.otherCnt := by
  unfold Dev.dropL1
  split
  · split <;> rfl
  · rfl
@[simp] theorem Dev.otherCnt_recallNow (g : GLine) (c : CoreId) (w : Bool) : (d.recallNow line g c w).otherCnt = d.otherCnt := by
  simp only [Dev.recallNow]
  split
  · rfl
  · rfl
  · rfl
  · rfl
  · rfl
  · rw [Dev.otherCnt_setGline]
    split
    · rfl
    · split <;> rfl
@[simp] theorem Dev.otherCnt_invNow (g : GLine) : (d.invNow line g).otherCnt = d.otherCnt := by
  have hdrop : ∀ v : VitId, (g.sh.list.foldl (fun (e : Dev) c => ((e.dropL1 c line).turn .dataS .dataU line c).count 0x8015 0xC v.toNat) d).otherCnt = d.otherCnt :=
    fun v => foldl_keeps Dev.otherCnt _ (fun e c => by simp) _ d
  unfold Dev.invNow
  dsimp only
  split
  · simp [hdrop]
  · simp [hdrop]
@[simp] theorem Dev.otherCnt_hostGives (g : GLine) : (d.hostGives g).1.otherCnt = d.otherCnt := by
  simp only [Dev.hostGives, Dev.draw]
  split <;> rfl
@[simp] theorem Dev.otherCnt_activate (ch a : Nat) : (d.activate ch a).otherCnt = d.otherCnt := by
  simp only [Dev.activate]
  split
  · rfl
  · simp
@[simp] theorem Dev.otherCnt_bursts (rd wr rmw : Nat) : (d.bursts line rd wr rmw).otherCnt = d.otherCnt := by
  simp only [Dev.bursts, Dev.openRow, apply_ite Dev.otherCnt, Dev.otherCnt_count_hbm, Nat.reduceLT, ite_self, Dev.otherCnt_activate]
@[simp] theorem Dev.otherCnt_dropRet (hs : List Nat) : (d.dropRet line hs).otherCnt = d.otherCnt := by
  simp only [Dev.dropRet]
  split <;> rfl
@[simp] theorem Dev.otherCnt_lookup : (d.lookup line).otherCnt = d.otherCnt := by
  simp only [Dev.lookup]
  split
  · split <;> simp
  · simp
@[simp] theorem Dev.otherCnt_pieceStream (p : Option MPort) : (d.pieceStream line p).1.otherCnt = d.otherCnt := by
  simp only [Dev.pieceStream]
  split
  · rfl
  · split <;> rfl

theorem X.otherCnt_on {f : Dev → Dev} (h : (f x.dev).otherCnt = x.dev.otherCnt) : (x.on f).otherCnt = x.otherCnt := h
@[simp] theorem X.otherCnt_op (o : MemOp) : (x.op o).otherCnt = x.otherCnt := rfl
@[simp] theorem X.otherCnt_putBytes (sp : MemSp) (a : Nat) (l : List Byte) : (x.putBytes sp a l).otherCnt = x.otherCnt := by
  unfold X.putBytes
  exact foldl_keeps X.otherCnt _ (fun y e => y.otherCnt_op _) _ x
@[simp] theorem X.otherCnt_wbLine (data : Line) (p : BitVec 2) : (x.wbLine line data p).otherCnt = x.otherCnt := by
  unfold X.wbLine
  rw [X.otherCnt_op, X.otherCnt_op, X.otherCnt_putBytes]
  exact x.otherCnt_on (by rw [Dev.otherCnt_dropRet, Dev.otherCnt_bursts])
@[simp] theorem X.otherCnt_wbMasked (data : Line) (m : BitVec 128) (bad : BitVec 2) : (x.wbMasked line data m bad).otherCnt = x.otherCnt := by
  unfold X.wbMasked
  dsimp only
  rw [X.otherCnt_op, X.otherCnt_op, X.otherCnt_putBytes]
  exact x.otherCnt_on (by rw [Dev.otherCnt_dropRet, Dev.otherCnt_bursts])
@[simp] theorem X.otherCnt_rdLine : (x.rdLine line).1.otherCnt = x.otherCnt := x.otherCnt_on (x.dev.otherCnt_bursts line 2 0 0)
@[simp] theorem X.otherCnt_finishPad : (x.finishPad line).otherCnt = x.otherCnt := by
  simp only [X.finishPad]
  split
  · rw [X.otherCnt_putBytes]; rfl
  · rfl
@[simp] theorem X.otherCnt_finishPads (a n : Nat) : (x.finishPads a n).otherCnt = x.otherCnt := by
  unfold X.finishPads
  split
  · rfl
  · exact foldl_keeps X.otherCnt _ (fun y i => y.otherCnt_finishPad _) _ x
@[simp] theorem X.otherCnt_settle (w : Bool) : (x.settle line w).otherCnt = x.otherCnt := by
  have hops : (x.on (fun d => d.finishOps line)).otherCnt = x.otherCnt := x.otherCnt_on (Dev.otherCnt_finishOps _ _)
  generalize hy : x.on (fun d => d.finishOps line) = y at hops
  simp only [X.settle, hy]
  rw [← hops]
  split
  · rfl
  · split
    · split
      · exact y.otherCnt_on (Dev.otherCnt_recallNow _ _ _ _ _)
      · rfl
    · split
      · exact y.otherCnt_on (Dev.otherCnt_invNow _ _ _)
      · rfl
    · split
      · exact y.otherCnt_on (by simp)
      · exact y.otherCnt_on (by simp)
    · split
      · rfl
      · exact y.otherCnt_on (by simp)
    · rfl
@[simp] theorem X.otherCnt_writeNow (new : Line) (mask : BitVec 128) (bad : BitVec 2) : (x.writeNow line new mask bad).otherCnt = x.otherCnt := by
  have hsettle := x.otherCnt_settle line true
  simp only [X.writeNow]
  split
  · split
    · rw [X.otherCnt_wbMasked, hsettle]
    · exact (X.otherCnt_on _ (Dev.otherCnt_mergeAll _ _ _ _ _)).trans hsettle
  · exact hsettle
@[simp] theorem X.otherCnt_freeLine (g : GLine) (wb : Bool) : (x.freeLine line g wb).otherCnt = x.otherCnt := by
  have hwritten : (if (g.dirty && wb) = true then x.wbLine line g.data g.poison else x).otherCnt = x.otherCnt := by
    split
    · exact X.otherCnt_wbLine _ _ _ _
    · rfl
  rw [← hwritten]
  simp only [X.freeLine]
  split <;> rfl
@[simp] theorem X.otherCnt_dropLine (wb : Bool) : (x.dropLine line wb).otherCnt = x.otherCnt := by
  have hsettle := x.otherCnt_settle line true
  simp only [X.dropLine]
  split
  · exact hsettle
  · rw [← hsettle]
    split
    · split
      · exact X.otherCnt_freeLine _ _ _ _
      · rfl
    · rfl
    · rfl
@[simp] theorem X.otherCnt_allocNow (low : Bool) : (x.allocNow line low).1.otherCnt = x.otherCnt := by
  have fill : ∀ (y : X) (g : GLine), (y.on (fun d => d.setGline line g)).otherCnt = y.otherCnt := fun _ _ => rfl
  have wait : ∀ (y : X) (g : GLine) (m : Msg), (y.on (fun d => (d.setGline line g).send m)).otherCnt = y.otherCnt := fun _ _ _ => rfl
  simp only [X.allocNow]
  split
  · exact (fill _ _).trans (x.otherCnt_rdLine line)
  · split
    · rfl
    · rename_i k vg _
      split
      · exact (fill _ _).trans ((X.otherCnt_rdLine _ line).trans (x.otherCnt_dropLine k true))
      · exact (wait _ _ _).trans (x.otherCnt_dropLine k true)
@[simp] theorem X.otherCnt_readWay (past : Bool) : (x.readWay line past).1.otherCnt = x.otherCnt := by
  have recent : ∀ y : X, (y.on (fun d => d.recent line)).otherCnt = y.otherCnt := fun y => y.otherCnt_on (Dev.otherCnt_recent _ _)
  simp only [X.readWay]
  split
  · exact (recent _).trans (x.otherCnt_settle line false)
  · split
    · exact x.otherCnt_on (Dev.otherCnt_count_gal _ _ _ _ (by omega))
    · exact x.otherCnt_allocNow line false
@[simp] theorem X.otherCnt_readEnd (ok : Bool) : (x.readEnd line ok).1.otherCnt = x.otherCnt := by
  have hmiss : (if ok = true then x else x.on (fun d => d.count 0x8015 6 (vitOfAddr (line * 128)).toNat)).otherCnt = x.otherCnt := by
    split
    · rfl
    · exact x.otherCnt_on (by simp)
  simp only [X.readEnd]
  split
  · exact hmiss
  · exact (X.otherCnt_rdLine _ line).trans hmiss
@[simp] theorem X.otherCnt_readLine (port : Option MPort) : (x.readLine line port).1.otherCnt = x.otherCnt := by
  simp only [X.readLine]
  split
  · exact x.otherCnt_on (f := fun d => d.fencedRec line) (Dev.otherCnt_fencedRec _ _)
  · rw [X.otherCnt_readEnd, X.otherCnt_readWay, X.otherCnt, Dev.otherCnt_lookup, Dev.otherCnt_pieceStream]; rfl
@[simp] theorem X.otherCnt_writeWay (bypass past low : Bool) : (x.writeWay line bypass past low).1.otherCnt = x.otherCnt := by
  simp only [X.writeWay]
  split
  · exact x.otherCnt_on (Dev.otherCnt_recent _ _)
  · split
    · rfl
    · exact x.otherCnt_allocNow line low
@[simp] theorem X.otherCnt_writeLine (data : Line) (mask : BitVec 128) (hint : Nat) (bad : BitVec 2) (port : Option MPort) :
    (x.writeLine line data mask hint bad port).otherCnt = x.otherCnt := by
  have hstream : (if (hint == 1 || hint == 2) = true then (x.dev, false) else x.dev.pieceStream line port).1.otherCnt = x.otherCnt := by
    split
    · rfl
    · exact Dev.otherCnt_pieceStream _ _ _
  have miss : ∀ y : X, (y.on (fun d => d.count 0x8015 6 (vitOfAddr (line * 128)).toNat)).otherCnt = y.otherCnt := fun y => y.otherCnt_on (by simp)
  have hway : ∀ (e : Dev) (bypass past low : Bool), e.otherCnt = x.otherCnt → (({ x with dev := e } : X).writeWay line bypass past low).1.otherCnt = x.otherCnt :=
    fun e bypass past low h => (X.otherCnt_writeWay _ line bypass past low).trans h
  simp only [X.writeLine]
  split
  · exact x.otherCnt_on (f := fun d => d.fencedRec line) (Dev.otherCnt_fencedRec _ _)
  · generalize (if (hint == 1 || hint == 2) = true then (x.dev, false) else x.dev.pieceStream line port) = p at hstream ⊢
    have hw := hway _ (hint == 3 || p.2 && hint == 0 && mask == BitVec.allOnes 128) (p.2 && hint == 0 && mask == BitVec.allOnes 128) (hint == 2)
      ((Dev.otherCnt_lookup p.1 line).trans hstream)
    generalize ({ x with dev := p.1.lookup line } : X).writeWay line _ _ _ = w at hw ⊢
    split
    · exact (X.otherCnt_writeNow _ _ _ _ _).trans hw
    · refine (X.otherCnt_wbMasked _ _ _ _ _).trans (Eq.trans ?_ hw)
      split
      · rfl
      · exact miss _

/-- Reading bytes of device memory counts in those rows alone. -/
theorem X.otherCnt_readBytes (a n : Nat) (port : Option MPort) : (x.readBytes a n port).1.otherCnt = x.otherCnt := by
  simp only [X.readBytes]
  split
  · split
    · exact x.otherCnt_on (f := fun d => d.fencedRec (a / 128)) (Dev.otherCnt_fencedRec _ _)
    · exact x.otherCnt_finishPads a n
  · exact foldl_keeps (fun acc : X × List Byte × Bool => acc.1.otherCnt) _ (fun acc p => acc.1.otherCnt_readLine p.1 port) _ (x, [], false)

/-- Writing bytes of device memory counts in those rows alone. -/
theorem X.otherCnt_writeBytes (a : Nat) (l : List Byte) (hint : Nat) (bad : Nat → Bool) (port : Option MPort) : (x.writeBytes a l hint bad port).otherCnt = x.otherCnt := by
  simp only [X.writeBytes]
  split
  · split
    · exact x.otherCnt_on (f := fun d => d.fencedRec (a / 128)) (Dev.otherCnt_fencedRec _ _)
    · refine (foldl_keeps X.otherCnt _ (fun y i => ?_) _ _).trans ((X.otherCnt_putBytes _ _ _ _).trans (x.otherCnt_finishPads _ _))
      split
      · rfl
      · split <;> rfl
  · exact foldl_keeps X.otherCnt _ (fun y p => y.otherCnt_writeLine _ _ _ _ _ _) _ x
  · rfl

end OtherCnt
end Sys2Proof.Machine

namespace Sys2Proof.Machine

/-! #### Completions and event entries in rings (R269, R270) -/

theorem ringKey_inj {v w : VitId} {r k : Nat} (hr : r < 2048) (hk : k < 2048) : ringKey w k = ringKey v r ↔ w = v ∧ k = r := by
  unfold ringKey
  refine ⟨fun h => ?_, fun h => by rw [h.1, h.2]⟩
  exact ⟨BitVec.eq_of_toNat_eq (by omega), by omega⟩

theorem Dev.ring_setRing_ne (d : Dev) {v w : VitId} {r k : Nat} (f : Ring → Ring) (h : ringKey w k ≠ ringKey v r) : (d.setRing v r f).ring w k = d.ring w k :=
  kget_kupd_ne _ _ _ _ _ h
theorem Dev.ring_of_key (d : Dev) {v w : VitId} {r k : Nat} (h : ringKey w k = ringKey v r) : d.ring w k = d.ring v r := by rw [Dev.ring, Dev.ring, h]

@[simp] theorem Dev.otherCnt_setRing (d : Dev) (v : VitId) (r : Nat) (f : Ring → Ring) : (d.setRing v r f).otherCnt = d.otherCnt := rfl

/-- What lines move, they move under other serving state too. -/
theorem Moves.withSrv {d e : Dev} (h : Moves d e) (t : Srv) : Moves { d with srv := t } { e with srv := t } := by
  have hdev := h.dev
  exact ⟨by rw [hdev], h.vit, h.core, h.hbm, h.rel⟩

/-- Between two views only entries have been posted in rings: accesses of device memory, the rings' fetched descriptors and CQ_TAIL, interrupts, and the counters
of accesses and event entries. -/
structure Posts (x y : X) : Prop where
  moves : Moves { x.dev with srv := y.dev.srv } y.dev
  srv : y.dev.srv = { x.dev.srv with rings := y.dev.srv.rings, intr := y.dev.srv.intr }
  ring : ∀ v r, y.dev.ring v r = { x.dev.ring v r with fetched := (y.dev.ring v r).fetched, cqTail := (y.dev.ring v r).cqTail }
  cnt : y.otherCnt = x.otherCnt

namespace Posts
variable {x y z : X}

theorem refl (x : X) : Posts x x := ⟨Moves.refl _, rfl, fun _ _ => rfl, rfl⟩

theorem trans (h : Posts x y) (k : Posts y z) : Posts x z :=
  ⟨(h.moves.withSrv z.dev.srv).trans k.moves, by rw [k.srv, h.srv], fun v r => by rw [k.ring v r, h.ring v r], k.cnt.trans h.cnt⟩

theorem foldl {β : Type} (f : X → β → X) (h : ∀ x b, Posts x (f x b)) (l : List β) (x : X) : Posts x (l.foldl f x) := by
  induction l generalizing x with
  | nil => exact refl x
  | cons b l ih => exact (h x b).trans (ih _)

/-- A change of one ring's fetched descriptors and CQ_TAIL. -/
theorem setRing (x : X) (v : VitId) (r : Nat) (f : Ring → Ring) (hf : ∀ q, f q = { q with fetched := (f q).fetched, cqTail := (f q).cqTail }) :
    Posts x (x.on (fun d => d.setRing v r f)) := by
  refine ⟨Moves.refl _, rfl, fun w k => ?_, rfl⟩
  rw [X.on_dev]
  by_cases h : ringKey w k = ringKey v r
  · rw [Dev.ring_of_key _ h, Dev.ring_of_key _ h, Dev.ring_setRing]
    exact hf _
  · rw [Dev.ring_setRing_ne _ _ h]

theorem intr (x : X) (l : List (Nat × Nat)) : Posts x (x.on (fun d => d.onSrv (fun s => { s with intr := l }))) := ⟨Moves.refl _, rfl, fun _ _ => rfl, rfl⟩

/-- An access of device memory, but for its counts, leaves the serving state. -/
theorem of_access (h : Access x y) (hcnt : y.otherCnt = x.otherCnt) : Posts x y := by
  have hsrv : y.dev.srv = x.dev.srv := by rw [h.dev.dev]
  exact ⟨hsrv ▸ h.dev, by rw [hsrv], fun v r => by rw [Dev.ring, Dev.ring, hsrv], hcnt⟩

theorem writeBytes (x : X) (a : Nat) (l : List Byte) (hint : Nat) (bad : Nat → Bool) (port : Option MPort) : Posts x (x.writeBytes a l hint bad port) :=
  of_access (Access.writeBytes x a l hint bad port) (x.otherCnt_writeBytes a l hint bad port)

theorem readBytes (x : X) (a n : Nat) (port : Option MPort) : Posts x (x.readBytes a n port).1 :=
  of_access (Access.readBytes x a n port) (x.otherCnt_readBytes a n port)

theorem readNat (x : X) (a n : Nat) : Posts x (x.readNat a n).1 := readBytes x a n none

/-- An event entry that finds no free place is counted. -/
theorem dropped (x : X) (v : VitId) : Posts x (x.on (fun d => d.count 0x801A 7 v.toNat)) :=
  ⟨(Moves.refl _).count _ _ _ _, rfl, fun _ _ => rfl, Dev.otherCnt_count _ _ _ _ _ (.inr (.inr ⟨rfl, rfl⟩)) (by decide)⟩

theorem postCq (x : X) (v : VitId) (r seq detail tag opcode status : Nat) (intr : Bool) : Posts x (x.postCq v r seq detail tag opcode status intr) := by
  have hentry := (writeBytes x ((x.dev.ring v r).cqBase + 16 * ((x.dev.ring v r).cqTail.toNat % (x.dev.ring v r).size))
    (leBytes (cqEntry seq detail tag opcode status (phaseOf (x.dev.ring v r).size (x.dev.ring v r).cqTail)) 16) 0 (fun _ => false) none).trans
    (setRing _ v r (fun q => { q with cqTail := q.cqTail + 1 }) (fun _ => rfl))
  rw [X.postCq]
  split
  · exact hentry.trans (Posts.intr _ _)
  · exact hentry

theorem flushRing (x : X) (v : VitId) (r : Nat) : Posts x (x.flushRing v r) := by
  refine foldl _ (fun y _ => ?_) _ _
  split
  · split
    · exact (setRing y v r _ (fun _ => rfl)).trans (postCq _ _ _ _ _ _ _ _ _)
    · exact refl y
  · exact refl y

theorem complete (x : X) (v : VitId) (r : Nat) (seq : Word) (status detail : Nat) : Posts x (x.complete v r seq status detail) :=
  (setRing x v r _ (fun _ => rfl)).trans (flushRing _ v r)

theorem ringEvent (x : X) (l : VitId) (status detail : Nat) : Posts x (x.ringEvent l status detail) := by
  refine foldl _ (fun y v => ?_) _ _
  dsimp only
  split
  · split
    · exact postCq y _ _ _ _ _ _ _ _
    · exact dropped y v
  · exact refl y

section Reads
variable (h : Posts x y)
include h

theorem vit (v : VitId) : y.dev.vit v = { x.dev.vit v with thrash := (y.dev.vit v).thrash, pinned := (y.dev.vit v).pinned } := h.moves.vit v
theorem core (c : CoreId) : y.dev.core c = { x.dev.core c with l1 := (y.dev.core c).l1 } := h.moves.core c
theorem cat : y.dev.cat = x.dev.cat := by rw [h.moves.dev]
theorem ref : y.dev.ref = x.dev.ref := by rw [h.moves.dev]
theorem clk : y.dev.clk = x.dev.clk := by rw [h.moves.dev]
theorem steps : y.dev.srv.steps = x.dev.srv.steps := by rw [h.srv]

theorem counter {i n r : Nat} (hi : i ≠ 0x8014 ∧ i ≠ 0x8015 ∧ (i = 0x801A → n ≠ 7)) (hn : n < 256) (hr : r < 65536) : y.dev.counter i n r = x.dev.counter i n r :=
  Dev.counter_of_otherCnt h.cnt hi hn hr

end Reads
end Posts

/-! ##### The entry at the head of a ring -/

section Head
variable (x : X) (v : VitId) (r : Nat)

/-- A CQ entry moves its ring's CQ_TAIL on, and changes nothing else of it. -/
theorem X.ring_postCq (seq detail tag opcode status : Nat) (intr : Bool) :
    (x.postCq v r seq detail tag opcode status intr).dev.ring v r = { x.dev.ring v r with cqTail := (x.dev.ring v r).cqTail + 1 } := by
  have hwrite : ∀ a l, (x.writeBytes a l).dev.ring v r = x.dev.ring v r := fun a l => by
    rw [Dev.ring, Dev.ring, (Access.writeBytes x a l 0 (fun _ => false) none).dev.dev]
  have hentry : ∀ a l, ((x.writeBytes a l).on (fun d => d.setRing v r (fun q => { q with cqTail := q.cqTail + 1 }))).dev.ring v r =
      { x.dev.ring v r with cqTail := (x.dev.ring v r).cqTail + 1 } := fun a l => by
    rw [X.on_dev, Dev.ring_setRing, hwrite]
  rw [X.postCq]
  split
  · exact hentry _ _
  · exact hentry _ _

variable {x v r}

/-- Behind an undecided descriptor nothing is posted. -/
theorem X.flushRing_undecided {f : Fetched} {rest : List Fetched} (h : (x.dev.ring v r).fetched = f :: rest) (hf : f.done = none) : x.flushRing v r = x := by
  have hstep : ∀ l : List Fetched, l.foldl (fun (y : X) _ => match (y.dev.ring v r).fetched with
      | f :: rest => match f.done with
        | some (st, det) => (y.on (fun d => d.setRing v r (fun q => { q with fetched := rest }))).postCq v r f.seq.toNat det (descTag f.raw) (descOp f.raw) st (descIntr f.raw)
        | none => y
      | [] => y) x = x := fun l => by
    induction l with
    | nil => rfl
    | cons _ l ih => simp only [List.foldl_cons, h, hf, ih]
  exact hstep _

/-- A decided descriptor that is its ring's only one leaves it with its CQ entry. -/
theorem X.ring_flushRing_decided {f : Fetched} {st det : Nat} (h : (x.dev.ring v r).fetched = [f]) (hf : f.done = some (st, det)) :
    (x.flushRing v r).dev.ring v r = { x.dev.ring v r with fetched := [], cqTail := (x.dev.ring v r).cqTail + 1 } := by
  simp only [X.flushRing, h, List.foldl_cons, List.foldl_nil, hf, X.ring_postCq, X.on_dev, Dev.ring_setRing]

/-- The first of a list that meets a test is changed where it stands. -/
theorem updFirst_append {α : Type} (p : α → Bool) (f : α → α) (a : List α) (m : α) (b : List α) (ha : ∀ g ∈ a, p g = false) (hm : p m = true) :
    updFirst p f (a ++ m :: b) = a ++ f m :: b := by
  induction a with
  | nil => simp [updFirst, hm]
  | cons g a ih => simp [updFirst, ha g (by simp), ih (fun k hk => ha k (by simp [hk]))]

/-- A completion decides its descriptor (R269): where another waits before it, it waits too; where it is the only one, its entry is posted. -/
theorem decided_of_complete {s t : State} {f : Fetched} {st det : Nat} (hf : f.done = none)
    (hring : (x.dev.ring v r).fetched = (s.dev.ring v r).fetched ∧ (x.dev.ring v r).cqTail = (s.dev.ring v r).cqTail)
    (ht : (t.dev.ring v r).fetched = ((x.complete v r f.seq st det).dev.ring v r).fetched ∧
      (t.dev.ring v r).cqTail = ((x.complete v r f.seq st det).dev.ring v r).cqTail) : Decided v r f st det s t := by
  obtain ⟨hfetched, htail⟩ := hring
  obtain ⟨htfetched, httail⟩ := ht
  rw [X.complete] at htfetched httail
  have hmatch : (f.seq == f.seq && f.done.isNone) = true := by simp [hf]
  refine ⟨fun e a b hlist he hne => ?_, fun hlist => ?_⟩
  · have hupd := updFirst_append (fun g : Fetched => g.seq == f.seq && g.done.isNone) (fun g => { g with done := some (st, det) }) (e :: a) f b
      (fun g hg => by simp [hne g hg]) hmatch
    rw [X.flushRing_undecided (f := e) (rest := a ++ { f with done := some (st, det) } :: b) (by
      rw [X.on_dev, Dev.ring_setRing, hfetched, hlist, hupd]; rfl) he, X.on_dev, Dev.ring_setRing] at htfetched httail
    refine ⟨?_, httail.trans htail⟩
    rw [htfetched, hfetched, hlist, hupd]
  · have hflush := X.ring_flushRing_decided (x := x.on (fun d => d.setRing v r (fun q =>
        { q with fetched := updFirst (fun g => g.seq == f.seq && g.done.isNone) (fun g => { g with done := some (st, det) }) q.fetched })))
      (v := v) (r := r) (f := { f with done := some (st, det) }) (by rw [X.on_dev, Dev.ring_setRing, hfetched, hlist]; simp [updFirst, hf]) rfl
    rw [htfetched, httail, hflush, X.on_dev, Dev.ring_setRing]
    exact ⟨rfl, by rw [htail]⟩

end Head
end Sys2Proof.Machine

namespace Sys2Proof.Machine

/-! #### TENANCY_ASSIGN (R260, R261) -/

theorem Only.setCmd {l : List Part} {d e : Dev} (v : VitId) (command status needed : Nat) (h : Only l d e) (h0 : Part.srv ∈ l) : Only l d (e.setCmd v command status needed) :=
  h.onSrv _ h0
theorem Only.setCrate {l : List Part} {d e : Dev} (v : VitId) (c : CrateSt) (h : Only l d e) (h0 : Part.srv ∈ l) : Only l d (e.setCrate v c) := h.onSrv _ h0
theorem Only.endCmd {l : List Part} {d e : Dev} (v : VitId) (command status needed : Nat) (h : Only l d e) (h0 : Part.srv ∈ l) (h1 : Part.cat ∈ l) :
    Only l d (e.endCmd v command status needed) := (h.setCmd v command status needed h0).postVit _ _ _ _ h1

@[simp] theorem Dev.vit_setCmd (d : Dev) (l v : VitId) (command status needed : Nat) : (d.setCmd l command status needed).vit v = d.vit v := rfl
@[simp] theorem Dev.vit_setCrate (d : Dev) (l v : VitId) (c : CrateSt) : (d.setCrate l c).vit v = d.vit v := rfl
@[simp] theorem Dev.vit_endCmd (d : Dev) (l v : VitId) (command status needed : Nat) : (d.endCmd l command status needed).vit v = d.vit v :=
  Only.vit (l := [.srv, .cat]) ((Only.refl _ d).endCmd l command status needed (by simp) (by simp)) (by simp) v

/-- The row of TENANCY_CMD_STATUS that is set stands. -/
theorem Dev.cmd_setCmd (d : Dev) (l : VitId) (command status needed : Nat) :
    kfind (d.setCmd l command status needed).srv.cmd l.toNat = some { command, status, needed } := kfind_kset _ _ _
theorem Dev.cmd_endCmd (d : Dev) (l : VitId) (command status needed : Nat) :
    kfind (d.endCmd l command status needed).srv.cmd l.toNat = some { command, status, needed } := by
  rw [Dev.endCmd, Dev.postVit_srv, Dev.cmd_setCmd]

theorem Dev.postVit_sameCount (d : Dev) (c : Nat) (v : VitId) (a b : Nat) : d.sameCount (d.postVit c v a b) := d.post_sameCount _ _ _ _ _ _
theorem Dev.vitState_sameCount (d : Dev) (v : VitId) (st : VitSt) : d.sameCount (d.vitState v st) :=
  Dev.sameCount.trans ⟨rfl, rfl⟩ (Dev.postVit_sameCount _ _ _ _ _)
theorem Dev.endCmd_sameCount (d : Dev) (l : VitId) (command status needed : Nat) : d.sameCount (d.endCmd l command status needed) :=
  Dev.sameCount.trans ⟨rfl, rfl⟩ (Dev.postVit_sameCount _ _ _ _ _)

/-- A pass over some Vitrines that changes something of each so that a second time would change nothing changes it for these, and for no other. -/
theorem Dev.foldl_each {α : Type} (get : Dev → VitId → α) (g : Dev → VitId → Dev) (f : α → α) (hf : ∀ t, f (f t) = f t) (hsame : ∀ e w, get (g e w) w = f (get e w))
    (hother : ∀ e w v, v ≠ w → get (g e w) v = get e v) (ws : List VitId) (d : Dev) (v : VitId) :
    get (ws.foldl g d) v = if v ∈ ws then f (get d v) else get d v := by
  induction ws generalizing d with
  | nil => rfl
  | cons w ws ih =>
    rw [List.foldl_cons, ih]
    by_cases hv : v = w
    · subst hv
      rw [hsame, hf, ite_self, if_pos List.mem_cons_self]
    · rw [hother _ _ _ hv]
      simp only [List.mem_cons, hv, false_or]

/-- A Vitrine joins the tenancy of a leader, to be cleared. -/
def Dev.joins (d : Dev) (l v : VitId) : Dev := (d.setVit v (fun t => { t with leader := some l })).vitState v .clearing

theorem Dev.joins_sameCount (d : Dev) (l v : VitId) : d.sameCount (d.joins l v) :=
  Dev.sameCount.trans (e := d.setVit v (fun t => { t with leader := some l })) ⟨rfl, rfl⟩ (Dev.vitState_sameCount _ v .clearing)

theorem Dev.vit_foldl_joins (d : Dev) (l : VitId) (vs : List VitId) (v : VitId) :
    (vs.foldl (fun e w => e.joins l w) d).vit v = if v ∈ vs then { d.vit v with st := .clearing, leader := some l } else d.vit v := by
  refine Dev.foldl_each Dev.vit (fun e w => e.joins l w) (fun t => { t with st := .clearing, leader := some l }) (fun _ => rfl) (fun e w => ?_) (fun e w v h => ?_) vs d v
  · rw [Dev.joins, Dev.vit_vitState, Dev.vit_setVit]
  · rw [Dev.joins, Dev.vit_vitState_ne _ _ _ _ h, Dev.vit_setVit_ne _ _ _ _ h]

theorem writtenRow_assign : WrittenRow 0x3200 1 none 4 := writtenRow_whole (by decide) (by decide) (by decide) (by decide +kernel)
theorem writtenRow_deaccession : WrittenRow 0x3200 2 none 2 := writtenRow_whole (by decide) (by decide) (by decide) (by decide +kernel)

section Assign
variable {s : State} {rq : CatReq} {q : Requester} {mask : Word} {l : VitId}

theorem tenancyAssign_exec : exec (.tenancyAssign rq mask) s = run s (fun x => x.writeOwn rq 0x3200 1 none 4 mask.toNat) := rfl

theorem special_assign (x : X) : x.special 0x3200 1 0 (rowMask 0x3200 1 mask.toNat) none = some (x.doAssign mask) :=
  (show _ = some (x.doAssign (BitVec.ofNat 32 mask.toNat)) from rfl).trans (by rw [ofNat_toNat_self])

theorem contains_sizes (n : Nat) : [1, 2, 4, 8, 16, 32].contains n = decide (n ∈ [1, 2, 4, 8, 16, 32]) := List.contains_eq_mem _ _

/-- The Vitrines of the mask form a tenancy under the lowest-numbered one and are being cleared. -/
theorem tenancyAssign_begins (h : s.dev.Writes rq q 0x3200 1) (hl : (vitsOf mask).head? = some l) (hready : s.dev.cat.ready = true)
    (hsize : (vitsOf mask).length ∈ [1, 2, 4, 8, 16, 32]) (hfree : ∀ v ∈ vitsOf mask, (s.dev.vit v).st = .unassigned) :
    Completes (.tenancyAssign rq mask) s (fun t => Keeps [.cat, .vits, .srv] s t ∧ Accepted rq 1 s t ∧ CmdRow l 1 1 t ∧
      ∀ v, t.dev.vit v = if v ∈ vitsOf mask then { s.dev.vit v with st := .clearing, leader := some l } else s.dev.vit v) := by
  have hany : (vitsOf mask).any (fun v => (s.dev.vit v).st != .unassigned) = false := by
    rw [List.any_eq_false]
    exact fun v hv => by simp [hfree v hv]
  have hhead : (vitsOf mask).headD 0 = l := by rw [List.headD_eq_head?_getD, hl, Option.getD_some]
  have honly : Only [.cat, .vits, .srv] s.dev ((vitsOf mask).foldl (fun e w => e.joins l w) s.dev) :=
    (Only.refl _ _).foldl _ _ (fun e v => ((Only.refl _ e).setVit _ _ (by simp)).vitState _ _ (by simp) (by simp))
  have hcount : s.dev.sameCount ((vitsOf mask).foldl (fun e w => e.joins l w) s.dev) :=
    Dev.sameCount.foldl (fun e w => e.joins l w) (fun e v => e.joins_sameCount l v) (vitsOf mask) s.dev
  obtain ⟨t, hrun, hkeeps, haccepted, hreply⟩ := rowWrite_accepted (l := [.cat, .vits, .srv]) (st := 1) (F := fun d => ((vitsOf mask).foldl (fun e w => e.joins l w) d).setCmd l 1 1)
    tenancyAssign_exec writtenRow_assign h mask.isLt ((special_assign _).trans (congrArg some (by
      simp only [X.doAssign, State.view_dev, hready, contains_sizes, hsize, hany, hhead, decide_true, Bool.not_true, Bool.false_eq_true, if_false]
      rfl))) rfl (honly.setCmd _ _ _ _ (by simp)) (hcount.trans ⟨rfl, rfl⟩) (by simp)
  refine ⟨t, hrun, hkeeps, haccepted, ⟨0, ?_⟩, fun v => ?_⟩
  · rw [hreply.only.srv (by simp)]
    exact Dev.cmd_setCmd _ _ _ _ _
  · rw [hreply.vit, Dev.vit_setCmd, Dev.vit_foldl_joins]

theorem tenancyAssign_busy (h : s.dev.Writes rq q 0x3200 1)
    (hbusy : s.dev.cat.ready = false ∨ (vitsOf mask).length ∈ [1, 2, 4, 8, 16, 32] ∧ ∃ v ∈ vitsOf mask, (s.dev.vit v).st ≠ .unassigned) :
    Completes (.tenancyAssign rq mask) s (Refused rq 3 s) := by
  refine rowWrite_refused tenancyAssign_exec writtenRow_assign h mask.isLt ((special_assign _).trans (congrArg some ?_)) rfl
  cases hready : s.dev.cat.ready with
  | false => simp [X.doAssign, hready]; rfl
  | true =>
    obtain ⟨hsize, v, hv, hst⟩ := hbusy.resolve_left (by simp [hready])
    have hany : (vitsOf mask).any (fun v => (s.dev.vit v).st != .unassigned) = true := List.any_eq_true.2 ⟨v, hv, bne_iff_ne.2 hst⟩
    simp only [X.doAssign, State.view_dev, hready, contains_sizes, hsize, hany, decide_true, Bool.not_true, Bool.false_eq_true, if_false, if_true]
    rfl

theorem tenancyAssign_range (h : s.dev.Writes rq q 0x3200 1) (hready : s.dev.cat.ready = true) (hsize : (vitsOf mask).length ∉ [1, 2, 4, 8, 16, 32]) :
    Completes (.tenancyAssign rq mask) s (Refused rq 2 s) := by
  refine rowWrite_refused tenancyAssign_exec writtenRow_assign h mask.isLt ((special_assign _).trans (congrArg some ?_)) rfl
  simp only [X.doAssign, State.view_dev, hready, contains_sizes, hsize, decide_false, Bool.not_true, Bool.not_false, Bool.false_eq_true, if_false, if_true]
  rfl

end Assign
end Sys2Proof.Machine

namespace Sys2Proof.Machine

/-! #### CLEARING_DONE (R261, R291) -/

theorem kget_kdrop {α : Type} (z : α) (p : Nat → Bool) (m : KMap α) {k : Nat} (h : p k = true) : kget z (kdrop p m) k = z := by
  induction m with
  | nil => rfl
  | cons e m ih =>
    rw [kdrop, List.filter_cons]
    split
    next hkept =>
      have hne : e.1 ≠ k := fun heq => by simp [heq, h] at hkept
      rw [kget, if_neg hne]
      exact ih
    next => exact ih

theorem X.byte_foldl_zero_ne {sp tp : MemSp} (h : tp ≠ sp) (f g : Nat → Nat) (l : List Nat) (x : X) (k : Nat) :
    (l.foldl (fun (y : X) b => y.op (.zero sp (f b) (g b))) x).mem.byte tp k = x.mem.byte tp k :=
  foldl_keeps (fun y : X => y.mem.byte tp k) (fun (y : X) b => y.op (.zero sp (f b) (g b))) (fun y b => Mems.byte_zero_ne y.mem sp tp (f b) (g b) k h) l x

theorem X.From.foldl_op {s : State} {β : Type} (o : β → MemOp) (l : List β) {x : X} (h : x.From s) : (l.foldl (fun (y : X) b => y.op (o b)) x).From s := by
  induction l generalizing x with
  | nil => exact h
  | cons b l ih => exact ih (h.op (o b))

/-- Between two views the memory of a Vitrine has been cleared: its window and Gallery share read zero, the other windows and the host's memory stand. -/
structure X.VitZeroed (v : VitId) (x y : X) : Prop where
  listed : ∀ s, x.From s → y.From s
  window : ∀ i, i < windowBytes → y.mem.byte .hbm (v.toNat * 2 ^ 36 + i) = 0
  pad : ∀ i, i < 2 ^ 27 → y.mem.byte .pad (padBase + v.toNat * 2 ^ 27 + i) = 0
  others : ∀ a, a / 2 ^ 36 ≠ v.toNat → y.mem.byte .hbm a = x.mem.byte .hbm a
  host : ∀ a, y.mem.byte .host a = x.mem.byte .host a

theorem X.clearVit_zeroed (x : X) (v : VitId) : X.VitZeroed v x (x.clearVit v) := by
  unfold X.clearVit
  extract_lets x1 x2 x3 p x4
  have hlocal : ∀ sp k, sp ≠ .clus → sp ≠ .scr → x2.mem.byte sp k = x.mem.byte sp k := fun sp k hclus hscr =>
    (X.byte_foldl_zero_ne hclus (fun k => k * 2 ^ 24) (fun _ => 2 ^ 24) _ _ k).trans (X.byte_foldl_zero_ne hscr (fun c => c * 2 ^ 19) (fun _ => 2 ^ 19) _ _ k)
  have hbyte : ∀ sp k, x4.mem.byte sp k = (applyOp (applyOp x2.mem (.zero .hbm (v.toNat * 2 ^ 36) windowBytes)) (.zero .pad p (2 ^ 27))).byte sp k := fun sp k => by
    by_cases hsp : sp = .pad
    · subst hsp
      simp only [x4, x3, X.op_mem, Mems.byte_clean, Mems.byte_zero, Mems.byte_zero_ne _ _ _ _ _ _ (show MemSp.pad ≠ .hbm by decide)]
    · simp only [x4, x3, X.op_mem, Mems.byte_clean, Mems.byte_zero_ne _ _ _ _ _ _ hsp]
  have hhbm : ∀ a, x4.mem.byte .hbm a = if v.toNat * 2 ^ 36 ≤ a ∧ a < v.toNat * 2 ^ 36 + windowBytes then 0 else x.mem.byte .hbm a := fun a => by
    rw [hbyte, Mems.byte_zero_ne _ _ _ _ _ _ (by decide), Mems.byte_zero, hlocal _ _ (by decide) (by decide)]
  have hpad : ∀ i, i < 2 ^ 27 → x4.mem.byte .pad (p + i) = 0 := fun i hi => by
    rw [hbyte, Mems.byte_zero, if_pos ⟨Nat.le_add_right _ _, Nat.add_lt_add_left hi _⟩]
  refine ⟨fun s h => (((((h.foldl_op _ _).foldl_op _ _).op _).op _).op _).op _ |>.on _, fun i hi => (hhbm _).trans (if_pos ⟨Nat.le_add_right _ _, Nat.add_lt_add_left hi _⟩),
    hpad, fun a ha => (hhbm a).trans (if_neg ?_), fun a => ?_⟩
  · have hshort : windowBytes < 2 ^ 36 := by decide
    omega
  · rw [X.on_mem, hbyte, Mems.byte_zero_ne _ _ _ _ _ _ (by decide), Mems.byte_zero_ne _ _ _ _ _ _ (by decide), hlocal _ _ (by decide) (by decide)]

/-- Between two machines a Vitrine has been cleared: it is in step mode with nothing pinned, its rings are disabled, and only what R261 lists has changed. -/
structure Dev.VitCleared (v : VitId) (d e : Dev) : Prop where
  only : Only [.cat, .cnt, .vits, .cores, .clus, .gal, .msgs, .srv, .fab] d e
  srv : e.srv = { d.srv with rings := e.srv.rings, ranges := e.srv.ranges }
  count : d.sameCount e
  fresh : (e.vit v).padSteps = 0 ∧ (e.vit v).pinned = 0
  ring : ∀ r, r < 2048 → (e.ring v r).st = .disabled

theorem X.clearVit_cleared (x : X) (v : VitId) : Dev.VitCleared v x.dev (x.clearVit v).dev := by
  unfold X.clearVit
  extract_lets x1 x2 x3 p x4
  have hdev : x4.dev = x.dev := ((X.op_dev _ _).trans ((X.op_dev _ _).trans ((X.op_dev _ _).trans (X.op_dev _ _)))).trans
    ((X.foldl_op_dev (fun k => .zero .clus (k * 2 ^ 24) (2 ^ 24)) _ _).trans (X.foldl_op_dev (fun c => .zero .scr (c * 2 ^ 19) (2 ^ 19)) _ _))
  rw [X.on_dev, hdev]
  extract_lets d1 d2 d3 d4 d5 d6 d7
  have h1 : Only [.gal] x.dev d1 := (Only.refl _ _).foldl _ _ (fun e g => (Only.refl _ e).setSlice g _ (by simp))
  have h2 : Only [.gal, .cores] x.dev d2 := (h1.mono (by simp)).foldl _ _ (fun e c => (Only.refl _ e).setCore (BitVec.ofNat 9 c) _ (by simp))
  have h3 : Only [.gal, .cores, .clus] x.dev d3 := (h2.mono (by simp)).foldl _ _ (fun e k => (Only.refl _ e).setClu k _ (by simp))
  have h5 : Only [.gal, .cores, .clus, .cat, .cnt, .vits] x.dev d5 := (((h3.mono (by simp)).vitDefaults v (by simp)).count _ _ _ _ (by simp)).setVit v _ (by simp)
  have h7 : Only [.srv, .fab] d5 d7 := ((Only.refl _ d5).onSrv _ (by simp)).onFab _ (by simp)
  have h8 : Only [.fab, .msgs] d7 { d7 with msgs := d7.msgs.filter (fun m => vitOfAddr (m.line * 128) != v) }.freeAlias := ((Only.refl _ d7).with_msgs _ (by simp)).freeAlias (by simp)
  have hcount : x.dev.sameCount d4 := (h3.sameCount (by simp)).trans ⟨rfl, rfl⟩
  have hvit : ({ d7 with msgs := d7.msgs.filter (fun m => vitOfAddr (m.line * 128) != v) }.freeAlias).vit v = d5.vit v :=
    (h8.vit (by simp) v).trans (h7.vit (by simp) v)
  have hsrv : ({ d7 with msgs := d7.msgs.filter (fun m => vitOfAddr (m.line * 128) != v) }.freeAlias).srv = d6.srv := h8.srv (by simp)
  refine ⟨(h5.mono (by simp)).trans ((h7.mono (by simp)).trans (h8.mono (by simp))), ?_, hcount.trans ⟨rfl, rfl⟩, ?_, fun r hr => ?_⟩
  · rw [hsrv, ← h5.srv (by simp)]
    rfl
  · rw [hvit, Dev.vit_setVit]
    exact ⟨rfl, rfl⟩
  · have hkey : (ringKey v r / 2048 == v.toNat) = true := by rw [beq_iff_eq, ringKey]; omega
    rw [Dev.ring, hsrv]
    exact congrArg Ring.st (kget_kdrop {} (fun k => k / 2048 == v.toNat) d5.srv.rings hkey)

/-- The counter rows of a Vitrine read 0 once they are cleared. -/
theorem Dev.counter_clearCounters (d : Dev) (v : VitId) {i n : Nat} (hi : rowsAreVits i = true) (hn : n < 256) : (d.clearCounters v).counter i n v.toNat = 0 := by
  have hv := v.isLt
  have hkey : ckey i n v.toNat / 16777216 = i ∧ ckey i n v.toNat % 65536 = v.toNat := by unfold ckey; omega
  rw [Dev.counter, Dev.clearCounters, kget_kdrop]
  simp only [hkey, hi, beq_self_eq_true, Bool.and_self, Bool.true_or]

section ClearingDone
variable {s : State} {v l : VitId}

theorem Dev.tenancy_of_leaders {d e : Dev} (h : ∀ w, (e.vit w).leader = (d.vit w).leader) (l : VitId) : e.tenancy l = d.tenancy l := by
  simp only [Dev.tenancy, h]

/-- The machine after a Vitrine being assigned has been cleared. -/
def Dev.assigned (d : Dev) (v : VitId) : Dev := (d.clearCounters v).vitState v .assigned

theorem Dev.vit_assigned (d : Dev) (v : VitId) : (d.assigned v).vit v = { d.vit v with st := .assigned } := Dev.vit_vitState _ v _
theorem Dev.vit_assigned_ne (d : Dev) {v w : VitId} (h : w ≠ v) : (d.assigned v).vit w = d.vit w := Dev.vit_vitState_ne _ v w _ h
theorem Dev.assigned_only (d : Dev) (v : VitId) : Only [.cnt, .vits, .cat] d (d.assigned v) := ((Only.refl _ d).with_cnt _ (by simp)).vitState _ _ (by simp) (by simp)

/-- A Vitrine stands ASSIGNED and holds nothing of an earlier tenancy; no other window and no byte of the host has changed (R261). -/
def StandsCleared (v l : VitId) (s : State) (e : Dev) (m : Mems) : Prop :=
  (e.vit v).st = .assigned ∧ (e.vit v).leader = some l ∧ (e.vit v).padSteps = 0 ∧ (e.vit v).pinned = 0 ∧ (∀ r, r < 2048 → (e.ring v r).st = .disabled) ∧
  (∀ k row, k ∈ [0x8010, 0x8015, 0x801A] → row < 16 → e.counter k row v.toNat = 0) ∧
  (∀ i, i < windowBytes → m.byte .hbm (v.toNat * 2 ^ 36 + i) = 0) ∧ (∀ i, i < 2 ^ 27 → m.byte .pad (padBase + v.toNat * 2 ^ 27 + i) = 0) ∧
  (∀ a, a / 2 ^ 36 ≠ v.toNat → m.byte .hbm a = s.mem.byte .hbm a) ∧ (∀ a, m.byte .host a = s.mem.byte .host a)

theorem StandsCleared.setCmd {e : Dev} {m : Mems} (h : StandsCleared v l s e m) (k : VitId) (command status needed : Nat) :
    StandsCleared v l s (e.setCmd k command status needed) m := h

theorem standsCleared_assigned (hl : (s.dev.vit v).leader = some l) : StandsCleared v l s ((s.view.clearVit v).dev.assigned v) (s.view.clearVit v).mem := by
  obtain ⟨-, hwindow, hpad, hothers, hhost⟩ := s.view.clearVit_zeroed v
  obtain ⟨-, -, -, ⟨hsteps, hpinned⟩, hrings⟩ := s.view.clearVit_cleared v
  have hleader : ((s.view.clearVit v).dev.vit v).leader = some l := ((s.view.clearVit_stands v).tenure v).2.trans hl
  have hrows : ∀ k ∈ [0x8010, 0x8015, 0x801A], rowsAreVits k = true := by decide
  generalize (s.view.clearVit v).dev = d at *
  have hring : ∀ r, (d.assigned v).ring v r = d.ring v r := fun r => by rw [Dev.ring, (d.assigned_only v).srv (by simp), Dev.ring]
  have hcnt : (d.assigned v).cnt = (d.clearCounters v).cnt := ((Only.refl [.vits, .cat] _).vitState v .assigned (by simp) (by simp)).cnt (by simp)
  rw [StandsCleared, Dev.vit_assigned]
  refine ⟨rfl, hleader, hsteps, hpinned, fun r hr => by rw [hring]; exact hrings r hr, fun k row hk hrow => ?_, hwindow, hpad, hothers, hhost⟩
  rw [Dev.counter, hcnt]
  exact Dev.counter_clearCounters d v (hrows k hk) (by omega)

/-- A Vitrine being assigned, once cleared, is ASSIGNED, and with the last of its tenancy the command ends. -/
theorem clearingDone_assigns (hl : (s.dev.vit v).leader = some l) (hst : (s.dev.vit v).st = .clearing) :
    Completes (.clearingDone v) s (fun t => Keeps [.mem, .cat, .cnt, .vits, .cores, .clus, .gal, .msgs, .srv, .fab] s t ∧ StandsCleared v l s t.dev t.mem ∧
      ((∀ w ∈ s.dev.tenancy l, w ≠ v → (s.dev.vit w).st = .assigned) → CmdRow l 1 0 t)) := by
  have hstands := standsCleared_assigned hl
  have honly := (s.view.clearVit_cleared v).only.trans ((Dev.assigned_only _ v).mono (by simp))
  have htenure := (s.view.clearVit_stands v).tenure
  have hleaders : ∀ w, (((s.view.clearVit v).dev.assigned v).vit w).leader = (s.dev.vit w).leader := fun w => by
    by_cases hw : w = v
    · rw [hw, Dev.vit_assigned]; exact (htenure v).2
    · rw [Dev.vit_assigned_ne _ hw]; exact (htenure w).2
  have hfrom : ((s.view.clearVit v).on (fun d => d.assigned v)).From s := ((s.view.clearVit_zeroed v).listed s (X.From.start s s.dev)).on _
  have hexec : exec (.clearingDone v) s = execClearingDone v s := rfl
  by_cases hall : (((s.view.clearVit v).dev.assigned v).tenancy l).all (fun w => (((s.view.clearVit v).dev.assigned v).vit w).st == .assigned) = true
  · refine completes_view hexec (y := ((s.view.clearVit v).on (fun d => d.assigned v)).on (fun d => d.setCmd l 1 0)) ?_ (hfrom.on _) (fun e m he hm => ?_)
    · simp only [hst, hl]
      exact if_pos hall
    · subst he hm
      exact ⟨(honly.setCmd l 1 0 0 (by simp)).keeps_mem _, hstands.setCmd l 1 0 0, fun _ => ⟨0, Dev.cmd_setCmd _ l 1 0 0⟩⟩
  · refine completes_view hexec (y := (s.view.clearVit v).on (fun d => d.assigned v)) ?_ hfrom (fun e m he hm => ?_)
    · simp only [hst, hl]
      exact if_neg hall
    · subst he hm
      refine ⟨honly.keeps_mem _, hstands, fun hothers => absurd (List.all_eq_true.2 (fun w hw => ?_)) hall⟩
      rw [Dev.tenancy_of_leaders hleaders] at hw
      by_cases hwv : w = v
      · rw [hwv, Dev.vit_assigned]; rfl
      · rw [Dev.vit_assigned_ne _ hwv, (htenure w).1, State.view_dev, hothers w hw hwv]; rfl

/-- The machine after a Vitrine has left its tenancy: its function is off and it is free (R291). -/
def Dev.freed (d : Dev) (v : VitId) : Dev :=
  (({ d with host := { d.host with vfOff := putBit d.host.vfOff v.toNat true } } : Dev).setVit v (fun t => { t with leader := none })).vitState v .unassigned

/-- The last steps of a clearing by which a Vitrine leaves its tenancy. -/
theorem X.freed_eq (y : X) (v : VitId) : (y.on (fun d => { d with host := { d.host with vfOff := putBit d.host.vfOff v.toNat true } })).on
    (fun d => (d.setVit v (fun t => { t with leader := none })).vitState v .unassigned) = y.on (fun d => d.freed v) := (rfl)

theorem Dev.vit_freed (d : Dev) (v : VitId) : (d.freed v).vit v = { d.vit v with st := .unassigned, leader := none } := by
  rw [Dev.freed, Dev.vit_vitState, Dev.vit_setVit]; rfl
theorem Dev.vit_freed_ne (d : Dev) {v w : VitId} (h : w ≠ v) : (d.freed v).vit w = d.vit w := by
  rw [Dev.freed, Dev.vit_vitState_ne _ _ _ _ h, Dev.vit_setVit_ne _ _ _ _ h]; rfl
theorem Dev.freed_only (d : Dev) (v : VitId) : Only [.host, .vits, .cat] d (d.freed v) :=
  (((Only.refl _ d).with_host _ (by simp)).setVit _ _ (by simp)).vitState _ _ (by simp) (by simp)
theorem Dev.host_freed (d : Dev) (v : VitId) : (d.freed v).host = { d.host with vfOff := putBit d.host.vfOff v.toNat true } := Dev.vitState_host _ v .unassigned

/-- The last Vitrine of a tenancy has left it: its job and its freeze are forgotten, and the command ends. -/
def Dev.tenancyEnded (d : Dev) (l : VitId) : Dev := ((d.setJob l (fun _ => {})).setCrate l {}).endCmd l 2 0

theorem X.tenancyEnded_eq (y : X) (l : VitId) : y.on (fun d => ((d.setJob l (fun _ => {})).setCrate l {}).endCmd l 2 0) = y.on (fun d => d.tenancyEnded l) := (rfl)

theorem Dev.tenancyEnded_only (d : Dev) (l : VitId) : Only [.rel, .srv, .cat] d (d.tenancyEnded l) :=
  (((Only.refl _ d).setJob _ _ (by simp)).setCrate _ _ (by simp)).endCmd _ _ _ _ (by simp) (by simp)

/-- A Vitrine of a drained tenancy that is being deaccessioned, once cleared, is UNASSIGNED with its function off, and with the last the command ends. -/
theorem clearingDone_frees (hl : (s.dev.vit v).leader = some l) (hst : (s.dev.vit v).st = .deaccessioning) (hdrained : s.dev.drained l = true)
    (hin : s.dev.rel.withdrawn.getLsbD v.toNat = false) (hfence : s.dev.isFenced (dieOfVit v) = false) (hwindow : s.dev.rel.noWindow.getLsbD v.toNat = false) :
    Completes (.clearingDone v) s (fun t => Keeps [.mem, .cat, .cnt, .vits, .cores, .clus, .gal, .msgs, .srv, .fab, .host, .rel] s t ∧ (t.dev.vit v).st = .unassigned ∧
      (t.dev.vit v).leader = none ∧ t.dev.host.vfOff = putBit s.dev.host.vfOff v.toNat true ∧ (∀ i, i < windowBytes → t.mem.byte .hbm (v.toNat * 2 ^ 36 + i) = 0) ∧
      (s.dev.tenancy l = [v] → CmdRow l 2 0 t)) := by
  have hzeroed := s.view.clearVit_zeroed v
  have hcleared := (s.view.clearVit_cleared v).only
  obtain ⟨hrel, htenure⟩ := s.view.clearVit_stands v
  have honly := (hcleared.mono (m := [.cat, .cnt, .vits, .cores, .clus, .gal, .msgs, .srv, .fab, .host, .rel]) (by simp)).trans ((Dev.freed_only _ v).mono (by simp))
  have hhost : ((s.view.clearVit v).dev.freed v).host.vfOff = putBit s.dev.host.vfOff v.toNat true := by rw [Dev.host_freed, hcleared.host (by simp), State.view_dev]
  have hfrom : ((s.view.clearVit v).on (fun d => d.freed v)).From s := (hzeroed.listed s (X.From.start s s.dev)).on _
  have hview : ({ dev := s.dev, mem := s.mem, mram := s.mram } : X) = s.view := rfl
  generalize hy : s.view.clearVit v = y at *
  rw [State.view_dev] at hrel
  have hstate : (if s.dev.rel.withdrawn.getLsbD v.toNat = true then VitSt.withdrawn
      else if (s.dev.isFenced (dieOfVit v) || s.dev.rel.noWindow.getLsbD v.toNat) = true then .outOfService else .unassigned) = .unassigned := by
    simp only [hin, hfence, hwindow, Bool.or_self, Bool.false_eq_true, if_false]
  rw [Dev.isFenced] at hstate
  have hexec : exec (.clearingDone v) s = execClearingDone v s := rfl
  by_cases hempty : ((y.dev.freed v).tenancy l).isEmpty = true
  · refine completes_view hexec (y := (y.on (fun d => d.freed v)).on (fun d => d.tenancyEnded l)) ?_ (hfrom.on _) (fun e m he hm => ?_)
    · simp only [hst, hl, hdrained, Bool.not_true, Bool.false_eq_true, if_false]
      rw [hview, hy]
      simp only [X.on_dev, Dev.isFenced, hrel, hstate, X.freed_eq, X.tenancyEnded_eq]
      rw [if_pos hempty]
    · subst he
      rw [X.on_mem, X.on_mem] at hm
      subst hm
      have hend := Dev.tenancyEnded_only (y.dev.freed v) l
      refine ⟨(honly.trans (hend.mono (by simp))).keeps_mem _, ?_, ?_, (congrArg HostP.vfOff (hend.host (by simp))).trans hhost, hzeroed.window, fun _ => ⟨0, Dev.cmd_endCmd _ l 2 0 0⟩⟩
      · exact (congrArg Vit.st (hend.vit (by simp) v)).trans (by rw [Dev.vit_freed])
      · exact (congrArg Vit.leader (hend.vit (by simp) v)).trans (by rw [Dev.vit_freed])
  · refine completes_view hexec (y := y.on (fun d => d.freed v)) ?_ hfrom (fun e m he hm => ?_)
    · simp only [hst, hl, hdrained, Bool.not_true, Bool.false_eq_true, if_false]
      rw [hview, hy]
      simp only [X.on_dev, Dev.isFenced, hrel, hstate, X.freed_eq]
      rw [if_neg hempty]
    · subst he
      rw [X.on_mem] at hm
      subst hm
      refine ⟨honly.keeps_mem _, by rw [X.on_dev, Dev.vit_freed], by rw [X.on_dev, Dev.vit_freed], hhost, hzeroed.window, fun halone => absurd (List.isEmpty_iff.2 ?_) hempty⟩
      refine List.eq_nil_iff_forall_not_mem.2 (fun w hw => ?_)
      have hlead : ((y.dev.freed v).vit w).leader = some l := beq_iff_eq.1 (List.mem_filter.1 hw).2
      by_cases hwv : w = v
      · rw [hwv, Dev.vit_freed] at hlead
        exact absurd hlead (by simp)
      · rw [Dev.vit_freed_ne _ hwv, (htenure w).2] at hlead
        have hmem : w ∈ s.dev.tenancy l := List.mem_filter.2 ⟨mem_vitsOf_allOnes w, beq_iff_eq.2 hlead⟩
        rw [halone, List.mem_singleton] at hmem
        exact hwv hmem

end ClearingDone
end Sys2Proof.Machine

namespace Sys2Proof.Machine

/-! #### Doorbells and the end of a ring's use (R262, R264, R289) -/

theorem Dev.counter_countOne (d : Dev) (i n r : Nat) : (d.count i n r).counter i n r = (d.counter i n r + 1) % 2 ^ 64 := d.counter_count i n r 1

section Doorbells
variable {s : State} {v : VitId} {r : RingId} {val : Word} {o : Ring}

/-- A doorbell beyond its queue has been counted; its ring's tail and doorbells stand (R264). -/
def TailBeyond (v : VitId) (r : RingId) (o : Ring) (d e : Dev) : Prop :=
  e.counter 0x801A 6 v.toNat = (d.counter 0x801A 6 v.toNat + 1) % 2 ^ 64 ∧ (e.ring v r.toNat).sqTail = o.sqTail ∧ (e.ring v r.toNat).bells = o.bells

theorem sqTail_past (hpast : ¬(diff32 val o.sqHead ≤ o.size ∧ diff32 o.sqTail o.sqHead < diff32 val o.sqHead)) :
    (decide (diff32 val o.sqHead ≤ o.size) && decide (diff32 o.sqTail o.sqHead < diff32 val o.sqHead)) = false := by
  rw [← Bool.decide_and, decide_eq_false hpast]

section SqTail
variable (ho : s.dev.ring v r.toNat = o) (hheld : (s.dev.vit v).held = true) (hst : o.st = .enabled) (htype : o.type ≠ 2 ∨ o.docentFed = false)

include hheld hst htype in
/-- Nothing about its ring refuses the doorbell. -/
theorem sqTail_admitted : (!(s.dev.vit v).held || o.st != .enabled || (o.type == 2 && o.docentFed)) = false := by
  rw [hheld, hst]
  rcases htype with htype | hfed
  · simp [htype]
  · simp [hfed]

include ho hheld hst htype

/-- A tail within the queue is taken (R264). -/
theorem sqTail_moves (hsize : diff32 val o.sqHead ≤ o.size) (hahead : diff32 o.sqTail o.sqHead < diff32 val o.sqHead) :
    Completes (.sqTail v r val) s (fun t => Keeps [.srv] s t ∧
      t.dev.ring v r.toNat = { o with sqTail := val, bells := o.bells ++ [(val, s.dev.srv.bells)] } ∧ t.dev.srv.bells = s.dev.srv.bells + 1) := by
  have hadmit := sqTail_admitted hheld hst htype
  have hexec : exec (.sqTail v r val) s = execSqTail v r val s := rfl
  refine completes_on (fun d => (d.setRing v r.toNat (fun q => { q with sqTail := val, bells := q.bells ++ [(val, d.srv.bells)] })).onSrv (fun s => { s with bells := s.bells + 1 }))
    hexec ?_ ⟨(((Only.refl _ _).setRing _ _ _ (by simp)).onSrv _ (by simp)).keeps, ?_, rfl⟩
  · simp only [ho, hadmit, hsize, hahead, decide_true, Bool.and_self, Bool.false_eq_true, if_false, if_true]
  · rw [← ho]
    exact Dev.ring_setRing s.dev v r.toNat (fun q => { q with sqTail := val, bells := q.bells ++ [(val, s.dev.srv.bells)] })

variable (hpast : ¬(diff32 val o.sqHead ≤ o.size ∧ diff32 o.sqTail o.sqHead < diff32 val o.sqHead))
include hpast

/-- A tail that does not move on is ignored and counted. -/
theorem sqTail_ignored (hback : (val - o.sqTail).toInt ≤ 0) : Completes (.sqTail v r val) s (fun t => Keeps [.cnt] s t ∧
    t.dev.counter 0x801A 5 v.toNat = (s.dev.counter 0x801A 5 v.toNat + 1) % 2 ^ 64) := by
  have hadmit := sqTail_admitted hheld hst htype
  have hno := sqTail_past hpast
  have hexec : exec (.sqTail v r val) s = execSqTail v r val s := rfl
  refine completes_on (fun d => d.count 0x801A 5 v.toNat) hexec ?_ ⟨(s.dev.count_only _ _ _ _).keeps, s.dev.counter_countOne _ _ _⟩
  simp only [ho, hadmit, hno, hback, Bool.false_eq_true, if_false, if_true]

/-- A tail beyond the queue is ignored, counted and reported. -/
theorem sqTail_beyond (hfar : 0 < (val - o.sqTail).toInt) : Completes (.sqTail v r val) s (fun t => TailBeyond v r o s.dev t.dev) := by
  have hadmit := sqTail_admitted hheld hst htype
  have hno := sqTail_past hpast
  have hexec : exec (.sqTail v r val) s = execSqTail v r val s := rfl
  have hlead : (((s.dev.count 0x801A 6 v.toNat).postVit 0x0033 v r.toNat val.toNat).vit v).leader = (s.dev.vit v).leader := by
    rw [Dev.vit, Dev.postVit_vits, Dev.vit]; rfl
  have hdone : ∀ y, Posts (s.view.on (fun d => (d.count 0x801A 6 v.toNat).postVit 0x0033 v r.toNat val.toNat)) y →
      TailBeyond v r o s.dev y.dev := by
    intro y hposts
    have hv := v.isLt
    have hring : ((s.dev.count 0x801A 6 v.toNat).postVit 0x0033 v r.toNat val.toNat).ring v r.toNat = o := by
      rw [Dev.ring, Dev.postVit_srv]; exact ho
    refine ⟨?_, ?_, ?_⟩
    · rw [hposts.counter (by decide) (by decide) (by omega), X.on_dev, Dev.counter_postVit]
      exact s.dev.counter_countOne _ _ _
    · rw [hposts.ring, X.on_dev, State.view_dev, hring]
    · rw [hposts.ring, X.on_dev, State.view_dev, hring]
  cases hl : (s.dev.vit v).leader with
  | some l =>
    refine completes_run_dev (Q := TailBeyond v r o s.dev) _ hexec ?_ (hdone _ (Posts.ringEvent _ l 0x84 r.toNat))
    simp only [ho, hadmit, hno, Int.not_le.2 hfar, Bool.false_eq_true, if_false, X.on_dev, hlead, hl]
    rfl
  | none =>
    refine completes_run_dev (Q := TailBeyond v r o s.dev) _ hexec ?_ (hdone _ (Posts.refl _))
    simp only [ho, hadmit, hno, Int.not_le.2 hfar, Bool.false_eq_true, if_false, X.on_dev, hlead, hl]
    rfl

end SqTail

/-- A CQ_HEAD within the entries posted is taken (R264). -/
theorem cqHead_moves (ho : s.dev.ring v r.toNat = o) (hheld : (s.dev.vit v).held = true) (hst : o.st ≠ .disabled) (hone : 1 ≤ diff32 val o.cqHead)
    (hposted : diff32 val o.cqHead ≤ diff32 o.cqTail o.cqHead) : Completes (.cqHead v r val) s (fun t => Keeps [.srv] s t ∧ t.dev.ring v r.toNat = { o with cqHead := val }) := by
  have hexec : exec (.cqHead v r val) s = execCqHead v r val s := rfl
  have hon : (o.st != .disabled) = true := bne_iff_ne.2 hst
  refine completes_dev (s.dev.setRing v r.toNat (fun q => { q with cqHead := val })) hexec ?_ ⟨((Only.refl _ _).setRing _ _ _ (by simp)).keeps, ?_⟩
  · simp only [ho, hheld, hon, hone, hposted, decide_true, Bool.and_self, if_true]
  · rw [← ho]
    exact Dev.ring_setRing _ _ _ _

/-- A ring that is being disabled and has nothing left is disabled (R289). -/
theorem ringDisableDone_disables (ho : s.dev.ring v r.toNat = o) (hst : o.st = .disabling) (hhead : o.sqHead = o.offTail) (hfetched : o.fetched = []) :
    Completes (.ringDisableDone v r) s (fun t => Keeps [.srv] s t ∧ t.dev.ring v r.toNat = { o with st := .disabled, bells := [] }) := by
  have hexec : exec (.ringDisableDone v r) s = execRingDisableDone v r s := rfl
  refine completes_dev (s.dev.setRing v r.toNat (fun q => { q with st := .disabled, bells := [] })) hexec ?_ ⟨((Only.refl _ _).setRing _ _ _ (by simp)).keeps, ?_⟩
  · simp only [ho, hst, hhead, hfetched, beq_self_eq_true, List.isEmpty_nil, Bool.and_self, if_true]
  · rw [← ho]
    exact Dev.ring_setRing _ _ _ _

end Doorbells
end Sys2Proof.Machine

namespace Sys2Proof.Machine

/-! #### DESCRIPTOR_FETCH (R266, R268) -/

/-- A ring once a descriptor has been fetched, in sequence or not (R264, R266). -/
def Ring.takes (q : Ring) (inSeq : Bool) (f : Fetched) : Ring :=
  { q with sqHead := q.sqHead + 1, bells := (match q.bells with
                   | (t, b) :: rest => if t == q.sqHead + 1 then rest else (t, b) :: rest
                   | [] => []),
           nextSeq := if inSeq then q.nextSeq + 1 else q.nextSeq, fetched := q.fetched ++ [f] }

/-- A descriptor as it is fetched, with the status it is decided with at once (R268). -/
def Dev.fetchedNow (d : Dev) (q : Ring) (raw : BitVec 512) (st : Option Nat) : Fetched :=
  { seq := descSeq raw, raw, at' := d.ref, bell := ((q.bells.head?).map (·.2)).getD 0, ord := d.srv.fetchNo, done := st.map (fun k => (k, 0)) }

/-- A view once a descriptor has been fetched. -/
def X.fetches (y : X) (v : VitId) (r : Nat) (o : Ring) (raw : BitVec 512) (inSeq : Bool) (st : Option Nat) : X :=
  (y.on (fun d => d.setRing v r (fun q => q.takes inSeq (d.fetchedNow o raw st)))).on (fun d => d.onSrv (fun s => { s with fetchNo := s.fetchNo + 1 }))

theorem diff32_eq_zero {a b : Word} : diff32 a b = 0 ↔ a = b := by
  unfold diff32; bv_omega

section Fetch
variable {s : State} {v l : VitId} {r : RingId} {o : Ring} {y : X} {n : Nat} {raw : BitVec 512}
variable (ho : s.dev.ring v r.toNat = o) (hst : o.st = .enabled) (hmore : o.sqHead ≠ o.sqTail) (hfree : o.cqFree ≠ 0) (hlead : (s.dev.vit v).leader = some l)
  (hthawed : (s.dev.crate l).freezing = false) (hvit : (s.dev.vit v).st = .assigned) (hserves : s.dev.serves v = true) (htype : o.type = 0 ∨ o.type = 1)
  (hopen : ∀ f ∈ o.fetched, f.done = none) (hroom : o.fetched.length < (if o.type = 0 then 1 else 8))
  (hread : s.view.readNat (o.sqBase + 64 * (o.sqHead.toNat % o.size)) 64 = (y, n, false)) (hraw : raw = BitVec.ofNat 512 n)

include hopen in
theorem filter_undecided : o.fetched.filter (fun f => f.done.isNone) = o.fetched := List.filter_eq_self.2 (fun f hf => by rw [hopen f hf]; rfl)

include ho hst hmore hfree hlead hthawed hvit hserves htype hopen hroom hread hraw

/-- A fetch that nothing holds up takes the next descriptor, decides it at once where it is out of sequence or of another ring's type, and posts what is decided. -/
theorem descriptorFetch_fetches {Q : Dev → Prop} (st : Option Nat) (hstatus : (if 2 ^ 31 ≤ diff32 (descSeq raw) o.nextSeq then some 1
      else if (diff32 (descSeq raw) o.nextSeq != 0) = true then some 2 else if (!opAllowed o.type (descOp raw)) = true then some 3 else none) = st)
    (hq : Q ((if (st == some 1) = true then (y.fetches v r.toNat o raw (diff32 (descSeq raw) o.nextSeq == 0) st).on (fun d => d.count 0x801A 4 v.toNat)
      else y.fetches v r.toNat o raw (diff32 (descSeq raw) o.nextSeq == 0) st).flushRing v r.toNat).dev) :
    Completes (.descriptorFetch v r) s (fun t => Q t.dev) := by
  have hexec : exec (.descriptorFetch v r) s = execDescriptorFetch v r s := rfl
  have hsame : o.st ≠ .disabling ∧ o.st ≠ .disabled := by rw [hst]; decide
  have hview : ({ dev := s.dev, mem := s.mem, mram := s.mram } : X) = s.view := rfl
  have hruns : s.dev.runs (dieOfVit v) = true := by
    simp only [Dev.serves, Bool.and_eq_true] at hserves
    exact hserves.1.1.1
  have hdisabling : (o.st == .disabling) = false := beq_eq_false_iff_ne.2 hsame.1
  have hheld : ((o.st == .disabled) || (o.sqHead == o.sqTail) || (o.cqFree == 0) || false || (!(VitSt.assigned == .assigned || VitSt.assigned == .deaccessioning)) ||
      !s.dev.runs (dieOfVit v)) = false := by
    rw [beq_eq_false_iff_ne.2 hsame.2, beq_eq_false_iff_ne.2 hmore, beq_eq_false_iff_ne.2 hfree, hruns]; rfl
  refine completes_run_dev (Q := Q) _ hexec ?_ hq
  simp only [ho, hlead, hthawed, hvit, hserves, hdisabling, Bool.false_eq_true, if_false, hheld, Bool.false_and, Bool.not_false, Bool.true_and, hview, hread, ← hraw,
    hstatus, filter_undecided hopen]
  refine if_neg ?_
  rcases htype with htype | htype
  · simpa [htype] using hroom
  · simpa [htype] using hroom

omit ho hst hmore hfree hlead hthawed hvit hserves htype hopen hroom hraw in
theorem posts_of_read : Posts s.view y := by
  have h := Posts.readNat s.view (o.sqBase + 64 * (o.sqHead.toNat % o.size)) 64
  rwa [hread] at h

omit hst hmore hfree hlead hthawed hvit hserves htype hopen hroom hraw in
/-- The ring once the descriptor has been fetched. -/
theorem ring_fetches (raw : BitVec 512) (inSeq : Bool) (st : Option Nat) :
    (y.fetches v r.toNat o raw inSeq st).dev.ring v r.toNat = o.takes inSeq (y.dev.fetchedNow o raw st) := by
  have hsrv : y.dev.srv = s.dev.srv := by
    have h := (Access.readBytes s.view (o.sqBase + 64 * (o.sqHead.toNat % o.size)) 64 none).dev
    have hy : (s.view.readBytes (o.sqBase + 64 * (o.sqHead.toNat % o.size)) 64 none).1 = y := congrArg Prod.fst hread
    rw [← hy, h.dev]
    rfl
  have hring : y.dev.ring v r.toNat = o := by rw [← ho, Dev.ring, hsrv, Dev.ring]
  rw [← hring]
  exact Dev.ring_setRing y.dev v r.toNat (fun q => q.takes inSeq (y.dev.fetchedNow (y.dev.ring v r.toNat) raw st))

/-- A descriptor in sequence whose opcode its ring takes is fetched. -/
theorem descriptorFetch_inSequence (hseq : descSeq raw = o.nextSeq) (hop : opAllowed o.type (descOp raw) = true) :
    Completes (.descriptorFetch v r) s (fun t => ∃ f : Fetched, (t.dev.ring v r.toNat).fetched = o.fetched ++ [f] ∧
        f.raw = raw ∧ f.seq = descSeq raw ∧ f.done = none ∧ f.started = false ∧ f.at' = s.dev.ref ∧ (t.dev.ring v r.toNat).sqHead = o.sqHead + 1 ∧
        (t.dev.ring v r.toNat).nextSeq = o.nextSeq + 1 ∧ (t.dev.ring v r.toNat).cqTail = o.cqTail) := by
  have hring := ring_fetches ho hread raw true none
  have hgap : diff32 (descSeq raw) o.nextSeq = 0 := diff32_eq_zero.2 hseq
  have hquiet : (y.fetches v r.toNat o raw true none).flushRing v r.toNat = y.fetches v r.toNat o raw true none := by
    cases hlist : o.fetched with
    | nil => exact X.flushRing_undecided (f := y.dev.fetchedNow o raw none) (rest := []) (by rw [hring, Ring.takes, hlist]; rfl) rfl
    | cons e l => exact X.flushRing_undecided (f := e) (rest := l ++ [y.dev.fetchedNow o raw none]) (by rw [hring, Ring.takes, hlist]; rfl) (hopen e (by simp [hlist]))
  refine descriptorFetch_fetches (Q := fun d => ∃ f : Fetched, (d.ring v r.toNat).fetched = o.fetched ++ [f] ∧
        f.raw = raw ∧ f.seq = descSeq raw ∧ f.done = none ∧ f.started = false ∧ f.at' = s.dev.ref ∧ (d.ring v r.toNat).sqHead = o.sqHead + 1 ∧
        (d.ring v r.toNat).nextSeq = o.nextSeq + 1 ∧ (d.ring v r.toNat).cqTail = o.cqTail)
    ho hst hmore hfree hlead hthawed hvit hserves htype hopen hroom hread hraw none ?_ ?_
  · simp [hgap, hop]
  · have hdone : ((none : Option Nat) == some 1) = false := rfl
    simp only [hgap, beq_self_eq_true, hdone, Bool.false_eq_true, if_false, hquiet, hring]
    exact ⟨y.dev.fetchedNow o raw none, rfl, rfl, rfl, rfl, rfl, (posts_of_read hread).ref, rfl, rfl, rfl⟩

/-- A descriptor of a SEQ already fetched is counted and decided DUPLICATE_SEQ (R268). -/
theorem descriptorFetch_repeated (hold : 2 ^ 31 ≤ diff32 (descSeq raw) o.nextSeq) :
    Completes (.descriptorFetch v r) s (fun t => (t.dev.ring v r.toNat).sqHead = o.sqHead + 1 ∧
        (t.dev.ring v r.toNat).nextSeq = o.nextSeq ∧ t.dev.counter 0x801A 4 v.toNat = (s.dev.counter 0x801A 4 v.toNat + 1) % 2 ^ 64 ∧
        (o.fetched = [] → (t.dev.ring v r.toNat).fetched = [] ∧ (t.dev.ring v r.toNat).cqTail = o.cqTail + 1)) := by
  have hring := ring_fetches ho hread raw false (some 1)
  have hgap : (diff32 (descSeq raw) o.nextSeq == 0) = false := beq_eq_false_iff_ne.2 (by omega)
  have hv := v.isLt
  refine descriptorFetch_fetches (Q := fun d => (d.ring v r.toNat).sqHead = o.sqHead + 1 ∧
        (d.ring v r.toNat).nextSeq = o.nextSeq ∧ d.counter 0x801A 4 v.toNat = (s.dev.counter 0x801A 4 v.toNat + 1) % 2 ^ 64 ∧
        (o.fetched = [] → (d.ring v r.toNat).fetched = [] ∧ (d.ring v r.toNat).cqTail = o.cqTail + 1))
    ho hst hmore hfree hlead hthawed hvit hserves htype hopen hroom hread hraw (some 1) (if_pos hold) ?_
  simp only [beq_self_eq_true, if_true, hgap]
  generalize hz : (y.fetches v r.toNat o raw false (some 1)).on (fun d => d.count 0x801A 4 v.toNat) = z
  have hzring : z.dev.ring v r.toNat = o.takes false (y.dev.fetchedNow o raw (some 1)) := by rw [← hz, ← hring]; rfl
  have hflush := Posts.flushRing z v r.toNat
  refine ⟨by rw [hflush.ring, hzring]; rfl, by rw [hflush.ring, hzring]; rfl, ?_, fun hnone => ?_⟩
  · have hcnt : y.dev.counter 0x801A 4 v.toNat = s.dev.counter 0x801A 4 v.toNat := (posts_of_read hread).counter (by decide) (by decide) (by omega)
    rw [hflush.counter (by decide) (by decide) (by omega), ← hz, ← hcnt]
    exact Dev.counter_countOne (y.fetches v r.toNat o raw false (some 1)).dev 0x801A 4 v.toNat
  · rw [X.ring_flushRing_decided (f := y.dev.fetchedNow o raw (some 1)) (by rw [hzring, Ring.takes, hnone]; rfl) rfl, hzring]
    exact ⟨rfl, rfl⟩

end Fetch
end Sys2Proof.Machine

namespace Sys2Proof.Machine

/-! #### TENANCY_DEACCESSION (R291) -/

theorem kget_of_no_key {α : Type} (z : α) (m : KMap α) (k : Nat) (h : ∀ e ∈ m, e.1 ≠ k) : kget z m k = z := by
  induction m with
  | nil => rfl
  | cons e m ih =>
    rw [kget, if_neg (h e (by simp))]
    exact ih (fun e' he' => h e' (by simp [he']))

/-- A fold over views each of whose steps changes the machine alone does so itself. -/
theorem X.foldl_eq_on {β : Type} (f : X → β → X) (g : Dev → β → Dev) (h : ∀ y b, f y b = y.on (fun d => g d b)) (l : List β) (x : X) :
    l.foldl f x = x.on (fun d => l.foldl g d) := by
  induction l generalizing x with
  | nil => rfl
  | cons b l ih => rw [List.foldl_cons, h, ih]; rfl

/-- A ring whose use ends: an enabled one is being disabled from its present tail on (R289). -/
def Ring.ends (q : Ring) : Ring :=
  if q.st = .enabled then { q with st := .disabling, offTail := q.sqTail, offSquash := false, cfg := putBit q.cfg 30 false } else q

theorem Ring.ends_ends (q : Ring) : q.ends.ends = q.ends := by
  by_cases h : q.st = .enabled
  · simp [Ring.ends, h]
  · simp [Ring.ends, h]

/-- The end of one ring's use, not squashed. -/
def Dev.endsRing (d : Dev) (v : VitId) (r : Nat) : Dev := if (d.ring v r).st = .enabled then d.setRing v r Ring.ends else d

theorem Dev.setRing_congr (d : Dev) {v : VitId} {r : Nat} {f g : Ring → Ring} (h : f (d.ring v r) = g (d.ring v r)) : d.setRing v r f = d.setRing v r g := by
  rw [Dev.ring] at h
  simp only [Dev.setRing, kupd, h]

theorem X.endRing_drain (x : X) (v : VitId) (r : Nat) : x.endRing v r false = x.on (fun d => d.endsRing v r) := by
  have hends : ∀ d : Dev, (d.ring v r).st = .enabled → d.endsRing v r =
      d.setRing v r (fun q => { q with st := .disabling, offTail := q.sqTail, offSquash := false, cfg := putBit q.cfg 30 false }) := fun d h => by
    rw [Dev.endsRing, if_pos h]
    exact d.setRing_congr (by rw [Ring.ends, if_pos h])
  cases hst : (x.dev.ring v r).st with
  | enabled =>
    simp only [X.endRing, hst, X.disableRing, Bool.not_false, if_true, X.on, hends x.dev hst]
  | disabling =>
    simp only [X.endRing, hst, Bool.false_and, Bool.false_eq_true, if_false, X.on, Dev.endsRing, reduceCtorEq]
  | disabled => simp only [X.endRing, hst, X.on, Dev.endsRing, reduceCtorEq, if_false]

theorem Dev.ring_endsRing (d : Dev) (v w : VitId) (r k : Nat) : (d.endsRing v r).ring w k = if ringKey w k = ringKey v r then (d.ring w k).ends else d.ring w k := by
  by_cases hkey : ringKey w k = ringKey v r
  · rw [if_pos hkey, Dev.ring_of_key _ hkey, Dev.ring_of_key _ hkey, Dev.endsRing]
    split
    · rw [Dev.ring_setRing]
    next h => rw [Ring.ends, if_neg h]
  · rw [if_neg hkey, Dev.endsRing]
    split
    · exact Dev.ring_setRing_ne _ _ hkey
    · rfl

/-- The end of every ring of a Vitrine. -/
def Dev.endsRings (d : Dev) (v : VitId) : Dev := (d.ringsOf v).foldl (fun e r => e.endsRing v r) d

theorem Dev.ring_endsRings (d : Dev) (v w : VitId) {k : Nat} (hk : k < 2048) : (d.endsRings v).ring w k = if w = v then (d.ring w k).ends else d.ring w k := by
  have hlist : ∀ (l : List Nat) (e : Dev), (∀ r ∈ l, r < 2048) →
      (l.foldl (fun e r => e.endsRing v r) e).ring w k = if w = v ∧ k ∈ l then (e.ring w k).ends else e.ring w k := by
    intro l
    induction l with
    | nil => exact fun e _ => by simp
    | cons r l ih =>
      intro e hl
      rw [List.foldl_cons, ih _ (fun r' hr' => hl r' (by simp [hr'])), Dev.ring_endsRing]
      simp only [ringKey_inj (hl r (by simp)) hk, List.mem_cons]
      by_cases hhere : w = v ∧ k = r
      · simp [hhere, Ring.ends_ends]
      · have hlater : (w = v ∧ (k = r ∨ k ∈ l)) ↔ (w = v ∧ k ∈ l) := by tauto
        simp only [hhere, hlater, if_false]
  rw [Dev.endsRings, hlist _ d (fun r hr => ?small)]
  case small =>
    obtain ⟨e, -, rfl⟩ := List.mem_map.1 hr
    exact Nat.mod_lt _ (by decide)
  by_cases hw : w = v
  · subst hw
    by_cases hmem : k ∈ d.ringsOf w
    · rw [if_pos ⟨rfl, hmem⟩, if_pos rfl]
    · have hnone : d.ring w k = {} := kget_of_no_key _ _ _ (fun e he hkey => hmem (List.mem_map.2 ⟨e, List.mem_filter.2 ⟨he, ?_⟩, ?_⟩))
      · rw [if_neg (fun h => hmem h.2), if_pos rfl, hnone]
        rfl
      · rw [beq_iff_eq, hkey, ringKey]; omega
      · rw [hkey, ringKey]; omega
  · rw [if_neg (fun h => hw h.1), if_neg hw]

/-- A Vitrine begins to leave its tenancy: it is DEACCESSIONING, and its lock ends (R291, R401). -/
def Dev.leaves (d : Dev) (v : VitId) : Dev :=
  let e := d.vitState v .deaccessioning
  if (e.vit v).tspLocked then (e.setVit v (fun t => { t with tspLocked := false })).postVit 0x0306 v v.toNat 0 else e

theorem Dev.leaves_only (d : Dev) (v : VitId) : Only [.vits, .cat] d (d.leaves v) := by
  have hstate : Only [.vits, .cat] d (d.vitState v .deaccessioning) := (Only.refl _ d).vitState _ _ (by simp) (by simp)
  exact ((hstate.setVit _ _ (by simp)).postVit _ _ _ _ (by simp)).ite hstate

theorem Dev.leaves_sameCount (d : Dev) (v : VitId) : d.sameCount (d.leaves v) := by
  have hstate := d.vitState_sameCount v .deaccessioning
  rw [Dev.leaves]
  split
  · exact (hstate.trans (f := (d.vitState v .deaccessioning).setVit v (fun t => { t with tspLocked := false })) ⟨rfl, rfl⟩).trans (Dev.postVit_sameCount _ _ _ _ _)
  · exact hstate

theorem Dev.vit_leaves (d : Dev) (v : VitId) : (d.leaves v).vit v = { d.vit v with st := .deaccessioning, tspLocked := false } := by
  rw [Dev.leaves, Dev.vit_vitState]
  dsimp only
  split
  · rw [Dev.vit, Dev.postVit_vits, ← Dev.vit, Dev.vit_setVit, Dev.vit_vitState]
  next h => rw [Dev.vit_vitState, ← Bool.eq_false_iff.2 h]

theorem Dev.vit_leaves_ne (d : Dev) {v w : VitId} (h : w ≠ v) : (d.leaves v).vit w = d.vit w := by
  have hstate := Dev.vit_vitState_ne d v w .deaccessioning h
  rw [Dev.leaves]
  split
  · rw [Dev.vit, Dev.postVit_vits, ← Dev.vit, Dev.vit_setVit_ne _ _ _ _ h, hstate]
  · exact hstate

/-- The machine once a tenancy's deaccession has begun. -/
def Dev.deaccessions (d : Dev) (l : VitId) : Dev :=
  ((d.tenancy l).foldl Dev.endsRings ((d.tenancy l).foldl Dev.leaves (d.setCrate l {}))).setCmd l 2 1

theorem Dev.endsRings_only (d : Dev) (v : VitId) : Only [.srv] d (d.endsRings v) :=
  (Only.refl _ d).foldl _ _ (fun e r => ((Only.refl _ e).setRing v r _ (by simp)).ite (Only.refl _ e))

theorem Dev.vit_deaccessions (d : Dev) (l v : VitId) :
    (d.deaccessions l).vit v = if v ∈ d.tenancy l then { d.vit v with st := .deaccessioning, tspLocked := false } else d.vit v := by
  have hrings : Only [.srv] ((d.tenancy l).foldl Dev.leaves (d.setCrate l {})) ((d.tenancy l).foldl Dev.endsRings ((d.tenancy l).foldl Dev.leaves (d.setCrate l {}))) :=
    (Only.refl _ _).foldl _ _ (fun e w => e.endsRings_only w)
  rw [Dev.deaccessions, Dev.vit_setCmd, hrings.vit (by simp)]
  exact Dev.foldl_each Dev.vit Dev.leaves (fun t => { t with st := .deaccessioning, tspLocked := false }) (fun _ => rfl) (fun e w => e.vit_leaves w)
    (fun e w v h => e.vit_leaves_ne h) (d.tenancy l) (d.setCrate l {}) v

theorem Dev.ring_deaccessions (d : Dev) (l v : VitId) {r : Nat} (hr : r < 2048) :
    (d.deaccessions l).ring v r = if v ∈ d.tenancy l then (d.ring v r).ends else d.ring v r := by
  have hleaves : Only [.vits, .cat] (d.setCrate l {}) ((d.tenancy l).foldl Dev.leaves (d.setCrate l {})) := (Only.refl _ _).foldl _ _ (fun e w => e.leaves_only w)
  have hring : ((d.tenancy l).foldl Dev.leaves (d.setCrate l {})).ring v r = d.ring v r := by
    rw [Dev.ring, hleaves.srv (by simp)]; rfl
  rw [← hring]
  refine Dev.foldl_each (fun e w => e.ring w r) Dev.endsRings Ring.ends Ring.ends_ends (fun e w => ?_) (fun e w v h => ?_) (d.tenancy l) _ v
  · rw [e.ring_endsRings w w hr, if_pos rfl]
  · rw [e.ring_endsRings w v hr, if_neg h]

section Deaccession
variable {s : State} {rq : CatReq} {q : Requester} {l : VitId}

theorem tenancyDeaccession_exec (leader : Byte) : exec (.tenancyDeaccession rq leader false) s =
    run s (fun x => x.writeOwn rq 0x3200 2 none 2 leader.toNat) := rfl

theorem special_deaccession (x : X) (l : VitId) :
    x.special 0x3200 2 0 (rowMask 0x3200 2 (BitVec.ofNat 8 l.toNat).toNat) none = some (x.doDeaccession (BitVec.ofNat 8 l.toNat) false) := by
  have hlow : (BitVec.ofNat 8 l.toNat : Byte).toNat < 256 := (BitVec.ofNat 8 l.toNat : Byte).isLt
  have hdrain : (fld (BitVec.ofNat 8 l.toNat : Byte).toNat 8 1 == 1) = false := by
    rw [fld, Nat.shiftRight_eq_div_pow, Nat.div_eq_of_lt hlow]; rfl
  refine (show _ = some (x.doDeaccession (BitVec.ofNat 8 (BitVec.ofNat 8 l.toNat : Byte).toNat) (fld (BitVec.ofNat 8 l.toNat : Byte).toNat 8 1 == 1)) from rfl).trans ?_
  rw [hdrain, ofNat_toNat_self]

theorem leaderOf_byte (l : VitId) : (BitVec.ofNat 5 (BitVec.ofNat 8 l.toNat).toNat : VitId) = l ∧ ¬ 32 ≤ (BitVec.ofNat 8 l.toNat : Byte).toNat := by
  have hl := l.isLt
  have hbyte : (BitVec.ofNat 8 l.toNat : Byte).toNat = l.toNat := by rw [BitVec.toNat_ofNat]; omega
  rw [hbyte, ofNat_toNat_self]
  exact ⟨rfl, by omega⟩

/-- A deaccession begins: every Vitrine is DEACCESSIONING, and every ring in use is being disabled. -/
theorem tenancyDeaccession_begins (h : s.dev.Writes rq q 0x3200 2) (hleads : s.dev.leads l = true)
    (hst : ∀ v ∈ s.dev.tenancy l, (s.dev.vit v).st ≠ .clearing ∧ (s.dev.vit v).st ≠ .deaccessioning) (hjob : (s.dev.job l).st ≠ 4 ∧ (s.dev.job l).st ≠ 5) :
    Completes (.tenancyDeaccession rq (BitVec.ofNat 8 l.toNat) false) s (fun t => Keeps [.cat, .vits, .srv] s t ∧ Accepted rq 1 s t ∧ CmdRow l 2 1 t ∧
      (∀ v, t.dev.vit v = if v ∈ s.dev.tenancy l then { s.dev.vit v with st := .deaccessioning, tspLocked := false } else s.dev.vit v) ∧
      ∀ v ∈ s.dev.tenancy l, ∀ r, r < 2048 → (t.dev.ring v r).st = if (s.dev.ring v r).st = .enabled then .disabling else (s.dev.ring v r).st) := by
  obtain ⟨hl, hin⟩ := leaderOf_byte l
  have hany : (s.dev.tenancy l).any (fun v => (s.dev.vit v).st == .clearing || (s.dev.vit v).st == .deaccessioning) = false :=
    List.any_eq_false.2 (fun v hv => by simp [hst v hv])
  have hdrain : (false || (s.dev.job l).st == 4 || (s.dev.job l).st == 5) = false := by simp [hjob]
  have hends : ∀ (y : X) (v : VitId), (y.dev.ringsOf v).foldl (fun (z : X) r => z.endRing v r false) y = y.on (fun d => d.endsRings v) :=
    fun y v => X.foldl_eq_on _ (fun d r => d.endsRing v r) (fun z r => z.endRing_drain v r) _ y
  have hleaves : Only [.cat, .vits, .srv] s.dev ((s.dev.tenancy l).foldl Dev.leaves (s.dev.setCrate l {})) :=
    ((Only.refl _ _).setCrate _ _ (by simp)).foldl _ _ (fun e v => (e.leaves_only v).mono (by simp))
  have hrings : Only [.srv] ((s.dev.tenancy l).foldl Dev.leaves (s.dev.setCrate l {})) (s.dev.deaccessions l) :=
    ((Only.refl _ _).foldl Dev.endsRings (s.dev.tenancy l) (fun e v => e.endsRings_only v)).setCmd _ _ _ _ (by simp)
  have hcount : s.dev.sameCount ((s.dev.tenancy l).foldl Dev.leaves (s.dev.setCrate l {})) :=
    Dev.sameCount.foldl Dev.leaves (fun e v => e.leaves_sameCount v) (s.dev.tenancy l) (s.dev.setCrate l {})
  obtain ⟨t, hrun, hkeeps, haccepted, hreply⟩ := rowWrite_accepted (l := [.cat, .vits, .srv]) (st := 1)
    (F := fun d => ((s.dev.tenancy l).foldl Dev.endsRings ((s.dev.tenancy l).foldl Dev.leaves (d.setCrate l {}))).setCmd l 2 1)
    (tenancyDeaccession_exec _) writtenRow_deaccession h (by have := (BitVec.ofNat 8 l.toNat : Byte).isLt; omega) ((special_deaccession _ l).trans (congrArg some (by
      simp only [X.doDeaccession, hl, hin, State.view_dev, hleads, hany, hdrain, hends, decide_false, Bool.not_true, Bool.or_self, Bool.false_eq_true, if_false]
      rw [X.foldl_eq_on _ Dev.endsRings (fun _ _ => rfl)]
      rfl))) rfl (hleaves.trans (hrings.mono (by simp))) (hcount.trans (hrings.sameCount (by simp))) (by simp)
  refine ⟨t, hrun, hkeeps, haccepted, ⟨0, ?_⟩, fun v => (hreply.vit v).trans (s.dev.vit_deaccessions l v), fun v hv r hr => ?_⟩
  · rw [hreply.only.srv (by simp)]
    exact Dev.cmd_setCmd _ l 2 1 0
  · have hring : t.dev.ring v r = (s.dev.ring v r).ends := (hreply.ring v r).trans ((s.dev.ring_deaccessions l v hr).trans (if_pos hv))
    rw [hring, Ring.ends]
    split <;> rfl

theorem tenancyDeaccession_range (h : s.dev.Writes rq q 0x3200 2) (hleads : s.dev.leads l = false) :
    Completes (.tenancyDeaccession rq (BitVec.ofNat 8 l.toNat) false) s (Refused rq 2 s) := by
  obtain ⟨hl, hin⟩ := leaderOf_byte l
  refine rowWrite_refused (tenancyDeaccession_exec _) writtenRow_deaccession h (by have := (BitVec.ofNat 8 l.toNat : Byte).isLt; omega) ((special_deaccession _ l).trans (congrArg some ?_)) rfl
  simp only [X.doDeaccession, hl, State.view_dev, hleads, Bool.not_false, Bool.or_true, if_true]
  rfl

end Deaccession

/-- Settles O54: each of its commands has its own lemmas above. The tenancy commands are writes of one row (`rowWrite_accepted`, `rowWrite_refused`), a cleared Vitrine is
what `X.clearVit` leaves, and what a completion may change of a ring is said once (`Posts`). -/
theorem tenanciesAndRingsBeginAndEnd : Obligations.TenanciesAndRingsBeginAndEnd := by
  intro s rq q
  refine ⟨fun hw mask l hl => ⟨tenancyAssign_begins hw hl, tenancyAssign_busy hw, tenancyAssign_range hw⟩, fun v l hl hwf => ⟨fun hst => ?assigns, clearingDone_frees hl⟩,
    fun v r val o ho hheld => ⟨fun hst htype => ?tail, cqHead_moves ho.symm hheld⟩, fun v r => ringDisableDone_disables rfl, fun v l r o x y n raw ho hx hst hmore hfree hlead hthawed
      hvit hserves htype hopen hroom hread hraw => ?fetch, fun hw l => ⟨fun hleads hst h4 h5 => tenancyDeaccession_begins hw hleads hst ⟨h4, h5⟩, tenancyDeaccession_range hw⟩⟩
  case assigns =>
    obtain ⟨t, hrun, hkeeps, ⟨hassigned, hleader, hsteps, hpinned, hrings, hcnt, hwindow, hpad, hothers, hhost⟩, hcmd⟩ := clearingDone_assigns hl hst
    exact ⟨t, hrun, hkeeps, hassigned, hleader, hsteps, hpinned, hrings, hcnt, hwindow, hpad, hothers, hhost, hcmd⟩
  case tail =>
    exact ⟨sqTail_moves ho.symm hheld hst htype, sqTail_ignored ho.symm hheld hst htype, sqTail_beyond ho.symm hheld hst htype⟩
  case fetch =>
    subst hx
    exact ⟨descriptorFetch_inSequence ho.symm hst hmore hfree hlead hthawed hvit hserves htype hopen hroom hread hraw,
      descriptorFetch_repeated ho.symm hst hmore hfree hlead hthawed hvit hserves htype hopen hroom hread hraw⟩
end Sys2Proof.Machine

namespace Sys2Proof.Machine

/-! ### Crates (O55) -/

/-! #### A write that brings a crate, or changes memory -/

/-- A served request, with the crate it brings, is answered with the status and the bytes of its service (R302, R303). -/
theorem X.request_serves_with {x y : X} {q : Requester} {op st : Nat} {h : PduHead} {data out : List Byte} {crate : Option CrateInfo} (hs : x.dev.Serves h.port h.seq q)
    (hserve : x.serveReq q op h data crate = (y, st, out)) (hpub : y.dev.cat.published = true) :
    x.request op h data crate = y.on (fun d => (d.keep h.port h.seq { port := h.port, opcode := op, status := st, seq := h.seq, data := out }).respond
      { port := h.port, opcode := op, status := st, seq := h.seq, data := out }) := by
  obtain ⟨hp, hproc, hanon, hreq, hauth, hseq⟩ := hs
  have hnew : ¬ (q.lastSeq == some h.seq && q.kept.isSome) = true := fun hsame => by
    have hlast := hseq h.seq (beq_iff_eq.1 (Bool.and_eq_true_iff.1 hsame).1)
    bv_omega
  have hnext : (match q.lastSeq with | some n => n + 1 != h.seq | none => false) = false := by
    split
    next n hn => simp [hseq n hn]
    next => rfl
  simp only [X.request, hp, beq_iff_eq, hproc, hanon, hreq, hauth, if_neg hnew, Bool.not_true, Bool.false_eq_true, if_false]
  refine (if_neg (Bool.eq_false_iff.1 hnext)).trans ?_
  simp only [hserve, hpub, Bool.not_true, Bool.false_eq_true, if_false]

/-- A served write of one row, with the crate it brings, comes to what the row's effect is, and the answer. -/
theorem X.writeOwn_takes {x y : X} {rq : CatReq} {q : Requester} {index sub bytes val st : Nat} {row : Option Nat} {crate : Option CrateInfo}
    (hw : WrittenRow index sub row bytes) (h : x.dev.Writes rq q index sub) (hval : val < 256 ^ bytes)
    (hspecial : x.special index sub (row.getD 0) (rowMask index sub val) crate = some (y, st)) (hpub : y.dev.cat.published = true) :
    x.writeOwn rq index sub row bytes val crate = y.on (fun d => (d.settled st).answer rq st) := by
  obtain ⟨hserves, t, ht, hmay⟩ := h
  have hix : (BitVec.ofNat 16 index).toNat = index := Nat.mod_eq_of_lt hw.index_lt
  have hsb : (BitVec.ofNat 8 sub).toNat = sub := Nat.mod_eq_of_lt hw.sub_lt
  have haccess : (t.access == 4 && (x.dev.proc 1).st == 1) = false := by simp [(hw.entry t ht).1]
  have hrows : (if (t.ty == 12) = true then rowsAt t (rowHead rq index sub row bytes).offset.toNat (leBytes val bytes)
      else if ((rowHead rq index sub row bytes).offset != 0 || (leBytes val bytes).length != t.rowBytes) = true then none
        else some [(0, leNat (leBytes val bytes))]) = some [(row.getD 0, val)] := by
    have hnat : leNat (leBytes val bytes) = val := (leNat_leBytes val bytes).trans (Nat.mod_eq_of_lt hval)
    exact ((hw.entry t ht).2 _ (length_leBytes val bytes)).trans (by rw [hnat])
  have hlen : ((rowHead rq index sub row bytes).length.toNat != (leBytes val bytes).length) = false := by
    rw [length_leBytes, show (rowHead rq index sub row bytes).length.toNat = bytes from Nat.mod_eq_of_lt hw.bytes_lt]; simp
  have happly : x.applyRows index sub crate [(row.getD 0, rowMask index sub val)] = (y, st) := by
    simp only [X.applyRows, hspecial]
    split
    · rfl
    · simp [stOk]
  have hcommit : x.commit q.role t { index := BitVec.ofNat 16 index, sub := BitVec.ofNat 8 sub } [(row.getD 0, val)] crate = (y.on (fun d => d.settled st), st) := by
    simp only [X.commit, hix, hsb, haccess, List.map_cons, List.map_nil, hspecial, Option.isSome_some, if_true, happly, hpub, Bool.not_true, Bool.false_eq_true, if_false,
      Dev.settled]
    split
    · rfl
    · rfl
  have hserve : x.serveReq q 2 (rowHead rq index sub row bytes) (leBytes val bytes) crate = (y.on (fun d => d.settled st), st, []) := by
    have hmay' : x.dev.writeRefusal (rowHead rq index sub row bytes).port q.role t (rowHead rq index sub row bytes).entry = none := hmay
    have hcommit' : x.commit q.role t (rowHead rq index sub row bytes).entry [(row.getD 0, val)] crate = (y.on (fun d => d.settled st), st) := hcommit
    have hix' : (rowHead rq index sub row bytes).entry.index.toNat = index := hix
    have hsb' : (rowHead rq index sub row bytes).entry.sub.toNat = sub := hsb
    show x.serveWrite q.role _ _ _ = _
    simp only [X.serveWrite, hix', hsb', ht, hmay', hlen, Bool.false_eq_true, if_false, hrows, hcommit']
  have hpub' : (y.on (fun d => d.settled st)).dev.cat.published = true := by
    rw [X.on_dev, Dev.settled]
    split
    · exact hpub
    · exact hpub
  exact X.request_serves_with hserves hserve hpub'

end Sys2Proof.Machine

namespace Sys2Proof.Machine

/-! #### TENANCY_CRATE (R292, R295) -/

theorem writtenRow_crate : WrittenRow 0x3200 3 none 24 := writtenRow_whole (by decide) (by decide) (by decide) (by decide +kernel)

/-- The value of a TENANCY_CRATE operation (R292): leader, operation, flags and buffer. -/
def crateRow (l : VitId) (op : Nat) (memory : Bool) (buf : HostBuf) : Nat :=
  packRow [(l.toNat, 1), (op, 1), ((if memory then 1 else 0), 2), (0, 4), (buf.addr.toNat, 8), (buf.len.toNat, 8)]

/-- The fields of a TENANCY_CRATE operation read back. -/
structure CrateFields (l : VitId) (op : Nat) (memory : Bool) (buf : HostBuf) (val : Nat) : Prop where
  lt : val < 256 ^ 24
  leader : BitVec.ofNat 5 (val % 32) = l
  leader_lt : ¬ 32 ≤ val % 256
  op : fld val 8 8 = op
  memory : (fld val 16 1 == 1) = memory
  buf : ({ addr := BitVec.ofNat 64 (fld val 64 64), len := BitVec.ofNat 64 (fld val 128 64) } : HostBuf) = buf

theorem crateRow_fields (l : VitId) {op : Nat} (hop : op < 256) (memory : Bool) (buf : HostBuf) : CrateFields l op memory buf (crateRow l op memory buf) := by
  obtain ⟨addr, len⟩ := buf
  have hl := l.isLt
  have ha := addr.isLt
  have hn := len.isLt
  obtain ⟨m, hm, hbit⟩ : ∃ m, (if memory = true then 1 else 0) = m ∧ m = if memory = true then 1 else 0 := ⟨_, rfl, rfl⟩
  have hm1 : m ≤ 1 := by rw [hbit]; split <;> decide
  have hval : crateRow l op memory ⟨addr, len⟩ = l.toNat + 256 * op + 65536 * m + 2 ^ 64 * addr.toNat + 2 ^ 128 * len.toNat := by
    simp only [crateRow, packRow, hm]
    norm_num
    omega
  rw [hval]
  refine ⟨?_, ?_, ?_, ?_, ?_, ?_⟩
  · norm_num; omega
  · have hlow : (l.toNat + 256 * op + 65536 * m + 2 ^ 64 * addr.toNat + 2 ^ 128 * len.toNat) % 32 = l.toNat := by norm_num; omega
    rw [hlow, ofNat_toNat_self]
  · norm_num; omega
  · rw [fld, Nat.shiftRight_eq_div_pow]; norm_num; omega
  · have hflag : fld (l.toNat + 256 * op + 65536 * m + 2 ^ 64 * addr.toNat + 2 ^ 128 * len.toNat) 16 1 = m := by
      rw [fld, Nat.shiftRight_eq_div_pow]; norm_num; omega
    rw [hflag, hbit]
    cases memory <;> rfl
  · have haddr : fld (l.toNat + 256 * op + 65536 * m + 2 ^ 64 * addr.toNat + 2 ^ 128 * len.toNat) 64 64 = addr.toNat := by
      rw [fld, Nat.shiftRight_eq_div_pow]; norm_num; omega
    have hlen : fld (l.toNat + 256 * op + 65536 * m + 2 ^ 64 * addr.toNat + 2 ^ 128 * len.toNat) 128 64 = len.toNat := by
      rw [fld, Nat.shiftRight_eq_div_pow]; norm_num; omega
    rw [haddr, hlen, ofNat_toNat_self, ofNat_toNat_self]

section CrateCommand
variable {i : Instr} {s : State} {rq : CatReq} {q : Requester} {l : VitId} {op : Nat} {memory : Bool} {buf : HostBuf} {crate : Option CrateInfo} {y : X}
variable (hexec : exec i s = run s (fun x => x.writeCrate rq l op memory buf crate)) (h : s.dev.Writes rq q 0x3200 3) (hop : op < 256)
include hexec h hop

/-- A tenancy's crate operation that is accepted is answered IN_PROGRESS with what it has done (R292, log 51). -/
theorem crateCommand_accepted (hdo : s.view.doCrate (crateRow l op memory buf) crate = (y, stProgress)) (hfrom : y.From s) (hcount : s.dev.sameCount y.dev) :
    Completes i s (fun t => ∃ e, t = { s with dev := e, mem := y.mem } ∧ Dev.Replied y.dev e ∧ Accepted rq 1 s t) := by
  have hpub : y.dev.cat.published = true := hcount.1.trans h.1.1
  refine completes_view hexec (X.writeOwn_takes writtenRow_crate h (crateRow_fields l hop memory buf).lt (congrArg some hdo) hpub) (hfrom.on _) (fun e m he hm => ?_)
  subst he hm
  obtain ⟨hout, -, -, hgen⟩ := (y.dev.settled stProgress).answer_cat rq stProgress
  refine ⟨_, rfl, y.dev.replied_settled_answer rq stProgress, hout, hgen.trans ?_⟩
  rw [← hcount.2]
  rfl

/-- A crate operation that is refused is answered with its status and changes nothing. -/
theorem crateCommand_refused {st : Nat} (hcrate : crate = none) (hdo : s.view.doCrate (crateRow l op memory buf) crate = (s.view, st))
    (hst : (st != stOk && st != stProgress) = true) : Completes i s (Refused rq st s) := by
  subst hcrate
  exact rowWrite_refused hexec writtenRow_crate h (crateRow_fields l hop memory buf).lt (congrArg some hdo) hst

end CrateCommand

end Sys2Proof.Machine

namespace Sys2Proof.Machine

/-! #### FREEZE and THAW (R292) -/

theorem Dev.vit_foldl_vitState (d : Dev) (st : VitSt) (vs : List VitId) (v : VitId) :
    (vs.foldl (fun (e : Dev) w => e.vitState w st) d).vit v = if v ∈ vs then { d.vit v with st := st } else d.vit v :=
  Dev.foldl_each Dev.vit (fun e w => e.vitState w st) (fun t => { t with st := st }) (fun _ => rfl) (fun e w => Dev.vit_vitState e w st)
    (fun e w v h => Dev.vit_vitState_ne e w v st h) vs d v

theorem Dev.foldl_vitState_only (d : Dev) (st : VitSt) (vs : List VitId) : Only [.vits, .cat] d (vs.foldl (fun (e : Dev) w => e.vitState w st) d) :=
  (Only.refl _ _).foldl _ _ (fun e w => (Only.refl _ e).vitState _ _ (by simp) (by simp))

theorem Dev.foldl_vitState_sameCount (d : Dev) (st : VitSt) (vs : List VitId) : d.sameCount (vs.foldl (fun (e : Dev) w => e.vitState w st) d) :=
  Dev.sameCount.foldl (fun (e : Dev) w => e.vitState w st) (fun e w => e.vitState_sameCount w st) vs d

theorem Dev.tenancy_foldl_vitState (d : Dev) (st : VitSt) (vs : List VitId) (l : VitId) : (vs.foldl (fun (e : Dev) w => e.vitState w st) d).tenancy l = d.tenancy l :=
  Dev.tenancy_of_leaders (fun w => by rw [Dev.vit_foldl_vitState]; split <;> rfl) l

/-- An event of a tenancy of whose Vitrines none has its ring 0 enabled is not entered (R270). -/
theorem X.ringEvent_disabled (x : X) {l : VitId} (h : ∀ v ∈ x.dev.tenancy l, (x.dev.ring v 0).st = .disabled) (status detail : Nat) : x.ringEvent l status detail = x := by
  have hlist : ∀ vs : List VitId, (∀ v ∈ vs, (x.dev.ring v 0).st = .disabled) → vs.foldl (fun (y : X) v =>
      let q := y.dev.ring v 0
      if q.st != .disabled then
        if 0 < q.cqFree then y.postCq v 0 (y.dev.cat.evNext - 1) detail 0 0xFF status true
        else y.on (fun d => d.count 0x801A 7 v.toNat)
      else y) x = x := by
    intro vs
    induction vs with
    | nil => exact fun _ => rfl
    | cons v vs ih =>
      intro hvs
      have hno : ((x.dev.ring v 0).st != .disabled) = false := by rw [hvs v (by simp)]; rfl
      simp only [List.foldl_cons, hno, Bool.false_eq_true, if_false]
      exact ih (fun w hw => hvs w (by simp [hw]))
  exact hlist _ h

section Freeze
variable {s : State} {rq : CatReq} {q : Requester} {l : VitId}

/-- The machine once a freeze has begun. -/
def Dev.freezes (d : Dev) (l : VitId) (boundary : Bool) : Dev := (d.setCrate l { freezing := true, boundary }).setCmd l 3 1

theorem Dev.freezes_only (d : Dev) (l : VitId) (boundary : Bool) : Only [.srv] d (d.freezes l boundary) :=
  ((Only.refl _ d).setCrate _ _ (by simp)).setCmd _ _ _ _ (by simp)

/-- A step of the tenancy that may be asked to stop at its safe point (R278). -/
def StepRec.asked (l : VitId) (u : StepRec) : StepRec :=
  if u.leader = l ∧ u.st ≠ .saved ∧ u.st ≠ .saving ∧ descPreempt u.raw ≠ 0 then { u with stopAsked := true } else u

section Begins
variable (h : s.dev.Writes rq q 0x3200 3) (hleads : s.dev.leads l = true) (hall : s.dev.allIn l .assigned = true) (hthawed : (s.dev.crate l).freezing = false)
include h hleads hall hthawed

/-- FREEZE_SAFE stops fetching and asks the tenancy's running steps to stop at their safe points. -/
theorem freezeSafe_begins : Completes (.freezeSafe rq l) s (fun t => Keeps [.cat, .srv] s t ∧ Accepted rq 1 s t ∧ CmdRow l 3 1 t ∧
    t.dev.crate l = { freezing := true, boundary := false } ∧ t.dev.srv.steps = s.dev.srv.steps.map (StepRec.asked l)) := by
  have hfields := crateRow_fields l (op := 1) (by decide) false { addr := 0, len := 0 }
  have hask : (fun (u : StepRec) => if (u.leader == l && u.st != .saved && u.st != .saving && descPreempt u.raw != 0) = true then { u with stopAsked := true } else u) =
      StepRec.asked l := by
    funext u
    simp only [StepRec.asked, Bool.and_eq_true, beq_iff_eq, bne_iff_ne, and_assoc]
  obtain ⟨t, hrun, hkeeps, haccepted, hreply⟩ := rowWrite_accepted (l := [.cat, .srv]) (st := 1)
    (F := fun d => (d.freezes l false).onSrv (fun q => { q with steps := q.steps.map (StepRec.asked l) }))
    (show exec (.freezeSafe rq l) s = run s (fun x => x.writeOwn rq 0x3200 3 none 24 (crateRow l 1 false { addr := 0, len := 0 })) from rfl) writtenRow_crate h hfields.lt
    (show some (s.view.doCrate (crateRow l 1 false { addr := 0, len := 0 }) none) = _ by
      simp only [X.doCrate, hfields.leader_lt, hfields.leader, hfields.op, X.doFreeze, State.view_dev, hleads, hall, hthawed, Bool.not_true, Bool.or_self, Bool.false_eq_true, if_false, hask]
      rfl)
    rfl (((s.dev.freezes_only l false).onSrv _ (by simp)).mono (by simp)) ⟨rfl, rfl⟩ (by simp)
  have hsrv := hreply.only.srv (by simp)
  refine ⟨t, hrun, hkeeps, haccepted, ⟨0, ?_⟩, ?_, ?_⟩
  · rw [hsrv]; exact Dev.cmd_setCmd _ l 3 1 0
  · rw [Dev.crate, hsrv]; exact kget_kset _ _ _ _
  · rw [hsrv]; rfl

/-- FREEZE_BOUNDARY stops fetching and lets the steps end. -/
theorem freezeBoundary_begins : Completes (.freezeBoundary rq l) s (fun t => Keeps [.cat, .srv] s t ∧ Accepted rq 1 s t ∧ CmdRow l 3 1 t ∧
    t.dev.crate l = { freezing := true, boundary := true } ∧ t.dev.srv.steps = s.dev.srv.steps) := by
  have hfields := crateRow_fields l (op := 2) (by decide) false { addr := 0, len := 0 }
  obtain ⟨t, hrun, hkeeps, haccepted, hreply⟩ := rowWrite_accepted (l := [.cat, .srv]) (st := 1) (F := fun d => d.freezes l true)
    (show exec (.freezeBoundary rq l) s = run s (fun x => x.writeOwn rq 0x3200 3 none 24 (crateRow l 2 false { addr := 0, len := 0 })) from rfl) writtenRow_crate h hfields.lt
    (show some (s.view.doCrate (crateRow l 2 false { addr := 0, len := 0 }) none) = _ by
      simp only [X.doCrate, hfields.leader_lt, hfields.leader, hfields.op, X.doFreeze, State.view_dev, hleads, hall, hthawed, Bool.not_true, Bool.or_self, Bool.false_eq_true, if_false, if_true]
      rfl)
    rfl ((s.dev.freezes_only l true).mono (by simp)) ⟨rfl, rfl⟩ (by simp)
  have hsrv := hreply.only.srv (by simp)
  refine ⟨t, hrun, hkeeps, haccepted, ⟨0, ?_⟩, ?_, ?_⟩
  · rw [hsrv]; exact Dev.cmd_setCmd _ l 3 1 0
  · rw [Dev.crate, hsrv]; exact kget_kset _ _ _ _
  · rw [hsrv]; rfl

end Begins

/-- A Vitrine that leads no tenancy can neither be frozen nor thawed. -/
theorem crate_of_no_leader {i : Instr} (h : s.dev.Writes rq q 0x3200 3) (hleads : s.dev.leads l = false) {op : Nat} (hop : op = 1 ∨ op = 2 ∨ op = 5)
    (hexec : exec i s = run s (fun x => x.writeCrate rq l op false { addr := 0, len := 0 } none)) : Completes i s (Refused rq 2 s) := by
  have hfields := crateRow_fields l (op := op) (by omega) false { addr := 0, len := 0 }
  refine crateCommand_refused hexec h (by omega) rfl ?_ rfl
  rcases hop with rfl | rfl | rfl <;>
    simp only [X.doCrate, hfields.leader_lt, hfields.leader, hfields.op, X.doFreeze, X.doThaw, State.view_dev, hleads, Bool.not_false, if_false, if_true] <;> rfl

section Disabled
variable (hrings : ∀ v ∈ s.dev.tenancy l, (s.dev.ring v 0).st = .disabled)
include hrings

/-- A pass over the tenancy's Vitrines enters no event. -/
theorem ringEvent_foldl_vitState (d : Dev) (st : VitSt) (vs : List VitId) (hleaders : d.tenancy l = s.dev.tenancy l) (hsrv : d.srv.rings = s.dev.srv.rings) (x : X)
    (hx : x.dev = vs.foldl (fun (e : Dev) w => e.vitState w st) d) (status detail : Nat) : x.ringEvent l status detail = x := by
  refine x.ringEvent_disabled (fun v hv => ?_) status detail
  rw [hx, Dev.tenancy_foldl_vitState, hleaders] at hv
  rw [hx, Dev.ring, (Dev.foldl_vitState_only d st vs).srv (by simp), hsrv]
  exact hrings v hv

/-- Once nothing of the tenancy runs, its Vitrines are FROZEN and the command ends. -/
theorem freezeDone_freezes (hfreezing : (s.dev.crate l).freezing = true) (hall : s.dev.allIn l .assigned = true)
    (hsteps : ∀ u ∈ s.dev.srv.steps, u.leader = l → u.st = .saved ∧ (s.dev.crate l).boundary = false)
    (hidle : ∀ v ∈ s.dev.tenancy l, ∀ r ∈ s.dev.ringsOf v, (s.dev.ring v r).type = 0 ∨ ∀ f ∈ (s.dev.ring v r).fetched, f.done ≠ none) :
    Completes (.freezeDone l) s (fun t => Keeps [.cat, .vits, .srv] s t ∧ CmdRow l 3 0 t ∧ (t.dev.crate l).freezing = false ∧
      ∀ v, t.dev.vit v = if v ∈ s.dev.tenancy l then { s.dev.vit v with st := .frozen } else s.dev.vit v) := by
  have hexec : exec (.freezeDone l) s = execFreezeDone l s := rfl
  have hstepsOk : s.dev.srv.steps.all (fun t => t.leader != l || (t.st == .saved && !(s.dev.crate l).boundary)) = true := by
    refine List.all_eq_true.2 (fun u hu => ?_)
    by_cases hl : u.leader = l
    · obtain ⟨hst, hsafe⟩ := hsteps u hu hl
      simp [hst, hsafe]
    · simp [hl]
  have hbusy : (s.dev.tenancy l).any (fun v => (s.dev.ringsOf v).any (fun r => (s.dev.ring v r).type != 0 && (s.dev.ring v r).fetched.any (fun f => f.done.isNone))) = false := by
    refine List.any_eq_false.2 (fun v hv => ?_)
    rw [Bool.not_eq_true, List.any_eq_false]
    intro r hr
    rcases hidle v hv r hr with htype | hdone
    · simp [htype]
    · simpa [Option.isNone_iff_eq_none] using fun _ => hdone
  have hevent := ringEvent_foldl_vitState hrings (s.dev.setCrate l {}) .frozen (s.dev.tenancy l) rfl rfl
  refine completes_on (fun d => ((s.dev.tenancy l).foldl (fun (e : Dev) v => e.vitState v .frozen) (d.setCrate l {})).endCmd l 3 0) hexec ?_ ⟨?_, ⟨0, Dev.cmd_endCmd _ l 3 0 0⟩, ?_, fun v => ?_⟩
  · simp only [hfreezing, hstepsOk, hbusy, hall, Bool.not_true, Bool.or_self, Bool.false_eq_true, if_false]
    rw [hevent _ rfl, X.on_on]
  · exact (((((Only.refl _ _).setCrate _ _ (by simp)).trans ((Dev.foldl_vitState_only _ _ _).mono (by simp))).endCmd _ _ _ _ (by simp) (by simp))).keeps
  · have hend : Only [.vits, .cat] (s.dev.setCrate l {}) ((s.dev.tenancy l).foldl (fun (e : Dev) v => e.vitState v .frozen) (s.dev.setCrate l {})) := Dev.foldl_vitState_only _ _ _
    have hcrate : ((((s.dev.tenancy l).foldl (fun (e : Dev) v => e.vitState v .frozen) (s.dev.setCrate l {})).endCmd l 3 0).crate l) = (s.dev.setCrate l {}).crate l := by
      rw [Dev.crate, Dev.crate, ← hend.srv (by simp), Dev.endCmd, Dev.postVit_srv]
      rfl
    rw [hcrate, Dev.crate, Dev.setCrate, Dev.onSrv, kget_kset]
  · exact (Dev.vit_endCmd _ l v 3 0 0).trans (Dev.vit_foldl_vitState _ .frozen _ v)

/-- THAW lets a frozen tenancy run. -/
theorem thaw_runs (h : s.dev.Writes rq q 0x3200 3) (hleads : s.dev.leads l = true) (hall : s.dev.allIn l .frozen = true) :
    Completes (.thaw rq l) s (fun t => Keeps [.cat, .vits, .srv] s t ∧ Accepted rq 1 s t ∧ CmdRow l 3 0 t ∧
      ∀ v, t.dev.vit v = if v ∈ s.dev.tenancy l then { s.dev.vit v with st := .assigned } else s.dev.vit v) := by
  have hfields := crateRow_fields l (op := 5) (by decide) false { addr := 0, len := 0 }
  have hevent := ringEvent_foldl_vitState hrings s.dev .assigned (s.dev.tenancy l) rfl rfl
  have honly := Dev.foldl_vitState_only s.dev .assigned (s.dev.tenancy l)
  obtain ⟨t, hrun, hkeeps, haccepted, hreply⟩ := rowWrite_accepted (l := [.cat, .vits, .srv]) (st := 1)
    (F := fun d => ((d.tenancy l).foldl (fun (e : Dev) v => e.vitState v .assigned) d).endCmd l 3 0)
    (show exec (.thaw rq l) s = run s (fun x => x.writeOwn rq 0x3200 3 none 24 (crateRow l 5 false { addr := 0, len := 0 })) from rfl) writtenRow_crate h hfields.lt
    (show some (s.view.doCrate (crateRow l 5 false { addr := 0, len := 0 }) none) = _ by
      simp only [X.doCrate, hfields.leader_lt, hfields.leader, hfields.op, X.doThaw, State.view_dev, hleads, hall, Bool.not_true, Bool.false_eq_true, if_false]
      rw [hevent _ rfl, X.on_on]; rfl)
    rfl ((honly.mono (by simp)).endCmd _ _ _ _ (by simp) (by simp)) ((Dev.foldl_vitState_sameCount _ _ _).trans (Dev.endCmd_sameCount _ _ _ _ _)) (by simp)
  refine ⟨t, hrun, hkeeps, haccepted, ⟨0, ?_⟩, fun v => ?_⟩
  · rw [hreply.only.srv (by simp)]
    exact Dev.cmd_endCmd _ l 3 0 0
  · rw [hreply.vit, Dev.vit_endCmd, Dev.vit_foldl_vitState]

end Disabled
end Freeze
end Sys2Proof.Machine

namespace Sys2Proof.Machine

/-! #### SAVE (R292-R294) -/

theorem length_dirEntry (ss : List CSec) (e : CSec × Nat) : (dirEntry ss e).length = 32 := by
  simp only [dirEntry, List.length_append, length_leBytes]

theorem length_directory (ss : List CSec) : (ss.zipIdx.flatMap (dirEntry ss)).length = 32 * ss.length := by
  simp only [List.length_flatMap, length_dirEntry, List.map_const', List.sum_replicate, List.length_zipIdx, smul_eq_mul, Nat.mul_comm]

/-- The header and the directory come before every section. -/
theorem clear_le_secOffset (ss : List CSec) (n i : Nat) : (leBytes n 128 ++ ss.zipIdx.flatMap (dirEntry ss)).length ≤ secOffset ss i := by
  rw [List.length_append, length_leBytes, length_directory, secOffset]
  exact Nat.le_add_right _ _

section Save
variable {s : State} {rq : CatReq} {q : Requester} {l : VitId} {memory : Bool} {buf : HostBuf} {ss : List CSec} {clear : List Byte}

/-- A crate as its file begins, and then its sections' bytes, have been put in the host's memory. -/
def X.putsCrate (x : X) (a n : Nat) (clear : List Byte) (need : Nat) : X :=
  (x.putBytes .host a clear).putBytes .host (a + clear.length) ((List.range (need - clear.length)).map (Config.fileByte n))

theorem X.putsCrate_from {x : X} (h : x.From s) (a n : Nat) (clear : List Byte) (need : Nat) : (x.putsCrate a n clear need).From s := (h.putBytes _ _ _).putBytes _ _ _
theorem X.dev_putsCrate (x : X) (a n : Nat) (clear : List Byte) (need : Nat) : (x.putsCrate a n clear need).dev = x.dev :=
  (X.dev_putBytes _ _ _ _).trans (X.dev_putBytes _ _ _ _)

/-- The bytes of a crate put: the clear ones read back, and none beyond its length nor of another memory has changed. -/
theorem X.byte_putsCrate (x : X) (hwf : Memory.wf x.mem = true) (a n : Nat) {clear : List Byte} {need : Nat} (hlen : clear.length ≤ need) :
    (∀ i, i < clear.length → (x.putsCrate a n clear need).mem.byte .host (a + i) = clear[i]?.getD 0) ∧
    (∀ k, k < a ∨ a + need ≤ k → (x.putsCrate a n clear need).mem.byte .host k = x.mem.byte .host k) ∧
    ∀ k, (x.putsCrate a n clear need).mem.byte .hbm k = x.mem.byte .hbm k := by
  obtain ⟨-, -, hfirst⟩ := x.putBytes_keeps .host a clear
  obtain ⟨-, -, hsecond⟩ := (x.putBytes .host a clear).putBytes_keeps .host (a + clear.length) ((List.range (need - clear.length)).map (Config.fileByte n))
  rw [List.length_map, List.length_range] at hsecond
  refine ⟨fun i hi => ?_, fun k hk => ?_, fun k => ?_⟩
  · rw [X.putsCrate, hsecond _ _ (.inr (by omega))]
    exact x.byte_putBytes .host a clear hwf i hi
  · rw [X.putsCrate, hsecond _ _ (.inr (by omega)), hfirst _ _ (.inr (by omega))]
  · rw [X.putsCrate, hsecond _ _ (.inl (by decide)), hfirst _ _ (.inl (by decide))]

/-- The machine with one more free value drawn. -/
def Dev.drawn (d : Dev) : Dev := { d with fresh := d.fresh + 1 }

theorem Dev.drawn_only (d : Dev) : Only [.fresh] d d.drawn := (Only.refl _ d).with_fresh _ (by simp)

/-- The machine once a crate has been saved: its steps' contexts are kept under its number, and the command ends. -/
def Dev.crateSaved (d : Dev) (l : VitId) (n : Nat) : Dev :=
  (d.onSrv (fun t => { t with crates := kset t.crates n (d.srv.steps.filter (fun u => u.leader == l)) })).endCmd l 3 0

/-- What SAVE of a frozen tenancy comes to (R292, R294). -/
theorem X.doSave_frozen (x : X) (hleads : x.dev.leads l = true) (hall : x.dev.allIn l .frozen = true) (hss : x.dev.sections l memory x.dev.fresh = ss) :
    x.doSave l memory buf = if buf.len.toNat < secOffset ss ss.length then (x.on (fun d => d.drawn.endCmd l 3 7 (secOffset ss ss.length)), stProgress)
      else (((x.on Dev.drawn).putsCrate buf.addr.toNat x.dev.fresh (leBytes (x.dev.crateHead l memory x.dev.fresh ss) 128 ++ ss.zipIdx.flatMap (dirEntry ss)) (secOffset ss ss.length)).on
        (fun d => d.crateSaved l x.dev.fresh), stProgress) := by
  have hdrawn : ∀ n, ({ x.dev with fresh := n } : Dev).sections l memory x.dev.fresh = ss := fun n => hss ▸ rfl
  have hhead : ∀ n, ({ x.dev with fresh := n } : Dev).crateHead l memory x.dev.fresh ss = x.dev.crateHead l memory x.dev.fresh ss := fun n => rfl
  simp only [X.doSave, hleads, hall, Bool.not_true, Bool.false_eq_true, if_false, Dev.draw, hdrawn, hhead]
  have hview : ({ x with dev := { x.dev with fresh := x.dev.fresh + 1 } } : X) = x.on Dev.drawn := rfl
  have hsaved : ∀ z : X, z.on (fun d => (d.onSrv (fun t => { t with crates := kset t.crates x.dev.fresh (z.dev.srv.steps.filter (fun u => u.leader == l)) })).endCmd l 3 0) =
      z.on (fun d => d.crateSaved l x.dev.fresh) := fun z => rfl
  split
  · rfl
  · rw [hview, ← X.putsCrate, hsaved]

theorem doCrate_save (hproc : (s.dev.proc 1).st ≠ 1) (crate : Option CrateInfo) : s.view.doCrate (crateRow l 3 memory buf) crate = s.view.doSave l memory buf := by
  have hfields := crateRow_fields l (op := 3) (by decide) memory buf
  have hfree : ((s.dev.proc 1).st == 1) = false := beq_eq_false_iff_ne.2 hproc
  simp only [X.doCrate, hfields.leader_lt, hfields.leader, hfields.op, hfields.memory, hfields.buf, State.view_dev, hfree, Bool.false_eq_true, if_false]

variable (h : s.dev.Writes rq q 0x3200 3) (hproc : (s.dev.proc 1).st ≠ 1) (hleads : s.dev.leads l = true) (hall : s.dev.allIn l .frozen = true)
  (hss : ss = s.dev.sections l memory s.dev.fresh)
include h hproc hleads hall hss

/-- SAVE writes the crate to a buffer that holds it. -/
theorem save_writes (hwf : Memory.wf s.mem = true) (hclear : clear = leBytes (s.dev.crateHead l memory s.dev.fresh ss) 128 ++ ss.zipIdx.flatMap (dirEntry ss))
    (hfits : secOffset ss ss.length ≤ buf.len.toNat) : Completes (.save rq l memory buf) s (fun t => Keeps [.mem, .cat, .srv, .fresh] s t ∧ Accepted rq 1 s t ∧ CmdRow l 3 0 t ∧
      (∀ i, i < clear.length → t.mem.byte .host (buf.addr.toNat + i) = clear[i]?.getD 0) ∧
      (∀ a, a < buf.addr.toNat ∨ buf.addr.toNat + secOffset ss ss.length ≤ a → t.mem.byte .host a = s.mem.byte .host a) ∧ (∀ a, t.mem.byte .hbm a = s.mem.byte .hbm a)) := by
  have hexec : exec (.save rq l memory buf) s = run s (fun x => x.writeCrate rq l 3 memory buf none) := rfl
  have hlen : clear.length ≤ secOffset ss ss.length := by rw [hclear]; exact clear_le_secOffset ss _ _
  obtain ⟨hput, hkept, hhbm⟩ := (s.view.on Dev.drawn).byte_putsCrate hwf buf.addr.toNat s.dev.fresh hlen
  have hdev := (s.view.on Dev.drawn).dev_putsCrate buf.addr.toNat s.dev.fresh clear (secOffset ss ss.length)
  have hfrom : ((s.view.on Dev.drawn).putsCrate buf.addr.toNat s.dev.fresh clear (secOffset ss ss.length)).From s := X.putsCrate_from (X.From.start s _) _ _ _ _
  have hdo := (doCrate_save (l := l) (memory := memory) (buf := buf) hproc none).trans ((s.view.doSave_frozen hleads hall hss.symm).trans (if_neg (Nat.not_lt.2 hfits)))
  rw [State.view_dev, ← hclear] at hdo
  generalize (s.view.on Dev.drawn).putsCrate buf.addr.toNat s.dev.fresh clear (secOffset ss ss.length) = z at hput hkept hhbm hdev hfrom hdo
  have honly : Only [.cat, .srv, .fresh] s.dev (z.dev.crateSaved l s.dev.fresh) := by
    rw [hdev]
    exact ((s.dev.drawn_only.mono (by simp)).onSrv _ (by simp)).endCmd _ _ _ _ (by simp) (by simp)
  have hcount : s.dev.sameCount (z.dev.crateSaved l s.dev.fresh) := by
    rw [hdev]
    exact Dev.sameCount.trans ⟨rfl, rfl⟩ (Dev.endCmd_sameCount _ _ _ _ _)
  obtain ⟨t, hrun, e, rfl, hreply, haccepted⟩ := crateCommand_accepted hexec h (by decide) hdo (hfrom.on _) hcount
  refine ⟨_, hrun, (honly.trans (hreply.only.mono (by simp))).keeps_mem _, haccepted, ?_⟩
  rw [X.on_mem]
  refine ⟨⟨0, ?_⟩, hput, hkept, hhbm⟩
  rw [hreply.only.srv (by simp)]
  exact Dev.cmd_endCmd _ l 3 0 0

/-- SAVE tells the length that a buffer too short lacks. -/
theorem save_needs (hshort : buf.len.toNat < secOffset ss ss.length) : Completes (.save rq l memory buf) s (fun t => Keeps [.cat, .srv, .fresh] s t ∧ Accepted rq 1 s t ∧
    kfind t.dev.srv.cmd l.toNat = some { command := 3, status := 7, needed := secOffset ss ss.length }) := by
  have hexec : exec (.save rq l memory buf) s = run s (fun x => x.writeCrate rq l 3 memory buf none) := rfl
  have hdo := (doCrate_save (l := l) (memory := memory) (buf := buf) hproc none).trans ((s.view.doSave_frozen hleads hall hss.symm).trans (if_pos hshort))
  have honly : Only [.cat, .srv, .fresh] s.dev (s.dev.drawn.endCmd l 3 7 (secOffset ss ss.length)) := (s.dev.drawn_only.mono (by simp)).endCmd _ _ _ _ (by simp) (by simp)
  have hcount : s.dev.sameCount (s.dev.drawn.endCmd l 3 7 (secOffset ss ss.length)) := Dev.sameCount.trans (e := s.dev.drawn) ⟨rfl, rfl⟩ (Dev.endCmd_sameCount _ _ _ _ _)
  obtain ⟨t, hrun, e, rfl, hreply, haccepted⟩ := crateCommand_accepted hexec h (by decide) hdo (X.From.start s _) hcount
  refine ⟨_, hrun, (honly.trans (hreply.only.mono (by simp))).keeps, haccepted, ?_⟩
  rw [hreply.only.srv (by simp)]
  exact Dev.cmd_endCmd _ l 3 7 _

end Save
end Sys2Proof.Machine

namespace Sys2Proof.Machine

/-! #### RESTORE of a crate (R292, R294, R402) -/

/-- From one view to another every Vitrine keeps its state and tenancy, and the Catalogue stays published with its count of accepted writes; what has been done to
memory is listed. -/
structure X.Retains (x y : X) : Prop where
  listed : ∀ s, x.From s → y.From s
  tenure : Dev.SameTenure x.dev y.dev
  count : x.dev.sameCount y.dev

namespace X.Retains
variable {x y z : X}

theorem refl (x : X) : X.Retains x x := ⟨fun _ h => h, .refl _, .refl _⟩
theorem trans (h : X.Retains x y) (k : X.Retains y z) : X.Retains x z := ⟨fun s hs => k.listed s (h.listed s hs), h.tenure.trans k.tenure, h.count.trans k.count⟩

theorem foldl {β : Type} (f : X → β → X) (h : ∀ x b, X.Retains x (f x b)) (l : List β) (x : X) : X.Retains x (l.foldl f x) := by
  induction l generalizing x with
  | nil => exact refl x
  | cons b l ih => exact (h x b).trans (ih _)

theorem ite {c : Prop} [Decidable c] (h : X.Retains x y) (k : X.Retains x z) : X.Retains x (if c then y else z) := by
  split
  · exact h
  · exact k

/-- A change of the machine that leaves the Vitrines and the Catalogue's count. -/
theorem on (x : X) (f : Dev → Dev) (hvits : (f x.dev).vits = x.dev.vits) (hcount : x.dev.sameCount (f x.dev)) : X.Retains x (x.on f) :=
  ⟨fun _ h => h.on f, .of_vits (.refl _) hvits, hcount⟩

/-- A change of one Vitrine that keeps its state and tenancy. -/
theorem setVit (x : X) (v : VitId) (f : Vit → Vit) (hf : ∀ t, (f t).st = t.st ∧ (f t).leader = t.leader) : X.Retains x (x.on (fun d => d.setVit v f)) :=
  ⟨fun _ h => h.on _, (Dev.SameTenure.refl _).setVit v f hf, rfl, rfl⟩

theorem op (x : X) (o : MemOp) : X.Retains x (x.op o) := ⟨fun _ h => h.op o, .refl _, .refl _⟩

theorem clearVit (x : X) (v : VitId) : X.Retains x (x.clearVit v) := ⟨(x.clearVit_zeroed v).listed, (x.clearVit_stands v).tenure, (x.clearVit_cleared v).count⟩

end X.Retains

section Restore
variable {s : State} {rq : CatReq} {q : Requester} {l : VitId} {c : CrateInfo} {buf : HostBuf}

/-- What a crate restored comes to: the tenancy's Vitrines, cleared, in the state that the crate's checks give them, and the command's end. -/
theorem X.doCrateRestore_ends (x : X) (hleads : x.dev.leads l = true) (hall : x.dev.allIn l .assigned = true) (hdrained : x.dev.drained l = true)
    (hthawed : (x.dev.crate l).freezing = false) : ∃ z, X.Retains x z ∧ x.doCrateRestore l c =
      (z.on (fun d => (if x.dev.crateStatus l c = 0 then (x.dev.tenancy l).foldl (fun (e : Dev) v => e.vitState v .frozen) d else d).endCmd l 3 (x.dev.crateStatus l c)), stProgress) := by
  have hcleared : X.Retains x ((x.dev.tenancy l).foldl X.clearVit x) := .foldl _ (fun y v => .clearVit y v) _ _
  by_cases hst : x.dev.crateStatus l c = 0
  · have hsettings : ∀ (y : X) (e : EntryRef × List Nat), X.Retains y (e.2.zipIdx.foldl (fun (z : X) (r : Nat × Nat) =>
        let k := ckey e.1.index.toNat e.1.sub.toNat r.2
        if !(x.dev.tenancy l).any (fun v => ofVit v k) then z else z.on (fun d => d.onCat (fun t => { t with acc := kset t.acc k r.1, force := kset t.force k r.1 }))) y) :=
      fun y e => .foldl _ (fun z r => .ite (.refl z) (.on z _ rfl ⟨rfl, rfl⟩)) _ y
    have hmodes : ∀ (y : X) (v : VitId), X.Retains y (y.on (fun d =>
        let k := d.fresh
        ({ d with fresh := k + 1 } : Dev).setVit v (fun t => { t with padSteps := d.vacc v 7 1, pvSteps := d.vset v 5 2, pvKey := k }))) :=
      fun y v => ⟨fun _ h => h.on _, Dev.SameTenure.setVit (Dev.SameTenure.of_vits (.refl y.dev) rfl) v _ (fun _ => ⟨rfl, rfl⟩), rfl, rfl⟩
    refine ⟨?z, ?retains, ?eq⟩
    case eq =>
      simp only [X.doCrateRestore, hleads, hall, hdrained, hthawed, Bool.not_true, Bool.or_self, Bool.false_eq_true, if_false, hst, bne_self_eq_false, if_true]
      rfl
    case retains =>
      exact ((((hcleared.trans (.foldl _ hsettings _ _)).trans (.foldl _ hmodes _ _)).trans (.on _ _ rfl ⟨rfl, rfl⟩)).trans (.foldl _ (fun y e => .op y _) _ _)).trans
        (.on _ _ rfl ⟨rfl, rfl⟩)
  · refine ⟨_, hcleared, ?_⟩
    simp only [X.doCrateRestore, hleads, hall, hdrained, hthawed, Bool.not_true, Bool.or_self, Bool.false_eq_true, if_false, bne_iff_ne, ne_eq, hst, not_false_eq_true, if_true]

theorem doCrate_restore (hproc : (s.dev.proc 1).st ≠ 1) : s.view.doCrate (crateRow l 4 false buf) (some c) = s.view.doCrateRestore l c := by
  have hfields := crateRow_fields l (op := 4) (by decide) false buf
  have hfree : ((s.dev.proc 1).st == 1) = false := beq_eq_false_iff_ne.2 hproc
  simp only [X.doCrate, hfields.leader_lt, hfields.leader, hfields.op, State.view_dev, hfree, Bool.false_eq_true, if_false]

/-- RESTORE leaves the cleared tenancy FROZEN where the crate passes its checks, and ASSIGNED where it does not (log 54 gives the checks' statuses). -/
theorem crateRestore_ends (h : s.dev.Writes rq q 0x3200 3) (hproc : (s.dev.proc 1).st ≠ 1) (hleads : s.dev.leads l = true) (hall : s.dev.allIn l .assigned = true)
    (hdrained : s.dev.drained l = true) (hthawed : (s.dev.crate l).freezing = false) :
    Completes (.crateRestore rq l c buf) s (fun t => Accepted rq 1 s t ∧ CmdRow l 3 (s.dev.crateStatus l c) t ∧
      ∀ v ∈ s.dev.tenancy l, (t.dev.vit v).st = (if s.dev.crateStatus l c = 0 then .frozen else .assigned) ∧ (t.dev.vit v).leader = some l) := by
  have hexec : exec (.crateRestore rq l c buf) s = run s (fun x => x.writeCrate rq l 4 false buf (some c)) := rfl
  obtain ⟨z, ⟨hlisted, htenure, hcount⟩, hdo⟩ := s.view.doCrateRestore_ends (c := c) hleads hall hdrained hthawed
  rw [State.view_dev, ← doCrate_restore (buf := buf) hproc] at hdo
  have hends : s.dev.sameCount ((if s.dev.crateStatus l c = 0 then (s.dev.tenancy l).foldl (fun (e : Dev) v => e.vitState v .frozen) z.dev else z.dev).endCmd l 3
      (s.dev.crateStatus l c)) := by
    refine (hcount.trans ?_).trans (Dev.endCmd_sameCount _ _ _ _ _)
    split
    · exact Dev.foldl_vitState_sameCount _ _ _
    · exact .refl _
  obtain ⟨t, hrun, e, rfl, hreply, haccepted⟩ := crateCommand_accepted hexec h (by decide) hdo ((hlisted s (X.From.start s s.dev)).on _) hends
  refine ⟨_, hrun, haccepted, ⟨0, ?_⟩, fun v hv => ?_⟩
  · rw [hreply.only.srv (by simp)]
    exact Dev.cmd_endCmd _ l 3 _ 0
  · obtain ⟨hst, hleader⟩ := htenure v
    have hassigned : (s.dev.vit v).st = .assigned := beq_iff_eq.1 (List.all_eq_true.1 hall v hv)
    have hlead : (s.dev.vit v).leader = some l := beq_iff_eq.1 (List.mem_filter.1 hv).2
    rw [hreply.vit, X.on_dev, Dev.vit_endCmd]
    split
    · rw [Dev.vit_foldl_vitState, if_pos hv]
      exact ⟨rfl, hleader.trans hlead⟩
    · exact ⟨hst.trans hassigned, hleader.trans hlead⟩

end Restore

/-- Settles O55: FREEZE and THAW are writes of one row; SAVE and RESTORE are what `X.doSave_frozen` and `X.doCrateRestore_ends` say of the view, under the same write.
The answer IN_PROGRESS with the row already done is log 51's choice, and the statuses of `Dev.crateStatus` are log 54's. -/
theorem cratesFreezeSaveAndThaw : Obligations.CratesFreezeSaveAndThaw := by
  intro s rq q l h
  refine ⟨fun hleads hall hthawed => ⟨freezeSafe_begins h hleads hall hthawed, freezeBoundary_begins h hleads hall hthawed⟩,
    fun hleads => ⟨crate_of_no_leader h hleads (.inl rfl) rfl, crate_of_no_leader h hleads (.inr (.inl rfl)) rfl, crate_of_no_leader h hleads (.inr (.inr rfl)) rfl⟩,
    fun hrings => ⟨freezeDone_freezes hrings, thaw_runs hrings h⟩,
    fun hproc hleads => ⟨fun memory buf ss clear hall hss hwf hclear => ⟨save_writes h hproc hleads hall hss hwf hclear, save_needs h hproc hleads hall hss⟩,
      fun c buf hall hdrained hthawed => ⟨fun hst => ?_, fun hst => ?_⟩⟩⟩
  · have hends := crateRestore_ends (c := c) (buf := buf) h hproc hleads hall hdrained hthawed
    rwa [if_pos hst, hst] at hends
  · have hends := crateRestore_ends (c := c) (buf := buf) h hproc hleads hall hdrained hthawed
    rwa [if_neg hst] at hends

end Sys2Proof.Machine

namespace Sys2Proof.Machine

/-! ### Steps (O56) -/

/-! #### The step that a command speaks of -/

theorem mem_vitsOf (m : BitVec 32) (v : VitId) : v ∈ vitsOf m ↔ m.getLsbD v.toNat = true := by
  simp only [vitsOf, List.mem_map, mem_bits]
  refine ⟨fun ⟨i, hi, hv⟩ => ?_, fun h => ⟨_, h, by simp⟩⟩
  have hlt := BitVec.lt_of_getLsbD hi
  rw [← hv, BitVec.toNat_ofNat, Nat.mod_eq_of_lt hlt]
  exact hi

theorem vitOfCore_of_mem {v : VitId} {k : Nat} (hk : k ∈ coresOfVit v) : vitOfCore (BitVec.ofNat 9 k) = v :=
  (mem_coresOf_iff v _).1 (List.mem_map_of_mem hk)

/-- The first of a list that meets a test stands changed in it once it is changed. -/
theorem mem_updFirst_of_find {α : Type} {p : α → Bool} {l : List α} {a : α} (f : α → α) (h : l.find? p = some a) : f a ∈ updFirst p f l := by
  obtain ⟨hpa, as, bs, rfl, hbefore⟩ := List.find?_eq_some_iff_append.1 h
  rw [updFirst_append p f as a bs (fun g hg => by simpa using hbefore g hg) hpa]
  simp

theorem Only.setStep {l : List Part} {d e : Dev} (u : StepRec) (f : StepRec → StepRec) (h : Only l d e) (h0 : Part.srv ∈ l) : Only l d (e.setStep u f) := h.onSrv _ h0

/-- The step that is changed stands changed among the tenancy's steps. -/
theorem Dev.mem_steps_setStep {d : Dev} {u : StepRec} (f : StepRec → StepRec) (h : d.srv.steps.find? (fun t => u.same t) = some u) : f u ∈ (d.setStep u f).srv.steps :=
  mem_updFirst_of_find f h

section Ends
variable {s : State} {l : VitId} {u : StepRec}

/-- A step that a command finds in a state is in that state. -/
theorem st_of_find {d : Dev} {seq : Word} {st : StepSt} (h : d.srv.steps.find? (fun t => t.leader == l && t.seq == seq && t.st == st) = some u) : u.st = st := by
  have hu := List.find?_some h
  simp only [Bool.and_eq_true, beq_iff_eq] at hu
  exact hu.2

theorem leader_of_find {d : Dev} {seq : Word} {st : StepSt} (h : d.srv.steps.find? (fun t => t.leader == l && t.seq == seq && t.st == st) = some u) : u.leader = l := by
  have hu := List.find?_some h
  simp only [Bool.and_eq_true, beq_iff_eq] at hu
  exact hu.1.1

/-! #### STEP_TIME_LIMIT (R277) -/

theorem Dev.squashVit_only (d : Dev) (v : VitId) : Only [.cores, .vits, .fab] d (d.squashVit v) :=
  ((((Only.refl _ d).foldl _ (coresOfVit v) (fun e c => (Only.refl _ e).setCore (BitVec.ofNat 9 c) _ (by simp))).with_fab _ (by simp)).setVit _ _ (by simp))

/-- The work of a Vitrine's dispatcher ends with its step. -/
def Vit.squashed (t : Vit) : Vit := { t with disp := { t.disp with launches := [], cur := none, swapped := [], stopped := true } }

theorem Dev.vit_squashVit (d : Dev) (v w : VitId) : (d.squashVit v).vit w = if w = v then (d.vit w).squashed else d.vit w := by
  unfold Dev.squashVit
  extract_lets d1 _ d2
  have h1 : Only [.cores] d d1 := (Only.refl _ d).foldl _ _ (fun e c => (Only.refl _ e).setCore _ _ (by simp))
  have h2 : Only [.fab] d1 d2 := (Only.refl _ d1).with_fab _ (by simp)
  have hw2 : d2.vit w = d.vit w := (h2.vit (by simp) w).trans (h1.vit (by simp) w)
  by_cases hw : w = v
  · subst hw
    rw [if_pos rfl, Dev.vit_setVit, hw2, Vit.squashed]
  · rw [if_neg hw, Dev.vit_setVit_ne _ _ _ _ hw, hw2]

theorem Dev.squashStep_only (d : Dev) (u : StepRec) (n : Nat) : Only [.srv, .cores, .vits, .fab] d (d.squashStep u n) :=
  ((Only.refl _ d).setStep u _ (by simp)).foldl _ _ (fun e v => (e.squashVit_only v).mono (by simp))

/-- A squashed step has met the ending, and runs on to its end. -/
theorem Dev.mem_steps_squashStep {d : Dev} (n : Nat) (h : d.srv.steps.find? (fun t => u.same t) = some u) :
    { u with ends := if u.ends.contains n then u.ends else u.ends ++ [n], st := .running, saved := [] } ∈ (d.squashStep u n).srv.steps := by
  have hvits : ∀ (e : Dev) (vs : List VitId), (vs.foldl (fun e v => e.squashVit v) e).srv = e.srv := fun e vs =>
    foldl_keeps Dev.srv (fun e v => e.squashVit v) (fun e v => e.squashVit_srv v) vs e
  rw [Dev.squashStep, hvits]
  exact Dev.mem_steps_setStep (fun t => { t with ends := if t.ends.contains n then t.ends else t.ends ++ [n], st := .running, saved := [] }) h

theorem Dev.vit_squashStep (d : Dev) (u : StepRec) (n : Nat) (w : VitId) : (d.squashStep u n).vit w = if w ∈ vitsOf u.mask then (d.vit w).squashed else d.vit w :=
  Dev.foldl_each Dev.vit (fun e v => e.squashVit v) Vit.squashed (fun _ => rfl) (fun e v => (e.vit_squashVit v v).trans (if_pos rfl))
    (fun e v w hw => (e.vit_squashVit v w).trans (if_neg hw)) (vitsOf u.mask) _ w

theorem stepTimeLimit_squashes (hfind : s.dev.srv.steps.find? (fun t => t.leader == l && t.seq == u.seq && t.st == .running) = some u)
    (hself : s.dev.srv.steps.find? (fun t => u.same t) = some u) (hends : u.ends = []) (hhalt : (s.dev.vit l).halt ≠ 2) (hruns : s.dev.runs (dieOfVit l) = true)
    (hdue : u.since + (u.limit - u.used) ≤ s.dev.cyc (dieOfVit l)) :
    Completes (.stepTimeLimit l u.seq) s (fun t => Keeps [.srv, .cores, .vits, .fab] s t ∧ { u with ends := [5], saved := [] } ∈ t.dev.srv.steps ∧
      ∀ w ∈ vitsOf u.mask, (t.dev.vit w).disp.launches = [] ∧ (t.dev.vit w).disp.stopped = true ∧ ∀ k ∈ coresOfVit w, (t.dev.core (BitVec.ofNat 9 k)).slots = []) := by
  have hexec : exec (.stepTimeLimit l u.seq) s = execStepTimeLimit l u.seq s := rfl
  have hst := st_of_find hfind
  refine completes_dev (s.dev.squashStep u 5) hexec ?_ ⟨(s.dev.squashStep_only u 5).keeps, ?_, fun w hw => ?_⟩
  · simp only [hfind, hends, beq_eq_false_iff_ne.2 hhalt, hruns, s.dev.reach_of_le _ _ hdue, List.isEmpty_nil, Bool.not_true, Bool.or_self, Bool.false_eq_true, if_false]
  · have hmem := Dev.mem_steps_squashStep 5 hself
    rw [hends] at hmem
    rwa [← hst] at hmem
  · have hmask := (mem_vitsOf u.mask w).1 hw
    refine ⟨?_, ?_, fun k hk => slots_squashStep s.dev u 5 _ (by rwa [vitOfCore_of_mem hk])⟩
    · rw [Dev.vit_squashStep, if_pos hw]; rfl
    · rw [Dev.vit_squashStep, if_pos hw]; rfl

end Ends
end Sys2Proof.Machine

namespace Sys2Proof.Machine

/-! #### STEP_END (R276, R277) -/

/-- A Vitrine's part in the end of a step: its clusters, its cores' blocks left behind and its dispatcher are free, and the end is traced. -/
def Dev.vitLeaves (st : Nat) (u : StepRec) (d : Dev) (v : VitId) : Dev :=
  let e := (clusOfVit v).foldl (fun (f : Dev) k => f.setClu k (fun _ => {})) d
  let e := (coresOfVit v).foldl (fun (f : Dev) k => f.setCore (BitVec.ofNat 9 k) (fun c => { c with left := [] })) e
  ((e.setVit v (fun t => { t with disp := {} })).trace v 2 0x3FF (st + u.seq.toNat * 256)).lastStep v

/-- The machine once a step has left its Vitrines, its completion not yet decided. -/
def Dev.stepLeaves (d : Dev) (u : StepRec) : Dev :=
  let d := (vitsOf u.mask).foldl (Dev.vitLeaves (stepStatus u.ends) u) d
  let d := d.onSrv (fun q => { q with steps := delFirst (fun t => u.same t) q.steps })
  let d := d.count 0x801A 1 u.leader.toNat
  let left := d.srv.steps.any (fun t => t.leader == u.leader)
  d.setJob u.leader (fun j => if j.st == 3 then {} else if j.st == 1 && !left then { j with st := 2 } else j)

theorem X.finishStep_eq (x : X) (u : StepRec) (dropped : Bool) : x.finishStep u dropped = (x.on (fun d => d.stepLeaves u)).complete u.ringVit u.ring u.seq (stepStatus u.ends)
    (min 16 u.recs.length + (if dropped then 256 else 0) + u.unanswered % 65536 * 65536) := (rfl)

/-- Counting in another TABLE leaves the counters of the queues (0x801A). -/
theorem Dev.queueCounter_count (d : Dev) {i : Nat} (hi : i ≠ 0x801A) (n r m : Nat) (hn : n < 256) (hr : r < 65536) {k j : Nat} (hk : k < 256) (hj : j < 65536) :
    (d.count i n r m).counter 0x801A k j = d.counter 0x801A k j :=
  d.counter_count_ne _ _ _ _ _ _ _ (by unfold ckey; omega)

theorem Dev.queueCounter_trace (d : Dev) (v : VitId) (kind source data : Nat) {k j : Nat} (hk : k < 256) (hj : j < 65536) :
    (d.trace v kind source data).counter 0x801A k j = d.counter 0x801A k j := by
  have hv := v.isLt
  unfold Dev.trace
  split
  · rfl
  · split
    · exact Dev.queueCounter_count _ (by decide) _ _ _ (by decide) (by omega) hk hj
    · rfl

theorem Dev.queueCounter_lastStep (d : Dev) (v : VitId) {k j : Nat} (hk : k < 256) (hj : j < 65536) : (d.lastStep v).counter 0x801A k j = d.counter 0x801A k j := by
  refine foldl_keeps (fun e : Dev => e.counter 0x801A k j) _ (fun e i => ?_) _ d
  exact kget_kset_ne _ _ _ _ _ (by unfold ckey; omega)

theorem Dev.lastStep_only (d : Dev) (v : VitId) : Only [.cnt] d (d.lastStep v) := (Only.refl _ d).foldl _ _ (fun e _ => (Only.refl _ e).with_cnt _ (by simp))

section VitLeaves
variable (st : Nat) (u : StepRec) (d : Dev) (v : VitId)

/-- What comes before the trace in a Vitrine's part: clusters, cores and the dispatcher alone. -/
theorem Dev.vitLeaves_eq : ∃ e, Only [.clus, .cores] d e ∧ Dev.vitLeaves st u d v = ((e.setVit v (fun t => { t with disp := {} })).trace v 2 0x3FF (st + u.seq.toNat * 256)).lastStep v := by
  refine ⟨_, ?_, rfl⟩
  exact ((Only.refl _ d).foldl _ _ (fun e k => (Only.refl _ e).setClu k _ (by simp))).foldl _ _ (fun e k => (Only.refl _ e).setCore (BitVec.ofNat 9 k) _ (by simp))

theorem Dev.vitLeaves_only : Only [.clus, .cores, .vits, .cnt] d (Dev.vitLeaves st u d v) := by
  obtain ⟨e, honly, heq⟩ := Dev.vitLeaves_eq st u d v
  rw [heq]
  exact (((honly.mono (by simp)).setVit _ _ (by simp)).trace _ _ _ _ (by simp) (by simp)).trans ((Dev.lastStep_only _ v).mono (by simp))

theorem Dev.disp_vitLeaves (w : VitId) : ((Dev.vitLeaves st u d v).vit w).disp = if w = v then {} else (d.vit w).disp := by
  obtain ⟨e, honly, heq⟩ := Dev.vitLeaves_eq st u d v
  rw [heq, (Dev.lastStep_only _ v).vit (by simp), Dev.disp_trace, ← honly.vit (by simp) w]
  by_cases hw : w = v
  · rw [if_pos hw, hw, Dev.vit_setVit]
  · rw [if_neg hw, Dev.vit_setVit_ne _ _ _ _ hw]

theorem Dev.queueCounter_vitLeaves {k j : Nat} (hk : k < 256) (hj : j < 65536) : (Dev.vitLeaves st u d v).counter 0x801A k j = d.counter 0x801A k j := by
  obtain ⟨e, honly, heq⟩ := Dev.vitLeaves_eq st u d v
  rw [heq, Dev.queueCounter_lastStep _ _ hk hj, Dev.queueCounter_trace _ _ _ _ _ hk hj, Dev.counter, Dev.setVit_cnt, honly.cnt (by simp), Dev.counter]

end VitLeaves

section StepLeaves
variable (d : Dev) (u : StepRec)

/-- A pass over a step's Vitrines as it leaves them. -/
theorem Dev.foldl_vitLeaves_only (st : Nat) (vs : List VitId) : Only [.clus, .cores, .vits, .cnt] d (vs.foldl (Dev.vitLeaves st u) d) :=
  (Only.refl _ d).foldl _ _ (fun e v => Dev.vitLeaves_only st u e v)

theorem Dev.ring_stepLeaves (v : VitId) (r : Nat) : (d.stepLeaves u).ring v r = d.ring v r := by
  have h := (Dev.foldl_vitLeaves_only d u (stepStatus u.ends) (vitsOf u.mask)).srv (by simp)
  exact congrArg (fun q : Srv => kget {} q.rings (ringKey v r)) h

theorem Dev.steps_stepLeaves : (d.stepLeaves u).srv.steps = delFirst (fun t => u.same t) d.srv.steps := by
  have h := (Dev.foldl_vitLeaves_only d u (stepStatus u.ends) (vitsOf u.mask)).srv (by simp)
  exact congrArg (fun q : Srv => delFirst (fun t => u.same t) q.steps) h

theorem Dev.disp_stepLeaves (w : VitId) (hw : w ∈ vitsOf u.mask) : ((d.stepLeaves u).vit w).disp = {} := by
  have h := Dev.foldl_each (fun e w => (e.vit w).disp) (Dev.vitLeaves (stepStatus u.ends) u) (fun _ => {}) (fun _ => rfl)
    (fun e w => (Dev.disp_vitLeaves _ u e w w).trans (if_pos rfl)) (fun e v w hw => (Dev.disp_vitLeaves _ u e v w).trans (if_neg hw)) (vitsOf u.mask) d w
  exact h.trans (if_pos hw)

theorem Dev.counter_stepLeaves : (d.stepLeaves u).counter 0x801A 1 u.leader.toNat = (d.counter 0x801A 1 u.leader.toNat + 1) % 2 ^ 64 := by
  have hl := u.leader.isLt
  have h : ((vitsOf u.mask).foldl (Dev.vitLeaves (stepStatus u.ends) u) d).counter 0x801A 1 u.leader.toNat = d.counter 0x801A 1 u.leader.toNat :=
    foldl_keeps (fun e : Dev => e.counter 0x801A 1 u.leader.toNat) _ (fun e v => Dev.queueCounter_vitLeaves _ u e v (by decide) (by omega)) _ d
  rw [← h]
  exact Dev.counter_countOne (((vitsOf u.mask).foldl (Dev.vitLeaves (stepStatus u.ends) u) d).onSrv (fun q => { q with steps := delFirst (fun t => u.same t) q.steps })) _ _ _

end StepLeaves

section StepEnd
variable {s : State} {l : VitId} {u : StepRec}

/-- A step without exception records writes none. -/
theorem X.writeRecs_nil (x : X) (h : u.recs = []) : x.writeRecs u = x := by
  simp only [X.writeRecs, h, Dev.countRecs, List.zipIdx_nil, List.foldl_nil, List.take_nil]
  split
  · rfl
  · rfl

variable (hfind : s.dev.srv.steps.find? (fun t => t.leader == l && t.seq == u.seq && t.st == .running) = some u)
  (hover : u.ends ≠ [] ∨ ∀ w ∈ vitsOf u.mask, (s.dev.vit w).disp.finished = true) (hquiet : s.dev.stepQuiet u = true)
  (hruns : ∀ w ∈ vitsOf u.mask, s.dev.runs (dieOfVit w) = true) (hckpt : u.ckpt = false) (hcopied : u.ckptDone = false) (hrecs : u.recs = [])
include hover hquiet hruns hcopied

/-- A step whose Vitrines have nothing left to do may end at once. -/
theorem stepEnd_over : (!((!u.ends.isEmpty && !u.ckptDone) || (vitsOf u.mask).all (fun v => (s.dev.vit v).disp.finished)) || !s.dev.stepQuiet u ||
    !(vitsOf u.mask).all (fun v => s.dev.runs (dieOfVit v) || s.dev.isFenced (dieOfVit v))) = false := by
  have hall : ((!u.ends.isEmpty && !u.ckptDone) || (vitsOf u.mask).all (fun v => (s.dev.vit v).disp.finished)) = true := by
    rcases hover with hends | hfinished
    · simp [hcopied, hends]
    · simp [List.all_eq_true.2 hfinished]
  have hdies : (vitsOf u.mask).all (fun v => s.dev.runs (dieOfVit v) || s.dev.isFenced (dieOfVit v)) = true := List.all_eq_true.2 (fun w hw => by simp [hruns w hw])
  rw [hall, hquiet, hdies]
  rfl

include hfind hckpt hrecs

/-- A step over with no checkpoint to copy and no preview to hand on completes with its status. -/
theorem stepEnd_completes {f : Fetched} (hseq : f.seq = u.seq) (hdone : f.done = none) (hnocopy : u.ends ≠ [] ∨ sCkpt u.raw = false)
    (hnopreview : (stepStatus u.ends ≠ 0 ∧ stepStatus u.ends ≠ 0xC) ∨ sPreview u.raw = false) :
    Completes (.stepEnd l u.seq) s (fun t => Decided u.ringVit u.ring f (stepStatus u.ends) (u.unanswered % 65536 * 65536) s t ∧
      t.dev.srv.steps = delFirst (fun t => u.same t) s.dev.srv.steps ∧ (∀ w ∈ vitsOf u.mask, (t.dev.vit w).disp = {}) ∧
      t.dev.counter 0x801A 1 l.toNat = (s.dev.counter 0x801A 1 l.toNat + 1) % 2 ^ 64) := by
  have hexec : exec (.stepEnd l u.seq) s = execStepEnd l u.seq s := rfl
  have hleader : u.leader = l := leader_of_find hfind
  have hlt := l.isLt
  have hcopy : (u.ends.isEmpty && sCkpt u.raw) = false := by
    rcases hnocopy with h | h <;> simp [h]
  have hpreview : ((stepStatus u.ends == 0 || stepStatus u.ends == 0xC) && sPreview u.raw) = false := by
    rcases hnopreview with h | h <;> simp [h]
  have hposts := Posts.complete (s.view.on (fun d => d.stepLeaves u)) u.ringVit u.ring u.seq (stepStatus u.ends) (u.unanswered % 65536 * 65536)
  refine completes_run ((s.view.on (fun d => d.stepLeaves u)).complete u.ringVit u.ring u.seq (stepStatus u.ends) (u.unanswered % 65536 * 65536)) hexec ?_ ⟨?_, ?_, fun w hw => ?_, ?_⟩
  · simp only [hfind, stepEnd_over hover hquiet hruns hcopied, Bool.false_eq_true, if_false]
    simp only [hckpt, hcopied, X.writeRecs_nil _ hrecs, hcopy, hpreview, Bool.false_and, Bool.false_eq_true, if_false, X.finishStep_eq, hrecs, List.length_nil, Nat.min_zero, Nat.zero_add]
    rfl
  · rw [← hseq]
    exact decided_of_complete hdone ⟨congrArg Ring.fetched (Dev.ring_stepLeaves s.dev u _ _), congrArg Ring.cqTail (Dev.ring_stepLeaves s.dev u _ _)⟩ ⟨rfl, rfl⟩
  · exact hposts.steps.trans (Dev.steps_stepLeaves s.dev u)
  · exact (congrArg Vit.disp (hposts.vit w)).trans (Dev.disp_stepLeaves s.dev u w hw)
  · rw [hposts.counter (by decide) (by decide) (by omega), ← hleader]
    exact Dev.counter_stepLeaves s.dev u

/-- A step that ends OK with CKPT begins its checkpoint copy. -/
theorem stepEnd_copies (hends : u.ends = []) (hcopy : sCkpt u.raw = true) (hself : s.dev.srv.steps.find? (fun t => u.same t) = some u) :
    Completes (.stepEnd l u.seq) s (fun t => Keeps [.srv] s t ∧ { u with ckpt := true } ∈ t.dev.srv.steps) := by
  have hexec : exec (.stepEnd l u.seq) s = execStepEnd l u.seq s := rfl
  refine completes_on (fun d => d.setStep u (fun t => { t with ckpt := true })) hexec ?_ ⟨((Only.refl _ _).setStep u _ (by simp)).keeps, Dev.mem_steps_setStep _ hself⟩
  simp only [hfind, stepEnd_over hover hquiet hruns hcopied, Bool.false_eq_true, if_false]
  simp only [hckpt, X.writeRecs_nil _ hrecs, hends, hcopy, List.isEmpty_nil, Bool.not_false, Bool.and_self, Bool.false_eq_true, if_true, if_false]

end StepEnd
end Sys2Proof.Machine

namespace Sys2Proof.Machine

/-! #### STEP_SAFE_POINT and STEP_SAVE_DONE (R278-R280) -/

/-- Pumping the remote operations of cores that have nothing left to split does nothing. -/
theorem X.foldl_remotePump (x : X) (hsplit : x.AllSplit) (vs : List VitId) :
    vs.foldl (fun (y : X) v => (coresOfVit v).foldl (fun (z : X) k => z.remotePump (BitVec.ofNat 9 k)) y) x = x := by
  have hcores : ∀ ks : List Nat, ks.foldl (fun (z : X) k => z.remotePump (BitVec.ofNat 9 k)) x = x := fun ks => by
    induction ks with
    | nil => rfl
    | cons k ks ih => rw [List.foldl_cons, Traffic.remotePump x _ hsplit, ih]
  induction vs with
  | nil => rfl
  | cons v vs ih => rw [List.foldl_cons, hcores, ih]

/-- A step as its save begins: its time so far, and the cycle at which each of its Vitrines is done. -/
def Dev.saving (d : Dev) (l : VitId) (u : StepRec) : StepRec :=
  { u with st := .saving, used := u.used + (d.cyc (dieOfVit l) - u.since), dues := (vitsOf u.mask).map (fun w => (w, d.clocked w + (d.switchTime w).2)) }

section SafePoint
variable {s : State} {l : VitId} {u : StepRec}

/-- A step asked to stop, at its safe point, begins to be saved. -/
theorem stepSafePoint_saves (hfind : s.dev.srv.steps.find? (fun t => t.leader == l && t.seq == u.seq && t.st == .running) = some u)
    (hself : s.dev.srv.steps.find? (fun t => u.same t) = some u) (hasked : u.stopAsked = true) (hends : u.ends = []) (hckpt : u.ckpt = false)
    (hpreempt : descPreempt u.raw ≠ 0) (hhalt : (s.dev.vit l).halt = 0)
    (hsafe : ∀ w ∈ vitsOf u.mask, s.dev.runs (dieOfVit w) = true ∧ s.dev.atSafePoint w (descPreempt u.raw) = true) (hsplit : s.dev.AllSplit) :
    Completes (.stepSafePoint l u.seq) s (fun t => Keeps [.srv] s t ∧
      { u with st := .saving, used := u.used + (s.dev.cyc (dieOfVit l) - u.since), dues := (vitsOf u.mask).map (fun w => (w, s.dev.clocked w + (s.dev.switchTime w).2)) } ∈ t.dev.srv.steps) := by
  have hexec : exec (.stepSafePoint l u.seq) s = execStepSafePoint l u.seq s := rfl
  have hruns : (vitsOf u.mask).all (fun v => s.dev.runs (dieOfVit v)) = true := List.all_eq_true.2 (fun w hw => (hsafe w hw).1)
  have hpoint : (vitsOf u.mask).all (fun v => s.dev.atSafePoint v (descPreempt u.raw)) = true := List.all_eq_true.2 (fun w hw => (hsafe w hw).2)
  refine completes_on (fun d => d.setStep u (fun t => { d.saving l t with dues := (d.saving l u).dues })) hexec ?_ ⟨((Only.refl _ _).setStep u _ (by simp)).keeps, ?_⟩
  · simp only [hfind, hasked, hends, hckpt, hhalt, hruns, hpoint, beq_eq_false_iff_ne.2 hpreempt, List.isEmpty_nil, bne_self_eq_false, Bool.not_true, Bool.or_self, Bool.false_eq_true, if_false]
    rw [X.foldl_remotePump { dev := s.dev, mem := s.mem, mram := s.mram } hsplit]
    rfl
  · exact Dev.mem_steps_setStep (fun t => { s.dev.saving l t with dues := (s.dev.saving l u).dues }) hself

end SafePoint

theorem Dev.reachVit_of_le {d : Dev} {v : VitId} {due : Nat} (h : due ≤ d.clocked v) : d.reachVit v due = d := if_pos h

/-- Where every Vitrine's time has come, the wait for it takes none. -/
theorem Dev.reachAll_of_le {d : Dev} {dues : List (VitId × Nat)} (h : ∀ e ∈ dues, e.2 ≤ d.clocked e.1) : d.reachAll dues = d := by
  induction dues with
  | nil => rfl
  | cons e dues ih => exact (congrArg (fun f : Dev => f.reachAll dues) (Dev.reachVit_of_le (h e (by simp)))).trans (ih (fun g hg => h g (by simp [hg])))

/-- A change that leaves the machine leaves the view. -/
theorem X.on_of_eq {x : X} {f : Dev → Dev} (h : f x.dev = x.dev) : x.on f = x := by rw [X.on, h]

/-- What a Vitrine's save leaves of it: its switched bytes and cycles counted, its blocks and regions gone. -/
def Dev.leaveSaved (d : Dev) (c : SavedVit) : Dev :=
  ((d.count 0x801A 3 c.v.toNat c.cycles).count 0x8011 6 c.v.toNat ((c.blocks.map (fun b => b.blk.openBanks)).foldl (· + ·) 0)).emptyVit c.v

theorem Dev.emptyVit_only (d : Dev) (v : VitId) : Only [.cores, .clus, .vits] d (d.emptyVit v) :=
  (((Only.refl _ d).foldl _ (coresOfVit v) (fun e c => (Only.refl _ e).setCore (BitVec.ofNat 9 c) _ (by simp))).foldl _ _ (fun e k => (Only.refl _ e).setClu k _ (by simp))).setVit _ _ (by simp)

theorem Dev.leaveSaved_only (d : Dev) (c : SavedVit) : Only [.cores, .clus, .vits, .cnt] d (d.leaveSaved c) :=
  (((Only.refl _ d).count _ _ _ _ (by simp)).count _ _ _ _ (by simp)).trans ((Dev.emptyVit_only _ _).mono (by simp))

/-- An emptied Vitrine's cores as they are left, its clusters aside. -/
theorem Dev.core_emptyVit (d : Dev) (v : VitId) (k : CoreId) : (d.emptyVit v).core k = ((coresOfVit v).foldl (fun (e : Dev) k => e.setCore (BitVec.ofNat 9 k) (fun c =>
    { c with slots := [], slot0 := none, issued := [], exc := none, eng := { c.eng with queue := [], wa := {}, wb := {}, wo := {}, bankAt := [], released := [] } })) d).core k := by
  unfold Dev.emptyVit
  extract_lets d1 d2
  have hclus : Only [.clus] d1 d2 := (Only.refl _ d1).foldl _ _ (fun e k => (Only.refl _ e).setClu k _ (by simp))
  exact (((hclus.mono (by simp)).setVit v _ (by simp) : Only [.clus, .vits] d1 _)).core (by simp) k

theorem slots_emptyVit_self (d : Dev) {v : VitId} {k : Nat} (hk : k ∈ coresOfVit v) : ((d.emptyVit v).core (BitVec.ofNat 9 k)).slots = [] := by
  rw [Dev.core_emptyVit]
  refine foldl_attains _ (fun _ => True) (fun k (e : Dev) => (e.core (BitVec.ofNat 9 k)).slots = []) (fun _ _ _ => trivial) (fun e c _ => by rw [Dev.core_setCore])
    (fun e c k _ h => ?_) (coresOfVit v) d trivial k hk
  by_cases hc : (BitVec.ofNat 9 k : CoreId) = BitVec.ofNat 9 c
  · rw [hc, Dev.core_setCore]
  · rw [Dev.core_setCore_ne _ _ _ _ hc]; exact h

theorem slots_emptyVit (d : Dev) (v : VitId) (k : CoreId) (h : (d.core k).slots = []) : ((d.emptyVit v).core k).slots = [] := by
  rw [Dev.core_emptyVit]
  generalize coresOfVit v = ks
  induction ks generalizing d with
  | nil => exact h
  | cons c ks ih =>
    refine ih _ ?_
    by_cases hc : k = BitVec.ofNat 9 c
    · rw [hc, Dev.core_setCore]
    · rw [Dev.core_setCore_ne _ _ _ _ hc]; exact h

theorem Dev.preempts_leaveSaved (d : Dev) (c : SavedVit) (j : Nat) (hj : j < 65536) : (d.leaveSaved c).counter 0x801A 2 j = d.counter 0x801A 2 j := by
  have hv := c.v.isLt
  have hempty : ∀ e : Dev, (e.emptyVit c.v).counter 0x801A 2 j = e.counter 0x801A 2 j := fun e => by
    rw [Dev.counter, Dev.counter, (e.emptyVit_only c.v).cnt (by simp)]
  rw [Dev.leaveSaved, hempty, Dev.queueCounter_count _ (by decide) _ _ _ (by decide) (by omega) (by decide) hj]
  exact Dev.counter_count_ne _ _ _ _ _ _ _ _ (by unfold ckey; omega)

/-- The machine once a step of a leader is SAVED. -/
def Dev.stepSaved (d : Dev) (l : VitId) (u : StepRec) (saved : List SavedVit) : Dev :=
  ((saved.foldl Dev.leaveSaved d).setStep u (fun t => { t with st := .saved, stopAsked := false, saved })).count 0x801A 2 l.toNat

section SaveDone
variable {s : State} {l : VitId} {u : StepRec}

/-- T over in every Vitrine, the step is SAVED and its Vitrines are empty. -/
theorem stepSaveDone_saved (hself : s.dev.srv.steps.find? (fun t => u.same t) = some u)
    (hdues : ∀ e ∈ u.dues, s.dev.runs (dieOfVit e.1) = true ∧ e.2 ≤ s.dev.clocked e.1)
    (hfind : s.dev.srv.steps.find? (fun t => t.leader == l && t.seq == u.seq && t.st == .saving) = some u) :
    Completes (.stepSaveDone l u.seq) s (fun t => Keeps [.srv, .cores, .clus, .vits, .cnt] s t ∧
      (∃ r ∈ t.dev.srv.steps, r.st = .saved ∧ r.stopAsked = false ∧ r.seq = u.seq ∧ r.saved.map (·.v) = vitsOf u.mask) ∧
      (∀ w ∈ vitsOf u.mask, ∀ k ∈ coresOfVit w, (t.dev.core (BitVec.ofNat 9 k)).slots = []) ∧
      t.dev.counter 0x801A 2 l.toNat = (s.dev.counter 0x801A 2 l.toNat + 1) % 2 ^ 64) := by
  have hexec : exec (.stepSaveDone l u.seq) s = execStepSaveDone l u.seq s := rfl
  have hlt := l.isLt
  have hruns : u.dues.all (fun e => s.dev.runs (dieOfVit e.1)) = true := List.all_eq_true.2 (fun e he => (hdues e he).1)
  have hreached : s.dev.reachAll u.dues = s.dev := Dev.reachAll_of_le (fun e he => (hdues e he).2)
  have hleft : Only [.cores, .clus, .vits, .cnt] s.dev (((vitsOf u.mask).map s.view.saveVit).foldl Dev.leaveSaved s.dev) := (Only.refl _ _).foldl _ _ (fun e c => e.leaveSaved_only c)
  have hview : X.on { dev := s.dev, mem := s.mem, mram := s.mram } (fun d => d.reachAll u.dues) = s.view := X.on_of_eq hreached
  refine completes_on (fun d => d.stepSaved l u ((vitsOf u.mask).map s.view.saveVit)) hexec ?_ ⟨?_, ?_, fun w hw k hk => ?_, ?_⟩
  · simp only [hfind, hruns, Bool.not_true, Bool.false_eq_true, if_false]
    rw [hview]
    rfl
  · exact (((hleft.mono (by simp)).setStep u _ (by simp)).count _ _ _ _ (by simp)).keeps
  · refine ⟨_, Dev.mem_steps_setStep (fun t => { t with st := .saved, stopAsked := false, saved := (vitsOf u.mask).map s.view.saveVit }) ?_, rfl, rfl, rfl, ?_⟩
    · rw [hleft.srv (by simp)]; exact hself
    · rw [List.map_map]; exact List.map_id _
  · exact foldl_attains Dev.leaveSaved (fun _ => True) (fun c e => ∀ k ∈ coresOfVit c.v, (e.core (BitVec.ofNat 9 k)).slots = []) (fun _ _ _ => trivial)
      (fun e c _ k hk => slots_emptyVit_self _ hk) (fun e _ c _ h k hk => slots_emptyVit _ _ _ (h k hk)) _ s.dev trivial (s.view.saveVit w) (List.mem_map_of_mem hw) k hk
  · rw [Dev.stepSaved, Dev.counter_countOne]
    have hkept := foldl_keeps (fun e : Dev => e.counter 0x801A 2 l.toNat) Dev.leaveSaved (fun e c => e.preempts_leaveSaved c _ (by omega)) ((vitsOf u.mask).map s.view.saveVit) s.dev
    exact congrArg (fun n => (n + 1) % 2 ^ 64) hkept

end SaveDone
end Sys2Proof.Machine

namespace Sys2Proof.Machine

/-! #### CKPT_COPY_DONE (R287) -/

/-- The first of a list that meets a test is the first that meets one more, where it meets that too. -/
theorem find?_and {α : Type} {p q : α → Bool} {l : List α} {a : α} (h : l.find? p = some a) (hq : q a = true) : l.find? (fun b => p b && q b) = some a := by
  obtain ⟨hpa, as, bs, rfl, hbefore⟩ := List.find?_eq_some_iff_append.1 h
  refine List.find?_eq_some_iff_append.2 ⟨by rw [hpa, hq]; rfl, as, bs, rfl, fun b hb => ?_⟩
  have hpb := hbefore b hb
  simp only [Bool.not_eq_true'] at hpb
  rw [hpb]
  rfl

/-- Every Vitrine of a step has its checkpoint. -/
def Dev.checkpoint (d : Dev) (u : StepRec) : Dev := (vitsOf u.mask).foldl (fun (e : Dev) v => e.setVit v (fun t => { t with ckptLocal := sCkptNumber u.raw })) d

theorem Dev.checkpoint_only (d : Dev) (u : StepRec) : Only [.vits] d (d.checkpoint u) := (Only.refl _ d).foldl _ _ (fun e v => (Only.refl _ e).setVit v _ (by simp))

theorem Dev.vset_checkpoint (d : Dev) (u : StepRec) (w : VitId) (k sub : Nat) : (d.checkpoint u).vset w k sub = d.vset w k sub :=
  congrArg (fun c : Cat => (kfind c.force (ckey (0x3000 + w.toNat * 16 + k) sub 0)).getD (entryDefault (0x3000 + w.toNat * 16 + k) sub 0)) ((d.checkpoint_only u).cat (by simp))

section CopyDone
variable {s : State} {x y z : X} {l : VitId} {u : StepRec} {rs : List Region}

/-- The regions copied, every Vitrine of the step has its checkpoint, and no standby is to have it. -/
theorem ckptCopyDone_sets (hx : x = { dev := s.dev, mem := s.mem, mram := s.mram })
    (hfind : s.dev.srv.steps.find? (fun t => t.leader == l && t.seq == u.seq && t.st == .running) = some u)
    (hself : s.dev.srv.steps.find? (fun t => u.same t) = some u) (hckpt : u.ckpt = true) (hundone : u.ckptDone = false) (hends : u.ends = [])
    (hruns : ∀ w ∈ vitsOf u.mask, s.dev.runs (dieOfVit w) = true) (hlone : s.dev.vset l 9 4 ≠ 1) (hregions : x.regions u.raw = (y, rs, false))
    (hcopied : rs.foldl (fun (acc : X × Bool) r => let (p, b) := acc.1.copyDev r.base (acc.1.dev.slotAt r.v ((sCkptNumber u.raw).toNat % 2) + r.off) r.len; (p, acc.2 || b)) (y, false) =
      (z, false)) (hvset : z.dev.vset l 9 4 = s.dev.vset l 9 4) (hsteps : z.dev.srv.steps = s.dev.srv.steps) :
    Completes (.ckptCopyDone l u.seq) s (fun t => (∀ w ∈ vitsOf u.mask, (t.dev.vit w).ckptLocal = sCkptNumber u.raw) ∧ { u with ckptDone := true } ∈ t.dev.srv.steps) := by
  subst hx
  have hexec : exec (.ckptCopyDone l u.seq) s = execCkptCopyDone l u.seq s := rfl
  have hcand : s.dev.srv.steps.find? (fun t => t.leader == l && t.seq == u.seq && t.st == .running && t.ckpt && !t.ckptDone) = some u :=
    find?_and (q := fun t => !t.ckptDone) (find?_and (q := fun t => t.ckpt) hfind hckpt) (by rw [hundone]; rfl)
  have hall : (vitsOf u.mask).all (fun v => s.dev.runs (dieOfVit v)) = true := List.all_eq_true.2 hruns
  have hstream : ((z.on (fun d => d.checkpoint u)).dev.vset l 9 4 == 1) = false := beq_eq_false_iff_ne.2 (by rwa [X.on_dev, Dev.vset_checkpoint, hvset])
  refine completes_run (z.on (fun d => (d.checkpoint u).setStep u (fun t => { t with ckptDone := true }))) hexec ?_ ⟨fun w hw => ?_, Dev.mem_steps_setStep _ ?_⟩
  · simp only [hcand, hends, hall, hregions, hcopied, List.isEmpty_nil, Bool.not_true, Bool.or_self, Bool.false_eq_true, if_false]
    unfold Dev.checkpoint at hstream
    simp only [hstream, Bool.false_eq_true, if_false, if_true]
    rfl
  · refine congrArg Vit.ckptLocal (Dev.vit_foldl_setVit (fun t => { t with ckptLocal := sCkptNumber u.raw }) (fun _ => rfl) (vitsOf u.mask) z.dev w) |>.trans ?_
    rw [if_pos hw]
  · rw [(z.dev.checkpoint_only u).srv (by simp), hsteps]; exact hself

end CopyDone
end Sys2Proof.Machine

namespace Sys2Proof.Machine

/-! #### STEP_RESTORE_DONE (R280) -/

theorem X.dev_foldl_op {β : Type} (g : X → β → MemOp) (l : List β) (x : X) : (l.foldl (fun (z : X) e => z.op (g z e)) x).dev = x.dev :=
  foldl_keeps X.dev (fun (z : X) e => z.op (g z e)) (fun _ _ => rfl) l x

/-- Putting saved bytes back leaves the machine. -/
theorem X.dev_restoreBytes (x : X) (c : CoreId) (b : Block) (scr clus : List (Nat × Byte)) : (x.restoreBytes c b scr clus).dev = x.dev := by
  simp only [X.restoreBytes, X.dev_foldl_op]

theorem X.retable_only (x : X) (v : VitId) (old : KMap Nat) : Only [.vits, .cores, .cat] x.dev (x.retable v old).dev := by
  unfold X.retable
  extract_lets
  exact ((Only.refl _ x.dev).pvDrop v _ (by simp) (by simp)).onCat _ (by simp)

/-- A block of a saved Vitrine as it returns to its core. -/
def SavedBlk.back (b : SavedBlk) (now : Nat) : Block := ({ b.blk with queued := [] } : Block).shiftBars (fun t => now - t)

/-- A saved Vitrine of one block and no step region returns it to its core, with what its engine had queued. -/
theorem X.dev_restoreVit (x : X) {c : SavedVit} {b : SavedBlk} (hblocks : c.blocks = [b]) (hsteps : c.steps = []) :
    ∃ d, Only [.vits, .cores, .cat] x.dev d ∧ (x.restoreVit c).dev = (d.setBlk (BitVec.ofNat 9 b.core) b.slot (b.back (x.dev.cyc (dieOfVit c.v)))).setEng (BitVec.ofNat 9 b.core)
      (fun g => { g with queue := (g.queue ++ b.blk.queued).mergeSort (fun i j => i.id ≤ j.id) }) := by
  unfold X.restoreVit
  extract_lets now p y z w
  refine ⟨z.dev, ?_, ?_⟩
  · exact ((Only.refl _ x.dev).setVit c.v _ (by simp)).trans (X.retable_only y c.v c.tables)
  · rw [hsteps, List.foldl_nil]
    subst w
    rw [hblocks]
    exact X.dev_restoreBytes _ _ _ _ _

section RestoreDone
variable {s : State} {l : VitId} {u : StepRec} {c : SavedVit} {b : SavedBlk}

/-- T over, the step runs again with its block where it was. -/
theorem stepRestoreDone_resumes (hself : s.dev.srv.steps.find? (fun t => u.same t) = some u)
    (hdues : ∀ e ∈ u.dues, s.dev.runs (dieOfVit e.1) = true ∧ e.2 ≤ s.dev.clocked e.1)
    (hfind : s.dev.srv.steps.find? (fun t => t.leader == l && t.seq == u.seq && t.st == .restoring) = some u) (hsaved : u.saved = [c]) (hblocks : c.blocks = [b]) (hsteps : c.steps = []) :
    Completes (.stepRestoreDone l u.seq) s (fun t => { u with st := .running, saved := [], since := s.dev.cyc (dieOfVit l) } ∈ t.dev.srv.steps ∧
      (∃ e, t.dev.blk (BitVec.ofNat 9 b.core) b.slot = some e ∧ e.index = b.blk.index ∧ e.launchIx = b.blk.launchIx ∧ e.seq = b.blk.seq) ∧
      t.dev.counter 0x801A 3 c.v.toNat = (s.dev.counter 0x801A 3 c.v.toNat + c.cycles) % 2 ^ 64) := by
  have hexec : exec (.stepRestoreDone l u.seq) s = execStepRestoreDone l u.seq s := rfl
  have hruns : u.dues.all (fun e => s.dev.runs (dieOfVit e.1)) = true := List.all_eq_true.2 (fun e he => (hdues e he).1)
  have hview : X.on { dev := s.dev, mem := s.mem, mram := s.mram } (fun d => d.reachAll u.dues) = s.view := X.on_of_eq (Dev.reachAll_of_le (fun e he => (hdues e he).2))
  obtain ⟨d, honly, hdev⟩ := s.view.dev_restoreVit hblocks hsteps
  have hback : Only [.vits, .cores, .cat] s.dev (s.view.restoreVit c).dev := hdev ▸ ((honly.setCore _ _ (by simp)).setEng _ _ (by simp))
  have hcyc : (s.view.restoreVit c).dev.cyc (dieOfVit l) = s.dev.cyc (dieOfVit l) := by rw [Dev.cyc, Dev.die, hback.clk (by simp), Dev.cyc, Dev.die]
  refine completes_run ((s.view.restoreVit c).on (fun d => (d.count 0x801A 3 c.v.toNat c.cycles).setStep u (fun t =>
    { t with st := .running, saved := [], since := d.cyc (dieOfVit l) }))) hexec ?_ ⟨?_, ⟨b.back (s.dev.cyc (dieOfVit c.v)), ?_, rfl, rfl, rfl⟩, ?_⟩
  · simp only [hfind, hruns, Bool.not_true, Bool.false_eq_true, if_false]
    rw [hview, hsaved]
    rfl
  · rw [← hcyc]
    refine Dev.mem_steps_setStep (fun t => { t with st := .running, saved := [], since := (s.view.restoreVit c).dev.cyc (dieOfVit l) }) ?_
    rw [Dev.count_srv, hback.srv (by simp)]
    exact hself
  · have hblk : (s.view.restoreVit c).dev.blk (BitVec.ofNat 9 b.core) b.slot = some (b.back (s.dev.cyc (dieOfVit c.v))) := by
      rw [hdev, Dev.blk_setEng, Dev.blk_setBlk]; rfl
    exact hblk
  · refine (Dev.counter_count (s.view.restoreVit c).dev 0x801A 3 c.v.toNat c.cycles).trans ?_
    rw [Dev.counter, hback.cnt (by simp), Dev.counter]

end RestoreDone
end Sys2Proof.Machine

namespace Sys2Proof.Machine

/-! #### RESTORE (R287) -/

/-- A RESTORE descriptor's checks but those of its regions: true when one fails. -/
def Dev.restoreBad (d : Dev) (l : VitId) (raw : BitVec 512) : Bool :=
  d.maskBad l (sMask raw) || sLaunchTable raw != 0 || sLaunchCount raw != 0 || sReserved raw != 0 || descPreempt raw == 3 ||
    !d.validWin l (sCkptTable raw) (16 * sCkptRegions raw)

theorem Dev.restoreBad_iff (d : Dev) (l : VitId) (raw : BitVec 512) : d.restoreBad l raw = true ↔ d.maskBad l (sMask raw) = true ∨ sLaunchTable raw ≠ 0 ∨ sLaunchCount raw ≠ 0 ∨
    sReserved raw ≠ 0 ∨ descPreempt raw = 3 ∨ d.validWin l (sCkptTable raw) (16 * sCkptRegions raw) = false := by
  simp only [Dev.restoreBad, Bool.or_eq_true, bne_iff_ne, beq_iff_eq, Bool.not_eq_true', or_assoc]

section Restore
variable {s : State} {l v : VitId} {r : RingId} {f : Fetched} {raw : BitVec 512}

/-- A command that completes a ring's first undecided descriptor, from a view in which the rings stand, decides it. -/
theorem completes_decided {i : Instr} {F : X → X} {y : X} {r : Nat} {st det : Nat} (hhead : (s.dev.ring v r).head = some f) (hexec : exec i s = run s F) (hsrv : y.dev.srv = s.dev.srv)
    (hF : F { dev := s.dev, mem := s.mem, mram := s.mram } = y.complete v r f.seq st det) : Completes i s (Decided v r f st det s) := by
  have hdone : f.done = none := by
    have hnone := List.find?_some (p := fun g : Fetched => g.done.isNone) hhead
    exact Option.isNone_iff_eq_none.1 hnone
  have hring : y.dev.ring v r = s.dev.ring v r := by rw [Dev.ring, hsrv, Dev.ring]
  exact completes_run _ hexec hF (decided_of_complete hdone ⟨congrArg Ring.fetched hring, congrArg Ring.cqTail hring⟩ ⟨rfl, rfl⟩)

variable (hhead : (s.dev.ring v r.toNat).head = some f) (hleader : (s.dev.vit v).leader = some l) (hraw : f.raw = raw) (hop : descOp raw = 2) (htype : (s.dev.ring v r.toNat).type = 0)
  (hserves : s.dev.serves v = true) (hfreezing : (s.dev.crate l).freezing = false) (hassigned : (s.dev.vit v).st = .assigned)
include hhead hleader hraw hop htype hserves hfreezing hassigned

/-- A RESTORE descriptor with bad fields completes BAD_DESCRIPTOR. -/
theorem restore_bad (hbad : s.dev.restoreBad l raw = true) : Completes (.restore v r f.seq) s (Decided v r.toNat f 3 0 s) := by
  have hexec : exec (.restore v r f.seq) s = execRestore v r f.seq s := rfl
  unfold Dev.restoreBad at hbad
  subst hraw
  refine completes_decided (y := s.view) hhead hexec rfl ?_
  simp only [hhead, hleader, hop, htype, hserves, hfreezing, hassigned, bne_self_eq_false, Bool.not_true, Bool.or_self, hbad, if_true]
  rfl

variable {y z : X} {rs : List Region} (hgood : s.dev.restoreBad l raw = false)
  (hfree : ∀ w ∈ vitsOf (sMask raw), s.dev.stepOn w = none ∧ s.dev.runs (dieOfVit w) = true ∧ (s.dev.vit w).st ≠ .withdrawn)
  (hregions : s.view.regions raw = (y, rs, false)) (hckpt : y.dev.ckptOk l raw rs = true)
  (hvits : ∀ w, (y.dev.vit w).ckptLocal = (s.dev.vit w).ckptLocal ∧ (y.dev.vit w).st = (s.dev.vit w).st)
include hgood hfree hregions hckpt hvits

/-- What a RESTORE with good fields and regions comes to: its checkpoint copied back, or NO_CHECKPOINT. -/
theorem restore_good : ∃ F, exec (.restore v r f.seq) s = run s F ∧ F { dev := s.dev, mem := s.mem, mram := s.mram } =
    if (vitsOf (sMask raw)).any (fun w => (y.dev.vit w).ckptLocal != sCkptNumber raw) then y.complete v r.toNat f.seq 0x0E 0
    else
      let (x, poison) := y.restoreRegions (sCkptNumber raw) rs
      if poison then (x.complete v r.toNat f.seq 6 0).docentPoison l (sCkptTable raw) else x.complete v r.toNat f.seq 0 0 := by
  have hexec : exec (.restore v r f.seq) s = execRestore v r f.seq s := rfl
  refine ⟨_, hexec, ?_⟩
  have hready : (vitsOf (sMask raw)).any (fun w => (s.dev.stepOn w).isSome || !s.dev.runs (dieOfVit w)) = false := by
    refine List.any_eq_false.2 (fun w hw => ?_)
    obtain ⟨hstep, hruns, -⟩ := hfree w hw
    simp [hstep, hruns]
  have hhere : (vitsOf (sMask raw)).any (fun w => (y.dev.vit w).st == .withdrawn) = false := by
    refine List.any_eq_false.2 (fun w hw => ?_)
    obtain ⟨-, -, hst⟩ := hfree w hw
    simpa [(hvits w).2] using hst
  unfold Dev.restoreBad at hgood
  unfold State.view at hregions
  subst hraw
  simp only [hhead, hleader, hop, htype, hserves, hfreezing, hassigned, bne_self_eq_false, Bool.not_true, Bool.or_self, Bool.false_eq_true, if_false, hgood, hready, hregions, hckpt, hhere]
  rfl

theorem restore_mismatch (hsrv : y.dev.srv = s.dev.srv) (hmiss : ∃ w ∈ vitsOf (sMask raw), (s.dev.vit w).ckptLocal ≠ sCkptNumber raw) :
    Completes (.restore v r f.seq) s (Decided v r.toNat f 0x0E 0 s) := by
  obtain ⟨F, hexec, hF⟩ := restore_good hhead hleader hraw hop htype hserves hfreezing hassigned hgood hfree hregions hckpt hvits
  have hany : (vitsOf (sMask raw)).any (fun w => (y.dev.vit w).ckptLocal != sCkptNumber raw) = true := by
    obtain ⟨w, hw, hne⟩ := hmiss
    exact List.any_eq_true.2 ⟨w, hw, by simpa [(hvits w).1] using hne⟩
  exact completes_decided hhead hexec hsrv (hF.trans (if_pos hany))

theorem restore_copies (hmatch : ∀ w ∈ vitsOf (sMask raw), (s.dev.vit w).ckptLocal = sCkptNumber raw) (hcopied : y.restoreRegions (sCkptNumber raw) rs = (z, false))
    (hzsrv : z.dev.srv = s.dev.srv) : Completes (.restore v r f.seq) s (Decided v r.toNat f 0 0 s) := by
  obtain ⟨F, hexec, hF⟩ := restore_good hhead hleader hraw hop htype hserves hfreezing hassigned hgood hfree hregions hckpt hvits
  have hany : (vitsOf (sMask raw)).any (fun w => (y.dev.vit w).ckptLocal != sCkptNumber raw) = false := by
    refine List.any_eq_false.2 (fun w hw => ?_)
    simp [(hvits w).1, hmatch w hw]
  refine completes_decided hhead hexec hzsrv (hF.trans ?_)
  rw [hany, hcopied]
  rfl

end Restore
end Sys2Proof.Machine

namespace Sys2Proof.Machine

/-! #### STEP_START (R271, R272, R275) -/

theorem X.only_ite {l : List Part} {d : Dev} {y z : X} {c : Prop} [Decidable c] (hy : Only l d y.dev) (hz : Only l d z.dev) : Only l d (if c then y else z).dev := by
  split
  · exact hy
  · exact hz

/-- A Vitrine's settings come into force outside the serving state. -/
theorem X.enforceVit_only (x : X) (v : VitId) : Only [.vits, .cores, .cat, .fab, .gal, .fresh] x.dev (x.enforceVit v).dev := by
  unfold X.enforceVit
  extract_lets ch changed x1 x2 x3 x4 x5 k x6 x7
  have h1 : Only [.vits, .cores, .cat, .fab, .gal, .fresh] x.dev x1.dev := (Only.refl _ _).pvDrop v _ (by simp) (by simp)
  have h2 : Only [.vits, .cores, .cat, .fab, .gal, .fresh] x.dev x2.dev := h1.onCat _ (by simp)
  have h3 : Only [.vits, .cores, .cat, .fab, .gal, .fresh] x.dev x3.dev := X.only_ite (h2.freeAlias (by simp)) h2
  have h4 : Only [.vits, .cores, .cat, .fab, .gal, .fresh] x.dev x4.dev := X.only_ite (h3.setVit v _ (by simp)) h3
  have h5 : Only [.vits, .cores, .cat, .fab, .gal, .fresh] x.dev x5.dev := X.only_ite (h4.pvDrop v _ (by simp) (by simp)) h4
  have h6 : Only [.vits, .cores, .cat, .fab, .gal, .fresh] x.dev x6.dev := X.only_ite (((h5.with_fresh _ (by simp)).setVit v _ (by simp)).ite h5) h5
  have h7 : Only [.vits, .cores, .cat, .fab, .gal, .fresh] x.dev x7.dev := X.only_ite (h6.setVit v _ (by simp)) h6
  exact X.only_ite ((h7.setVit v _ (by simp)).foldl _ _ (fun e g => (Only.refl _ e).setSlice g _ (by simp))) h7

/-- A Vitrine's part in a step's start: its launches stand at its dispatcher, its cores' exceptions are cleared, and the start is traced. -/
def Dev.beginVit (ls : List Launch) (seq : Word) (d : Dev) (v : VitId) : Dev :=
  let mine := (ls.zipIdx.filter (fun (p : Launch × Nat) => p.1.v == v)).map (fun (p : Launch × Nat) => (p.2, p.1))
  let e := d.setVit v (fun t => { t with disp := { launches := mine } })
  let e := (coresOfVit v).foldl (fun (f : Dev) k => f.setCore (BitVec.ofNat 9 k) (fun q => { q with exc := none })) e
  e.trace v 1 0x3FF seq.toNat

/-- A step of a tenancy as it starts. -/
def Dev.newStep (d : Dev) (l : VitId) (c : Cand) : StepRec :=
  { leader := l, ringVit := c.v, ring := c.ring, seq := c.seq, raw := c.raw, mask := sMask c.raw, since := d.cyc (dieOfVit l),
    limit := (if sTimeLimit c.raw == 0 then d.vset l 0 3 else sTimeLimit c.raw) * 1024 }

/-- A ring whose step descriptor of a sequence number starts. -/
def Ring.starts (seq : Word) (q : Ring) : Ring := { q with fetched := updFirst (fun f => f.seq == seq && f.done.isNone) (fun f => { f with started := true }) q.fetched }

/-- The machine as a step starts, its Vitrines' settings in force. -/
def Dev.stepBegins (d : Dev) (l : VitId) (c : Cand) (ls : List Launch) : Dev :=
  let cls := d.vset l 0xB 1
  let d := (vitsOf (sMask c.raw)).foldl (Dev.beginVit ls c.seq) d
  let d := d.setRing c.v c.ring (Ring.starts c.seq)
  let d := d.onSrv (fun s => { s with steps := s.steps ++ [d.newStep l c] })
  (vitsOf (sMask c.raw)).foldl (fun (e : Dev) v => e.dutyStart v cls) d

theorem X.beginStep_eq (x : X) (l : VitId) (c : Cand) (ls : List Launch) :
    x.beginStep l c ls = ((vitsOf (sMask c.raw)).foldl X.enforceVit x).on (fun d => d.stepBegins l c ls) := (rfl)

section Begin
variable (d : Dev) (v : VitId)

theorem Dev.setDuty_only (q : Nat) : Only [.vits] d (d.setDuty v q) :=
  .ite (.refl _ d) (((Only.refl _ d).rebase v (by simp)).setVit v _ (by simp))

theorem Dev.disp_setVit {f : Vit → Vit} (hf : ∀ t, (f t).disp = t.disp) (w : VitId) : ((d.setVit v f).vit w).disp = (d.vit w).disp := by
  by_cases hw : w = v
  · rw [hw, Dev.vit_setVit, hf]
  · rw [Dev.vit_setVit_ne _ _ _ _ hw]

theorem Dev.disp_setDuty (q : Nat) (w : VitId) : ((d.setDuty v q).vit w).disp = (d.vit w).disp := by
  unfold Dev.setDuty
  split
  · rfl
  · exact (Dev.disp_setVit (d.rebase v) v (by intro; rfl) w).trans (Dev.disp_setVit d v (by intro; rfl) w)

theorem Dev.dutyStart_only (cls : Nat) : Only [.vits, .pow] d (d.dutyStart v cls) := by
  unfold Dev.dutyStart
  extract_lets old d1 d2 i
  have h1 : Only [.vits, .pow] d d1 := (Only.refl _ d).setVit v _ (by simp)
  have h2 : Only [.vits, .pow] d d2 := .ite (h1.trans ((d1.setDuty_only v _).mono (by simp))) h1
  exact .ite (h2.setDpow i _ (by simp)) h2

theorem Dev.disp_dutyStart (cls : Nat) (w : VitId) : ((d.dutyStart v cls).vit w).disp = (d.vit w).disp := by
  unfold Dev.dutyStart
  extract_lets old d1 d2 i
  have h1 : (d1.vit w).disp = (d.vit w).disp := Dev.disp_setVit d v (by intro; rfl) w
  have h2 : (d2.vit w).disp = (d.vit w).disp := by
    unfold d2
    split
    · rw [Dev.disp_setDuty, h1]
    · exact h1
  split
  · exact h2
  · exact h2

variable (ls : List Launch) (seq : Word)

theorem Dev.beginVit_only : Only [.vits, .cores, .cnt] d (Dev.beginVit ls seq d v) := by
  unfold Dev.beginVit
  extract_lets mine d1 d2
  have h2 : Only [.vits, .cores, .cnt] d1 d2 := (Only.refl _ d1).foldl _ _ (fun e k => (Only.refl _ e).setCore (BitVec.ofNat 9 k) _ (by simp))
  exact (((Only.refl _ d).setVit v _ (by simp)).trans h2).trace _ _ _ _ (by simp) (by simp)

/-- The dispatchers as a Vitrine begins a step. -/
theorem Dev.disp_beginVit (w : VitId) : ((Dev.beginVit ls seq d v).vit w).disp =
    if w = v then { launches := (ls.zipIdx.filter (fun p => p.1.v == v)).map (fun p => (p.2, p.1)) } else (d.vit w).disp := by
  unfold Dev.beginVit
  extract_lets mine d1 d2
  have h2 : Only [.cores] d1 d2 := (Only.refl _ d1).foldl _ _ (fun e k => (Only.refl _ e).setCore (BitVec.ofNat 9 k) _ (by simp))
  rw [Dev.disp_trace, h2.vit (by simp)]
  by_cases hw : w = v
  · rw [if_pos hw, hw, Dev.vit_setVit]
  · rw [if_neg hw, Dev.vit_setVit_ne _ _ _ _ hw]

end Begin

section StepBegins
variable (d : Dev) (l : VitId) (c : Cand) (ls : List Launch)

/-- The machine as a step starts, its Vitrines first. -/
theorem Dev.stepBegins_passes : ∃ d1 cls, d1 = (vitsOf (sMask c.raw)).foldl (Dev.beginVit ls c.seq) d ∧ Only [.vits, .cores, .cnt] d d1 ∧
    d.stepBegins l c ls = (vitsOf (sMask c.raw)).foldl (fun (e : Dev) v => e.dutyStart v cls)
      ((d1.setRing c.v c.ring (Ring.starts c.seq)).onSrv (fun s => { s with steps := s.steps ++ [d1.newStep l c] })) :=
  ⟨_, _, rfl, (Only.refl _ d).foldl _ _ (fun e v => Dev.beginVit_only e v ls c.seq), rfl⟩

theorem Dev.srv_stepBegins : (∃ d1 : Dev, (d.stepBegins l c ls).srv.steps = d.srv.steps ++ [d1.newStep l c]) ∧
    (d.stepBegins l c ls).srv.rings = (d.setRing c.v c.ring (Ring.starts c.seq)).srv.rings := by
  obtain ⟨d1, cls, -, honly, heq⟩ := d.stepBegins_passes l c ls
  have hduty : ∀ (vs : List VitId) (e : Dev), (vs.foldl (fun (e : Dev) v => e.dutyStart v cls) e).srv = e.srv := fun vs e =>
    ((Only.refl [.vits, .pow] e).foldl _ vs (fun e v => e.dutyStart_only v cls)).srv (by simp)
  have hsrv := honly.srv (by simp)
  rw [heq, hduty]
  unfold Dev.setRing Dev.onSrv
  rw [hsrv]
  exact ⟨⟨d1, rfl⟩, rfl⟩

theorem Dev.ring_stepBegins : (d.stepBegins l c ls).ring c.v c.ring = (d.ring c.v c.ring).starts c.seq := by
  rw [Dev.ring, (d.srv_stepBegins l c ls).2]
  exact d.ring_setRing c.v c.ring _

theorem Dev.disp_stepBegins (w : VitId) (hw : w ∈ vitsOf (sMask c.raw)) : ((d.stepBegins l c ls).vit w).disp.launches = (ls.zipIdx.filter (fun p => p.1.v == w)).map (fun p => (p.2, p.1)) := by
  obtain ⟨d1, cls, hd1, -, heq⟩ := d.stepBegins_passes l c ls
  have hduty : ∀ (vs : List VitId) (e : Dev), ((vs.foldl (fun (e : Dev) v => e.dutyStart v cls) e).vit w).disp = (e.vit w).disp := fun vs e =>
    foldl_keeps (fun e : Dev => (e.vit w).disp) _ (fun e v => e.disp_dutyStart v cls w) vs e
  have hbegun := foldl_attains (Dev.beginVit ls c.seq) (fun _ => True) (fun v e => (e.vit v).disp = { launches := (ls.zipIdx.filter (fun p => p.1.v == v)).map (fun p => (p.2, p.1)) })
    (fun _ _ _ => trivial) (fun e v _ => (Dev.disp_beginVit e v ls c.seq v).trans (if_pos rfl)) (fun e v u _ h => by
      rw [Dev.disp_beginVit]
      by_cases hu : u = v
      · rw [if_pos hu, hu]
      · rw [if_neg hu, h]) _ d trivial w hw
  rw [heq, hduty]
  refine (congrArg Disp.launches (?_ : _ = (d1.vit w).disp)).trans ?_
  · rfl
  · rw [hd1]; exact congrArg Disp.launches hbegun

end StepBegins
end Sys2Proof.Machine

namespace Sys2Proof.Machine

/-- What a candidate's refusal comes to (R272). -/
def Dev.refused (d : Dev) (l : VitId) : Dev := (d.count 0x801A 1 l.toNat).setJob l (fun j => if j.st == 3 then {} else j)

theorem X.refuseStep_eq (x : X) (l : VitId) (c : Cand) (status : Nat) : x.refuseStep l c status = (x.on (fun d => d.refused l)).complete c.v c.ring c.seq status 0 := (rfl)

/-- A step whose mask or fields fail their checks is refused as BAD_DESCRIPTOR. -/
theorem X.tryStart_refuses (x : X) (l : VitId) (c : Cand) (h : x.dev.maskBad l (sMask c.raw) = true ∨ x.dev.stepBad l c.raw = true) : x.tryStart l c = x.refuseStep l c 3 :=
  if_pos (Bool.or_eq_true_iff.2 h)

section Start
variable {s : State} {l : VitId} {c : Cand} {f : Fetched}
  (hleads : s.dev.leads l = true) (hserves : s.dev.serves l = true) (hassigned : (s.dev.vit l).st = .assigned) (hfreezing : (s.dev.crate l).freezing = false)
  (hcands : s.dev.candidates l = [c]) (hfresh : c.saved = false) (hstartable : s.dev.startable (sMask c.raw) = true) (hfree : ∀ w ∈ vitsOf (sMask c.raw), s.dev.stepOn w = none)
include hleads hserves hassigned hfreezing hcands hfresh hstartable hfree

/-- The leader's loop tries to start its one candidate. -/
theorem stepStart_tries : ∃ F, exec (.stepStart l) s = run s F ∧ F { dev := s.dev, mem := s.mem, mram := s.mram } = s.view.tryStart l c := by
  have hexec : exec (.stepStart l) s = execStepStart l s := rfl
  refine ⟨_, hexec, ?_⟩
  have hnone : (vitsOf (sMask c.raw)).filterMap (fun v => s.dev.stepOn v) = [] := List.filterMap_eq_nil_iff.2 hfree
  simp only [hleads, hserves, hassigned, hfreezing, hcands, List.foldl_cons, List.foldl_nil, hfresh, hstartable, hnone, List.isEmpty_nil, beq_self_eq_true, Bool.not_true,
    Bool.not_false, Bool.true_or, Bool.true_and, Bool.false_and, Bool.or_self, Bool.false_eq_true, if_false]
  by_cases hmask : s.dev.maskBad l (sMask c.raw) = true
  · rw [if_pos hmask]
    exact (s.view.tryStart_refuses l c (.inl hmask)).symm
  · rw [if_neg hmask, if_pos (by simp)]
    rfl

variable (hseq : f.seq = c.seq) (hdone : f.done = none)
include hseq hdone

/-- A step with bad fields completes BAD_DESCRIPTOR. -/
theorem stepStart_refuses (hbad : s.dev.maskBad l (sMask c.raw) = true ∨ s.dev.stepBad l c.raw = true) :
    Completes (.stepStart l) s (fun t => Decided c.v c.ring f 3 0 s t ∧ t.dev.srv.steps = s.dev.srv.steps ∧
      t.dev.counter 0x801A 1 l.toNat = (s.dev.counter 0x801A 1 l.toNat + 1) % 2 ^ 64) := by
  obtain ⟨F, hexec, hF⟩ := stepStart_tries hleads hserves hassigned hfreezing hcands hfresh hstartable hfree
  have hlt := l.isLt
  rw [s.view.tryStart_refuses l c hbad, X.refuseStep_eq] at hF
  have hposts := Posts.complete (s.view.on (fun d => d.refused l)) c.v c.ring c.seq 3 0
  refine completes_run _ hexec hF ⟨?_, hposts.steps, ?_⟩
  · rw [← hseq]
    exact decided_of_complete hdone ⟨rfl, rfl⟩ ⟨rfl, rfl⟩
  · rw [hposts.counter (by decide) (by decide) (by omega)]
    exact s.dev.counter_countOne _ _ _

/-- A step whose fields and launches pass their checks starts. -/
theorem stepStart_begins (hfetched : (s.dev.ring c.v c.ring).fetched = [f]) {y : X} {n : Nat} (hmask : s.dev.maskBad l (sMask c.raw) = false)
    (hfields : s.dev.stepBad l c.raw = false) (hcount : sLaunchCount c.raw = 1) (hckpt : sCkpt c.raw = false)
    (hread : s.view.readNat (sLaunchTable c.raw) 64 = (y, n, false)) (hreserved : n % 2 ^ 302 = 0)
    (hvit : (sMask c.raw).getLsbD (launchOf n).v.toNat = true) (hhere : ∀ w ∈ vitsOf (sMask c.raw), (s.dev.vit w).st ≠ .withdrawn) :
    Completes (.stepStart l) s (fun t => (∃ u : StepRec, t.dev.srv.steps = s.dev.srv.steps ++ [u] ∧ u.leader = l ∧ u.ringVit = c.v ∧ u.ring = c.ring ∧ u.seq = c.seq ∧ u.raw = c.raw ∧
        u.mask = sMask c.raw ∧ u.st = .running ∧ u.ends = [] ∧ (sTimeLimit c.raw ≠ 0 → u.limit = sTimeLimit c.raw * 1024)) ∧
      (∀ w ∈ vitsOf (sMask c.raw), (t.dev.vit w).disp.launches = if (launchOf n).v = w then [(0, launchOf n)] else []) ∧
      (t.dev.ring c.v c.ring).fetched = [{ f with started := true }]) := by
  obtain ⟨F, hexec, hF⟩ := stepStart_tries hleads hserves hassigned hfreezing hcands hfresh hstartable hfree
  have hpost : Posts s.view y := by
    have h := Posts.readNat s.view (sLaunchTable c.raw) 64
    rwa [hread] at h
  have hsrv : y.dev.srv = s.dev.srv := by
    have haccess : Access s.view (s.view.readNat (sLaunchTable c.raw) 64).1 := Access.readBytes s.view (sLaunchTable c.raw) 64 none
    rw [hread] at haccess
    rw [haccess.dev.dev]
    rfl
  have hwithdrawn : (vitsOf (sMask c.raw)).any (fun v => (y.dev.vit v).st == .withdrawn) = false := by
    refine List.any_eq_false.2 (fun w hw => ?_)
    rw [hpost.vit w]
    simpa using hhere w hw
  have htry : s.view.tryStart l c = ((vitsOf (sMask c.raw)).foldl X.enforceVit y).on (fun d => d.stepBegins l c [launchOf n]) := by
    rw [← X.beginStep_eq, X.tryStart, hcount, hckpt]
    simp only [State.view_dev, hmask, hfields, List.range_one, List.foldl_cons, List.foldl_nil, Nat.mul_zero, Nat.add_zero, hread, hwithdrawn, Bool.or_self, Bool.false_and, Bool.false_eq_true,
      if_false, List.nil_append, List.any_cons, List.any_nil, hreserved, hvit, bne_self_eq_false, Bool.not_true, List.map_cons, List.map_nil]
  have henforced : ((vitsOf (sMask c.raw)).foldl X.enforceVit y).dev.srv = s.dev.srv :=
    (foldl_keeps (fun z : X => z.dev.srv) X.enforceVit (fun z v => (z.enforceVit_only v).srv (by simp)) _ y).trans hsrv
  obtain ⟨⟨d1, hsteps⟩, -⟩ := ((vitsOf (sMask c.raw)).foldl X.enforceVit y).dev.srv_stepBegins l c [launchOf n]
  refine completes_run _ hexec (hF.trans htry) ⟨⟨d1.newStep l c, ?_, rfl, rfl, rfl, rfl, rfl, rfl, rfl, rfl, fun hlimit => ?_⟩, fun w hw => ?_, ?_⟩
  · rw [X.on_dev, hsteps, henforced]
  · rw [Dev.newStep, beq_eq_false_iff_ne.2 hlimit]; rfl
  · rw [X.on_dev, Dev.disp_stepBegins _ l c _ w hw]
    by_cases hv : (launchOf n).v = w
    · simp [hv]
    · simp [hv]
  · have hring : ((vitsOf (sMask c.raw)).foldl X.enforceVit y).dev.ring c.v c.ring = s.dev.ring c.v c.ring := by rw [Dev.ring, henforced, Dev.ring]
    rw [X.on_dev, Dev.ring_stepBegins, hring, Ring.starts, hfetched]
    simp [updFirst, hseq, hdone]

end Start

/-- Settles O56: each command by the lemma on it. That a save leaves the memory and the Gallery's lines, the contexts standing in the step's record, is log 35's choice; that the
completed and the pre-empted steps are counted in the leader's row is log 52's. -/
theorem stepsStartEndSaveAndRestore : Obligations.StepsStartEndSaveAndRestore := by
  intro s x l hx
  refine ⟨fun c f o hleads hserves hassigned hfreezing hcands hfresh ho hfetched hseq _ hdone _ hstartable hfree => ?_, fun u hfind hself => ?_, fun u hself hdues => ?_,
    fun v r f raw hhead hleader hraw hop htype hserves hfreezing hassigned => ?_⟩
  · subst hx ho
    exact ⟨fun y n => stepStart_begins hleads hserves hassigned hfreezing hcands hfresh hstartable hfree hseq hdone hfetched,
      stepStart_refuses hleads hserves hassigned hfreezing hcands hfresh hstartable hfree hseq hdone⟩
  · exact ⟨stepTimeLimit_squashes hfind hself, fun hover hquiet hruns hckpt hcopied hrecs =>
        ⟨fun f => stepEnd_completes hfind hover hquiet hruns hckpt hcopied hrecs,
          fun hends hcopy => stepEnd_copies hfind hover hquiet hruns hckpt hcopied hrecs hends hcopy hself⟩,
      stepSafePoint_saves hfind hself, fun y z rs => ckptCopyDone_sets hx hfind hself⟩
  · exact ⟨stepSaveDone_saved hself hdues, fun c b hfind hsaved hblocks hsteps _ => stepRestoreDone_resumes hself hdues hfind hsaved hblocks hsteps⟩
  · subst hx
    refine ⟨fun hbad => restore_bad hhead hleader hraw hop htype hserves hfreezing hassigned ((s.dev.restoreBad_iff l raw).2 hbad),
      fun y z rs hmask htable hcount hreserved hpreempt hwin hfree hregions hckpt hsrv hvits => ?_⟩
    have hgood : s.dev.restoreBad l raw = false := by simp [Dev.restoreBad, hmask, htable, hcount, hreserved, hpreempt, hwin]
    exact ⟨restore_mismatch hhead hleader hraw hop htype hserves hfreezing hassigned hgood hfree hregions hckpt hvits hsrv,
      restore_copies hhead hleader hraw hop htype hserves hfreezing hassigned hgood hfree hregions hckpt hvits⟩

end Sys2Proof.Machine
